-- ==== Sys2Proof/Word.lean ====
section
/-! DEFINITION. The words of the hub: the scalar word of a Fraxo core (64 bits), the vector word (256 bits), the
32-bit element, the byte. Register fields, addresses while they are decoded and counters are natural numbers,
each reduced to its width where the spec gives it one. -/

namespace Sys2Proof

/-- A byte of memory (R3). -/
abbrev Byte := BitVec 8

/-- A 32-bit element of a vector register, and an FP32 pattern (R109, R123). -/
abbrev Word32 := BitVec 32

/-- A scalar register of a Fraxo core (R108). -/
abbrev Word64 := BitVec 64

/-- A vector register of a Fraxo core: eight 32-bit elements (R109). -/
abbrev Word256 := BitVec 256

end Sys2Proof
end

