-- ==== Sys2Proof/Syntax.lean ====
section
/-! DEFINITION. The commands of the block: the operand forms, and one constructor of Instr per row of the spec's table
of operations and events. Operands are what the row's event carries from outside: the fields of an instruction, of a
register access or of a message, and the findings of a physical process that the spec does not let the hub compute
(an ECC outcome, a sensor reading, a training result). -/

namespace Sys2Proof

/-- A Fraxo core: its floe by global number (R82) and its index in the floe. -/
structure CoreId where
  floe : BitVec 9
  core : BitVec 7
  deriving DecidableEq, Repr

/-- R format (Table 4 of 05) without MAJ and FN: rd, rs1, rs2 and X. -/
structure RForm where
  rd : BitVec 5
  rs1 : BitVec 5
  rs2 : BitVec 5
  x : BitVec 5
  deriving DecidableEq, Repr

/-- I format: rd, rs1, IMM16. -/
structure IForm where
  rd : BitVec 5
  rs1 : BitVec 5
  imm : BitVec 16
  deriving DecidableEq, Repr

/-- I format of a row that fixes four bits of IMM16 (SYS: IMM[3:0]; CSR and DEW: IMM[15:12]): the other twelve. -/
structure I12Form where
  rd : BitVec 5
  rs1 : BitVec 5
  imm : BitVec 12
  deriving DecidableEq, Repr

/-- I format of FENCE, which fixes IMM[1:0]: the other fourteen bits. -/
structure I14Form where
  rd : BitVec 5
  rs1 : BitVec 5
  imm : BitVec 14
  deriving DecidableEq, Repr

/-- S format: rs2 (data), rs1 (base), IMM16. -/
structure SForm where
  rs2 : BitVec 5
  rs1 : BitVec 5
  imm : BitVec 16
  deriving DecidableEq, Repr

/-- B format: rs1, rs2, IMM16 as a word offset. -/
structure BForm where
  rs1 : BitVec 5
  rs2 : BitVec 5
  imm : BitVec 16
  deriving DecidableEq, Repr

/-- J format: rd, IMM21 as a word offset. -/
structure JForm where
  rd : BitVec 5
  imm : BitVec 21
  deriving DecidableEq, Repr

/-- M format: rd, HW, the reserved bits [15:13], IMM16. -/
structure MForm where
  rd : BitVec 5
  hw : BitVec 2
  res : BitVec 3
  imm : BitVec 16
  deriving DecidableEq, Repr

/-- V format without MAJ and FN: vd, va, vb, PG, FMT. -/
structure VForm where
  vd : BitVec 5
  va : BitVec 5
  vb : BitVec 5
  pg : BitVec 3
  fmt : BitVec 4
  deriving DecidableEq, Repr

/-- VM format: vd, rs1, PG, IMM13 in units of 32 bytes. -/
structure VMForm where
  vd : BitVec 5
  rs1 : BitVec 5
  pg : BitVec 3
  imm : BitVec 13
  deriving DecidableEq, Repr

/-- VC format: vd, va, X, PG, DFMT, SFMT. -/
structure VCForm where
  vd : BitVec 5
  va : BitVec 5
  x : BitVec 5
  pg : BitVec 3
  dfmt : BitVec 4
  sfmt : BitVec 4
  deriving DecidableEq, Repr

/-- P format: d, a, b and the reserved bits [27:21]. -/
structure PForm where
  d : BitVec 5
  a : BitVec 5
  b : BitVec 5
  res : BitVec 7
  deriving DecidableEq, Repr

/-- A queue command of 64 bytes (R356, R357): function (0 PF, 1-48 VF), queue, SQ_HEAD after its fetch, its bytes. -/
structure QCmd where
  fn : Nat
  q : Nat
  sqHead : Nat
  raw : BitVec 512
  deriving DecidableEq, Repr

/-- Who writes a doorbell (R234, R294): the PF's BAR0, a VF's BAR0, or a master of a partition through the internal register
space. -/
inductive DbSrc where
  | pf
  | vf (v : BitVec 6)
  | master (part : BitVec 5)
  deriving DecidableEq, Repr

/-- A request at a Firn slice (R217): the line (HPA div 128), read or write, its sectors, the write's byte mask and data
over the 128 bytes, poison per sector, the allocating hint of R214, the key generation it carries (R332), and a tag that
names it to its master. -/
structure SliceReq where
  line : Nat
  write : Bool
  sectors : BitVec 4
  mask : BitVec 128
  data : BitVec 1024
  poison : BitVec 4
  alloc : Bool
  keyGen : Nat
  tag : Nat
  deriving DecidableEq, Repr

/-- What a slice's parity check finds as it looks a line up (R225, R226): sectors whose data fail, a failing tag or state,
and a state that cannot be read. -/
structure ParityFind where
  data : BitVec 4
  tag : Bool
  unreadable : Bool
  deriving DecidableEq, Repr

/-- What a channel controller finds as it reads a line (R193-R195, R200, R460): sectors corrected, sectors uncorrectable,
sectors whose MAC does not verify, and whether the bank has a spare row. -/
structure EccFind where
  ce : BitVec 4
  ue : BitVec 4
  mac : BitVec 4
  spare : Bool
  deriving DecidableEq, Repr

/-- A translated access that a port issues and that misses its TLBs (R261): the kind of master and its port and context as
the fault record shows them (Table 10 of 11), the ASID, the address, and what it is: 0 read, 1 write, 2 atomic. -/
structure XltReq where
  kind : BitVec 3
  port : BitVec 16
  context : BitVec 32
  asid : BitVec 12
  va : BitVec 64
  acc : BitVec 2
  deriving DecidableEq, Repr

/-- What a site answers during Sounding (R296): the Chiplet Descriptor (1,088 bytes), the CREDITS word, whether the SPDM
exchange completed and verified, the digests it gave (R303), the modules that trained. -/
structure SoundIn where
  desc : BitVec 8704
  credits : BitVec 64
  spdmOk : Bool
  chainDigest : BitVec 384
  measDigest : BitVec 384
  trained : BitVec 6
  deriving DecidableEq, Repr

/-- The interfaces that reach configuration and commands, by their OWNER_IF code (R39). -/
structure Iface where
  code : BitVec 4
  deriving DecidableEq, Repr

/-- A Drift packet as it arrives on a link (R376, Table 3 of 16), its TYPE told by the row: the link, the sender's address,
what the checks below the transport found (0 good; 1 no IP/UDP frame to UDP_PORT and to the link's address, or lost to FEC or
FCS; 2 failed a MACsec check: R373, R375, R393), whether its IP header carries CE, FLAGS, the path numbers, the PSN, and the
payload (LEN is its length). -/
structure LinkPkt where
  link : BitVec 7
  ip : BitVec 128
  v4 : Bool
  check : BitVec 2
  ce : Bool
  flags : BitVec 8
  srcPath : BitVec 16
  dstPath : BitVec 16
  psn : BitVec 24
  data : List (BitVec 8)
  deriving DecidableEq, Repr

/-- The request extension (Table 4 of 16). -/
structure ReqExt where
  window : BitVec 12
  gen : BitVec 8
  detail : BitVec 8
  wkey : BitVec 32
  offset : BitVec 36
  rlen : BitVec 32
  deriving DecidableEq, Repr

/-- The collective extension (Table 6 of 17). -/
structure ColExt where
  gkey : BitVec 32
  dstGroup : BitVec 8
  step : BitVec 8
  srcRank : BitVec 12
  seq : BitVec 32
  chunk : BitVec 32
  arg : BitVec 32
  part : BitVec 32
  deriving DecidableEq, Repr

/-- The strap pins as PORST_N rises (R58, R493), and whether PERST_N is already deasserted (R59). -/
structure Straps where
  role : Bool
  twinEn : Bool
  nodeId : BitVec 7
  bootMode : BitVec 2
  perstHigh : Bool
  deriving DecidableEq, Repr

/-- What bridge Sounding of the partner answers (R27, R74-R76): its straps, silicon revision, feature level, unit identifier
and life-cycle state. -/
structure Partner where
  role : Bool
  twinEn : Bool
  rev : BitVec 8
  fl : BitVec 4
  unit : BitVec 64
  life : BitVec 2
  deriving DecidableEq, Repr

/-- What training a stack finds (R71, R38): whether it trained and its options are supported, the speed it reached, and the
density and maker of its IEEE 1500 identity. -/
structure StackFound where
  ok : Bool
  speed : BitVec 2
  density : BitVec 3
  maker : BitVec 16
  deriving DecidableEq, Repr

/-- What the boot finds outside the hub as a step of Table 8 of 03 completes: the partner (step 4), the stacks n = 0-23 as
they trained (step 7). -/
structure BootIn where
  partner : Option Partner
  found : List StackFound
  deriving DecidableEq, Repr

/-- The readings of an allotment pass (R415, R424): demand of each die's floe activity, power of each die and of each stack
over the last 1 ms, all in units of 0.1 W. -/
structure PowerIn where
  dieDemand : List (BitVec 16)
  diePower : List (BitVec 16)
  stackPower : List (BitVec 16)
  deriving DecidableEq, Repr

/-- An Almanac request (Table 6 of 19): STAGED, TAG, INDEX, SUB and the data of a WRITE. -/
structure AlmReq where
  staged : Bool
  tag : BitVec 16
  index : BitVec 16
  sub : BitVec 8
  data : List (BitVec 8)
  deriving DecidableEq, Repr

/-- An SPDM request (R451): the transport (0 DOE, 1 MCTP over I3C, 2 MCTP over PCIe VDM), the session it travels in (0 none),
the request code and its two parameters, and whether its body is well formed and verifies. -/
structure SpdmReq where
  transport : BitVec 2
  session : BitVec 4
  code : BitVec 8
  p1 : BitVec 8
  p2 : BitVec 8
  slot : BitVec 4
  ok : Bool
  deriving DecidableEq, Repr

/-- An IDE_KM message (R455): its session, the stream (0-7 selective, 8 the link stream), key set, direction and
sub-stream, and for KEY_PROG the key and IV. -/
structure IdeReq where
  session : BitVec 4
  stream : BitVec 4
  keySet : Bool
  rxTx : Bool
  sub : BitVec 2
  key : BitVec 352
  deriving DecidableEq, Repr

/-- A TDISP message (R456): its session, the VF, and for LOCK_INTERFACE the selective stream it binds. -/
structure TdispReq where
  session : BitVec 4
  vf : BitVec 6
  stream : BitVec 4
  deriving DecidableEq, Repr

/-- A command: one constructor per row of the table of operations and events. -/
inductive Instr where
  /-- REGISTER_WRITE (R8). A BAR0 write to a register that has no row of its own updates its fields by type, holding or combining 64-bit halves and splitting RWF fields off as a staged write. -/
  | registerWrite (fn : BitVec 6) (off : BitVec 28) (bytes : BitVec 4) (w : BitVec 64)
  /-- BAR0_BAD_ACCESS (R4). A BAR0 access of a width or alignment other than allowed reads zero, is ignored and writes record 0x0A01. -/
  | bar0BadAccess (fn : BitVec 6) (off : BitVec 28) (bytes : BitVec 4) (write : Bool)
  /-- COMMIT (R503). A CFG_COMMIT write with DISCARD 0 is checked and, if it passes, starts validation and prepare of the forecast. -/
  | commit (via : Iface) (w : BitVec 64)
  /-- VALIDATE_ONLY (R47). A CFG_COMMIT write with VALIDATE_ONLY 1 validates the forecast and reports the result without applying it. -/
  | validateOnly (via : Iface) (w : BitVec 64)
  /-- DISCARD (R503). A CFG_COMMIT write with DISCARD 1 discards the forecast and releases ownership. -/
  | discard (via : Iface)
  /-- BREAK (R40). A PF MMIO write of 1 to CFG_OWNER.BREAK discards the forecast and releases ownership. -/
  | breakForecast (via : Iface)
  /-- FORECAST_IDLE_EXPIRY (R40). The owner's idle time reaches CFG_EXPIRY.IDLE_S and the hub discards the forecast and sets FORECAST_EXPIRED. -/
  | forecastIdleExpiry
  /-- FSET_LOAD (R43). A write of CFG_FSET_LOAD.LOAD reads a forecast set and applies its entries as staged writes, or reports SET_FORMAT or SET_READ. -/
  | fsetLoad
  /-- TWIN_PREPARE_READY (R45). The secondary's ready answer to a prepare request arrives at the primary. -/
  | twinPrepareReady
  /-- COMMIT_APPLY (R45). When the prepare drain ends, the hub moves staged values to active, increments CFG_EPOCH and opens gates. -/
  | commitApply
  /-- COMMIT_DRAIN_TIMEOUT (R46). Prepare exceeds 100 ms; the commit fails with DRAIN_TIMEOUT and gates reopen. -/
  | commitDrainTimeout
  /-- COMMIT_TWIN_TIMEOUT (R46). The secondary does not answer within 10 ms; the commit fails with TWIN_TIMEOUT. -/
  | commitTwinTimeout
  /-- RETRAIN_DONE (R45). A stack or link quad retrained by a commit finishes and its gate opens. -/
  | retrainDone (quad : Bool) (n : BitVec 5) (speed : BitVec 2)
  /-- PORST_N_ASSERT (R80). PORST_N goes low and the die enters cold reset. -/
  | porstNAssert
  /-- PORST_N_DEASSERT (R58). PORST_N rises; the straps are latched and boot starts. -/
  | porstNDeassert (x : Straps)
  /-- PERST_N_ASSERT (R73). PERST_N asserts on the primary and causes a hub reset. -/
  | perstNAssert
  /-- PERST_N_DEASSERT (R69). PERST_N rises and the PCIe endpoint starts answering with CRS. -/
  | perstNDeassert
  /-- BOOT_STEP_COMPLETE (R69). A boot step of Table 8 finishes and the next starts, advancing GLB_BOOT_STATUS.STAGE. -/
  | bootStepComplete (x : BootIn)
  /-- HALT_SERVICE_START (R74). A halted die starts its management core in halt service. -/
  | haltServiceStart
  /-- PARTNER_SOUNDING_TIMEOUT (R76). The secondary does not answer bridge Sounding within 100 ms and is held in reset. -/
  | partnerSoundingTimeout
  /-- GLB_RESET (R80). A write to GLB_RESET with the correct KEY causes a hub reset. -/
  | glbReset (w : BitVec 32)
  /-- WATCHDOG_EXPIRY (R479). The management-core watchdog expires and hub-fatal recovery starts. -/
  | watchdogExpiry
  /-- HUB_FATAL_ERROR (R479). A hub-fatal error is detected; ports stop, the record is written and the hub resets. -/
  | hubFatalError (code : BitVec 16) (inst : BitVec 16) (d0 d1 : BitVec 64)
  /-- ACTIVATION_COMPLETE (R79). The restarted security core answers with the new image and a new alias key. -/
  | activationComplete
  /-- LAUNCH (R93). The LAUNCH queue command is checked and its grid is queued on the floe set. -/
  | launch (cmd : QCmd)
  /-- TILE_START (R89). Floe control deals the next tile to a free slot and starts it. -/
  | tileStart (launch : Nat) (floe : BitVec 9)
  /-- LAUNCH_COMPLETE (R94). The last tile has ended and its writes are visible; the completion is posted. -/
  | launchComplete (launch : Nat)
  /-- LAUNCH_TIMEOUT (R95). TIMEOUT_US elapses and the launch ends with TIMEOUT. -/
  | launchTimeout (launch : Nat)
  /-- LAUNCH_ABORT (R96). The LAUNCH_ABORT command ends a launch with ABORTED, or has no effect. -/
  | launchAbort (cmd : QCmd)
  /-- FLOE_RESET_DONE (R97). A floe domain reset completes within 50 µs. -/
  | floeResetDone (floe : BitVec 9)
  /-- FLOE_CTRL_RESET (R97). A write of FLC_FLOE_CTRL.RESET resets an idle floe or sets RESET_REFUSED. -/
  | floeCtrlReset (floe : BitVec 9)
  /-- FLOE_IDLE_GATE (R106). A floe idle for 1,000 cycles is clock-gated. -/
  | floeIdleGate (floe : BitVec 9)
  /-- FLOE_FREQ_CHANGE (R105). Isotherm's frequency decision takes effect on a floe. -/
  | floeFreqChange (floe : BitVec 9) (freq : BitVec 4)
  /-- DMA_COMPLETE (R104). A floe DMA request completes when every destination byte is visible. -/
  | dmaComplete (floe : BitVec 9) (ch : BitVec 4) (i : BitVec 2)
  /-- EVT_WAIT_WAKE (R100). A core waiting on an event counter wakes once the counter meets its target. -/
  | evtWaitWake (c : CoreId)
  /-- ADD (R116). Integer add of two registers. -/
  | add (c : CoreId) (f : RForm)
  /-- SUB (R116). Integer subtract. -/
  | sub (c : CoreId) (f : RForm)
  /-- AND (R116). Bitwise AND. -/
  | and (c : CoreId) (f : RForm)
  /-- OR (R116). Bitwise OR. -/
  | or (c : CoreId) (f : RForm)
  /-- XOR (R116). Bitwise XOR. -/
  | xor (c : CoreId) (f : RForm)
  /-- SLL (R116). Shift left logical. -/
  | sll (c : CoreId) (f : RForm)
  /-- SRL (R116). Shift right logical. -/
  | srl (c : CoreId) (f : RForm)
  /-- SRA (R116). Shift right arithmetic. -/
  | sra (c : CoreId) (f : RForm)
  /-- SLT (R116). Set if less than, signed. -/
  | slt (c : CoreId) (f : RForm)
  /-- SLTU (R116). Set if less than, unsigned. -/
  | sltu (c : CoreId) (f : RForm)
  /-- MIN (R116). Signed minimum. -/
  | min (c : CoreId) (f : RForm)
  /-- MAX (R116). Signed maximum. -/
  | max (c : CoreId) (f : RForm)
  /-- MINU (R116). Unsigned minimum. -/
  | minu (c : CoreId) (f : RForm)
  /-- MAXU (R116). Unsigned maximum. -/
  | maxu (c : CoreId) (f : RForm)
  /-- MUL (R116). Integer multiply, low 64 bits. -/
  | mul (c : CoreId) (f : RForm)
  /-- MULH (R116). Integer multiply, high 64 bits, signed. -/
  | mulh (c : CoreId) (f : RForm)
  /-- MULHU (R116). Integer multiply, high 64 bits, unsigned. -/
  | mulhu (c : CoreId) (f : RForm)
  /-- DIV (R116). Signed divide with defined division by zero. -/
  | div (c : CoreId) (f : RForm)
  /-- DIVU (R116). Unsigned divide. -/
  | divu (c : CoreId) (f : RForm)
  /-- REM (R116). Signed remainder. -/
  | rem (c : CoreId) (f : RForm)
  /-- REMU (R116). Unsigned remainder. -/
  | remu (c : CoreId) (f : RForm)
  /-- CLZ (R116). Count leading zeros. -/
  | clz (c : CoreId) (f : RForm)
  /-- CTZ (R116). Count trailing zeros. -/
  | ctz (c : CoreId) (f : RForm)
  /-- POPC (R116). Population count. -/
  | popc (c : CoreId) (f : RForm)
  /-- SEL (R115). Select rs1 or rs2 by s[X]. -/
  | sel (c : CoreId) (f : RForm)
  /-- ADDI (R116). Add sign-extended immediate. -/
  | addi (c : CoreId) (f : IForm)
  /-- ANDI (R116). AND zero-extended immediate. -/
  | andi (c : CoreId) (f : IForm)
  /-- ORI (R116). OR zero-extended immediate. -/
  | ori (c : CoreId) (f : IForm)
  /-- XORI (R116). XOR zero-extended immediate. -/
  | xori (c : CoreId) (f : IForm)
  /-- SLTI (R116). Set if less than signed immediate. -/
  | slti (c : CoreId) (f : IForm)
  /-- SLTIU (R116). Set if less than immediate, unsigned. -/
  | sltiu (c : CoreId) (f : IForm)
  /-- SHI (R116). Shift or rotate by an immediate amount. -/
  | shi (c : CoreId) (f : IForm)
  /-- MOVZ (R115). Move a shifted 16-bit immediate, zeroing other bits. -/
  | movz (c : CoreId) (f : MForm)
  /-- MOVK (R115). Insert a 16-bit immediate, keeping other bits. -/
  | movk (c : CoreId) (f : MForm)
  /-- FADD (R123). FP32 scalar add. -/
  | fadd (c : CoreId) (f : RForm)
  /-- FSUB (R123). FP32 scalar subtract. -/
  | fsub (c : CoreId) (f : RForm)
  /-- FMUL (R123). FP32 scalar multiply. -/
  | fmul (c : CoreId) (f : RForm)
  /-- FDIV (R123). FP32 scalar divide. -/
  | fdiv (c : CoreId) (f : RForm)
  /-- FSQRT (R123). FP32 scalar square root. -/
  | fsqrt (c : CoreId) (f : RForm)
  /-- FMIN (R124). FP32 scalar minimum. -/
  | fmin (c : CoreId) (f : RForm)
  /-- FMAX (R124). FP32 scalar maximum. -/
  | fmax (c : CoreId) (f : RForm)
  /-- FMA (R123). FP32 scalar fused multiply-add. -/
  | fma (c : CoreId) (f : RForm)
  /-- FCVT_L (R116). Convert FP32 to int64. -/
  | fcvtL (c : CoreId) (f : RForm)
  /-- FCVT_S (R116). Convert int64 to FP32. -/
  | fcvtS (c : CoreId) (f : RForm)
  /-- FEQ (R123). FP32 compare equal. -/
  | feq (c : CoreId) (f : RForm)
  /-- FLT (R123). FP32 compare less than. -/
  | flt (c : CoreId) (f : RForm)
  /-- FLE (R123). FP32 compare less or equal. -/
  | fle (c : CoreId) (f : RForm)
  /-- NOP (R115). SYS no operation. -/
  | nop (c : CoreId) (f : I12Form)
  /-- ENDT (R135). End the core's part of the tile and OR its FFLAGS into the launch summary. -/
  | endt (c : CoreId) (f : I12Form)
  /-- TRAP (R140). Raise exception TRAP with a code, ending the launch. -/
  | trap (c : CoreId) (f : I12Form)
  /-- FENCE_I (R120). Make earlier stores visible and invalidate the core's instruction cache. -/
  | fenceI (c : CoreId) (f : I12Form)
  /-- CSRR (R110). Read a CSR. -/
  | csrr (c : CoreId) (f : I12Form)
  /-- CSRW (R110). Write a CSR, returning the old value. -/
  | csrw (c : CoreId) (f : I12Form)
  /-- CSRS (R110). Set CSR bits. -/
  | csrs (c : CoreId) (f : I12Form)
  /-- CSRC (R110). Clear CSR bits. -/
  | csrc (c : CoreId) (f : I12Form)
  /-- LDB (R118). Load byte, sign-extended. -/
  | ldb (c : CoreId) (f : IForm)
  /-- LDH (R118). Load halfword, sign-extended. -/
  | ldh (c : CoreId) (f : IForm)
  /-- LDW (R118). Load word, sign-extended. -/
  | ldw (c : CoreId) (f : IForm)
  /-- LDD (R118). Load doubleword. -/
  | ldd (c : CoreId) (f : IForm)
  /-- LDBU (R118). Load byte, zero-extended. -/
  | ldbu (c : CoreId) (f : IForm)
  /-- LDHU (R118). Load halfword, zero-extended. -/
  | ldhu (c : CoreId) (f : IForm)
  /-- LDWU (R118). Load word, zero-extended. -/
  | ldwu (c : CoreId) (f : IForm)
  /-- STB (R118). Store byte. -/
  | stb (c : CoreId) (f : SForm)
  /-- STH (R118). Store halfword. -/
  | sth (c : CoreId) (f : SForm)
  /-- STW (R118). Store word. -/
  | stw (c : CoreId) (f : SForm)
  /-- STD (R118). Store doubleword. -/
  | std (c : CoreId) (f : SForm)
  /-- VLD (R118). Load 32 bytes into a vector register under predicate. -/
  | vld (c : CoreId) (f : VMForm)
  /-- VST (R118). Store 32 bytes from a vector register under predicate. -/
  | vst (c : CoreId) (f : VMForm)
  /-- VLDX (R122). Gather eight 32-bit elements. -/
  | vldx (c : CoreId) (f : VForm)
  /-- VSTX (R122). Scatter eight 32-bit elements. -/
  | vstx (c : CoreId) (f : VForm)
  /-- AMO_ADD (R121). Atomic add, returning the old value. -/
  | amoAdd (c : CoreId) (f : RForm)
  /-- AMO_AND (R121). Atomic AND. -/
  | amoAnd (c : CoreId) (f : RForm)
  /-- AMO_OR (R121). Atomic OR. -/
  | amoOr (c : CoreId) (f : RForm)
  /-- AMO_XOR (R121). Atomic XOR. -/
  | amoXor (c : CoreId) (f : RForm)
  /-- AMO_MIN (R121). Atomic signed minimum. -/
  | amoMin (c : CoreId) (f : RForm)
  /-- AMO_MAX (R121). Atomic signed maximum. -/
  | amoMax (c : CoreId) (f : RForm)
  /-- AMO_MINU (R121). Atomic unsigned minimum. -/
  | amoMinu (c : CoreId) (f : RForm)
  /-- AMO_MAXU (R121). Atomic unsigned maximum. -/
  | amoMaxu (c : CoreId) (f : RForm)
  /-- AMO_SWAP (R121). Atomic swap. -/
  | amoSwap (c : CoreId) (f : RForm)
  /-- AMO_CAS (R121). Atomic compare and swap. -/
  | amoCas (c : CoreId) (f : RForm)
  /-- BEQ (R117). Branch if equal. -/
  | beq (c : CoreId) (f : BForm)
  /-- BNE (R117). Branch if not equal. -/
  | bne (c : CoreId) (f : BForm)
  /-- BLT (R117). Branch if less than, signed. -/
  | blt (c : CoreId) (f : BForm)
  /-- BGE (R117). Branch if greater or equal, signed. -/
  | bge (c : CoreId) (f : BForm)
  /-- BLTU (R117). Branch if less than, unsigned. -/
  | bltu (c : CoreId) (f : BForm)
  /-- BGEU (R117). Branch if greater or equal, unsigned. -/
  | bgeu (c : CoreId) (f : BForm)
  /-- JAL (R117). Jump and link, PC-relative. -/
  | jal (c : CoreId) (f : JForm)
  /-- JALR (R117). Jump and link to a register target. -/
  | jalr (c : CoreId) (f : IForm)
  /-- BP (R117). Branch on a predicate ANY, ALL or NONE. -/
  | bp (c : CoreId) (f : BForm)
  /-- FENCE_LD (R120). Hold later loads until earlier loads return. -/
  | fenceLd (c : CoreId) (f : I14Form)
  /-- FENCE_ST (R120). Make earlier stores visible before later stores and events. -/
  | fenceSt (c : CoreId) (f : I14Form)
  /-- FENCE_ALL (R120). Complete and make visible every earlier access. -/
  | fenceAll (c : CoreId) (f : I14Form)
  /-- BAR (R131). Fence, then arrive at a barrier; the last arrival releases its cores. -/
  | bar (c : CoreId) (f : IForm)
  /-- EVT_READ (R132). Read an event counter. -/
  | evtRead (c : CoreId) (f : RForm)
  /-- EVT_SET (R132). Set an event counter after FENCE.ST. -/
  | evtSet (c : CoreId) (f : RForm)
  /-- EVT_ADD (R132). Add to an event counter after FENCE.ST, returning the old value. -/
  | evtAdd (c : CoreId) (f : RForm)
  /-- EVT_WAIT (R132). Block until an event counter meets its target. -/
  | evtWait (c : CoreId) (f : RForm)
  /-- DMAIS (R133). Issue a floe DMA request to a channel. -/
  | dmais (c : CoreId) (f : RForm)
  /-- DMAST (R133). Return the busy-channel map. -/
  | dmast (c : CoreId) (f : RForm)
  /-- DMAWT (R133). Block until a DMA channel is idle. -/
  | dmawt (c : CoreId) (f : RForm)
  /-- VADD (R123). Vector floating add. -/
  | vadd (c : CoreId) (f : VForm)
  /-- VSUB (R123). Vector floating subtract. -/
  | vsub (c : CoreId) (f : VForm)
  /-- VMUL (R123). Vector floating multiply. -/
  | vmul (c : CoreId) (f : VForm)
  /-- VMIN (R124). Vector floating minimum. -/
  | vmin (c : CoreId) (f : VForm)
  /-- VMAX (R124). Vector floating maximum. -/
  | vmax (c : CoreId) (f : VForm)
  /-- VABS (R123). Vector absolute value. -/
  | vabs (c : CoreId) (f : VForm)
  /-- VNEG (R123). Vector negate. -/
  | vneg (c : CoreId) (f : VForm)
  /-- VDIV (R123). Vector divide. -/
  | vdiv (c : CoreId) (f : VForm)
  /-- VSQRT (R123). Vector square root. -/
  | vsqrt (c : CoreId) (f : VForm)
  /-- VFMA (R123). Vector fused multiply-add. -/
  | vfma (c : CoreId) (f : VForm)
  /-- VFMS (R123). Vector fused multiply-subtract. -/
  | vfms (c : CoreId) (f : VForm)
  /-- VFNMA (R123). Vector negated fused multiply-add. -/
  | vfnma (c : CoreId) (f : VForm)
  /-- VINT_ADD (R115). Vector integer add. -/
  | vintAdd (c : CoreId) (f : VForm)
  /-- VINT_SUB (R115). Vector integer subtract. -/
  | vintSub (c : CoreId) (f : VForm)
  /-- VINT_MUL (R115). Vector integer multiply. -/
  | vintMul (c : CoreId) (f : VForm)
  /-- VINT_AND (R115). Vector integer AND. -/
  | vintAnd (c : CoreId) (f : VForm)
  /-- VINT_OR (R115). Vector integer OR. -/
  | vintOr (c : CoreId) (f : VForm)
  /-- VINT_XOR (R115). Vector integer XOR. -/
  | vintXor (c : CoreId) (f : VForm)
  /-- VINT_SLL (R115). Vector shift left logical. -/
  | vintSll (c : CoreId) (f : VForm)
  /-- VINT_SRL (R115). Vector shift right logical. -/
  | vintSrl (c : CoreId) (f : VForm)
  /-- VINT_SRA (R115). Vector shift right arithmetic. -/
  | vintSra (c : CoreId) (f : VForm)
  /-- VINT_MIN (R115). Vector signed minimum. -/
  | vintMin (c : CoreId) (f : VForm)
  /-- VINT_MAX (R115). Vector signed maximum. -/
  | vintMax (c : CoreId) (f : VForm)
  /-- VINT_MINU (R115). Vector unsigned minimum. -/
  | vintMinu (c : CoreId) (f : VForm)
  /-- VINT_MAXU (R115). Vector unsigned maximum. -/
  | vintMaxu (c : CoreId) (f : VForm)
  /-- VINT_ADDS (R115). Vector signed saturating add. -/
  | vintAdds (c : CoreId) (f : VForm)
  /-- VCMP_EQ (R125). Vector float compare equal into a predicate. -/
  | vcmpEq (c : CoreId) (f : VForm)
  /-- VCMP_NE (R125). Vector float compare not equal. -/
  | vcmpNe (c : CoreId) (f : VForm)
  /-- VCMP_LT (R125). Vector float compare less than. -/
  | vcmpLt (c : CoreId) (f : VForm)
  /-- VCMP_LE (R125). Vector float compare less or equal. -/
  | vcmpLe (c : CoreId) (f : VForm)
  /-- VCMP_GT (R125). Vector float compare greater than. -/
  | vcmpGt (c : CoreId) (f : VForm)
  /-- VCMP_GE (R125). Vector float compare greater or equal. -/
  | vcmpGe (c : CoreId) (f : VForm)
  /-- VCMP_UNORD (R125). Vector float compare unordered. -/
  | vcmpUnord (c : CoreId) (f : VForm)
  /-- VCMP_SEQ (R125). Vector signed integer compare equal. -/
  | vcmpSeq (c : CoreId) (f : VForm)
  /-- VCMP_SNE (R125). Vector signed integer compare not equal. -/
  | vcmpSne (c : CoreId) (f : VForm)
  /-- VCMP_SLT (R125). Vector signed integer compare less than. -/
  | vcmpSlt (c : CoreId) (f : VForm)
  /-- VCMP_SLE (R125). Vector signed integer compare less or equal. -/
  | vcmpSle (c : CoreId) (f : VForm)
  /-- VCMP_SGT (R125). Vector signed integer compare greater than. -/
  | vcmpSgt (c : CoreId) (f : VForm)
  /-- VCMP_SGE (R125). Vector signed integer compare greater or equal. -/
  | vcmpSge (c : CoreId) (f : VForm)
  /-- PAND (R115). Predicate AND. -/
  | pand (c : CoreId) (f : PForm)
  /-- POR (R115). Predicate OR. -/
  | por (c : CoreId) (f : PForm)
  /-- PXOR (R115). Predicate XOR. -/
  | pxor (c : CoreId) (f : PForm)
  /-- PANDN (R115). Predicate AND-NOT. -/
  | pandn (c : CoreId) (f : PForm)
  /-- PNOT (R115). Predicate NOT. -/
  | pnot (c : CoreId) (f : PForm)
  /-- PFROM (R115). Predicate from a scalar register. -/
  | pfrom (c : CoreId) (f : PForm)
  /-- PTO (R115). Predicate to a scalar register. -/
  | pto (c : CoreId) (f : PForm)
  /-- PFIRST (R115). Predicate with the low s[a] bits set. -/
  | pfirst (c : CoreId) (f : PForm)
  /-- VRCP (R125). Vector reciprocal. -/
  | vrcp (c : CoreId) (f : VForm)
  /-- VRSQRT (R125). Vector reciprocal square root. -/
  | vrsqrt (c : CoreId) (f : VForm)
  /-- VEXP2 (R125). Vector base-2 exponential. -/
  | vexp2 (c : CoreId) (f : VForm)
  /-- VLOG2 (R125). Vector base-2 logarithm. -/
  | vlog2 (c : CoreId) (f : VForm)
  /-- VTANH (R125). Vector hyperbolic tangent. -/
  | vtanh (c : CoreId) (f : VForm)
  /-- VDOT (R129). Vector dot product accumulated into eight 32-bit lanes. -/
  | vdot (c : CoreId) (f : VForm)
  /-- VCVT (R126). Vector format conversion without block scale. -/
  | vcvt (c : CoreId) (f : VCForm)
  /-- VQB (R127). Quantise one 32-element block without escapes. -/
  | vqb (c : CoreId) (f : VCForm)
  /-- VQBX (R127). Quantise one block with up to two escapes. -/
  | vqbx (c : CoreId) (f : VCForm)
  /-- VDQB (R128). Dequantise one packed block. -/
  | vdqb (c : CoreId) (f : VCForm)
  /-- VRED_SUM (R130). Vector reduction sum in a fixed tree. -/
  | vredSum (c : CoreId) (f : VForm)
  /-- VRED_MAX (R130). Vector reduction maximum. -/
  | vredMax (c : CoreId) (f : VForm)
  /-- VRED_MIN (R130). Vector reduction minimum. -/
  | vredMin (c : CoreId) (f : VForm)
  /-- VRED_SUMSQ (R130). Vector reduction sum of squares. -/
  | vredSumsq (c : CoreId) (f : VForm)
  /-- VPERMB (R130). Byte permute. -/
  | vpermb (c : CoreId) (f : VForm)
  /-- VBCST (R130). Broadcast a scalar to every element. -/
  | vbcst (c : CoreId) (f : VForm)
  /-- VGET (R130). Extract one element to a scalar register. -/
  | vget (c : CoreId) (f : VForm)
  /-- VSET (R130). Insert a scalar into one element. -/
  | vset (c : CoreId) (f : VForm)
  /-- VSLIDE (R130). Slide elements down, filling with zero. -/
  | vslide (c : CoreId) (f : VForm)
  /-- VZIPLO (R130). Interleave low halves. -/
  | vziplo (c : CoreId) (f : VForm)
  /-- VZIPHI (R130). Interleave high halves. -/
  | vziphi (c : CoreId) (f : VForm)
  /-- VMOV (R130). Vector move. -/
  | vmov (c : CoreId) (f : VForm)
  /-- DEWSET (R134). Set DEWTAG to an immediate tag, valid. -/
  | dewset (c : CoreId) (f : I12Form)
  /-- DEWSETR (R134). Set DEWTAG from a register. -/
  | dewsetr (c : CoreId) (f : I12Form)
  /-- DEWCLR (R134). Clear DEWTAG. -/
  | dewclr (c : CoreId) (f : I12Form)
  /-- DEWPOINT_RECOMPUTE (R172). A recompute unit takes a queued sampled block and accumulates its error metrics. -/
  | dewpointRecompute (die : BitVec 1)
  /-- WINDOW_CLOSE (R173). A tag's sample count reaches 2^WINDOW_LOG2; LAST_RMS and LAST_MAX are written and thresholds judged. -/
  | windowClose (part : BitVec 5) (tag : BitVec 8)
  /-- MIGRATION_START (R176). A promotion starts its migration when a migration slot of the partition is free. -/
  | migrationStart (part : BitVec 5)
  /-- MIGRATION_GROUP_DONE (R176). One group is rewritten in the next format and FRONTIER advances. -/
  | migrationGroupDone (part : BitVec 5) (tag : BitVec 8)
  /-- MIGRATION_COMPLETE (R176). FRONTIER reaches GROUPS; FMT changes, MIGRATING clears and PROMOTED is set. -/
  | migrationComplete (part : BitVec 5) (tag : BitVec 8)
  /-- HALTED_CLEAR (R181). A write of 1 to DEW_TAG.HALTED ends a halt and restarts the window. -/
  | haltedClear (fn : BitVec 6) (part : BitVec 5) (tag : BitVec 8)
  /-- DEW_COUNTER_CLEAR (R169). A write of DEW_TAG.CLEAR clears the tag's counters. -/
  | dewCounterClear (fn : BitVec 6) (part : BitVec 5) (tag : BitVec 8)
  /-- SLICE_REQUEST (R219). A request arrives at its home Firn slice and is served, allocated or forwarded in line order. -/
  | sliceRequest (slice : BitVec 8) (r : SliceReq) (par : ParityFind)
  /-- CHANNEL_REQUEST (R187). A channel controller takes a request from its slice and serves it, transcoding, encrypting and checking ECC. -/
  | channelRequest (slice : BitVec 8) (tag : Nat) (ecc : EccFind)
  /-- FILL_RETURN (R215). Data returned by a channel controller reaches the slice and is delivered and installed. -/
  | fillReturn (slice : BitVec 8) (line : Nat)
  /-- WRITEBACK_ACK (R220). A writeback is acknowledged, freeing the eviction entry and releasing waiting requests. -/
  | writebackAck (slice : BitVec 8) (line : Nat)
  /-- WAY_DISABLE (R228). A way's fourth parity error in the window disables the way. -/
  | wayDisable (slice : BitVec 8) (way : BitVec 4)
  /-- SEED_WRITE (R218). A write of FRN_SLICE_CTRL.SEED loads the slice's replacement LFSR. -/
  | seedWrite (slice : BitVec 8) (seed : BitVec 16)
  /-- ZERO_LINE (R223). FRN_MAINT operation ZERO-LINE allocates a line of zero bytes. -/
  | zeroLine (w : BitVec 64)
  /-- CLEAN (R223). FRN_MAINT operation CLEAN writes back dirty sectors. -/
  | clean (w : BitVec 64)
  /-- INVALIDATE (R223). FRN_MAINT operation INVALIDATE drops a line. -/
  | invalidate (w : BitVec 64)
  /-- CLEAN_INVALIDATE (R223). FRN_MAINT operation CLEAN_INVALIDATE cleans then drops a line. -/
  | cleanInvalidate (w : BitVec 64)
  /-- MAINT_COMPLETE (R224). A maintenance operation completes, clearing GO and setting MAINT_DONE. -/
  | maintComplete
  /-- SCRUB (R196). The background scrub reads a line and corrects or poisons it. -/
  | scrub (hpa : BitVec 48) (ecc : EccFind)
  /-- STACK_TEMP_READ (R198). The 1 ms stack temperature reading applies the thermal level. -/
  | stackTempRead (stack : BitVec 5) (temp : BitVec 8)
  /-- REPAIR_START (R201). A stack starts the next queued row repair and holds the bank. -/
  | repairStart (stack : BitVec 5)
  /-- REPAIR_DONE (R201). A repair finishes, releasing the bank and completing its journal record. -/
  | repairDone (stack : BitVec 5) (bad : BitVec 32)
  /-- ROWQ (R204). A write of HBM_ROWQ with GO starts a row-to-line query. -/
  | rowq (w : BitVec 64)
  /-- ROWQ_DONE (R204). The row query results are valid and GO clears. -/
  | rowqDone
  /-- FILL_GRANULE (R330). The background fill writes one unfilled granule under the new key and clears its bit. -/
  | fillGranule (half : BitVec 6)
  /-- FILL_COMPLETE (R331). A half-stack's last unfilled granule is filled; FILLED is set. -/
  | fillComplete (half : BitVec 6)
  /-- STREAM_OPEN (R231). The STREAM_OPEN command opens a Drift stream. -/
  | streamOpen (cmd : QCmd)
  /-- STREAM_CLOSE (R231). The STREAM_CLOSE command frees the issuer's idle stream or refuses. -/
  | streamClose (cmd : QCmd)
  /-- DB_TAIL (R233). A write of DRF_DB_TAIL from an allowed source sets the ring TAIL. -/
  | dbTail (src : DbSrc) (n : BitVec 15) (v : BitVec 32)
  /-- DB_CPLHEAD (R235). A write of DRF_DB_CPLHEAD reports consumption and releases held records. -/
  | dbCplhead (src : DbSrc) (n : BitVec 15) (v : BitVec 32)
  /-- DESCRIPTOR_START (R242). A stream starts its next descriptor in ring order when allowed. -/
  | descriptorStart (n : BitVec 15) (host : BitVec 512)
  /-- DRIFT_NOP (R236). Descriptor NOP. -/
  | driftNop (n : BitVec 15) (ix : BitVec 32)
  /-- DRIFT_COPY (R236). Descriptor COPY moves rows. -/
  | driftCopy (n : BitVec 15) (ix : BitVec 32)
  /-- DRIFT_FILL (R236). Descriptor FILL repeats 8 bytes over each row. -/
  | driftFill (n : BitVec 15) (ix : BitVec 32)
  /-- DRIFT_GATHER (R236). Descriptor GATHER reads indexed source rows. -/
  | driftGather (n : BitVec 15) (ix : BitVec 32)
  /-- DRIFT_SCATTER (R236). Descriptor SCATTER writes indexed destination rows. -/
  | driftScatter (n : BitVec 15) (ix : BitVec 32)
  /-- DRIFT_TRANSCODE (R239). Descriptor TRANSCODE copies rows with format conversion. -/
  | driftTranscode (n : BitVec 15) (ix : BitVec 32)
  /-- DRIFT_ZERO (R240). Descriptor ZERO applies ZERO-LINE over each row. -/
  | driftZero (n : BitVec 15) (ix : BitVec 32)
  /-- DRIFT_CLEAN (R240). Descriptor CLEAN by address over each row. -/
  | driftClean (n : BitVec 15) (ix : BitVec 32)
  /-- DRIFT_INVALIDATE (R240). Descriptor INVALIDATE by address over each row. -/
  | driftInvalidate (n : BitVec 15) (ix : BitVec 32)
  /-- DRIFT_CLEAN_INVALIDATE (R240). Descriptor CLEAN_INVALIDATE by address over each row. -/
  | driftCleanInvalidate (n : BitVec 15) (ix : BitVec 32)
  /-- DESCRIPTOR_COMPLETE (R243). A descriptor's writes are visible; its record, event add and IRQ follow in order. -/
  | descriptorComplete (n : BitVec 15)
  /-- STREAM_PAUSE (R247). DRF_STREAM_CTRL.PAUSE stops a stream starting descriptors. -/
  | streamPause (fn : BitVec 6) (n : BitVec 15)
  /-- STREAM_RESUME (R247). DRF_STREAM_CTRL.RESUME restarts a paused or errored stream at HEAD. -/
  | streamResume (fn : BitVec 6) (n : BitVec 15)
  /-- STREAM_ABORT (R247). DRF_STREAM_CTRL.ABORT ends in-flight descriptors and discards posted ones. -/
  | streamAbort (fn : BitVec 6) (n : BitVec 15)
  /-- REMOTE_ROW_RETRY (R246). A row answered WINDOW_CLOSING is retried every 10 µs until RETRY_MS. -/
  | remoteRowRetry (n : BitVec 15) (ix : BitVec 32) (us : BitVec 32)
  /-- ATS_INVALIDATION (R249). An ATS Invalidation Request removes a translation and completes when no request uses it. -/
  | atsInvalidation (fn : BitVec 6) (page : BitVec 52) (log2 : BitVec 6)
  /-- PRI_RESPONSE (R249). A page request response releases or fails the held host-channel access. -/
  | priResponse (n : BitVec 15) (ix : BitVec 32) (ok : Bool)
  /-- XLT_INVALIDATE (R264). The XLT_INVALIDATE command removes TLB and walk-cache entries in scope. -/
  | xltInvalidate (cmd : QCmd)
  /-- XLT_INVALIDATE_DONE (R264). The invalidation's walks and accesses have drained and the command completes. -/
  | xltInvalidateDone (asid : BitVec 12)
  /-- XLT_RESUME (R273). The XLT_RESUME command retries or refuses every access parked under a fault. -/
  | xltResume (cmd : QCmd)
  /-- WALK_START (R261). A free walker starts a walk for a TLB miss. -/
  | walkStart (die : BitVec 1) (r : XltReq)
  /-- TABLE_READ_RETURN (R253). A page-table entry read returns and the walk continues, installs or faults. -/
  | tableReadReturn (die : BitVec 1) (asid : BitVec 12) (page : BitVec 36)
  /-- FAULT_RECORD_WRITE (R269). 1 µs after a fault opens its record is written to the fault queue or pended. -/
  | faultRecordWrite (die : BitVec 1) (slot : BitVec 9)
  /-- PARK_ADMIT (R272). A faulting access held at a full park buffer enters a freed slot. -/
  | parkAdmit (die : BitVec 1)
  /-- FQ_CI_WRITE (R271). A write of XLT_FQ_CI frees queue space and writes pending records. -/
  | fqCiWrite (fn : BitVec 6) (part : BitVec 5) (ci : BitVec 32)
  /-- XLT_AS_WRITE (R266). A write of XLT_AS updates an address space; clearing VALID invalidates its entries. -/
  | xltAsWrite (fn : BitVec 6) (asid : BitVec 12) (w : BitVec 64)
  /-- AS_INVALIDATE_DONE (R266). The invalidation after clearing VALID completes and BUSY clears. -/
  | asInvalidateDone (asid : BitVec 12)
  /-- XLT_GRANT_WRITE (R252). A write of XLT_GRANT judges and takes each changed slot. -/
  | xltGrantWrite (e : BitVec 7) (w : BitVec 64)
  /-- EEP_READ (R288). An engine READ request is checked, translated and answered with READ_DATA. -/
  | eepRead (site : BitVec 4) (mod : BitVec 3) (hdr : BitVec 128)
  /-- EEP_WRITE (R285). An engine WRITE request is checked, translated and written. -/
  | eepWrite (site : BitVec 4) (mod : BitVec 3) (hdr : BitVec 128) (data : List (BitVec 512))
  /-- EEP_WRITE_PARTIAL (R284). An engine WRITE_PARTIAL merges enabled bytes. -/
  | eepWritePartial (site : BitVec 4) (mod : BitVec 3) (hdr : BitVec 128) (data : List (BitVec 512))
  /-- EEP_ATOMIC (R287). An engine ATOMIC is performed and answered with ATOMIC_RESULT. -/
  | eepAtomic (site : BitVec 4) (mod : BitVec 3) (hdr : BitVec 128) (data : List (BitVec 512))
  /-- EEP_MAINT (R284). An engine MAINT performs a Firn operation by address. -/
  | eepMaint (site : BitVec 4) (mod : BitVec 3) (hdr : BitVec 128)
  /-- EEP_PREFETCH (R297). An engine PREFETCH translates and, if ALLOC, fills Firn (FL4). -/
  | eepPrefetch (site : BitVec 4) (mod : BitVec 3) (hdr : BitVec 128)
  /-- EEP_COMPLETE (R292). An engine COMPLETE is applied as RECORD, EVENT or DRIFT once its writes are visible. -/
  | eepComplete (site : BitVec 4) (mod : BitVec 3) (hdr : BitVec 128) (data : List (BitVec 512))
  /-- EEP_INTERRUPT (R293). An engine INTERRUPT raises an MSI-X entry once its writes are visible. -/
  | eepInterrupt (site : BitVec 4) (mod : BitVec 3) (hdr : BitVec 128)
  /-- EEP_CLEARED (R299). An engine reports CLEARED after CLEAR. -/
  | eepCleared (site : BitVec 4) (mod : BitVec 3) (hdr : BitVec 128)
  /-- EEP_ERROR_REPORT (R307). An engine ERROR_REPORT records an error or makes the engine LOST. -/
  | eepErrorReport (site : BitVec 4) (mod : BitVec 3) (hdr : BitVec 128)
  /-- EEP_CREDIT (R281). A CREDIT message returns credits to the sender. -/
  | eepCredit (site : BitVec 4) (mod : BitVec 3) (hdr : BitVec 128)
  /-- SITE_ENG_DB (R294). A write of SITE_ENG_DB from an allowed source queues a DOORBELL to the engine. -/
  | siteEngDb (src : DbSrc) (e : BitVec 7) (v : BitVec 64)
  /-- CLEARED_TIMEOUT (R299). CLEARED has not arrived by its bound and the site is fenced with cause 8. -/
  | clearedTimeout (e : BitVec 7)
  /-- SOUNDING_STEP (R296). A step of a site's Sounding completes and the next starts. -/
  | soundingStep (site : BitVec 4) (x : SoundIn)
  /-- SOUNDING_TIMEOUT (R296). A Sounding step misses its bound and the site is fenced. -/
  | soundingTimeout (site : BitVec 4)
  /-- SITE_FENCE (R306). A write of SITE_CTRL.FENCE fences the site with cause 9. -/
  | siteFence (site : BitVec 4)
  /-- RESOUND (R308). A write of SITE_CTRL.RESOUND resets and re-sounds the site, or is refused. -/
  | resound (site : BitVec 4)
  /-- RIME_SWEEP (R309). Rime runs the parity test on a module in an idle window. -/
  | rimeSweep (site : BitVec 4) (mod : BitVec 3) (errIn errOut : BitVec 68)
  /-- LANE_CONDEMN (R310). A lane reaches LANE_TH parity errors and Rime remaps, degrades or retires. -/
  | laneCondemn (site : BitVec 4) (mod : BitVec 3) (toHub : Bool) (lane : BitVec 7)
  /-- MODULE_ACTION_DONE (R310). A lane remap or x32 retrain ends, or times out into retirement, and regulators are rescaled. -/
  | moduleActionDone (site : BitVec 4) (mod : BitVec 3) (ok : Bool)
  /-- REGULATOR_ADMIT (R322). A port's token bucket turns positive and admits its oldest held request. -/
  | regulatorAdmit (port : BitVec 10)
  /-- START (R333). PRT_CTRL.START moves a STOPPED partition to ACTIVE. -/
  | start (via : Iface) (part : BitVec 5)
  /-- STOP (R334). PRT_CTRL.STOP moves an ACTIVE partition to STOPPING. -/
  | stop (via : Iface) (part : BitVec 5)
  /-- STOP_COMPLETE (R334). A STOPPING partition's work has drained and it becomes STOPPED. -/
  | stopComplete (part : BitVec 5)
  /-- STOP_TIMEOUT (R334). STOP_MS expires and the partition returns to ACTIVE. -/
  | stopTimeout (part : BitVec 5)
  /-- PARTITION_RESET (R335). PRT_CTRL.RESET starts a partition reset. -/
  | partitionReset (via : Iface) (part : BitVec 5)
  /-- PARTITION_RESET_COMPLETE (R335). A partition reset ends and the partition becomes STOPPED. -/
  | partitionResetComplete (part : BitVec 5)
  /-- THAW (R336). PRT_CTRL.THAW starts a Thaw: keys replaced, ports closed, memory marked unfilled. -/
  | thaw (via : Iface) (part : BitVec 5)
  /-- THAW_COMPLETE (R336). Every engine has cleared; VF queues reset and the partition becomes STOPPED or NONE. -/
  | thawComplete (part : BitVec 5)
  /-- CMD_NOP (R358). Queue command NOP. -/
  | cmdNop (cmd : QCmd)
  /-- DIAG_ACCESS (R197). The DIAG_ACCESS command moves raw bytes between a DIAG stack and host memory. -/
  | diagAccess (cmd : QCmd) (host : List (BitVec 8))
  /-- COMMAND_FETCH (R356). The hub fetches and starts the next command of a queue. -/
  | commandFetch (fn : BitVec 6) (q : BitVec 6) (status : BitVec 8) (raw : BitVec 512)
  /-- SQ_TAIL (R355). A write of Q_SQ_TAIL sets the submission tail. -/
  | sqTail (fn : BitVec 6) (q : BitVec 6) (v : BitVec 32)
  /-- CQ_HEAD (R355). A write of Q_CQ_HEAD reports consumed completions and releases a held record. -/
  | cqHead (fn : BitVec 6) (q : BitVec 6) (v : BitVec 32)
  /-- QUEUE_ENABLE (R354). A write of 1 to Q_CTRL.ENABLE starts a queue pair. -/
  | queueEnable (fn : BitVec 6) (q : BitVec 6) (w : BitVec 32)
  /-- QUEUE_DISABLE (R360). A write of 0 to Q_CTRL.ENABLE stops fetching and drains the queue. -/
  | queueDisable (fn : BitVec 6) (q : BitVec 6) (w : BitVec 32)
  /-- BAR2_READ (R348). A host read through a BAR2 window is translated and checked. -/
  | bar2Read (off : BitVec 40) (len : BitVec 13)
  /-- BAR2_WRITE (R348). A host write through a BAR2 window is translated and checked. -/
  | bar2Write (off : BitVec 40) (data : List (BitVec 8)) (poison : Bool)
  /-- HOST_COMPLETION (R361). An upstream completion arrives and is matched by tag and epoch. -/
  | hostCompletion (fn : BitVec 6) (tag : BitVec 14) (status : BitVec 8) (data : List (BitVec 8))
  /-- COMPLETION_TIMEOUT (R362). An upstream non-posted request times out and completes to its requester. -/
  | completionTimeout (tag : BitVec 14)
  /-- BUS_MASTER_ENABLE_CLEAR (R364). Clearing Bus Master Enable stops the function's upstream requests. -/
  | busMasterEnableClear (fn : BitVec 6)
  /-- BUS_MASTER_ENABLE_SET (R364). Setting Bus Master Enable releases waiting upstream traffic. -/
  | busMasterEnableSet (fn : BitVec 6)
  /-- MSIX_UNMASK (R353). Unmasking an MSI-X entry sends its pending message. -/
  | msixUnmask (fn : BitVec 6) (entry : BitVec 11)
  /-- POWER_STATE_CHANGE (R343). A function enters or leaves D3hot. -/
  | powerStateChange (fn : BitVec 6) (d3 : Bool)
  /-- HOT_RESET (R343). A Hot Reset or DL_Down causes a hub reset. -/
  | hotReset
  /-- VF_FLR (R366). A VF Function Level Reset quiesces the VF's queues, streams and engines. -/
  | vfFlr (fn : BitVec 6)
  /-- VF_FLR_COMPLETE (R366). The VF's engines have cleared and its queues return to reset values. -/
  | vfFlrComplete (fn : BitVec 6)
  /-- PF_FLR (R367). A PF Function Level Reset clears VF Enable and PF queues and streams. -/
  | pfFlr
  /-- VF_ENABLE_SET (R351). Setting VF Enable brings NumVFs VFs into existence. -/
  | vfEnableSet
  /-- VF_ENABLE_CLEAR (R54). Clearing VF Enable quiesces every assigned VF. -/
  | vfEnableClear
  /-- NUMVFS_WRITE (R351). A write of NumVFs is stored or ignored. -/
  | numvfsWrite (v : BitVec 16)
  /-- MBX_GO (R444). A write of MBX_DOORBELL.GO serves the mailbox request. -/
  | mbxGo
  /-- LINK_SAK (R374). The LINK_SAK command installs a MACsec key. -/
  | linkSak (cmd : QCmd) (host : List (BitVec 8))
  /-- TRANSPORT_WRITE (R386). An arriving WRITE packet is checked against the WTT and applied. -/
  | transportWrite (p : LinkPkt) (x : ReqExt)
  /-- READ_REQ (R386). An arriving READ_REQ is checked and answered with READ_RESP. -/
  | readReq (p : LinkPkt) (x : ReqExt)
  /-- READ_RESP (R387). An arriving READ_RESP completes the local read. -/
  | readResp (p : LinkPkt)
  /-- TRANSPORT_ATOMIC (R386). An arriving ATOMIC is checked and performed. -/
  | transportAtomic (p : LinkPkt) (x : ReqExt)
  /-- ATOMIC_RESP (R379). An arriving ATOMIC_RESP completes the local atomic. -/
  | atomicResp (p : LinkPkt)
  /-- ACK (R379). An arriving ACK releases acknowledged requests from the retransmit buffer. -/
  | ack (p : LinkPkt) (ackPsn : BitVec 24) (sack : BitVec 128)
  /-- NAK (R380). An arriving NAK completes a request with its code. -/
  | nak (p : LinkPkt) (ackPsn : BitVec 24) (code : BitVec 8)
  /-- CNP (R381). An arriving CNP lowers the path's rate. -/
  | cnp (p : LinkPkt)
  /-- PATH_OPEN (R377). An arriving PATH_OPEN is answered with PATH_ACCEPT. -/
  | pathOpen (p : LinkPkt)
  /-- PATH_ACCEPT (R377). An arriving PATH_ACCEPT opens the path. -/
  | pathAccept (p : LinkPkt)
  /-- PATH_CLOSE (R377). An arriving PATH_CLOSE closes the path and fails its requests. -/
  | pathClose (p : LinkPkt)
  /-- PACED_SEND (R381). A path sends its next request when its pacing rate allows. -/
  | pacedSend (link : BitVec 7) (path : BitVec 16)
  /-- ACK_TIMER (R379). 2 µs after the oldest unacknowledged request, the receiver sends ACK. -/
  | ackTimer (link : BitVec 7) (path : BitVec 16)
  /-- RTO_EXPIRY (R379). An unacknowledged request is resent, or the path fails after RETRIES. -/
  | rtoExpiry (link : BitVec 7) (path : BitVec 16) (psn : BitVec 24)
  /-- RATE_RECOVERY_TIMER (R381). After 50 µs without CNP, the path's rate rises. -/
  | rateRecoveryTimer (link : BitVec 7) (path : BitVec 16)
  /-- PFC_FRAME (R382). A received PFC frame pauses or resumes a priority. -/
  | pfcFrame (link : BitVec 7) (prio : BitVec 3) (xoff : Bool)
  /-- PFC_WATCHDOG (R382). DATA_PCP paused for PAUSE_LIMIT_MS takes the link down. -/
  | pfcWatchdog (link : BitVec 7)
  /-- LOSS_OF_LOCK (R393). PCS loss of lock or signal takes a link down. -/
  | lossOfLock (link : BitVec 7)
  /-- LINK_UP (R393). A link completes training and comes up. -/
  | linkUp (link : BitVec 7)
  /-- QUAD_FATAL (R393). A quad-fatal error resets the quad. -/
  | quadFatal (quad : BitVec 5)
  /-- WIN_OPEN (R390). WIN_WTT.OPEN checks ownership, increments GEN and opens the window. -/
  | winOpen (die : BitVec 1) (w : BitVec 12)
  /-- WIN_CLOSE (R390). WIN_WTT.CLOSE moves the window to CLOSING. -/
  | winClose (die : BitVec 1) (w : BitVec 12)
  /-- WIN_FREE (R389). WIN_WTT.FREE frees a CLOSED window. -/
  | winFree (die : BitVec 1) (w : BitVec 12)
  /-- WIN_DRAINED (R390). DRAIN reaches 0 and the window becomes CLOSED. -/
  | winDrained (die : BitVec 1) (w : BitVec 12)
  /-- LNK_PEER_WRITE (R377). A write of LNK_PEER; clearing V closes the peer's paths. -/
  | lnkPeerWrite (n : BitVec 12) (word : BitVec 2) (w : BitVec 64)
  /-- COL_GROUP_CREATE (R395). The COL_GROUP_CREATE command creates a collective group. -/
  | colGroupCreate (cmd : QCmd)
  /-- COL_GROUP_DESTROY (R395). The COL_GROUP_DESTROY command frees a group. -/
  | colGroupDestroy (cmd : QCmd)
  /-- COL_POST (R398). The COL_POST command queues a collective on its group. -/
  | colPost (cmd : QCmd)
  /-- COL_CANCEL (R407). The COL_CANCEL command aborts the running collective. -/
  | colCancel (cmd : QCmd)
  /-- POST_START (R398). The next post of a group starts after the previous ends. -/
  | postStart (g : BitVec 6)
  /-- CHUNK_SEND (R403). A member sends a staged chunk when it holds a credit. -/
  | chunkSend (g : BitVec 6)
  /-- COL_DATA (R403). An arriving COL_DATA lands in a slot, or is held, discarded or refused. -/
  | colData (p : LinkPkt) (x : ColExt)
  /-- COL_CREDIT (R403). An arriving COL_CREDIT returns slots to the sender. -/
  | colCredit (p : LinkPkt) (x : ColExt)
  /-- COL_SQUALL (R406). An arriving Squall notice extends a step deadline. -/
  | colSquall (p : LinkPkt) (x : ColExt)
  /-- COL_ABORT (R408). An arriving COL_ABORT aborts the running collective and is forwarded. -/
  | colAbort (p : LinkPkt) (x : ColExt)
  /-- STEP_DEADLINE (R404). A step passes its deadline and the collective aborts with COLLECTIVE_TIMEOUT. -/
  | stepDeadline (g : BitVec 6)
  /-- POST_COMPLETE (R398). A post's destination is visible and its packets acknowledged; it completes. -/
  | postComplete (g : BitVec 6)
  /-- ALLOT_PASS (R415). The 1 ms pass allots the budget in force and builds the brake table. -/
  | allotPass (x : PowerIn)
  /-- POWER_BRAKE_ASSERT (R414). POWER_BRAKE_N low for more than 1 µs applies the brake row. -/
  | powerBrakeAssert
  /-- POWER_BRAKE_RELEASE (R418). POWER_BRAKE_N released; grants ramp back over 10 ms. -/
  | powerBrakeRelease
  /-- SOFTWARE_BRAKE (R414). A write of ISO_BRAKE_SW.REQ activates or releases the software brake. -/
  | softwareBrake (req : Bool)
  /-- DIE_SENSOR_SAMPLE (R419). The 10 µs die sensor sample applies throttle, critical brake or trip. -/
  | dieSensorSample (die : BitVec 1) (temps : List (BitVec 8))
  /-- SITE_TELEMETRY_READ (R300). The 1 ms read of chiplet POWER, REQUEST and TEMP. -/
  | siteTelemetryRead (site : BitVec 4) (power request : BitVec 16) (temp : BitVec 8) (alarm : Bool)
  /-- AVS_ACK (R423). A regulator acknowledges a voltage write and has settled; the frequency change follows. -/
  | avsAck (die : BitVec 1) (rail : BitVec 4)
  /-- REGULATOR_STATUS_READ (R424). The 10 ms PMBus read of regulator status. -/
  | regulatorStatusRead (die : BitVec 1) (rail : BitVec 4) (fault : Bool)
  /-- TWIN_TELEMETRY (R424). The secondary's 1 ms readings reach the primary, which returns grants. -/
  | twinTelemetry (x : PowerIn)
  /-- HEARTBEAT_LOSS (R427). Three heartbeat periods pass without the rack heartbeat; the fallback cap applies. -/
  | heartbeatLoss
  /-- HEARTBEAT_RX (R427). A rack heartbeat is received. -/
  | heartbeatRx (node : BitVec 7)
  /-- PUMP_FAIL (R429). A TACH input reads below TACH_MIN for 3 s and the pump is marked failed. -/
  | pumpFail (k : BitVec 1) (rpm : BitVec 16)
  /-- ALMANAC_READ (R443). An Almanac READ request over MCTP or the mailbox. -/
  | almanacRead (via : Iface) (r : AlmReq)
  /-- ALMANAC_WRITE (R433). An Almanac WRITE request over MCTP or the mailbox. -/
  | almanacWrite (via : Iface) (r : AlmReq)
  /-- ALMANAC_LOCK (R446). An Almanac LOCK request locks an index. -/
  | almanacLock (via : Iface) (r : AlmReq)
  /-- ALMANAC_UNLOCK (R446). An Almanac UNLOCK request releases a lock. -/
  | almanacUnlock (via : Iface) (r : AlmReq)
  /-- LOCK_RELEASE_ALL (R446). A write of 0x2101 sub-index 4 from the mailbox releases every lock. -/
  | lockReleaseAll (via : Iface) (v : BitVec 8)
  /-- LOCK_LAPSE (R446). A lock lapses when its owner is idle for the lapse time. -/
  | lockLapse (owner : Iface)
  /-- USDO_TRANSFER (R438). A CAN USDO read or write of an entry completes. -/
  | usdoTransfer (write : Bool) (index : BitVec 16) (sub : BitVec 8) (data : List (BitVec 8))
  /-- USDO_TIMEOUT (R445). A segmented transfer idle for 100 ms is aborted. -/
  | usdoTimeout (index : BitVec 16) (sub : BitVec 8)
  /-- RPDO (R440). A received RPDO applies its mapped values or is dropped. -/
  | rpdo (n : BitVec 3) (data : List (BitVec 8))
  /-- SYNC (R438). A received SYNC drives synchronous PDOs. -/
  | sync
  /-- TPDO_EVENT_TIMER (R441). A TPDO's event timer expires and it is sent. -/
  | tpdoEventTimer (n : BitVec 3)
  /-- HEARTBEAT_PRODUCE (R438). The producer heartbeat period expires and a heartbeat is sent. -/
  | heartbeatProduce
  /-- NMT_START (R440). NMT Start enters Operational. -/
  | nmtStart
  /-- NMT_STOP (R440). NMT Stop enters Stopped. -/
  | nmtStop
  /-- NMT_ENTER_PRE_OPERATIONAL (R440). NMT Enter Pre-operational. -/
  | nmtEnterPreOperational
  /-- NMT_RESET_NODE (R440). NMT Reset Node restores communication entries and repeats boot-up. -/
  | nmtResetNode
  /-- NMT_RESET_COMMUNICATION (R440). NMT Reset Communication restores communication entries and repeats boot-up. -/
  | nmtResetCommunication
  /-- SLOT_OFFSET (R436). A write of 0x2010 sub-index 1 sets the inactive-slot offset. -/
  | slotOffset (via : Iface) (v : BitVec 32)
  /-- SLOT_DATA (R436). A write of 0x2010 sub-index 2 writes image data to the inactive slot. -/
  | slotData (via : Iface) (data : List (BitVec 8))
  /-- STAGE (R436). A write of 0x2010 sub-index 3 verifies and stages the inactive slot as TRIAL. -/
  | stage (via : Iface) (v : BitVec 8)
  /-- CONFIRM (R436). A write of 0x2010 sub-index 4 marks the running TRIAL slot GOOD. -/
  | confirm (via : Iface) (v : BitVec 8)
  /-- ACTIVATE (R79). A write of 0x2010 sub-index 5 restarts the security core from the staged image. -/
  | activate (via : Iface) (v : BitVec 8)
  /-- MORAINE_RECORD_READ (R486). A read of Almanac 0x2A01 returns the next record and advances the cursor. -/
  | moraineRecordRead (via : Iface)
  /-- LC_REQUEST (R471). A signed transition request is checked and, if accepted, programs the intent. -/
  | lcRequest (via : Iface) (data : List (BitVec 8))
  /-- LC_TRANSITION_STEP (R472). A step of the life-cycle transition sequence completes and the next starts. -/
  | lcTransitionStep
  /-- SPDM_REQUEST (R451). An SPDM request to the security responder is answered. -/
  | spdmRequest (r : SpdmReq)
  /-- QUERY (R455). IDE_KM QUERY. -/
  | query (r : IdeReq)
  /-- KEY_PROG (R455). IDE_KM KEY_PROG installs an IDE stream key. -/
  | keyProg (r : IdeReq)
  /-- K_SET_GO (R455). IDE_KM K_SET_GO starts a key set. -/
  | kSetGo (r : IdeReq)
  /-- K_SET_STOP (R455). IDE_KM K_SET_STOP stops a key set. -/
  | kSetStop (r : IdeReq)
  /-- LOCK_INTERFACE (R456). TDISP LOCK_INTERFACE moves a VF to CONFIG_LOCKED. -/
  | lockInterface (r : TdispReq)
  /-- GET_DEVICE_INTERFACE_REPORT (R456). TDISP GET_DEVICE_INTERFACE_REPORT returns the interface report. -/
  | getDeviceInterfaceReport (r : TdispReq)
  /-- START_INTERFACE (R456). TDISP START_INTERFACE moves the VF to RUN. -/
  | startInterface (r : TdispReq)
  /-- STOP_INTERFACE (R456). TDISP STOP_INTERFACE returns the VF to CONFIG_UNLOCKED. -/
  | stopInterface (r : TdispReq)
  /-- GET_DEVICE_INTERFACE_STATE (R456). TDISP GET_DEVICE_INTERFACE_STATE returns the state. -/
  | getDeviceInterfaceState (r : TdispReq)
  /-- BUNDLE_INSTALL (R463). The BUNDLE_INSTALL command checks a bundle, unwraps its key and starts a domain. -/
  | bundleInstall (cmd : QCmd)
  /-- BUNDLE_INSTALL_COMPLETE (R463). All chunks are verified and written; the domain becomes READY, or fails. -/
  | bundleInstallComplete (dom : BitVec 6)
  /-- DOMAIN_REMOVE (R465). The DOMAIN_REMOVE command destroys a domain's key. -/
  | domainRemove (cmd : QCmd)
  /-- DEBUG_ENGAGE (R466). The DEBUG_ENGAGE command marks the partition observed and engages debug. -/
  | debugEngage (cmd : QCmd)
  /-- DEBUG_READ (R467). The DEBUG_READ command copies partition plaintext to host memory. -/
  | debugRead (cmd : QCmd)
  /-- DEBUG_RELEASE (R467). The DEBUG_RELEASE command clears the debug bit. -/
  | debugRelease (cmd : QCmd)
  /-- MOR_CLEAR (R485). A PF write of MOR_CLEAR empties slots up to UPTO. -/
  | morClear (via : Iface) (upto : BitVec 32)
  /-- BYPASS (R500). TAP instruction BYPASS. -/
  | bypass (tdi : BitVec 64)
  /-- IDCODE (R501). TAP instruction IDCODE returns the identity code. -/
  | idcode
  /-- SAMPLE_PRELOAD (R500). TAP instruction SAMPLE/PRELOAD. -/
  | samplePreload (pins : BitVec 64) (tdi : BitVec 64)
  /-- EXTEST (R500). TAP instruction EXTEST, effective only with PORST_N low. -/
  | extest (pins : BitVec 64) (tdi : BitVec 64)
  /-- CLAMP (R500). TAP instruction CLAMP, effective only with PORST_N low. -/
  | clamp (tdi : BitVec 64)
  /-- PF_FLR_COMPLETE (R367). A PF Function Level Reset completes once its engines and the quiesced VFs have cleared, and the PF's queues, MSI-X table, HST_ATT entries and Q_ registers return to reset values. -/
  | pfFlrComplete
  /-- AVSBUS_WRITE_UNACKNOWLEDGED (R423). An AVSBus voltage write unacknowledged after three tries holds the rail at its last voltage, caps its floes, and sets RAIL_FAIL with record 0x0B06. -/
  | avsbusWriteUnacknowledged (die : BitVec 1) (rail : BitVec 4)
  /-- CAN_BUS_OFF (R438). The CAN controller enters bus-off, recovers, and writes record 0x0F01. -/
  | canBusOff
  /-- INHIBIT_EXPIRY (R441). The inhibit time of a TPDO or of EMCY expires while a change or emergency is pending, and the held message is sent. -/
  | inhibitExpiry (emcy : Bool) (n : BitVec 3)
  /-- SUPPLY_GROUP_UP (R490). Supply group 1 reaches regulation: the always-on island and TAP start, and SRST_N is driven low. -/
  | supplyGroupUp
  /-- SUPPLY_GROUP_LOSS (R420). Supply group 1 is lost, clearing ISO_TRIP and releasing every output and SRST_N. -/
  | supplyGroupLoss
  /-- CONFIG_SPACE_WRITE (R365). A PCIe configuration write changes Memory Space Enable, a BAR range, ATS Enable or the BAR2 size, gating BAR accesses and moving a locked TDISP interface to ERROR. -/
  | configSpaceWrite (fn : BitVec 6) (off : BitVec 12) (w : BitVec 32)
  deriving DecidableEq, Repr

end Sys2Proof
end

