-- ==== Sys2Proof/Config.lean ====
section
/-! DEFINITION. What the spec leaves open: every constant here is opaque, so nothing in Lean can see its value and a
claim holds whatever it is. Each is named in the assumption log. -/

namespace Sys2Proof.Config

/-- A free value drawn with the State's counter (a result, flag or register the spec leaves undefined). -/
opaque freeValue : Nat → Nat

/-- Nanoseconds since the last hub reset at the `n`-th reading of the time (the model has no clock; assumption 3). -/
opaque timeNs : Nat → Nat

/-- The floe-cycle count a core reads at the `n`-th reading (R110 CYCLE; assumption 3). -/
opaque cycles : Nat → Nat

/-- Whether a fused multiply-add of zero and infinity with a quiet NaN addend signals invalid: IEEE 754 leaves it to the
implementation and the spec does not say (R123). -/
opaque fmaQuietInvalid : Bool

/-- Whether FLT, FLE and the ordered VCMP predicates signal invalid on a quiet NaN: IEEE 754 has both kinds of compare
and the spec does not say which these are (R123). -/
opaque orderedCmpSignals : Bool

/-- FCVT.L of a NaN or of a value outside int64: the spec states no result (R116, R123). -/
opaque fcvtLInvalid : Word32 → Word64

/-- Which of the results within the bound of R125 a VSPEC function gives for an FP32 input (VRCP, VRSQRT). -/
opaque specPick : Nat → Word32 → Nat

/-- The FP32 result of VEXP2, VLOG2, VTANH for a finite non-special input (R125: within 2 ulp; the bits are open). -/
opaque specValue : Nat → Word32 → Word32

/-- The OF, UF and NX flags of VEXP2, VLOG2, VTANH for an input (the spec does not state them). -/
opaque specFlags : Nat → Word32 → BitVec 8

/-- The set of a slice in which a line stands (R213: the mapping is internal), below 2,048. -/
opaque firnSet : Nat → Nat → Fin 2048

/-- What a cell of a DIAG stack that DIAG_ACCESS has not written holds (R197: raw cells; their contents are not stated). -/
opaque cellByte : Nat → Byte

/-- The hash that spreads requests over UP links: import slot and 4 KiB block (R378). -/
opaque linkHash : Nat → Nat → Nat

/-- The hash that spreads the chunks of a collective over UP links: group key, destination rank, chunk index (R396). -/
opaque chunkHash : Nat → Nat → Nat → Nat

/-- Whether MAX and MIN of two zeros of unlike signs give the first operand, the arriving partial (R400 does not say). -/
opaque colZeroFirst : Bool

/-- The voltage in mV that a die's fused table gives a rail for a frequency in 100 MHz (R423). -/
opaque railMv : Nat → Nat → Nat → Nat

/-- SHA-384 of a string of bytes (R64, R449, R462). -/
opaque sha384 : List Byte → Nat

/-- Whether an ECDSA P-384 signature verifies under a key hash (0: the vendor production key, 1: the vendor test key, else the hash of an
integrator key) over a message (R35, R64, R470). -/
opaque sigOk : Nat → List Byte → List Byte → Bool

/-- The digest of the boot ROM (R452). -/
opaque romDigest : Nat

/-- SHA-384 over a partition's maps, engine entries and VFs as the hub lays them out (R452: the order is not stated). -/
opaque layoutDigest : List Nat → Nat

/-- AES-KW unwrap of WRAPPED under the KEK of R462, for a sealing key, a unit, the header digest H and EPHEMERAL; none: it fails. -/
opaque unwrapKey : Nat → Nat → Nat → List Byte → List Byte → Option (List Byte)

/-- AES-256-GCM decryption of a chunk (R462): content key, NONCE, chunk number, H, ciphertext, tag; none: the tag fails. -/
opaque gcmOpen : List Byte → List Byte → Nat → Nat → List Byte → List Byte → Option (List Byte)

/-- IDE_KM status of a refused message (R455): 0 the stream runs, 1 no such stream or key, 2 not the stream's own session. -/
opaque ideRefused : Nat → Nat

end Sys2Proof.Config
end

