-- ==== Sys2Proof/Machine/Tab.lean ====
section
/-! DEFINITION. Finite tables as plain data: a list of (key, value) pairs with strictly rising keys, in which an entry
equal to what an unlisted key reads as is not listed. Memory, the register file of the block and every array of units
(floes, cores, streams, queues ...) are such tables, so that equal contents are equal data. -/

namespace Sys2Proof.Machine

/-- A table of values by natural-number key. -/
abbrev Tab (α : Type) := List (Nat × α)

/-- The value listed at key `k`, if any. -/
def tlook {α : Type} (t : Tab α) (k : Nat) : Option α :=
  match t with
  | [] => none
  | (k', v) :: t' => if k' = k then some v else tlook t' k

/-- The value at key `k`; `d` is what an unlisted key reads as. -/
def tget {α : Type} (d : α) (t : Tab α) (k : Nat) : α := (tlook t k).getD d

/-- The table without key `k`. -/
def terase {α : Type} (t : Tab α) (k : Nat) : Tab α :=
  match t with
  | [] => []
  | (k', v) :: t' => if k' = k then terase t' k else (k', v) :: terase t' k

/-- The pair placed before the first larger key. -/
def tins {α : Type} (t : Tab α) (k : Nat) (v : α) : Tab α :=
  match t with
  | [] => [(k, v)]
  | (k', v') :: t' => if k < k' then (k, v) :: (k', v') :: t' else (k', v') :: tins t' k v

/-- The table with `v` listed at key `k`. -/
def tput {α : Type} (t : Tab α) (k : Nat) (v : α) : Tab α := tins (terase t k) k v

/-- The table whose value at key `k` is `v`, in canonical form over the default `d`: a value equal to the default is
not listed. -/
def tset {α : Type} [DecidableEq α] (d : α) (t : Tab α) (k : Nat) (v : α) : Tab α :=
  if v = d then terase t k else tput t k v

/-- The keys of the table rise strictly. -/
def tsorted {α : Type} : Tab α → Bool
  | [] => true
  | [_] => true
  | (k, _) :: (k', v') :: t => decide (k < k') && tsorted ((k', v') :: t)

/-- The canonical form over the default `d`: keys rise strictly and no entry equals the default. -/
def tcanon {α : Type} [DecidableEq α] (d : α) (t : Tab α) : Bool :=
  tsorted t && t.all (fun p => decide (p.2 ≠ d))

/-- A value of the table changed in place. -/
def tmod {α : Type} [DecidableEq α] (d : α) (t : Tab α) (k : Nat) (f : α → α) : Tab α :=
  tset d t k (f (tget d t k))

/-- A set of keys as a strictly rising list: membership. -/
def kmem (t : List Nat) (k : Nat) : Bool := t.any (fun x => decide (x = k))

/-- A set of keys with `k` taken out. -/
def kdel (t : List Nat) (k : Nat) : List Nat := t.filter (fun x => decide (x ≠ k))

/-- `k` placed in a rising list. -/
def kins (t : List Nat) (k : Nat) : List Nat :=
  match t with
  | [] => [k]
  | x :: t' => if k < x then k :: x :: t' else x :: kins t' k

/-- A set of keys with `k` added. -/
def kadd (t : List Nat) (k : Nat) : List Nat := kins (kdel t k) k

end Sys2Proof.Machine
end

