-- ==== Sys2Proof/Machine/Bits.lean ====
section
/-! DEFINITION. Bit fields and byte order, over natural numbers and words (R3: little-endian everywhere). -/

namespace Sys2Proof.Machine

/-- Bits [lo + len - 1 : lo] of `x`. -/
def bits (x lo len : Nat) : Nat := (x / 2 ^ lo) % 2 ^ len

/-- Bit `i` of `x`, as a Bool. -/
def bitAt (x i : Nat) : Bool := decide ((x / 2 ^ i) % 2 = 1)

/-- `x` with bits [lo + len - 1 : lo] replaced by the low `len` bits of `v`. -/
def putBits (x lo len v : Nat) : Nat :=
  x % 2 ^ lo + (v % 2 ^ len) * 2 ^ lo + (x / 2 ^ (lo + len)) * 2 ^ (lo + len)

/-- A Bool as a bit. -/
def b2n (b : Bool) : Nat := if b then 1 else 0

/-- The number a little-endian byte list spells (R3). -/
def leNat : List Byte → Nat
  | [] => 0
  | b :: t => b.toNat + 256 * leNat t

/-- The `n` little-endian bytes of `x` (R3). -/
def leBytes (n x : Nat) : List Byte :=
  match n with
  | 0 => []
  | n + 1 => BitVec.ofNat 8 x :: leBytes n (x / 256)

/-- A saturating count: `x + k`, at most `2^w - 1` (the counters that "stop at" their maximum). -/
def satAdd (w x k : Nat) : Nat := min (x + k) (2 ^ w - 1)

/-- A wrapping count of `w` bits. -/
def wrapAdd (w x k : Nat) : Nat := (x + k) % 2 ^ w

/-- The difference of two free-running 32-bit counts. -/
def diff32 (a b : Nat) : Nat := (a + (2 ^ 32 - b % 2 ^ 32)) % 2 ^ 32

/-- The signed value of the low `w` bits of `x`. -/
def toSigned (w x : Nat) : Int :=
  if x % 2 ^ w < 2 ^ (w - 1) then ((x % 2 ^ w : Nat) : Int) else ((x % 2 ^ w : Nat) : Int) - (2 ^ w : Nat)

/-- The `w`-bit two's complement pattern of `i`. -/
def ofSigned (w : Nat) (i : Int) : Nat := (i % (2 ^ w : Nat)).toNat

/-- The ones among the low `n` bits of `x`. -/
def popCount (n x : Nat) : Nat :=
  match n with
  | 0 => 0
  | n + 1 => (x % 2) + popCount n (x / 2)

/-- The positions of the ones among bits `i .. i + n - 1` of `x` (`x` already shifted right by `i`). -/
def onesFrom (n i x : Nat) : List Nat :=
  match n with
  | 0 => []
  | n + 1 => if x % 2 = 1 then i :: onesFrom n (i + 1) (x / 2) else onesFrom n (i + 1) (x / 2)

/-- The positions of the ones among the low `n` bits of `x`, lowest first. -/
def ones (n x : Nat) : List Nat := onesFrom n 0 x

/-- The lowest index below `n` that satisfies `p`. -/
def findFrom (n i : Nat) (p : Nat → Bool) : Option Nat :=
  match n with
  | 0 => none
  | n + 1 => if p i then some i else findFrom n (i + 1) p

/-- The lowest index below `n` that satisfies `p`. -/
def findLow (n : Nat) (p : Nat → Bool) : Option Nat := findFrom n 0 p

/-- A function iterated over the indices `i .. i + n - 1`, lowest first. -/
def foldFrom {σ : Type} (n i : Nat) (f : Nat → σ → σ) (s : σ) : σ :=
  match n with
  | 0 => s
  | n + 1 => foldFrom n (i + 1) f (f i s)

/-- The sum of `f` over the indices below `n`. -/
def sumTo (n : Nat) (f : Nat → Nat) : Nat :=
  match n with
  | 0 => 0
  | n + 1 => sumTo n f + f n

end Sys2Proof.Machine
end

