-- ==== Sys2Proof/Machine/Reg.lean ====
section
/-! DEFINITION. The register fields of PF BAR0, one name per field, as the spec's register tables give them: the full
BAR0 offset of the register, the field's low bit and length, and its reset value. Fields whose table says "boot",
"strap", "descriptor", "fuse" or "cause" hold 0 until the boot sets them (assumption 1). A Q_ register belongs to a
function: functions are told apart 2^32 offsets from each other, and so are the units of a PERF counter. -/

namespace Sys2Proof.Machine

/-- A register field: offset of its register, low bit, length in bits, reset value. -/
structure Fld where
  off : Nat
  lo : Nat
  len : Nat
  rst : Nat
  deriving DecidableEq, Repr

/-- The key of a field in the register file. -/
def Fld.key (f : Fld) : Nat := f.off * 2048 + f.lo

/-- R83: the home gateway of floe `f` of a die. -/
def gatewayOf (f : Nat) : Nat := if f < 20 then f / 5 else 4 + (f - 20) / 4

/-- Table 4 of 13 (R319): the default class of local master port `n`. -/
def portClassOf (n : Nat) : Nat :=
  if n < 196 then 2 else if n < 260 then 3 else if n < 285 then 1 else if n < 297 then 5 else if n < 298 then 4 else 0

namespace Reg

/-- CFG_EPOCH.EPOCH (RO; 02). -/
def cfgEpochEpoch : Fld := ⟨0x100000, 0, 32, 1⟩

/-- CFG_STATUS.PHASE (RO; 02). -/
def cfgStatusPhase : Fld := ⟨0x100008, 0, 2, 0⟩

/-- CFG_STATUS.STAGED (RO; 02). -/
def cfgStatusStaged : Fld := ⟨0x100008, 2, 1, 0⟩

/-- CFG_STATUS.LAST_OK (RO; 02). -/
def cfgStatusLastOk : Fld := ⟨0x100008, 3, 1, 0⟩

/-- CFG_STATUS.LAST_CAUSE (RO; 02). -/
def cfgStatusLastCause : Fld := ⟨0x100008, 8, 8, 0⟩

/-- CFG_STATUS.LAST_ITEM (RO; 02). -/
def cfgStatusLastItem : Fld := ⟨0x100008, 16, 16, 0⟩

/-- CFG_COMMIT.EXPECT_EPOCH (WO; 02). -/
def cfgCommitExpectEpoch : Fld := ⟨0x100010, 0, 32, 0⟩

/-- CFG_COMMIT.VALIDATE_ONLY (WO; 02). -/
def cfgCommitValidateOnly : Fld := ⟨0x100010, 32, 1, 0⟩

/-- CFG_COMMIT.DISCARD (WO; 02). -/
def cfgCommitDiscard : Fld := ⟨0x100010, 33, 1, 0⟩

/-- CFG_OWNER.OWNER_IF (RO; 02). -/
def cfgOwnerOwnerIf : Fld := ⟨0x100018, 0, 4, 0⟩

/-- CFG_OWNER.BREAK (WO; 02). -/
def cfgOwnerBreak : Fld := ⟨0x100018, 16, 1, 0⟩

/-- CFG_MODE.TWIN (RO; 02). -/
def cfgModeTwin : Fld := ⟨0x100020, 0, 1, 0⟩

/-- CFG_MODE.PRIMARY (RO; 02). -/
def cfgModePrimary : Fld := ⟨0x100020, 1, 1, 0⟩

/-- CFG_MODE.SRIOV (RO; 02). -/
def cfgModeSriov : Fld := ⟨0x100020, 2, 1, 0⟩

/-- CFG_MODE.WHITEOUT (RO; 02). -/
def cfgModeWhiteout : Fld := ⟨0x100020, 3, 1, 0⟩

/-- CFG_MODE.WHITEOUT_CAUSE (RO; 02). -/
def cfgModeWhiteoutCause : Fld := ⟨0x100020, 4, 4, 0⟩

/-- CFG_MODE.FEATURE_LEVEL (RO; 02). -/
def cfgModeFeatureLevel : Fld := ⟨0x100020, 8, 4, 0⟩

/-- CFG_MODE.LIFECYCLE (RO; 02). -/
def cfgModeLifecycle : Fld := ⟨0x100020, 12, 2, 0⟩

/-- CFG_MODE.PARTITIONS (RO; 02). -/
def cfgModePartitions : Fld := ⟨0x100020, 16, 8, 0⟩

/-- CFG_POWER.CLASS_W (RWF; 02). -/
def cfgPowerClassW : Fld := ⟨0x100028, 0, 12, 0⟩

/-- CFG_POWER.BRAKE_LEVEL (RWF; 02). -/
def cfgPowerBrakeLevel : Fld := ⟨0x100028, 12, 2, 0⟩

/-- CFG_EVENT.COMMIT_DONE (RW1C; 02). -/
def cfgEventCommitDone : Fld := ⟨0x100030, 0, 1, 0⟩

/-- CFG_EVENT.COMMIT_FAILED (RW1C; 02). -/
def cfgEventCommitFailed : Fld := ⟨0x100030, 1, 1, 0⟩

/-- CFG_EVENT.FORECAST_EXPIRED (RW1C; 02). -/
def cfgEventForecastExpired : Fld := ⟨0x100030, 2, 1, 0⟩

/-- CFG_EVENT.REFUSED (RW1C; 02). -/
def cfgEventRefused : Fld := ⟨0x100030, 3, 1, 0⟩

/-- CFG_EVENT_EN.COMMIT_DONE (RW; 02). -/
def cfgEventEnCommitDone : Fld := ⟨0x100034, 0, 1, 0⟩

/-- CFG_EVENT_EN.COMMIT_FAILED (RW; 02). -/
def cfgEventEnCommitFailed : Fld := ⟨0x100034, 1, 1, 0⟩

/-- CFG_EVENT_EN.FORECAST_EXPIRED (RW; 02). -/
def cfgEventEnForecastExpired : Fld := ⟨0x100034, 2, 1, 0⟩

/-- CFG_EVENT_EN.REFUSED (RW; 02). -/
def cfgEventEnRefused : Fld := ⟨0x100034, 3, 1, 0⟩

/-- CFG_REFUSED.OFFSET (RO; 02). -/
def cfgRefusedOffset : Fld := ⟨0x100038, 0, 32, 0⟩

/-- CFG_REFUSED.IF (RO; 02). -/
def cfgRefusedIface : Fld := ⟨0x100038, 32, 4, 0⟩

/-- CFG_REFUSED.CAUSE (RO; 02). -/
def cfgRefusedCause : Fld := ⟨0x100038, 40, 8, 0⟩

/-- CFG_FSET_ADDR.HPA (RW; 02). -/
def cfgFsetAddrHpa : Fld := ⟨0x100040, 0, 48, 0⟩

/-- CFG_FSET_LOAD.LOAD (W1S; 02). -/
def cfgFsetLoadLoad : Fld := ⟨0x100048, 0, 1, 0⟩

/-- CFG_FSET_LOAD.RESULT (RO; 02). -/
def cfgFsetLoadResult : Fld := ⟨0x100048, 8, 8, 0⟩

/-- CFG_FSET_LOAD.COUNT (RO; 02). -/
def cfgFsetLoadCount : Fld := ⟨0x100048, 16, 16, 0⟩

/-- CFG_DESC.SERIAL (RO; 02). -/
def cfgDescSerial : Fld := ⟨0x100050, 0, 32, 0⟩

/-- CFG_EXPIRY.IDLE_S (RW; 02). -/
def cfgExpiryIdleS : Fld := ⟨0x100054, 0, 12, 60⟩

/-- GLB_ID.VENDOR (RO; 03). -/
def glbIdVendor : Fld := ⟨0x0, 0, 16, 7996⟩

/-- GLB_ID.DEVICE (RO; 03). -/
def glbIdDevice : Fld := ⟨0x0, 16, 16, 59744⟩

/-- GLB_REV.SILICON_REV (RO; 03). -/
def glbRevSiliconRev : Fld := ⟨0x8, 0, 8, 0⟩

/-- GLB_REV.FEATURE_LEVEL (RO; 03). -/
def glbRevFeatureLevel : Fld := ⟨0x8, 8, 4, 0⟩

/-- GLB_REV.TWIN (RO; 03). -/
def glbRevTwin : Fld := ⟨0x8, 12, 1, 0⟩

/-- GLB_REV.PARTNER_REV (RO; 03). -/
def glbRevPartnerRev : Fld := ⟨0x8, 16, 8, 0⟩

/-- GLB_REV.PARTNER_FL (RO; 03). -/
def glbRevPartnerFl : Fld := ⟨0x8, 24, 4, 0⟩

/-- GLB_UNIT_ID.UNIT_ID (RO; 03). -/
def glbUnitIdUnitId : Fld := ⟨0x10, 0, 64, 0⟩

/-- GLB_PARTNER_UNIT_ID.UNIT_ID (RO; 03). -/
def glbPartnerUnitIdUnitId : Fld := ⟨0x18, 0, 64, 0⟩

/-- GLB_BOOT_STATUS.STAGE (RO; 03). -/
def glbBootStatusStage : Fld := ⟨0x40, 0, 8, 1⟩

/-- GLB_BOOT_STATUS.SLOT (RO; 03). -/
def glbBootStatusSlot : Fld := ⟨0x40, 8, 1, 0⟩

/-- GLB_BOOT_STATUS.TRIAL (RO; 03). -/
def glbBootStatusTrial : Fld := ⟨0x40, 9, 1, 0⟩

/-- GLB_BOOT_STATUS.PARTNER_HELD (RO; 03). -/
def glbBootStatusPartnerHeld : Fld := ⟨0x40, 10, 1, 0⟩

/-- GLB_BOOT_STATUS.RECOVERY (RO; 03). -/
def glbBootStatusRecovery : Fld := ⟨0x40, 11, 1, 0⟩

/-- GLB_HOST_IF.VERSION (RO; 03). -/
def glbHostIfVersion : Fld := ⟨0x44, 0, 16, 0⟩

/-- GLB_RESET_CAUSE.PORST (RO; 03). -/
def glbResetCausePorst : Fld := ⟨0x48, 0, 1, 0⟩

/-- GLB_RESET_CAUSE.PERST (RO; 03). -/
def glbResetCausePerst : Fld := ⟨0x48, 1, 1, 0⟩

/-- GLB_RESET_CAUSE.SOFT (RO; 03). -/
def glbResetCauseSoft : Fld := ⟨0x48, 2, 1, 0⟩

/-- GLB_RESET_CAUSE.HUB_FATAL (RO; 03). -/
def glbResetCauseHubFatal : Fld := ⟨0x48, 3, 1, 0⟩

/-- GLB_RESET_CAUSE.WATCHDOG (RO; 03). -/
def glbResetCauseWatchdog : Fld := ⟨0x48, 4, 1, 0⟩

/-- GLB_RESET_CAUSE.PARTNER (RO; 03). -/
def glbResetCausePartner : Fld := ⟨0x48, 5, 1, 0⟩

/-- GLB_RESET.HUB (WO; 03). -/
def glbResetHub : Fld := ⟨0x50, 0, 1, 0⟩

/-- GLB_RESET.KEY (WO; 03). -/
def glbResetKey : Fld := ⟨0x50, 16, 16, 0⟩

/-- FLC_INFO.FLOES (RO; 04). -/
def flcInfoFloes : Fld := ⟨0x200000, 0, 10, 0⟩

/-- FLC_INFO.CORES (RO; 04). -/
def flcInfoCores : Fld := ⟨0x200000, 10, 8, 128⟩

/-- FLC_INFO.FREQ_MIN (RO; 04). -/
def flcInfoFreqMin : Fld := ⟨0x200000, 18, 4, 6⟩

/-- FLC_INFO.FREQ_MAX (RO; 04). -/
def flcInfoFreqMax : Fld := ⟨0x200000, 26, 5, 15⟩

/-- FLC_EVENT.KERNEL_FAULT (RW1C; 04). -/
def flcEventKernelFault : Fld := ⟨0x200010, 0, 1, 0⟩

/-- FLC_EVENT.TIMEOUT (RW1C; 04). -/
def flcEventTimeout : Fld := ⟨0x200010, 1, 1, 0⟩

/-- FLC_EVENT.RESET_REFUSED (RW1C; 04). -/
def flcEventResetRefused : Fld := ⟨0x200010, 2, 1, 0⟩

/-- FLC_EVENT_EN.KERNEL_FAULT (RW; 04). -/
def flcEventEnKernelFault : Fld := ⟨0x200014, 0, 1, 0⟩

/-- FLC_EVENT_EN.TIMEOUT (RW; 04). -/
def flcEventEnTimeout : Fld := ⟨0x200014, 1, 1, 0⟩

/-- FLC_EVENT_EN.RESET_REFUSED (RW; 04). -/
def flcEventEnResetRefused : Fld := ⟨0x200014, 2, 1, 0⟩

/-- FLC_PERF_SEL.FLOE (RW; 04). -/
def flcPerfSelFloe : Fld := ⟨0x200020, 0, 9, 0⟩

/-- FLC_PERF_CYCLES.COUNT (RO; 04). -/
def flcPerfCyclesCount (i : Nat) : Fld := ⟨0x200028 + 0x100000000 * i, 0, 64, 0⟩

/-- FLC_PERF_VFMA.COUNT (RO; 04). -/
def flcPerfVfmaCount (i : Nat) : Fld := ⟨0x200030 + 0x100000000 * i, 0, 64, 0⟩

/-- FLC_PERF_LDSTALL.COUNT (RO; 04). -/
def flcPerfLdstallCount (i : Nat) : Fld := ⟨0x200038 + 0x100000000 * i, 0, 64, 0⟩

/-- FLC_PERF_MISPRED.COUNT (RO; 04). -/
def flcPerfMispredCount (i : Nat) : Fld := ⟨0x200040 + 0x100000000 * i, 0, 64, 0⟩

/-- FLC_FLOE_STATUS.STATE (RO; 04). -/
def flcFloeStatusState (i : Nat) : Fld := ⟨0x201000 + 0x8 * i, 0, 3, 0⟩

/-- FLC_FLOE_STATUS.PARTITION (RO; 04). -/
def flcFloeStatusPartition (i : Nat) : Fld := ⟨0x201000 + 0x8 * i, 3, 5, 31⟩

/-- FLC_FLOE_STATUS.FREQ (RO; 04). -/
def flcFloeStatusFreq (i : Nat) : Fld := ⟨0x201000 + 0x8 * i, 8, 4, 6⟩

/-- FLC_FLOE_STATUS.QUEUED (RO; 04). -/
def flcFloeStatusQueued (i : Nat) : Fld := ⟨0x201000 + 0x8 * i, 12, 4, 0⟩

/-- FLC_FLOE_STATUS.GATEWAY (RO; 04). -/
def flcFloeStatusGateway (i : Nat) : Fld := ⟨0x201000 + 0x8 * i, 16, 6, gatewayOf (i % 256)⟩

/-- FLC_FLOE_STATUS.LAUNCH_ID (RO; 04). -/
def flcFloeStatusLaunchId (i : Nat) : Fld := ⟨0x201000 + 0x8 * i, 32, 16, 0⟩

/-- FLC_FLOE_CTRL.RESET (W1S; 04). -/
def flcFloeCtrlReset (i : Nat) : Fld := ⟨0x202000 + 0x8 * i, 0, 1, 0⟩

/-- FLC_KFAULT.CODE (RO; 05). -/
def flcKfaultCode (i : Nat) : Fld := ⟨0x204000 + 0x40 * i, 0, 8, 0⟩

/-- FLC_KFAULT.STATUS (RO; 05). -/
def flcKfaultStatus (i : Nat) : Fld := ⟨0x204000 + 0x40 * i, 8, 8, 0⟩

/-- FLC_KFAULT.FLAGS (RO; 05). -/
def flcKfaultFlags (i : Nat) : Fld := ⟨0x204000 + 0x40 * i, 16, 8, 0⟩

/-- FLC_KFAULT.SUPPRESSED (RO; 05). -/
def flcKfaultSuppressed (i : Nat) : Fld := ⟨0x204000 + 0x40 * i, 24, 8, 0⟩

/-- FLC_KFAULT.LAUNCH_ID (RO; 05). -/
def flcKfaultLaunchId (i : Nat) : Fld := ⟨0x204000 + 0x40 * i, 32, 16, 0⟩

/-- FLC_KFAULT.FLOE (RO; 05). -/
def flcKfaultFloe (i : Nat) : Fld := ⟨0x204000 + 0x40 * i, 48, 9, 0⟩

/-- FLC_KFAULT.LOST (RW1C; 05). -/
def flcKfaultLost (i : Nat) : Fld := ⟨0x204000 + 0x40 * i, 62, 1, 0⟩

/-- FLC_KFAULT.VALID (RW1C; 05). -/
def flcKfaultValid (i : Nat) : Fld := ⟨0x204000 + 0x40 * i, 63, 1, 0⟩

/-- FLC_KFAULT.CORE (RO; 05). -/
def flcKfaultCore (i : Nat) : Fld := ⟨0x204000 + 0x40 * i, 64, 7, 0⟩

/-- FLC_KFAULT.TRAP_CODE (RO; 05). -/
def flcKfaultTrapCode (i : Nat) : Fld := ⟨0x204000 + 0x40 * i, 80, 8, 0⟩

/-- FLC_KFAULT.INSN (RO; 05). -/
def flcKfaultInsn (i : Nat) : Fld := ⟨0x204000 + 0x40 * i, 96, 32, 0⟩

/-- FLC_KFAULT.PC (RO; 05). -/
def flcKfaultPc (i : Nat) : Fld := ⟨0x204000 + 0x40 * i, 128, 32, 0⟩

/-- FLC_KFAULT.TILE (RO; 05). -/
def flcKfaultTile (i : Nat) : Fld := ⟨0x204000 + 0x40 * i, 160, 32, 0⟩

/-- FLC_KFAULT.ADDR (RO; 05). -/
def flcKfaultAddr (i : Nat) : Fld := ⟨0x204000 + 0x40 * i, 192, 64, 0⟩

/-- DEW_POLICY.STORE_ALLOW (RWF; 07). -/
def dewPolicyStoreAllow (i : Nat) : Fld := ⟨0x1100000 + 0x20 * i, 0, 12, 4095⟩

/-- DEW_ACC_LO.MIN_ACC[c] (RWF; 07). -/
def dewAccLoMinAcc0 (i : Nat) : Fld := ⟨0x1100008 + 0x20 * i, 0, 8, 0⟩

/-- DEW_ACC_LO.MIN_ACC[c] (RWF; 07). -/
def dewAccLoMinAcc1 (i : Nat) : Fld := ⟨0x1100008 + 0x20 * i, 8, 8, 0⟩

/-- DEW_ACC_LO.MIN_ACC[c] (RWF; 07). -/
def dewAccLoMinAcc2 (i : Nat) : Fld := ⟨0x1100008 + 0x20 * i, 16, 8, 0⟩

/-- DEW_ACC_LO.MIN_ACC[c] (RWF; 07). -/
def dewAccLoMinAcc3 (i : Nat) : Fld := ⟨0x1100008 + 0x20 * i, 24, 8, 32⟩

/-- DEW_ACC_LO.MIN_ACC[c] (RWF; 07). -/
def dewAccLoMinAcc4 (i : Nat) : Fld := ⟨0x1100008 + 0x20 * i, 32, 8, 32⟩

/-- DEW_ACC_LO.MIN_ACC[c] (RWF; 07). -/
def dewAccLoMinAcc5 (i : Nat) : Fld := ⟨0x1100008 + 0x20 * i, 40, 8, 32⟩

/-- DEW_ACC_LO.MIN_ACC[c] (RWF; 07). -/
def dewAccLoMinAcc6 (i : Nat) : Fld := ⟨0x1100008 + 0x20 * i, 48, 8, 32⟩

/-- DEW_ACC_LO.MIN_ACC[c] (RWF; 07). -/
def dewAccLoMinAcc7 (i : Nat) : Fld := ⟨0x1100008 + 0x20 * i, 56, 8, 32⟩

/-- DEW_ACC_HI.MIN_ACC[c] (RWF; 07). -/
def dewAccHiMinAcc0 (i : Nat) : Fld := ⟨0x1100010 + 0x20 * i, 0, 8, 32⟩

/-- DEW_ACC_HI.MIN_ACC[c] (RWF; 07). -/
def dewAccHiMinAcc1 (i : Nat) : Fld := ⟨0x1100010 + 0x20 * i, 8, 8, 32⟩

/-- DEW_ACC_HI.MIN_ACC[c] (RWF; 07). -/
def dewAccHiMinAcc2 (i : Nat) : Fld := ⟨0x1100010 + 0x20 * i, 16, 8, 32⟩

/-- DEW_ACC_HI.MIN_ACC[c] (RWF; 07). -/
def dewAccHiMinAcc3 (i : Nat) : Fld := ⟨0x1100010 + 0x20 * i, 24, 8, 32⟩

/-- DEW_ACC_REFUSED.COUNT (RO; 07). -/
def dewAccRefusedCount (i : Nat) : Fld := ⟨0x1100018 + 0x20 * i, 0, 32, 0⟩

/-- DEW_EVENT.TRIP (RW1C; 07). -/
def dewEventTrip : Fld := ⟨0x1100400, 0, 1, 0⟩

/-- DEW_EVENT.PROMOTED (RW1C; 07). -/
def dewEventPromoted : Fld := ⟨0x1100400, 1, 1, 0⟩

/-- DEW_EVENT.HALT (RW1C; 07). -/
def dewEventHalt : Fld := ⟨0x1100400, 2, 1, 0⟩

/-- DEW_EVENT.ACC_REFUSED (RW1C; 07). -/
def dewEventAccRefused : Fld := ⟨0x1100400, 3, 1, 0⟩

/-- DEW_EVENT.CEILING (RW1C; 07). -/
def dewEventCeiling : Fld := ⟨0x1100400, 4, 1, 0⟩

/-- DEW_EVENT_EN.TRIP (RW; 07). -/
def dewEventEnTrip : Fld := ⟨0x1100404, 0, 1, 0⟩

/-- DEW_EVENT_EN.PROMOTED (RW; 07). -/
def dewEventEnPromoted : Fld := ⟨0x1100404, 1, 1, 0⟩

/-- DEW_EVENT_EN.HALT (RW; 07). -/
def dewEventEnHalt : Fld := ⟨0x1100404, 2, 1, 0⟩

/-- DEW_EVENT_EN.ACC_REFUSED (RW; 07). -/
def dewEventEnAccRefused : Fld := ⟨0x1100404, 3, 1, 0⟩

/-- DEW_EVENT_EN.CEILING (RW; 07). -/
def dewEventEnCeiling : Fld := ⟨0x1100404, 4, 1, 0⟩

/-- DEW_LAST.PARTITION (RO; 07). -/
def dewLastPartition : Fld := ⟨0x1100408, 0, 5, 0⟩

/-- DEW_LAST.TAG (RO; 07). -/
def dewLastTag : Fld := ⟨0x1100408, 8, 8, 0⟩

/-- DEW_LAST.ACTION (RO; 07). -/
def dewLastAction : Fld := ⟨0x1100408, 16, 2, 0⟩

/-- DEW_TAG.BASE (RWF; 07). -/
def dewTagBase (i j : Nat) : Fld := ⟨0x1110000 + 0x2000 * i + 0x20 * j, 0, 52, 0⟩

/-- DEW_TAG.GROUPS (RWF; 07). -/
def dewTagGroups (i j : Nat) : Fld := ⟨0x1110000 + 0x2000 * i + 0x20 * j, 64, 32, 0⟩

/-- DEW_TAG.STRIDE (RWF; 07). -/
def dewTagStride (i j : Nat) : Fld := ⟨0x1110000 + 0x2000 * i + 0x20 * j, 96, 16, 0⟩

/-- DEW_TAG.FMT (RWF; 07). -/
def dewTagFmt (i j : Nat) : Fld := ⟨0x1110000 + 0x2000 * i + 0x20 * j, 128, 8, 0⟩

/-- DEW_TAG.CEIL (RWF; 07). -/
def dewTagCeil (i j : Nat) : Fld := ⟨0x1110000 + 0x2000 * i + 0x20 * j, 136, 8, 0⟩

/-- DEW_TAG.ACTION (RWF; 07). -/
def dewTagAction (i j : Nat) : Fld := ⟨0x1110000 + 0x2000 * i + 0x20 * j, 144, 2, 0⟩

/-- DEW_TAG.SAMPLE_LOG2 (RWF; 07). -/
def dewTagSampleLog2 (i j : Nat) : Fld := ⟨0x1110000 + 0x2000 * i + 0x20 * j, 146, 4, 6⟩

/-- DEW_TAG.WINDOW_LOG2 (RWF; 07). -/
def dewTagWindowLog2 (i j : Nat) : Fld := ⟨0x1110000 + 0x2000 * i + 0x20 * j, 150, 4, 10⟩

/-- DEW_TAG.RMS_TH (RWF; 07). -/
def dewTagRmsTh (i j : Nat) : Fld := ⟨0x1110000 + 0x2000 * i + 0x20 * j, 160, 16, 65535⟩

/-- DEW_TAG.MAX_TH (RWF; 07). -/
def dewTagMaxTh (i j : Nat) : Fld := ⟨0x1110000 + 0x2000 * i + 0x20 * j, 176, 16, 65535⟩

/-- DEW_TAG.MIGRATING (RO; 07). -/
def dewTagMigrating (i j : Nat) : Fld := ⟨0x1110000 + 0x2000 * i + 0x20 * j, 192, 1, 0⟩

/-- DEW_TAG.HALTED (RW1C; 07). -/
def dewTagHalted (i j : Nat) : Fld := ⟨0x1110000 + 0x2000 * i + 0x20 * j, 193, 1, 0⟩

/-- DEW_TAG.AT_CEIL (RO; 07). -/
def dewTagAtCeil (i j : Nat) : Fld := ⟨0x1110000 + 0x2000 * i + 0x20 * j, 194, 1, 1⟩

/-- DEW_TAG.CLEAR (W1S; 07). -/
def dewTagClear (i j : Nat) : Fld := ⟨0x1110000 + 0x2000 * i + 0x20 * j, 195, 1, 0⟩

/-- DEW_TAG.NEXT_FMT (RO; 07). -/
def dewTagNextFmt (i j : Nat) : Fld := ⟨0x1110000 + 0x2000 * i + 0x20 * j, 200, 8, 0⟩

/-- DEW_TAG.FRONTIER (RO; 07). -/
def dewTagFrontier (i j : Nat) : Fld := ⟨0x1110000 + 0x2000 * i + 0x20 * j, 224, 32, 0⟩

/-- DEW_STAT.dewStatSat (RO; 07). -/
def dewStatSat (i j : Nat) : Fld := ⟨0x1140000 + 0x4000 * i + 0x40 * j, 0, 32, 0⟩

/-- DEW_STAT.dewStatOf (RO; 07). -/
def dewStatOf (i j : Nat) : Fld := ⟨0x1140000 + 0x4000 * i + 0x40 * j, 32, 32, 0⟩

/-- DEW_STAT.dewStatNv (RO; 07). -/
def dewStatNv (i j : Nat) : Fld := ⟨0x1140000 + 0x4000 * i + 0x40 * j, 64, 32, 0⟩

/-- DEW_STAT.dewStatEsc (RO; 07). -/
def dewStatEsc (i j : Nat) : Fld := ⟨0x1140000 + 0x4000 * i + 0x40 * j, 96, 32, 0⟩

/-- DEW_STAT.dewStatEscovf (RO; 07). -/
def dewStatEscovf (i j : Nat) : Fld := ⟨0x1140000 + 0x4000 * i + 0x40 * j, 128, 32, 0⟩

/-- DEW_STAT.dewStatBad (RO; 07). -/
def dewStatBad (i j : Nat) : Fld := ⟨0x1140000 + 0x4000 * i + 0x40 * j, 160, 32, 0⟩

/-- DEW_STAT.dewStatTrips (RO; 07). -/
def dewStatTrips (i j : Nat) : Fld := ⟨0x1140000 + 0x4000 * i + 0x40 * j, 192, 32, 0⟩

/-- DEW_STAT.dewStatSkipped (RO; 07). -/
def dewStatSkipped (i j : Nat) : Fld := ⟨0x1140000 + 0x4000 * i + 0x40 * j, 224, 32, 0⟩

/-- DEW_STAT.LAST_RMS (RO; 07). -/
def dewStatLastRms (i j : Nat) : Fld := ⟨0x1140000 + 0x4000 * i + 0x40 * j, 256, 16, 0⟩

/-- DEW_STAT.LAST_MAX (RO; 07). -/
def dewStatLastMax (i j : Nat) : Fld := ⟨0x1140000 + 0x4000 * i + 0x40 * j, 272, 16, 0⟩

/-- DEW_STAT.COUNT (RO; 07). -/
def dewStatCount (i j : Nat) : Fld := ⟨0x1140000 + 0x4000 * i + 0x40 * j, 288, 16, 0⟩

/-- HBM_STACK_INFO.STATE (RO; 08). -/
def hbmStackInfoState (i : Nat) : Fld := ⟨0x500000 + 0x8 * i, 0, 3, 0⟩

/-- HBM_STACK_INFO.DENSITY (RO; 08). -/
def hbmStackInfoDensity (i : Nat) : Fld := ⟨0x500000 + 0x8 * i, 3, 3, 0⟩

/-- HBM_STACK_INFO.SPEED (RO; 08). -/
def hbmStackInfoSpeed (i : Nat) : Fld := ⟨0x500000 + 0x8 * i, 6, 2, 0⟩

/-- HBM_STACK_INFO.ECC (RO; 08). -/
def hbmStackInfoEcc (i : Nat) : Fld := ⟨0x500000 + 0x8 * i, 8, 1, 0⟩

/-- HBM_STACK_INFO.LEVEL (RO; 08). -/
def hbmStackInfoLevel (i : Nat) : Fld := ⟨0x500000 + 0x8 * i, 9, 2, 0⟩

/-- HBM_STACK_INFO.REPAIRING (RO; 08). -/
def hbmStackInfoRepairing (i : Nat) : Fld := ⟨0x500000 + 0x8 * i, 11, 1, 0⟩

/-- HBM_STACK_INFO.TEMP (RO; 08). -/
def hbmStackInfoTemp (i : Nat) : Fld := ⟨0x500000 + 0x8 * i, 12, 8, 0⟩

/-- HBM_STACK_INFO.MAKER (RO; 08). -/
def hbmStackInfoMaker (i : Nat) : Fld := ⟨0x500000 + 0x8 * i, 20, 16, 0⟩

/-- HBM_STACK_CTRL.SPEED (RWF; 08). -/
def hbmStackCtrlSpeed (i : Nat) : Fld := ⟨0x500100 + 0x8 * i, 0, 2, 0⟩

/-- HBM_STACK_CTRL.ECC (RWF; 08). -/
def hbmStackCtrlEcc (i : Nat) : Fld := ⟨0x500100 + 0x8 * i, 2, 1, 0⟩

/-- HBM_ERR_COUNT.CE (RO; 08). -/
def hbmErrCountCe (i : Nat) : Fld := ⟨0x500200 + 0x8 * i, 0, 32, 0⟩

/-- HBM_ERR_COUNT.UE (RO; 08). -/
def hbmErrCountUe (i : Nat) : Fld := ⟨0x500200 + 0x8 * i, 32, 16, 0⟩

/-- HBM_ERR_COUNT.REPAIRS (RO; 08). -/
def hbmErrCountRepairs (i : Nat) : Fld := ⟨0x500200 + 0x8 * i, 48, 8, 0⟩

/-- HBM_RAS_CFG.CE_THRESH (RW; 08). -/
def hbmRasCfgCeThresh : Fld := ⟨0x500300, 0, 8, 8⟩

/-- HBM_RAS_CFG.CE_WINDOW_H (RW; 08). -/
def hbmRasCfgCeWindowH : Fld := ⟨0x500300, 8, 8, 24⟩

/-- HBM_RAS_CFG.SCRUB_H (RW; 08). -/
def hbmRasCfgScrubH : Fld := ⟨0x500300, 16, 8, 24⟩

/-- HBM_RAS_CFG.PPR_EN (RW; 08). -/
def hbmRasCfgPprEn : Fld := ⟨0x500300, 24, 1, 1⟩

/-- HBM_EVENT.CE (RW1C; 08). -/
def hbmEventCe : Fld := ⟨0x500310, 0, 1, 0⟩

/-- HBM_EVENT.UE (RW1C; 08). -/
def hbmEventUe : Fld := ⟨0x500310, 1, 1, 0⟩

/-- HBM_EVENT.REPAIRED (RW1C; 08). -/
def hbmEventRepaired : Fld := ⟨0x500310, 2, 1, 0⟩

/-- HBM_EVENT.ROW_FAILED (RW1C; 08). -/
def hbmEventRowFailed : Fld := ⟨0x500310, 3, 1, 0⟩

/-- HBM_EVENT.REPAIR_UNAVAILABLE (RW1C; 08). -/
def hbmEventRepairUnavailable : Fld := ⟨0x500310, 4, 1, 0⟩

/-- HBM_EVENT.THERMAL (RW1C; 08). -/
def hbmEventThermal : Fld := ⟨0x500310, 5, 1, 0⟩

/-- HBM_EVENT.RETRAIN (RW1C; 08). -/
def hbmEventRetrain : Fld := ⟨0x500310, 6, 1, 0⟩

/-- HBM_EVENT_EN.CE (RW; 08). -/
def hbmEventEnCe : Fld := ⟨0x500314, 0, 1, 0⟩

/-- HBM_EVENT_EN.UE (RW; 08). -/
def hbmEventEnUe : Fld := ⟨0x500314, 1, 1, 0⟩

/-- HBM_EVENT_EN.REPAIRED (RW; 08). -/
def hbmEventEnRepaired : Fld := ⟨0x500314, 2, 1, 0⟩

/-- HBM_EVENT_EN.ROW_FAILED (RW; 08). -/
def hbmEventEnRowFailed : Fld := ⟨0x500314, 3, 1, 0⟩

/-- HBM_EVENT_EN.REPAIR_UNAVAILABLE (RW; 08). -/
def hbmEventEnRepairUnavailable : Fld := ⟨0x500314, 4, 1, 0⟩

/-- HBM_EVENT_EN.THERMAL (RW; 08). -/
def hbmEventEnThermal : Fld := ⟨0x500314, 5, 1, 0⟩

/-- HBM_EVENT_EN.RETRAIN (RW; 08). -/
def hbmEventEnRetrain : Fld := ⟨0x500314, 6, 1, 0⟩

/-- HBM_ROWQ.STACK (RW; 08). -/
def hbmRowqStack : Fld := ⟨0x500320, 0, 5, 0⟩

/-- HBM_ROWQ.PC (RW; 08). -/
def hbmRowqPc : Fld := ⟨0x500320, 8, 6, 0⟩

/-- HBM_ROWQ.ROWKEY (RW; 08). -/
def hbmRowqRowkey : Fld := ⟨0x500320, 16, 20, 0⟩

/-- HBM_ROWQ.GO (W1S; 08). -/
def hbmRowqGo : Fld := ⟨0x500320, 63, 1, 0⟩

/-- HBM_ROWQ_LINE.HPA (RO; 08). -/
def hbmRowqLineHpa (i : Nat) : Fld := ⟨0x500330 + 0x8 * i, 0, 48, 0⟩

/-- HBM_ROWQ_LINE.META (RO; 08). -/
def hbmRowqLineMeta (i : Nat) : Fld := ⟨0x500330 + 0x8 * i, 62, 1, 0⟩

/-- HBM_ROWQ_LINE.VALID (RO; 08). -/
def hbmRowqLineValid (i : Nat) : Fld := ⟨0x500330 + 0x8 * i, 63, 1, 0⟩

/-- FRN_INFO.SLICES (RO; 09). -/
def frnInfoSlices : Fld := ⟨0x400000, 0, 8, 96⟩

/-- FRN_INFO.WAYS (RO; 09). -/
def frnInfoWays : Fld := ⟨0x400000, 8, 5, 16⟩

/-- FRN_INFO.SETS (RO; 09). -/
def frnInfoSets : Fld := ⟨0x400000, 16, 12, 2048⟩

/-- FRN_RAS_CFG.WAY_WINDOW_H (RW; 09). -/
def frnRasCfgWayWindowH : Fld := ⟨0x400008, 0, 8, 24⟩

/-- FRN_EVENT.PARITY (RW1C; 09). -/
def frnEventParity : Fld := ⟨0x400010, 0, 1, 0⟩

/-- FRN_EVENT.FATAL (RW1C; 09). -/
def frnEventFatal : Fld := ⟨0x400010, 1, 1, 0⟩

/-- FRN_EVENT.WAY_DISABLED (RW1C; 09). -/
def frnEventWayDisabled : Fld := ⟨0x400010, 2, 1, 0⟩

/-- FRN_EVENT.MAINT_DONE (RW1C; 09). -/
def frnEventMaintDone : Fld := ⟨0x400010, 3, 1, 0⟩

/-- FRN_EVENT.APERTURE (RW1C; 09). -/
def frnEventAperture : Fld := ⟨0x400010, 4, 1, 0⟩

/-- FRN_EVENT_EN.PARITY (RW; 09). -/
def frnEventEnParity : Fld := ⟨0x400014, 0, 1, 0⟩

/-- FRN_EVENT_EN.FATAL (RW; 09). -/
def frnEventEnFatal : Fld := ⟨0x400014, 1, 1, 0⟩

/-- FRN_EVENT_EN.WAY_DISABLED (RW; 09). -/
def frnEventEnWayDisabled : Fld := ⟨0x400014, 2, 1, 0⟩

/-- FRN_EVENT_EN.MAINT_DONE (RW; 09). -/
def frnEventEnMaintDone : Fld := ⟨0x400014, 3, 1, 0⟩

/-- FRN_EVENT_EN.APERTURE (RW; 09). -/
def frnEventEnAperture : Fld := ⟨0x400014, 4, 1, 0⟩

/-- FRN_MAINT_ADDR.HPA (RW; 09). -/
def frnMaintAddrHpa : Fld := ⟨0x400020, 0, 48, 0⟩

/-- FRN_MAINT.OP (RW; 09). -/
def frnMaintOp : Fld := ⟨0x400028, 0, 2, 0⟩

/-- FRN_MAINT.SETWAY (RW; 09). -/
def frnMaintSetway : Fld := ⟨0x400028, 2, 1, 0⟩

/-- FRN_MAINT.SLICE (RW; 09). -/
def frnMaintSlice : Fld := ⟨0x400028, 8, 8, 0⟩

/-- FRN_MAINT.SET (RW; 09). -/
def frnMaintSet : Fld := ⟨0x400028, 16, 11, 0⟩

/-- FRN_MAINT.WAY (RW; 09). -/
def frnMaintWay : Fld := ⟨0x400028, 28, 4, 0⟩

/-- FRN_MAINT.GO (W1S; 09). -/
def frnMaintGo : Fld := ⟨0x400028, 32, 1, 0⟩

/-- FRN_MAINT.RESULT (RO; 09). -/
def frnMaintResult : Fld := ⟨0x400028, 40, 8, 0⟩

/-- FRN_PERF_SEL.SLICE (RW; 09). -/
def frnPerfSelSlice : Fld := ⟨0x400030, 0, 8, 0⟩

/-- FRN_PERF_HIT.COUNT (RO; 09). -/
def frnPerfHitCount (i : Nat) : Fld := ⟨0x400038 + 0x100000000 * i, 0, 64, 0⟩

/-- FRN_PERF_MISS.COUNT (RO; 09). -/
def frnPerfMissCount (i : Nat) : Fld := ⟨0x400040 + 0x100000000 * i, 0, 64, 0⟩

/-- FRN_PERF_EVICT.COUNT (RO; 09). -/
def frnPerfEvictCount (i : Nat) : Fld := ⟨0x400048 + 0x100000000 * i, 0, 64, 0⟩

/-- FRN_SLICE_CTRL.MODE (RWF; 09). -/
def frnSliceCtrlMode (i : Nat) : Fld := ⟨0x401000 + 0x8 * i, 0, 2, 0⟩

/-- FRN_SLICE_CTRL.FILL (RWF; 09). -/
def frnSliceCtrlFill (i : Nat) : Fld := ⟨0x401000 + 0x8 * i, 2, 1, 0⟩

/-- FRN_SLICE_CTRL.OP_DISABLE (RWF; 09). -/
def frnSliceCtrlOpDisable (i : Nat) : Fld := ⟨0x401000 + 0x8 * i, 16, 16, 0⟩

/-- FRN_SLICE_CTRL.SEED (RW; 09). -/
def frnSliceCtrlSeed (i : Nat) : Fld := ⟨0x401000 + 0x8 * i, 32, 16, 44257⟩

/-- FRN_SLICE_STATUS.MODE (RO; 09). -/
def frnSliceStatusMode (i : Nat) : Fld := ⟨0x402000 + 0x8 * i, 0, 2, 0⟩

/-- FRN_SLICE_STATUS.HOME (RO; 09). -/
def frnSliceStatusHome (i : Nat) : Fld := ⟨0x402000 + 0x8 * i, 2, 1, 0⟩

/-- FRN_SLICE_STATUS.PARTITION (RO; 09). -/
def frnSliceStatusPartition (i : Nat) : Fld := ⟨0x402000 + 0x8 * i, 8, 5, 31⟩

/-- FRN_SLICE_STATUS.DISABLED (RO; 09). -/
def frnSliceStatusDisabled (i : Nat) : Fld := ⟨0x402000 + 0x8 * i, 16, 16, 0⟩

/-- FRN_SLICE_STATUS.DIRTY (RO; 09). -/
def frnSliceStatusDirty (i : Nat) : Fld := ⟨0x402000 + 0x8 * i, 32, 16, 0⟩

/-- DRF_INFO.STREAMS (RO; 10). -/
def drfInfoStreams : Fld := ⟨0x600000, 0, 16, 32768⟩

/-- DRF_INFO.MOVERS (RO; 10). -/
def drfInfoMovers : Fld := ⟨0x600000, 16, 8, 48⟩

/-- DRF_INFO.INFLIGHT (RO; 10). -/
def drfInfoInflight : Fld := ⟨0x600000, 24, 8, 16⟩

/-- DRF_EVENT.STREAM_ERROR (RW1C; 10). -/
def drfEventStreamError : Fld := ⟨0x600010, 0, 1, 0⟩

/-- DRF_EVENT.DB_REJECT (RW1C; 10). -/
def drfEventDbReject : Fld := ⟨0x600010, 1, 1, 0⟩

/-- DRF_EVENT.DB_ERR (RW1C; 10). -/
def drfEventDbErr : Fld := ⟨0x600010, 2, 1, 0⟩

/-- DRF_EVENT.HOST_TIMEOUT (RW1C; 10). -/
def drfEventHostTimeout : Fld := ⟨0x600010, 3, 1, 0⟩

/-- DRF_EVENT_EN.STREAM_ERROR (RW; 10). -/
def drfEventEnStreamError : Fld := ⟨0x600014, 0, 1, 0⟩

/-- DRF_EVENT_EN.DB_REJECT (RW; 10). -/
def drfEventEnDbReject : Fld := ⟨0x600014, 1, 1, 0⟩

/-- DRF_EVENT_EN.DB_ERR (RW; 10). -/
def drfEventEnDbErr : Fld := ⟨0x600014, 2, 1, 0⟩

/-- DRF_EVENT_EN.HOST_TIMEOUT (RW; 10). -/
def drfEventEnHostTimeout : Fld := ⟨0x600014, 3, 1, 0⟩

/-- DRF_DB_REJECT.COUNT (RO; 10). -/
def drfDbRejectCount : Fld := ⟨0x600018, 0, 32, 0⟩

/-- DRF_PART_LIMIT.MAX (RW; 10). -/
def drfPartLimitMax (i : Nat) : Fld := ⟨0x600100 + 0x8 * i, 0, 16, 32768⟩

/-- DRF_PART_LIMIT.OPEN (RO; 10). -/
def drfPartLimitOpen (i : Nat) : Fld := ⟨0x600100 + 0x8 * i, 32, 16, 0⟩

/-- DRF_PERF_SEL.PORT (RW; 10). -/
def drfPerfSelPort : Fld := ⟨0x600200, 0, 5, 0⟩

/-- DRF_PERF_RD.COUNT (RO; 10). -/
def drfPerfRdCount (i : Nat) : Fld := ⟨0x600208 + 0x100000000 * i, 0, 64, 0⟩

/-- DRF_PERF_WR.COUNT (RO; 10). -/
def drfPerfWrCount (i : Nat) : Fld := ⟨0x600210 + 0x100000000 * i, 0, 64, 0⟩

/-- DRF_STREAM_STATUS.STATE (RO; 10). -/
def drfStreamStatusState (i : Nat) : Fld := ⟨0x640000 + 0x8 * i, 0, 3, 0⟩

/-- DRF_STREAM_STATUS.HOST_CHANNEL (RO; 10). -/
def drfStreamStatusHostChannel (i : Nat) : Fld := ⟨0x640000 + 0x8 * i, 3, 1, 0⟩

/-- DRF_STREAM_STATUS.PARTITION (RO; 10). -/
def drfStreamStatusPartition (i : Nat) : Fld := ⟨0x640000 + 0x8 * i, 4, 5, 31⟩

/-- DRF_STREAM_STATUS.DB_ERR (RW1C; 10). -/
def drfStreamStatusDbErr (i : Nat) : Fld := ⟨0x640000 + 0x8 * i, 9, 1, 0⟩

/-- DRF_STREAM_STATUS.LAST_STATUS (RO; 10). -/
def drfStreamStatusLastStatus (i : Nat) : Fld := ⟨0x640000 + 0x8 * i, 16, 8, 0⟩

/-- DRF_STREAM_STATUS.INFLIGHT (RO; 10). -/
def drfStreamStatusInflight (i : Nat) : Fld := ⟨0x640000 + 0x8 * i, 24, 8, 0⟩

/-- DRF_STREAM_STATUS.HEAD (RO; 10). -/
def drfStreamStatusHead (i : Nat) : Fld := ⟨0x640000 + 0x8 * i, 32, 32, 0⟩

/-- DRF_DB_TAIL.COUNT (WO; 10). -/
def drfDbTailCount (i : Nat) : Fld := ⟨0x680000 + 0x8 * i, 0, 32, 0⟩

/-- DRF_DB_CPLHEAD.COUNT (WO; 10). -/
def drfDbCplheadCount (i : Nat) : Fld := ⟨0x680004 + 0x8 * i, 0, 32, 0⟩

/-- DRF_STREAM_CTRL.PAUSE (W1S; 10). -/
def drfStreamCtrlPause (i : Nat) : Fld := ⟨0x6c0000 + 0x8 * i, 0, 1, 0⟩

/-- DRF_STREAM_CTRL.RESUME (W1S; 10). -/
def drfStreamCtrlResume (i : Nat) : Fld := ⟨0x6c0000 + 0x8 * i, 1, 1, 0⟩

/-- DRF_STREAM_CTRL.ABORT (W1S; 10). -/
def drfStreamCtrlAbort (i : Nat) : Fld := ⟨0x6c0000 + 0x8 * i, 2, 1, 0⟩

/-- XLT_INFO.ASIDS (RO; 11). -/
def xltInfoAsids : Fld := ⟨0x700000, 0, 13, 4096⟩

/-- XLT_INFO.WALKERS (RO; 11). -/
def xltInfoWalkers : Fld := ⟨0x700000, 16, 7, 64⟩

/-- XLT_INFO.STLBS (RO; 11). -/
def xltInfoStlbs : Fld := ⟨0x700000, 24, 3, 4⟩

/-- XLT_INFO.PARK_SLOTS (RO; 11). -/
def xltInfoParkSlots : Fld := ⟨0x700000, 32, 10, 512⟩

/-- XLT_EVENT.FAULT (RW1C; 11). -/
def xltEventFault : Fld := ⟨0x700010, 0, 1, 0⟩

/-- XLT_EVENT.OVERFLOW (RW1C; 11). -/
def xltEventOverflow : Fld := ⟨0x700010, 1, 1, 0⟩

/-- XLT_EVENT.PARK_FULL (RW1C; 11). -/
def xltEventParkFull : Fld := ⟨0x700010, 2, 1, 0⟩

/-- XLT_EVENT.ASID_REJECT (RW1C; 11). -/
def xltEventAsidReject : Fld := ⟨0x700010, 3, 1, 0⟩

/-- XLT_EVENT.AS_REFUSED (RW1C; 11). -/
def xltEventAsRefused : Fld := ⟨0x700010, 4, 1, 0⟩

/-- XLT_EVENT.TABLE_POISON (RW1C; 11). -/
def xltEventTablePoison : Fld := ⟨0x700010, 5, 1, 0⟩

/-- XLT_EVENT_EN.FAULT (RW; 11). -/
def xltEventEnFault : Fld := ⟨0x700014, 0, 1, 0⟩

/-- XLT_EVENT_EN.OVERFLOW (RW; 11). -/
def xltEventEnOverflow : Fld := ⟨0x700014, 1, 1, 0⟩

/-- XLT_EVENT_EN.PARK_FULL (RW; 11). -/
def xltEventEnParkFull : Fld := ⟨0x700014, 2, 1, 0⟩

/-- XLT_EVENT_EN.ASID_REJECT (RW; 11). -/
def xltEventEnAsidReject : Fld := ⟨0x700014, 3, 1, 0⟩

/-- XLT_EVENT_EN.AS_REFUSED (RW; 11). -/
def xltEventEnAsRefused : Fld := ⟨0x700014, 4, 1, 0⟩

/-- XLT_EVENT_EN.TABLE_POISON (RW; 11). -/
def xltEventEnTablePoison : Fld := ⟨0x700014, 5, 1, 0⟩

/-- XLT_PARK.PARKED_D0 (RO; 11). -/
def xltParkParkedD0 : Fld := ⟨0x700018, 0, 10, 0⟩

/-- XLT_PARK.PARKED_D1 (RO; 11). -/
def xltParkParkedD1 : Fld := ⟨0x700018, 16, 10, 0⟩

/-- XLT_PARK.HELD (RO; 11). -/
def xltParkHeld : Fld := ⟨0x700018, 32, 16, 0⟩

/-- XLT_PERF_SEL.DIE (RW; 11). -/
def xltPerfSelDie : Fld := ⟨0x700020, 0, 1, 0⟩

/-- XLT_PERF_WALKS.COUNT (RO; 11). -/
def xltPerfWalksCount (i : Nat) : Fld := ⟨0x700028 + 0x100000000 * i, 0, 64, 0⟩

/-- XLT_PERF_STLB_MISS.COUNT (RO; 11). -/
def xltPerfStlbMissCount (i : Nat) : Fld := ⟨0x700030 + 0x100000000 * i, 0, 64, 0⟩

/-- XLT_PERF_FAULTS.COUNT (RO; 11). -/
def xltPerfFaultsCount (i : Nat) : Fld := ⟨0x700038 + 0x100000000 * i, 0, 64, 0⟩

/-- XLT_FQ_BASE.HPA (RW; 11). -/
def xltFqBaseHpa (i : Nat) : Fld := ⟨0x700100 + 0x20 * i, 0, 48, 0⟩

/-- XLT_FQ_CTRL.ENABLE (RW; 11). -/
def xltFqCtrlEnable (i : Nat) : Fld := ⟨0x700108 + 0x20 * i, 0, 1, 0⟩

/-- XLT_FQ_CTRL.LOG2 (RW; 11). -/
def xltFqCtrlLog2 (i : Nat) : Fld := ⟨0x700108 + 0x20 * i, 1, 5, 6⟩

/-- XLT_FQ_PI.COUNT (RO; 11). -/
def xltFqPiCount (i : Nat) : Fld := ⟨0x700110 + 0x20 * i, 0, 32, 0⟩

/-- XLT_FQ_CI.COUNT (RW; 11). -/
def xltFqCiCount (i : Nat) : Fld := ⟨0x700114 + 0x20 * i, 0, 32, 0⟩

/-- XLT_FQ_STATUS.OVERFLOW (RO; 11). -/
def xltFqStatusOverflow (i : Nat) : Fld := ⟨0x700118 + 0x20 * i, 0, 1, 0⟩

/-- XLT_FQ_STATUS.OVF_SEEN (RW1C; 11). -/
def xltFqStatusOvfSeen (i : Nat) : Fld := ⟨0x700118 + 0x20 * i, 1, 1, 0⟩

/-- XLT_FQ_STATUS.PENDING (RO; 11). -/
def xltFqStatusPending (i : Nat) : Fld := ⟨0x700118 + 0x20 * i, 16, 10, 0⟩

/-- XLT_FQ_STATUS.OPEN (RO; 11). -/
def xltFqStatusOpen (i : Nat) : Fld := ⟨0x700118 + 0x20 * i, 32, 11, 0⟩

/-- XLT_GRANT.ASID0 (RW; 11). -/
def xltGrantAsid0 (i : Nat) : Fld := ⟨0x701000 + 0x8 * i, 0, 12, 0⟩

/-- XLT_GRANT.V0 (RW; 11). -/
def xltGrantV0 (i : Nat) : Fld := ⟨0x701000 + 0x8 * i, 12, 1, 0⟩

/-- XLT_GRANT.ASID1 (RW; 11). -/
def xltGrantAsid1 (i : Nat) : Fld := ⟨0x701000 + 0x8 * i, 16, 12, 0⟩

/-- XLT_GRANT.V1 (RW; 11). -/
def xltGrantV1 (i : Nat) : Fld := ⟨0x701000 + 0x8 * i, 28, 1, 0⟩

/-- XLT_GRANT.ASID2 (RW; 11). -/
def xltGrantAsid2 (i : Nat) : Fld := ⟨0x701000 + 0x8 * i, 32, 12, 0⟩

/-- XLT_GRANT.V2 (RW; 11). -/
def xltGrantV2 (i : Nat) : Fld := ⟨0x701000 + 0x8 * i, 44, 1, 0⟩

/-- XLT_GRANT.ASID3 (RW; 11). -/
def xltGrantAsid3 (i : Nat) : Fld := ⟨0x701000 + 0x8 * i, 48, 12, 0⟩

/-- XLT_GRANT.V3 (RW; 11). -/
def xltGrantV3 (i : Nat) : Fld := ⟨0x701000 + 0x8 * i, 60, 1, 0⟩

/-- XLT_AS.VALID (RW; 11). -/
def xltAsValid (i : Nat) : Fld := ⟨0x708000 + 0x8 * i, 0, 1, 0⟩

/-- XLT_AS.BUSY (RO; 11). -/
def xltAsBusy (i : Nat) : Fld := ⟨0x708000 + 0x8 * i, 1, 1, 0⟩

/-- XLT_AS.ROOT (RW; 11). -/
def xltAsRoot (i : Nat) : Fld := ⟨0x708000 + 0x8 * i, 12, 36, 0⟩

/-- XLT_AS.PARTITION (RW; 11). -/
def xltAsPartition (i : Nat) : Fld := ⟨0x708000 + 0x8 * i, 56, 5, (if i < 24 then i else 31)⟩

/-- SITE_INFO.SITES (RO; 12). -/
def siteInfoSites : Fld := ⟨0x800000, 0, 5, 0⟩

/-- SITE_INFO.MAX_MINOR (RO; 12). -/
def siteInfoMaxMinor : Fld := ⟨0x800000, 8, 8, 0⟩

/-- SITE_RIME_CFG.LANE_TH (RW; 12). -/
def siteRimeCfgLaneTh : Fld := ⟨0x800008, 0, 8, 4⟩

/-- SITE_RIME_CFG.WINDOW_S (RW; 12). -/
def siteRimeCfgWindowS : Fld := ⟨0x800008, 8, 16, 10⟩

/-- SITE_RIME_CFG.SWEEP_MS (RW; 12). -/
def siteRimeCfgSweepMs : Fld := ⟨0x800008, 24, 8, 10⟩

/-- SITE_EVENT.LANE (RW1C; 12). -/
def siteEventLane : Fld := ⟨0x800010, 0, 1, 0⟩

/-- SITE_EVENT.DEGRADED (RW1C; 12). -/
def siteEventDegraded : Fld := ⟨0x800010, 1, 1, 0⟩

/-- SITE_EVENT.RETIRED (RW1C; 12). -/
def siteEventRetired : Fld := ⟨0x800010, 2, 1, 0⟩

/-- SITE_EVENT.FENCED (RW1C; 12). -/
def siteEventFenced : Fld := ⟨0x800010, 3, 1, 0⟩

/-- SITE_EVENT.ENGINE_LOST (RW1C; 12). -/
def siteEventEngineLost : Fld := ⟨0x800010, 4, 1, 0⟩

/-- SITE_EVENT.CPL_ERR (RW1C; 12). -/
def siteEventCplErr : Fld := ⟨0x800010, 5, 1, 0⟩

/-- SITE_EVENT.DB_REJECT (RW1C; 12). -/
def siteEventDbReject : Fld := ⟨0x800010, 6, 1, 0⟩

/-- SITE_EVENT.RESOUND_REFUSED (RW1C; 12). -/
def siteEventResoundRefused : Fld := ⟨0x800010, 7, 1, 0⟩

/-- SITE_EVENT_EN.LANE (RW; 12). -/
def siteEventEnLane : Fld := ⟨0x800014, 0, 1, 0⟩

/-- SITE_EVENT_EN.DEGRADED (RW; 12). -/
def siteEventEnDegraded : Fld := ⟨0x800014, 1, 1, 0⟩

/-- SITE_EVENT_EN.RETIRED (RW; 12). -/
def siteEventEnRetired : Fld := ⟨0x800014, 2, 1, 0⟩

/-- SITE_EVENT_EN.FENCED (RW; 12). -/
def siteEventEnFenced : Fld := ⟨0x800014, 3, 1, 0⟩

/-- SITE_EVENT_EN.ENGINE_LOST (RW; 12). -/
def siteEventEnEngineLost : Fld := ⟨0x800014, 4, 1, 0⟩

/-- SITE_EVENT_EN.CPL_ERR (RW; 12). -/
def siteEventEnCplErr : Fld := ⟨0x800014, 5, 1, 0⟩

/-- SITE_EVENT_EN.DB_REJECT (RW; 12). -/
def siteEventEnDbReject : Fld := ⟨0x800014, 6, 1, 0⟩

/-- SITE_EVENT_EN.RESOUND_REFUSED (RW; 12). -/
def siteEventEnResoundRefused : Fld := ⟨0x800014, 7, 1, 0⟩

/-- SITE_STATUS.STATE (RO; 12). -/
def siteStatusState (i : Nat) : Fld := ⟨0x800100 + 0x8 * i, 0, 3, 0⟩

/-- SITE_STATUS.CAUSE (RO; 12). -/
def siteStatusCause (i : Nat) : Fld := ⟨0x800100 + 0x8 * i, 3, 4, 0⟩

/-- SITE_STATUS.MINOR (RO; 12). -/
def siteStatusMinor (i : Nat) : Fld := ⟨0x800100 + 0x8 * i, 8, 8, 0⟩

/-- SITE_STATUS.ENGINES (RO; 12). -/
def siteStatusEngines (i : Nat) : Fld := ⟨0x800100 + 0x8 * i, 16, 4, 0⟩

/-- SITE_STATUS.ACTIVE (RO; 12). -/
def siteStatusActive (i : Nat) : Fld := ⟨0x800100 + 0x8 * i, 20, 6, 0⟩

/-- SITE_STATUS.RAW_GBS (RO; 12). -/
def siteStatusRawGbs (i : Nat) : Fld := ⟨0x800100 + 0x8 * i, 32, 12, 0⟩

/-- SITE_CTRL.FENCE (W1S; 12). -/
def siteCtrlFence (i : Nat) : Fld := ⟨0x800180 + 0x8 * i, 0, 1, 0⟩

/-- SITE_CTRL.RESOUND (W1S; 12). -/
def siteCtrlResound (i : Nat) : Fld := ⟨0x800180 + 0x8 * i, 1, 1, 0⟩

/-- SITE_MODULE.STATE (RO; 12). -/
def siteModuleState (i j : Nat) : Fld := ⟨0x800200 + 0x40 * i + 0x8 * j, 0, 2, 3⟩

/-- SITE_MODULE.HALF (RO; 12). -/
def siteModuleHalf (i j : Nat) : Fld := ⟨0x800200 + 0x40 * i + 0x8 * j, 2, 1, 0⟩

/-- SITE_MODULE.HALF_OUT (RO; 12). -/
def siteModuleHalfOut (i j : Nat) : Fld := ⟨0x800200 + 0x40 * i + 0x8 * j, 3, 1, 0⟩

/-- SITE_MODULE.SPARES_IN (RO; 12). -/
def siteModuleSparesIn (i j : Nat) : Fld := ⟨0x800200 + 0x40 * i + 0x8 * j, 4, 3, 0⟩

/-- SITE_MODULE.SPARES_OUT (RO; 12). -/
def siteModuleSparesOut (i j : Nat) : Fld := ⟨0x800200 + 0x40 * i + 0x8 * j, 7, 3, 0⟩

/-- SITE_MODULE.STALLED (RO; 12). -/
def siteModuleStalled (i j : Nat) : Fld := ⟨0x800200 + 0x40 * i + 0x8 * j, 10, 1, 0⟩

/-- SITE_MODULE.PARITY (RO; 12). -/
def siteModuleParity (i j : Nat) : Fld := ⟨0x800200 + 0x40 * i + 0x8 * j, 32, 32, 0⟩

/-- SITE_POWER.GRANT (RO; 12). -/
def sitePowerGrant (i : Nat) : Fld := ⟨0x800600 + 0x8 * i, 0, 16, 0⟩

/-- SITE_POWER.REQUEST (RO; 12). -/
def sitePowerRequest (i : Nat) : Fld := ⟨0x800600 + 0x8 * i, 16, 16, 0⟩

/-- SITE_POWER.POWER (RO; 12). -/
def sitePowerPower (i : Nat) : Fld := ⟨0x800600 + 0x8 * i, 32, 16, 0⟩

/-- SITE_POWER.TEMP (RO; 12). -/
def sitePowerTemp (i : Nat) : Fld := ⟨0x800600 + 0x8 * i, 48, 8, 0⟩

/-- SITE_ENG_STATUS.STATE (RO; 12). -/
def siteEngStatusState (i : Nat) : Fld := ⟨0x801000 + 0x8 * i, 0, 3, 0⟩

/-- SITE_ENG_STATUS.PARTITION (RO; 12). -/
def siteEngStatusPartition (i : Nat) : Fld := ⟨0x801000 + 0x8 * i, 3, 5, 31⟩

/-- SITE_ENG_STATUS.OPEN (RO; 12). -/
def siteEngStatusOpen (i : Nat) : Fld := ⟨0x801000 + 0x8 * i, 8, 12, 0⟩

/-- SITE_ENG_STATUS.DB_WAIT (RO; 12). -/
def siteEngStatusDbWait (i : Nat) : Fld := ⟨0x801000 + 0x8 * i, 20, 5, 0⟩

/-- SITE_ENG_STATUS.DB_MERGED (RW1C; 12). -/
def siteEngStatusDbMerged (i : Nat) : Fld := ⟨0x801000 + 0x8 * i, 25, 1, 0⟩

/-- SITE_ENG_STATUS.CPL_ERR (RW1C; 12). -/
def siteEngStatusCplErr (i : Nat) : Fld := ⟨0x801000 + 0x8 * i, 26, 1, 0⟩

/-- SITE_ENG_STATUS.WRITES (RO; 12). -/
def siteEngStatusWrites (i : Nat) : Fld := ⟨0x801000 + 0x8 * i, 32, 32, 0⟩

/-- SITE_ENG_CTRL.PARTITION (RWF; 12). -/
def siteEngCtrlPartition (i : Nat) : Fld := ⟨0x801800 + 0x8 * i, 0, 5, 31⟩

/-- SITE_ENG_CTRL.VF (RWF; 12). -/
def siteEngCtrlVf (i : Nat) : Fld := ⟨0x801800 + 0x8 * i, 5, 6, 0⟩

/-- SITE_ENG_CTRL.IRQ_BASE (RWF; 12). -/
def siteEngCtrlIrqBase (i : Nat) : Fld := ⟨0x801800 + 0x8 * i, 11, 11, 0⟩

/-- SITE_ENG_DB.VALUE (WO; 12). -/
def siteEngDbValue (i : Nat) : Fld := ⟨0x802000 + 0x8 * i, 0, 64, 0⟩

/-- SITE_ENG_DESC.DESC (RO; 12). -/
def siteEngDescDesc (i : Nat) : Fld := ⟨0x804000 + 0x80 * i, 0, 1024, 0⟩

/-- QOS_INFO.ISLANDS (RO; 13). -/
def qosInfoIslands : Fld := ⟨0x900000, 0, 9, 272⟩

/-- QOS_INFO.PORTS (RO; 13). -/
def qosInfoPorts : Fld := ⟨0x900000, 16, 9, 298⟩

/-- QOS_INFO.CLASSES (RO; 13). -/
def qosInfoClasses : Fld := ⟨0x900000, 25, 4, 8⟩

/-- QOS_INFO.TARGETS (RO; 13). -/
def qosInfoTargets : Fld := ⟨0x900000, 32, 6, 48⟩

/-- QOS_EVENT.OVR (RW1C; 13). -/
def qosEventOvr : Fld := ⟨0x900010, 0, 1, 0⟩

/-- QOS_EVENT.SCALED (RW1C; 13). -/
def qosEventScaled : Fld := ⟨0x900010, 1, 1, 0⟩

/-- QOS_EVENT_EN.OVR (RW; 13). -/
def qosEventEnOvr : Fld := ⟨0x900014, 0, 1, 0⟩

/-- QOS_EVENT_EN.SCALED (RW; 13). -/
def qosEventEnScaled : Fld := ⟨0x900014, 1, 1, 0⟩

/-- QOS_CLASS.GUAR (RWF; 13). -/
def qosClassGuar (i : Nat) : Fld := ⟨0x900100 + 0x8 * i, 0, 8, 32⟩

/-- QOS_CLASS.WEIGHT (RWF; 13). -/
def qosClassWeight (i : Nat) : Fld := ⟨0x900100 + 0x8 * i, 8, 4, 1⟩

/-- QOS_PORT.CLASS (RWF; 13). -/
def qosPortClass (i : Nat) : Fld := ⟨0x902000 + 0x8 * i, 0, 3, portClassOf (i % 512)⟩

/-- QOS_PORT.REG_EN (RWF; 13). -/
def qosPortRegEn (i : Nat) : Fld := ⟨0x902000 + 0x8 * i, 3, 1, 0⟩

/-- QOS_PORT.RATE (RWF; 13). -/
def qosPortRate (i : Nat) : Fld := ⟨0x902000 + 0x8 * i, 16, 12, 1⟩

/-- QOS_PORT.BURST (RWF; 13). -/
def qosPortBurst (i : Nat) : Fld := ⟨0x902000 + 0x8 * i, 32, 12, 64⟩

/-- QOS_PORT.SCALE (RO; 13). -/
def qosPortScale (i : Nat) : Fld := ⟨0x902000 + 0x8 * i, 48, 9, 256⟩

/-- QOS_PORT_HELD.NS (RO; 13). -/
def qosPortHeldNs (i : Nat) : Fld := ⟨0x904000 + 0x8 * i, 0, 64, 0⟩

/-- QOS_OVR.ISLAND (RW1C; 13). -/
def qosOvrIsland (i j : Nat) : Fld := ⟨0x908000 + 0x40 * i + 0x8 * j, 0, 64, 0⟩

/-- QOS_ISLAND.STATE (RO; 13). -/
def qosIslandState (i j : Nat) : Fld := ⟨0x90a000 + 0x1000 * i + 0x8 * j, 0, 2, 0⟩

/-- QOS_ISLAND.MHZ (RO; 13). -/
def qosIslandMhz (i j : Nat) : Fld := ⟨0x90a000 + 0x1000 * i + 0x8 * j, 8, 12, 0⟩

/-- QOS_CNT.RD (RO; 13). -/
def qosCntRd (i j k : Nat) : Fld := ⟨0x910000 + 0x2000 * i + 0x300 * j + 0x10 * k, 0, 64, 0⟩

/-- QOS_CNT.WR (RO; 13). -/
def qosCntWr (i j k : Nat) : Fld := ⟨0x910000 + 0x2000 * i + 0x300 * j + 0x10 * k, 64, 64, 0⟩

/-- PRT_INFO.PARTITIONS (RO; 14). -/
def prtInfoPartitions : Fld := ⟨0xa00000, 0, 5, 24⟩

/-- PRT_EVENT.THAWED (RW1C; 14). -/
def prtEventThawed : Fld := ⟨0xa00010, 0, 1, 0⟩

/-- PRT_EVENT.FILLED (RW1C; 14). -/
def prtEventFilled : Fld := ⟨0xa00010, 1, 1, 0⟩

/-- PRT_EVENT.STOP_TIMEOUT (RW1C; 14). -/
def prtEventStopTimeout : Fld := ⟨0xa00010, 2, 1, 0⟩

/-- PRT_EVENT.REFUSED (RW1C; 14). -/
def prtEventRefused : Fld := ⟨0xa00010, 3, 1, 0⟩

/-- PRT_EVENT_EN.THAWED (RW; 14). -/
def prtEventEnThawed : Fld := ⟨0xa00014, 0, 1, 0⟩

/-- PRT_EVENT_EN.FILLED (RW; 14). -/
def prtEventEnFilled : Fld := ⟨0xa00014, 1, 1, 0⟩

/-- PRT_EVENT_EN.STOP_TIMEOUT (RW; 14). -/
def prtEventEnStopTimeout : Fld := ⟨0xa00014, 2, 1, 0⟩

/-- PRT_EVENT_EN.REFUSED (RW; 14). -/
def prtEventEnRefused : Fld := ⟨0xa00014, 3, 1, 0⟩

/-- PRT_STOP.STOP_MS (RW; 14). -/
def prtStopStopMs : Fld := ⟨0xa00018, 0, 16, 1000⟩

/-- PRT_CTRL.START (W1S; 14). -/
def prtCtrlStart (i : Nat) : Fld := ⟨0xa01000 + 0x100 * i, 0, 1, 0⟩

/-- PRT_CTRL.STOP (W1S; 14). -/
def prtCtrlStop (i : Nat) : Fld := ⟨0xa01000 + 0x100 * i, 1, 1, 0⟩

/-- PRT_CTRL.RESET (W1S; 14). -/
def prtCtrlReset (i : Nat) : Fld := ⟨0xa01000 + 0x100 * i, 2, 1, 0⟩

/-- PRT_CTRL.THAW (W1S; 14). -/
def prtCtrlThaw (i : Nat) : Fld := ⟨0xa01000 + 0x100 * i, 3, 1, 0⟩

/-- PRT_STATUS.STATE (RO; 14). -/
def prtStatusState (i : Nat) : Fld := ⟨0xa01008 + 0x100 * i, 0, 3, 0⟩

/-- PRT_STATUS.FILLING (RO; 14). -/
def prtStatusFilling (i : Nat) : Fld := ⟨0xa01008 + 0x100 * i, 3, 1, 0⟩

/-- PRT_STATUS.KEY_GEN (RO; 14). -/
def prtStatusKeyGen (i : Nat) : Fld := ⟨0xa01008 + 0x100 * i, 8, 16, 0⟩

/-- PRT_STATUS.THAW_DROP (RO; 14). -/
def prtStatusThawDrop (i : Nat) : Fld := ⟨0xa01008 + 0x100 * i, 32, 32, 0⟩

/-- PRT_CFG.EXIST (RWF; 14). -/
def prtCfgExist (i : Nat) : Fld := ⟨0xa01010 + 0x100 * i, 0, 1, 0⟩

/-- PRT_HALVES.MAP (RWF; 14). -/
def prtHalvesMap (i : Nat) : Fld := ⟨0xa01018 + 0x100 * i, 0, 48, 0⟩

/-- PRT_VFS.MAP (RWF; 14). -/
def prtVfsMap (i : Nat) : Fld := ⟨0xa01020 + 0x100 * i, 0, 48, 0⟩

/-- PRT_LINKS_LO.MAP (RWF; 14). -/
def prtLinksLoMap (i : Nat) : Fld := ⟨0xa01028 + 0x100 * i, 0, 64, 0⟩

/-- PRT_LINKS_HI.MAP (RWF; 14). -/
def prtLinksHiMap (i : Nat) : Fld := ⟨0xa01030 + 0x100 * i, 0, 32, 0⟩

/-- PRT_SLICES.MAP (RWF; 14). -/
def prtSlicesMap (i j : Nat) : Fld := ⟨0xa01038 + 0x100 * i + 0x8 * j, 0, 64, 0⟩

/-- PRT_FLOES.MAP (RWF; 14). -/
def prtFloesMap (i j : Nat) : Fld := ⟨0xa01050 + 0x100 * i + 0x8 * j, 0, (if j % 4 = 3 then 4 else 64), 0⟩

/-- PRT_FILL.GRANULES (RO; 14). -/
def prtFillGranules (i : Nat) : Fld := ⟨0xa01090 + 0x100 * i, 0, 32, 0⟩

/-- GLB_ALIVE.VALUE (RO; 15). -/
def glbAliveValue : Fld := ⟨0x58, 0, 32, 3915405914⟩

/-- Q_INFO.QUEUES (RO; 15). -/
def qInfoQueues : Fld := ⟨0x1000000, 0, 8, 64⟩

/-- Q_SQ_BASE.ADDR (RW; 15). -/
def qSqBaseAddr (fn i : Nat) : Fld := ⟨0x1001000 + 0x40 * i + 0x100000000 * fn, 12, 52, 0⟩

/-- Q_CQ_BASE.ADDR (RW; 15). -/
def qCqBaseAddr (fn i : Nat) : Fld := ⟨0x1001008 + 0x40 * i + 0x100000000 * fn, 12, 52, 0⟩

/-- Q_CTRL.ENABLE (RW; 15). -/
def qCtrlEnable (fn i : Nat) : Fld := ⟨0x1001010 + 0x40 * i + 0x100000000 * fn, 0, 1, 0⟩

/-- Q_CTRL.SQ_LOG2 (RW; 15). -/
def qCtrlSqLog2 (fn i : Nat) : Fld := ⟨0x1001010 + 0x40 * i + 0x100000000 * fn, 1, 5, 6⟩

/-- Q_CTRL.CQ_LOG2 (RW; 15). -/
def qCtrlCqLog2 (fn i : Nat) : Fld := ⟨0x1001010 + 0x40 * i + 0x100000000 * fn, 6, 5, 6⟩

/-- Q_CTRL.IRQ_EN (RW; 15). -/
def qCtrlIrqEn (fn i : Nat) : Fld := ⟨0x1001010 + 0x40 * i + 0x100000000 * fn, 11, 1, 0⟩

/-- Q_CTRL.VECTOR (RW; 15). -/
def qCtrlVector (fn i : Nat) : Fld := ⟨0x1001010 + 0x40 * i + 0x100000000 * fn, 16, 11, 0⟩

/-- Q_STATUS.STATE (RO; 15). -/
def qStatusState (fn i : Nat) : Fld := ⟨0x1001018 + 0x40 * i + 0x100000000 * fn, 0, 2, 0⟩

/-- Q_STATUS.DB_ERR (RW1C; 15). -/
def qStatusDbErr (fn i : Nat) : Fld := ⟨0x1001018 + 0x40 * i + 0x100000000 * fn, 2, 1, 0⟩

/-- Q_STATUS.HELD (RO; 15). -/
def qStatusHeld (fn i : Nat) : Fld := ⟨0x1001018 + 0x40 * i + 0x100000000 * fn, 3, 1, 0⟩

/-- Q_STATUS.ERR (RO; 15). -/
def qStatusErr (fn i : Nat) : Fld := ⟨0x1001018 + 0x40 * i + 0x100000000 * fn, 8, 8, 0⟩

/-- Q_STATUS.SQ_HEAD (RO; 15). -/
def qStatusSqHead (fn i : Nat) : Fld := ⟨0x1001018 + 0x40 * i + 0x100000000 * fn, 32, 32, 0⟩

/-- Q_SQ_TAIL.COUNT (WO; 15). -/
def qSqTailCount (fn i : Nat) : Fld := ⟨0x1001020 + 0x40 * i + 0x100000000 * fn, 0, 32, 0⟩

/-- Q_CQ_HEAD.COUNT (WO; 15). -/
def qCqHeadCount (fn i : Nat) : Fld := ⟨0x1001024 + 0x40 * i + 0x100000000 * fn, 0, 32, 0⟩

/-- HST_INFO.BAR2_LOG2 (RO; 15). -/
def hstInfoBar2Log2 : Fld := ⟨0x1200000, 0, 6, 36⟩

/-- HST_INFO.WINDOWS (RO; 15). -/
def hstInfoWindows : Fld := ⟨0x1200000, 16, 15, 1024⟩

/-- HST_EVENT.ATT_ERR (RW1C; 15). -/
def hstEventAttErr : Fld := ⟨0x1200010, 0, 1, 0⟩

/-- HST_EVENT.CTO (RW1C; 15). -/
def hstEventCto : Fld := ⟨0x1200010, 1, 1, 0⟩

/-- HST_EVENT.POISON_RX (RW1C; 15). -/
def hstEventPoisonRx : Fld := ⟨0x1200010, 2, 1, 0⟩

/-- HST_EVENT.QUEUE_ERR (RW1C; 15). -/
def hstEventQueueErr : Fld := ⟨0x1200010, 3, 1, 0⟩

/-- HST_EVENT.ALIGN (RW1C; 15). -/
def hstEventAlign : Fld := ⟨0x1200010, 4, 1, 0⟩

/-- HST_EVENT_EN.ATT_ERR (RW; 15). -/
def hstEventEnAttErr : Fld := ⟨0x1200014, 0, 1, 0⟩

/-- HST_EVENT_EN.CTO (RW; 15). -/
def hstEventEnCto : Fld := ⟨0x1200014, 1, 1, 0⟩

/-- HST_EVENT_EN.POISON_RX (RW; 15). -/
def hstEventEnPoisonRx : Fld := ⟨0x1200014, 2, 1, 0⟩

/-- HST_EVENT_EN.QUEUE_ERR (RW; 15). -/
def hstEventEnQueueErr : Fld := ⟨0x1200014, 3, 1, 0⟩

/-- HST_EVENT_EN.ALIGN (RW; 15). -/
def hstEventEnAlign : Fld := ⟨0x1200014, 4, 1, 0⟩

/-- HST_ATT_ERR.OFFSET (RO; 15). -/
def hstAttErrOffset : Fld := ⟨0x1200018, 0, 40, 0⟩

/-- HST_ATT_ERR.CAUSE (RW1C; 15). -/
def hstAttErrCause : Fld := ⟨0x1200018, 40, 3, 0⟩

/-- HST_CTO_COUNT.COUNT (RO; 15). -/
def hstCtoCountCount : Fld := ⟨0x1200020, 0, 32, 0⟩

/-- HST_ATT.V (RW; 15). -/
def hstAttV (i : Nat) : Fld := ⟨0x1210000 + 0x8 * i, 0, 1, 0⟩

/-- HST_ATT.WE (RW; 15). -/
def hstAttWe (i : Nat) : Fld := ⟨0x1210000 + 0x8 * i, 1, 1, 0⟩

/-- HST_ATT.ALLOC (RW; 15). -/
def hstAttAlloc (i : Nat) : Fld := ⟨0x1210000 + 0x8 * i, 2, 1, 0⟩

/-- HST_ATT.KEY_PARTITION (RW; 15). -/
def hstAttKeyPartition (i : Nat) : Fld := ⟨0x1210000 + 0x8 * i, 8, 5, 31⟩

/-- HST_ATT.HPA (RW; 15). -/
def hstAttHpa (i : Nat) : Fld := ⟨0x1210000 + 0x8 * i, 26, 22, 0⟩

/-- LNK_INFO.LINKS (RO; 16). -/
def lnkInfoLinks : Fld := ⟨0xb00000, 0, 7, 0⟩

/-- LNK_INFO.PATHS (RO; 16). -/
def lnkInfoPaths : Fld := ⟨0xb00000, 16, 11, 1024⟩

/-- LNK_EVENT.LINK_DOWN (RW1C; 16). -/
def lnkEventLinkDown : Fld := ⟨0xb00010, 0, 1, 0⟩

/-- LNK_EVENT.LINK_UP (RW1C; 16). -/
def lnkEventLinkUp : Fld := ⟨0xb00010, 1, 1, 0⟩

/-- LNK_EVENT.MACSEC_FAIL (RW1C; 16). -/
def lnkEventMacsecFail : Fld := ⟨0xb00010, 2, 1, 0⟩

/-- LNK_EVENT.SAK_NEEDED (RW1C; 16). -/
def lnkEventSakNeeded : Fld := ⟨0xb00010, 3, 1, 0⟩

/-- LNK_EVENT.PATH_FAILED (RW1C; 16). -/
def lnkEventPathFailed : Fld := ⟨0xb00010, 4, 1, 0⟩

/-- LNK_EVENT.WIN_DRAINED (RW1C; 16). -/
def lnkEventWinDrained : Fld := ⟨0xb00010, 5, 1, 0⟩

/-- LNK_EVENT.WIN_ERR (RW1C; 16). -/
def lnkEventWinErr : Fld := ⟨0xb00010, 6, 1, 0⟩

/-- LNK_EVENT.REMOTE_ERR (RW1C; 16). -/
def lnkEventRemoteErr : Fld := ⟨0xb00010, 7, 1, 0⟩

/-- LNK_EVENT_EN.LINK_DOWN (RW; 16). -/
def lnkEventEnLinkDown : Fld := ⟨0xb00014, 0, 1, 0⟩

/-- LNK_EVENT_EN.LINK_UP (RW; 16). -/
def lnkEventEnLinkUp : Fld := ⟨0xb00014, 1, 1, 0⟩

/-- LNK_EVENT_EN.MACSEC_FAIL (RW; 16). -/
def lnkEventEnMacsecFail : Fld := ⟨0xb00014, 2, 1, 0⟩

/-- LNK_EVENT_EN.SAK_NEEDED (RW; 16). -/
def lnkEventEnSakNeeded : Fld := ⟨0xb00014, 3, 1, 0⟩

/-- LNK_EVENT_EN.PATH_FAILED (RW; 16). -/
def lnkEventEnPathFailed : Fld := ⟨0xb00014, 4, 1, 0⟩

/-- LNK_EVENT_EN.WIN_DRAINED (RW; 16). -/
def lnkEventEnWinDrained : Fld := ⟨0xb00014, 5, 1, 0⟩

/-- LNK_EVENT_EN.WIN_ERR (RW; 16). -/
def lnkEventEnWinErr : Fld := ⟨0xb00014, 6, 1, 0⟩

/-- LNK_EVENT_EN.REMOTE_ERR (RW; 16). -/
def lnkEventEnRemoteErr : Fld := ⟨0xb00014, 7, 1, 0⟩

/-- LNK_CFG.UDP_PORT (RWF; 16). -/
def lnkCfgUdpPort : Fld := ⟨0xb00020, 0, 16, 59744⟩

/-- LNK_CFG.RTO_US (RWF; 16). -/
def lnkCfgRtoUs : Fld := ⟨0xb00020, 16, 12, 100⟩

/-- LNK_CFG.RETRIES (RWF; 16). -/
def lnkCfgRetries : Fld := ⟨0xb00020, 28, 4, 7⟩

/-- LNK_CFG.DATA_PCP (RWF; 16). -/
def lnkCfgDataPcp : Fld := ⟨0xb00020, 32, 3, 3⟩

/-- LNK_CFG.CTRL_PCP (RWF; 16). -/
def lnkCfgCtrlPcp : Fld := ⟨0xb00020, 35, 3, 6⟩

/-- LNK_CFG.PAUSE_LIMIT_MS (RWF; 16). -/
def lnkCfgPauseLimitMs : Fld := ⟨0xb00020, 48, 16, 100⟩

/-- WIN_ERR.HPA (RO; 16). -/
def winErrHpa : Fld := ⟨0xb00030, 0, 48, 0⟩

/-- WIN_ERR.STATUS (RO; 16). -/
def winErrStatus : Fld := ⟨0xb00030, 48, 8, 0⟩

/-- WIN_ERR.PARTITION (RO; 16). -/
def winErrPartition : Fld := ⟨0xb00030, 56, 5, 0⟩

/-- WIN_ERR.VALID (RW1C; 16). -/
def winErrValid : Fld := ⟨0xb00030, 63, 1, 0⟩

/-- LNK_STATUS.STATE (RO; 16). -/
def lnkStatusState (i : Nat) : Fld := ⟨0xb01000 + 0x8 * i, 0, 2, 0⟩

/-- LNK_STATUS.MACSEC_READY (RO; 16). -/
def lnkStatusMacsecReady (i : Nat) : Fld := ⟨0xb01000 + 0x8 * i, 2, 1, 0⟩

/-- LNK_STATUS.PAUSED (RO; 16). -/
def lnkStatusPaused (i : Nat) : Fld := ⟨0xb01000 + 0x8 * i, 3, 1, 0⟩

/-- LNK_STATUS.PATHS (RO; 16). -/
def lnkStatusPaths (i : Nat) : Fld := ⟨0xb01000 + 0x8 * i, 4, 11, 0⟩

/-- LNK_STATUS.PARTITION (RO; 16). -/
def lnkStatusPartition (i : Nat) : Fld := ⟨0xb01000 + 0x8 * i, 16, 5, 31⟩

/-- LNK_STATUS.DOWNS (RO; 16). -/
def lnkStatusDowns (i : Nat) : Fld := ⟨0xb01000 + 0x8 * i, 32, 32, 0⟩

/-- LNK_PORT.MAC (RWF; 16). -/
def lnkPortMac (i : Nat) : Fld := ⟨0xb02000 + 0x40 * i, 0, 48, 0⟩

/-- LNK_PORT.VID (RWF; 16). -/
def lnkPortVid (i : Nat) : Fld := ⟨0xb02000 + 0x40 * i, 48, 12, 0⟩

/-- LNK_PORT.VLAN_EN (RWF; 16). -/
def lnkPortVlanEn (i : Nat) : Fld := ⟨0xb02000 + 0x40 * i, 60, 1, 0⟩

/-- LNK_PORT.GATEWAY_MAC (RWF; 16). -/
def lnkPortGatewayMac (i : Nat) : Fld := ⟨0xb02000 + 0x40 * i, 64, 48, 0⟩

/-- LNK_PORT.IP (RWF; 16). -/
def lnkPortIp (i : Nat) : Fld := ⟨0xb02000 + 0x40 * i, 128, 128, 0⟩

/-- LNK_PORT.IPV4 (RWF; 16). -/
def lnkPortIpv4 (i : Nat) : Fld := ⟨0xb02000 + 0x40 * i, 256, 1, 0⟩

/-- LNK_PORT.DSCP (RWF; 16). -/
def lnkPortDscp (i : Nat) : Fld := ⟨0xb02000 + 0x40 * i, 257, 6, 0⟩

/-- LNK_CNT.lnkCntTxFrames (RO; 16). -/
def lnkCntTxFrames (i : Nat) : Fld := ⟨0xb04000 + 0x40 * i, 0, 64, 0⟩

/-- LNK_CNT.lnkCntRxFrames (RO; 16). -/
def lnkCntRxFrames (i : Nat) : Fld := ⟨0xb04000 + 0x40 * i, 64, 64, 0⟩

/-- LNK_CNT.lnkCntRxDrop (RO; 16). -/
def lnkCntRxDrop (i : Nat) : Fld := ⟨0xb04000 + 0x40 * i, 128, 64, 0⟩

/-- LNK_CNT.lnkCntMacsecFail (RO; 16). -/
def lnkCntMacsecFail (i : Nat) : Fld := ⟨0xb04000 + 0x40 * i, 192, 64, 0⟩

/-- LNK_CNT.lnkCntRetx (RO; 16). -/
def lnkCntRetx (i : Nat) : Fld := ⟨0xb04000 + 0x40 * i, 256, 64, 0⟩

/-- LNK_CNT.lnkCntCnpRx (RO; 16). -/
def lnkCntCnpRx (i : Nat) : Fld := ⟨0xb04000 + 0x40 * i, 320, 64, 0⟩

/-- LNK_CNT.lnkCntCeRx (RO; 16). -/
def lnkCntCeRx (i : Nat) : Fld := ⟨0xb04000 + 0x40 * i, 384, 64, 0⟩

/-- LNK_CNT.lnkCntPauseNs (RO; 16). -/
def lnkCntPauseNs (i : Nat) : Fld := ⟨0xb04000 + 0x40 * i, 448, 64, 0⟩

/-- LNK_PEER.IP (RW; 16). -/
def lnkPeerIp (i : Nat) : Fld := ⟨0xb10000 + 0x20 * i, 0, 128, 0⟩

/-- LNK_PEER.IPV4 (RW; 16). -/
def lnkPeerIpv4 (i : Nat) : Fld := ⟨0xb10000 + 0x20 * i, 128, 1, 0⟩

/-- LNK_PEER.V (RW; 16). -/
def lnkPeerV (i : Nat) : Fld := ⟨0xb10000 + 0x20 * i, 129, 1, 0⟩

/-- LNK_PEER.PARTITION (RW; 16). -/
def lnkPeerPartition (i : Nat) : Fld := ⟨0xb10000 + 0x20 * i, 130, 5, 31⟩

/-- WIN_WTT.STATE (RO; 16). -/
def winWttState (i j : Nat) : Fld := ⟨0xb40000 + 0x20000 * i + 0x20 * j, 0, 2, 0⟩

/-- WIN_WTT.OPEN (W1S; 16). -/
def winWttOpen (i j : Nat) : Fld := ⟨0xb40000 + 0x20000 * i + 0x20 * j, 2, 1, 0⟩

/-- WIN_WTT.CLOSE (W1S; 16). -/
def winWttClose (i j : Nat) : Fld := ⟨0xb40000 + 0x20000 * i + 0x20 * j, 3, 1, 0⟩

/-- WIN_WTT.FREE (W1S; 16). -/
def winWttFree (i j : Nat) : Fld := ⟨0xb40000 + 0x20000 * i + 0x20 * j, 4, 1, 0⟩

/-- WIN_WTT.R, W, A (RW; 16). -/
def winWttRights (i j : Nat) : Fld := ⟨0xb40000 + 0x20000 * i + 0x20 * j, 5, 3, 0⟩

/-- WIN_WTT.PARTITION (RW; 16). -/
def winWttPartition (i j : Nat) : Fld := ⟨0xb40000 + 0x20000 * i + 0x20 * j, 8, 5, 31⟩

/-- WIN_WTT.ALLOC (RW; 16). -/
def winWttAlloc (i j : Nat) : Fld := ⟨0xb40000 + 0x20000 * i + 0x20 * j, 13, 1, 0⟩

/-- WIN_WTT.WR_ERR (RW1C; 16). -/
def winWttWrErr (i j : Nat) : Fld := ⟨0xb40000 + 0x20000 * i + 0x20 * j, 14, 1, 0⟩

/-- WIN_WTT.OPEN_ERR (RW1C; 16). -/
def winWttOpenErr (i j : Nat) : Fld := ⟨0xb40000 + 0x20000 * i + 0x20 * j, 15, 1, 0⟩

/-- WIN_WTT.GEN (RO; 16). -/
def winWttGen (i j : Nat) : Fld := ⟨0xb40000 + 0x20000 * i + 0x20 * j, 16, 8, 0⟩

/-- WIN_WTT.SIZE_LOG2 (RW; 16). -/
def winWttSizeLog2 (i j : Nat) : Fld := ⟨0xb40000 + 0x20000 * i + 0x20 * j, 24, 6, 16⟩

/-- WIN_WTT.WKEY (RW; 16). -/
def winWttWkey (i j : Nat) : Fld := ⟨0xb40000 + 0x20000 * i + 0x20 * j, 32, 32, 0⟩

/-- WIN_WTT.BASE (RW; 16). -/
def winWttBase (i j : Nat) : Fld := ⟨0xb40000 + 0x20000 * i + 0x20 * j, 64, 48, 0⟩

/-- WIN_WTT.DRAIN (RO; 16). -/
def winWttDrain (i j : Nat) : Fld := ⟨0xb40000 + 0x20000 * i + 0x20 * j, 128, 32, 0⟩

/-- WIN_IMPORT.V (RW; 16). -/
def winImportV (i : Nat) : Fld := ⟨0xb80000 + 0x20 * i, 0, 1, 0⟩

/-- WIN_IMPORT.R, W, A (RW; 16). -/
def winImportRights (i : Nat) : Fld := ⟨0xb80000 + 0x20 * i, 1, 3, 0⟩

/-- WIN_IMPORT.PARTITION (RW; 16). -/
def winImportPartition (i : Nat) : Fld := ⟨0xb80000 + 0x20 * i, 4, 5, 31⟩

/-- WIN_IMPORT.PEER (RW; 16). -/
def winImportPeer (i : Nat) : Fld := ⟨0xb80000 + 0x20 * i, 16, 12, 0⟩

/-- WIN_IMPORT.WINDOW (RW; 16). -/
def winImportWindow (i : Nat) : Fld := ⟨0xb80000 + 0x20 * i, 32, 12, 0⟩

/-- WIN_IMPORT.GEN (RW; 16). -/
def winImportGen (i : Nat) : Fld := ⟨0xb80000 + 0x20 * i, 48, 8, 0⟩

/-- WIN_IMPORT.SIZE_LOG2 (RW; 16). -/
def winImportSizeLog2 (i : Nat) : Fld := ⟨0xb80000 + 0x20 * i, 56, 6, 16⟩

/-- WIN_IMPORT.WKEY (RW; 16). -/
def winImportWkey (i : Nat) : Fld := ⟨0xb80000 + 0x20 * i, 64, 32, 0⟩

/-- COL_INFO.GROUPS (RO; 17). -/
def colInfoGroups : Fld := ⟨0xc00000, 0, 7, 64⟩

/-- COL_INFO.MAX_MEMBERS (RO; 17). -/
def colInfoMaxMembers : Fld := ⟨0xc00000, 16, 13, 4096⟩

/-- COL_EVENT.ABORTED (RW1C; 17). -/
def colEventAborted : Fld := ⟨0xc00010, 0, 1, 0⟩

/-- COL_EVENT.SQUALL_SENT (RW1C; 17). -/
def colEventSquallSent : Fld := ⟨0xc00010, 1, 1, 0⟩

/-- COL_EVENT.SQUALL_RX (RW1C; 17). -/
def colEventSquallRx : Fld := ⟨0xc00010, 2, 1, 0⟩

/-- COL_EVENT.MISMATCH (RW1C; 17). -/
def colEventMismatch : Fld := ⟨0xc00010, 3, 1, 0⟩

/-- COL_EVENT_EN.ABORTED (RW; 17). -/
def colEventEnAborted : Fld := ⟨0xc00014, 0, 1, 0⟩

/-- COL_EVENT_EN.SQUALL_SENT (RW; 17). -/
def colEventEnSquallSent : Fld := ⟨0xc00014, 1, 1, 0⟩

/-- COL_EVENT_EN.SQUALL_RX (RW; 17). -/
def colEventEnSquallRx : Fld := ⟨0xc00014, 2, 1, 0⟩

/-- COL_EVENT_EN.MISMATCH (RW; 17). -/
def colEventEnMismatch : Fld := ⟨0xc00014, 3, 1, 0⟩

/-- COL_GROUP_STATUS.STATE (RO; 17). -/
def colGroupStatusState (i : Nat) : Fld := ⟨0xc01000 + 0x20 * i, 0, 2, 0⟩

/-- COL_GROUP_STATUS.PARTITION (RO; 17). -/
def colGroupStatusPartition (i : Nat) : Fld := ⟨0xc01000 + 0x20 * i, 2, 5, 31⟩

/-- COL_GROUP_STATUS.RANK (RO; 17). -/
def colGroupStatusRank (i : Nat) : Fld := ⟨0xc01000 + 0x20 * i, 8, 12, 0⟩

/-- COL_GROUP_STATUS.MEMBERS (RO; 17). -/
def colGroupStatusMembers (i : Nat) : Fld := ⟨0xc01000 + 0x20 * i, 32, 13, 0⟩

/-- COL_GROUP_STATUS.SLOTS (RO; 17). -/
def colGroupStatusSlots (i : Nat) : Fld := ⟨0xc01000 + 0x20 * i, 48, 16, 0⟩

/-- COL_GROUP_STATUS.SEQ (RO; 17). -/
def colGroupStatusSeq (i : Nat) : Fld := ⟨0xc01000 + 0x20 * i, 64, 32, 0⟩

/-- COL_GROUP_STATUS.LAST_STATUS (RO; 17). -/
def colGroupStatusLastStatus (i : Nat) : Fld := ⟨0xc01000 + 0x20 * i, 96, 8, 0⟩

/-- COL_GROUP_STATUS.LAST_ORIGIN (RO; 17). -/
def colGroupStatusLastOrigin (i : Nat) : Fld := ⟨0xc01000 + 0x20 * i, 104, 12, 0⟩

/-- COL_GROUP_STATUS.EXT_USED_US (RO; 17). -/
def colGroupStatusExtUsedUs (i : Nat) : Fld := ⟨0xc01000 + 0x20 * i, 128, 32, 0⟩

/-- COL_GROUP_STATUS.SQUALLS_RX (RO; 17). -/
def colGroupStatusSquallsRx (i : Nat) : Fld := ⟨0xc01000 + 0x20 * i, 160, 32, 0⟩

/-- ISO_EVENT.BRAKE (RW1C; 18). -/
def isoEventBrake : Fld := ⟨0xd00010, 0, 1, 0⟩

/-- ISO_EVENT.THROTTLE (RW1C; 18). -/
def isoEventThrottle : Fld := ⟨0xd00010, 1, 1, 0⟩

/-- ISO_EVENT.CRITICAL (RW1C; 18). -/
def isoEventCritical : Fld := ⟨0xd00010, 2, 1, 0⟩

/-- ISO_EVENT.COOLANT (RW1C; 18). -/
def isoEventCoolant : Fld := ⟨0xd00010, 3, 1, 0⟩

/-- ISO_EVENT.HB_LOST (RW1C; 18). -/
def isoEventHbLost : Fld := ⟨0xd00010, 4, 1, 0⟩

/-- ISO_EVENT.UNDER_MIN (RW1C; 18). -/
def isoEventUnderMin : Fld := ⟨0xd00010, 5, 1, 0⟩

/-- ISO_EVENT.RAIL_FAIL (RW1C; 18). -/
def isoEventRailFail : Fld := ⟨0xd00010, 6, 1, 0⟩

/-- ISO_EVENT.PUMP_FAIL (RW1C; 18). -/
def isoEventPumpFail : Fld := ⟨0xd00010, 7, 1, 0⟩

/-- ISO_EVENT_EN.BRAKE (RW; 18). -/
def isoEventEnBrake : Fld := ⟨0xd00014, 0, 1, 0⟩

/-- ISO_EVENT_EN.THROTTLE (RW; 18). -/
def isoEventEnThrottle : Fld := ⟨0xd00014, 1, 1, 0⟩

/-- ISO_EVENT_EN.CRITICAL (RW; 18). -/
def isoEventEnCritical : Fld := ⟨0xd00014, 2, 1, 0⟩

/-- ISO_EVENT_EN.COOLANT (RW; 18). -/
def isoEventEnCoolant : Fld := ⟨0xd00014, 3, 1, 0⟩

/-- ISO_EVENT_EN.HB_LOST (RW; 18). -/
def isoEventEnHbLost : Fld := ⟨0xd00014, 4, 1, 0⟩

/-- ISO_EVENT_EN.UNDER_MIN (RW; 18). -/
def isoEventEnUnderMin : Fld := ⟨0xd00014, 5, 1, 0⟩

/-- ISO_EVENT_EN.RAIL_FAIL (RW; 18). -/
def isoEventEnRailFail : Fld := ⟨0xd00014, 6, 1, 0⟩

/-- ISO_EVENT_EN.PUMP_FAIL (RW; 18). -/
def isoEventEnPumpFail : Fld := ⟨0xd00014, 7, 1, 0⟩

/-- ISO_STATUS.BRAKE_PIN (RO; 18). -/
def isoStatusBrakePin : Fld := ⟨0xd00018, 0, 1, 0⟩

/-- ISO_STATUS.BRAKE_SW (RO; 18). -/
def isoStatusBrakeSw : Fld := ⟨0xd00018, 1, 1, 0⟩

/-- ISO_STATUS.COOLANT (RO; 18). -/
def isoStatusCoolant : Fld := ⟨0xd00018, 2, 1, 0⟩

/-- ISO_STATUS.HB_LOST (RO; 18). -/
def isoStatusHbLost : Fld := ⟨0xd00018, 3, 1, 0⟩

/-- ISO_STATUS.UNDER_MIN (RO; 18). -/
def isoStatusUnderMin : Fld := ⟨0xd00018, 4, 1, 0⟩

/-- ISO_STATUS.RAIL_FAIL (RO; 18). -/
def isoStatusRailFail : Fld := ⟨0xd00018, 5, 1, 0⟩

/-- ISO_STATUS.CHIPLET_ALARM (RO; 18). -/
def isoStatusChipletAlarm : Fld := ⟨0xd00018, 6, 1, 0⟩

/-- ISO_STATUS.CRITICAL (RO; 18). -/
def isoStatusCritical : Fld := ⟨0xd00018, 7, 1, 0⟩

/-- ISO_ALERT_EN.EN (RW; 18). -/
def isoAlertEnEn : Fld := ⟨0xd0001c, 0, 8, 255⟩

/-- ISO_BUDGET.IN_FORCE_W (RO; 18). -/
def isoBudgetInForceW : Fld := ⟨0xd00020, 0, 12, 0⟩

/-- ISO_BUDGET.SOURCE (RO; 18). -/
def isoBudgetSource : Fld := ⟨0xd00020, 12, 4, 0⟩

/-- ISO_BUDGET.MIN_W (RO; 18). -/
def isoBudgetMinW : Fld := ⟨0xd00020, 16, 12, 0⟩

/-- ISO_BUDGET.CAN_LIMIT_W (RO; 18). -/
def isoBudgetCanLimitW : Fld := ⟨0xd00020, 32, 12, 0⟩

/-- ISO_THERM_CFG.THROTTLE_C (RW; 18). -/
def isoThermCfgThrottleC : Fld := ⟨0xd00030, 0, 8, 100⟩

/-- ISO_THERM_CFG.CRIT_C (RW; 18). -/
def isoThermCfgCritC : Fld := ⟨0xd00030, 8, 8, 110⟩

/-- ISO_PUMP_CFG.MIN_DUTY (RW; 18). -/
def isoPumpCfgMinDuty : Fld := ⟨0xd00038, 0, 7, 30⟩

/-- ISO_PUMP_CFG.T_LOW (RW; 18). -/
def isoPumpCfgTLow : Fld := ⟨0xd00038, 8, 8, 60⟩

/-- ISO_PUMP_CFG.T_HIGH (RW; 18). -/
def isoPumpCfgTHigh : Fld := ⟨0xd00038, 16, 8, 95⟩

/-- ISO_PUMP_CFG.TACH_MIN (RW; 18). -/
def isoPumpCfgTachMin : Fld := ⟨0xd00038, 24, 8, 30⟩

/-- ISO_PUMP_CFG.PPR (RW; 18). -/
def isoPumpCfgPpr : Fld := ⟨0xd00038, 32, 2, 1⟩

/-- ISO_PUMP.DUTY (RO; 18). -/
def isoPumpDuty (i : Nat) : Fld := ⟨0xd00040 + 0x8 * i, 0, 7, 100⟩

/-- ISO_PUMP.FAIL (RW1C; 18). -/
def isoPumpFail (i : Nat) : Fld := ⟨0xd00040 + 0x8 * i, 7, 1, 0⟩

/-- ISO_PUMP.RPM (RO; 18). -/
def isoPumpRpm (i : Nat) : Fld := ⟨0xd00040 + 0x8 * i, 32, 16, 0⟩

/-- ISO_BRAKE_SW.REQ (RW; 18). -/
def isoBrakeSwReq : Fld := ⟨0xd00050, 0, 1, 0⟩

/-- ISO_TRIP.VALID (RO; 18). -/
def isoTripValid : Fld := ⟨0xd00058, 0, 1, 0⟩

/-- ISO_TRIP.STACK (RO; 18). -/
def isoTripStack : Fld := ⟨0xd00058, 1, 1, 0⟩

/-- ISO_TRIP.DIE (RO; 18). -/
def isoTripDie : Fld := ⟨0xd00058, 2, 1, 0⟩

/-- ISO_TRIP.SOURCE (RO; 18). -/
def isoTripSource : Fld := ⟨0xd00058, 3, 6, 0⟩

/-- ISO_TRIP.TEMP_C (RO; 18). -/
def isoTripTempC : Fld := ⟨0xd00058, 16, 8, 0⟩

/-- ISO_DIE.GRANT (RO; 18). -/
def isoDieGrant (i : Nat) : Fld := ⟨0xd00100 + 0x8 * i, 0, 16, 0⟩

/-- ISO_DIE.POWER (RO; 18). -/
def isoDiePower (i : Nat) : Fld := ⟨0xd00100 + 0x8 * i, 16, 16, 0⟩

/-- ISO_DIE.HOTTEST_C (RO; 18). -/
def isoDieHottestC (i : Nat) : Fld := ⟨0xd00100 + 0x8 * i, 32, 8, 0⟩

/-- ISO_DIE.HOTTEST (RO; 18). -/
def isoDieHottest (i : Nat) : Fld := ⟨0xd00100 + 0x8 * i, 40, 6, 0⟩

/-- ISO_STACK.GRANT (RO; 18). -/
def isoStackGrant (i : Nat) : Fld := ⟨0xd00200 + 0x8 * i, 0, 16, 0⟩

/-- ISO_STACK.POWER (RO; 18). -/
def isoStackPower (i : Nat) : Fld := ⟨0xd00200 + 0x8 * i, 16, 16, 0⟩

/-- ISO_SENSOR.TEMP_C (RO; 18). -/
def isoSensorTempC (i j : Nat) : Fld := ⟨0xd00400 + 0x100 * i + 0x4 * j, 0, 8, 0⟩

/-- ISO_SENSOR.VALID (RO; 18). -/
def isoSensorValid (i j : Nat) : Fld := ⟨0xd00400 + 0x100 * i + 0x4 * j, 8, 1, 0⟩

/-- MBX_DOORBELL.GO (W1S; 19). -/
def mbxDoorbellGo : Fld := ⟨0x1402000, 0, 1, 0⟩

/-- MBX_STATUS.DONE (RW1C; 19). -/
def mbxStatusDone : Fld := ⟨0x1402008, 0, 1, 0⟩

/-- MBX_STATUS.IRQ_EN (RW; 19). -/
def mbxStatusIrqEn : Fld := ⟨0x1402008, 1, 1, 0⟩

/-- SEC_EVENT.TDISP_ERROR (RW1C; 20). -/
def secEventTdispError : Fld := ⟨0xf00010, 0, 1, 0⟩

/-- SEC_EVENT.OBSERVED (RW1C; 20). -/
def secEventObserved : Fld := ⟨0xf00010, 1, 1, 0⟩

/-- SEC_EVENT.DOMAIN (RW1C; 20). -/
def secEventDomain : Fld := ⟨0xf00010, 2, 1, 0⟩

/-- SEC_EVENT.MAC_MISMATCH (RW1C; 20). -/
def secEventMacMismatch : Fld := ⟨0xf00010, 3, 1, 0⟩

/-- SEC_EVENT.DOMAIN_ACCESS (RW1C; 20). -/
def secEventDomainAccess : Fld := ⟨0xf00010, 4, 1, 0⟩

/-- SEC_EVENT_EN.TDISP_ERROR (RW; 20). -/
def secEventEnTdispError : Fld := ⟨0xf00014, 0, 1, 0⟩

/-- SEC_EVENT_EN.OBSERVED (RW; 20). -/
def secEventEnObserved : Fld := ⟨0xf00014, 1, 1, 0⟩

/-- SEC_EVENT_EN.DOMAIN (RW; 20). -/
def secEventEnDomain : Fld := ⟨0xf00014, 2, 1, 0⟩

/-- SEC_EVENT_EN.MAC_MISMATCH (RW; 20). -/
def secEventEnMacMismatch : Fld := ⟨0xf00014, 3, 1, 0⟩

/-- SEC_EVENT_EN.DOMAIN_ACCESS (RW; 20). -/
def secEventEnDomainAccess : Fld := ⟨0xf00014, 4, 1, 0⟩

/-- SEC_STATUS.READY (RO; 20). -/
def secStatusReady : Fld := ⟨0xf00018, 0, 1, 0⟩

/-- SEC_STATUS.UPDATE_STAGED (RO; 20). -/
def secStatusUpdateStaged : Fld := ⟨0xf00018, 1, 1, 0⟩

/-- SEC_STATUS.SESSIONS (RO; 20). -/
def secStatusSessions : Fld := ⟨0xf00018, 2, 4, 0⟩

/-- SEC_STATUS.DOMAINS (RO; 20). -/
def secStatusDomains : Fld := ⟨0xf00018, 8, 7, 0⟩

/-- SEC_OBSERVED.MAP (RO; 20). -/
def secObservedMap : Fld := ⟨0xf00020, 0, 24, 0⟩

/-- SEC_DEBUG.MAP (RO; 20). -/
def secDebugMap : Fld := ⟨0xf00024, 0, 24, 0⟩

/-- SEC_TDISP.STATE (RO; 20). -/
def secTdispState (i : Nat) : Fld := ⟨0xf00100 + 0x8 * i, 0, 2, 0⟩

/-- SEC_TDISP.BOUND (RO; 20). -/
def secTdispBound (i : Nat) : Fld := ⟨0xf00100 + 0x8 * i, 2, 1, 0⟩

/-- SEC_TDISP.STREAM (RO; 20). -/
def secTdispStream (i : Nat) : Fld := ⟨0xf00100 + 0x8 * i, 3, 3, 0⟩

/-- SEC_DOMAIN.STATE (RO; 20). -/
def secDomainState (i : Nat) : Fld := ⟨0xf01000 + 0x40 * i, 0, 2, 0⟩

/-- SEC_DOMAIN.PARTITION (RO; 20). -/
def secDomainPartition (i : Nat) : Fld := ⟨0xf01000 + 0x40 * i, 2, 5, 31⟩

/-- SEC_DOMAIN.DONE (RO; 20). -/
def secDomainDone (i : Nat) : Fld := ⟨0xf01000 + 0x40 * i, 32, 32, 0⟩

/-- SEC_DOMAIN.BASE (RO; 20). -/
def secDomainBase (i : Nat) : Fld := ⟨0xf01000 + 0x40 * i, 64, 48, 0⟩

/-- SEC_DOMAIN.GRANULES (RO; 20). -/
def secDomainGranules (i : Nat) : Fld := ⟨0xf01000 + 0x40 * i, 128, 32, 0⟩

/-- SEC_DOMAIN.BUNDLE_ID (RO; 20). -/
def secDomainBundleId (i : Nat) : Fld := ⟨0xf01000 + 0x40 * i, 256, 128, 0⟩

/-- MOR_INFO.SLOTS (RO; 22). -/
def morInfoSlots : Fld := ⟨0xe00000, 0, 13, 4096⟩

/-- MOR_EVENT.CORRECTED (RW1C; 22). -/
def morEventCorrected : Fld := ⟨0xe00010, 0, 1, 0⟩

/-- MOR_EVENT.DEFERRED (RW1C; 22). -/
def morEventDeferred : Fld := ⟨0xe00010, 1, 1, 0⟩

/-- MOR_EVENT.PART_FATAL (RW1C; 22). -/
def morEventPartFatal : Fld := ⟨0xe00010, 2, 1, 0⟩

/-- MOR_EVENT.HUB_FATAL (RW1C; 22). -/
def morEventHubFatal : Fld := ⟨0xe00010, 3, 1, 0⟩

/-- MOR_EVENT.LOST (RW1C; 22). -/
def morEventLost : Fld := ⟨0xe00010, 4, 1, 0⟩

/-- MOR_EVENT_EN.CORRECTED (RW; 22). -/
def morEventEnCorrected : Fld := ⟨0xe00014, 0, 1, 0⟩

/-- MOR_EVENT_EN.DEFERRED (RW; 22). -/
def morEventEnDeferred : Fld := ⟨0xe00014, 1, 1, 0⟩

/-- MOR_EVENT_EN.PART_FATAL (RW; 22). -/
def morEventEnPartFatal : Fld := ⟨0xe00014, 2, 1, 0⟩

/-- MOR_EVENT_EN.HUB_FATAL (RW; 22). -/
def morEventEnHubFatal : Fld := ⟨0xe00014, 3, 1, 0⟩

/-- MOR_EVENT_EN.LOST (RW; 22). -/
def morEventEnLost : Fld := ⟨0xe00014, 4, 1, 0⟩

/-- MOR_NEXT_SEQ.SEQ (RO; 22). -/
def morNextSeqSeq : Fld := ⟨0xe00018, 0, 32, 1⟩

/-- MOR_HELD.COUNT (RO; 22). -/
def morHeldCount : Fld := ⟨0xe0001c, 0, 13, 0⟩

/-- MOR_LOST.COUNT (RO; 22). -/
def morLostCount : Fld := ⟨0xe00020, 0, 32, 0⟩

/-- MOR_CLEAR.UPTO (WO; 22). -/
def morClearUpto : Fld := ⟨0xe00028, 0, 32, 0⟩

/-- MOR_RECORD.RECORD (RO; 22). -/
def morRecordRecord (i : Nat) : Fld := ⟨0xe10000 + 0x40 * i, 0, 512, 0⟩

/-- MSI-X table entry `e` of function `fn`: message address (R352; PCIe). -/
def msixAddr (fn e : Nat) : Fld := ⟨0x1300000 + 16 * e + 0x100000000 * fn, 0, 64, 0⟩

/-- MSI-X table entry `e` of function `fn`: message data. -/
def msixData (fn e : Nat) : Fld := ⟨0x1300000 + 16 * e + 0x100000000 * fn, 64, 32, 0⟩

/-- MSI-X table entry `e` of function `fn`: Mask bit of Vector Control, 1 at reset as PCIe has it (assumption 2). -/
def msixMask (fn e : Nat) : Fld := ⟨0x1300000 + 16 * e + 0x100000000 * fn, 96, 1, 1⟩

end Reg

end Sys2Proof.Machine
end

