-- ==== Sys2Proof/Machine/RegMap.lean ====
section
/-! DEFINITION. The register map of PF BAR0 (R8, R346): for every register of the spec's tables its place, its width,
its array dimensions and its fields with their types (Table 4 of 00) and reserved encodings (R6). -/

namespace Sys2Proof.Machine

/-- The register field types of Table 4 (R8). -/
inductive FTy where
  | ro | rw | rw1c | w1s | wo | rwf
  deriving DecidableEq, Repr

/-- A field of a register: its type, its place, and which values are no reserved encodings (given the whole word
written and the field's value, R6). -/
structure RField where
  ty : FTy
  fld : Fld
  legal : Nat → Nat → Bool

/-- A register or an array of registers: base offset, array dimensions (count, stride), bytes of one entry, width of
one register in bits, and the fields of the entry at given indices (`fn`: the function for Q_ registers; `sel`: the
unit selected for PERF counters). -/
structure RegDesc where
  base : Nat
  dims : List (Nat × Nat)
  bytes : Nat
  width : Nat
  fields : Nat → Nat → List Nat → List RField

/-- A field with no reserved encoding. -/
def anyVal : Nat → Nat → Bool := fun _ _ => true

/-- The CFG_ registers. -/
def regsCfg : List RegDesc := [
  ⟨0x100000, [], 4, 32, fun _ _ _ => [⟨.ro, Reg.cfgEpochEpoch, anyVal⟩]⟩,
  ⟨0x100008, [], 4, 32, fun _ _ _ => [⟨.ro, Reg.cfgStatusPhase, anyVal⟩, ⟨.ro, Reg.cfgStatusStaged, anyVal⟩, ⟨.ro, Reg.cfgStatusLastOk, anyVal⟩, ⟨.ro, Reg.cfgStatusLastCause, anyVal⟩, ⟨.ro, Reg.cfgStatusLastItem, anyVal⟩]⟩,
  ⟨0x100010, [], 8, 64, fun _ _ _ => [⟨.wo, Reg.cfgCommitExpectEpoch, anyVal⟩, ⟨.wo, Reg.cfgCommitValidateOnly, anyVal⟩, ⟨.wo, Reg.cfgCommitDiscard, anyVal⟩]⟩,
  ⟨0x100018, [], 4, 32, fun _ _ _ => [⟨.ro, Reg.cfgOwnerOwnerIf, anyVal⟩, ⟨.wo, Reg.cfgOwnerBreak, anyVal⟩]⟩,
  ⟨0x100020, [], 4, 32, fun _ _ _ => [⟨.ro, Reg.cfgModeTwin, anyVal⟩, ⟨.ro, Reg.cfgModePrimary, anyVal⟩, ⟨.ro, Reg.cfgModeSriov, anyVal⟩, ⟨.ro, Reg.cfgModeWhiteout, anyVal⟩, ⟨.ro, Reg.cfgModeWhiteoutCause, anyVal⟩, ⟨.ro, Reg.cfgModeFeatureLevel, anyVal⟩, ⟨.ro, Reg.cfgModeLifecycle, anyVal⟩, ⟨.ro, Reg.cfgModePartitions, anyVal⟩]⟩,
  ⟨0x100028, [], 4, 32, fun _ _ _ => [⟨.rwf, Reg.cfgPowerClassW, anyVal⟩, ⟨.rwf, Reg.cfgPowerBrakeLevel, anyVal⟩]⟩,
  ⟨0x100030, [], 4, 32, fun _ _ _ => [⟨.rw1c, Reg.cfgEventCommitDone, anyVal⟩, ⟨.rw1c, Reg.cfgEventCommitFailed, anyVal⟩, ⟨.rw1c, Reg.cfgEventForecastExpired, anyVal⟩, ⟨.rw1c, Reg.cfgEventRefused, anyVal⟩]⟩,
  ⟨0x100034, [], 4, 32, fun _ _ _ => [⟨.rw, Reg.cfgEventEnCommitDone, anyVal⟩, ⟨.rw, Reg.cfgEventEnCommitFailed, anyVal⟩, ⟨.rw, Reg.cfgEventEnForecastExpired, anyVal⟩, ⟨.rw, Reg.cfgEventEnRefused, anyVal⟩]⟩,
  ⟨0x100038, [], 8, 64, fun _ _ _ => [⟨.ro, Reg.cfgRefusedOffset, anyVal⟩, ⟨.ro, Reg.cfgRefusedIface, anyVal⟩, ⟨.ro, Reg.cfgRefusedCause, anyVal⟩]⟩,
  ⟨0x100040, [], 8, 64, fun _ _ _ => [⟨.rw, Reg.cfgFsetAddrHpa, anyVal⟩]⟩,
  ⟨0x100048, [], 4, 32, fun _ _ _ => [⟨.w1s, Reg.cfgFsetLoadLoad, anyVal⟩, ⟨.ro, Reg.cfgFsetLoadResult, anyVal⟩, ⟨.ro, Reg.cfgFsetLoadCount, anyVal⟩]⟩,
  ⟨0x100050, [], 4, 32, fun _ _ _ => [⟨.ro, Reg.cfgDescSerial, anyVal⟩]⟩,
  ⟨0x100054, [], 4, 32, fun _ _ _ => [⟨.rw, Reg.cfgExpiryIdleS, fun _ v => decide (1 ≤ v) && decide (v ≤ 3600)⟩]⟩]

/-- The GLB_ registers. -/
def regsGlb : List RegDesc := [
  ⟨0x0, [], 4, 32, fun _ _ _ => [⟨.ro, Reg.glbIdVendor, anyVal⟩, ⟨.ro, Reg.glbIdDevice, anyVal⟩]⟩,
  ⟨0x8, [], 4, 32, fun _ _ _ => [⟨.ro, Reg.glbRevSiliconRev, anyVal⟩, ⟨.ro, Reg.glbRevFeatureLevel, anyVal⟩, ⟨.ro, Reg.glbRevTwin, anyVal⟩, ⟨.ro, Reg.glbRevPartnerRev, anyVal⟩, ⟨.ro, Reg.glbRevPartnerFl, anyVal⟩]⟩,
  ⟨0x10, [], 8, 64, fun _ _ _ => [⟨.ro, Reg.glbUnitIdUnitId, anyVal⟩]⟩,
  ⟨0x18, [], 8, 64, fun _ _ _ => [⟨.ro, Reg.glbPartnerUnitIdUnitId, anyVal⟩]⟩,
  ⟨0x40, [], 4, 32, fun _ _ _ => [⟨.ro, Reg.glbBootStatusStage, anyVal⟩, ⟨.ro, Reg.glbBootStatusSlot, anyVal⟩, ⟨.ro, Reg.glbBootStatusTrial, anyVal⟩, ⟨.ro, Reg.glbBootStatusPartnerHeld, anyVal⟩, ⟨.ro, Reg.glbBootStatusRecovery, anyVal⟩]⟩,
  ⟨0x44, [], 4, 32, fun _ _ _ => [⟨.ro, Reg.glbHostIfVersion, anyVal⟩]⟩,
  ⟨0x48, [], 4, 32, fun _ _ _ => [⟨.ro, Reg.glbResetCausePorst, anyVal⟩, ⟨.ro, Reg.glbResetCausePerst, anyVal⟩, ⟨.ro, Reg.glbResetCauseSoft, anyVal⟩, ⟨.ro, Reg.glbResetCauseHubFatal, anyVal⟩, ⟨.ro, Reg.glbResetCauseWatchdog, anyVal⟩, ⟨.ro, Reg.glbResetCausePartner, anyVal⟩]⟩,
  ⟨0x50, [], 4, 32, fun _ _ _ => [⟨.wo, Reg.glbResetHub, anyVal⟩, ⟨.wo, Reg.glbResetKey, anyVal⟩]⟩,
  ⟨0x58, [], 4, 32, fun _ _ _ => [⟨.ro, Reg.glbAliveValue, anyVal⟩]⟩]

/-- The FLC_ registers. -/
def regsFlc : List RegDesc := [
  ⟨0x200000, [], 4, 32, fun _ _ _ => [⟨.ro, Reg.flcInfoFloes, anyVal⟩, ⟨.ro, Reg.flcInfoCores, anyVal⟩, ⟨.ro, Reg.flcInfoFreqMin, anyVal⟩, ⟨.ro, Reg.flcInfoFreqMax, anyVal⟩]⟩,
  ⟨0x200010, [], 4, 32, fun _ _ _ => [⟨.rw1c, Reg.flcEventKernelFault, anyVal⟩, ⟨.rw1c, Reg.flcEventTimeout, anyVal⟩, ⟨.rw1c, Reg.flcEventResetRefused, anyVal⟩]⟩,
  ⟨0x200014, [], 4, 32, fun _ _ _ => [⟨.rw, Reg.flcEventEnKernelFault, anyVal⟩, ⟨.rw, Reg.flcEventEnTimeout, anyVal⟩, ⟨.rw, Reg.flcEventEnResetRefused, anyVal⟩]⟩,
  ⟨0x200020, [], 4, 32, fun _ _ _ => [⟨.rw, Reg.flcPerfSelFloe, anyVal⟩]⟩,
  ⟨0x200028, [], 8, 64, fun _ sel _ => [⟨.ro, Reg.flcPerfCyclesCount sel, anyVal⟩]⟩,
  ⟨0x200030, [], 8, 64, fun _ sel _ => [⟨.ro, Reg.flcPerfVfmaCount sel, anyVal⟩]⟩,
  ⟨0x200038, [], 8, 64, fun _ sel _ => [⟨.ro, Reg.flcPerfLdstallCount sel, anyVal⟩]⟩,
  ⟨0x200040, [], 8, 64, fun _ sel _ => [⟨.ro, Reg.flcPerfMispredCount sel, anyVal⟩]⟩,
  ⟨0x201000, [(512, 0x8)], 8, 64, fun _ _ ix => let i := ix.getD 0 0; [⟨.ro, Reg.flcFloeStatusState i, anyVal⟩, ⟨.ro, Reg.flcFloeStatusPartition i, anyVal⟩, ⟨.ro, Reg.flcFloeStatusFreq i, anyVal⟩, ⟨.ro, Reg.flcFloeStatusQueued i, anyVal⟩, ⟨.ro, Reg.flcFloeStatusGateway i, anyVal⟩, ⟨.ro, Reg.flcFloeStatusLaunchId i, anyVal⟩]⟩,
  ⟨0x202000, [(512, 0x8)], 4, 32, fun _ _ ix => let i := ix.getD 0 0; [⟨.w1s, Reg.flcFloeCtrlReset i, anyVal⟩]⟩,
  ⟨0x204000, [(24, 0x40)], 64, 64, fun _ _ ix => let i := ix.getD 0 0; [⟨.ro, Reg.flcKfaultCode i, anyVal⟩, ⟨.ro, Reg.flcKfaultStatus i, anyVal⟩, ⟨.ro, Reg.flcKfaultFlags i, anyVal⟩, ⟨.ro, Reg.flcKfaultSuppressed i, anyVal⟩, ⟨.ro, Reg.flcKfaultLaunchId i, anyVal⟩, ⟨.ro, Reg.flcKfaultFloe i, anyVal⟩, ⟨.rw1c, Reg.flcKfaultLost i, anyVal⟩, ⟨.rw1c, Reg.flcKfaultValid i, anyVal⟩, ⟨.ro, Reg.flcKfaultCore i, anyVal⟩, ⟨.ro, Reg.flcKfaultTrapCode i, anyVal⟩, ⟨.ro, Reg.flcKfaultInsn i, anyVal⟩, ⟨.ro, Reg.flcKfaultPc i, anyVal⟩, ⟨.ro, Reg.flcKfaultTile i, anyVal⟩, ⟨.ro, Reg.flcKfaultAddr i, anyVal⟩]⟩]

/-- The DEW_ registers. -/
def regsDew : List RegDesc := [
  ⟨0x1100000, [(24, 0x20)], 4, 32, fun _ _ ix => let i := ix.getD 0 0; [⟨.rwf, Reg.dewPolicyStoreAllow i, anyVal⟩]⟩,
  ⟨0x1100008, [(24, 0x20)], 8, 64, fun _ _ ix => let i := ix.getD 0 0; [⟨.rwf, Reg.dewAccLoMinAcc0 i, fun _ v => decide (v = 0) || (decide (16 ≤ v) && decide (v ≤ 64))⟩, ⟨.rwf, Reg.dewAccLoMinAcc1 i, fun _ v => decide (v = 0) || (decide (16 ≤ v) && decide (v ≤ 64))⟩, ⟨.rwf, Reg.dewAccLoMinAcc2 i, fun _ v => decide (v = 0) || (decide (16 ≤ v) && decide (v ≤ 64))⟩, ⟨.rwf, Reg.dewAccLoMinAcc3 i, fun _ v => decide (v = 0) || (decide (16 ≤ v) && decide (v ≤ 64))⟩, ⟨.rwf, Reg.dewAccLoMinAcc4 i, fun _ v => decide (v = 0) || (decide (16 ≤ v) && decide (v ≤ 64))⟩, ⟨.rwf, Reg.dewAccLoMinAcc5 i, fun _ v => decide (v = 0) || (decide (16 ≤ v) && decide (v ≤ 64))⟩, ⟨.rwf, Reg.dewAccLoMinAcc6 i, fun _ v => decide (v = 0) || (decide (16 ≤ v) && decide (v ≤ 64))⟩, ⟨.rwf, Reg.dewAccLoMinAcc7 i, fun _ v => decide (v = 0) || (decide (16 ≤ v) && decide (v ≤ 64))⟩]⟩,
  ⟨0x1100010, [(24, 0x20)], 8, 64, fun _ _ ix => let i := ix.getD 0 0; [⟨.rwf, Reg.dewAccHiMinAcc0 i, fun _ v => decide (v = 0) || (decide (16 ≤ v) && decide (v ≤ 64))⟩, ⟨.rwf, Reg.dewAccHiMinAcc1 i, fun _ v => decide (v = 0) || (decide (16 ≤ v) && decide (v ≤ 64))⟩, ⟨.rwf, Reg.dewAccHiMinAcc2 i, fun _ v => decide (v = 0) || (decide (16 ≤ v) && decide (v ≤ 64))⟩, ⟨.rwf, Reg.dewAccHiMinAcc3 i, fun _ v => decide (v = 0) || (decide (16 ≤ v) && decide (v ≤ 64))⟩]⟩,
  ⟨0x1100018, [(24, 0x20)], 4, 32, fun _ _ ix => let i := ix.getD 0 0; [⟨.ro, Reg.dewAccRefusedCount i, anyVal⟩]⟩,
  ⟨0x1100400, [], 4, 32, fun _ _ _ => [⟨.rw1c, Reg.dewEventTrip, anyVal⟩, ⟨.rw1c, Reg.dewEventPromoted, anyVal⟩, ⟨.rw1c, Reg.dewEventHalt, anyVal⟩, ⟨.rw1c, Reg.dewEventAccRefused, anyVal⟩, ⟨.rw1c, Reg.dewEventCeiling, anyVal⟩]⟩,
  ⟨0x1100404, [], 4, 32, fun _ _ _ => [⟨.rw, Reg.dewEventEnTrip, anyVal⟩, ⟨.rw, Reg.dewEventEnPromoted, anyVal⟩, ⟨.rw, Reg.dewEventEnHalt, anyVal⟩, ⟨.rw, Reg.dewEventEnAccRefused, anyVal⟩, ⟨.rw, Reg.dewEventEnCeiling, anyVal⟩]⟩,
  ⟨0x1100408, [], 4, 32, fun _ _ _ => [⟨.ro, Reg.dewLastPartition, anyVal⟩, ⟨.ro, Reg.dewLastTag, anyVal⟩, ⟨.ro, Reg.dewLastAction, anyVal⟩]⟩,
  ⟨0x1110000, [(24, 0x2000), (256, 0x20)], 32, 64, fun _ _ ix => let i := ix.getD 0 0; let j := ix.getD 1 0; [⟨.rwf, Reg.dewTagBase i j, anyVal⟩, ⟨.rwf, Reg.dewTagGroups i j, anyVal⟩, ⟨.rwf, Reg.dewTagStride i j, anyVal⟩, ⟨.rwf, Reg.dewTagFmt i j, anyVal⟩, ⟨.rwf, Reg.dewTagCeil i j, anyVal⟩, ⟨.rwf, Reg.dewTagAction i j, anyVal⟩, ⟨.rwf, Reg.dewTagSampleLog2 i j, anyVal⟩, ⟨.rwf, Reg.dewTagWindowLog2 i j, fun _ v => decide (4 ≤ v)⟩, ⟨.rwf, Reg.dewTagRmsTh i j, anyVal⟩, ⟨.rwf, Reg.dewTagMaxTh i j, anyVal⟩, ⟨.ro, Reg.dewTagMigrating i j, anyVal⟩, ⟨.rw1c, Reg.dewTagHalted i j, anyVal⟩, ⟨.ro, Reg.dewTagAtCeil i j, anyVal⟩, ⟨.w1s, Reg.dewTagClear i j, anyVal⟩, ⟨.ro, Reg.dewTagNextFmt i j, anyVal⟩, ⟨.ro, Reg.dewTagFrontier i j, anyVal⟩]⟩,
  ⟨0x1140000, [(24, 0x4000), (256, 0x40)], 64, 64, fun _ _ ix => let i := ix.getD 0 0; let j := ix.getD 1 0; [⟨.ro, Reg.dewStatSat i j, anyVal⟩, ⟨.ro, Reg.dewStatOf i j, anyVal⟩, ⟨.ro, Reg.dewStatNv i j, anyVal⟩, ⟨.ro, Reg.dewStatEsc i j, anyVal⟩, ⟨.ro, Reg.dewStatEscovf i j, anyVal⟩, ⟨.ro, Reg.dewStatBad i j, anyVal⟩, ⟨.ro, Reg.dewStatTrips i j, anyVal⟩, ⟨.ro, Reg.dewStatSkipped i j, anyVal⟩, ⟨.ro, Reg.dewStatLastRms i j, anyVal⟩, ⟨.ro, Reg.dewStatLastMax i j, anyVal⟩, ⟨.ro, Reg.dewStatCount i j, anyVal⟩]⟩]

/-- The HBM_ registers. -/
def regsHbm : List RegDesc := [
  ⟨0x500000, [(24, 0x8)], 8, 64, fun _ _ ix => let i := ix.getD 0 0; [⟨.ro, Reg.hbmStackInfoState i, anyVal⟩, ⟨.ro, Reg.hbmStackInfoDensity i, anyVal⟩, ⟨.ro, Reg.hbmStackInfoSpeed i, anyVal⟩, ⟨.ro, Reg.hbmStackInfoEcc i, anyVal⟩, ⟨.ro, Reg.hbmStackInfoLevel i, anyVal⟩, ⟨.ro, Reg.hbmStackInfoRepairing i, anyVal⟩, ⟨.ro, Reg.hbmStackInfoTemp i, anyVal⟩, ⟨.ro, Reg.hbmStackInfoMaker i, anyVal⟩]⟩,
  ⟨0x500100, [(24, 0x8)], 4, 32, fun _ _ ix => let i := ix.getD 0 0; [⟨.rwf, Reg.hbmStackCtrlSpeed i, fun _ v => decide (v ≠ 3)⟩, ⟨.rwf, Reg.hbmStackCtrlEcc i, anyVal⟩]⟩,
  ⟨0x500200, [(24, 0x8)], 8, 64, fun _ _ ix => let i := ix.getD 0 0; [⟨.ro, Reg.hbmErrCountCe i, anyVal⟩, ⟨.ro, Reg.hbmErrCountUe i, anyVal⟩, ⟨.ro, Reg.hbmErrCountRepairs i, anyVal⟩]⟩,
  ⟨0x500300, [], 4, 32, fun _ _ _ => [⟨.rw, Reg.hbmRasCfgCeThresh, fun _ v => decide (v ≠ 0)⟩, ⟨.rw, Reg.hbmRasCfgCeWindowH, fun _ v => decide (v ≠ 0)⟩, ⟨.rw, Reg.hbmRasCfgScrubH, anyVal⟩, ⟨.rw, Reg.hbmRasCfgPprEn, anyVal⟩]⟩,
  ⟨0x500310, [], 4, 32, fun _ _ _ => [⟨.rw1c, Reg.hbmEventCe, anyVal⟩, ⟨.rw1c, Reg.hbmEventUe, anyVal⟩, ⟨.rw1c, Reg.hbmEventRepaired, anyVal⟩, ⟨.rw1c, Reg.hbmEventRowFailed, anyVal⟩, ⟨.rw1c, Reg.hbmEventRepairUnavailable, anyVal⟩, ⟨.rw1c, Reg.hbmEventThermal, anyVal⟩, ⟨.rw1c, Reg.hbmEventRetrain, anyVal⟩]⟩,
  ⟨0x500314, [], 4, 32, fun _ _ _ => [⟨.rw, Reg.hbmEventEnCe, anyVal⟩, ⟨.rw, Reg.hbmEventEnUe, anyVal⟩, ⟨.rw, Reg.hbmEventEnRepaired, anyVal⟩, ⟨.rw, Reg.hbmEventEnRowFailed, anyVal⟩, ⟨.rw, Reg.hbmEventEnRepairUnavailable, anyVal⟩, ⟨.rw, Reg.hbmEventEnThermal, anyVal⟩, ⟨.rw, Reg.hbmEventEnRetrain, anyVal⟩]⟩,
  ⟨0x500320, [], 8, 64, fun _ _ _ => [⟨.rw, Reg.hbmRowqStack, anyVal⟩, ⟨.rw, Reg.hbmRowqPc, anyVal⟩, ⟨.rw, Reg.hbmRowqRowkey, anyVal⟩, ⟨.w1s, Reg.hbmRowqGo, anyVal⟩]⟩,
  ⟨0x500330, [(8, 0x8)], 8, 64, fun _ _ ix => let i := ix.getD 0 0; [⟨.ro, Reg.hbmRowqLineHpa i, anyVal⟩, ⟨.ro, Reg.hbmRowqLineMeta i, anyVal⟩, ⟨.ro, Reg.hbmRowqLineValid i, anyVal⟩]⟩]

/-- The FRN_ registers. -/
def regsFrn : List RegDesc := [
  ⟨0x400000, [], 4, 32, fun _ _ _ => [⟨.ro, Reg.frnInfoSlices, anyVal⟩, ⟨.ro, Reg.frnInfoWays, anyVal⟩, ⟨.ro, Reg.frnInfoSets, anyVal⟩]⟩,
  ⟨0x400008, [], 4, 32, fun _ _ _ => [⟨.rw, Reg.frnRasCfgWayWindowH, fun _ v => decide (v ≠ 0)⟩]⟩,
  ⟨0x400010, [], 4, 32, fun _ _ _ => [⟨.rw1c, Reg.frnEventParity, anyVal⟩, ⟨.rw1c, Reg.frnEventFatal, anyVal⟩, ⟨.rw1c, Reg.frnEventWayDisabled, anyVal⟩, ⟨.rw1c, Reg.frnEventMaintDone, anyVal⟩, ⟨.rw1c, Reg.frnEventAperture, anyVal⟩]⟩,
  ⟨0x400014, [], 4, 32, fun _ _ _ => [⟨.rw, Reg.frnEventEnParity, anyVal⟩, ⟨.rw, Reg.frnEventEnFatal, anyVal⟩, ⟨.rw, Reg.frnEventEnWayDisabled, anyVal⟩, ⟨.rw, Reg.frnEventEnMaintDone, anyVal⟩, ⟨.rw, Reg.frnEventEnAperture, anyVal⟩]⟩,
  ⟨0x400020, [], 8, 64, fun _ _ _ => [⟨.rw, Reg.frnMaintAddrHpa, anyVal⟩]⟩,
  ⟨0x400028, [], 8, 64, fun _ _ _ => [⟨.rw, Reg.frnMaintOp, anyVal⟩, ⟨.rw, Reg.frnMaintSetway, anyVal⟩, ⟨.rw, Reg.frnMaintSlice, anyVal⟩, ⟨.rw, Reg.frnMaintSet, anyVal⟩, ⟨.rw, Reg.frnMaintWay, anyVal⟩, ⟨.w1s, Reg.frnMaintGo, anyVal⟩, ⟨.ro, Reg.frnMaintResult, anyVal⟩]⟩,
  ⟨0x400030, [], 4, 32, fun _ _ _ => [⟨.rw, Reg.frnPerfSelSlice, anyVal⟩]⟩,
  ⟨0x400038, [], 8, 64, fun _ sel _ => [⟨.ro, Reg.frnPerfHitCount sel, anyVal⟩]⟩,
  ⟨0x400040, [], 8, 64, fun _ sel _ => [⟨.ro, Reg.frnPerfMissCount sel, anyVal⟩]⟩,
  ⟨0x400048, [], 8, 64, fun _ sel _ => [⟨.ro, Reg.frnPerfEvictCount sel, anyVal⟩]⟩,
  ⟨0x401000, [(192, 0x8)], 8, 64, fun _ _ ix => let i := ix.getD 0 0; [⟨.rwf, Reg.frnSliceCtrlMode i, fun _ v => decide (v ≠ 3)⟩, ⟨.rwf, Reg.frnSliceCtrlFill i, anyVal⟩, ⟨.rwf, Reg.frnSliceCtrlOpDisable i, anyVal⟩, ⟨.rw, Reg.frnSliceCtrlSeed i, fun _ v => decide (v ≠ 0)⟩]⟩,
  ⟨0x402000, [(192, 0x8)], 8, 64, fun _ _ ix => let i := ix.getD 0 0; [⟨.ro, Reg.frnSliceStatusMode i, anyVal⟩, ⟨.ro, Reg.frnSliceStatusHome i, anyVal⟩, ⟨.ro, Reg.frnSliceStatusPartition i, anyVal⟩, ⟨.ro, Reg.frnSliceStatusDisabled i, anyVal⟩, ⟨.ro, Reg.frnSliceStatusDirty i, anyVal⟩]⟩]

/-- The DRF_ registers. -/
def regsDrf : List RegDesc := [
  ⟨0x600000, [], 4, 32, fun _ _ _ => [⟨.ro, Reg.drfInfoStreams, anyVal⟩, ⟨.ro, Reg.drfInfoMovers, anyVal⟩, ⟨.ro, Reg.drfInfoInflight, anyVal⟩]⟩,
  ⟨0x600010, [], 4, 32, fun _ _ _ => [⟨.rw1c, Reg.drfEventStreamError, anyVal⟩, ⟨.rw1c, Reg.drfEventDbReject, anyVal⟩, ⟨.rw1c, Reg.drfEventDbErr, anyVal⟩, ⟨.rw1c, Reg.drfEventHostTimeout, anyVal⟩]⟩,
  ⟨0x600014, [], 4, 32, fun _ _ _ => [⟨.rw, Reg.drfEventEnStreamError, anyVal⟩, ⟨.rw, Reg.drfEventEnDbReject, anyVal⟩, ⟨.rw, Reg.drfEventEnDbErr, anyVal⟩, ⟨.rw, Reg.drfEventEnHostTimeout, anyVal⟩]⟩,
  ⟨0x600018, [], 4, 32, fun _ _ _ => [⟨.ro, Reg.drfDbRejectCount, anyVal⟩]⟩,
  ⟨0x600100, [(25, 0x8)], 8, 64, fun _ _ ix => let i := ix.getD 0 0; [⟨.rw, Reg.drfPartLimitMax i, fun _ v => decide (v ≤ 32768)⟩, ⟨.ro, Reg.drfPartLimitOpen i, anyVal⟩]⟩,
  ⟨0x600200, [], 4, 32, fun _ _ _ => [⟨.rw, Reg.drfPerfSelPort, anyVal⟩]⟩,
  ⟨0x600208, [], 8, 64, fun _ sel _ => [⟨.ro, Reg.drfPerfRdCount sel, anyVal⟩]⟩,
  ⟨0x600210, [], 8, 64, fun _ sel _ => [⟨.ro, Reg.drfPerfWrCount sel, anyVal⟩]⟩,
  ⟨0x640000, [(32768, 0x8)], 8, 64, fun _ _ ix => let i := ix.getD 0 0; [⟨.ro, Reg.drfStreamStatusState i, anyVal⟩, ⟨.ro, Reg.drfStreamStatusHostChannel i, anyVal⟩, ⟨.ro, Reg.drfStreamStatusPartition i, anyVal⟩, ⟨.rw1c, Reg.drfStreamStatusDbErr i, anyVal⟩, ⟨.ro, Reg.drfStreamStatusLastStatus i, anyVal⟩, ⟨.ro, Reg.drfStreamStatusInflight i, anyVal⟩, ⟨.ro, Reg.drfStreamStatusHead i, anyVal⟩]⟩,
  ⟨0x680000, [(32768, 0x8)], 4, 32, fun _ _ ix => let i := ix.getD 0 0; [⟨.wo, Reg.drfDbTailCount i, anyVal⟩]⟩,
  ⟨0x680004, [(32768, 0x8)], 4, 32, fun _ _ ix => let i := ix.getD 0 0; [⟨.wo, Reg.drfDbCplheadCount i, anyVal⟩]⟩,
  ⟨0x6c0000, [(32768, 0x8)], 4, 32, fun _ _ ix => let i := ix.getD 0 0; [⟨.w1s, Reg.drfStreamCtrlPause i, anyVal⟩, ⟨.w1s, Reg.drfStreamCtrlResume i, anyVal⟩, ⟨.w1s, Reg.drfStreamCtrlAbort i, anyVal⟩]⟩]

/-- The XLT_ registers. -/
def regsXlt : List RegDesc := [
  ⟨0x700000, [], 8, 64, fun _ _ _ => [⟨.ro, Reg.xltInfoAsids, anyVal⟩, ⟨.ro, Reg.xltInfoWalkers, anyVal⟩, ⟨.ro, Reg.xltInfoStlbs, anyVal⟩, ⟨.ro, Reg.xltInfoParkSlots, anyVal⟩]⟩,
  ⟨0x700010, [], 4, 32, fun _ _ _ => [⟨.rw1c, Reg.xltEventFault, anyVal⟩, ⟨.rw1c, Reg.xltEventOverflow, anyVal⟩, ⟨.rw1c, Reg.xltEventParkFull, anyVal⟩, ⟨.rw1c, Reg.xltEventAsidReject, anyVal⟩, ⟨.rw1c, Reg.xltEventAsRefused, anyVal⟩, ⟨.rw1c, Reg.xltEventTablePoison, anyVal⟩]⟩,
  ⟨0x700014, [], 4, 32, fun _ _ _ => [⟨.rw, Reg.xltEventEnFault, anyVal⟩, ⟨.rw, Reg.xltEventEnOverflow, anyVal⟩, ⟨.rw, Reg.xltEventEnParkFull, anyVal⟩, ⟨.rw, Reg.xltEventEnAsidReject, anyVal⟩, ⟨.rw, Reg.xltEventEnAsRefused, anyVal⟩, ⟨.rw, Reg.xltEventEnTablePoison, anyVal⟩]⟩,
  ⟨0x700018, [], 8, 64, fun _ _ _ => [⟨.ro, Reg.xltParkParkedD0, anyVal⟩, ⟨.ro, Reg.xltParkParkedD1, anyVal⟩, ⟨.ro, Reg.xltParkHeld, anyVal⟩]⟩,
  ⟨0x700020, [], 4, 32, fun _ _ _ => [⟨.rw, Reg.xltPerfSelDie, anyVal⟩]⟩,
  ⟨0x700028, [], 8, 64, fun _ sel _ => [⟨.ro, Reg.xltPerfWalksCount sel, anyVal⟩]⟩,
  ⟨0x700030, [], 8, 64, fun _ sel _ => [⟨.ro, Reg.xltPerfStlbMissCount sel, anyVal⟩]⟩,
  ⟨0x700038, [], 8, 64, fun _ sel _ => [⟨.ro, Reg.xltPerfFaultsCount sel, anyVal⟩]⟩,
  ⟨0x700100, [(24, 0x20)], 8, 64, fun _ _ ix => let i := ix.getD 0 0; [⟨.rw, Reg.xltFqBaseHpa i, anyVal⟩]⟩,
  ⟨0x700108, [(24, 0x20)], 4, 32, fun _ _ ix => let i := ix.getD 0 0; [⟨.rw, Reg.xltFqCtrlEnable i, anyVal⟩, ⟨.rw, Reg.xltFqCtrlLog2 i, fun _ v => decide (6 ≤ v) && decide (v ≤ 16)⟩]⟩,
  ⟨0x700110, [(24, 0x20)], 4, 32, fun _ _ ix => let i := ix.getD 0 0; [⟨.ro, Reg.xltFqPiCount i, anyVal⟩]⟩,
  ⟨0x700114, [(24, 0x20)], 4, 32, fun _ _ ix => let i := ix.getD 0 0; [⟨.rw, Reg.xltFqCiCount i, anyVal⟩]⟩,
  ⟨0x700118, [(24, 0x20)], 8, 64, fun _ _ ix => let i := ix.getD 0 0; [⟨.ro, Reg.xltFqStatusOverflow i, anyVal⟩, ⟨.rw1c, Reg.xltFqStatusOvfSeen i, anyVal⟩, ⟨.ro, Reg.xltFqStatusPending i, anyVal⟩, ⟨.ro, Reg.xltFqStatusOpen i, anyVal⟩]⟩,
  ⟨0x701000, [(128, 0x8)], 8, 64, fun _ _ ix => let i := ix.getD 0 0; [⟨.rw, Reg.xltGrantAsid0 i, anyVal⟩, ⟨.rw, Reg.xltGrantV0 i, anyVal⟩, ⟨.rw, Reg.xltGrantAsid1 i, anyVal⟩, ⟨.rw, Reg.xltGrantV1 i, anyVal⟩, ⟨.rw, Reg.xltGrantAsid2 i, anyVal⟩, ⟨.rw, Reg.xltGrantV2 i, anyVal⟩, ⟨.rw, Reg.xltGrantAsid3 i, anyVal⟩, ⟨.rw, Reg.xltGrantV3 i, anyVal⟩]⟩,
  ⟨0x708000, [(4096, 0x8)], 8, 64, fun _ _ ix => let i := ix.getD 0 0; [⟨.rw, Reg.xltAsValid i, anyVal⟩, ⟨.ro, Reg.xltAsBusy i, anyVal⟩, ⟨.rw, Reg.xltAsRoot i, anyVal⟩, ⟨.rw, Reg.xltAsPartition i, anyVal⟩]⟩]

/-- The SITE_ registers. -/
def regsSite : List RegDesc := [
  ⟨0x800000, [], 4, 32, fun _ _ _ => [⟨.ro, Reg.siteInfoSites, anyVal⟩, ⟨.ro, Reg.siteInfoMaxMinor, anyVal⟩]⟩,
  ⟨0x800008, [], 4, 32, fun _ _ _ => [⟨.rw, Reg.siteRimeCfgLaneTh, fun _ v => decide (v ≠ 0)⟩, ⟨.rw, Reg.siteRimeCfgWindowS, fun _ v => decide (v ≠ 0)⟩, ⟨.rw, Reg.siteRimeCfgSweepMs, fun _ v => decide (v ≠ 0)⟩]⟩,
  ⟨0x800010, [], 4, 32, fun _ _ _ => [⟨.rw1c, Reg.siteEventLane, anyVal⟩, ⟨.rw1c, Reg.siteEventDegraded, anyVal⟩, ⟨.rw1c, Reg.siteEventRetired, anyVal⟩, ⟨.rw1c, Reg.siteEventFenced, anyVal⟩, ⟨.rw1c, Reg.siteEventEngineLost, anyVal⟩, ⟨.rw1c, Reg.siteEventCplErr, anyVal⟩, ⟨.rw1c, Reg.siteEventDbReject, anyVal⟩, ⟨.rw1c, Reg.siteEventResoundRefused, anyVal⟩]⟩,
  ⟨0x800014, [], 4, 32, fun _ _ _ => [⟨.rw, Reg.siteEventEnLane, anyVal⟩, ⟨.rw, Reg.siteEventEnDegraded, anyVal⟩, ⟨.rw, Reg.siteEventEnRetired, anyVal⟩, ⟨.rw, Reg.siteEventEnFenced, anyVal⟩, ⟨.rw, Reg.siteEventEnEngineLost, anyVal⟩, ⟨.rw, Reg.siteEventEnCplErr, anyVal⟩, ⟨.rw, Reg.siteEventEnDbReject, anyVal⟩, ⟨.rw, Reg.siteEventEnResoundRefused, anyVal⟩]⟩,
  ⟨0x800100, [(16, 0x8)], 8, 64, fun _ _ ix => let i := ix.getD 0 0; [⟨.ro, Reg.siteStatusState i, anyVal⟩, ⟨.ro, Reg.siteStatusCause i, anyVal⟩, ⟨.ro, Reg.siteStatusMinor i, anyVal⟩, ⟨.ro, Reg.siteStatusEngines i, anyVal⟩, ⟨.ro, Reg.siteStatusActive i, anyVal⟩, ⟨.ro, Reg.siteStatusRawGbs i, anyVal⟩]⟩,
  ⟨0x800180, [(16, 0x8)], 4, 32, fun _ _ ix => let i := ix.getD 0 0; [⟨.w1s, Reg.siteCtrlFence i, anyVal⟩, ⟨.w1s, Reg.siteCtrlResound i, anyVal⟩]⟩,
  ⟨0x800200, [(16, 0x40), (6, 0x8)], 8, 64, fun _ _ ix => let i := ix.getD 0 0; let j := ix.getD 1 0; [⟨.ro, Reg.siteModuleState i j, anyVal⟩, ⟨.ro, Reg.siteModuleHalf i j, anyVal⟩, ⟨.ro, Reg.siteModuleHalfOut i j, anyVal⟩, ⟨.ro, Reg.siteModuleSparesIn i j, anyVal⟩, ⟨.ro, Reg.siteModuleSparesOut i j, anyVal⟩, ⟨.ro, Reg.siteModuleStalled i j, anyVal⟩, ⟨.ro, Reg.siteModuleParity i j, anyVal⟩]⟩,
  ⟨0x800600, [(16, 0x8)], 8, 64, fun _ _ ix => let i := ix.getD 0 0; [⟨.ro, Reg.sitePowerGrant i, anyVal⟩, ⟨.ro, Reg.sitePowerRequest i, anyVal⟩, ⟨.ro, Reg.sitePowerPower i, anyVal⟩, ⟨.ro, Reg.sitePowerTemp i, anyVal⟩]⟩,
  ⟨0x801000, [(128, 0x8)], 8, 64, fun _ _ ix => let i := ix.getD 0 0; [⟨.ro, Reg.siteEngStatusState i, anyVal⟩, ⟨.ro, Reg.siteEngStatusPartition i, anyVal⟩, ⟨.ro, Reg.siteEngStatusOpen i, anyVal⟩, ⟨.ro, Reg.siteEngStatusDbWait i, anyVal⟩, ⟨.rw1c, Reg.siteEngStatusDbMerged i, anyVal⟩, ⟨.rw1c, Reg.siteEngStatusCplErr i, anyVal⟩, ⟨.ro, Reg.siteEngStatusWrites i, anyVal⟩]⟩,
  ⟨0x801800, [(128, 0x8)], 4, 32, fun _ _ ix => let i := ix.getD 0 0; [⟨.rwf, Reg.siteEngCtrlPartition i, fun _ v => decide (v < 24) || decide (v = 31)⟩, ⟨.rwf, Reg.siteEngCtrlVf i, fun _ v => decide (v ≤ 48)⟩, ⟨.rwf, Reg.siteEngCtrlIrqBase i, anyVal⟩]⟩,
  ⟨0x802000, [(128, 0x8)], 8, 64, fun _ _ ix => let i := ix.getD 0 0; [⟨.wo, Reg.siteEngDbValue i, anyVal⟩]⟩,
  ⟨0x804000, [(128, 0x80)], 128, 64, fun _ _ ix => let i := ix.getD 0 0; [⟨.ro, Reg.siteEngDescDesc i, anyVal⟩]⟩]

/-- The QOS_ registers. -/
def regsQos : List RegDesc := [
  ⟨0x900000, [], 8, 64, fun _ _ _ => [⟨.ro, Reg.qosInfoIslands, anyVal⟩, ⟨.ro, Reg.qosInfoPorts, anyVal⟩, ⟨.ro, Reg.qosInfoClasses, anyVal⟩, ⟨.ro, Reg.qosInfoTargets, anyVal⟩]⟩,
  ⟨0x900010, [], 4, 32, fun _ _ _ => [⟨.rw1c, Reg.qosEventOvr, anyVal⟩, ⟨.rw1c, Reg.qosEventScaled, anyVal⟩]⟩,
  ⟨0x900014, [], 4, 32, fun _ _ _ => [⟨.rw, Reg.qosEventEnOvr, anyVal⟩, ⟨.rw, Reg.qosEventEnScaled, anyVal⟩]⟩,
  ⟨0x900100, [(8, 0x8)], 4, 32, fun _ _ ix => let i := ix.getD 0 0; [⟨.rwf, Reg.qosClassGuar i, anyVal⟩, ⟨.rwf, Reg.qosClassWeight i, fun _ v => decide (v ≠ 0)⟩]⟩,
  ⟨0x902000, [(1024, 0x8)], 8, 64, fun _ _ ix => let i := ix.getD 0 0; [⟨.rwf, Reg.qosPortClass i, anyVal⟩, ⟨.rwf, Reg.qosPortRegEn i, anyVal⟩, ⟨.rwf, Reg.qosPortRate i, fun _ v => decide (v ≠ 0)⟩, ⟨.rwf, Reg.qosPortBurst i, fun _ v => decide (v ≠ 0)⟩, ⟨.ro, Reg.qosPortScale i, anyVal⟩]⟩,
  ⟨0x904000, [(1024, 0x8)], 8, 64, fun _ _ ix => let i := ix.getD 0 0; [⟨.ro, Reg.qosPortHeldNs i, anyVal⟩]⟩,
  ⟨0x908000, [(2, 0x40), (5, 0x8)], 8, 64, fun _ _ ix => let i := ix.getD 0 0; let j := ix.getD 1 0; [⟨.rw1c, Reg.qosOvrIsland i j, anyVal⟩]⟩,
  ⟨0x90a000, [(2, 0x1000), (272, 0x8)], 4, 32, fun _ _ ix => let i := ix.getD 0 0; let j := ix.getD 1 0; [⟨.ro, Reg.qosIslandState i j, anyVal⟩, ⟨.ro, Reg.qosIslandMhz i j, anyVal⟩]⟩,
  ⟨0x910000, [(2, 0x2000), (8, 0x300), (48, 0x10)], 16, 64, fun _ _ ix => let i := ix.getD 0 0; let j := ix.getD 1 0; let k := ix.getD 2 0; [⟨.ro, Reg.qosCntRd i j k, anyVal⟩, ⟨.ro, Reg.qosCntWr i j k, anyVal⟩]⟩]

/-- The PRT_ registers. -/
def regsPrt : List RegDesc := [
  ⟨0xa00000, [], 4, 32, fun _ _ _ => [⟨.ro, Reg.prtInfoPartitions, anyVal⟩]⟩,
  ⟨0xa00010, [], 4, 32, fun _ _ _ => [⟨.rw1c, Reg.prtEventThawed, anyVal⟩, ⟨.rw1c, Reg.prtEventFilled, anyVal⟩, ⟨.rw1c, Reg.prtEventStopTimeout, anyVal⟩, ⟨.rw1c, Reg.prtEventRefused, anyVal⟩]⟩,
  ⟨0xa00014, [], 4, 32, fun _ _ _ => [⟨.rw, Reg.prtEventEnThawed, anyVal⟩, ⟨.rw, Reg.prtEventEnFilled, anyVal⟩, ⟨.rw, Reg.prtEventEnStopTimeout, anyVal⟩, ⟨.rw, Reg.prtEventEnRefused, anyVal⟩]⟩,
  ⟨0xa00018, [], 4, 32, fun _ _ _ => [⟨.rw, Reg.prtStopStopMs, fun _ v => decide (1 ≤ v) && decide (v ≤ 60000)⟩]⟩,
  ⟨0xa01000, [(24, 0x100)], 4, 32, fun _ _ ix => let i := ix.getD 0 0; [⟨.w1s, Reg.prtCtrlStart i, anyVal⟩, ⟨.w1s, Reg.prtCtrlStop i, anyVal⟩, ⟨.w1s, Reg.prtCtrlReset i, anyVal⟩, ⟨.w1s, Reg.prtCtrlThaw i, anyVal⟩]⟩,
  ⟨0xa01008, [(24, 0x100)], 8, 64, fun _ _ ix => let i := ix.getD 0 0; [⟨.ro, Reg.prtStatusState i, anyVal⟩, ⟨.ro, Reg.prtStatusFilling i, anyVal⟩, ⟨.ro, Reg.prtStatusKeyGen i, anyVal⟩, ⟨.ro, Reg.prtStatusThawDrop i, anyVal⟩]⟩,
  ⟨0xa01010, [(24, 0x100)], 4, 32, fun _ _ ix => let i := ix.getD 0 0; [⟨.rwf, Reg.prtCfgExist i, anyVal⟩]⟩,
  ⟨0xa01018, [(24, 0x100)], 8, 64, fun _ _ ix => let i := ix.getD 0 0; [⟨.rwf, Reg.prtHalvesMap i, anyVal⟩]⟩,
  ⟨0xa01020, [(24, 0x100)], 8, 64, fun _ _ ix => let i := ix.getD 0 0; [⟨.rwf, Reg.prtVfsMap i, anyVal⟩]⟩,
  ⟨0xa01028, [(24, 0x100)], 8, 64, fun _ _ ix => let i := ix.getD 0 0; [⟨.rwf, Reg.prtLinksLoMap i, anyVal⟩]⟩,
  ⟨0xa01030, [(24, 0x100)], 8, 64, fun _ _ ix => let i := ix.getD 0 0; [⟨.rwf, Reg.prtLinksHiMap i, anyVal⟩]⟩,
  ⟨0xa01038, [(24, 0x100), (3, 0x8)], 8, 64, fun _ _ ix => let i := ix.getD 0 0; let j := ix.getD 1 0; [⟨.rwf, Reg.prtSlicesMap i j, anyVal⟩]⟩,
  ⟨0xa01050, [(24, 0x100), (8, 0x8)], 8, 64, fun _ _ ix => let i := ix.getD 0 0; let j := ix.getD 1 0; [⟨.rwf, Reg.prtFloesMap i j, anyVal⟩]⟩,
  ⟨0xa01090, [(24, 0x100)], 4, 32, fun _ _ ix => let i := ix.getD 0 0; [⟨.ro, Reg.prtFillGranules i, anyVal⟩]⟩]

/-- The Q_ registers. -/
def regsQ : List RegDesc := [
  ⟨0x1000000, [], 4, 32, fun _ _ _ => [⟨.ro, Reg.qInfoQueues, anyVal⟩]⟩,
  ⟨0x1001000, [(64, 0x40)], 8, 64, fun fn _ ix => let i := ix.getD 0 0; [⟨.rw, Reg.qSqBaseAddr fn i, anyVal⟩]⟩,
  ⟨0x1001008, [(64, 0x40)], 8, 64, fun fn _ ix => let i := ix.getD 0 0; [⟨.rw, Reg.qCqBaseAddr fn i, anyVal⟩]⟩,
  ⟨0x1001010, [(64, 0x40)], 4, 32, fun fn _ ix => let i := ix.getD 0 0; [⟨.rw, Reg.qCtrlEnable fn i, anyVal⟩, ⟨.rw, Reg.qCtrlSqLog2 fn i, fun _ v => decide (6 ≤ v) && decide (v ≤ 16)⟩, ⟨.rw, Reg.qCtrlCqLog2 fn i, fun _ v => decide (6 ≤ v) && decide (v ≤ 16)⟩, ⟨.rw, Reg.qCtrlIrqEn fn i, anyVal⟩, ⟨.rw, Reg.qCtrlVector fn i, fun _ v => decide (fn = 0) || decide (v ≤ 255)⟩]⟩,
  ⟨0x1001018, [(64, 0x40)], 8, 64, fun fn _ ix => let i := ix.getD 0 0; [⟨.ro, Reg.qStatusState fn i, anyVal⟩, ⟨.rw1c, Reg.qStatusDbErr fn i, anyVal⟩, ⟨.ro, Reg.qStatusHeld fn i, anyVal⟩, ⟨.ro, Reg.qStatusErr fn i, anyVal⟩, ⟨.ro, Reg.qStatusSqHead fn i, anyVal⟩]⟩,
  ⟨0x1001020, [(64, 0x40)], 4, 32, fun fn _ ix => let i := ix.getD 0 0; [⟨.wo, Reg.qSqTailCount fn i, anyVal⟩]⟩,
  ⟨0x1001024, [(64, 0x40)], 4, 32, fun fn _ ix => let i := ix.getD 0 0; [⟨.wo, Reg.qCqHeadCount fn i, anyVal⟩]⟩]

/-- The HST_ registers. -/
def regsHst : List RegDesc := [
  ⟨0x1200000, [], 4, 32, fun _ _ _ => [⟨.ro, Reg.hstInfoBar2Log2, anyVal⟩, ⟨.ro, Reg.hstInfoWindows, anyVal⟩]⟩,
  ⟨0x1200010, [], 4, 32, fun _ _ _ => [⟨.rw1c, Reg.hstEventAttErr, anyVal⟩, ⟨.rw1c, Reg.hstEventCto, anyVal⟩, ⟨.rw1c, Reg.hstEventPoisonRx, anyVal⟩, ⟨.rw1c, Reg.hstEventQueueErr, anyVal⟩, ⟨.rw1c, Reg.hstEventAlign, anyVal⟩]⟩,
  ⟨0x1200014, [], 4, 32, fun _ _ _ => [⟨.rw, Reg.hstEventEnAttErr, anyVal⟩, ⟨.rw, Reg.hstEventEnCto, anyVal⟩, ⟨.rw, Reg.hstEventEnPoisonRx, anyVal⟩, ⟨.rw, Reg.hstEventEnQueueErr, anyVal⟩, ⟨.rw, Reg.hstEventEnAlign, anyVal⟩]⟩,
  ⟨0x1200018, [], 8, 64, fun _ _ _ => [⟨.ro, Reg.hstAttErrOffset, anyVal⟩, ⟨.rw1c, Reg.hstAttErrCause, anyVal⟩]⟩,
  ⟨0x1200020, [], 4, 32, fun _ _ _ => [⟨.ro, Reg.hstCtoCountCount, anyVal⟩]⟩,
  ⟨0x1210000, [(16384, 0x8)], 8, 64, fun _ _ ix => let i := ix.getD 0 0; [⟨.rw, Reg.hstAttV i, anyVal⟩, ⟨.rw, Reg.hstAttWe i, anyVal⟩, ⟨.rw, Reg.hstAttAlloc i, anyVal⟩, ⟨.rw, Reg.hstAttKeyPartition i, fun _ v => decide (v < 24) || decide (v = 31)⟩, ⟨.rw, Reg.hstAttHpa i, anyVal⟩]⟩]

/-- The LNK_ registers. -/
def regsLnk : List RegDesc := [
  ⟨0xb00000, [], 4, 32, fun _ _ _ => [⟨.ro, Reg.lnkInfoLinks, anyVal⟩, ⟨.ro, Reg.lnkInfoPaths, anyVal⟩]⟩,
  ⟨0xb00010, [], 4, 32, fun _ _ _ => [⟨.rw1c, Reg.lnkEventLinkDown, anyVal⟩, ⟨.rw1c, Reg.lnkEventLinkUp, anyVal⟩, ⟨.rw1c, Reg.lnkEventMacsecFail, anyVal⟩, ⟨.rw1c, Reg.lnkEventSakNeeded, anyVal⟩, ⟨.rw1c, Reg.lnkEventPathFailed, anyVal⟩, ⟨.rw1c, Reg.lnkEventWinDrained, anyVal⟩, ⟨.rw1c, Reg.lnkEventWinErr, anyVal⟩, ⟨.rw1c, Reg.lnkEventRemoteErr, anyVal⟩]⟩,
  ⟨0xb00014, [], 4, 32, fun _ _ _ => [⟨.rw, Reg.lnkEventEnLinkDown, anyVal⟩, ⟨.rw, Reg.lnkEventEnLinkUp, anyVal⟩, ⟨.rw, Reg.lnkEventEnMacsecFail, anyVal⟩, ⟨.rw, Reg.lnkEventEnSakNeeded, anyVal⟩, ⟨.rw, Reg.lnkEventEnPathFailed, anyVal⟩, ⟨.rw, Reg.lnkEventEnWinDrained, anyVal⟩, ⟨.rw, Reg.lnkEventEnWinErr, anyVal⟩, ⟨.rw, Reg.lnkEventEnRemoteErr, anyVal⟩]⟩,
  ⟨0xb00020, [], 8, 64, fun _ _ _ => [⟨.rwf, Reg.lnkCfgUdpPort, fun _ v => decide (v ≠ 0)⟩, ⟨.rwf, Reg.lnkCfgRtoUs, fun _ v => decide (10 ≤ v) && decide (v ≤ 4000)⟩, ⟨.rwf, Reg.lnkCfgRetries, fun _ v => decide (v ≠ 0)⟩, ⟨.rwf, Reg.lnkCfgDataPcp, anyVal⟩, ⟨.rwf, Reg.lnkCfgCtrlPcp, fun w v => decide (v ≠ bits w 32 3)⟩, ⟨.rwf, Reg.lnkCfgPauseLimitMs, fun _ v => decide (v ≠ 0)⟩]⟩,
  ⟨0xb01000, [(96, 0x8)], 8, 64, fun _ _ ix => let i := ix.getD 0 0; [⟨.ro, Reg.lnkStatusState i, anyVal⟩, ⟨.ro, Reg.lnkStatusMacsecReady i, anyVal⟩, ⟨.ro, Reg.lnkStatusPaused i, anyVal⟩, ⟨.ro, Reg.lnkStatusPaths i, anyVal⟩, ⟨.ro, Reg.lnkStatusPartition i, anyVal⟩, ⟨.ro, Reg.lnkStatusDowns i, anyVal⟩]⟩,
  ⟨0xb02000, [(96, 0x40)], 64, 64, fun _ _ ix => let i := ix.getD 0 0; [⟨.rwf, Reg.lnkPortMac i, anyVal⟩, ⟨.rwf, Reg.lnkPortVid i, anyVal⟩, ⟨.rwf, Reg.lnkPortVlanEn i, anyVal⟩, ⟨.rwf, Reg.lnkPortGatewayMac i, anyVal⟩, ⟨.rwf, Reg.lnkPortIp i, anyVal⟩, ⟨.rwf, Reg.lnkPortIpv4 i, anyVal⟩, ⟨.rwf, Reg.lnkPortDscp i, anyVal⟩]⟩,
  ⟨0xb04000, [(96, 0x40)], 64, 64, fun _ _ ix => let i := ix.getD 0 0; [⟨.ro, Reg.lnkCntTxFrames i, anyVal⟩, ⟨.ro, Reg.lnkCntRxFrames i, anyVal⟩, ⟨.ro, Reg.lnkCntRxDrop i, anyVal⟩, ⟨.ro, Reg.lnkCntMacsecFail i, anyVal⟩, ⟨.ro, Reg.lnkCntRetx i, anyVal⟩, ⟨.ro, Reg.lnkCntCnpRx i, anyVal⟩, ⟨.ro, Reg.lnkCntCeRx i, anyVal⟩, ⟨.ro, Reg.lnkCntPauseNs i, anyVal⟩]⟩,
  ⟨0xb10000, [(4096, 0x20)], 32, 64, fun _ _ ix => let i := ix.getD 0 0; [⟨.rw, Reg.lnkPeerIp i, anyVal⟩, ⟨.rw, Reg.lnkPeerIpv4 i, anyVal⟩, ⟨.rw, Reg.lnkPeerV i, anyVal⟩, ⟨.rw, Reg.lnkPeerPartition i, anyVal⟩]⟩]

/-- The WIN_ registers. -/
def regsWin : List RegDesc := [
  ⟨0xb00030, [], 8, 64, fun _ _ _ => [⟨.ro, Reg.winErrHpa, anyVal⟩, ⟨.ro, Reg.winErrStatus, anyVal⟩, ⟨.ro, Reg.winErrPartition, anyVal⟩, ⟨.rw1c, Reg.winErrValid, anyVal⟩]⟩,
  ⟨0xb40000, [(2, 0x20000), (4096, 0x20)], 32, 64, fun _ _ ix => let i := ix.getD 0 0; let j := ix.getD 1 0; [⟨.ro, Reg.winWttState i j, anyVal⟩, ⟨.w1s, Reg.winWttOpen i j, anyVal⟩, ⟨.w1s, Reg.winWttClose i j, anyVal⟩, ⟨.w1s, Reg.winWttFree i j, anyVal⟩, ⟨.rw, Reg.winWttRights i j, anyVal⟩, ⟨.rw, Reg.winWttPartition i j, fun _ v => decide (v < 24) || decide (v = 31)⟩, ⟨.rw, Reg.winWttAlloc i j, anyVal⟩, ⟨.rw1c, Reg.winWttWrErr i j, anyVal⟩, ⟨.rw1c, Reg.winWttOpenErr i j, anyVal⟩, ⟨.ro, Reg.winWttGen i j, anyVal⟩, ⟨.rw, Reg.winWttSizeLog2 i j, fun _ v => decide (16 ≤ v) && decide (v ≤ 36)⟩, ⟨.rw, Reg.winWttWkey i j, anyVal⟩, ⟨.rw, Reg.winWttBase i j, anyVal⟩, ⟨.ro, Reg.winWttDrain i j, anyVal⟩]⟩,
  ⟨0xb80000, [(1008, 0x20)], 32, 64, fun _ _ ix => let i := ix.getD 0 0; [⟨.rw, Reg.winImportV i, anyVal⟩, ⟨.rw, Reg.winImportRights i, anyVal⟩, ⟨.rw, Reg.winImportPartition i, anyVal⟩, ⟨.rw, Reg.winImportPeer i, anyVal⟩, ⟨.rw, Reg.winImportWindow i, anyVal⟩, ⟨.rw, Reg.winImportGen i, anyVal⟩, ⟨.rw, Reg.winImportSizeLog2 i, fun _ v => decide (16 ≤ v) && decide (v ≤ 36)⟩, ⟨.rw, Reg.winImportWkey i, anyVal⟩]⟩]

/-- The COL_ registers. -/
def regsCol : List RegDesc := [
  ⟨0xc00000, [], 4, 32, fun _ _ _ => [⟨.ro, Reg.colInfoGroups, anyVal⟩, ⟨.ro, Reg.colInfoMaxMembers, anyVal⟩]⟩,
  ⟨0xc00010, [], 4, 32, fun _ _ _ => [⟨.rw1c, Reg.colEventAborted, anyVal⟩, ⟨.rw1c, Reg.colEventSquallSent, anyVal⟩, ⟨.rw1c, Reg.colEventSquallRx, anyVal⟩, ⟨.rw1c, Reg.colEventMismatch, anyVal⟩]⟩,
  ⟨0xc00014, [], 4, 32, fun _ _ _ => [⟨.rw, Reg.colEventEnAborted, anyVal⟩, ⟨.rw, Reg.colEventEnSquallSent, anyVal⟩, ⟨.rw, Reg.colEventEnSquallRx, anyVal⟩, ⟨.rw, Reg.colEventEnMismatch, anyVal⟩]⟩,
  ⟨0xc01000, [(64, 0x20)], 32, 64, fun _ _ ix => let i := ix.getD 0 0; [⟨.ro, Reg.colGroupStatusState i, anyVal⟩, ⟨.ro, Reg.colGroupStatusPartition i, anyVal⟩, ⟨.ro, Reg.colGroupStatusRank i, anyVal⟩, ⟨.ro, Reg.colGroupStatusMembers i, anyVal⟩, ⟨.ro, Reg.colGroupStatusSlots i, anyVal⟩, ⟨.ro, Reg.colGroupStatusSeq i, anyVal⟩, ⟨.ro, Reg.colGroupStatusLastStatus i, anyVal⟩, ⟨.ro, Reg.colGroupStatusLastOrigin i, anyVal⟩, ⟨.ro, Reg.colGroupStatusExtUsedUs i, anyVal⟩, ⟨.ro, Reg.colGroupStatusSquallsRx i, anyVal⟩]⟩]

/-- The ISO_ registers. -/
def regsIso : List RegDesc := [
  ⟨0xd00010, [], 4, 32, fun _ _ _ => [⟨.rw1c, Reg.isoEventBrake, anyVal⟩, ⟨.rw1c, Reg.isoEventThrottle, anyVal⟩, ⟨.rw1c, Reg.isoEventCritical, anyVal⟩, ⟨.rw1c, Reg.isoEventCoolant, anyVal⟩, ⟨.rw1c, Reg.isoEventHbLost, anyVal⟩, ⟨.rw1c, Reg.isoEventUnderMin, anyVal⟩, ⟨.rw1c, Reg.isoEventRailFail, anyVal⟩, ⟨.rw1c, Reg.isoEventPumpFail, anyVal⟩]⟩,
  ⟨0xd00014, [], 4, 32, fun _ _ _ => [⟨.rw, Reg.isoEventEnBrake, anyVal⟩, ⟨.rw, Reg.isoEventEnThrottle, anyVal⟩, ⟨.rw, Reg.isoEventEnCritical, anyVal⟩, ⟨.rw, Reg.isoEventEnCoolant, anyVal⟩, ⟨.rw, Reg.isoEventEnHbLost, anyVal⟩, ⟨.rw, Reg.isoEventEnUnderMin, anyVal⟩, ⟨.rw, Reg.isoEventEnRailFail, anyVal⟩, ⟨.rw, Reg.isoEventEnPumpFail, anyVal⟩]⟩,
  ⟨0xd00018, [], 4, 32, fun _ _ _ => [⟨.ro, Reg.isoStatusBrakePin, anyVal⟩, ⟨.ro, Reg.isoStatusBrakeSw, anyVal⟩, ⟨.ro, Reg.isoStatusCoolant, anyVal⟩, ⟨.ro, Reg.isoStatusHbLost, anyVal⟩, ⟨.ro, Reg.isoStatusUnderMin, anyVal⟩, ⟨.ro, Reg.isoStatusRailFail, anyVal⟩, ⟨.ro, Reg.isoStatusChipletAlarm, anyVal⟩, ⟨.ro, Reg.isoStatusCritical, anyVal⟩]⟩,
  ⟨0xd0001c, [], 4, 32, fun _ _ _ => [⟨.rw, Reg.isoAlertEnEn, anyVal⟩]⟩,
  ⟨0xd00020, [], 8, 64, fun _ _ _ => [⟨.ro, Reg.isoBudgetInForceW, anyVal⟩, ⟨.ro, Reg.isoBudgetSource, anyVal⟩, ⟨.ro, Reg.isoBudgetMinW, anyVal⟩, ⟨.ro, Reg.isoBudgetCanLimitW, anyVal⟩]⟩,
  ⟨0xd00030, [], 4, 32, fun _ _ _ => [⟨.rw, Reg.isoThermCfgThrottleC, fun _ v => decide (80 ≤ v) && decide (v ≤ 115)⟩, ⟨.rw, Reg.isoThermCfgCritC, fun w v => decide (bits w 0 8 + 5 ≤ v) && decide (v ≤ 120)⟩]⟩,
  ⟨0xd00038, [], 8, 64, fun _ _ _ => [⟨.rw, Reg.isoPumpCfgMinDuty, fun _ v => decide (v ≤ 100)⟩, ⟨.rw, Reg.isoPumpCfgTLow, anyVal⟩, ⟨.rw, Reg.isoPumpCfgTHigh, fun w v => decide (bits w 8 8 < v)⟩, ⟨.rw, Reg.isoPumpCfgTachMin, anyVal⟩, ⟨.rw, Reg.isoPumpCfgPpr, fun _ v => decide (v ≠ 3)⟩]⟩,
  ⟨0xd00040, [(2, 0x8)], 8, 64, fun _ _ ix => let i := ix.getD 0 0; [⟨.ro, Reg.isoPumpDuty i, anyVal⟩, ⟨.rw1c, Reg.isoPumpFail i, anyVal⟩, ⟨.ro, Reg.isoPumpRpm i, anyVal⟩]⟩,
  ⟨0xd00050, [], 4, 32, fun _ _ _ => [⟨.rw, Reg.isoBrakeSwReq, anyVal⟩]⟩,
  ⟨0xd00058, [], 4, 32, fun _ _ _ => [⟨.ro, Reg.isoTripValid, anyVal⟩, ⟨.ro, Reg.isoTripStack, anyVal⟩, ⟨.ro, Reg.isoTripDie, anyVal⟩, ⟨.ro, Reg.isoTripSource, anyVal⟩, ⟨.ro, Reg.isoTripTempC, anyVal⟩]⟩,
  ⟨0xd00100, [(2, 0x8)], 8, 64, fun _ _ ix => let i := ix.getD 0 0; [⟨.ro, Reg.isoDieGrant i, anyVal⟩, ⟨.ro, Reg.isoDiePower i, anyVal⟩, ⟨.ro, Reg.isoDieHottestC i, anyVal⟩, ⟨.ro, Reg.isoDieHottest i, anyVal⟩]⟩,
  ⟨0xd00200, [(24, 0x8)], 8, 64, fun _ _ ix => let i := ix.getD 0 0; [⟨.ro, Reg.isoStackGrant i, anyVal⟩, ⟨.ro, Reg.isoStackPower i, anyVal⟩]⟩,
  ⟨0xd00400, [(2, 0x100), (64, 0x4)], 4, 32, fun _ _ ix => let i := ix.getD 0 0; let j := ix.getD 1 0; [⟨.ro, Reg.isoSensorTempC i j, anyVal⟩, ⟨.ro, Reg.isoSensorValid i j, anyVal⟩]⟩]

/-- The MBX_ registers. -/
def regsMbx : List RegDesc := [
  ⟨0x1402000, [], 4, 32, fun _ _ _ => [⟨.w1s, Reg.mbxDoorbellGo, anyVal⟩]⟩,
  ⟨0x1402008, [], 4, 32, fun _ _ _ => [⟨.rw1c, Reg.mbxStatusDone, anyVal⟩, ⟨.rw, Reg.mbxStatusIrqEn, anyVal⟩]⟩]

/-- The SEC_ registers. -/
def regsSec : List RegDesc := [
  ⟨0xf00010, [], 4, 32, fun _ _ _ => [⟨.rw1c, Reg.secEventTdispError, anyVal⟩, ⟨.rw1c, Reg.secEventObserved, anyVal⟩, ⟨.rw1c, Reg.secEventDomain, anyVal⟩, ⟨.rw1c, Reg.secEventMacMismatch, anyVal⟩, ⟨.rw1c, Reg.secEventDomainAccess, anyVal⟩]⟩,
  ⟨0xf00014, [], 4, 32, fun _ _ _ => [⟨.rw, Reg.secEventEnTdispError, anyVal⟩, ⟨.rw, Reg.secEventEnObserved, anyVal⟩, ⟨.rw, Reg.secEventEnDomain, anyVal⟩, ⟨.rw, Reg.secEventEnMacMismatch, anyVal⟩, ⟨.rw, Reg.secEventEnDomainAccess, anyVal⟩]⟩,
  ⟨0xf00018, [], 4, 32, fun _ _ _ => [⟨.ro, Reg.secStatusReady, anyVal⟩, ⟨.ro, Reg.secStatusUpdateStaged, anyVal⟩, ⟨.ro, Reg.secStatusSessions, anyVal⟩, ⟨.ro, Reg.secStatusDomains, anyVal⟩]⟩,
  ⟨0xf00020, [], 4, 32, fun _ _ _ => [⟨.ro, Reg.secObservedMap, anyVal⟩]⟩,
  ⟨0xf00024, [], 4, 32, fun _ _ _ => [⟨.ro, Reg.secDebugMap, anyVal⟩]⟩,
  ⟨0xf00100, [(49, 0x8)], 4, 32, fun _ _ ix => let i := ix.getD 0 0; [⟨.ro, Reg.secTdispState i, anyVal⟩, ⟨.ro, Reg.secTdispBound i, anyVal⟩, ⟨.ro, Reg.secTdispStream i, anyVal⟩]⟩,
  ⟨0xf01000, [(64, 0x40)], 64, 64, fun _ _ ix => let i := ix.getD 0 0; [⟨.ro, Reg.secDomainState i, anyVal⟩, ⟨.ro, Reg.secDomainPartition i, anyVal⟩, ⟨.ro, Reg.secDomainDone i, anyVal⟩, ⟨.ro, Reg.secDomainBase i, anyVal⟩, ⟨.ro, Reg.secDomainGranules i, anyVal⟩, ⟨.ro, Reg.secDomainBundleId i, anyVal⟩]⟩]

/-- The MOR_ registers. -/
def regsMor : List RegDesc := [
  ⟨0xe00000, [], 4, 32, fun _ _ _ => [⟨.ro, Reg.morInfoSlots, anyVal⟩]⟩,
  ⟨0xe00010, [], 4, 32, fun _ _ _ => [⟨.rw1c, Reg.morEventCorrected, anyVal⟩, ⟨.rw1c, Reg.morEventDeferred, anyVal⟩, ⟨.rw1c, Reg.morEventPartFatal, anyVal⟩, ⟨.rw1c, Reg.morEventHubFatal, anyVal⟩, ⟨.rw1c, Reg.morEventLost, anyVal⟩]⟩,
  ⟨0xe00014, [], 4, 32, fun _ _ _ => [⟨.rw, Reg.morEventEnCorrected, anyVal⟩, ⟨.rw, Reg.morEventEnDeferred, anyVal⟩, ⟨.rw, Reg.morEventEnPartFatal, anyVal⟩, ⟨.rw, Reg.morEventEnHubFatal, anyVal⟩, ⟨.rw, Reg.morEventEnLost, anyVal⟩]⟩,
  ⟨0xe00018, [], 4, 32, fun _ _ _ => [⟨.ro, Reg.morNextSeqSeq, anyVal⟩]⟩,
  ⟨0xe0001c, [], 4, 32, fun _ _ _ => [⟨.ro, Reg.morHeldCount, anyVal⟩]⟩,
  ⟨0xe00020, [], 4, 32, fun _ _ _ => [⟨.ro, Reg.morLostCount, anyVal⟩]⟩,
  ⟨0xe00028, [], 4, 32, fun _ _ _ => [⟨.wo, Reg.morClearUpto, anyVal⟩]⟩,
  ⟨0xe10000, [(4096, 0x40)], 64, 64, fun _ _ ix => let i := ix.getD 0 0; [⟨.ro, Reg.morRecordRecord i, anyVal⟩]⟩]

/-- The MSI-X table of a function (R346 Table 4, R352). -/
def regsMsix : List RegDesc := [
  ⟨0x1300000, [(2048, 16)], 16, 32, fun fn _ ix => let i := ix.getD 0 0; [⟨.rw, Reg.msixAddr fn i, anyVal⟩, ⟨.rw, Reg.msixData fn i, anyVal⟩, ⟨.rw, Reg.msixMask fn i, anyVal⟩]⟩]

/-- Every register of PF BAR0. -/
def regMap : List RegDesc := regsCfg ++ regsGlb ++ regsFlc ++ regsDew ++ regsHbm ++ regsFrn ++ regsDrf ++ regsXlt ++ regsSite ++ regsQos ++ regsPrt ++ regsQ ++ regsHst ++ regsLnk ++ regsWin ++ regsCol ++ regsIso ++ regsMbx ++ regsSec ++ regsMor ++ regsMsix

/-- The event registers (each with its enable register 4 bytes above it) and the PF MSI-X entry of the pair
(Table 7 of 15). -/
def eventRegs : List (Nat × Nat) := [(0x100030, 0), (0x200010, 1), (0x1100400, 2), (0x500310, 3), (0x400010, 3), (0x600010, 4), (0x700010, 5), (0x800010, 6), (0x900010, 7), (0xa00010, 8), (0x1200010, 15), (0xb00010, 11), (0xc00010, 12), (0xd00010, 10), (0xf00010, 13), (0xe00010, 9)]

/-- The indices of displacement `d` in an array of dimensions `dims`, and what is left within the entry. -/
def splitIx (d : Nat) : List (Nat × Nat) → Option (List Nat × Nat)
  | [] => some ([], d)
  | (n, st) :: r =>
    if d / st < n then
      match splitIx (d % st) r with
      | some (ix, q) => some (d / st :: ix, q)
      | none => none
    else none

/-- The register that holds BAR0 offset `off`, the indices of its entry, and the byte within the entry. -/
def findReg (off : Nat) : List RegDesc → Option (RegDesc × List Nat × Nat)
  | [] => none
  | r :: rs =>
    if off < r.base then findReg off rs
    else
      match splitIx (off - r.base) r.dims with
      | some (ix, q) => if q < r.bytes then some (r, ix, q) else findReg off rs
      | none => findReg off rs

end Sys2Proof.Machine
end

