-- ==== Sys2Proof/Machine/PciReg.lean ====
section
/-! DEFINITION. The bits of each function's PCIe configuration space that the hub's rules read (15: R343-R345, R351, R353,
R362-R367), as register fields above the BAR0 offsets. Function 0 is the PF, 1-48 the VFs. Reset values that PCIe fixes and
the spec does not repeat are PRESUMED (log entry 2). -/

namespace Sys2Proof.Machine.Pci

/-- A field at a configuration offset of a function. -/
def at' (fn off lo len rst : Nat) : Fld := ⟨0x100000000000 + fn * 0x1000 + off, lo, len, rst⟩

/-- Command.Memory Space Enable (R365). -/
def mse (fn : Nat) : Fld := at' fn 0x04 1 1 0
/-- Command.Bus Master Enable (R364). -/
def bme (fn : Nat) : Fld := at' fn 0x04 2 1 0
/-- Command.Parity Error Response and SERR# Enable (R344): bits 6 and 8. -/
def perr (fn : Nat) : Fld := at' fn 0x04 6 1 0
/-- Command.SERR# Enable (R344). -/
def serr (fn : Nat) : Fld := at' fn 0x04 8 1 0
/-- BAR0 bus address (R344). -/
def bar0 (fn : Nat) : Fld := at' fn 0x10 0 64 0
/-- BAR2 bus address (R344). -/
def bar2 (fn : Nat) : Fld := at' fn 0x18 0 64 0
/-- Power state D3hot (R343). -/
def d3 (fn : Nat) : Fld := at' fn 0x44 0 1 0
/-- MSI-X Enable (PCIe). -/
def msixEn (fn : Nat) : Fld := at' fn 0x50 31 1 0
/-- MSI-X Function Mask (PCIe). -/
def msixFmask (fn : Nat) : Fld := at' fn 0x50 30 1 0
/-- Device Control 2 Completion Timeout Value (R362). -/
def ctoValue (fn : Nat) : Fld := at' fn 0x98 0 4 0
/-- AER uncorrectable error status (R363). -/
def aerUnc (fn : Nat) : Fld := at' fn 0x104 0 32 0
/-- AER uncorrectable error mask (R363). -/
def aerUncMask (fn : Nat) : Fld := at' fn 0x108 0 32 0
/-- AER uncorrectable error severity (R363): PCIe's default. -/
def aerUncSev (fn : Nat) : Fld := at' fn 0x10C 0 32 0x00462030
/-- AER correctable error status (R363). -/
def aerCor (fn : Nat) : Fld := at' fn 0x110 0 32 0
/-- AER correctable error mask (R363): PCIe's default masks Advisory Non-Fatal, Corrected Internal and Header Log Overflow. -/
def aerCorMask (fn : Nat) : Fld := at' fn 0x114 0 32 0xE000
/-- Header Log: the first logged TLP header (R363). -/
def aerHeader (fn : Nat) : Fld := at' fn 0x11C 0 128 0
/-- SR-IOV VF Enable (R351), of the PF. -/
def vfEnable : Fld := at' 0 0x2A8 0 1 0
/-- SR-IOV NumVFs (R351), of the PF. -/
def numVfs : Fld := at' 0 0x2B0 0 16 0
/-- SR-IOV VF BAR0 base (R351), of the PF. -/
def vfBar0 : Fld := at' 0 0x2C4 0 64 0
/-- ATS Enable (R249). -/
def atsEn (fn : Nat) : Fld := at' fn 0x2E4 31 1 0
/-- Page Request Enable (R249). -/
def priEn (fn : Nat) : Fld := at' fn 0x2F4 0 1 0
/-- A Function Level Reset of the function is running (R366, R367). -/
def flr (fn : Nat) : Fld := at' fn 0x78 15 1 0

end Sys2Proof.Machine.Pci
end

