-- ==== Sys2Proof/Machine/Num.lean ====
section
/-! DEFINITION. Exact numbers and the one rounding of every conversion and arithmetic result (06: R144-R146, R151-R153;
05: R123, R124). A finite number is a sign, a natural mantissa and a power of two; every decode is exact, every encode
rounds once. -/

namespace Sys2Proof.Machine

/-- An exact value: NaN, a signed infinity, or (-1)^s × m × 2^e. -/
inductive Val where
  | nan
  | inf (s : Bool)
  | fin (s : Bool) (m : Nat) (e : Int)
  deriving DecidableEq, Repr

/-- The rounding modes of R151, coded 0-4 as in FCTRL.ROUND. -/
inductive Rnd where
  | rne | rz | rdn | rup | stoch
  deriving DecidableEq, Repr

/-- The mode a code names (R151); codes 5-7 are reserved and never stored. -/
def Rnd.ofCode (c : Nat) : Rnd :=
  match c with
  | 0 => .rne
  | 1 => .rz
  | 2 => .rdn
  | 3 => .rup
  | _ => .stoch

/-- FFLAGS (Table 8 of 05) as a record; `ofl` is OF. -/
structure FFlags where
  nv : Bool := false
  dz : Bool := false
  ofl : Bool := false
  uf : Bool := false
  nx : Bool := false
  sat : Bool := false
  esc : Bool := false
  escovf : Bool := false
  deriving DecidableEq, Repr

/-- Flags are set by OR (R136). -/
def FFlags.or (a b : FFlags) : FFlags :=
  ⟨a.nv || b.nv, a.dz || b.dz, a.ofl || b.ofl, a.uf || b.uf, a.nx || b.nx, a.sat || b.sat, a.esc || b.esc,
    a.escovf || b.escovf⟩

/-- The bits of Table 8, bit 0 NV to bit 7 ESCOVF. -/
def FFlags.toNat (f : FFlags) : Nat :=
  b2n f.nv + 2 * b2n f.dz + 4 * b2n f.ofl + 8 * b2n f.uf + 16 * b2n f.nx + 32 * b2n f.sat + 64 * b2n f.esc +
    128 * b2n f.escovf

/-- No flag. -/
def FFlags.none : FFlags := {}

/-- A floating-point element format (R144, Table 3): exponent and mantissa bits, bias, whether it has Inf, the code of
its canonical NaN if it has one, and its largest finite code. -/
structure FltFmt where
  eb : Nat
  mb : Nat
  bias : Int
  hasInf : Bool
  qnan : Option Nat
  maxCode : Nat
  deriving DecidableEq, Repr

/-- Table 3 of 06. -/
def fp32 : FltFmt := ⟨8, 23, 127, true, some 0x7FC00000, 0x7F7FFFFF⟩
/-- Table 3 of 06. -/
def bf16 : FltFmt := ⟨8, 7, 127, true, some 0x7FC0, 0x7F7F⟩
/-- Table 3 of 06. -/
def fp16 : FltFmt := ⟨5, 10, 15, true, some 0x7E00, 0x7BFF⟩
/-- Table 3 of 06. -/
def e4m3 : FltFmt := ⟨4, 3, 7, false, some 0x7F, 0x7E⟩
/-- Table 3 of 06. -/
def e5m2 : FltFmt := ⟨5, 2, 15, true, some 0x7E, 0x7B⟩
/-- Table 3 of 06. -/
def e2m3 : FltFmt := ⟨2, 3, 1, false, none, 0x1F⟩
/-- Table 3 of 06. -/
def e3m2 : FltFmt := ⟨3, 2, 3, false, none, 0x1F⟩
/-- Table 3 of 06. -/
def e2m1 : FltFmt := ⟨2, 1, 1, false, none, 0x7⟩
/-- IEEE 754 binary64, the arithmetic of the Dewpoint accumulators (R172). -/
def fp64 : FltFmt := ⟨11, 52, 1023, true, some 0x7FF8000000000000, 0x7FEFFFFFFFFFFFFF⟩

/-- The width in bits of a floating-point format. -/
def FltFmt.width (f : FltFmt) : Nat := 1 + f.eb + f.mb

/-- The sign bit of a code. -/
def FltFmt.signOf (f : FltFmt) (c : Nat) : Bool := bitAt c (f.eb + f.mb)

/-- The exact value of a code (R144, the decode of R153). -/
def FltFmt.dec (f : FltFmt) (c : Nat) : Val :=
  let s := f.signOf c
  let e := bits c f.mb f.eb
  let m := bits c 0 f.mb
  if f.hasInf && decide (e = 2 ^ f.eb - 1) then (if m = 0 then .inf s else .nan)
  else if !f.hasInf && decide (f.qnan = some (bits c 0 (f.eb + f.mb))) then .nan
  else if e = 0 then .fin s m (1 - f.bias - f.mb)
  else .fin s (2 ^ f.mb + m) ((e : Int) - f.bias - f.mb)

/-- A signalling NaN code of an IEEE format: the top mantissa bit is 0 (R124). -/
def FltFmt.isSnan (f : FltFmt) (c : Nat) : Bool :=
  decide (f.dec c = .nan) && f.hasInf && !bitAt c (f.mb - 1)

/-- floor(m × 2^e), for the magnitude of a finite value. -/
def floorShift (m : Nat) (e : Int) : Nat := if 0 ≤ e then m * 2 ^ e.toNat else m / 2 ^ (-e).toNat

/-- Whether m × 2^e is no integer. -/
def hasFrac (m : Nat) (e : Int) : Bool := if 0 ≤ e then false else decide (m % 2 ^ (-e).toNat ≠ 0)

/-- round_mag of R153: the magnitude m × 2^e rounded to an integer. -/
def roundMag (m : Nat) (e : Int) (mode : Rnd) (s : Bool) (d : Nat) : Nat :=
  let lo := floorShift m e
  if !hasFrac m e then lo
  else
    let k := (-e).toNat
    let r := m % 2 ^ k
    match mode with
    | .rne => if 2 * r < 2 ^ k then lo else if 2 * r = 2 ^ k then lo + lo % 2 else lo + 1
    | .rz => lo
    | .rdn => if s then lo + 1 else lo
    | .rup => if s then lo else lo + 1
    | .stoch => if 2 ^ 24 ≤ r * 2 ^ 24 / 2 ^ k + d then lo + 1 else lo

/-- floor(log2(m × 2^e)) for m > 0. -/
def ilog2 (m : Nat) (e : Int) : Int := (Nat.log2 m : Int) + e

/-- The sign as the top bit of a code. -/
def FltFmt.withSign (f : FltFmt) (s : Bool) (c : Nat) : Nat := c + b2n s * 2 ^ (f.eb + f.mb)

/-- The code of infinity without sign. -/
def FltFmt.infCode (f : FltFmt) : Nat := (2 ^ f.eb - 1) * 2 ^ f.mb

/-- The encode of R153 for a floating-point destination; `ieee` says the destination is FP32, BF16 or FP16, whose
overflow follows IEEE 754. The draw `d` is used by STOCH alone. -/
def FltFmt.enc (f : FltFmt) (ieee : Bool) (v : Val) (mode : Rnd) (d : Nat) : Nat × FFlags :=
  match v with
  | .nan => match f.qnan with
    | some q => (q, FFlags.none)
    | none => (0, { nv := true })
  | .inf s => if f.hasInf then (f.withSign s f.infCode, FFlags.none) else (f.withSign s f.maxCode, { sat := true })
  | .fin s m e =>
    if m = 0 then (f.withSign s 0, FFlags.none)
    else
      let ex := max (ilog2 m e) (1 - f.bias)
      let n := roundMag m (e - (ex - f.mb)) mode s d
      let nx := hasFrac m (e - (ex - f.mb))
      let tiny := decide (ilog2 m e < 1 - f.bias)
      -- n × 2^(ex - mb), renormalised when the rounding carried out
      let (n1, ex1) := if n = 2 ^ (f.mb + 1) then (2 ^ f.mb, ex + 1) else (n, ex)
      let code := if n1 < 2 ^ f.mb then n1 else ((ex1 + f.bias).toNat) * 2 ^ f.mb + (n1 - 2 ^ f.mb)
      if f.maxCode < code then
        if ieee then
          let toInf := match mode with
            | .rne => true
            | .stoch => true
            | .rz => false
            | .rdn => s
            | .rup => !s
          (f.withSign s (if toInf then f.infCode else f.maxCode), { ofl := true, nx := true })
        else (f.withSign s f.maxCode, { nx := nx, sat := true, uf := nx && tiny })
      else (f.withSign s code, { nx := nx, uf := nx && tiny })

/-- The encode of R153 for an integer format of range [lo, hi] and width `w` (two's complement). -/
def encInt (w : Nat) (lo hi : Int) (v : Val) (mode : Rnd) (d : Nat) : Nat × FFlags :=
  match v with
  | .nan => (0, { nv := true })
  | .inf s => (ofSigned w (if s then lo else hi), { sat := true })
  | .fin s m e =>
    let n := roundMag m e mode s d
    let i : Int := if s then -(n : Int) else n
    let nx := hasFrac m e
    if hi < i then (ofSigned w hi, { nx := nx, sat := true })
    else if i < lo then (ofSigned w lo, { nx := nx, sat := true })
    else (ofSigned w i, { nx := nx })

/-- A natural-number value of either sign as a Val. -/
def valOfInt (i : Int) : Val := .fin (decide (i < 0)) i.natAbs 0

/-- The exact negation. -/
def Val.neg : Val → Val
  | .nan => .nan
  | .inf s => .inf (!s)
  | .fin s m e => .fin (!s) m e

/-- The sign of a value (a NaN has none: false). -/
def Val.sign : Val → Bool
  | .nan => false
  | .inf s => s
  | .fin s _ _ => s

/-- Whether the value is a zero. -/
def Val.isZero : Val → Bool
  | .fin _ m _ => decide (m = 0)
  | _ => false

/-- The signed integer of a finite value scaled to exponent `e0 ≤ e`. -/
def scaledInt (s : Bool) (m : Nat) (e e0 : Int) : Int :=
  let n : Int := (m * 2 ^ (e - e0).toNat : Nat)
  if s then -n else n

/-- The exact sum of two finite values; an exact zero of unlike zeros or of a cancellation takes sign `zs` (IEEE 754). -/
def addFin (s1 : Bool) (m1 : Nat) (e1 : Int) (s2 : Bool) (m2 : Nat) (e2 : Int) (zs : Bool) : Val :=
  let e0 := min e1 e2
  let i := scaledInt s1 m1 e1 e0 + scaledInt s2 m2 e2 e0
  if i = 0 then
    (if m1 = 0 && m2 = 0 && decide (s1 = s2) then .fin s1 0 0 else .fin zs 0 0)
  else .fin (decide (i < 0)) i.natAbs e0

/-- The exact sum; the second component says the operation is invalid (∞ − ∞). -/
def Val.add (a b : Val) (zs : Bool) : Val × Bool :=
  match a, b with
  | .nan, _ => (.nan, false)
  | _, .nan => (.nan, false)
  | .inf s, .inf t => if s = t then (.inf s, false) else (.nan, true)
  | .inf s, .fin _ _ _ => (.inf s, false)
  | .fin _ _ _, .inf t => (.inf t, false)
  | .fin s1 m1 e1, .fin s2 m2 e2 => (addFin s1 m1 e1 s2 m2 e2 zs, false)

/-- The exact product; the second component says the operation is invalid (0 × ∞). -/
def Val.mul (a b : Val) : Val × Bool :=
  match a, b with
  | .nan, _ => (.nan, false)
  | _, .nan => (.nan, false)
  | .inf s, .inf t => (.inf (s != t), false)
  | .inf s, .fin t m _ => if m = 0 then (.nan, true) else (.inf (s != t), false)
  | .fin s m _, .inf t => if m = 0 then (.nan, true) else (.inf (s != t), false)
  | .fin s1 m1 e1, .fin s2 m2 e2 => (.fin (s1 != s2) (m1 * m2) (e1 + e2), false)

/-- A quotient of naturals carried to at least 70 significant bits with a sticky last bit: it rounds, at any precision
up to 64 bits, as the exact quotient does. -/
def divSticky (m1 : Nat) (e1 : Int) (m2 : Nat) (e2 : Int) : Nat × Int :=
  let k := 70 + Nat.log2 m2
  let q := m1 * 2 ^ k / m2
  let r := m1 * 2 ^ k % m2
  (2 * q + b2n (decide (r ≠ 0)), e1 - e2 - k - 1)

/-- The quotient, whether the operation is invalid (0/0, ∞/∞) and whether it is a division of a finite non-zero value by
zero. -/
def Val.div (a b : Val) : Val × Bool × Bool :=
  match a, b with
  | .nan, _ => (.nan, false, false)
  | _, .nan => (.nan, false, false)
  | .inf _, .inf _ => (.nan, true, false)
  | .inf s, .fin t _ _ => (.inf (s != t), false, false)
  | .fin s _ _, .inf t => (.fin (s != t) 0 0, false, false)
  | .fin s1 m1 e1, .fin s2 m2 e2 =>
    if m2 = 0 then (if m1 = 0 then (.nan, true, false) else (.inf (s1 != s2), false, true))
    else if m1 = 0 then (.fin (s1 != s2) 0 0, false, false)
    else
      let (q, e) := divSticky m1 e1 m2 e2
      (.fin (s1 != s2) q e, false, false)

/-- The integer square root, bit by bit from bit `b - 1` down. -/
def isqrtFrom (b n r : Nat) : Nat :=
  match b with
  | 0 => r
  | b + 1 => if (r + 2 ^ b) * (r + 2 ^ b) ≤ n then isqrtFrom b n (r + 2 ^ b) else isqrtFrom b n r

/-- The largest r with r × r ≤ n. -/
def isqrt (n : Nat) : Nat := isqrtFrom (Nat.log2 n / 2 + 1) n 0

/-- The square root, carried with a sticky last bit, and whether the operation is invalid (a negative operand). -/
def Val.sqrt (a : Val) : Val × Bool :=
  match a with
  | .nan => (.nan, false)
  | .inf s => if s then (.nan, true) else (.inf false, false)
  | .fin s m e =>
    if m = 0 then (.fin s 0 0, false)
    else if s then (.nan, true)
    else
      -- an even exponent below e with the mantissa widened by at least 140 bits
      let k := 140 + (e % 2).toNat
      let n := m * 2 ^ k
      let r := isqrt n
      (.fin false (2 * r + b2n (decide (r * r ≠ n))) ((e - k) / 2 - 1), false)

/-- The exact comparison of two values that are no NaN: less, equal or greater. -/
def Val.cmp (a b : Val) : Ordering :=
  match a, b with
  | .nan, _ => .eq
  | _, .nan => .eq
  | .inf s, .inf t => if s = t then .eq else if s then .lt else .gt
  | .inf s, .fin _ _ _ => if s then .lt else .gt
  | .fin _ _ _, .inf t => if t then .gt else .lt
  | .fin s1 m1 e1, .fin s2 m2 e2 =>
    let e0 := min e1 e2
    compare (scaledInt s1 m1 e1 e0) (scaledInt s2 m2 e2 e0)

/-- The magnitude comparison of two finite values: |a| < |b|. -/
def magLt (m1 : Nat) (e1 : Int) (m2 : Nat) (e2 : Int) : Bool :=
  let e0 := min e1 e2
  decide (m1 * 2 ^ (e1 - e0).toNat < m2 * 2 ^ (e2 - e0).toNat)

/-- The least X with m × 2^e ≤ q × 2^X, that is ceil(log2(m × 2^e / q)), for m, q > 0. -/
def ceilLog2Div (m : Nat) (e : Int) (q : Nat) : Int :=
  let x0 := ilog2 m e - Nat.log2 q - 1
  if !magLt q x0 m e then x0
  else if !magLt q (x0 + 1) m e then x0 + 1
  else x0 + 2

end Sys2Proof.Machine
end

