-- ==== Sys2Proof/Machine/Formats.lean ====
section
/-! DEFINITION. The element formats, packing, block scaling and escapes of 06 (R142-R159). -/

namespace Sys2Proof.Machine

/-- A format byte (R142, Table 1): CODE, BLK, ESC. -/
structure FmtByte where
  code : Nat
  blk : Bool
  esc : Bool
  deriving DecidableEq, Repr

/-- Table 1 of 06. -/
def FmtByte.ofNat (b : Nat) : FmtByte := ⟨bits b 0 4, bitAt b 4, bitAt b 5⟩

/-- Whether a format byte is a legal combination of Table 2 with bits [7:6] zero (R142, R143). -/
def fmtLegal (b : Nat) : Bool :=
  let f := FmtByte.ofNat b
  decide (b < 64) && decide (f.code < 12) &&
    (if f.esc then f.blk && (decide (5 ≤ f.code) && decide (f.code ≠ 8))
     else if f.blk then decide (3 ≤ f.code) else true)

/-- The element width in bits of a format code (Tables 3 and R145, R147). -/
def fmtBits (c : Nat) : Nat :=
  match c with
  | 0 => 32
  | 1 => 16
  | 2 => 16
  | 3 => 8
  | 4 => 8
  | 5 => 6
  | 6 => 6
  | 7 => 4
  | 8 => 8
  | 9 => 4
  | 10 => 3
  | 11 => 2
  | _ => 0

/-- The floating-point format of codes 0x0-0x7. -/
def fltOf (c : Nat) : Option FltFmt :=
  match c with
  | 0 => some fp32
  | 1 => some bf16
  | 2 => some fp16
  | 3 => some e4m3
  | 4 => some e5m2
  | 5 => some e2m3
  | 6 => some e3m2
  | 7 => some e2m1
  | _ => none

/-- Codes 0x0-0x2, whose overflow follows IEEE 754 (R153). -/
def isIeee (c : Nat) : Bool := decide (c < 3)

/-- decode(f, c) of R153. -/
def decodeElt (c x : Nat) : Val :=
  match fltOf c with
  | some f => f.dec x
  | none =>
    if c = 11 then (if x = 1 then .fin false 1 0 else if x = 3 then .fin true 1 0 else .fin false 0 0)
    else valOfInt (toSigned (fmtBits c) x)

/-- encode(f, v, mode, d) of R153. -/
def encodeElt (c : Nat) (v : Val) (mode : Rnd) (d : Nat) : Nat × FFlags :=
  match fltOf c with
  | some f => f.enc (isIeee c) v mode d
  | none =>
    if c = 8 then encInt 8 (-128) 127 v mode d
    else if c = 9 then encInt 4 (-8) 7 v mode d
    else if c = 10 then encInt 3 (-4) 3 v mode d
    else encInt 2 (-1) 1 v mode d

/-- Whether code `x` of format `c` is the invalid TERN element 0b10 (R145). -/
def invalidElt (c x : Nat) : Bool := decide (c = 11) && decide (x = 2)

/-- The xorshift constant of R111 and R152. -/
def srConst : Nat := 0x9E3779B97F4A7C15

/-- One advance of the generator (R152), on 64 bits. -/
def srNext (st : Nat) : Nat :=
  let a := Nat.xor st (st * 2 ^ 13 % 2 ^ 64)
  let b := Nat.xor a (a / 2 ^ 7)
  Nat.xor b (b * 2 ^ 17 % 2 ^ 64)

/-- The draw of an advanced state: bits [63:40] (R152). -/
def srDraw (st : Nat) : Nat := st / 2 ^ 40 % 2 ^ 24

/-- `n` draws in increasing position order, and the state after them (R152). -/
def srDraws : Nat → Nat → List Nat × Nat
  | 0, st => ([], st)
  | n + 1, st =>
    let st1 := srNext st
    let (ds, st2) := srDraws n st1
    (srDraw st1 :: ds, st2)

/-- The state a transcoder starts a block with (R152). -/
def srSeed (va : Nat) : Nat :=
  let x := Nat.xor srConst (va % 2 ^ 64)
  if x = 0 then srConst else x

/-- Element `i` of a field packed with `w`-bit elements (R147). -/
def getElt (x w i : Nat) : Nat := bits x (i * w) w

/-- The first `n` elements of a packed field. -/
def unpack (w n x : Nat) : List Nat :=
  match n with
  | 0 => []
  | n + 1 => bits x 0 w :: unpack w n (x / 2 ^ w)

/-- Elements packed without gaps, the first in the low bits (R147). -/
def pack (w : Nat) : List Nat → Nat
  | [] => 0
  | c :: t => c % 2 ^ w + 2 ^ w * pack w t

/-- B of R147: bytes of the elements of one block. -/
def blkBytes (c : Nat) : Nat := 4 * fmtBits c

/-- The size of a block group (R148, Tables 6 and 7). -/
def groupBytes (f : FmtByte) : Nat := 32 * blkBytes f.code + 32 + (if f.esc then 128 else 0)

/-- A quantised block: element codes, scale byte, escapes (position, code), COUNT. -/
structure QBlock where
  codes : List Nat
  scale : Nat
  esc0 : Nat
  esc1 : Nat
  pos0 : Nat
  pos1 : Nat
  count : Nat
  deriving DecidableEq, Repr

/-- The sidecar word of a block (R150). -/
def QBlock.sidecar (b : QBlock) : Nat :=
  b.esc0 + b.esc1 * 2 ^ 8 + b.pos0 * 2 ^ 16 + b.pos1 * 2 ^ 21 + b.count * 2 ^ 26

/-- The register scale word of Table 6 of 05 (R128, R150): the scale byte below the sidecar's bits. -/
def QBlock.scaleWord (b : QBlock) : Nat := b.scale + 2 ^ 8 * b.sidecar

/-- A block read back from its codes, scale byte and sidecar word (R150). -/
def QBlock.of (codes : List Nat) (scale side : Nat) : QBlock :=
  ⟨codes, scale, bits side 0 8, bits side 8 8, bits side 16 5, bits side 21 5, bits side 26 2⟩

/-- The magnitude of a finite value as mantissa and exponent; NaN and Inf are excluded before (R155). -/
def magOf : Val → Nat × Int
  | .fin _ m e => (m, e)
  | _ => (0, 0)

/-- Whether a value is NaN or infinite. -/
def Val.special : Val → Bool
  | .fin _ _ _ => false
  | _ => true

/-- Insertion of position `i` into positions ordered by |x| descending, ties to the lower position (R154). -/
def insMag (mags : List (Nat × Int)) (i : Nat) (l : List Nat) : List Nat :=
  match l with
  | [] => [i]
  | j :: t =>
    let a := mags.getD i (0, 0)
    let b := mags.getD j (0, 0)
    if magLt b.1 b.2 a.1 a.2 then i :: j :: t else j :: insMag mags i t

/-- The positions below `n` ordered by |x| descending, ties to the lower position (R154). -/
def orderMag (mags : List (Nat × Int)) : Nat → List Nat
  | 0 => []
  | n + 1 => insMag mags n (orderMag mags n)

/-- a > 2 × b on magnitudes. -/
def gtTwice (a b : Nat × Int) : Bool := magLt (2 * b.1) b.2 a.1 a.2

/-- emax of R154 for the formats of the OCP rule; the others use qmax. -/
def emaxOf (c : Nat) : Option Int :=
  match c with
  | 3 => some 8
  | 4 => some 15
  | 5 => some 2
  | 6 => some 4
  | 7 => some 2
  | 8 => some 0
  | _ => none

/-- qmax of R154 for INT4, INT3 and TERN. -/
def qmaxOf (c : Nat) : Nat := if c = 9 then 7 else if c = 10 then 3 else 1

/-- The value x / 2^X × k of R154. -/
def scaleVal (v : Val) (x : Int) : Val :=
  match v with
  | .fin s m e => .fin s m (e - x)
  | w => w

/-- Quantisation of 32 values to format `c`, with or without escapes (R154, R155): the block, the flags of each element, and the
flags of the block itself. -/
def quantiseF (c : Nat) (esc : Bool) (xs : List Val) (mode : Rnd) (ds : List Nat) : QBlock × List FFlags × FFlags :=
  if xs.any Val.special then
    (⟨xs.map (fun _ => 0), 0xFF, 0, 0, 0, 0, 0⟩, [], { nv := true })
  else
    let mags := xs.map magOf
    let ord := orderMag mags xs.length
    let a (k : Nat) : Nat × Int := mags.getD (ord.getD k 0) (0, 0)
    let cnt : Nat := if !esc then 0 else if gtTwice (a 1) (a 2) then 2 else if gtTwice (a 0) (a 1) then 1 else 0
    let ovf := decide (cnt = 2) && gtTwice (a 2) (a 3)
    let b := a cnt
    let x0 : Int :=
      if b.1 = 0 then -127
      else match emaxOf c with
        | some em => ilog2 b.1 b.2 - em
        | none => ceilLog2Div b.1 b.2 (qmaxOf c)
    let x1 : Int := if cnt = 0 then x0 else max x0 (ceilLog2Div (a 0).1 (a 0).2 448)
    let x : Int := if 127 < x1 then 127 else if x1 < -127 then -127 else x1
    let k : Int := if c = 8 then 6 else 0
    let escs := (ord.take cnt).foldl kadd []
    let p0 := escs.getD 0 0
    let p1 := escs.getD 1 0
    let enc (i : Nat) : Nat × FFlags :=
      encodeElt c (scaleVal (xs.getD i .nan) (x - k)) mode (ds.getD i 0)
    let esce (i : Nat) : Nat × FFlags := encodeElt 3 (scaleVal (xs.getD i .nan) x) mode (ds.getD i 0)
    let rs := (List.range xs.length).map (fun i => if kmem escs i then ((0 : Nat), (esce i).2) else enc i)
    (⟨rs.map Prod.fst, (x + 127).toNat, if 0 < cnt then (esce p0).1 else 0, if 1 < cnt then (esce p1).1 else 0,
      if 0 < cnt then p0 else 0, if 1 < cnt then p1 else 0, cnt⟩, rs.map Prod.snd,
      { sat := decide (127 < x1), esc := decide (0 < cnt), escovf := ovf })

/-- Quantisation of 32 values with the flags joined, as an instruction reports them (R136). -/
def quantise (c : Nat) (esc : Bool) (xs : List Val) (mode : Rnd) (ds : List Nat) : QBlock × FFlags :=
  let r := quantiseF c esc xs mode ds
  (r.1, r.2.1.foldl FFlags.or r.2.2)

/-- The escape that a block gives position `i`, if any (R150, R156): ESC1 wins where both name it; COUNT 3 applies none. -/
def QBlock.escAt (b : QBlock) (i : Nat) : Option Nat :=
  if b.count = 2 ∧ b.pos1 = i then some b.esc1
  else if (b.count = 1 ∨ b.count = 2) ∧ b.pos0 = i then some b.esc0
  else none

/-- The exact values of a block (R155, R156). -/
def dequantise (c : Nat) (b : QBlock) : List Val :=
  if b.scale = 0xFF then b.codes.map (fun _ => .nan)
  else
    let x : Int := (b.scale : Int) - 127
    let k : Int := if c = 8 then 6 else 0
    b.codes.zipIdx.map (fun p =>
      match b.escAt p.2 with
      | some e => scaleVal (decodeElt 3 e) (-x)
      | none => scaleVal (decodeElt c p.1) (k - x))

/-- A malformed block: COUNT 3 (R156). -/
def QBlock.malformed (b : QBlock) : Bool := decide (b.count = 3)

/-- Conversion of a list of elements without block scale (R153, R157): equal codes are copied unchanged. -/
def convertElts (sc dc : Nat) (xs : List Nat) (mode : Rnd) (ds : List Nat) : List Nat × FFlags :=
  if sc = dc then (xs, FFlags.none)
  else
    let rs := xs.zipIdx.map (fun p => encodeElt dc (decodeElt sc p.1) mode (ds.getD p.2 0))
    (rs.map Prod.fst, rs.foldl (fun f r => f.or r.2) FFlags.none)

end Sys2Proof.Machine
end

