-- ==== Sys2Proof/Machine/StCore.lean ====
section
/-! DEFINITION. State of the vector sea (04, 05): Fraxo cores, barriers, floe DMA channels, launches and tiles. Byte
memories (private memory, floe memory, event counters) stand in the machine's one byte memory. -/

namespace Sys2Proof.Machine

/-- Why a core issues nothing, or that it may issue. -/
inductive CoreRun where
  | idle                              -- no tile (R89)
  | coWait                            -- its tile started, and other tiles of a CO_RESIDENT launch have not (R90)
  | ready                             -- running a tile
  | atBarrier (b : Nat)               -- arrived at barrier b, not released (R98)
  | waitEvent (k : Nat) (target : Nat) -- EVT WAIT on own counter k (R100, R132)
  | waitDma (ch : Nat)                -- DMAWT on a busy channel (R133)
  | dmaFull (ch : Nat)                -- DMAIS stalled on a full channel (R133)
  | parked                            -- an access is parked (R86)
  | remote                            -- accesses to a remote window are open (R384)
  | ended                             -- ENDT or an exception
  deriving DecidableEq, Repr

/-- One Fraxo core (Table 1 and Table 2 of 05). -/
structure Core where
  /-- s1-s31, 64 bits each; s0 is not stored (R108). Reset DESIGN CHOICE 0 (log entry 4). -/
  sr : Tab Word64
  /-- v0-v31, 256 bits each. Reset DESIGN CHOICE 0 (log entry 4). -/
  vr : Tab Word256
  /-- p1-p7, 64 bits each; p0 is not stored (R108). Reset DESIGN CHOICE 0 (log entry 4). -/
  pr : Tab Word64
  /-- Byte offset into the code image, 32 bits (R107). Reset DESIGN CHOICE 0 (log entry 4). -/
  pc : Word32
  /-- FFLAGS, CSR 0x000 (R110), 64 bits: a write replaces the value. Reset 0 (at tile start). -/
  fflags : Word64
  /-- FCTRL, CSR 0x001: ROUND, FTZ, FEXC_EN. Reset 0 (at tile start). -/
  fctrl : Word64
  /-- DEWTAG, CSR 0x002: TAG, VALID. Reset 0 (at tile start). -/
  dewtag : Word64
  /-- SRSTATE, CSR 0x003 (R111). Reset DESIGN CHOICE 0 before a tile starts (log entry 4). -/
  srstate : Word64
  /-- INSTRET, CSR 0x011: instructions retired since tile start. Reset 0. -/
  instret : Nat
  /-- Whether the core may issue. Reset idle: no tile runs at reset. -/
  run : CoreRun
  /-- Number of the launch whose tile the core runs (R92), plus one; 0 none. Reset 0. -/
  launch : Nat
  /-- Linear index of the tile (R88). Reset 0. -/
  tile : Nat
  /-- Slot of the tile in the floe (Table 6 of 04). Reset 0. -/
  slot : Nat
  /-- Answers to the accesses of the instruction in hand to a remote window: HPA, value, poison. Reset empty. -/
  rem : List (Nat × Nat × Bool)
  /-- Word and data address of the instruction that is stalled on a parked access. Reset 0. -/
  stalled : Nat × Nat
  /-- The regulator has admitted the instruction in hand (R322). Reset false. -/
  paid : Bool
  deriving DecidableEq, Repr

/-- A core at reset: no tile, every register zero. -/
def Core.rst : Core := ⟨[], [], [], 0, 0, 0, 0, 0, 0, .idle, 0, 0, 0, [], (0, 0), false⟩

/-- A barrier in use (R98): the participant count held from the first arrival, and the cores that arrived. -/
structure Barrier where
  count : Nat
  arrived : List Nat
  deriving DecidableEq, Repr

/-- A barrier nobody has reached. -/
def Barrier.rst : Barrier := ⟨0, []⟩

/-- A floe DMA request accepted on a channel (Table 9 of 04; R102): the 48-byte record as a number, the issuing core,
and its DEWTAG if valid (R134). -/
structure DmaReq where
  core : Nat
  body : Nat
  tag : Option Nat
  /-- Its number on the channel, by which answers from remote windows find it. -/
  id : Nat
  /-- Answers to its reads of remote windows: HPA, value, poison; and whether its rows have been written. -/
  got : List (Nat × Nat × Bool)
  wrote : Bool
  /-- Number of the launch whose core issued it, and whether the regulator has admitted it (R322). -/
  launch : Nat
  paid : Bool
  deriving DecidableEq, Repr

/-- A launch known to floe control (R88-R97). -/
structure Launch where
  /-- The LAUNCH command (R358): function, queue, LAUNCH_ID. -/
  cmd : QCmd
  /-- Partition it runs in. -/
  part : Nat
  /-- The 128-byte launch descriptor as a number (Table 4 of 04). -/
  desc : Nat
  /-- Next tile to deal (R89). -/
  next : Nat
  /-- Tiles ended. -/
  done : Nat
  /-- Tiles running: (floe, slot, tile, cores not yet ended). -/
  running : List (Nat × Nat × Nat × Nat)
  /-- Floes prepared for the launch (R92). -/
  prepared : List Nat
  /-- Status fixed by an early end (R95), if any. -/
  status : Option Nat
  /-- Its completion has been posted (R94, R141); it stays listed while tiles still run. -/
  posted : Bool
  /-- Flag summary (R135). -/
  flags : Nat
  /-- Further exceptions after the first (R140). -/
  suppressed : Nat
  deriving DecidableEq, Repr

/-- LAUNCH_ID (R358: bytes 0x18-0x19 of the command). -/
def Launch.id (l : Launch) : Nat := bits l.cmd.raw.toNat (8 * 0x18) 16

/-- A field of the launch descriptor, by byte offset and size (Table 4 of 04). -/
def Launch.f (l : Launch) (off size : Nat) : Nat := bits l.desc (8 * off) (8 * size)

/-- The vector sea beside its registers. -/
structure Sea where
  /-- Cores by floe × 128 + index. Reset: none runs, every register zero (log entry 4). -/
  cores : Tab Core
  /-- Barriers (R98): floe × 64 + b for b = 1-14, floe × 64 + 16 + slot for barrier 0 of a slot. Reset empty. -/
  barriers : Tab Barrier
  /-- Grid barriers (R99), by launch number. Reset empty. -/
  grid : Tab Barrier
  /-- Floe DMA channels (R133): floe × 16 + channel, requests in order of issue, at most 4. Reset empty. -/
  dma : Tab (List DmaReq)
  /-- Launches not yet gone, by number: a new one takes the number after the highest. Reset empty. -/
  launches : Tab Launch
  /-- Tagged VQB and VQBX instructions counted per floe (R170). Reset 0. -/
  tagged : Tab Nat
  /-- Floes clock-gated (R106). Reset none. -/
  gated : List Nat
  deriving DecidableEq, Repr

/-- The sea at reset. -/
def Sea.rst : Sea := ⟨[], [], [], [], [], [], []⟩

end Sys2Proof.Machine
end

