-- ==== Sys2Proof/Machine/StHost.lean ====
section
/-! DEFINITION. State of the host endpoint and the Moraine log (15, 22), and the messages the hub sends. -/

namespace Sys2Proof.Machine

/-- A Moraine record (Table 4 of 22); CHECK is computed on reading (R481). -/
structure MorRec where
  seq : Nat
  code : Nat
  cls : Nat
  flags : Nat
  part : Nat
  inst : Nat
  boot : Nat
  rep : Nat
  time : Nat
  hpa : Nat
  d0 : Nat
  d1 : Nat
  deriving DecidableEq, Repr

/-- A completion record of Table 10 of 15, before its PHASE is placed. -/
structure CplRec where
  result : Nat
  sqHead : Nat
  q : Nat
  status : Nat
  cid : Nat
  noIrq : Bool
  deriving DecidableEq, Repr

/-- A field of a queue command, by byte offset and size (R3, R357). -/
def qf (c : QCmd) (off size : Nat) : Nat := bits c.raw.toNat (8 * off) (8 * size)

/-- A queue pair's state beyond its registers (R354-R359). -/
structure QPair where
  /-- Submission tail, 32-bit free-running (R355). Reset 0. -/
  tail : Nat
  /-- Completion records written, C (R359). Reset 0. -/
  c : Nat
  /-- Q_CQ_HEAD: records consumed (R355). Reset 0. -/
  cqHead : Nat
  /-- The completion record held because the queue is full (R359). Reset empty. -/
  held : List CplRec
  /-- Commands fetched and not completed. Reset empty. -/
  openCmds : List QCmd
  deriving DecidableEq, Repr

/-- A queue pair at reset. -/
def QPair.rst : QPair := ⟨0, 0, 0, [], []⟩

/-- Who waits for an upstream non-posted request (Table 11 of 15). -/
inductive Requester where
  | fetch (q : Nat)
  | stream (n : Nat) (index : Nat)
  | diag (cid q : Nat)
  | ats (n : Nat) (index : Nat)
  deriving DecidableEq, Repr

/-- A reserved tag (R361): the tag, its function, the function's epoch at issue, the requester, and what it reads: 2^64 + the bus
address of a read, the bus address of a translation request. -/
structure TagEntry where
  tag : Nat
  fn : Nat
  epoch : Nat
  who : Requester
  key : Nat
  deriving DecidableEq, Repr

/-- What the hub sends outside: to the host, to chiplets, on links, on CAN, on Almanac paths, on pins of test. The
model's own record of outputs, newest first. -/
inductive Sent where
  | slice (tag : Nat) (write : Bool) (data poison : Nat)
  | msix (fn entry : Nat) (addr data : Nat)
  | hostWrite (fn : Nat) (addr : Nat) (len : Nat) (data : Nat)
  | hostPoison (fn : Nat) (addr : Nat) (len : Nat) (data : Nat)
  | hostRead (fn : Nat) (tag : Nat) (addr : Nat) (len : Nat)
  | bar2Cpl (kind : Nat) (len : Nat) (data : Nat) (poison : Bool)
  | aer (fn : Nat) (bit : Nat)
  | eep (site : Nat) (kind : Nat) (engine : Nat) (a b c d : Nat) (poison : Nat)
  | emcy (code : Nat) (data : Nat)
  | can (kind : Nat) (a b : Nat)
  | almanac (iface : Nat) (status : Nat) (data : Nat)
  | frame (link : Nat) (path : Nat) (kind : Nat) (a b c d : Nat)
  | spdm (kind : Nat) (a b : Nat)
  | avs (rail : Nat) (mv : Nat)
  | collective (g : Nat) (peer : Nat) (kind : Nat) (a b c : Nat)
  | ats (fn : Nat) (addr : Nat) (kind : Nat)
  | scan (value : Nat)
  | flash (off : Nat) (value : Nat)
  | bridge (kind : Nat) (value : Nat)
  deriving DecidableEq, Repr

end Sys2Proof.Machine
end

