-- ==== Sys2Proof/Machine/StMem.lean ====
section
/-! DEFINITION. State of stack memory, Firn and translation (08, 09, 11). -/

namespace Sys2Proof.Machine

/-- A line held in Firn (R213): the slice, set and way it stands in, the owning partition, its valid, dirty and poison
bits per 32-byte sector, and its 128 bytes as a number. -/
structure FirnLine where
  slice : Nat
  set : Nat
  way : Nat
  part : Nat
  valid : Nat
  dirty : Nat
  poison : Nat
  data : Nat
  deriving DecidableEq, Repr

/-- A miss entry (R217): the slice and line, the sectors being fetched, the way reserved (none: not installed), the
invalidate-on-fill flag (R221), the requests that joined, and the data and poison the controller has returned. -/
structure MissEntry where
  slice : Nat
  line : Nat
  sectors : Nat
  way : Option Nat
  invOnFill : Bool
  reqs : List SliceReq
  ret : Option (Nat × Nat)
  deriving DecidableEq, Repr

/-- An entry of a slice's eviction buffer (R218, R220): the victim, and the requests that wait for its acknowledgement. -/
structure Evict where
  slice : Nat
  line : Nat
  set : Nat
  way : Nat
  valid : Nat
  dirty : Nat
  poison : Nat
  data : Nat
  waiting : List SliceReq
  deriving DecidableEq, Repr

/-- The fill bitmap of a half-stack (R330): whether it was marked unfilled, and the granules filled since. -/
structure HalfFill where
  marked : Bool
  filled : List Nat
  deriving DecidableEq, Repr

/-- Nothing unfilled. -/
def HalfFill.rst : HalfFill := ⟨false, []⟩

/-- A queued or running row repair (R200-R202). -/
structure Repair where
  pc : Nat
  row : Nat
  running : Bool
  deriving DecidableEq, Repr

/-- A record of the repair journal (R202). -/
structure JournalRec where
  state : Nat
  die : Nat
  stack : Nat
  pc : Nat
  row : Nat
  unit : Nat
  deriving DecidableEq, Repr

/-- A TLB entry (R260): which TLB holds it (micro-TLBs by port, shared TLBs above 2^20), its ASID, the first VA and the
log2 of the span, the output base, the rights bits of the leaf (R, W, A), and the entry it came from. -/
structure TlbEntry where
  tlb : Nat
  asid : Nat
  va : Nat
  log2 : Nat
  out : Nat
  rights : Nat
  level : Nat
  entry : Nat
  entryHpa : Nat
  deriving DecidableEq, Repr

/-- A walk-cache entry (R260): die, ASID, the level of the table named and the VA bits above it, and the table's HPA. -/
structure WalkCacheEntry where
  die : Nat
  asid : Nat
  level : Nat
  vaHigh : Nat
  table : Nat
  deriving DecidableEq, Repr

/-- The kind of an access, for the rights of Table 3 of 11 and the fault record's flags. -/
inductive AccKind where
  | read | write | atomic
  deriving DecidableEq, Repr

/-- Who issued a translated access: KIND of Table 10 of 11, PORT and CONTEXT. -/
structure Master where
  kind : Nat
  port : Nat
  context : Nat
  deriving DecidableEq, Repr

/-- What a parked access does when it leaves the park buffer (R273). -/
inductive Waiter where
  | core (c : Nat)
  | launch (k : Nat)
  | dma (floe ch : Nat)
  | engine (e : Nat) (rtag : Nat)
  | stream (n : Nat) (index : Nat)
  | migration (p t : Nat)
  | collective (g : Nat)
  | command (c : QCmd)
  | walk
  deriving DecidableEq, Repr

/-- A parked access (R267). -/
structure Parked where
  die : Nat
  slot : Nat
  master : Master
  va : Nat
  acc : AccKind
  who : Waiter
  deriving DecidableEq, Repr

/-- An open fault (R268, R269). -/
structure Fault11 where
  die : Nat
  slot : Nat
  gen : Nat
  part : Nat
  asid : Nat
  page : Nat
  cause : Nat
  level : Nat
  master : Master
  va : Nat
  entry : Nat
  entryHpa : Nat
  /-- READ, WRITE, ATOMIC over the accesses recorded, bits 0-2. -/
  flags : Nat
  engines : Nat
  parked : Nat
  /-- The record has been written to the queue. -/
  written : Bool
  /-- The record waits because the queue was full or disabled (R271). -/
  pendingRec : Bool
  deriving DecidableEq, Repr

/-- An access held at its port because the park buffer is full (R272). -/
structure HeldAcc where
  die : Nat
  asid : Nat
  part : Nat
  master : Master
  va : Nat
  acc : AccKind
  cause : Nat
  level : Nat
  entry : Nat
  entryHpa : Nat
  who : Waiter
  deriving DecidableEq, Repr

/-- A walk in flight (R253, R261): its die, port, address space, access, the level it reads next and the table it reads,
whether an invalidation covers it (R265), and the accesses that joined. -/
structure Walk where
  die : Nat
  port : Nat
  asid : Nat
  part : Nat
  va : Nat
  acc : AccKind
  level : Nat
  table : Nat
  stale : Bool
  master : Master
  joined : List (Master × Nat × AccKind × Waiter)
  who : Waiter
  deriving DecidableEq, Repr

/-- An invalidation not yet complete (R264, R266): the command it answers (none: a cleared VALID, whose BUSY it clears), the
ASID and the scope it covers. The walks it waits for are those marked stale. -/
structure Inval where
  cmd : Option QCmd
  asid : Nat
  scope : Nat
  deriving DecidableEq, Repr

/-- Translation beside its registers (11). -/
structure Xlt where
  /-- Entries of every micro-TLB and shared TLB (R260), most recently used first. Reset empty. -/
  tlbs : List TlbEntry
  /-- Walk-cache entries (R260). Reset empty. -/
  wcache : List WalkCacheEntry
  /-- Walks in flight (R261). Reset empty. -/
  walks : List Walk
  /-- Parked accesses (R267). Reset empty. -/
  parked : List Parked
  /-- Open faults (R268), oldest first. Reset empty. -/
  faults : List Fault11
  /-- Accesses held at their ports because the park buffer is full (R272), oldest first. Reset empty. -/
  held : List HeldAcc
  /-- Generation of each fault slot, die × 512 + slot (R269 FAULT_ID). Reset 0. -/
  gens : Tab Nat
  /-- Dies in a park-full episode (R272: recorded once per episode). Reset none. -/
  episode : List Nat
  /-- Invalidations not complete (R264, R266). Reset empty. -/
  invals : List Inval
  deriving DecidableEq, Repr

/-- Translation at reset. -/
def Xlt.rst : Xlt := ⟨[], [], [], [], [], [], [], [], []⟩

/-- The byte memory of the hub and what stands between it and the masters. -/
structure Memory where
  /-- Stack memory, scratchpad, floe memory, event counters and core private memory by address: strictly rising, no byte 0
  listed; an unlisted byte reads 0 (log entry 5). -/
  bytes : Tab Byte
  /-- Poisoned 32-byte sectors, by address div 32, rising (R476). -/
  poison : List Nat
  /-- Bytes that DIAG_ACCESS wrote into a DIAG stack (R197), by address; an unlisted cell of a DIAG stack is open. -/
  cells : Tab Byte
  /-- Lines held in Firn, by HPA div 128 (R213). -/
  lines : Tab FirnLine
  /-- Miss entries of the slices (R217), oldest first. -/
  misses : List MissEntry
  /-- Eviction buffers of the slices (R218), oldest first. -/
  evicts : List Evict
  /-- Requests waiting at their slices (R217, R220, R222), oldest first, with the slice. -/
  waiting : List (Nat × SliceReq)
  /-- Fill bitmaps of the half-stacks (R330). -/
  fill : Tab HalfFill
  /-- The replacement LFSR of each slice (R218), 16 bits. Reset 0xACE1, as SEED. -/
  lfsr : Tab Nat
  deriving DecidableEq, Repr

/-- Memory at reset: nothing listed. -/
def Memory.rst : Memory := ⟨[], [], [], [], [], [], [], [], []⟩

/-- The canonical form: bytes, cells and lines rise strictly and list no default; poisoned sectors rise strictly. -/
def Memory.wf (m : Memory) : Bool :=
  tcanon 0 m.bytes && tsorted m.cells && tsorted m.lines && tsorted (m.poison.map (fun k => (k, ())))

end Sys2Proof.Machine
end

