-- ==== Sys2Proof/Machine/StLink.lean ====
section
/-! DEFINITION. State of the scale-out links and remote windows (16) and of the collectives (17), beside their registers. -/

namespace Sys2Proof.Machine

/-- Who waits for a remote request (R388). -/
inductive RemWho where
  | coreLoad (c : Nat)                       -- a floe read or atomic
  | coreStore (c part hpa : Nat)             -- a floe store: posted
  | dma (floe ch id : Nat)                   -- a floe DMA request
  | engine (e rtag : Nat)
  | row (n index : Nat)                      -- a Drift row
  | collective (g : Nat)
  | stage (g seq : Nat)                      -- a collective's own memory in a remote window
  | host (n : Nat)
  deriving DecidableEq, Repr

/-- A request of a path (R376): its TYPE code, the extension's fields, its payload, poison, who waits, its place in the
master's data, and what became of it: its PSN once it is sent, the resends so far, whether SACK showed it held. -/
structure OutReq where
  type : Nat
  window : Nat
  gen : Nat
  detail : Nat
  wkey : Nat
  offset : Nat
  rlen : Nat
  data : List Byte
  poison : Bool
  who : RemWho
  place : Nat
  col : Option ColExt
  psn : Nat
  resends : Nat
  held : Bool
  deriving DecidableEq, Repr

/-- A request received and not yet applied (R378): its TYPE code, the packet, its extension. -/
inductive InReq where
  | mem (type : Nat) (p : LinkPkt) (x : ReqExt)
  | col (type : Nat) (p : LinkPkt) (x : ColExt)
  deriving DecidableEq, Repr

/-- A path of a link (R377-R381). -/
structure LPath where
  link : Nat
  num : Nat
  ip : BitVec 128
  v4 : Bool
  /-- The LNK_PEER entry it was opened for; none for one the peer opened. -/
  peer : Option Nat
  /-- The peer's path number and whether the path is open at both ends. -/
  peerNum : Nat
  isOpen : Bool
  /-- PSN of the next request sent, and of the next request to be applied, 24 bits. -/
  txPsn : Nat
  rxPsn : Nat
  /-- Requests waiting for PACED_SEND, and requests sent and not acknowledged or answered, oldest first. -/
  queued : List OutReq
  out : List OutReq
  /-- Requests held for reordering (R378). -/
  reorder : List InReq
  /-- Requests applied since the last ACK: the window that counts each in DRAIN, die × 4096 + entry; 8192 none. -/
  unacked : List Nat
  /-- The last 128 atomic results by PSN (R379). -/
  atomics : List (Nat × List Byte)
  /-- Times PATH_OPEN went out again (R379), while the path is not open. -/
  openTries : Nat
  /-- Rate r in GB/s and α of R381. -/
  rate : Rat
  alpha : Rat
  deriving DecidableEq, Repr

/-- A secure association (R374), one per link and direction: link, direction, AN, suite, the 48-byte key block, and the next
packet number. -/
structure Sak where
  link : Nat
  dir : Nat
  an : Nat
  suite : Nat
  key : List Byte
  nextPn : Nat
  deriving DecidableEq, Repr

/-- A request that waits at its quad's port (R322), in the order of its path: one that a window admitted (R386) counts in DRAIN; a
collective packet names no window (die 2). -/
structure WinHeld where
  die : Nat
  w : Nat
  link : Nat
  path : Nat
  req : InReq
  deriving DecidableEq, Repr

/-- The links beside their registers. -/
structure Links where
  /-- Paths, least recently used first (R377). Reset empty. -/
  paths : List LPath
  /-- Requests that wait for a path because every path of the link is in use (R377): link, peer, request. Reset empty. -/
  waiting : List (Nat × Nat × OutReq)
  /-- Secure associations (R374), the newest first. Reset empty. -/
  saks : List Sak
  /-- Priorities paused by received PFC frames, link × 8 + priority (R382). Reset empty. -/
  paused : List Nat
  /-- Requests admitted by a window and held at their port. Reset empty. -/
  held : List WinHeld
  /-- Frames waiting at a paused priority (R382), oldest first: link, priority, frame. Reset empty. -/
  txHeld : List (Nat × Nat × Sent)
  /-- Links whose partner was sent XOFF for DATA_PCP (R382). Reset none. -/
  xoff : List Nat
  /-- Time of the last record 0x0803 of a link, plus one (R393: once per second per link). Reset 0. -/
  macRec : Tab Nat
  /-- Time of the last CNP sent on a path, plus one: link × 65536 + path (R381: once per 10 µs). Reset 0. -/
  cnpAt : Tab Nat
  deriving DecidableEq, Repr

/-- The links at reset. -/
def Links.rst : Links := ⟨[], [], [], [], [], [], [], [], []⟩

/-- A chunk in a slot (R397, R402): its post, step, index and sender, the slot, the parts received (offset, length), and
whether it has been combined and waits to be forwarded. -/
structure ColChunk where
  seq : Nat
  step : Nat
  chunk : Nat
  slot : Nat
  parts : List (Nat × Nat)
  /-- Parts of a post that does not run yet (R403): offset, bytes, poison. -/
  early : List (Nat × List Byte × Bool)
  ready : Bool
  deriving DecidableEq, Repr

/-- A collective that runs (R398-R409). -/
structure ColRun where
  cmd : QCmd
  seq : Nat
  /-- The step its deadline is for, from 1. -/
  step : Nat
  /-- Chunks sent, and chunks received and dealt with, by step. -/
  sent : Tab Nat
  got : Tab Nat
  /-- Sum of extensions granted, and whether the step has its extension (R406). -/
  extUsed : Nat
  extStep : Bool
  /-- Stacks touched (R405), whether the step's notice was sent, whether record 0x0902 was written. -/
  touched : List Nat
  squalled : Bool
  rec902 : Bool
  deriving DecidableEq, Repr

/-- A group (R395). -/
structure ColGroup where
  part : Nat
  members : Nat
  rank : Nat
  gkey : Nat
  chunkHpa : Nat
  chunkBytes : Nat
  quad : Nat
  /-- PEER and PEER_GROUP by rank. -/
  peers : List (Nat × Nat)
  /-- Posts waiting, oldest first (R398). -/
  posts : List QCmd
  run : Option ColRun
  /-- Credits toward the downstream neighbour (R403). -/
  credits : Nat
  /-- Chunks in slots. -/
  chunks : List ColChunk
  /-- The regulator has admitted the next chunk (R322). -/
  paid : Bool
  /-- Answers to its reads of remote windows: HPA, value, poison. -/
  got : List (Nat × Nat × Bool)
  deriving DecidableEq, Repr

end Sys2Proof.Machine
end

