-- ==== Sys2Proof/Machine/StDrift.lean ====
section
/-! DEFINITION. State of Drift (10), of Dewpoint (07) and of the sites (12), beside their registers. -/

namespace Sys2Proof.Machine

/-- A descriptor in flight (R242, R243): its ring count, its 64 bytes, the HPA its EVENT_VA reached, how it ended (status and
DETAIL), whether a remote row was retried, and the requests that a peer answered WINDOW_CLOSING (R246). -/
structure Desc where
  index : Nat
  raw : Nat
  event : Option Nat
  ended : Option (Nat × Nat)
  retried : Bool
  retry : List OutReq
  /-- Its fields were read without poison (R245); it ended POISONED in a way that POISON_CONTINUE does not cover. -/
  known : Bool
  hard : Bool
  /-- The regulator has admitted it (R322). -/
  paid : Bool
  /-- Answers to its reads of remote windows (by HPA) and of host memory (by 2^64 + bus address): value, poison; and whether its
  rows have been written. -/
  got : List (Nat × Nat × Bool)
  wrote : Bool
  deriving DecidableEq, Repr

/-- A field of a descriptor (Table 2 of 10). -/
def Desc.f (d : Desc) (off size : Nat) : Nat := bits d.raw (8 * off) (8 * size)

/-- A completion record of a descriptor (Table 4 of 10) that waits for ring space (R235), with the event add and the
interrupt that follow it. -/
structure DescRec where
  index : Nat
  id : Nat
  status : Nat
  retried : Bool
  detail : Nat
  event : Option Nat
  irq : Bool
  deriving DecidableEq, Repr

/-- A Drift stream (R230-R235): its owner, its parameter block (Table 1 of 10), its counts. -/
structure Stream where
  fn : Nat
  param : Nat
  tail : Nat
  c : Nat
  cplHead : Nat
  inflight : List Desc
  held : List DescRec
  /-- Paused by STOP or by a partition that is not Active, to be resumed by START (R334). -/
  paused : Bool
  /-- The status that stops the stream once what is in flight has been reported (R245). -/
  stop : Option Nat
  deriving DecidableEq, Repr

/-- A stream that is CLOSED. -/
def Stream.rst : Stream := ⟨0, 0, 0, 0, 0, [], [], false, none⟩

/-- A field of the parameter block (Table 1 of 10). -/
def Stream.f (s : Stream) (off size : Nat) : Nat := bits s.param (8 * off) (8 * size)

/-- A translation of the ATS cache (R249): function, first 4 KiB page, log2 of the span in pages, the translated page, and the
access it grants (R 1, W 2). -/
structure AtsEntry where
  fn : Nat
  page : Nat
  log2 : Nat
  out : Nat
  rights : Nat
  deriving DecidableEq, Repr

/-- Drift beside its registers. -/
structure Drift where
  /-- Streams by number. Reset every stream CLOSED. -/
  streams : Tab Stream
  /-- The ATS translation caches (R249). Reset empty. -/
  ats : List AtsEntry
  /-- Page requests open (R249): stream, descriptor. Reset empty. -/
  pri : List (Nat × Nat)
  /-- ATS Invalidation Requests that wait for open requests (R249): function, page, log2. Reset empty. -/
  inv : List (Nat × Nat × Nat)
  deriving DecidableEq, Repr

/-- Drift at reset. -/
def Drift.rst : Drift := ⟨[], [], [], []⟩

/-- The open window of a tag (R172): e2, x2 and mx as binary64 patterns. -/
structure DewWin where
  e2 : Nat
  x2 : Nat
  mx : Nat
  deriving DecidableEq, Repr

/-- A selected block waiting for a recompute unit (R171, R172): partition, tag, exact source and result values, and the
source block and instance of the record of R181. -/
structure DewSample where
  part : Nat
  tag : Nat
  xs : List Val
  qs : List Val
  src : Nat
  inst : Nat
  deriving DecidableEq, Repr

/-- Dewpoint beside its registers. -/
structure Dew where
  /-- Open windows by partition × 256 + tag. Reset zero. -/
  wins : Tab DewWin
  /-- The recompute queue of die 0 and of die 1 (R171), 4,096 blocks each. Reset empty. -/
  q0 : List DewSample
  q1 : List DewSample
  /-- The sample that closed each full window, waiting for WINDOW_CLOSE: source block and instance by tag. -/
  closing : Tab (Nat × Nat)
  /-- Promotions whose migration has not started (R178), in trigger order: partition, tag. Reset empty. -/
  waiting : List (Nat × Nat)
  /-- Migrations running. Reset empty. -/
  running : List (Nat × Nat)
  deriving DecidableEq, Repr

/-- Dewpoint at reset. -/
def Dew.rst : Dew := ⟨[], [], [], [], [], []⟩

/-- An open request of an engine (R288): engine, RTAG, module, its place among the write-class requests (R291), its header
and data, and whether it waits in the park buffer or at the port. -/
structure EngReq where
  e : Nat
  rtag : Nat
  mod : Nat
  wseq : Option Nat
  hdr : BitVec 128
  data : List (BitVec 512)
  /-- Answers to its reads of remote windows: HPA, value, poison; and whether its writes to them have been sent. -/
  got : List (Nat × Nat × Bool)
  wrote : Bool
  deriving DecidableEq, Repr

/-- A COMPLETE or INTERRUPT not yet applied (R291). -/
structure EngEvt where
  e : Nat
  /-- Its number, by which its parked access finds it. -/
  id : Nat
  hdr : BitVec 128
  data : List (BitVec 512)
  deriving DecidableEq, Repr

/-- A site beside its registers. -/
structure Site where
  /-- Step of Table 10 reached; 0 not sounding. -/
  step : Nat
  /-- The Chiplet Descriptor and the CREDITS word read while sounding. -/
  desc : BitVec 8704
  credits : BitVec 64
  /-- Digests of the SPDM exchange (R303). -/
  chain : BitVec 384
  meas : BitVec 384
  /-- Minor fixed since hub reset (R78, R297), plus one; 0 none. -/
  fixedMinor : Nat
  /-- Credits the engines hold toward the hub: REQ header, REQ data, EVT header, EVT data (R282). -/
  reqH : Nat
  reqD : Nat
  evtH : Nat
  evtD : Nat
  /-- Credits the hub holds toward the chiplet: RSP header, RSP data, EVT header, EVT data. -/
  rspH : Nat
  rspD : Nat
  cvtH : Nat
  cvtD : Nat
  /-- SRST_N released. -/
  srst : Bool
  /-- Open requests, in order of receipt. -/
  open' : List EngReq
  /-- COMPLETE and INTERRUPT messages waiting (R291). -/
  evts : List EngEvt
  /-- Doorbells waiting: engine, value, oldest first (R294). -/
  dbs : List (Nat × Nat)
  /-- Engines sent CLEAR and not yet CLEARED. -/
  clearing : List Nat
  /-- Answers that wait for RSP credits (R283), oldest first, with their data flits. -/
  rspq : List (Nat × Sent)
  /-- Engines whose CLEAR waits for an EVT credit. -/
  clrq : List Nat
  /-- Condemned lanes: module × 256 + 128 × (1 toward the chiplet) + lane. -/
  condemned : List Nat
  /-- Redundant lanes in use, by module × 256 + 128 × (1 toward the chiplet) + redundant lane (64-67): the data lane it stands for. -/
  spares : Tab Nat
  /-- Modules with a lane action running (Table 13), the action chosen (0 remap, 1 x32, 2 retire), and the lane with its direction. -/
  actions : List (Nat × Nat × Nat)
  /-- Parity errors per lane within the window (R309), by lane key, with the times of the errors. -/
  laneErr : Tab (List Nat)
  deriving DecidableEq, Repr

/-- A site at hub reset. -/
def Site.rst : Site := ⟨0, 0, 0, 0, 0, 0, 0, 0, 0, 0, 0, 0, 0, 0, false, [], [], [], [], [], [], [], [], [], []⟩

/-- A request held at its port by a regulator (R322): an engine's, an arriving remote one, a core's next instruction, a
stream's descriptor, a collective's staging, a host access through BAR2. -/
inductive HeldReq where
  | eng (r : EngReq)
  | win (r : WinHeld)
  | core (c bytes : Nat)
  | dma (f ch id bytes : Nat)
  | row (n index bytes : Nat)
  | col (g bytes : Nat)
  | host (off len : Nat) (data : Option (List Byte)) (poison : Bool)
  deriving DecidableEq, Repr

/-- A master port's regulator (R322): tokens in units of 1/512 byte, none: full; the time of the last refill; requests held
at the port, oldest first. -/
structure QosPort where
  tokens : Option Int
  last : Nat
  held : List HeldReq
  deriving DecidableEq, Repr

/-- A regulator at hub reset: full. -/
def QosPort.rst : QosPort := ⟨none, 0, []⟩

/-- A partition beside its registers. -/
structure PartSt where
  /-- It is being deleted: Thaw ends in NONE (Table 4 of 14). -/
  deleting : Bool
  /-- Engines that must clear before step 5, or before the end of a reset. -/
  waits : List Nat
  deriving DecidableEq, Repr

/-- A partition at reset. -/
def PartSt.rst : PartSt := ⟨false, []⟩

end Sys2Proof.Machine
end

