-- ==== Sys2Proof/Machine/StPlant.lean ====
section
/-! DEFINITION. State of start-up (03), the forecast's commit (02), Isotherm (18), the Almanac (19), the security core (20),
the life cycle (21) and the pins and TAP (23), beside their registers. -/

namespace Sys2Proof.Machine

/-- The Permafrost store and the fuses of the die (R449, R469). It survives every reset. -/
structure Perma where
  /-- Five copies of the state code (R469). Reset DESIGN CHOICE 0, Blank (log entry 6). -/
  copies : List Word32
  /-- Three copies of the transition intent (R469). Reset DESIGN CHOICE 0, blank (log entry 6). -/
  intents : List Word32
  /-- Silicon revision, 8 bits (GLB_REV). Reset DESIGN CHOICE 0xB0 (log entry 6). -/
  rev : Nat
  /-- The die's own feature level (R75). Reset DESIGN CHOICE 3, as 03 gives B0 (log entry 6). -/
  fl : Nat
  /-- Unit identifier, 64 bits. Reset DESIGN CHOICE 0 (log entry 6). -/
  unit : Nat
  /-- Owner hashes of integrator key slots 0 and 1, SHA-384; 0 none. Reset DESIGN CHOICE 0 (log entry 6). -/
  owner0 : Nat
  owner1 : Nat
  /-- Sealing key, 256 bits; 0 not programmed. Reset DESIGN CHOICE 0 (log entry 6). -/
  sealing : Nat
  /-- DeviceID certificate digest, SHA-384; 0 not programmed. Reset DESIGN CHOICE 0 (log entry 6). -/
  cert : Nat
  /-- Minimum SVN by image type (R62). Reset DESIGN CHOICE 0 (log entry 6). -/
  svn : Tab Nat
  deriving DecidableEq, Repr

/-- The store at reset. -/
def Perma.rst : Perma := ⟨[0, 0, 0, 0, 0], [0, 0, 0], 0xB0, 3, 0, 0, 0, 0, 0, []⟩

/-- Start-up, straps and pins (R57-R81, R489). -/
structure Boot where
  /-- The step of Table 8 of 03 in progress, 1-9; 0 held by PORST_N; 10 ready; 11 halted, in recovery or held. Reset 1. -/
  step : Nat
  /-- Supply group 1 is in regulation, PORST_N is low, PERST_N is asserted. Reset: powered, PORST_N just released,
  PERST_N asserted until its event (DESIGN CHOICE, log entry 7). -/
  group1 : Bool
  porst : Bool
  perst : Bool
  /-- The endpoint answers configuration requests with CRS (step 5 of Table 8). Reset false. -/
  crs : Bool
  /-- The latched straps (R58). Reset DESIGN CHOICE: single package, primary, node 0, normal boot (log entry 7). -/
  role : Bool
  twinEn : Bool
  nodeId : Nat
  bootMode : Nat
  /-- The role conflict halt of R74, and its halt service. Reset false. -/
  halt : Bool
  haltSvc : Bool
  /-- FAULT_N and THERMTRIP_N asserted, and the ALERT_N pin before step 1 releases it. Reset false. -/
  faultN : Bool
  thermN : Bool
  /-- PUMP_PWM is driven high by the always-on island (R428). Reset true. -/
  pumpHigh : Bool
  /-- Clocks of every island but the always-on one stopped by a trip (R420). Reset false. -/
  stopped : Bool
  /-- The Halo rings carry the traffic between islands (R70). Reset true. -/
  halo : Bool
  /-- The Package Descriptor in use, as a number; 0 none (R34). Reset 0. -/
  pd : Nat
  /-- The descriptor as it stands in the flash, which measurement block 8 covers (R452); in Blank it is more than the one in use.
  Reset 0. -/
  pdRaw : Nat
  /-- It gives Whiteout by R28 or R36. Reset false. -/
  pdBad : Bool
  /-- Headers of the six running images by type, 256 bytes each as numbers (R64). Reset empty. -/
  images : Tab Nat
  /-- Headers of the staged images (R436). Reset empty. -/
  staged : Tab Nat
  /-- What the partner answered at step 4. Reset none. -/
  partner : Option Partner
  /-- An activation of the security core runs (R79). Reset false. -/
  activating : Bool
  /-- A life-cycle transition: its step of Table 5 of 21 and its target code (R472). Reset none. -/
  lc : Option (Nat × Nat)
  /-- Records to write once Moraine is up: code and detail. Reset empty. -/
  notes : List (Nat × Nat)
  deriving DecidableEq, Repr

/-- Start-up right after PORST_N rises. -/
def Boot.rst : Boot :=
  ⟨1, true, false, true, false, true, false, 0, 0, false, false, false, false, true, false, true, 0, 0, false, [], [], none, false,
    none, []⟩

/-- What a commit changes and waits for (R45, R52). -/
structure Commit where
  /-- The interface that commits (R39). -/
  via : Nat
  /-- The secondary's ready is still awaited (R45). -/
  twinWait : Bool
  /-- Units whose gates are closed: kind × 4096 + number (0 slice, 1 stack, 2 quad, 3 partition). -/
  gates : List Nat
  deriving DecidableEq, Repr

/-- The forecast beside its registers (R39-R51). -/
structure Cfg where
  /-- Staged values by field key. Reset empty. -/
  staged : Tab Nat
  /-- The commit between its validation and its apply. Reset none. -/
  commit : Option Commit
  /-- Gates still closed after an apply: stacks and quads retraining. Reset empty. -/
  retrain : List Nat
  deriving DecidableEq, Repr

/-- The forecast at reset. -/
def Cfg.rst : Cfg := ⟨[], none, []⟩

/-- Isotherm beside its registers (R411-R430). -/
structure Iso where
  /-- Dies whose critical brake is active, and stacks. Reset empty. -/
  dieCrit : List Nat
  stackCrit : List Nat
  /-- A coolant event is active (R425). Reset false. -/
  coolant : Bool
  /-- POWER_BRAKE_N is active after its filter (R414). Reset false. -/
  brakePin : Bool
  /-- POWER_BRAKE_N was asserted before step 6 (R492). Reset false. -/
  brakeEarly : Bool
  /-- Demands of the last pass, in 0.1 W: consumer (dies 0-1, stacks 16-39, sites 64-79). Reset empty. -/
  demands : Tab Nat
  /-- The brake table (R416): level × 128 + consumer. Reset empty. -/
  table : Tab Nat
  /-- The rise of R418: the grants when it began and milliseconds passed, while one runs. Reset none. -/
  ramp : Option (Tab Nat × Nat)
  /-- After a heartbeat loss: a heartbeat has been received again (R427). Reset false. -/
  hbBack : Bool
  /-- The under-minimum episode has been recorded (R412). Reset false. -/
  underRec : Bool
  /-- Rails held after an unacknowledged write (R423): die × 16 + select. Reset empty. -/
  railHeld : List Nat
  /-- The frequency (100 MHz) whose voltage a rail has acknowledged; an unlisted one is 6. A write that waits for its
  acknowledgement: its frequency and the floes that wait for it with theirs. Both by die × 16 + select. Reset empty. -/
  railFor : Tab Nat
  railWait : Tab (Nat × List (Nat × Nat))
  /-- Sites whose TEMP alarm is set (R421). Reset empty. -/
  alarms : List Nat
  /-- Dies at or above THROTTLE_C, within the hysteresis of R419. Reset empty. -/
  throttled : List Nat
  /-- The secondary's last readings (R424). Reset none. -/
  twin : Option PowerIn
  /-- The power class that stays in effect while POWER_BRAKE_N is active, after a commit changed it (R50). Reset none. -/
  classHeld : Option Nat
  deriving DecidableEq, Repr

/-- Isotherm at reset. -/
def Iso.rst : Iso := ⟨[], [], false, false, false, [], [], none, false, false, [], [], [], [], [], none, none⟩

/-- The Almanac beside the registers it shows (R431-R446). -/
structure Alm where
  /-- Entries that no register backs, by index × 256 + sub-index; an unlisted one is at its default. Reset empty. -/
  od : Tab Nat
  /-- Entry locks (R446): index, OWNER_IF code, in order of taking. Reset empty. -/
  locks : List (Nat × Nat)
  /-- NMT state: 0 none yet, 1 Pre-operational, 2 Operational, 3 Stopped (R440). Reset 0. -/
  nmt : Nat
  /-- CAN rates in effect, kbit/s (R438). Reset to the defaults of 0x2001: 1,000 and 5,000. -/
  rate : Nat
  dataRate : Nat
  /-- Emergencies held by INHIBIT_EMCY, oldest first: code and Moraine code; whether the inhibit time runs. Reset empty. -/
  emcyQ : List (Nat × Nat)
  emcyInhibit : Bool
  /-- TPDOs whose inhibit time runs, and those with a change held. Reset empty. -/
  pdoInhibit : List Nat
  pdoHeld : List Nat
  /-- Mapped values of a TPDO as it was last sent. Reset empty. -/
  pdoLast : Tab (List Nat)
  /-- SYNCs counted per TPDO (R438). Reset empty. -/
  syncs : Tab Nat
  /-- Data of a synchronous RPDO waiting for the next SYNC (R426). Reset empty. -/
  rpdoWait : Tab (List Byte)
  /-- Counters of 0x2B00 by sub-index. Reset 0. -/
  counts : Tab Nat
  /-- STAGED_VIEW bits (R437). Reset 0. -/
  view : Nat
  /-- SLOT_OFFSET and RESULT of 0x2010 (R436). Reset 0. -/
  slotOff : Nat
  updResult : Nat
  /-- MBX_REQ and MBX_RSP (R444), 4 KiB each, by byte. Reset DESIGN CHOICE 0 (log entry 8). -/
  mbxReq : Tab Byte
  mbxRsp : Tab Byte
  deriving DecidableEq, Repr

/-- The Almanac at reset. -/
def Alm.rst : Alm := ⟨[], [], 0, 1000, 5000, [], false, [], [], [], [], [], [], 0, 0, 0, [], []⟩

/-- A bundle install (R463): domain, command, partition, address of the bundle, payload offset, chunks, header digest. -/
structure Install where
  dom : Nat
  cmd : QCmd
  part : Nat
  hdr : List Byte
  ck : List Byte
  digest : Nat
  deriving DecidableEq, Repr

/-- The security core beside its registers (R447-R467). -/
structure Sec where
  /-- Open SPDM sessions by identifier 1-15. Reset empty. -/
  sessions : List Nat
  /-- Alias keys made: one per boot and activation (R449). Reset 0. -/
  aliasKeys : Nat
  /-- IDE keys installed (R455): stream × 16 + key set × 8 + direction × 4 + sub-stream. Reset empty. -/
  ideKeys : Tab Nat
  /-- Streams and key sets running: stream × 2 + key set. Reset empty. -/
  ideGo : List Nat
  /-- The session a stream's keys came through. Reset empty. -/
  ideSess : Tab Nat
  /-- Installs running or waiting, oldest first. Reset empty. -/
  installs : List Install
  /-- Header digest H of each domain (R452). Reset 0. -/
  domH : Tab Nat
  /-- Ranges whose key generation is a domain's: none here; the domain registers hold them. Attested digests of sites are in
  the sites. Vendor test access is open (R504). Reset false. -/
  testAccess : Bool
  deriving DecidableEq, Repr

/-- The security core at reset. -/
def Sec.rst : Sec := ⟨[], 0, [], [], [], [], [], false⟩

/-- The TAP (R500, R501): the boundary register as last preloaded, and whether it drives the pins. -/
structure Tap where
  /-- Reset DESIGN CHOICE 0 (log entry 8). -/
  cells : BitVec 64
  drives : Bool
  deriving DecidableEq, Repr

/-- The TAP at reset. -/
def Tap.rst : Tap := ⟨0, false⟩

/-- The error counting tables of the stacks (R194, R200), and the row-repair queues. -/
structure Ras where
  /-- Per stack, the rows most recently corrected, newest first, at most 256: row (pseudo-channel × 2^20 + rowkey), the times
  of its corrections in the window, and the time of its last record 0x0301 plus one. -/
  ceTab : Tab (List (Nat × List Nat × Nat))
  /-- Parity errors of Firn ways within 24 hours (R228): slice × 16 + way, times. -/
  parity : Tab (List Nat)
  /-- Repairs queued on a stack, in trigger order: pseudo-channel × 2^20 + rowkey (R201), and stacks whose first one runs. -/
  repairs : Tab (List Nat)
  running : List Nat
  /-- Key generations of half-stacks (R332): half-stack number. -/
  keyGens : Tab Nat
  deriving DecidableEq, Repr

/-- The tables at reset. -/
def Ras.rst : Ras := ⟨[], [], [], [], []⟩

end Sys2Proof.Machine
end

