-- ==== Sys2Proof/Machine/State.lean ====
section
/-! DEFINITION. The state of the hub as plain data: everything the spec gives the block, its byte memory, and the queue of
commands waiting. Faults and refusals, and the state right after reset. -/

namespace Sys2Proof.Machine

/-- The hub apart from its byte memory. -/
structure Hub where
  /-- The register file: every register field of PF BAR0, of the VFs' views of them and of configuration space, by
  Fld.key; a field at its reset value is not listed. -/
  regs : Tab Nat
  /-- Lower halves held under R5: function, register offset, value. Reset empty. -/
  halves : List (Nat × Nat × Nat)
  /-- The model's own counter of free values drawn (not the spec's). Reset DESIGN CHOICE 0 (log entry 3). -/
  fresh : Nat
  /-- What the hub has sent, newest first (the model's own record of its outputs). Reset empty. -/
  sent : List Sent
  /-- The Moraine log by slot (R481, R483). Reset empty. -/
  mor : Tab MorRec
  /-- Hub resets since cold reset, 16 bits (R481 BOOT). Reset 0. -/
  boots : Nat
  /-- The cursor of 0x2A00 sub-index 2 per interface (R486); an unlisted one is 1. -/
  cursors : Tab Nat
  /-- MSI-X pending bits set (R353): function × 4096 + entry. Reset empty. -/
  pba : List Nat
  /-- Queue pairs by function × 64 + q (R354). -/
  queues : Tab QPair
  /-- Reset epoch of each function (R361). Reset 0. -/
  epochs : Tab Nat
  /-- Tags reserved by open upstream requests (R361). Reset empty. -/
  tags : List TagEntry
  /-- The vector sea (04, 05). -/
  sea : Sea
  /-- Translation (11). -/
  xlt : Xlt
  /-- Drift (10). -/
  drift : Drift
  /-- Dewpoint (07). -/
  dew : Dew
  /-- Sites (12) by global number. -/
  sites : Tab Site
  /-- Regulators (13) by global port number. -/
  qos : Tab QosPort
  /-- Partitions (14). -/
  parts : Tab PartSt
  /-- Stack error tables, row repairs and key generations (08, 14). -/
  ras : Ras
  /-- The repair journal (R202), in order of writing. Reset empty. -/
  journal : List JournalRec
  /-- Links and windows (16). -/
  links : Links
  /-- Collective groups (17) by number; an unlisted one does not exist. -/
  cols : Tab ColGroup
  /-- The Permafrost store (21). -/
  perma : Perma
  /-- The boot flash by byte (R60); an unlisted byte reads 0xFF, erased (log entry 9). -/
  flash : Tab Byte
  /-- Start-up (03), straps and pins (23). -/
  boot : Boot
  /-- The forecast (02). -/
  cfg : Cfg
  /-- Isotherm (18). -/
  iso : Iso
  /-- The Almanac (19). -/
  alm : Alm
  /-- The security core (20). -/
  sec : Sec
  /-- The TAP (23). -/
  tap : Tap
  deriving DecidableEq, Repr

/-- The machine: the hub, its byte memory, and the commands waiting, first in first out. -/
structure State where
  hub : Hub
  mem : Memory
  pending : List Instr
  deriving DecidableEq, Repr

/-- Stops of the machine. -/
inductive Fault where
  /-- A command names a core or floe that the hub does not have (R82: 196 floes on each of at most two dies): no
  such thing can happen on the hardware. Safe. -/
  | noSuchUnit
  deriving DecidableEq, Repr

/-- Commands the model does not run. -/
inductive Refusal where
  /-- Raised by exec for a command that has no meaning in the model yet. Safe. -/
  | notModelled (mnemonic : String)
  deriving DecidableEq, Repr

/-- The hub as every reset leaves what it clears (R57, R69): boot step 1 is about to run, and no reset cause is shown yet. -/
def Hub.rst : Hub where
  regs := []
  halves := []
  fresh := 0
  sent := []
  mor := []
  boots := 0
  cursors := []
  pba := []
  queues := []
  epochs := []
  tags := []
  sea := .rst
  xlt := .rst
  drift := .rst
  dew := .rst
  sites := []
  qos := []
  parts := []
  ras := .rst
  journal := []
  links := .rst
  cols := []
  perma := .rst
  flash := []
  boot := .rst
  cfg := .rst
  iso := .rst
  alm := .rst
  sec := .rst
  tap := .rst

/-- The machine right after a cold reset: GLB_RESET_CAUSE shows PORST alone (03, its register table), and the queue is empty. -/
def State.reset : State := ⟨{ Hub.rst with regs := [(Reg.glbResetCausePorst.key, 1)] }, Memory.rst, []⟩

end Sys2Proof.Machine
end

