-- ==== Sys2Proof/Machine/Ops.lean ====
section
/-! DEFINITION. The named operations that every command shares: register fields, time and free values, partitions and
their units, MSI-X and events, Moraine records, emergencies, completion records. -/

namespace Sys2Proof.Machine

/-- A register field. -/
def Hub.get (h : Hub) (f : Fld) : Nat := tget f.rst h.regs f.key

/-- A register field written. -/
def Hub.set (h : Hub) (f : Fld) (v : Nat) : Hub := { h with regs := tset f.rst h.regs f.key (v % 2 ^ f.len) }

/-- A field that is not zero. -/
def Hub.on (h : Hub) (f : Fld) : Bool := decide (h.get f ≠ 0)

/-- A field back at its reset value. -/
def Hub.clr (h : Hub) (f : Fld) : Hub := h.set f f.rst

/-- Several fields written. -/
def Hub.sets (h : Hub) : List (Fld × Nat) → Hub
  | [] => h
  | (f, v) :: t => (h.set f v).sets t

/-- A count that stops at its maximum. -/
def Hub.count (h : Hub) (f : Fld) (k : Nat) : Hub := h.set f (satAdd f.len (h.get f) k)

/-- A count that wraps. -/
def Hub.wrap (h : Hub) (f : Fld) (k : Nat) : Hub := h.set f (h.get f + k)

/-- A message sent outside. -/
def Hub.send (h : Hub) (m : Sent) : Hub := { h with sent := m :: h.sent }

/-- A value drawn from the free values (log entry 3). -/
def Hub.draw (h : Hub) : Nat × Hub := (Config.freeValue h.fresh, { h with fresh := h.fresh + 1 })

/-- Nanoseconds since the last hub reset (log entry 3: the model has no clock). -/
def Hub.now (h : Hub) : Nat × Hub := (Config.timeNs h.fresh, { h with fresh := h.fresh + 1 })

/-- A fold over a list of unit numbers. -/
def overList {σ : Type} (f : Nat → σ → σ) : List Nat → σ → σ
  | [], s => s
  | x :: t, s => overList f t (f x s)

-- Partitions and their units (R328)

/-- The partition exists in the active epoch. -/
def Hub.partExists (h : Hub) (p : Nat) : Bool := decide (p < 24) && h.on (Reg.prtCfgExist p)

/-- PRT_STATUS.STATE (Table 3 of 14). -/
def Hub.partState (h : Hub) (p : Nat) : Nat := h.get (Reg.prtStatusState p)

/-- The maps of partition `p` name units that it holds: it exists, or its deletion has not ended (R328, R336). -/
def Hub.holds (h : Hub) (p : Nat) : Bool := h.partExists p || (decide (p < 24) && decide (h.partState p = 4))

/-- The partition that owns a half-stack (number 2n + h); 31 none. -/
def Hub.halfOwner (h : Hub) (k : Nat) : Nat := (findLow 24 (fun p => bitAt (h.get (Reg.prtHalvesMap p)) k && h.holds p)).getD 31

/-- The partition that owns a slice. -/
def Hub.sliceOwner (h : Hub) (k : Nat) : Nat :=
  (findLow 24 (fun p => bitAt (h.get (Reg.prtSlicesMap p (k / 64))) (k % 64) && h.holds p)).getD 31

/-- The partition that owns a floe. -/
def Hub.floeOwner (h : Hub) (k : Nat) : Nat :=
  (findLow 24 (fun p => bitAt (h.get (Reg.prtFloesMap p (k / 64))) (k % 64) && h.holds p)).getD 31

/-- The partition that owns a link. -/
def Hub.linkOwner (h : Hub) (k : Nat) : Nat :=
  (findLow 24 (fun p => (if k < 64 then bitAt (h.get (Reg.prtLinksLoMap p)) k
    else bitAt (h.get (Reg.prtLinksHiMap p)) (k - 64)) && h.holds p)).getD 31

/-- The partition that owns a VF (1-48). -/
def Hub.vfOwner (h : Hub) (v : Nat) : Nat := (findLow 24 (fun p => bitAt (h.get (Reg.prtVfsMap p)) (v - 1) && h.holds p)).getD 31

/-- The partition that an engine belongs to (R298). -/
def Hub.engOwner (h : Hub) (e : Nat) : Nat :=
  if h.holds (h.get (Reg.siteEngCtrlPartition e)) then h.get (Reg.siteEngCtrlPartition e) else 31

/-- The VFs of a partition. -/
def Hub.vfsOf (h : Hub) (p : Nat) : List Nat := (ones 48 (h.get (Reg.prtVfsMap p))).map (· + 1)

/-- The half-stacks of a partition. -/
def Hub.halvesOf (h : Hub) (p : Nat) : List Nat := ones 48 (h.get (Reg.prtHalvesMap p))

/-- The slices of a partition, lowest first. -/
def Hub.slicesOf (h : Hub) (p : Nat) : List Nat :=
  ones 64 (h.get (Reg.prtSlicesMap p 0)) ++ onesFrom 64 64 (h.get (Reg.prtSlicesMap p 1))
    ++ onesFrom 64 128 (h.get (Reg.prtSlicesMap p 2))

/-- The floes of a partition, lowest first. -/
def Hub.floesOf (h : Hub) (p : Nat) : List Nat :=
  (List.range 8).flatMap (fun w => onesFrom 64 (64 * w) (h.get (Reg.prtFloesMap p w)))

/-- The links of a partition, lowest first. -/
def Hub.linksOf (h : Hub) (p : Nat) : List Nat :=
  ones 64 (h.get (Reg.prtLinksLoMap p)) ++ onesFrom 32 64 (h.get (Reg.prtLinksHiMap p))

/-- The engines of a partition, lowest first. -/
def Hub.enginesOf (h : Hub) (p : Nat) : List Nat := (List.range 128).filter (fun e => decide (h.engOwner e = p))

/-- The partition a queue command acts for (R357): the PF's PARTITION byte, a VF's own partition. -/
def Hub.cmdPart (h : Hub) (c : QCmd) : Nat := if c.fn = 0 then qf c 4 1 else h.vfOwner c.fn

-- MSI-X and events (R352, R353)

/-- Entries of a function's MSI-X table (R352). -/
def msixSize (fn : Nat) : Nat := if fn = 0 then 2048 else 256

/-- Messages of the function wait: Bus Master Enable is clear, it is in D3hot (R353, R343), or it is being reset (R366). -/
def Hub.quiet (h : Hub) (fn : Nat) : Bool := !h.on (Pci.bme fn) || h.on (Pci.d3 fn) || h.on (Pci.flr fn)

/-- BAR0 writes and doorbells of a VF are ignored: its partition thaws (R337) or it is being reset (R366). -/
def Hub.vfMute (h : Hub) (fn : Nat) : Bool := decide (0 < fn) && (decide (h.partState (h.vfOwner fn) = 4) || h.on (Pci.flr fn))

/-- The message of an entry would not go out now. -/
def Hub.msixHeld (h : Hub) (fn e : Nat) : Bool :=
  h.quiet fn || h.on (Reg.msixMask fn e) || h.on (Pci.msixFmask fn) || !h.on (Pci.msixEn fn)

/-- An entry raised: the message goes out, or its PBA bit is set (R353). Nothing is raised for a thawing partition (R337),
nor beyond the table. -/
def Hub.msix (h : Hub) (fn e : Nat) : Hub :=
  if msixSize fn ≤ e then h
  else if decide (0 < fn) && decide (h.partState (h.vfOwner fn) = 4) then h
  else if h.msixHeld fn e then { h with pba := kadd h.pba (fn * 4096 + e) }
  else
    let h := if fn = 0 then { h with alm := { h.alm with counts := tset 0 h.alm.counts 1 (wrapAdd 64 (tget 0 h.alm.counts 1) 1) } }
      else h
    h.send (.msix fn e (h.get (Reg.msixAddr fn e)) (h.get (Reg.msixData fn e)))

/-- A pending entry whose condition has ended goes out (R353). -/
def Hub.msixFlush1 (fn e : Nat) (h : Hub) : Hub :=
  if kmem h.pba (fn * 4096 + e) && !h.msixHeld fn e then
    ({ h with pba := kdel h.pba (fn * 4096 + e) }).msix fn e
  else h

/-- Every pending entry of a function whose condition has ended goes out. -/
def Hub.msixFlush (h : Hub) (fn : Nat) : Hub :=
  overList (fun k h => if k / 4096 = fn then Hub.msixFlush1 fn (k % 4096) h else h) h.pba h

/-- A partition-level entry raised in every VF of the partition (R352). -/
def Hub.raiseVf (h : Hub) (p e : Nat) : Hub := overList (fun v h => h.msix v e) (h.vfsOf p) h

/-- The PF entry of an event register (Table 7 of 15). -/
def eventEntry (off : Nat) : Nat := ((eventRegs.find? (fun p => decide (p.1 = off))).map (·.2)).getD 2048

/-- An event bit set; with its enable bit, its PF entry is raised. -/
def Hub.event (h : Hub) (f : Fld) : Hub :=
  let h := h.set f 1
  if h.on { f with off := f.off + 4, rst := 0 } then h.msix 0 (eventEntry f.off) else h

-- The Almanac entries that errors use (R442)

/-- Default of an Almanac entry that no register backs, by index × 256 + sub-index, for a node-ID (R435, R441, Table 6
of 18). -/
def odDefault (node k : Nat) : Nat :=
  let ix := k / 256
  let sub := k % 256
  if ix = 0x1005 then 0x80
  else if ix = 0x1014 then 0x080 + node
  else if ix = 0x1015 then 10
  else if ix = 0x1017 then 100
  else if ix = 0x1400 then (if sub = 1 then 0x200 + node else if sub = 2 then 0xFE else 0)
  else if 0x1401 ≤ ix ∧ ix ≤ 0x1407 then (if sub = 1 then 0x80000080 else if sub = 2 then 0xFE else 0)
  else if ix = 0x1600 then (if sub = 1 then 0x22100110 else if sub = 2 then 0x22120108 else 0)
  else if ix = 0x1601 then (if sub = 1 then 0x23100110 else if sub = 2 then 0x23100208 else if sub = 3 then 0x23100328 else 0)
  else if ix = 0x1800 then
    (if sub = 1 then 0x180 + node else if sub = 2 then 0xFE else if sub = 3 then 10 else if sub = 5 then 100 else 0)
  else if ix = 0x1801 then
    (if sub = 1 then 0x280 + node else if sub = 2 then 0xFE else if sub = 3 then 10 else if sub = 5 then 1000 else 0)
  else if 0x1802 ≤ ix ∧ ix ≤ 0x1807 then (if sub = 1 then 0x80000000 else if sub = 2 then 0xFE else 0)
  else if ix = 0x1A00 then
    (if sub = 1 then 0x22130110 else if sub = 2 then 0x22130208 else if sub = 3 then 0x23200108 else if sub = 4 then 0x23000108
     else if sub = 5 then 0x23000208 else 0)
  else if ix = 0x1A01 then
    (if sub = 1 then 0x21000120 else if sub = 2 then 0x20000308 else if sub = 3 then 0x20000608 else 0)
  else if ix = 0x2001 then (if sub = 1 then 1000 else if sub = 2 then 5000 else 0)
  else if ix = 0x2211 then 1500
  else if ix = 0x2311 then 3
  else if ix = 0x2101 ∧ sub = 3 then 30
  else 0

/-- An Almanac entry that no register backs. -/
def Hub.od (h : Hub) (ix sub : Nat) : Nat := tget (odDefault h.boot.nodeId (ix * 256 + sub)) h.alm.od (ix * 256 + sub)

/-- An Almanac entry that no register backs, written. -/
def Hub.setOd (h : Hub) (ix sub v : Nat) : Hub :=
  { h with alm := { h.alm with od := tset (odDefault h.boot.nodeId (ix * 256 + sub)) h.alm.od (ix * 256 + sub) v } }

/-- An Almanac counter of 0x2B00 counts one. -/
def Hub.almCount (h : Hub) (sub : Nat) : Hub :=
  { h with alm := { h.alm with counts := tset 0 h.alm.counts sub (wrapAdd 64 (tget 0 h.alm.counts sub) 1) } }

/-- The hub talks on CAN: a node-ID is strapped and the management core runs (R439, R440). -/
def Hub.canUp (h : Hub) : Bool := decide (h.boot.nodeId ≠ 0) && decide (h.alm.nmt ≠ 0)

/-- An emergency with its Moraine code (R442): sent unless the node is Stopped; held while the inhibit time runs. -/
def Hub.emcy (h : Hub) (code mor : Nat) : Hub :=
  if !h.canUp || decide (h.alm.nmt = 3) || bitAt (h.od 0x1014 0) 31 then h
  else if h.alm.emcyInhibit then { h with alm := { h.alm with emcyQ := h.alm.emcyQ ++ [(code, mor)] } }
  else
    let h := { h with alm := { h.alm with emcyInhibit := decide (h.od 0x1015 0 ≠ 0) } }
    h.send (.emcy code mor)

/-- The emergency error code of a record (R442). -/
def emcyCode (code : Nat) : Nat :=
  if code = 0x0B04 ∨ code = 0x0B05 then 0x4200
  else if code = 0x0B06 ∨ code = 0x0B08 then 0x3000
  else if code = 0x0B02 then 0x8130
  else if code / 256 = 0x0E then 0x6000
  else 0x5000

/-- Corrected records that send an emergency too (R442). -/
def emcyOfCorrected (code : Nat) : Bool := code == 0x0B02 || code == 0x0B04 || code == 0x0B06 || code == 0x0B08

-- AER (R363)

/-- An uncorrectable error of a function logged in its AER status, and reported unless masked. -/
def Hub.aerUnc (h : Hub) (fn bit : Nat) : Hub :=
  let h := h.set (Pci.aerUnc fn) (putBits (h.get (Pci.aerUnc fn)) bit 1 1)
  if bitAt (h.get (Pci.aerUncMask fn)) bit then h else h.send (.aer fn bit)

/-- A correctable error of a function logged, and reported unless masked. -/
def Hub.aerCor (h : Hub) (fn bit : Nat) : Hub :=
  let h := h.set (Pci.aerCor fn) (putBits (h.get (Pci.aerCor fn)) bit 1 1)
  if bitAt (h.get (Pci.aerCorMask fn)) bit then h else h.send (.aer fn (32 + bit))

-- Moraine (R481-R487)

/-- What a record says before it is numbered (Table 4 of 22). -/
structure RecIn where
  code : Nat
  cls : Nat
  part : Nat := 31
  inst : Nat := 0
  hpa : Option Nat := none
  die : Nat := 0
  d0 : Nat := 0
  d1 : Nat := 0

/-- How far a SEQ lies behind MOR_NEXT_SEQ (R483). -/
def seqAge (next seq : Nat) : Nat := diff32 next seq

/-- The newest held record of a code, with its slot. -/
def newestOf (next code : Nat) : Tab MorRec → Option (Nat × MorRec)
  | [] => none
  | (k, r) :: t =>
    match newestOf next code t with
    | none => if r.code = code then some (k, r) else none
    | some (k', r') => if r.code = code ∧ seqAge next r.seq < seqAge next r'.seq then some (k, r) else some (k', r')

/-- The oldest record of the lowest class held, with its slot (R483). -/
def victimSlot (next : Nat) : Tab MorRec → Option (Nat × MorRec)
  | [] => none
  | (k, r) :: t =>
    match victimSlot next t with
    | none => some (k, r)
    | some (k', r') =>
      if r.cls < r'.cls ∨ (r.cls = r'.cls ∧ seqAge next r'.seq < seqAge next r.seq) then some (k, r) else some (k', r')

/-- The lowest key from `k` on that a table does not list. -/
def firstGap {α : Type} (k : Nat) : Tab α → Nat
  | [] => k
  | (k', _) :: t => if k' = k then firstGap (k + 1) t else if k' < k then firstGap k t else k

/-- The slot a new record takes (R483); none: it is dropped. -/
def Hub.morSlot (h : Hub) (cls : Nat) : Option Nat :=
  let g := firstGap 0 h.mor
  if g < 4096 then some g
  else match victimSlot (h.get Reg.morNextSeqSeq) h.mor with
    | some (k, r) => if r.cls ≤ cls then some k else none
    | none => none

/-- Whether a record repeats the newest one of its code within 1 ms (R482). -/
def repeats (x : RecIn) (t : Nat) (r : MorRec) : Bool :=
  decide (x.cls = 0) && decide (r.inst = x.inst) && decide (r.hpa = x.hpa.getD 0) && (decide (r.flags % 2 = 1) == x.hpa.isSome)
    && decide (t ≤ r.time + 1000000)

/-- The paths of Table 7 of 22 that announce a record of a class. -/
def Hub.announce (h : Hub) (x : RecIn) : Hub :=
  let h := if x.cls = 0 then h.event Reg.morEventCorrected else if x.cls = 1 then h.event Reg.morEventDeferred
    else if x.cls = 2 then h.event Reg.morEventPartFatal else h
  let h := if x.cls = 2 ∧ x.part < 24 then h.raiseVf x.part 4 else h
  let h := if x.cls = 1 ∨ x.cls = 2 ∨ emcyOfCorrected x.code then h.emcy (emcyCode x.code) x.code else h
  if x.cls = 0 ∧ x.code / 256 = 0x0A then h.aerCor 0 14
  else if x.cls = 3 then h.aerUnc 0 22
  else h

/-- The record itself, in its slot. -/
def Hub.morPut (h : Hub) (x : RecIn) (t k : Nat) : Hub :=
  let seq := h.get Reg.morNextSeqSeq
  let r : MorRec := ⟨seq, x.code, x.cls, b2n x.hpa.isSome + 2 * x.die, x.part, x.inst, h.boots, 0, t, x.hpa.getD 0, x.d0, x.d1⟩
  { h.set Reg.morNextSeqSeq (if seq = 0xFFFFFFFF then 1 else seq + 1) with mor := tput h.mor k r }

/-- A new record (R482, R483): merged into the newest of its code, put in a slot, or dropped; then announced. -/
def Hub.record (h : Hub) (x : RecIn) : Hub :=
  let t := h.now.1
  let h := h.now.2
  match newestOf (h.get Reg.morNextSeqSeq) x.code h.mor with
  | some (k, r) =>
    if repeats x t r then { h with mor := tput h.mor k { r with rep := satAdd 16 r.rep 1 } }
    else match h.morSlot x.cls with
      | some k => (h.morPut x t k).announce x
      | none => ((h.count Reg.morLostCount 1).event Reg.morEventLost).announce x
  | none =>
    match h.morSlot x.cls with
    | some k => (h.morPut x t k).announce x
    | none => ((h.count Reg.morLostCount 1).event Reg.morEventLost).announce x

-- Completion records (R359, R360)

/-- A queue pair. -/
def Hub.qp (h : Hub) (fn q : Nat) : QPair := tget QPair.rst h.queues (fn * 64 + q)

/-- A queue pair written. -/
def Hub.setQp (h : Hub) (fn q : Nat) (x : QPair) : Hub := { h with queues := tset QPair.rst h.queues (fn * 64 + q) x }

/-- The 16 bytes of a completion record (Table 10 of 15). -/
def CplRec.word (r : CplRec) (phase : Nat) : Nat :=
  r.result % 2 ^ 64 + 2 ^ 64 * (r.sqHead % 2 ^ 16) + 2 ^ 80 * (r.q % 256) + 2 ^ 88 * (r.status % 256) + 2 ^ 96 * (r.cid % 2 ^ 16)
    + 2 ^ 112 * phase

/-- A completion record written to its slot, and its vector raised (R359). -/
def Hub.writeCpl (h : Hub) (fn q : Nat) (r : CplRec) : Hub :=
  let x := h.qp fn q
  let lg := h.get (Reg.qCtrlCqLog2 fn q)
  let addr := h.get (Reg.qCqBaseAddr fn q) * 4096 + 16 * (x.c % 2 ^ lg)
  let phase := if (x.c / 2 ^ lg) % 2 = 0 then 1 else 0
  let h := (h.setQp fn q { x with c := wrapAdd 32 x.c 1 }).send (.hostWrite fn addr 16 (r.word phase))
  if r.noIrq || !h.on (Reg.qCtrlIrqEn fn q) then h else h.msix fn (h.get (Reg.qCtrlVector fn q))

/-- The completion queue has no free slot (R359). -/
def Hub.cqFull (h : Hub) (fn q : Nat) : Bool :=
  decide (2 ^ h.get (Reg.qCtrlCqLog2 fn q) ≤ diff32 (h.qp fn q).c (h.qp fn q).cqHead)

/-- A draining queue whose fetched commands have finished and whose records are written is disabled (R360). -/
def Hub.drainQueue (h : Hub) (fn q : Nat) : Hub :=
  if h.get (Reg.qStatusState fn q) = 2 ∧ (h.qp fn q).openCmds = [] ∧ (h.qp fn q).held = [] then h.set (Reg.qStatusState fn q) 0
  else h

/-- Held records written as far as there is room and the function may write (R359, R364). -/
def Hub.releaseHeld (n : Nat) (h : Hub) (fn q : Nat) : Hub :=
  match n with
  | 0 => h
  | n + 1 =>
    match (h.qp fn q).held with
    | [] => (h.set (Reg.qStatusHeld fn q) 0).drainQueue fn q
    | r :: rest =>
      if h.quiet fn then h
      else if h.cqFull fn q then h.set (Reg.qStatusHeld fn q) 1
      else Hub.releaseHeld n ((h.setQp fn q { h.qp fn q with held := rest }).writeCpl fn q r) fn q

/-- The records of a queue that can go out now do. -/
def Hub.flushQueue (h : Hub) (fn q : Nat) : Hub := Hub.releaseHeld ((h.qp fn q).held.length + 1) h fn q

/-- A command completes with a status and a RESULT (R359): its record follows those already held; a queue that has been
reset takes none (R366), and no command that was open in it posts any more (its queue number is then 64). -/
def Hub.complete (h : Hub) (c : QCmd) (status result : Nat) : Hub :=
  if 64 ≤ c.q ∨ h.get (Reg.qStatusState c.fn c.q) = 0 then h
  else
    let x := h.qp c.fn c.q
    let r : CplRec := ⟨result, c.sqHead, c.q, status, qf c 2 2, bitAt (qf c 1 1) 1⟩
    (h.setQp c.fn c.q { x with openCmds := x.openCmds.erase c, held := x.held ++ [r] }).flushQueue c.fn c.q

-- States

/-- The hub of a state changed. -/
def State.onHub (s : State) (f : Hub → Hub) : State := { s with hub := f s.hub }

/-- A command that changes the hub only. -/
def hubStep (f : Hub → Hub) (s : State) : Host.Outcome State Fault Refusal := .next (s.onHub f)

-- Lower halves held under R5

/-- A write of BAR0 by a function that R4 accepts: the lower half held for it is discarded (R5). -/
def State.wroteBy (s : State) (fn : Nat) : State := s.onHub (fun h => { h with halves := h.halves.filter (fun x => !decide (x.1 = fn)) })

/-- A write from an interface: PF MMIO is the PF's BAR0. -/
def State.wroteVia (s : State) (via : Iface) : State := if via.code = 1 then s.wroteBy 0 else s

/-- A write from a source of doorbells: a function's BAR0. -/
def State.wroteSrc (s : State) (src : DbSrc) : State :=
  match src with
  | .pf => s.wroteBy 0
  | .vf v => s.wroteBy v.toNat
  | .master _ => s

end Sys2Proof.Machine
end

