-- ==== Sys2Proof/Machine/Mem.lean ====
section
/-! DEFINITION. The hub's physical address map (R85, R183, R186, R211, R383) and its byte memory: reading and writing bytes,
poison by 32-byte sector (R476), unfilled granules (R330). -/

namespace Sys2Proof.Machine

/-- Where a hub physical address lies. -/
inductive Region where
  | stack                        -- a stack range of a die
  | scratch (slice off : Nat)    -- the scratchpad aperture
  | floeMem (floe off : Nat)
  | event (floe k : Nat)
  | window (slot off : Nat)
  | regs (off : Nat)
  | nowhere
  deriving DecidableEq, Repr

/-- The dies of the package (R27). -/
def Hub.dies (h : Hub) : Nat := if h.on Reg.glbRevTwin then 2 else 1

/-- The region of an address (R85, R183, R211, R383, 0x7F00_0000_0000 for registers: R234). -/
def Hub.region (h : Hub) (a : Nat) : Region :=
  if a < 0x10000000000 * h.dies then .stack
  else if 0x200000000000 ≤ a ∧ a < 0x200000000000 + h.dies * 0x40000000 then
    let b := a - 0x200000000000
    let m := b % 0x40000000 / 0x400000
    if m < 96 then .scratch (b / 0x40000000 * 96 + m) (b % 0x400000) else .nowhere
  else if 0x300000000000 ≤ a ∧ a < 0x300000000000 + h.dies * 0x10000000 then
    let b := a - 0x300000000000
    let d := b / 0x10000000
    let r := b % 0x10000000
    if r < 0xC400000 then .floeMem (d * 256 + r / 0x100000) (r % 0x100000)
    else if 0xC800000 ≤ r ∧ r < 0xC800000 + 196 * 0x100 then .event (d * 256 + (r - 0xC800000) / 0x100) (r % 0x100 / 4)
    else .nowhere
  else if 0x400000000000 ≤ a ∧ a < 0x7F0000000000 then .window ((a - 0x400000000000) / 2 ^ 36) (a % 2 ^ 36)
  else if 0x7F0000000000 ≤ a ∧ a < 0x7F0010000000 then .regs (a - 0x7F0000000000)
  else .nowhere

/-- The stack of an address, 0-23 as the HBM_ registers number it (n = 12d + m); 24 where a[39:36] names none. -/
def stackOf (a : Nat) : Nat :=
  if a / 2 ^ 36 % 16 < 12 then 12 * (a / 2 ^ 40) + a / 2 ^ 36 % 16 else 24

/-- The half-stack of an address: bit 2n + h of PRT_HALVES. -/
def halfOf (a : Nat) : Nat := 2 * stackOf a + a / 2 ^ 35 % 2

/-- Bytes of a half-stack by DENSITY code (Table 7 of 02): 12, 18, 24 or 32 GiB. -/
def halfBytes (density : Nat) : Nat :=
  if density = 1 then 12 * 2 ^ 30 else if density = 2 then 18 * 2 ^ 30 else if density = 3 then 24 * 2 ^ 30
  else if density = 4 then 32 * 2 ^ 30 else 0

/-- c of R183 for a half-stack. -/
def Hub.halfC (h : Hub) (k : Nat) : Nat := halfBytes (h.get (Reg.hbmStackInfoDensity (k / 2)))

/-- u of R183: usable bytes. -/
def Hub.halfU (h : Hub) (k : Nat) : Nat := h.halfC k * 63 / 64

/-- What a stack address is (R183). -/
inductive StackKind where
  | hole | unavailable | metadata | usable
  deriving DecidableEq, Repr

/-- The decode of R183 as far as what the address is. -/
def Hub.stackKind (h : Hub) (a : Nat) : StackKind :=
  let n := stackOf a
  if 24 ≤ n ∨ h.get (Reg.hbmStackInfoState n) = 0 ∨ h.halfC (halfOf a) ≤ a % 2 ^ 35 then .hole
  else if h.get (Reg.hbmStackInfoState n) = 3 ∨ h.get (Reg.hbmStackInfoState n) = 5 then .unavailable
  else if h.halfU (halfOf a) ≤ a % 2 ^ 35 then .metadata
  else .usable

/-- p of R183 for a line index. -/
def lineFold (l : Nat) : Nat :=
  (((((bits l 0 5 ^^^ bits l 5 5) ^^^ bits l 10 5) ^^^ bits l 15 5) ^^^ bits l 20 5) ^^^ bits l 25 3)

/-- The pseudo-channel and the row key of an address (R183). -/
def rowOf (a : Nat) : Nat × Nat :=
  let l := a % 2 ^ 35 / 128
  (32 * (a / 2 ^ 35 % 2) + lineFold l, l / 256)

/-- A row as DETAIL0 and HBM_ROWQ carry it: STACK, PC, ROWKEY. -/
def rowWord (n pc row : Nat) : Nat := n + 2 ^ 8 * pc + 2 ^ 16 * row

/-- The pseudo base of core private memory in the byte memory: above every HPA (a core's private memory has no HPA). -/
def privBase (core : Nat) : Nat := 2 ^ 48 + core * 0x4000

/-- HPA of a floe's memory (R85). -/
def floeHpa (f : Nat) : Nat := 0x300000000000 + f / 256 * 0x10000000 + f % 256 * 0x100000

/-- HPA of a floe's event counter (R85). -/
def eventHpa (f k : Nat) : Nat := 0x300000000000 + f / 256 * 0x10000000 + 0xC800000 + f % 256 * 0x100 + 4 * k

-- Bytes

/-- One byte. -/
def Memory.byte (m : Memory) (a : Nat) : Byte := tget 0 m.bytes a

/-- `n` bytes as a little-endian number (R3). -/
def Memory.rd (m : Memory) (a n : Nat) : Nat :=
  match n with
  | 0 => 0
  | n + 1 => (m.byte a).toNat + 256 * m.rd (a + 1) n

/-- One byte written. -/
def Memory.wrByte (m : Memory) (a : Nat) (b : Byte) : Memory := { m with bytes := tset 0 m.bytes a b }

/-- The low `n` bytes of `v` written, little-endian (R3). -/
def Memory.wr (m : Memory) (a n v : Nat) : Memory :=
  match n with
  | 0 => m
  | n + 1 => (m.wrByte a (BitVec.ofNat 8 v)).wr (a + 1) n (v / 256)

/-- The bytes of a list written. -/
def Memory.wrList (m : Memory) (a : Nat) : List Byte → Memory
  | [] => m
  | b :: t => (m.wrByte a b).wrList (a + 1) t

/-- The sectors that `n` bytes at `a` touch. -/
def sectorsOf (a n : Nat) : List Nat := (List.range ((a % 32 + n + 31) / 32)).map (· + a / 32)

/-- Some sector of the range is poisoned. -/
def Memory.bad (m : Memory) (a n : Nat) : Bool := (sectorsOf a n).any (fun k => kmem m.poison k)

/-- A sector marked or unmarked. -/
def Memory.mark (m : Memory) (k : Nat) (bad : Bool) : Memory :=
  { m with poison := if bad then kadd m.poison k else kdel m.poison k }

/-- The sectors that a write of `n` bytes at `a` covers whole. -/
def wholeSectors (a n : Nat) : List Nat :=
  (sectorsOf a n).filter (fun k => decide (a ≤ 32 * k) && decide (32 * k + 32 ≤ a + n))

/-- A write of unpoisoned data into directly held memory: the bytes land, and sectors it covers whole lose their mark; a
sector covered in part keeps it (R476). -/
def Memory.store (m : Memory) (a n v : Nat) : Memory :=
  (wholeSectors a n).foldl (fun m k => m.mark k false) (m.wr a n v)

/-- A write of poisoned data into directly held memory: the bytes land with the mark. -/
def Memory.storeBad (m : Memory) (a n v : Nat) : Memory :=
  (sectorsOf a n).foldl (fun m k => m.mark k true) (m.wr a n v)

/-- A range of bytes zeroed with its marks: bytes and marks in it are no longer listed. -/
def Memory.zero (m : Memory) (a n : Nat) : Memory :=
  { m with bytes := m.bytes.filter (fun p => !(decide (a ≤ p.1) && decide (p.1 < a + n))),
           poison := m.poison.filter (fun k => !(decide (a ≤ 32 * k) && decide (32 * k < a + n))) }

/-- Every line of a range dropped from Firn, dirty or not. -/
def Memory.dropLines (m : Memory) (p : Nat → FirnLine → Bool) : Memory :=
  { m with lines := m.lines.filter (fun l => !p l.1 l.2) }

-- Unfilled granules (R330)

/-- Granules of a half-stack. -/
def Hub.granules (h : Hub) (k : Nat) : Nat := h.halfC k / 65536

/-- The first address of a half-stack. -/
def halfBase (k : Nat) : Nat := k / 24 * 2 ^ 40 + k % 24 * 2 ^ 35

/-- The granule of an address within its half-stack. -/
def granOf (a : Nat) : Nat := a % 2 ^ 35 / 65536

/-- The granule is marked unfilled. -/
def Memory.unfilled (m : Memory) (k g : Nat) : Bool :=
  let f := tget HalfFill.rst m.fill k
  f.marked && !kmem f.filled g

/-- A granule filled: its bit clears (R330; its bytes already read as zero). -/
def Memory.fillGran (m : Memory) (k g : Nat) : Memory :=
  let f := tget HalfFill.rst m.fill k
  if f.marked then { m with fill := tset HalfFill.rst m.fill k { f with filled := kadd f.filled g } } else m

/-- A half-stack marked unfilled: every byte of it reads as zero from now on and no mark stands (R330, Table 2 of 14). -/
def Memory.unfillHalf (m : Memory) (k : Nat) : Memory :=
  let m := m.zero (halfBase k) (2 ^ 35)
  { m with fill := tset HalfFill.rst m.fill k ⟨true, []⟩ }

/-- Granules of a half-stack still unfilled. -/
def State.unfilledCount (s : State) (k : Nat) : Nat :=
  let f := tget HalfFill.rst s.mem.fill k
  if f.marked then s.hub.granules k - f.filled.length else 0

/-- The stack granule that a write touches is filled first (Table 2 of 14). -/
def Memory.fillFor (m : Memory) (a : Nat) : Memory := m.fillGran (halfOf a) (granOf a)

end Sys2Proof.Machine
end

