-- ==== Sys2Proof/Machine/Firn.lean ====
section
/-! DEFINITION. Firn (09) and the stack memory behind it: home slices (R207, R208), allocation and victims (R213-R218), reads and
writes of a line in the slice's order (R219), maintenance of a line (R223), and what a master sees of an address of the hub
(R186, R212, R53, R464). A command that accesses memory does so in one step; requests already waiting on the line in slices
and controllers are applied first (log entry 17). -/

namespace Sys2Proof.Machine

-- Home slices

/-- The home set of a partition on a die (R207), in rising slice number. -/
def Hub.homeSet (h : Hub) (p d : Nat) : List Nat :=
  (h.slicesOf p).filter (fun s => decide (s / 96 = d) && h.on (Reg.frnSliceStatusHome s))

/-- i of R207: the place in a home set of `k` slices. -/
def homeIndex (a k : Nat) : Nat :=
  let g := bits a 7 33
  let h := (bits g 0 16 ^^^ bits g 16 16) ^^^ (bits g 32 1 * 2 ^ 15)
  h * k / 2 ^ 16

/-- The default slice of an address (R208). -/
def defaultSlice (a : Nat) : Nat := 4 * halfOf a + lineFold (a % 2 ^ 35 / 128) / 8

/-- The home slice of a stack-memory address, and whether it may allocate there (R207, R208). -/
def Hub.home (h : Hub) (a : Nat) : Nat × Bool :=
  let p := h.halfOwner (halfOf a)
  let l := if p = 31 then [] else h.homeSet p (a / 2 ^ 40)
  match l[homeIndex a l.length]? with
  | some s => (s, true)
  | none => (defaultSlice a, false)

/-- The enabled cache ways of a slice (R12, R218, R228). -/
def Hub.cacheWays (h : Hub) (s : Nat) : List Nat :=
  let m := h.get (Reg.frnSliceStatusMode s)
  (List.range (if m = 0 then 16 else if m = 2 then 8 else 0)).filter
    (fun w => !bitAt (h.get (Reg.frnSliceStatusDisabled s)) w && !bitAt (h.get (Reg.frnSliceCtrlOpDisable s)) w)

/-- A line may be allocated at its home slice. -/
def Hub.canAlloc (h : Hub) (a : Nat) : Bool := (h.home a).2 && !(h.cacheWays (h.home a).1).isEmpty

-- Sectors

/-- A 32-byte sector of a line's data. -/
def secGet (d k : Nat) : Nat := bits d (256 * k) 256

/-- A 32-byte sector of a line's data replaced. -/
def secPut (d k v : Nat) : Nat := putBits d (256 * k) 256 v

/-- Bytes of `new` where the mask has a one, of `old` elsewhere, over `n` bytes. -/
def mergeBytes (n mask old new : Nat) : Nat :=
  match n with
  | 0 => 0
  | n + 1 => (if mask % 2 = 1 then new % 256 else old % 256) + 256 * mergeBytes n (mask / 2) (old / 256) (new / 256)

/-- A bit of a mask set or cleared. -/
def setBit (m k : Nat) (b : Bool) : Nat := putBits m k 1 (b2n b)

/-- A sector of stack memory with its poison mark (R193). -/
def Memory.backSec (m : Memory) (line k : Nat) : Nat × Bool := (m.rd (128 * line + 32 * k) 32, kmem m.poison (4 * line + k))

/-- A sector of stack memory written whole with its mark; its granule is filled first (Table 2 of 14). -/
def Memory.backPut (m : Memory) (line k v : Nat) (bad : Bool) : Memory :=
  (((m.fillFor (128 * line)).wr (128 * line + 32 * k) 32 v).mark (4 * line + k) bad)

/-- Dirty sectors written back (R218), poisoned ones as poison (R195). -/
def Memory.writeBack (m : Memory) (line dirty poison data : Nat) : Memory :=
  foldFrom 4 0 (fun k m => if bitAt dirty k then m.backPut line k (secGet data k) (bitAt poison k) else m) m

/-- The sectors of a mask fetched from the stack into data and poison bits. -/
def Memory.fetch (m : Memory) (line mask data poison : Nat) : Nat × Nat :=
  foldFrom 4 0 (fun k dp =>
    if bitAt mask k then
      (secPut dp.1 k (m.backSec line k).1, setBit dp.2 k (m.backSec line k).2)
    else dp) (data, poison)

-- Ways

/-- The next state of a slice's LFSR (R218). -/
def lfsrNext (r : Nat) : Nat := if r % 2 = 1 then (r / 2) ^^^ 0xB400 else r / 2

/-- The line that stands in a way of a set, if any. -/
def Memory.inWay (m : Memory) (s set w : Nat) : Option (Nat × FirnLine) :=
  m.lines.find? (fun l => decide (l.2.slice = s) && decide (l.2.set = set) && decide (l.2.way = w))

/-- A way is busy with a fill or an eviction (R218). -/
def Memory.wayBusy (m : Memory) (s set w : Nat) : Bool :=
  m.misses.any (fun e => decide (e.slice = s) && decide ((Config.firnSet s e.line).val = set) && decide (e.way = some w))
    || m.evicts.any (fun e => decide (e.slice = s) && decide (e.set = set) && decide (e.way = w))

/-- The eligible ways of a set (R218). -/
def State.eligible (s : State) (sl set : Nat) : List Nat := (s.hub.cacheWays sl).filter (fun w => !s.mem.wayBusy sl set w)

/-- The first eligible way from `w` upward, wrapping around. -/
def nextWay (l : List Nat) (w : Nat) : Nat := (l.find? (fun x => decide (w ≤ x))).getD (l.headD 0)

/-- The way a new line takes (R218), with the state whose LFSR has advanced if it did; none: no way is eligible. -/
def State.pickWay (s : State) (sl set : Nat) : Option (Nat × State) :=
  match s.eligible sl set with
  | [] => none
  | w0 :: l =>
    match (w0 :: l).find? (fun w => (s.mem.inWay sl set w).isNone) with
    | some w => some (w, s)
    | none =>
      let r := lfsrNext (tget 0xACE1 s.mem.lfsr sl)
      let s := { s with mem := { s.mem with lfsr := tset 0xACE1 s.mem.lfsr sl r } }
      some (nextWay (w0 :: l) (if s.hub.get (Reg.frnSliceStatusMode sl) = 2 then r % 8 else r % 16), s)

/-- The line of a way evicted at once: dirty sectors written back, the way empty. -/
def State.evictNow (s : State) (sl set w : Nat) : State :=
  match s.mem.inWay sl set w with
  | none => s
  | some (line, l) =>
    let m := s.mem.writeBack line l.dirty l.poison l.data
    { s with hub := s.hub.wrap (Reg.frnPerfEvictCount sl) 1, mem := { m with lines := terase m.lines line } }

/-- A way made free for a line at its home slice, at once; none: the line is not installed. -/
def State.claimWay (s : State) (line : Nat) : Option (Nat × Nat × State) :=
  if s.hub.canAlloc (128 * line) then
    let sl := (s.hub.home (128 * line)).1
    let set := (Config.firnSet sl line).val
    match s.pickWay sl set with
    | none => none
    | some (w, s) => some (sl, w, s.evictNow sl set w)
  else none

/-- A line put in its way. -/
def State.putLine (s : State) (line : Nat) (l : FirnLine) : State := { s with mem := { s.mem with lines := tput s.mem.lines line l } }

/-- One request forwarded to a controller, or one hit, counted. -/
def State.firnCount (s : State) (line : Nat) (hit : Bool) : State :=
  let sl := (s.hub.home (128 * line)).1
  s.onHub (fun h => h.wrap (if hit then Reg.frnPerfHitCount sl else Reg.frnPerfMissCount sl) 1)

-- A line read and written

/-- Data and poison of a line as a read of sectors `mask` leaves it (R214, R215). -/
def State.lineRead (s : State) (line mask : Nat) (alloc : Bool) : Nat × Nat × State :=
  match tlook s.mem.lines line with
  | some l =>
    let need := mask &&& (15 - l.valid)
    if need = 0 then (l.data, l.poison, s.firnCount line true)
    else
      let dp := s.mem.fetch line need l.data l.poison
      (dp.1, dp.2, (s.firnCount line false).putLine line { l with valid := l.valid ||| need, data := dp.1, poison := dp.2 })
  | none =>
    match (if alloc then (s.firnCount line false).claimWay line else none) with
    | none =>
      let dp := s.mem.fetch line mask 0 0
      (dp.1, dp.2, s.firnCount line false)
    | some (sl, w, s) =>
      let get := if s.hub.on (Reg.frnSliceCtrlFill sl) then mask else 15
      let dp := s.mem.fetch line get 0 0
      (dp.1, dp.2, s.putLine line
        ⟨sl, (Config.firnSet sl line).val, w, s.hub.halfOwner (halfOf (128 * line)), get, 0, dp.2, dp.1⟩)

/-- One sector of a held line written (R216): a whole sector is taken as it is, a part of an invalid one is fetched and
merged. A partial write keeps the mark of the sector (R476). -/
def Memory.putSec (m : Memory) (line bmask data poison k : Nat) (l : FirnLine) : FirnLine :=
  let bm := bits bmask (32 * k) 32
  if bm = 0 then l
  else if bm = 2 ^ 32 - 1 then
    { l with valid := setBit l.valid k true, dirty := setBit l.dirty k true, poison := setBit l.poison k (bitAt poison k),
             data := secPut l.data k (secGet data k) }
  else
    let old := if bitAt l.valid k then (secGet l.data k, bitAt l.poison k) else m.backSec line k
    { l with valid := setBit l.valid k true, dirty := setBit l.dirty k true,
             poison := setBit l.poison k (old.2 || bitAt poison k),
             data := secPut l.data k (mergeBytes 32 bm old.1 (secGet data k)) }

/-- One sector of an absent line written in the controller (R190). -/
def Memory.putBack (m : Memory) (line bmask data poison k : Nat) : Memory :=
  let bm := bits bmask (32 * k) 32
  if bm = 0 then m
  else if bm = 2 ^ 32 - 1 then m.backPut line k (secGet data k) (bitAt poison k)
  else
    let old := m.backSec line k
    m.backPut line k (mergeBytes 32 bm old.1 (secGet data k)) (old.2 || bitAt poison k)

/-- Some byte of a sector that is written in part is neither valid in the line: the write forwards a fetch (R216). -/
def writeFetches (bmask valid : Nat) : Bool :=
  (List.range 4).any (fun k => decide (bits bmask (32 * k) 32 ≠ 0) && decide (bits bmask (32 * k) 32 ≠ 2 ^ 32 - 1) && !bitAt valid k)

/-- A line written under a byte mask (R214, R216), with poison bits by sector. -/
def State.lineWrite (s : State) (line bmask data poison : Nat) (alloc : Bool) : State :=
  match tlook s.mem.lines line with
  | some l =>
    let l' := foldFrom 4 0 (s.mem.putSec line bmask data poison) l
    (s.firnCount line (!writeFetches bmask l.valid)).putLine line l'
  | none =>
    match (if alloc then s.claimWay line else none) with
    | none =>
      { s.firnCount line false with mem := foldFrom 4 0 (fun k m => m.putBack line bmask data poison k) s.mem }
    | some (sl, w, s) =>
      let l : FirnLine := ⟨sl, (Config.firnSet sl line).val, w, s.hub.halfOwner (halfOf (128 * line)), 0, 0, 0, 0⟩
      let s := if writeFetches bmask 0 then s.firnCount line false else s
      s.putLine line (foldFrom 4 0 (s.mem.putSec line bmask data poison) l)

/-- CLEAN of a line (Table 1): dirty sectors are written back. -/
def State.lineClean (s : State) (line : Nat) : State :=
  match tlook s.mem.lines line with
  | none => s
  | some l => { s with mem := (s.mem.writeBack line l.dirty l.poison l.data) }.putLine line { l with dirty := 0 }

/-- INVALIDATE of a line (Table 1): the line is dropped, dirty sectors with it. -/
def State.lineDrop (s : State) (line : Nat) : State := { s with mem := { s.mem with lines := terase s.mem.lines line } }

/-- ZERO-LINE (R223): four valid, dirty sectors of zero bytes, or a whole-line write of zeros where the address passes through
uncached. -/
def State.lineZero (s : State) (line : Nat) : State := s.lineWrite line (2 ^ 128 - 1) 0 0 true

-- Requests waiting on the line

/-- A slice request applied to the line in the slice's order (R219), and answered. -/
def State.applyReq (s : State) (r : SliceReq) : State :=
  if r.write then
    (s.lineWrite r.line r.mask.toNat r.data.toNat r.poison.toNat r.alloc).onHub (·.send (.slice r.tag true 0 0))
  else
    let x := s.lineRead r.line r.sectors.toNat r.alloc
    x.2.2.onHub (·.send (.slice r.tag false x.1 x.2.1))

/-- Requests applied in order. -/
def State.applyAll (s : State) : List SliceReq → State
  | [] => s
  | r :: t => (s.applyReq r).applyAll t

/-- The requests that wait on a line, in order: those of its miss, those that wait for its eviction, those at the slice. -/
def Memory.onLine (m : Memory) (line : Nat) : List SliceReq :=
  (m.misses.filter (fun e => decide (e.line = line))).flatMap (·.reqs)
    ++ (m.evicts.filter (fun e => decide (e.line = line))).flatMap (·.waiting)
    ++ (m.waiting.filter (fun x => decide (x.2.line = line))).map (·.2)

/-- Open evictions of a line written back. -/
def Memory.closeEvicts (m : Memory) (line : Nat) : Memory :=
  let m' := (m.evicts.filter (fun e => decide (e.line = line))).foldl (fun m e => m.writeBack line e.dirty e.poison e.data) m
  { m' with evicts := m'.evicts.filter (fun e => !decide (e.line = line)) }

/-- Everything that waits on a line is applied (log entry 17). -/
def State.settle (s : State) (line : Nat) : State :=
  let l := s.mem.onLine line
  let m := s.mem.closeEvicts line
  let m := { m with misses := m.misses.filter (fun e => !decide (e.line = line)),
                    waiting := m.waiting.filter (fun x => !decide (x.2.line = line)) }
  ({ s with mem := m }).applyAll l

-- What a master sees of an address

/-- Who accesses: a master of a partition, an arriving remote request into a partition, the PF, or the hub itself. -/
inductive Org where
  | part (p : Nat)
  | remote (p : Nat)
  | pf
  | hub
  deriving DecidableEq, Repr

/-- The domain whose granules hold an address (R463, R464). -/
def Hub.domainAt (h : Hub) (a : Nat) : Option Nat :=
  findLow 64 (fun d => h.on (Reg.secDomainState d) && decide (h.get (Reg.secDomainBase d) ≤ a)
    && decide (a < h.get (Reg.secDomainBase d) + 65536 * h.get (Reg.secDomainGranules d)))

/-- A scratchpad offset exists in the active epoch (R211, R228). -/
def Hub.scratchHas (h : Hub) (sl off : Nat) : Bool :=
  let m := h.get (Reg.frnSliceStatusMode sl)
  let w := if off < 0x200000 then 8 + off / 0x40000 else (off - 0x200000) / 0x40000
  (if off < 0x200000 then m == 1 || m == 2 else m == 1)
    && !bitAt (h.get (Reg.frnSliceStatusDisabled sl)) w && !bitAt (h.get (Reg.frnSliceCtrlOpDisable sl)) w

/-- What an access answers: its status, the bytes as a number, poison by 32-byte sector of the range (bit 0 the sector the
first byte stands in), and the machine after it. -/
structure Ret where
  st : Nat
  v : Nat
  bad : Nat
  s : State

/-- Every sector that `n` bytes at `a` touch, as poison bits. -/
def allBad (a n : Nat) : Nat := 2 ^ (sectorsOf a n).length - 1

/-- Poison bits of directly held memory. -/
def Memory.badBits (m : Memory) (a n : Nat) : Nat :=
  (sectorsOf a n).foldr (fun k acc => b2n (kmem m.poison k) + 2 * acc) 0

/-- Directly held memory written with poison bits: a poisoned part marks its sector, a whole unpoisoned sector loses its mark
(R476). -/
def Memory.storeBits (m : Memory) (a n v bad : Nat) : Memory :=
  let m := m.wr a n v
  foldFrom (sectorsOf a n).length 0 (fun i m =>
    let k := a / 32 + i
    if bitAt bad i then m.mark k true
    else if a ≤ 32 * k ∧ 32 * k + 32 ≤ a + n then m.mark k false
    else m) m

/-- The corrected record of a hole, metadata or an unavailable stack (R186). -/
def Hub.holeRec (h : Hub) (a : Nat) (p : Nat) : Hub :=
  if h.region a = .stack then
    h.record { code := 0x0309, cls := 0, part := p, inst := stackOf a, hpa := some a, die := a / 2 ^ 40,
               d0 := rowWord (stackOf a) (rowOf a).1 (rowOf a).2, d1 := bits a 5 2 }
  else h.record { code := 0x0309, cls := 0, part := p, hpa := some a }

/-- An aperture record (R53, R212): 0x0206 or 0x0207, with FRN_EVENT.APERTURE. -/
def Hub.apertureRec (h : Hub) (code sl a p : Nat) : Hub :=
  (h.record { code := code, cls := 0, part := p, inst := sl, hpa := some a, die := sl / 96 }).event Reg.frnEventAperture

/-- Access to a domain by a master that may not read it (Table 11 of 20): record 0x0C02. -/
def Hub.domainRec (h : Hub) (a p : Nat) : Hub :=
  (h.record { code := 0x0C02, cls := 0, part := p, inst := (h.domainAt a).getD 0, hpa := some a, die := a / 2 ^ 40 }).event Reg.secEventDomainAccess

/-- The partition a record of an access names. -/
def Org.part' : Org → Nat
  | .part p => p
  | .remote p => p
  | .pf => 31
  | .hub => 31

/-- Stack memory read within one line, after what waits there. -/
def State.stackRead (s : State) (a n : Nat) (alloc : Bool) : Ret :=
  let line := a / 128
  let o := a % 128
  let mask := ((List.range ((o % 32 + n + 31) / 32)).map (fun i => 2 ^ (o / 32 + i))).sum
  let x := (s.settle line).lineRead line mask alloc
  ⟨0, bits x.1 (8 * o) (8 * n), bits (x.2.1 &&& mask) (o / 32) 4, x.2.2⟩

/-- Stack memory written within one line, after what waits there. -/
def State.stackWrite (s : State) (a n v bad : Nat) (alloc : Bool) : State :=
  let line := a / 128
  let o := a % 128
  (s.settle line).lineWrite line ((2 ^ n - 1) * 2 ^ o) (v % 2 ^ (8 * n) * 2 ^ (8 * o)) (bad * 2 ^ (o / 32)) alloc

/-- A read of at most the rest of a line at an HPA. -/
def State.readPiece (s : State) (o : Org) (a n : Nat) (alloc : Bool) : Ret :=
  match s.hub.region a with
  | .stack =>
    match s.hub.stackKind a with
    | .usable =>
      match s.hub.domainAt a with
      | none => s.stackRead a n alloc
      | some d =>
        match o with
        | .part _ => if s.hub.get (Reg.secDomainState d) = 1 then ⟨0, 0, 0, s⟩ else s.stackRead a n alloc
        | .hub => s.stackRead a n alloc
        | .remote p => ⟨0, 0, allBad a n, s.onHub (·.domainRec a p)⟩
        | .pf => ⟨0, 0, allBad a n, s.onHub (·.domainRec a 31)⟩
    | .unavailable => ⟨0x61, 0, allBad a n, s.onHub (·.holeRec a o.part')⟩
    | _ => ⟨0x60, 0, allBad a n, s.onHub (·.holeRec a o.part')⟩
  | .scratch sl off =>
    if o ≠ .pf ∧ o ≠ .hub ∧ s.hub.sliceOwner sl ≠ o.part' then
      ⟨0x04, 0, allBad a n, s.onHub (·.apertureRec 0x0207 sl a o.part')⟩
    else if s.hub.scratchHas sl off then ⟨0, s.mem.rd a n, s.mem.badBits a n, s⟩
    else ⟨0, 0, allBad a n, s.onHub (·.apertureRec 0x0206 sl a o.part')⟩
  | .floeMem _ _ => ⟨0, s.mem.rd a n, s.mem.badBits a n, s⟩
  | .event _ _ => ⟨0, s.mem.rd a n, 0, s⟩
  | .window _ _ => ⟨0x60, 0, allBad a n, s.onHub (·.holeRec a o.part')⟩
  | .regs _ => ⟨0x04, 0, allBad a n, s⟩
  | .nowhere => ⟨0x60, 0, allBad a n, s.onHub (·.holeRec a o.part')⟩

/-- A write of at most the rest of a line at an HPA. -/
def State.writePiece (s : State) (o : Org) (a n v bad : Nat) (alloc : Bool) : Ret :=
  match s.hub.region a with
  | .stack =>
    match s.hub.stackKind a with
    | .usable =>
      if o ≠ .hub ∧ (s.hub.domainAt a).isSome then ⟨0x04, 0, 0, s⟩
      else ⟨0, 0, 0, s.stackWrite a n v bad alloc⟩
    | .unavailable => ⟨0x61, 0, 0, s.onHub (·.holeRec a o.part')⟩
    | _ => ⟨0x60, 0, 0, s.onHub (·.holeRec a o.part')⟩
  | .scratch sl off =>
    if o ≠ .pf ∧ o ≠ .hub ∧ s.hub.sliceOwner sl ≠ o.part' then ⟨0x04, 0, 0, s.onHub (·.apertureRec 0x0207 sl a o.part')⟩
    else if s.hub.scratchHas sl off then ⟨0, 0, 0, { s with mem := s.mem.storeBits a n v bad }⟩
    else ⟨0, 0, 0, s.onHub (·.apertureRec 0x0206 sl a o.part')⟩
  | .floeMem _ _ => ⟨0, 0, 0, { s with mem := s.mem.storeBits a n v bad }⟩
  | .event _ _ => ⟨0, 0, 0, { s with mem := s.mem.wr a n v }⟩
  | .window _ _ => ⟨0x60, 0, 0, s.onHub (·.holeRec a o.part')⟩
  | .regs _ => ⟨0x04, 0, 0, s⟩
  | .nowhere => ⟨0x60, 0, 0, s.onHub (·.holeRec a o.part')⟩

/-- The first status that is not OK. -/
def firstSt (a b : Nat) : Nat := if a = 0 then b else a

/-- Pieces of a range, line by line. -/
def State.readLoop (f : Nat) (s : State) (o : Org) (a n : Nat) (alloc : Bool) : Ret :=
  match f with
  | 0 => ⟨0, 0, 0, s⟩
  | f + 1 =>
    if n = 0 then ⟨0, 0, 0, s⟩
    else
      let k := min n (128 - a % 128)
      let r := s.readPiece o a k alloc
      let t := State.readLoop f r.s o (a + k) (n - k) alloc
      ⟨firstSt r.st t.st, r.v + 2 ^ (8 * k) * t.v, r.bad + 2 ^ ((a + k) / 32 - a / 32) * t.bad, t.s⟩

/-- `n` bytes read at an HPA. -/
def State.hubRead (s : State) (o : Org) (a n : Nat) (alloc : Bool) : Ret := State.readLoop (n / 128 + 2) s o a n alloc

/-- Pieces of a range written, line by line. -/
def State.writeLoop (f : Nat) (s : State) (o : Org) (a n v bad : Nat) (alloc : Bool) : Ret :=
  match f with
  | 0 => ⟨0, 0, 0, s⟩
  | f + 1 =>
    if n = 0 then ⟨0, 0, 0, s⟩
    else
      let k := min n (128 - a % 128)
      let r := s.writePiece o a k (v % 2 ^ (8 * k)) (bad % 2 ^ ((a % 32 + k + 31) / 32)) alloc
      let t := State.writeLoop f r.s o (a + k) (n - k) (v / 2 ^ (8 * k)) (bad / 2 ^ ((a + k) / 32 - a / 32)) alloc
      ⟨firstSt r.st t.st, 0, 0, t.s⟩

/-- The low `n` bytes of `v` written at an HPA, with poison bits by sector. -/
def State.hubWrite (s : State) (o : Org) (a n v bad : Nat) (alloc : Bool) : Ret :=
  State.writeLoop (n / 128 + 2) s o a n v bad alloc

/-- Maintenance of one line by address (R223): 0 ZERO-LINE, 1 CLEAN, 2 INVALIDATE, 3 CLEAN_INVALIDATE. -/
def State.lineMaint (s : State) (op line : Nat) : State :=
  let s := s.settle line
  if op = 0 then s.lineZero line
  else if op = 1 then s.lineClean line
  else if op = 2 then s.lineDrop line
  else (s.lineClean line).lineDrop line

/-- Maintenance by address at an HPA (R223, R186, R464): a status and the machine. On an address that passes through
uncached ZERO-LINE writes zeros and the others do nothing. -/
def State.maintAt (s : State) (o : Org) (op a : Nat) : Ret :=
  match s.hub.region a with
  | .stack =>
    match s.hub.stackKind a with
    | .usable =>
      if (s.hub.domainAt a).isSome then ⟨0x04, 0, 0, s⟩ else ⟨0, 0, 0, s.lineMaint op (a / 128)⟩
    | .unavailable => ⟨0x61, 0, 0, s.onHub (·.holeRec a o.part')⟩
    | _ => ⟨0x60, 0, 0, s.onHub (·.holeRec a o.part')⟩
  | .nowhere => ⟨0x60, 0, 0, s.onHub (·.holeRec a o.part')⟩
  | .regs _ => ⟨0x04, 0, 0, s⟩
  | _ => if op = 0 then s.writePiece o (a / 128 * 128) 128 0 0 true else ⟨0, 0, 0, s⟩

-- Event counters

/-- A 32-bit event counter. -/
def Memory.counter (m : Memory) (f k : Nat) : Nat := m.rd (eventHpa f k) 4

/-- An event counter written. -/
def Memory.setCounter (m : Memory) (f k v : Nat) : Memory := m.wr (eventHpa f k) 4 v

/-- An add to the event counter at an HPA (R100, R101); anything else at the address is left. -/
def State.eventAdd (s : State) (a : Nat) : State :=
  match s.hub.region a with
  | .event f k => { s with mem := s.mem.setCounter f k (wrapAdd 32 (s.mem.counter f k) 1) }
  | _ => s

-- Whole slices and partitions

/-- Every dirty line that satisfies `p` written back and every line that does dropped (R210). -/
def State.flushLines (s : State) (p : Nat → FirnLine → Bool) : State :=
  (s.mem.lines.filter (fun l => p l.1 l.2)).foldl (fun s l => (s.lineClean l.1).lineDrop l.1) s

/-- Dirty lines of a slice (FRN_SLICE_STATUS.DIRTY). -/
def Memory.dirtyLines (m : Memory) (sl : Nat) : Nat :=
  (m.lines.filter (fun l => decide (l.2.slice = sl) && decide (l.2.dirty ≠ 0))).length

end Sys2Proof.Machine
end

