-- ==== Sys2Proof/Machine/Pd.lean ====
section
/-! DEFINITION. Fields of the Package Descriptor in use (Tables 4-9 of 02). The hub keeps the descriptor as one number; bytes
beyond it read zero. -/

namespace Sys2Proof.Machine

/-- A field of the Package Descriptor by byte offset and size. -/
def Hub.pdf (h : Hub) (off size : Nat) : Nat := bits h.boot.pd (8 * off) (8 * size)

/-- Offset of a die section (R34). -/
def pdDie (d : Nat) : Nat := 64 + 512 * d

/-- DIE_COUNT. -/
def Hub.pdDies (h : Hub) : Nat := h.pdf 0x14 1

/-- BUDGET_W. -/
def Hub.pdBudget (h : Hub) : Nat := h.pdf 0x16 2

/-- SITE_MASK of a die. -/
def Hub.pdSiteMask (h : Hub) (d : Nat) : Nat := h.pdf (pdDie d + 1) 1

/-- STACK_MASK of a die. -/
def Hub.pdStackMask (h : Hub) (d : Nat) : Nat := h.pdf (pdDie d + 2) 2 % 4096

/-- LINK_MASK of a die. -/
def Hub.pdLinkMask (h : Hub) (d : Nat) : Nat := h.pdf (pdDie d + 8) 8

/-- Offset of the entry of global site `s`. -/
def pdSite (s : Nat) : Nat := pdDie (s / 8) + 0x10 + 16 * (s % 8)

/-- ENGINES of a site. -/
def Hub.pdEngines (h : Hub) (s : Nat) : Nat := h.pdf (pdSite s) 1
/-- MIN_MINOR of a site. -/
def Hub.pdMinMinor (h : Hub) (s : Nat) : Nat := h.pdf (pdSite s + 1) 1
/-- CAP_W of a site. -/
def Hub.pdSiteCap (h : Hub) (s : Nat) : Nat := h.pdf (pdSite s + 2) 2
/-- MODULES of a site. -/
def Hub.pdModules (h : Hub) (s : Nat) : Nat := h.pdf (pdSite s + 4) 1 % 64
/-- FLAGS of a site. -/
def Hub.pdSiteFlags (h : Hub) (s : Nat) : Nat := h.pdf (pdSite s + 5) 1
/-- MODEL_ID of a site. -/
def Hub.pdModel (h : Hub) (s : Nat) : Nat := h.pdf (pdSite s + 8) 8

/-- Offset of the entry of stack `n` (n = 12d + m). -/
def pdStack (n : Nat) : Nat := pdDie (n / 12) + 0x90 + 16 * (n % 12)

/-- DENSITY of a stack. -/
def Hub.pdDensity (h : Hub) (n : Nat) : Nat := h.pdf (pdStack n) 1
/-- MAX_SPEED of a stack. -/
def Hub.pdMaxSpeed (h : Hub) (n : Nat) : Nat := h.pdf (pdStack n + 1) 1
/-- CAP_W of a stack. -/
def Hub.pdStackCap (h : Hub) (n : Nat) : Nat := h.pdf (pdStack n + 2) 1
/-- ECC of a stack at epoch 1. -/
def Hub.pdEcc (h : Hub) (n : Nat) : Nat := h.pdf (pdStack n + 3) 1
/-- MAKER of a stack. -/
def Hub.pdMaker (h : Hub) (n : Nat) : Nat := h.pdf (pdStack n + 4) 2

/-- Offset of the entry of global quad `q` (q = 12d + quad). -/
def pdQuad (q : Nat) : Nat := pdDie (q / 12) + 0x150 + 8 * (q % 12)

/-- MODE of a quad at epoch 1. -/
def Hub.pdQuadMode (h : Hub) (q : Nat) : Nat := h.pdf (pdQuad q) 1
/-- MACsec required on a quad (Table 8 of 02). -/
def Hub.pdMacsec (h : Hub) (q : Nat) : Bool := bitAt (h.pdf (pdQuad q + 1) 1) 0

end Sys2Proof.Machine
end

