-- ==== Sys2Proof/Machine/LinkOut.lean ====
section
/-! DEFINITION. The sending side of the Drift transport (16): frames, secure associations, the choice of a link, paths, requests
of a path, and the checks of an import slot (R373-R379, R384). -/

namespace Sys2Proof.Machine

/-- An event of a partition's links and windows: PF entry 11 by its enable, VF entry 5 of the partition. -/
def Hub.linkEvent (h : Hub) (p : Nat) (f : Fld) : Hub := (h.event f).raiseVf p 5

/-- The association in use for sending on a link, the newest. -/
def Hub.txSak (h : Hub) (l : Nat) : Option Sak := h.links.saks.find? (fun k => decide (k.link = l) && decide (k.dir = 0))

/-- The link holds a receive association. -/
def Hub.hasRxSak (h : Hub) (l : Nat) : Bool := h.links.saks.any (fun k => decide (k.link = l) && decide (k.dir = 1))

/-- Global quad of a link (R372). -/
def quadOf (l : Nat) : Nat := l / 4

/-- The link is UP. -/
def Hub.linkUpNow (h : Hub) (l : Nat) : Bool := decide (h.get (Reg.lnkStatusState l) = 2)

/-- The packet number of a SUITE 0 association is used up (R375). -/
def Sak.spent (k : Sak) : Bool := decide (k.suite = 0) && decide (2 ^ 32 - 1 ≤ k.nextPn)

/-- The link may send Drift frames now (R375, R337): it is UP, MACsec is ready where required, and its partition does not thaw. -/
def Hub.maySend (h : Hub) (l : Nat) : Bool :=
  h.linkUpNow l && (!h.pdMacsec (quadOf l) || h.on (Reg.lnkStatusMacsecReady l))
    && (match h.txSak l with | some k => !k.spent | none => true)
    && !decide (h.partState (h.linkOwner l) = 4)

/-- The packet number of the association in use advances (R375): passing 2^31 on SUITE 0 asks for a new key. -/
def Hub.countPn (h : Hub) (l : Nat) : Hub :=
  match h.txSak l with
  | none => h
  | some k =>
    let k' := { k with nextPn := (k.nextPn + 1) % 2 ^ 64 }
    let h := { h with links := { h.links with saks := h.links.saks.map (fun x => if x = k then k' else x) } }
    if k.suite = 0 ∧ k.nextPn = 2 ^ 31 then
      (h.record { code := 0x0804, cls := 0, part := h.linkOwner l, inst := l }).linkEvent (h.linkOwner l) Reg.lnkEventSakNeeded
    else h

/-- The priority of a frame (R382): ACK, NAK, CNP, the path messages and COL_ABORT (R408) travel at CTRL_PCP, the rest at DATA_PCP. -/
def Hub.framePcp (h : Hub) (kind : Nat) : Nat :=
  if (6 ≤ kind ∧ kind ≤ 0xB) ∨ kind = 0xF then h.get Reg.lnkCfgCtrlPcp else h.get Reg.lnkCfgDataPcp

/-- A priority of a link is paused by its partner (R382). -/
def Hub.pcpPaused (h : Hub) (l prio : Nat) : Bool := kmem h.links.paused (8 * l + prio)

/-- A frame put on a link, if it may send; a frame held back is lost to the sender and R379 recovers it. At a paused priority it waits
for XON. -/
def Hub.frame (h : Hub) (l path kind a b c d : Nat) : Hub :=
  if h.maySend l then
    if h.pcpPaused l (h.framePcp kind) then
      { h with links := { h.links with txHeld := h.links.txHeld ++ [(l, h.framePcp kind, .frame l path kind a b c d)] } }
    else ((h.wrap (Reg.lnkCntTxFrames l) 1).countPn l).send (.frame l path kind a b c d)
  else h

-- Paths

/-- A path by link and number. -/
def Hub.path (h : Hub) (l n : Nat) : Option LPath := h.links.paths.find? (fun p => decide (p.link = l) && decide (p.num = n))

/-- A path replaced, and made the most recently used. -/
def Hub.setPath (h : Hub) (p : LPath) : Hub :=
  { h with links := { h.links with
      paths := h.links.paths.filter (fun x => !(decide (x.link = p.link) && decide (x.num = p.num))) ++ [p] } }

/-- A path taken out. -/
def Hub.dropPath (h : Hub) (l n : Nat) : Hub :=
  { h with links := { h.links with
      paths := h.links.paths.filter (fun x => !(decide (x.link = l) && decide (x.num = n))) } }

/-- The paths of a link. -/
def Hub.pathsOf (h : Hub) (l : Nat) : List LPath := h.links.paths.filter (fun p => decide (p.link = l))

/-- Nothing is outstanding on a path (R377). -/
def LPath.quiet (p : LPath) : Bool := p.queued.isEmpty && p.out.isEmpty

/-- A new path (R377, R381): rate 50 GB/s, α 1, and a random initial PSN. -/
def LPath.fresh (l n : Nat) (ip : BitVec 128) (v4 : Bool) (peer : Option Nat) (psn : Nat) : LPath where
  link := l
  num := n
  ip := ip
  v4 := v4
  peer := peer
  peerNum := 0xFFFF
  isOpen := false
  txPsn := psn
  rxPsn := 0
  queued := []
  out := []
  reorder := []
  unacked := []
  atomics := []
  openTries := 0
  rate := 50
  alpha := 1

/-- Path message types (Table 3 of 16). -/
def typeAck : Nat := 0x6
/-- NAK. -/
def typeNak : Nat := 0x7
/-- PATH_OPEN. -/
def typePathOpen : Nat := 0x9
/-- PATH_ACCEPT. -/
def typePathAccept : Nat := 0xA
/-- PATH_CLOSE. -/
def typePathClose : Nat := 0xB

/-- Open paths of a link, as LNK_STATUS shows them. -/
def Hub.countPaths (h : Hub) (l : Nat) : Hub := h.set (Reg.lnkStatusPaths l) ((h.pathsOf l).filter (·.isOpen)).length

/-- A free path number of a link, if one of its 1,024 is: directly, or by closing the least recently used path with nothing
outstanding (R377). -/
def Hub.freePath (h : Hub) (l : Nat) : Option (Nat × Hub) :=
  match findLow 1024 (fun n => (h.path l n).isNone) with
  | some n => some (n, h)
  | none =>
    match (h.pathsOf l).find? LPath.quiet with
    | none => none
    | some p => some (p.num, ((h.dropPath l p.num).frame l p.num typePathClose p.txPsn 0 p.peerNum 0).countPaths l)

/-- An admitted request of a window (die × 4096 + entry; 8192 none) has been answered (R386). -/
def Hub.drainDone (h : Hub) (k : Nat) : Hub :=
  if k < 8192 then h.set (Reg.winWttDrain (k / 4096) (k % 4096)) (h.get (Reg.winWttDrain (k / 4096) (k % 4096)) - 1) else h

/-- A request put on the path to a peer over a link, opening the path on the first request (R377); without a path it waits. -/
def Hub.enqueue (h : Hub) (l peer : Nat) (r : OutReq) : Hub :=
  let ip := BitVec.ofNat 128 (h.get (Reg.lnkPeerIp peer))
  match (h.pathsOf l).find? (fun p => decide (p.ip = ip)) with
  | some p => h.setPath { p with queued := p.queued ++ [r], peer := some (p.peer.getD peer) }
  | none =>
    match h.freePath l with
    | none => { h with links := { h.links with waiting := h.links.waiting ++ [(l, peer, r)] } }
    | some (n, h) =>
      let psn := h.draw.1 % 2 ^ 24
      let h := h.draw.2
      let p := LPath.fresh l n ip (h.on (Reg.lnkPeerIpv4 peer)) (some peer) psn
      ((h.setPath { p with queued := [r] }).frame l n typePathOpen psn 0 0xFFFF 0).countPaths l

/-- The requests of a link that wait for a path, tried again in order. -/
def Hub.retryWaiting (h : Hub) (l : Nat) : Hub :=
  let w := h.links.waiting.filter (fun x => decide (x.1 = l))
  let h := { h with links := { h.links with waiting := h.links.waiting.filter (fun x => !decide (x.1 = l)) } }
  w.foldl (fun h x => h.enqueue x.1 x.2.1 x.2.2) h

/-- The UP links of a partition on a die. -/
def Hub.upLinks (h : Hub) (p d : Nat) : List Nat := (h.linksOf p).filter (fun l => decide (l / 48 = d) && h.linkUpNow l)

/-- The links a port of die `d` may use (R378): those of its die, else those of the other. -/
def Hub.linksFor (h : Hub) (p d : Nat) : List Nat := if (h.upLinks p d).isEmpty then h.upLinks p (1 - d) else h.upLinks p d

/-- The link of a request to import slot `s`, offset `o` (R378). -/
def Hub.linkFor (h : Hub) (p d s o : Nat) : Option Nat :=
  let l := h.linksFor p d
  l[Config.linkHash s (o / 4096) % l.length]?

/-- The link of a chunk (R396): over every UP link of the partition. -/
def Hub.chunkLink (h : Hub) (p gkey dst chunk : Nat) : Option Nat :=
  let l := (h.linksOf p).filter (fun l => h.linkUpNow l)
  l[Config.chunkHash gkey dst chunk % l.length]?

-- Import slots

/-- The check of an import slot before anything is sent (R384): rights are R 1, W 2, A 4; 0 admits. -/
def Hub.importCheck (h : Hub) (p s off n rights : Nat) : Nat :=
  if !h.on (Reg.winImportV s) || decide (h.get (Reg.winImportPartition s) ≠ p) then 0x43
  else if (h.get (Reg.winImportRights s) &&& rights) ≠ rights then 0x41
  else if 2 ^ h.get (Reg.winImportSizeLog2 s) < off + n then 0x42
  else 0

/-- A request to an import slot, admitted with the entry's GEN and WKEY (R384). -/
def Hub.importReq (h : Hub) (s type detail off rlen : Nat) (data : List Byte) (poison : Bool) (who : RemWho) (place : Nat) : OutReq where
  type := type
  window := h.get (Reg.winImportWindow s)
  gen := h.get (Reg.winImportGen s)
  detail := detail
  wkey := h.get (Reg.winImportWkey s)
  offset := off
  rlen := rlen
  data := data
  poison := poison
  who := who
  place := place
  col := none
  psn := 0
  resends := 0
  held := false

/-- A request sent toward the peer of an import slot from a port of die `d` of partition `p`; false: the partition holds no UP
link, and the request ends PEER_UNREACHABLE at once (log entry 18). -/
def Hub.sendImport (h : Hub) (p d s : Nat) (r : OutReq) : Hub × Bool :=
  match h.linkFor p d s r.offset with
  | none => (h, false)
  | some l => (h.enqueue l (h.get (Reg.winImportPeer s)) r, true)

/-- The request extension of Table 4 as a big-endian number. -/
def OutReq.ext (r : OutReq) : Nat :=
  ((((r.window * 2 ^ 8 + r.gen) * 2 ^ 8 + r.detail) * 2 ^ 32 + r.wkey) * 2 ^ 64 + r.offset) * 2 ^ 64 + r.rlen * 2 ^ 32

/-- The collective extension of Table 6 of 17 as a big-endian number. -/
def colExtNum (x : ColExt) : Nat :=
  (((((((x.gkey.toNat * 2 ^ 8 + x.dstGroup.toNat) * 2 ^ 8 + x.step.toNat) * 2 ^ 16 + x.srcRank.toNat) * 2 ^ 32 + x.seq.toNat)
    * 2 ^ 32 + x.chunk.toNat) * 2 ^ 32 + x.arg.toNat) * 2 ^ 32 + x.part.toNat)

/-- Flags of a request packet (Table 3): POISON, RETRANSMIT; ACK_REQ is never set (log entry 19). -/
def OutReq.flags (r : OutReq) : Nat := 2 * b2n r.poison + 4 * b2n (decide (r.resends ≠ 0))

/-- The packet of a request put on its link (R376): kind TYPE, the PSN, flags, the receiver's path, extension and payload. -/
def Hub.sendReq (h : Hub) (p : LPath) (r : OutReq) : Hub :=
  h.frame p.link p.num r.type r.psn (r.flags + 2 ^ 8 * r.data.length) (p.peerNum + 2 ^ 16 * (match r.col with | some x => colExtNum x | none => r.ext))
    (leNat r.data)

/-- Every request that a path holds. -/
def LPath.all (p : LPath) : List OutReq := p.out ++ p.queued

/-- Every request outstanding toward peers, those that wait for a path among them. -/
def Hub.allOut (h : Hub) : List OutReq := h.links.paths.flatMap LPath.all ++ h.links.waiting.map (fun x => x.2.2)

end Sys2Proof.Machine
end

