-- ==== Sys2Proof/Machine/Watch.lean ====
section
/-! DEFINITION. What the management core sends by itself when values it watches change (19: R440-R442): event-driven TPDOs, and the emergency
that ends an error. -/

namespace Sys2Proof.Machine

/-- A message on CAN: identifier, bytes, data; none is sent with node-ID 0 (R439). -/
def Hub.canSend (h : Hub) (id n v : Nat) : Hub := if h.boot.nodeId = 0 then h else h.send (.can id n v)

/-- ERROR_REGISTER (R442). -/
def Hub.errorReg (h : Hub) : Nat :=
  let v := h.on Reg.isoStatusRailFail || h.on Reg.isoStatusUnderMin
  let t := h.on Reg.isoStatusCritical
  let c := h.on Reg.isoStatusHbLost
  let m := (List.range 24).any (fun p => decide (h.partState p = 6))
  b2n (v || t || c || m) + 4 * b2n v + 8 * b2n t + 16 * b2n c + 128 * b2n m

/-- ISO_STATUS bits [7:0]. -/
def Hub.isoStatusByte (h : Hub) : Nat :=
  h.get Reg.isoStatusBrakePin + 2 * h.get Reg.isoStatusBrakeSw + 4 * h.get Reg.isoStatusCoolant + 8 * h.get Reg.isoStatusHbLost
    + 16 * h.get Reg.isoStatusUnderMin + 32 * h.get Reg.isoStatusRailFail + 64 * h.get Reg.isoStatusChipletAlarm + 128 * h.get Reg.isoStatusCritical

/-- The hottest die sensor (0x2300 sub-index 1). -/
def Hub.hottestDie (h : Hub) : Nat := max (h.get (Reg.isoDieHottestC 0)) (h.get (Reg.isoDieHottestC 1))

/-- An object that a TPDO can map, by index × 256 + sub-index: its length in bits and its value. -/
def Hub.tpdoObj (h : Hub) (k : Nat) : Option (Nat × Nat) :=
  if k = 0x221301 then some (16, h.get Reg.isoBudgetInForceW)
  else if k = 0x221302 then some (8, h.get Reg.isoBudgetSource)
  else if k = 0x232001 then some (8, h.get (Reg.isoPumpDuty 0))
  else if k = 0x230001 then some (8, h.hottestDie)
  else if k = 0x230002 then some (8, h.isoStatusByte)
  else if k = 0x210001 then some (32, h.get Reg.cfgEpochEpoch)
  else if k = 0x200003 then some (8, h.get Reg.glbBootStatusStage)
  else if k = 0x200006 then some (8, h.get Reg.cfgModeWhiteoutCause)
  else none

/-- The entries mapped in a PDO, `base` being its mapping index: index × 256 + sub-index, and length in bits. -/
def Hub.mapped (h : Hub) (base : Nat) : List (Nat × Nat) :=
  ((List.range 16).filter (fun i => decide (h.od base (i + 1) ≠ 0))).map (fun i => (h.od base (i + 1) / 256, h.od base (i + 1) % 256))

/-- The values that TPDO `n` carries, each with its length. -/
def Hub.tpdoVals (h : Hub) (n : Nat) : List (Nat × Nat) := (h.mapped (0x1A00 + n)).filterMap (fun m => h.tpdoObj m.1)

/-- The data of a PDO, first value lowest. -/
def pdoData : List (Nat × Nat) → Nat
  | [] => 0
  | (n, v) :: t => v % 2 ^ n + 2 ^ n * pdoData t

/-- PDOs run: the node is Operational (R440). -/
def Hub.pdoRun (h : Hub) : Bool := h.canUp && decide (h.alm.nmt = 2)

/-- TPDO `n` is valid and maps something (R441). -/
def Hub.tpdoOn (h : Hub) (n : Nat) : Bool := h.pdoRun && !bitAt (h.od (0x1800 + n) 1) 31 && !(h.tpdoVals n).isEmpty

/-- TPDO `n` sent; its inhibit time begins. -/
def Hub.tpdoSend (h : Hub) (n : Nat) : Hub :=
  let l := h.tpdoVals n
  let a := h.alm
  let h : Hub := { h with alm := { a with
    pdoLast := tset [] a.pdoLast n (l.map (·.2))
    pdoHeld := kdel a.pdoHeld n
    pdoInhibit := if h.od (0x1800 + n) 3 = 0 then kdel a.pdoInhibit n else kadd a.pdoInhibit n } }
  h.canSend (h.od (0x1800 + n) 1 % 2 ^ 11) (((l.map (·.1)).sum + 7) / 8) (pdoData l)

/-- An event-driven TPDO whose values have changed is sent, or held for its inhibit time (R441). -/
def Hub.tpdoChange (n : Nat) (h : Hub) : Hub :=
  if h.tpdoOn n && decide (h.od (0x1800 + n) 2 = 0xFE) && decide ((h.tpdoVals n).map (·.2) ≠ tget [] h.alm.pdoLast n) then
    (if h.alm.pdoInhibit.contains n then { h with alm := { h.alm with pdoHeld := kadd h.alm.pdoHeld n } } else h.tpdoSend n)
  else h

/-- What follows a change of the hub from `h0`: TPDOs, and the emergency with code 0 when ERROR_REGISTER returns to 0 (R442). -/
def Hub.watch (h h0 : Hub) : Hub :=
  let h := if h.pdoRun then overList Hub.tpdoChange (List.range 8) h else h
  if h0.errorReg ≠ 0 ∧ h.errorReg = 0 then h.emcy 0 0 else h

/-- The watch over a state. -/
def State.watch (s s0 : State) : State := s.onHub (fun h => h.watch s0.hub)

/-- A command that changes the hub only, and that the management core watches. -/
def hubWatch (f : Hub → Hub) (s : State) : Host.Outcome State Fault Refusal := .next ((s.onHub f).watch s)

end Sys2Proof.Machine
end

