-- ==== Sys2Proof/Machine/Stop.lean ====
section
/-! DEFINITION. How work ends early: answers and CLEAR to engines (R288, R299), floe resets and launches (R95, R97, R140, R141),
streams (R245, R248), collectives (R407-R410), remote requests that fail (R388), paths that close (R377), fenced sites (R306),
TDISP interfaces in ERROR (R457), and the Partition-fatal state (R478). -/

namespace Sys2Proof.Machine

-- Parked accesses

/-- Parked, held and joining accesses of the waiters that `p` names are discarded (R275): a fault that none is parked under any
more is gone. -/
def Hub.dropParked (h : Hub) (p : Waiter → Bool) : Hub :=
  let x := h.xlt
  let gone := x.parked.filter (fun a => p a.who)
  let parked := x.parked.filter (fun a => !p a.who)
  let faults := x.faults.filter (fun f =>
    !(gone.any (fun a => decide (a.die = f.die) && decide (a.slot = f.slot)))
      || parked.any (fun a => decide (a.die = f.die) && decide (a.slot = f.slot)))
  let held := x.held.filter (fun a => !p a.who)
  { h with xlt := { x with
      parked := parked, faults := faults, held := held,
      episode := x.episode.filter (fun d => held.any (fun a => decide (a.die = d))),
      walks := x.walks.map (fun w =>
        { w with who := if p w.who then .walk else w.who, joined := w.joined.filter (fun j => !p j.2.2.2) }) } }

-- Sites

/-- A site's state. -/
def Hub.site (h : Hub) (s : Nat) : Site := tget Site.rst h.sites s

/-- A site's state written. -/
def Hub.setSite (h : Hub) (s : Nat) (x : Site) : Hub := { h with sites := tset Site.rst h.sites s x }

/-- A site's state changed. -/
def Hub.onSite (h : Hub) (s : Nat) (f : Site → Site) : Hub := h.setSite s (f (h.site s))

/-- Answers sent while RSP credits last (R281, R283). -/
def Hub.flushRsp (n : Nat) (h : Hub) (s : Nat) : Hub :=
  match n with
  | 0 => h
  | n + 1 =>
    match (h.site s).rspq with
    | [] => h
    | (k, m) :: t =>
      if (h.site s).rspH = 0 ∨ (h.site s).rspD < k then h
      else Hub.flushRsp n ((h.onSite s (fun x => { x with rspq := t, rspH := x.rspH - 1, rspD := x.rspD - k })).send m) s

/-- CLEAR messages sent while EVT credits last. -/
def Hub.flushClr (n : Nat) (h : Hub) (s : Nat) : Hub :=
  match n with
  | 0 => h
  | n + 1 =>
    match (h.site s).clrq with
    | [] => h
    | e :: t =>
      if (h.site s).cvtH = 0 then h
      else Hub.flushClr n ((h.onSite s (fun x => { x with clrq := t, cvtH := x.cvtH - 1 })).send (.eep s 0xC4 (e % 8) 0 0 0 0 0)) s

/-- The engine's doorbells may be sent now: its partition is ACTIVE and it is assigned (R294, Table 3 of 14). -/
def Hub.dbOpen (h : Hub) (e : Nat) : Bool :=
  decide (h.get (Reg.siteEngStatusState e) = 2) && decide (h.partState (h.engOwner e) = 2)

/-- Doorbells sent in order while EVT credits last (R294). -/
def Hub.flushDbs (n : Nat) (h : Hub) (s : Nat) : Hub :=
  match n with
  | 0 => h
  | n + 1 =>
    match (h.site s).dbs.find? (fun d => h.dbOpen d.1) with
    | none => h
    | some d =>
      if (h.site s).cvtH = 0 then h
      else
        let h := h.onSite s (fun x => { x with dbs := x.dbs.erase d, cvtH := x.cvtH - 1 })
        let h := h.set (Reg.siteEngStatusDbWait d.1) ((h.site s).dbs.filter (fun y => decide (y.1 = d.1))).length
        Hub.flushDbs n (h.send (.eep s 0xC1 (d.1 % 8) d.2 0 0 0 0)) s

/-- What waits for credits toward a site is sent as far as they go. -/
def Hub.flushSite (h : Hub) (s : Nat) : Hub :=
  let h := Hub.flushRsp ((h.site s).rspq.length) h s
  let h := Hub.flushClr ((h.site s).clrq.length) h s
  Hub.flushDbs ((h.site s).dbs.length) h s

/-- A response put in the site's order and sent when credits allow. -/
def Hub.respond (h : Hub) (s flits : Nat) (m : Sent) : Hub := (h.onSite s (fun x => { x with rspq := x.rspq ++ [(flits, m)] })).flushSite s

/-- OP of an EEP header. -/
def hdrOp (h : BitVec 128) : Nat := bits h.toNat 0 8
/-- ENGINE of an EEP header. -/
def hdrEng (h : BitVec 128) : Nat := bits h.toNat 8 3
/-- RTAG of a request header. -/
def hdrRtag (h : BitVec 128) : Nat := bits h.toNat 16 12

/-- Engine state kept in step with the open requests. -/
def Hub.countOpen (h : Hub) (e : Nat) : Hub :=
  h.set (Reg.siteEngStatusOpen e) (min 4095 ((h.site (e / 8)).open'.filter (fun r => decide (r.e = e))).length)

/-- A request answered with a status alone (R288): READ_DATA with one flit of zeros, ATOMIC_RESULT, or ACK. -/
def Hub.answerSt (h : Hub) (r : EngReq) (st : Nat) : Hub :=
  let s := r.e / 8
  let h := (h.onSite s (fun x => { x with open' := x.open'.filter (fun y => !(decide (y.e = r.e) && decide (y.rtag = r.rtag))) })).countOpen r.e
  match hdrOp r.hdr with
  | 1 => h.respond s 1 (.eep s 0x81 (r.e % 8) r.rtag st 1 0 0)
  | 4 => h.respond s 0 (.eep s 0x83 (r.e % 8) r.rtag st 0 0 0)
  | _ => h.respond s 0 (.eep s 0x82 (r.e % 8) r.rtag st 0 0 0)

/-- An open request of an engine by its tag. -/
def Hub.engReq (h : Hub) (e rtag : Nat) : Option EngReq :=
  (h.site (e / 8)).open'.find? (fun r => decide (r.e = e) && decide (r.rtag = rtag))

/-- Requests of an engine that are parked, or held at a gate (R299). -/
def Hub.engStuck (h : Hub) (r : EngReq) : Bool :=
  h.xlt.parked.any (fun a => decide (a.who = .engine r.e r.rtag)) || h.xlt.held.any (fun a => decide (a.who = .engine r.e r.rtag))
    || h.xlt.walks.any (fun w => decide (w.who = .engine r.e r.rtag) || w.joined.any (fun j => decide (j.2.2.2 = .engine r.e r.rtag)))
    || h.qos.any (fun p => p.2.held.any (fun x => decide (x = .eng r)))

/-- Requests of an engine taken from the ports that hold them. -/
def Hub.dropHeldEng (h : Hub) (e : Nat) : Hub :=
  { h with qos := h.qos.map (fun p => (p.1, { p.2 with held := p.2.held.filter (fun x => match x with | .eng r => !decide (r.e = e) | _ => true) })) }

/-- CLEAR sent to an engine (R299): stuck requests are answered ABORTED, waiting doorbells go, the engine is clearing. An engine
that is absent, unassigned or LOST is sent none. -/
def Hub.clearEng (h : Hub) (e : Nat) : Hub :=
  if h.get (Reg.siteEngStatusState e) = 2 then
    let s := e / 8
    let stuck := (h.site s).open'.filter (fun r => decide (r.e = e) && h.engStuck r)
    let h := stuck.foldl (fun h r => h.answerSt r 0x07) ((h.dropParked (fun w => match w with | .engine e' _ => decide (e' = e) | _ => false)).dropHeldEng e)
    let h := h.onSite s (fun x => { x with dbs := x.dbs.filter (fun d => !decide (d.1 = e)), clearing := kadd x.clearing e, clrq := x.clrq ++ [e] })
    let h := (h.set (Reg.siteEngStatusDbWait e) 0).set (Reg.siteEngStatusState e) 3
    h.flushSite s
  else h

-- Floes and launches

/-- A core. -/
def Hub.core (h : Hub) (c : Nat) : Core := tget Core.rst h.sea.cores c

/-- A core written. -/
def Hub.setCore (h : Hub) (c : Nat) (x : Core) : Hub := { h with sea := { h.sea with cores := tset Core.rst h.sea.cores c x } }

/-- A launch replaced. -/
def Hub.setLaunch (h : Hub) (k : Nat) (l : Launch) : Hub := { h with sea := { h.sea with launches := tput h.sea.launches k l } }

/-- A launch that has been posted and runs no tile is gone. -/
def Hub.launchGone (h : Hub) (k : Nat) : Hub :=
  match tlook h.sea.launches k with
  | some l =>
    if l.posted ∧ l.running = [] then
      { h with sea := { h.sea with launches := terase h.sea.launches k, grid := terase h.sea.grid k } }
    else h
  | none => h

/-- The completion of a launch posted (R94, R141, Table 9 of 15): LAUNCH_ID and the flag summary. -/
def Hub.launchPost (h : Hub) (k st : Nat) : Hub :=
  match tlook h.sea.launches k with
  | none => h
  | some l => ((h.complete l.cmd st (l.id + 2 ^ 16 * l.flags)).setLaunch k { l with posted := true, status := some st }).launchGone k

/-- A floe domain reset begins (R80, R97): cores, barriers and DMA of the floe are cleared, its parked accesses discarded, its
tiles gone; FLC_FLOE_STATUS.STATE reads 3 until it completes. -/
def Hub.floeReset (h : Hub) (f : Nat) : Hub :=
  let mine (w : Waiter) : Bool := match w with
    | .core c => decide (c / 128 = f)
    | .dma f' _ => decide (f' = f)
    | _ => false
  let h := h.dropParked mine
  let sea := h.sea
  let h : Hub := { h with
    sea := { sea with
      cores := sea.cores.filter (fun c => !decide (c.1 / 128 = f)),
      barriers := sea.barriers.filter (fun b => !decide (b.1 / 64 = f)),
      dma := sea.dma.filter (fun d => !decide (d.1 / 16 = f)),
      launches := sea.launches.map (fun l => (l.1, { l.2 with running := l.2.running.filter (fun t => !decide (t.1 = f)),
                                                               prepared := kdel l.2.prepared f })) },
    qos := h.qos.map (fun p => (p.1, { p.2 with held := p.2.held.filter (fun x => match x with | .core c _ => !decide (c / 128 = f) | .dma g _ _ _ => !decide (g = f) | _ => true) })) }
  if h.get (Reg.flcFloeStatusState f) = 0 then h else h.set (Reg.flcFloeStatusState f) 3

/-- The floes that run a tile of a launch. -/
def Launch.floes (l : Launch) : List Nat := l.running.foldl (fun t x => kadd t x.1) []

/-- A launch ended with every floe that runs it reset (R95: TIMEOUT, ABORTED); a status already fixed stays, and nothing
happens. -/
def Hub.launchStop (h : Hub) (k st : Nat) : Hub :=
  match tlook h.sea.launches k with
  | none => h
  | some l =>
    if l.status.isSome then h
    else ((overList (fun f h => h.floeReset f) l.floes (h.setLaunch k { l with status := some st })).launchPost k st)

/-- Every launch that `p` names ended, floes reset, completions posted; those already ended lose the tiles that still run. -/
def Hub.launchesStop (h : Hub) (p : Launch → Bool) (st : Nat) : Hub :=
  overList (fun k h =>
    match tlook h.sea.launches k with
    | some l =>
      if p l then
        if l.status.isSome then (overList (fun f h => h.floeReset f) l.floes h).launchGone k else h.launchStop k st
      else h
    | none => h) (h.sea.launches.map (·.1)) h

/-- Launch status of an exception code (Table 9 of 05). -/
def excStatus (code : Nat) : Nat := if code = 0x05 then 0x08 else if code = 0x0B then 0x0F else 0x07

/-- The kernel fault record (R141) of a core's exception. -/
def Hub.kfault (h : Hub) (p c code insn addr trap flags : Nat) : Hub :=
  let x := h.core c
  if h.on (Reg.flcKfaultValid p) then h.set (Reg.flcKfaultLost p) 1
  else
    h.sets [(Reg.flcKfaultCode p, code), (Reg.flcKfaultStatus p, excStatus code), (Reg.flcKfaultFlags p, flags), (Reg.flcKfaultSuppressed p, 0),
      (Reg.flcKfaultLaunchId p, match tlook h.sea.launches (x.launch - 1) with | some l => l.id | none => 0),
      (Reg.flcKfaultFloe p, c / 128), (Reg.flcKfaultCore p, c % 128), (Reg.flcKfaultTrapCode p, trap), (Reg.flcKfaultInsn p, insn),
      (Reg.flcKfaultPc p, x.pc.toNat), (Reg.flcKfaultTile p, x.tile), (Reg.flcKfaultAddr p, addr), (Reg.flcKfaultValid p, 1)]

/-- An exception of a core (R95, R140, R141): the first of a launch fixes its status, writes the record, posts the completion;
a later one is counted. The floe of the core is reset. -/
def Hub.coreExc (h : Hub) (c code insn addr trap flags : Nat) : Hub :=
  let k := (h.core c).launch - 1
  match tlook h.sea.launches k with
  | none => h.floeReset (c / 128)
  | some l =>
    if l.status.isSome then
      let h := h.setLaunch k { l with suppressed := l.suppressed + 1 }
      let h := if h.on (Reg.flcKfaultValid l.part) ∧ h.get (Reg.flcKfaultLaunchId l.part) = l.id then h.count (Reg.flcKfaultSuppressed l.part) 1 else h
      (h.floeReset (c / 128)).launchGone k
    else
      let h := h.kfault l.part c code insn addr trap flags
      let h := (h.event Reg.flcEventKernelFault).raiseVf l.part 3
      ((h.setLaunch k { l with status := some (excStatus code) }).floeReset (c / 128)).launchPost k (excStatus code)

-- Streams

/-- A stream. -/
def Hub.stream (h : Hub) (n : Nat) : Stream := tget Stream.rst h.drift.streams n

/-- A stream written, with its INFLIGHT field. -/
def Hub.setStream (h : Hub) (n : Nat) (x : Stream) : Hub :=
  { h.set (Reg.drfStreamStatusInflight n) x.inflight.length with drift := { h.drift with streams := tset Stream.rst h.drift.streams n x } }

/-- The waiters of a stream. -/
def streamWaiter (n : Nat) (w : Waiter) : Bool := match w with | .stream n' _ => decide (n' = n) | _ => false

/-- A stream of no one: CLOSED, with no record (Table 6 of 10); its owner's OPEN count falls. -/
def Hub.streamClosed (h : Hub) (n : Nat) : Hub :=
  if h.get (Reg.drfStreamStatusState n) = 0 then h
  else
    let p := h.get (Reg.drfStreamStatusPartition n)
    let i := if p = 31 then 24 else p
    let h := h.set (Reg.drfPartLimitOpen i) (h.get (Reg.drfPartLimitOpen i) - 1)
    let h := h.dropParked (streamWaiter n)
    let h : Hub := { h with
      drift := { h.drift with pri := h.drift.pri.filter (fun x => !decide (x.1 = n)) },
      qos := h.qos.map (fun p => (p.1, { p.2 with held := p.2.held.filter (fun x => match x with | .row n' _ _ => !decide (n' = n) | _ => true) })) }
    (h.setStream n Stream.rst).sets [(Reg.drfStreamStatusState n, 0), (Reg.drfStreamStatusHostChannel n, 0),
      (Reg.drfStreamStatusPartition n, 31), (Reg.drfStreamStatusDbErr n, 0), (Reg.drfStreamStatusLastStatus n, 0),
      (Reg.drfStreamStatusHead n, 0), (Reg.drfStreamCtrlPause n, 0), (Reg.drfStreamCtrlResume n, 0), (Reg.drfStreamCtrlAbort n, 0)]

/-- Streams that are not CLOSED, by number. -/
def Hub.streamsOf (h : Hub) (q : Nat → Bool) : List Nat := (h.drift.streams.map (·.1)).filter q

/-- The streams of a partition. -/
def Hub.partStreams (h : Hub) (p : Nat) : List Nat := h.streamsOf (fun n => decide (h.get (Reg.drfStreamStatusPartition n) = p))

/-- A descriptor ends with a status and a DETAIL; the first end stands. -/
def Desc.finish (d : Desc) (st detail : Nat) : Desc := if d.ended.isSome then d else { d with ended := some (st, detail), retry := [] }

/-- A descriptor of a stream changed. -/
def Hub.onDesc (h : Hub) (n ix : Nat) (f : Desc → Desc) : Hub :=
  let s := h.stream n
  h.setStream n { s with inflight := s.inflight.map (fun d => if d.index = ix then f d else d) }

/-- A descriptor of a stream, in flight. -/
def Hub.desc (h : Hub) (n ix : Nat) : Option Desc := (h.stream n).inflight.find? (fun d => decide (d.index = ix))

/-- Every descriptor in flight of a stream ends with a status. -/
def Hub.endAll (h : Hub) (n st : Nat) : Hub :=
  let h := h.dropParked (streamWaiter n)
  let s := h.stream n
  h.setStream n { s with inflight := s.inflight.map (fun d => d.finish st 0) }

/-- A stream of a failed partition (R478): ERROR, LAST_STATUS ABORTED; descriptors in flight end ABORTED. -/
def Hub.streamFail (h : Hub) (n : Nat) : Hub :=
  if h.get (Reg.drfStreamStatusState n) = 0 then h
  else
    let h := (h.endAll n 0x07).sets [(Reg.drfStreamStatusState n, 5), (Reg.drfStreamStatusLastStatus n, 0x07),
      (Reg.drfStreamCtrlPause n, 0), (Reg.drfStreamCtrlAbort n, 0)]
    (h.setStream n { h.stream n with stop := some 0x07, paused := false }).event Reg.drfEventStreamError

-- Collectives

/-- An event of a partition's groups: PF entry 12 by its enable, VF entry 6. -/
def Hub.colEvent (h : Hub) (p : Nat) (f : Fld) : Hub := (h.event f).raiseVf p 6

/-- A group. -/
def Hub.group (h : Hub) (g : Nat) : Option ColGroup := tlook h.cols g

/-- A group written. -/
def Hub.setGroup (h : Hub) (g : Nat) (c : ColGroup) : Hub := { h with cols := tput h.cols g c }

/-- A collective packet toward a rank (R402), with the fields of its extension. -/
def Hub.colSend (h : Hub) (g : Nat) (c : ColGroup) (rank type step seq chunk arg part : Nat) (data : List Byte) (poison : Bool) : Hub :=
  let peer := c.peers.getD rank (0xFFFF, 0)
  match h.chunkLink c.part c.gkey rank chunk with
  | none => h
  | some l =>
    let x : ColExt := ⟨BitVec.ofNat 32 c.gkey, BitVec.ofNat 8 peer.2, BitVec.ofNat 8 step, BitVec.ofNat 12 c.rank, BitVec.ofNat 32 seq,
      BitVec.ofNat 32 chunk, BitVec.ofNat 32 arg, BitVec.ofNat 32 part⟩
    h.enqueue l peer.1 ⟨type, 0, 0, 0, 0, 0, 0, data, poison, .collective g, seq, some x, 0, 0, false⟩

/-- COL_ABORT sent to a list of ranks (R408). -/
def Hub.sendAborts (h : Hub) (g : Nat) (c : ColGroup) (seq st origin : Nat) (ranks : List Nat) : Hub :=
  ranks.foldl (fun h r => if r = c.rank ∨ c.members ≤ r then h else h.colSend g c r 0xF 0 seq 0 (st + 2 ^ 8 * origin) 0 [] false) h

/-- Class of a chunk's waiters. -/
def colWaiter (g : Nat) (w : Waiter) : Bool := match w with | .collective g' => decide (g' = g) | _ => false

/-- The running collective of a group ends by an abort (R409), told to `ranks`. -/
def Hub.colStop (h : Hub) (g st origin : Nat) (ranks : List Nat) : Hub :=
  match h.group g with
  | none => h
  | some c =>
    match c.run with
    | none => h
    | some r =>
      let h := h.sendAborts g c r.seq st origin ranks
      let h := h.dropParked (colWaiter g)
      let h : Hub := { h with qos := h.qos.map (fun p => (p.1, { p.2 with held := p.2.held.filter (fun x => match x with | .col g' _ => !decide (g' = g) | _ => true) })) }
      let h := (h.setGroup g { c with run := none, chunks := c.chunks.filter (fun k => !decide (k.seq = r.seq)), paid := false, got := [] }).sets
        [(Reg.colGroupStatusState g, 1), (Reg.colGroupStatusLastStatus g, st), (Reg.colGroupStatusLastOrigin g, origin),
         (Reg.colGroupStatusExtUsedUs g, r.extUsed)]
      let h := h.complete r.cmd st (r.seq + 2 ^ 32 * origin)
      let h := h.record { code := 0x0901, cls := 0, part := c.part, inst := g, d0 := r.seq + 2 ^ 32 * st + 2 ^ 40 * origin }
      h.colEvent c.part Reg.colEventAborted

/-- A local abort (R407, R408): every other member is told. -/
def Hub.colAbort (h : Hub) (g st : Nat) : Hub :=
  match h.group g with
  | none => h
  | some c => h.colStop g st c.rank (List.range c.members)

/-- Groups of a partition. -/
def Hub.partGroups (h : Hub) (p : Nat) : List Nat := (h.cols.filter (fun c => decide (c.2.part = p))).map (·.1)

-- Remote requests that fail

/-- Another request of the same waiter is outstanding. -/
def Hub.moreOut (h : Hub) (w : RemWho) : Bool := h.allOut.any (fun r => decide (r.who = w))

/-- An answer to a core's access to a remote window: the core issues its instruction again. -/
def Hub.coreGot (h : Hub) (c hpa v : Nat) (bad : Bool) : Hub :=
  let x := h.core c
  if x.run = .remote then h.setCore c { x with rem := x.rem ++ [(hpa, v, bad)], run := .ready } else h

/-- A posted store of a core is done with: a core that waits for its stores looks again. -/
def Hub.coreAck (h : Hub) (c : Nat) : Hub :=
  let x := h.core c
  if x.run = .remote then h.setCore c { x with run := .ready } else h

/-- A floe DMA request by channel and number, changed. -/
def Hub.onDma (h : Hub) (f ch id : Nat) (g : DmaReq → DmaReq) : Hub :=
  let l := (tget [] h.sea.dma (16 * f + ch)).map (fun r => if r.id = id then g r else r)
  { h with sea := { h.sea with dma := tset [] h.sea.dma (16 * f + ch) l } }

/-- A remote request completes with a status other than OK (R388, R246). -/
def Hub.remFail (h : Hub) (r : OutReq) (st : Nat) : Hub :=
  match r.who with
  | .coreLoad c => h.coreGot c r.place 0 true
  | .coreStore c p hpa =>
    ((h.sets [(Reg.winErrHpa, hpa), (Reg.winErrStatus, st), (Reg.winErrPartition, p), (Reg.winErrValid, 1)]).linkEvent p
      Reg.lnkEventRemoteErr).coreAck c
  | .dma f ch id =>
    if r.type = 1 then
      (h.sets [(Reg.winErrHpa, r.place), (Reg.winErrStatus, st), (Reg.winErrPartition, h.floeOwner f), (Reg.winErrValid, 1)]).linkEvent
        (h.floeOwner f) Reg.lnkEventRemoteErr
    else h.onDma f ch id (fun q => { q with got := q.got ++ [(r.place, 0, true)] })
  | .engine e rtag =>
    match h.engReq e rtag with
    | none => h
    | some q => h.answerSt q st
  | .row n ix =>
    match h.desc n ix with
    | none => h
    | some d =>
      if st = 0x0B ∧ d.ended.isNone then h.onDesc n ix (fun d => { d with retry := d.retry ++ [r] })
      else h.onDesc n ix (fun d => d.finish st r.place)
  | .collective g =>
    match h.group g with
    | none => h
    | some c =>
      match c.run with
      | some run => if run.seq = r.place then h.colAbort g st else h
      | none => h
  | .stage g seq =>
    match h.group g with
    | none => h
    | some c =>
      match c.run with
      | some run => if run.seq = seq then h.colAbort g st else h
      | none => h
  | .host _ => h

/-- Every request of a list completes with a status. -/
def Hub.remFailAll (h : Hub) (l : List OutReq) (st : Nat) : Hub := l.foldl (fun h r => h.remFail r st) h

/-- A path closes (R377, R393): every request outstanding on it completes with the status, and requests that waited for a path
of the link go on. -/
def Hub.closePath (h : Hub) (l n st : Nat) : Hub :=
  match h.path l n with
  | none => h
  | some p => (((overList (fun k h => h.drainDone k) p.unacked (h.dropPath l n)).countPaths l).remFailAll p.all st).retryWaiting l

/-- Every path of a link that `p` names closes. -/
def Hub.closePaths (h : Hub) (l : Nat) (p : LPath → Bool) (st : Nat) : Hub :=
  ((h.pathsOf l).filter p).foldl (fun h x => h.closePath l x.num st) h

/-- A link goes down (R393): its paths close, outstanding requests complete with LINK_DOWN; training starts again. Code 0 writes no
record of its own. -/
def Hub.linkDown (h : Hub) (l code : Nat) : Hub :=
  if h.get (Reg.lnkStatusState l) = 0 then h
  else
    let w := (h.links.waiting.filter (fun x => decide (x.1 = l))).map (fun x => x.2.2)
    let ls := h.links
    let h : Hub := { h with links := { ls with
      waiting := ls.waiting.filter (fun x => !decide (x.1 = l)),
      paused := ls.paused.filter (fun x => !decide (x / 8 = l)), txHeld := ls.txHeld.filter (fun x => !decide (x.1 = l)),
      xoff := kdel ls.xoff l } }
    let h := (h.set (Reg.lnkStatusState l) 3).set (Reg.lnkStatusPaused l) 0
    let h := (h.closePaths l (fun _ => true) 0x40).remFailAll w 0x40
    let h := h.count (Reg.lnkStatusDowns l) 1
    let h := if code = 0 then h else h.record { code := code, cls := 0, part := h.linkOwner l, inst := l, die := l / 48 }
    (h.linkEvent (h.linkOwner l) Reg.lnkEventLinkDown).set (Reg.lnkStatusState l) 1

-- Fencing

/-- The record code of a fence cause (Table 12 of 12). -/
def fenceCode (cause : Nat) : Nat :=
  if cause = 1 ∨ cause = 2 ∨ cause = 10 then 0x0606 else if cause = 3 ∨ cause = 4 then 0x0607
  else if cause = 5 then 0x0604 else 0x0608

/-- Nothing waits for an engine to clear any more: it has, or its site is fenced. The Thaw of a removed engine (listed under 31) is
then at step 5 (R338). -/
def Hub.waitDone (h : Hub) (e : Nat) : Hub :=
  let gone := (tget PartSt.rst h.parts 31).waits.contains e
  let h : Hub := { h with parts := (h.parts.map (fun x => (x.1, { x.2 with waits := kdel x.2.waits e }))).filter (fun x => !decide (x.2 = PartSt.rst)) }
  if gone then h.event Reg.prtEventThawed else h

/-- An engine LOST (R306, R307): removed from its partition, its parked accesses, doorbells, COMPLETEs and open requests gone. -/
def Hub.engLost (h : Hub) (e : Nat) : Hub :=
  let s := e / 8
  let h := (h.dropParked (fun w => match w with | .engine e' _ => decide (e' = e) | _ => false)).dropHeldEng e
  let h := h.onSite s (fun x => { x with
    open' := x.open'.filter (fun r => !decide (r.e = e)), evts := x.evts.filter (fun v => !decide (v.e = e)),
    dbs := x.dbs.filter (fun d => !decide (d.1 = e)), clearing := kdel x.clearing e, clrq := x.clrq.filter (fun y => !decide (y = e)) })
  ((h.waitDone e).countOpen e).sets [(Reg.siteEngStatusState e, 4), (Reg.siteEngStatusPartition e, 31), (Reg.siteEngCtrlPartition e, 31),
    (Reg.siteEngStatusDbWait e, 0)]

/-- Partitions that hold an engine of a site. -/
def Hub.sitePartitions (h : Hub) (s : Nat) : List Nat :=
  (List.range 24).filter (fun p => (List.range 8).any (fun i => decide (h.engOwner (8 * s + i) = p)))

/-- A site fenced with a cause (R305, R306). Cause 11 writes no record. -/
def Hub.fence (h : Hub) (s cause : Nat) : Hub :=
  if h.get (Reg.siteStatusState s) = 0 ∨ (h.get (Reg.siteStatusState s) = 4 ∧ cause ≠ 11) then h
  else
    let ps := h.sitePartitions s
    let n := h.get (Reg.siteStatusEngines s)
    let h := overList (fun i h => if i < n then h.engLost (8 * s + i) else h) (List.range 8) h
    let h := h.onSite s (fun x => { Site.rst with desc := x.desc, credits := x.credits, chain := x.chain, meas := x.meas, fixedMinor := x.fixedMinor })
    let h := h.sets [(Reg.siteStatusState s, 4), (Reg.siteStatusCause s, cause), (Reg.siteStatusActive s, 0), (Reg.siteStatusRawGbs s, 0),
      (Reg.sitePowerGrant s, 0), (Reg.siteCtrlResound s, 0), (Reg.siteCtrlFence s, 0)]
    if cause = 11 then h
    else
      let h := h.event Reg.siteEventFenced
      let h := overList (fun p h => h.raiseVf p 2) ps h
      h.record { code := fenceCode cause, cls := if fenceCode cause = 0x0604 ∨ fenceCode cause = 0x0608 then 1 else 0, inst := s, die := s / 8,
                 d0 := 2 ^ 10 * cause }

-- TDISP

/-- A VF's queues stop in STATE 3 with ERR ABORTED (Table 14 of 15). -/
def Hub.stopQueues (h : Hub) (v : Nat) : Hub :=
  overList (fun q h => if h.get (Reg.qStatusState v q) = 0 then h else h.sets [(Reg.qStatusState v q, 3), (Reg.qStatusErr v q, 0x07)])
    (List.range 64) h

/-- An interface in CONFIG_LOCKED or RUN enters ERROR (R457; log entry 20): its queues stop, VF entry 7 is raised, record
0x0C05. -/
def Hub.tdispError (h : Hub) (v : Nat) : Hub :=
  let st := h.get (Reg.secTdispState v)
  if st = 1 ∨ st = 2 then
    let h := (h.set (Reg.secTdispState v) 3).stopQueues v
    let h := (h.event Reg.secEventTdispError).msix v 7
    h.record { code := 0x0C05, cls := 0, part := h.vfOwner v, inst := v, d0 := 3 }
  else h

-- Partition-fatal

/-- The FAILED state entered (R478, R475): not from NONE, THAWING, RESETTING or FAILED. -/
def Hub.partFail (h : Hub) (p : Nat) : Hub :=
  let st := h.partState p
  if p < 24 ∧ (st = 1 ∨ st = 2 ∨ st = 3) then
    let h := (h.set (Reg.prtStatusState p) 6).set (Reg.prtCtrlStop p) 0
    let h := h.launchesStop (fun l => decide (l.part = p)) 0x07
    let h := overList (fun n h => h.streamFail n) (h.partStreams p) h
    let h := overList (fun e h => h.clearEng e) (h.enginesOf p) h
    let h := overList (fun g h => h.colAbort g 0x07) (h.partGroups p) h
    overList (fun v h => h.tdispError v) (h.vfsOf p) h
  else h

/-- A Partition-fatal record and what follows it (R478; Table 7 of 22 raises VF entry 4). -/
def Hub.partFatal (h : Hub) (x : RecIn) : Hub := (h.record x).partFail x.part

end Sys2Proof.Machine
end

