-- ==== Sys2Proof/Machine/Xlat.lean ====
section
/-! DEFINITION. Translation (11): master ports and their TLBs, the walk of R253 with its ownership check, parking and open faults
(R267-R272). An access of a command translates in the command's own step; a walk that WALK_START began is joined. -/

namespace Sys2Proof.Machine

/-- An access to be translated. -/
structure XAcc where
  die : Nat
  master : Master
  part : Nat
  asid : Nat
  va : Nat
  acc : AccKind
  who : Waiter
  deriving DecidableEq, Repr

/-- Local port number of a master (Table 2 of 13): floes 0-195, engines 196-259, Drift ports 260-284, quads 285-296. -/
def Master.local' (m : Master) : Nat :=
  if m.kind = 0 then m.port % 256 else if m.kind = 1 then 196 + m.port % 64 else if m.kind = 4 then 285 + m.port % 12 else 260 + m.port

/-- The micro-TLB of a port. -/
def XAcc.utlb (x : XAcc) : Nat := x.die * 512 + x.master.local'

/-- The shared TLB that serves a port (Table 5). -/
def XAcc.stlb (x : XAcc) : Nat :=
  let m := x.master
  let t :=
    if m.kind = 0 then (if m.port % 256 / 14 < 7 then 0 else 2) + (if m.port % 256 % 14 < 7 then 0 else 1)
    else if m.kind = 1 then
      let s := m.port % 64 / 8
      (if s = 0 ∨ s = 1 then 0 else if s = 4 ∨ s = 5 then 1 else if s = 2 ∨ s = 3 then 2 else 3)
    else if m.kind = 4 then m.port % 12 / 3
    else m.port % 4
  2 ^ 20 + 4 * x.die + t

/-- The 64 KiB page of an address. -/
def pageOf (va : Nat) : Nat := va / 65536

/-- Rights of Table 3 as bits R 1, W 2, A 4. -/
def AccKind.rights : AccKind → Nat
  | .read => 1
  | .write => 2
  | .atomic => 7

/-- READ, WRITE, ATOMIC flags of a fault record (Table 10). -/
def AccKind.flag : AccKind → Nat
  | .read => 1
  | .write => 2
  | .atomic => 4

-- The walk

/-- What one entry read says. -/
inductive Step11 where
  | fault (cause level entry ea : Nat)
  | table (t : Nat)
  | leaf (out log2 rights entry : Nat)
  deriving DecidableEq, Repr

/-- A table address counts as the partition's (R253): below u in one of its half-stacks. -/
def Hub.tableOk (h : Hub) (p ea : Nat) : Bool :=
  h.region ea == .stack && h.stackKind ea == .usable && decide (p < 24) && decide (h.halfOwner (halfOf ea) = p)

/-- A valid entry is malformed (R255). -/
def malformed (e level va : Nat) : Bool :=
  let lo := 16 + 9 * level
  if bits e 6 6 ≠ 0 ∨ bits e 56 8 ≠ 0 then true
  else if bitAt e 1 then
    level == 3 || (bitAt e 5 && level == 2) || decide (bits e 12 (lo - 12) ≠ 0)
      || (bitAt e 5 && decide (bits e lo 4 ≠ bits va lo 4))
  else level == 0 || decide (bits e 2 4 ≠ 0)

/-- The floes that a span of floe memory or event counters covers, and whether all of it is such memory (R85). -/
def Hub.spanFloes (h : Hub) (a log2 : Nat) : Option (List Nat) :=
  let b := a + 2 ^ log2 - 1
  match h.region a, h.region b with
  | .floeMem f _, .floeMem g _ => some ((List.range (g - f + 1)).map (· + f))
  | .event f _, .event g _ => some ((List.range (g - f + 1)).map (· + f))
  | _, _ => none

/-- The ownership check of Table 4 on an output span. -/
def Hub.spanOk (h : Hub) (p level a log2 : Nat) : Bool :=
  let b := a + 2 ^ log2 - 1
  match h.region a with
  | .stack => decide (p < 24) && decide (log2 ≤ 35) && decide (halfOf a = halfOf b) && decide (h.halfOwner (halfOf a) = p)
  | .scratch _ _ => (match h.region b with | .scratch _ _ => true | _ => false)
  | .window _ _ => (match h.region b with | .window _ _ => true | _ => false)
  | .regs _ => level == 0
  | .nowhere => false
  | _ => match h.spanFloes a log2 with
    | some l => l.all (fun f => decide (h.floeOwner f = p))
    | none => false

/-- What an entry that was read means for the walk (R253-R258). -/
def Hub.judge (h : Hub) (p va level need e ea : Nat) : Step11 :=
  let lo := 16 + 9 * level
  if !bitAt e 0 then .fault 0x01 level e ea
  else if malformed e level va then .fault 0x03 level e ea
  else if !bitAt e 1 then .table (bits e 12 36 * 4096)
  else
    let out := bits e lo (48 - lo) * 2 ^ lo
    let log2 := if bitAt e 5 then lo + 4 else lo
    let base := out / 2 ^ log2 * 2 ^ log2
    if (bits e 2 3 &&& need) ≠ need then .fault 0x02 level e ea
    else if !h.spanOk p level base log2 then .fault 0x04 level e ea
    else .leaf base log2 (bits e 2 3) e

/-- One table read of a walk (R253). -/
def State.walkRead (s : State) (p va level need t : Nat) : Step11 × State :=
  let ea := t + 8 * bits va (16 + 9 * level) 9
  if s.hub.tableOk p ea then
    let r := s.readPiece (.part p) ea 8 true
    if r.bad ≠ 0 then (.fault 0x07 level 0 ea, r.s) else (r.s.hub.judge p va level need r.v ea, r.s)
  else (.fault 0x04 level 0 0, s)

/-- A walk-cache entry added, newest first, 1,024 per die (R260). -/
def Hub.cacheWalk (h : Hub) (w : WalkCacheEntry) : Hub :=
  let l := w :: h.xlt.wcache.filter (fun x => !(decide (x.die = w.die) && decide (x.asid = w.asid) && decide (x.level = w.level)
    && decide (x.vaHigh = w.vaHigh)))
  { h with xlt := { h.xlt with wcache := (l.filter (fun x => decide (x.die = 0))).take 1024 ++ (l.filter (fun x => decide (x.die ≠ 0))).take 1024 } }

/-- The deepest table that the walk cache names for an address: the level it is read at and its HPA. -/
def Hub.walkFrom (h : Hub) (die asid va : Nat) : Nat × Nat :=
  let hit (lv : Nat) := h.xlt.wcache.find? (fun x => decide (x.die = die) && decide (x.asid = asid) && decide (x.level = lv)
    && decide (x.vaHigh = va / 2 ^ (25 + 9 * lv)))
  match hit 0 with
  | some x => (0, x.table)
  | none => match hit 1 with
    | some x => (1, x.table)
    | none => match hit 2 with
      | some x => (2, x.table)
      | none => (3, h.get (Reg.xltAsRoot asid) * 4096)

/-- The walk from a level on. -/
def State.walkGo (n : Nat) (s : State) (x : XAcc) (level t : Nat) : Step11 × State :=
  match n with
  | 0 => (.fault 0x03 0 0 0, s)
  | n + 1 =>
    match s.walkRead (s.hub.get (Reg.xltAsPartition x.asid)) x.va level x.acc.rights t with
    | (.table t', s) =>
      State.walkGo n (s.onHub (·.cacheWalk ⟨x.die, x.asid, level - 1, x.va / 2 ^ (25 + 9 * (level - 1)), t'⟩)) x (level - 1) t'
    | r => r

/-- A whole walk (R253). -/
def State.walk (s : State) (x : XAcc) : Step11 × State :=
  if x.va / 2 ^ 52 ≠ 0 then (.fault 0x06 3 0 0, s)
  else if !s.hub.on (Reg.xltAsValid x.asid) then (.fault 0x05 3 0 0, s)
  else
    let s := s.onHub (·.wrap (Reg.xltPerfWalksCount x.die) 1)
    State.walkGo 4 s x (s.hub.walkFrom x.die x.asid x.va).1 (s.hub.walkFrom x.die x.asid x.va).2

-- TLBs

/-- A TLB entry covers an address. -/
def TlbEntry.covers (t : TlbEntry) (asid va : Nat) : Bool := decide (t.asid = asid) && decide (va / 2 ^ t.log2 = t.va / 2 ^ t.log2)

/-- An entry put first in a TLB of `cap` entries, least recently used gone (R260; log entry 21 for the shared TLBs). -/
def Hub.tlbPut (h : Hub) (t : TlbEntry) (cap : Nat) : Hub :=
  let mine := (h.xlt.tlbs.filter (fun x => decide (x.tlb = t.tlb) && !x.covers t.asid t.va)).take (cap - 1)
  let rest := h.xlt.tlbs.filter (fun x => !decide (x.tlb = t.tlb))
  { h with xlt := { h.xlt with tlbs := (t :: mine) ++ rest } }

/-- The entry of a TLB that covers an address. -/
def Hub.tlbGet (h : Hub) (tlb asid va : Nat) : Option TlbEntry := h.xlt.tlbs.find? (fun x => decide (x.tlb = tlb) && x.covers asid va)

/-- Every translation of a 64 KiB page removed from a port's TLBs (R260). -/
def Hub.tlbDrop (h : Hub) (x : XAcc) : Hub :=
  let l := h.xlt.tlbs.filter (fun t => !((decide (t.tlb = x.utlb) || decide (t.tlb = x.stlb)) && t.covers x.asid x.va))
  { h with xlt := { h.xlt with tlbs := l } }

/-- A walk's result in both TLBs of the port (R260). -/
def Hub.tlbInstall (h : Hub) (x : XAcc) (base log2 rights level entry ea : Nat) : Hub :=
  let t : TlbEntry := ⟨x.utlb, x.asid, x.va / 2 ^ log2 * 2 ^ log2, log2, base, rights, level, entry, ea⟩
  (h.tlbPut { t with tlb := x.stlb } 8192).tlbPut t 64

-- Faults

/-- Accesses parked in a die. -/
def Hub.parkedIn (h : Hub) (d : Nat) : Nat := (h.xlt.parked.filter (fun a => decide (a.die = d))).length

/-- The open fault that an access joins (R268). -/
def Hub.faultFor (h : Hub) (x : XAcc) : Option Fault11 :=
  h.xlt.faults.find? (fun f => decide (f.die = x.die) && decide (f.asid = x.asid) && decide (f.page = pageOf x.va)
    && (decide (f.master.kind = 1 ∧ x.master.kind = 1)
      || (f.master.local' == x.master.local')))

/-- An access parked under a fault; before the record is written it shows in it (R269). -/
def Hub.parkUnder (h : Hub) (f : Fault11) (x : XAcc) : Hub :=
  let f' := if f.written ∨ f.pendingRec then f else
    { f with flags := f.flags ||| x.acc.flag, parked := f.parked + 1,
             engines := if x.master.kind = 1 then f.engines ||| 2 ^ (x.master.port % 64) else f.engines }
  { h with xlt := { h.xlt with
      parked := h.xlt.parked ++ [⟨x.die, f.slot, x.master, x.va, x.acc, x.who⟩],
      faults := h.xlt.faults.map (fun y => if y = f then f' else y) } }

/-- An access waits at its port because the park buffer of its die is full (R272). -/
def Hub.holdAt (h : Hub) (x : XAcc) (cause level entry ea : Nat) : Hub :=
  let h : Hub := { h with xlt := { h.xlt with
    held := h.xlt.held ++ [⟨x.die, x.asid, x.part, x.master, x.va, x.acc, cause, level, entry, ea, x.who⟩] } }
  if kmem h.xlt.episode x.die then h
  else
    let h := { h with xlt := { h.xlt with episode := kadd h.xlt.episode x.die } }
    (h.record { code := 0x0501, cls := 0, part := x.part, inst := x.asid, die := x.die, d0 := x.va }).event Reg.xltEventParkFull

/-- The lowest free fault slot of a die. -/
def Hub.faultSlot (h : Hub) (d : Nat) : Option Nat :=
  findLow 512 (fun k => !(h.xlt.faults.any (fun f => decide (f.die = d) && decide (f.slot = k))))

/-- FAULT_ID of a fault (R269). -/
def Fault11.id (f : Fault11) : Nat := f.slot + 2 ^ 9 * f.die + 2 ^ 10 * f.gen

/-- A faulting access parks and opens or joins a fault (R267, R268), or waits at its port (R272). -/
def Hub.openFault (h : Hub) (x : XAcc) (cause level entry ea : Nat) : Hub :=
  let h := h.tlbDrop x
  if 512 ≤ h.parkedIn x.die then h.holdAt x cause level entry ea
  else
    match h.faultFor x with
    | some f => h.parkUnder f x
    | none =>
      match h.faultSlot x.die with
      | none => h.holdAt x cause level entry ea
      | some k =>
        let gen := (tget 0 h.xlt.gens (512 * x.die + k) + 1) % 2 ^ 22
        let f : Fault11 := ⟨x.die, k, gen, x.part, x.asid, pageOf x.va, cause, level, x.master, x.va, entry, ea, 0, 0, 0, false, false⟩
        let h := { h with xlt := { h.xlt with faults := h.xlt.faults ++ [f], gens := tset 0 h.xlt.gens (512 * x.die + k) gen } }
        let h := (h.wrap (Reg.xltPerfFaultsCount x.die) 1).parkUnder f x
        if cause = 0x07 then
          (h.record { code := 0x0502, cls := 1, part := x.part, inst := x.asid, die := x.die, d0 := x.va, d1 := f.id }).event Reg.xltEventTablePoison
        else h

/-- A walk in flight that covers an access (R261). -/
def Hub.walkFor (h : Hub) (x : XAcc) : Option Walk :=
  h.xlt.walks.find? (fun w => decide (w.die = x.die) && decide (w.asid = x.asid) && decide (pageOf w.va = pageOf x.va))

/-- An access joins a walk in flight. -/
def Hub.joinWalk (h : Hub) (w : Walk) (x : XAcc) : Hub :=
  let l := h.xlt.walks.map (fun y => if y = w then { y with joined := y.joined ++ [(x.master, x.va, x.acc, x.who)] } else y)
  { h with xlt := { h.xlt with walks := l } }

/-- A port of the access holds an access that waits for the park buffer (R272). -/
def Hub.portHeld (h : Hub) (x : XAcc) : Bool := h.xlt.held.any (fun a => decide (a.die = x.die) && (a.master.local' == x.master.local'))

/-- A translated access: its HPA, or none where the access parks, waits or joins a walk. -/
def State.translate (s : State) (x : XAcc) : Option Nat × State :=
  if s.hub.portHeld x then (none, s.onHub (·.holdAt x 0 0 0 0))
  else match s.hub.faultFor x with
  | some f => if 512 ≤ s.hub.parkedIn x.die then (none, s.onHub (·.holdAt x f.cause f.level f.entry f.entryHpa)) else (none, s.onHub (·.parkUnder f x))
  | none =>
    match (if x.va / 2 ^ 52 = 0 then s.hub.tlbGet x.utlb x.asid x.va else none) with
    | some t =>
      if (t.rights &&& x.acc.rights) ≠ x.acc.rights then (none, s.onHub (·.openFault x 0x02 t.level t.entry t.entryHpa))
      else (some (t.out + x.va % 2 ^ t.log2), s.onHub (·.tlbPut t 64))
    | none =>
      match (if x.va / 2 ^ 52 = 0 then s.hub.tlbGet x.stlb x.asid x.va else none) with
      | some t =>
        if (t.rights &&& x.acc.rights) ≠ x.acc.rights then (none, s.onHub (·.openFault x 0x02 t.level t.entry t.entryHpa))
        else (some (t.out + x.va % 2 ^ t.log2), s.onHub (fun h => (h.tlbPut t 8192).tlbPut { t with tlb := x.utlb } 64))
      | none =>
        let s := s.onHub (·.wrap (Reg.xltPerfStlbMissCount x.die) 1)
        match s.hub.walkFor x with
        | some w => (none, s.onHub (·.joinWalk w x))
        | none =>
          match s.walk x with
          | (.leaf base log2 rights e, s) =>
            let level := if log2 < 25 then 0 else if log2 < 34 then 1 else 2
            (some (base + x.va % 2 ^ log2), s.onHub (·.tlbInstall x base log2 rights level e 0))
          | (.fault cause level e ea, s) => (none, s.onHub (·.openFault x cause level e ea))
          | (.table _, s) => (none, s)

/-- Several pages of one access translated in order: `n` bytes from `va`. The list of (HPA, bytes) pieces, none at the first that
does not translate now. -/
def State.translateSpan (n : Nat) (s : State) (x : XAcc) (len : Nat) : Option (List (Nat × Nat)) × State :=
  match n with
  | 0 => (some [], s)
  | n + 1 =>
    if len = 0 then (some [], s)
    else
      let k := min len (65536 - x.va % 65536)
      match s.translate x with
      | (none, s) => (none, s)
      | (some a, s) =>
        match State.translateSpan n s { x with va := x.va + k } (len - k) with
        | (none, s) => (none, s)
        | (some l, s) => (some ((a, k) :: l), s)

/-- A span of an access: enough pages for its length. -/
def State.span (s : State) (x : XAcc) (len : Nat) : Option (List (Nat × Nat)) × State := State.translateSpan (len / 65536 + 2) s x len

/-- Pieces read in order. -/
def State.readPieces (s : State) (o : Org) (alloc : Bool) : List (Nat × Nat) → Ret
  | [] => ⟨0, 0, 0, s⟩
  | (a, n) :: t =>
    let r := s.hubRead o a n alloc
    let q := r.s.readPieces o alloc t
    ⟨firstSt r.st q.st, r.v + 2 ^ (8 * n) * q.v, r.bad + 2 ^ ((a % 32 + n) / 32) * q.bad, q.s⟩

/-- Pieces written in order. -/
def State.writePieces (s : State) (o : Org) (alloc : Bool) (v bad : Nat) : List (Nat × Nat) → Ret
  | [] => ⟨0, 0, 0, s⟩
  | (a, n) :: t =>
    let r := s.hubWrite o a n (v % 2 ^ (8 * n)) bad alloc
    let q := r.s.writePieces o alloc (v / 2 ^ (8 * n)) (bad / 2 ^ ((a % 32 + n) / 32)) t
    ⟨firstSt r.st q.st, 0, 0, q.s⟩

end Sys2Proof.Machine
end

