-- ==== Sys2Proof/Machine/Qos.lean ====
section
/-! DEFINITION. Regulators and counters of the fabric (13: R319-R326). -/

namespace Sys2Proof.Machine

/-- Global port number of a floe, an engine, the Drift port of a partition on a die (24: the PF), a quad, the host (R319). -/
def floePort (f : Nat) : Nat := 512 * (f / 256) + f % 256
/-- Port of an engine. -/
def engPort (e : Nat) : Nat := 512 * (e / 64) + 196 + e % 64
/-- Drift port. -/
def driftPort (d p : Nat) : Nat := 512 * d + 260 + (if p < 24 then p else 24)
/-- Port of a quad. -/
def quadPort (q : Nat) : Nat := 512 * (q / 12) + 285 + q % 12
/-- The host's port, on the primary. -/
def hostPort : Nat := 297

/-- The trunk target of an address (Table 2), on its die. -/
def Hub.target (h : Hub) (a : Nat) : Nat × Nat :=
  match h.region a with
  | .stack => ((h.home a).1 / 96, (h.home a).1 % 96 / 4)
  | .scratch sl _ => (sl / 96, sl % 96 / 4)
  | .floeMem f _ => (f / 256, 46)
  | .event f _ => (f / 256, 46)
  | _ => (0, 47)

/-- Bytes counted at the target of an address for a port's class, and at the bridge where the port is on the other die (R326,
R312). -/
def Hub.qosCount (h : Hub) (port a n : Nat) (wr : Bool) : Hub :=
  let c := h.get (Reg.qosPortClass port)
  let t := h.target a
  let f (d k : Nat) : Fld := if wr then Reg.qosCntWr d c k else Reg.qosCntRd d c k
  let h := h.wrap (f t.1 t.2) n
  if port / 512 ≠ t.1 then h.wrap (f (port / 512) 45) n else h

/-- A regulator. -/
def Hub.qosPort (h : Hub) (n : Nat) : QosPort := tget QosPort.rst h.qos n

/-- A regulator written. -/
def Hub.setQosPort (h : Hub) (n : Nat) (x : QosPort) : Hub := { h with qos := tset QosPort.rst h.qos n x }

/-- A full bucket, in 1/512 bytes. -/
def Hub.bucket (h : Hub) (n : Nat) : Int := (h.get (Reg.qosPortBurst n) * 1024 * 512 : Nat)

/-- The bucket refilled up to now (R322), and the tokens it holds. -/
def Hub.refill (h : Hub) (n : Nat) : Int × Hub :=
  let t := h.now.1
  let h := h.now.2
  let p := h.qosPort n
  let add : Int := (h.get (Reg.qosPortRate n) * h.get (Reg.qosPortScale n) * (t - p.last) : Nat)
  let k := min (match p.tokens with | some k => k + add | none => h.bucket n) (h.bucket n)
  (k, h.setQosPort n { p with tokens := some k, last := t })

/-- Tokens taken for `b` port-side bytes. -/
def Hub.spend (h : Hub) (n b : Nat) : Hub :=
  let p := h.qosPort n
  h.setQosPort n { p with tokens := some (p.tokens.getD (h.bucket n) - 512 * (b : Int)) }

/-- A request asks for admission at its port (R322, R323): with REG_EN 0 it passes; behind a held request, or with no token left, it
is held. -/
def Hub.admitReq (h : Hub) (n b : Nat) (r : HeldReq) : Bool × Hub :=
  if !h.on (Reg.qosPortRegEn n) && (h.qosPort n).held.isEmpty then (true, h)
  else
    let k := h.refill n
    let h := k.2
    if (h.qosPort n).held.isEmpty && decide (0 < k.1) then (true, h.spend n b)
    else (false, h.setQosPort n { h.qosPort n with held := (h.qosPort n).held ++ [r] })

/-- SCALE of an engine port from its site's bandwidth (R325), with QOS_EVENT.SCALED when it changes. -/
def Hub.rescale (h : Hub) (s : Nat) : Hub :=
  let fitted := 256 * popCount 6 (h.pdModules s)
  let v := if fitted = 0 then 256 else 256 * h.get (Reg.siteStatusRawGbs s) / fitted
  let h' := overList (fun i h => h.set (Reg.qosPortScale (engPort (8 * s + i))) v) (List.range 8) h
  if h.get (Reg.qosPortScale (engPort (8 * s))) = v then h else h'.event Reg.qosEventScaled

end Sys2Proof.Machine
end

