-- ==== Sys2Proof/Machine/FirnRows.lean ====
section
/-! DEFINITION. Commands of the Firn slices and the channel controllers (08, 09): requests at a slice, misses, evictions, parity, ECC,
scrub, maintenance, row repair, the row query, the fill of new half-stacks (14: R330, R331). -/

namespace Sys2Proof.Machine

-- Parity (R225-R228)

/-- A parity record counts toward its way's limit (R228). -/
def Hub.noteParity (h : Hub) (sl way : Nat) : Hub :=
  let t := h.now.1
  let h := h.now.2
  let k := sl * 16 + way
  { h with ras := { h.ras with parity := tset [] h.ras.parity k ((t :: tget [] h.ras.parity k).take 4) } }

/-- A parity record of a slice (Table 2): the Partition-fatal ones fail the partition that holds the slice (R227). -/
def Hub.parityRec (h : Hub) (code sl set way : Nat) (tag : Bool) (hpa : Option Nat) : Hub :=
  let fatal := code = 0x0202 ∨ code = 0x0204
  let x : RecIn := { code := code, cls := if fatal then 2 else 0, part := h.sliceOwner sl, inst := sl, hpa := hpa, die := sl / 96,
                     d0 := set + 2 ^ 11 * way + 2 ^ 15 * b2n tag }
  let h := if fatal then (h.event Reg.frnEventFatal).partFatal x else (h.event Reg.frnEventParity).record x
  h.noteParity sl way

/-- Clean sectors of a line fail (Table 2): dirty sectors are written back, the line is invalidated and will be fetched again. -/
def State.parityClean (s : State) (sl line errs : Nat) (l : FirnLine) : State :=
  if errs &&& (15 - l.dirty) = 0 then s
  else (s.lineClean line |>.lineDrop line).onHub (·.parityRec 0x0201 sl l.set l.way false (some (128 * line)))

/-- Dirty sectors of a line fail (Table 2): they are poisoned. -/
def State.parityDirty (s : State) (sl line errs : Nat) (l : FirnLine) : State :=
  if errs &&& l.dirty = 0 then s
  else (s.putLine line { l with poison := l.poison ||| (errs &&& l.dirty) }).onHub
    (·.parityRec 0x0202 sl l.set l.way false (some (128 * line)))

/-- What a parity check finds as the slice looks a line up (R226). -/
def State.parity (s : State) (sl line : Nat) (p : ParityFind) : State :=
  match tlook s.mem.lines line with
  | none => s
  | some l =>
    if p.tag || p.unreadable then
      let code := if l.dirty = 0 ∧ !p.unreadable then 0x0203 else 0x0204
      (s.lineDrop line).onHub (·.parityRec code sl l.set l.way true none)
    else
      let errs := p.data.toNat &&& l.valid
      (s.parityDirty sl line errs l).parityClean sl line errs l

-- Requests at a slice (R214-R220)

/-- Misses of a slice fill its entries (R217). -/
def Memory.missFull (m : Memory) (sl : Nat) : Bool := decide (1152 ≤ (m.misses.filter (fun e => decide (e.slice = sl))).length)

/-- A request forwarded: its miss entry, counted (FRN_PERF_MISS). -/
def State.pushMiss (s : State) (e : MissEntry) : State :=
  { s with mem := { s.mem with misses := s.mem.misses ++ [e] }, hub := s.hub.wrap (Reg.frnPerfMissCount e.slice) 1 }

/-- The line of a way moved to the eviction buffer, or dropped where it has no dirty sector (R218). -/
def State.evictWay (s : State) (sl set w : Nat) : State :=
  match s.mem.inWay sl set w with
  | none => s
  | some (line, l) =>
    let m := { s.mem with lines := terase s.mem.lines line }
    let m := if l.dirty = 0 then m
      else { m with evicts := m.evicts ++ [⟨sl, line, set, w, l.valid, l.dirty, l.poison, l.data, []⟩] }
    { s with mem := m, hub := s.hub.wrap (Reg.frnPerfEvictCount sl) 1 }

/-- A way for a new line of a slice (R218); none: no way is eligible, or the eviction buffer is full. -/
def State.roomFor (s : State) (sl line : Nat) : Option (Nat × State) :=
  let set := (Config.firnSet sl line).val
  let empty := (s.eligible sl set).any (fun w => (s.mem.inWay sl set w).isNone)
  if !empty && decide (64 ≤ (s.mem.evicts.filter (fun e => decide (e.slice = sl))).length) then none
  else match s.pickWay sl set with
    | none => none
    | some (w, s) => some (w, s.evictWay sl set w)

/-- Sectors that a write covers in part and that a line does not hold. -/
def fetchMask (bmask valid : Nat) : Nat :=
  foldFrom 4 0 (fun k acc =>
    if bits bmask (32 * k) 32 ≠ 0 ∧ bits bmask (32 * k) 32 ≠ 2 ^ 32 - 1 ∧ !bitAt valid k then acc + 2 ^ k else acc) 0

/-- A write applied to a held line, and answered. -/
def State.writeLine (s : State) (line : Nat) (l : FirnLine) (r : SliceReq) : State :=
  (s.putLine line (foldFrom 4 0 (s.mem.putSec line r.mask.toNat r.data.toNat r.poison.toNat) l)).onHub (·.send (.slice r.tag true 0 0))

/-- One hit counted. -/
def State.hit (s : State) (sl : Nat) : State := s.onHub (·.wrap (Reg.frnPerfHitCount sl) 1)

/-- A request to a line whose eviction is open (R220). -/
def State.serveEvict (s : State) (sl : Nat) (e : Evict) (r : SliceReq) : State :=
  if !r.write && decide (r.sectors.toNat &&& (15 - e.valid) = 0) && !e.waiting.any (·.write) then
    (s.hit sl).onHub (·.send (.slice r.tag false e.data e.poison))
  else
    { s with mem := { s.mem with evicts := s.mem.evicts.map (fun x => if x = e then { x with waiting := x.waiting ++ [r] } else x) } }

/-- A request to a held line; none: it waits at the slice. -/
def State.serveHeld (s : State) (sl : Nat) (l : FirnLine) (r : SliceReq) : Option State :=
  let need := if r.write then fetchMask r.mask.toNat l.valid else r.sectors.toNat &&& (15 - l.valid)
  if need = 0 then
    if r.write then some ((s.hit sl).writeLine r.line l r)
    else some ((s.hit sl).onHub (·.send (.slice r.tag false l.data l.poison)))
  else if s.mem.missFull sl then none
  else some (s.pushMiss ⟨sl, r.line, need, some l.way, false, [r], none⟩)

/-- A request to an absent line (R214-R217); none: it waits at the slice. -/
def State.serveAbsent (s : State) (sl : Nat) (r : SliceReq) : Option State :=
  if r.alloc && s.hub.canAlloc (128 * r.line) then
    let need := if r.write then fetchMask r.mask.toNat 0 else if s.hub.on (Reg.frnSliceCtrlFill sl) then r.sectors.toNat else 15
    if need ≠ 0 ∧ s.mem.missFull sl then none
    else match s.roomFor sl r.line with
      | none => none
      | some (w, s) =>
        if need = 0 then
          some (s.writeLine r.line
            ⟨sl, (Config.firnSet sl r.line).val, w, s.hub.halfOwner (halfOf (128 * r.line)), 0, 0, 0, 0⟩ r)
        else some (s.pushMiss ⟨sl, r.line, need, some w, false, [r], none⟩)
  else if s.mem.missFull sl then none
  else some (s.pushMiss ⟨sl, r.line, if r.write then 0 else r.sectors.toNat, none, false, [r], none⟩)

/-- A request served by its slice as far as it can be now; none: it waits at the slice (R217, R218). -/
def State.serve (s : State) (sl : Nat) (r : SliceReq) : Option State :=
  match s.mem.evicts.find? (fun e => decide (e.line = r.line)) with
  | some e => some (s.serveEvict sl e r)
  | none =>
    match s.mem.misses.find? (fun e => decide (e.line = r.line)) with
    | some e =>
      if 16 ≤ e.reqs.length then none
      else some { s with mem := { s.mem with misses := s.mem.misses.map (fun x => if x = e then { x with reqs := x.reqs ++ [r] } else x) } }
    | none =>
      match tlook s.mem.lines r.line with
      | some l => s.serveHeld sl l r
      | none => s.serveAbsent sl r

/-- A request that finds no entry waits at its slice, behind those of its line (R217, R219). -/
def State.serveOrWait (s : State) (sl : Nat) (r : SliceReq) : State :=
  let wait : State := { s with mem := { s.mem with waiting := s.mem.waiting ++ [(sl, r)] } }
  if s.mem.waiting.any (fun x => decide (x.2.line = r.line)) then wait
  else (s.serve sl r).getD wait

/-- Requests that wait at a slice tried again in order. -/
def State.pumpSlice (s : State) (sl : Nat) : State :=
  let mine := s.mem.waiting.filter (fun x => decide (x.1 = sl))
  let s := { s with mem := { s.mem with waiting := s.mem.waiting.filter (fun x => !decide (x.1 = sl)) } }
  mine.foldl (fun s x => s.serveOrWait x.1 x.2) s

/-- The scratchpad way and set of an aperture offset (R211). -/
def scratchWay (off : Nat) : Nat × Nat :=
  (if off < 0x200000 then 8 + off / 0x40000 else (off - 0x200000) / 0x40000, off % 0x40000 / 128)

/-- A scratchpad line at its slice: parity first (Table 2), then the access. -/
def State.serveScratch (s : State) (sl off : Nat) (r : SliceReq) (p : ParityFind) : State :=
  let a := 128 * r.line
  let w := scratchWay off
  let s :=
    if s.hub.scratchHas sl off ∧ p.data.toNat ≠ 0 then
      let m := foldFrom 4 0 (fun k m => if bitAt p.data.toNat k then m.mark (4 * r.line + k) true else m) s.mem
      { s with mem := m }.onHub (·.parityRec 0x0202 sl w.2 w.1 false (some a))
    else s
  if r.write then
    let one (k : Nat) (s : State) : State :=
      let bm := bits r.mask.toNat (32 * k) 32
      if bm = 0 then s
      else (s.writePiece .hub (a + 32 * k) 32
        (mergeBytes 32 bm (s.mem.rd (a + 32 * k) 32) (secGet r.data.toNat k))
        (b2n (bitAt r.poison.toNat k || (decide (bm ≠ 2 ^ 32 - 1) && kmem s.mem.poison (4 * r.line + k)))) false).s
    (foldFrom 4 0 one s).onHub (·.send (.slice r.tag true 0 0))
  else
    let q := s.readPiece .hub a 128 false
    q.s.onHub (·.send (.slice r.tag false q.v q.bad))

/-- SLICE_REQUEST (R219): a request reaches a slice. One that the slice does not serve (another slice is its home, the slice is absent)
cannot arrive there. -/
def execSliceRequest (slice : BitVec 8) (r : SliceReq) (par : ParityFind) (s : State) : Host.Outcome State Fault Refusal :=
  let sl := slice.toNat
  let a := 128 * r.line
  match s.hub.region a with
  | .scratch t off => if t = sl then .next (s.serveScratch sl off r par) else .next s
  | .stack =>
    if (s.hub.home a).1 ≠ sl then .next s
    else .next ((s.parity sl r.line par).serveOrWait sl r)
  | _ => .next s

-- The channel controllers (R187-R203)

/-- A row of a stack is in force in the repair journal (R202). -/
def Hub.inJournal (h : Hub) (n pc row : Nat) : Bool :=
  h.journal.any (fun j => (decide (j.state = 0x7F) || decide (j.state = 0x3F)) && decide (j.die = n / 12) && decide (j.stack = n % 12)
    && decide (j.pc = pc) && decide (j.row = row) && decide (j.unit = h.perma.unit))

/-- Repairs queued on a stack, the running one first. -/
def Hub.repairs (h : Hub) (n : Nat) : List Nat := tget [] h.ras.repairs n

/-- A row as the repair queue and the error table name it. -/
def rowKey (pc row : Nat) : Nat := pc * 2 ^ 20 + row

/-- A row becomes a repair candidate (R200, R201, R203). -/
def Hub.candidate (h : Hub) (n pc row : Nat) (spare : Bool) : Hub :=
  let x : RecIn := { code := 0x0305, cls := 1, part := h.halfOwner (2 * n + pc / 32), inst := n, die := n / 12, d0 := rowWord n pc row }
  if kmem (h.repairs n) (rowKey pc row) then h
  else if h.inJournal n pc row then (h.record { x with code := 0x0304 }).event Reg.hbmEventRowFailed
  else if h.on Reg.hbmRasCfgPprEn && !h.on (Reg.hbmStackInfoEcc n) && decide (h.journal.length < 1024) && spare
      && decide ((h.repairs n).length < 16) then
    { h with ras := { h.ras with repairs := tset [] h.ras.repairs n (h.repairs n ++ [rowKey pc row]) } }
  else (h.record x).event Reg.hbmEventRepairUnavailable

/-- A correction of a row (R194, R200). -/
def Hub.correct (h : Hub) (a k : Nat) (spare : Bool) : Hub :=
  let n := stackOf a
  let pc := (rowOf a).1
  let row := (rowOf a).2
  let t := h.now.1
  let h := (h.now.2).count (Reg.hbmErrCountCe n) 1
  let w := h.get Reg.hbmRasCfgCeWindowH * 3600000000000
  let old := tget [] h.ras.ceTab n
  let e := (old.find? (fun x => decide (x.1 = rowKey pc row))).getD (rowKey pc row, [], 0)
  let times := t :: e.2.1.filter (fun x => decide (t ≤ x + w))
  let fresh := decide (e.2.2 = 0) || decide (e.2.2 - 1 + w < t)
  let e' : Nat × List Nat × Nat := (e.1, times, if fresh then t + 1 else e.2.2)
  let h : Hub := { h with ras := { h.ras with ceTab := tset [] h.ras.ceTab n ((e' :: old.filter (fun x => !decide (x.1 = e.1))).take 256) } }
  let h := if fresh then
      (h.record { code := 0x0301, cls := 0, part := h.halfOwner (halfOf a), inst := n, hpa := some (a + 32 * k), die := n / 12,
                  d0 := rowWord n pc row, d1 := k }).event Reg.hbmEventCe
    else h
  if times.length = h.get Reg.hbmRasCfgCeThresh then h.candidate n pc row spare else h

/-- An uncorrectable sector (R195, R200). -/
def Hub.uncorrectable (h : Hub) (a k : Nat) (spare : Bool) : Hub :=
  let n := stackOf a
  let pc := (rowOf a).1
  let row := (rowOf a).2
  let h := h.count (Reg.hbmErrCountUe n) 1
  let h := (h.record { code := 0x0302, cls := 1, part := h.halfOwner (halfOf a), inst := n, hpa := some (a + 32 * k), die := n / 12,
                       d0 := rowWord n pc row, d1 := k }).event Reg.hbmEventUe
  h.candidate n pc row spare

/-- A MAC block whose check fails (R460): every sector of the block is poisoned. -/
def State.macFail (s : State) (a : Nat) : State :=
  let b := a / 512 * 512
  let m := foldFrom 16 0 (fun k m => m.mark (b / 32 + k) true) s.mem
  { s with mem := m }.onHub (fun h =>
    (h.record { code := 0x0C03, cls := 1, part := h.halfOwner (halfOf a), inst := stackOf a, hpa := some b, die := a / 2 ^ 40 }).event
      Reg.secEventMacMismatch)

/-- What the ECC finds in one sector as it is read (R193-R195). -/
def State.eccSector (a mask : Nat) (e : EccFind) (k : Nat) (s : State) : State :=
  if !bitAt mask k || kmem s.mem.poison (a / 32 + k) then s
  else if bitAt e.ue.toNat k then
    { s with mem := s.mem.mark (a / 32 + k) true }.onHub (·.uncorrectable a k e.spare)
  else if bitAt e.ce.toNat k then s.onHub (·.correct a k e.spare)
  else s

/-- A line read by its controller (R193-R195, R330, R460): an unfilled granule reads zero with no check. -/
def State.channelRead (s : State) (line mask : Nat) (e : EccFind) : Nat × Nat × State :=
  let a := 128 * line
  if s.mem.unfilled (halfOf a) (granOf a) then (0, 0, s)
  else
    let s := foldFrom 4 0 (State.eccSector a mask e) s
    let s := if e.mac.toNat &&& mask ≠ 0 then s.macFail a else s
    let dp := s.mem.fetch line mask 0 0
    (dp.1, dp.2, s)

/-- The key generation of a half-stack (R332). -/
def Hub.keyGen (h : Hub) (k : Nat) : Nat := tget 0 h.ras.keyGens k

/-- The row of an address is held by a repair (R201). -/
def Hub.rowHeld (h : Hub) (a : Nat) : Bool :=
  let n := stackOf a
  kmem h.ras.running n && decide ((h.repairs n).head? = some (rowKey (rowOf a).1 (rowOf a).2))

/-- The channel of an address. -/
def channelOf (a : Nat) : Nat := stackOf a * 32 + (rowOf a).1 / 2

/-- The controller of an address holds 384 requests (R187). -/
def Memory.channelFull (m : Memory) (a : Nat) : Bool :=
  decide (384 ≤ (m.misses.filter (fun e => e.ret.isSome && decide (channelOf (128 * e.line) = channelOf a))).length)

/-- What the controller answers to a miss entry. -/
def State.channelServe (s : State) (e : MissEntry) (r : SliceReq) (f : EccFind) : Nat × Nat × State :=
  let a := 128 * e.line
  match s.hub.stackKind a with
  | .usable =>
    if e.way.isNone && r.write then
      if r.keyGen ≠ s.hub.keyGen (halfOf a) then (0, 0, s)
      else (0, 0, { s with mem := foldFrom 4 0 (fun k m => m.putBack e.line r.mask.toNat r.data.toNat r.poison.toNat k) s.mem })
    else s.channelRead e.line e.sectors f
  | _ => (0, 15, s.onHub (·.holeRec a (s.hub.sliceOwner e.slice)))

/-- CHANNEL_REQUEST (R187): a controller takes the forwarded request whose first requester's tag is `tag`. A full controller, or a row
that a repair holds, lets it wait. -/
def execChannelRequest (slice : BitVec 8) (tag : Nat) (ecc : EccFind) (s : State) : Host.Outcome State Fault Refusal :=
  match s.mem.misses.find? (fun e => decide (e.slice = slice.toNat) && e.ret.isNone && decide ((e.reqs.head?.map (·.tag)) = some tag)) with
  | none => .next s
  | some e =>
    if s.mem.channelFull (128 * e.line) || s.hub.rowHeld (128 * e.line) then .next s
    else match e.reqs with
      | [] => .next s
      | r :: _ =>
        let x := s.channelServe e r ecc
        let m := x.2.2.mem
        .next { x.2.2 with mem := { m with misses := m.misses.map (fun y => if y = e then { y with ret := some (x.1, x.2.1) } else y) } }

/-- The line that a fill leaves in its way: what it held, and the sectors fetched. -/
def MissEntry.fill (e : MissEntry) (w part : Nat) (old : Option FirnLine) (d p : Nat) : FirnLine :=
  let l := old.getD ⟨e.slice, (Config.firnSet e.slice e.line).val, w, part, 0, 0, 0, 0⟩
  foldFrom 4 0 (fun k (l : FirnLine) =>
    if bitAt e.sectors k && !bitAt l.valid k then
      { l with valid := setBit l.valid k true, data := secPut l.data k (secGet d k), poison := setBit l.poison k (bitAt p k) }
    else l) l

/-- FILL_RETURN (R215, R217, R221): data reach the slice; the line is installed unless it was not to be, and the requests are served in
order. -/
def execFillReturn (slice : BitVec 8) (line : Nat) (s : State) : Host.Outcome State Fault Refusal :=
  match s.mem.misses.find? (fun e => decide (e.slice = slice.toNat) && decide (e.line = line) && e.ret.isSome) with
  | none => .next s
  | some e =>
    let dp := e.ret.getD (0, 0)
    let s := { s with mem := { s.mem with misses := s.mem.misses.filter (fun x => !decide (x = e)) } }
    match e.way, e.reqs with
    | some w, r :: t =>
      let l := e.fill w (s.hub.halfOwner (halfOf (128 * line))) (tlook s.mem.lines line) dp.1 dp.2
      if e.invOnFill then
        let s := s.lineDrop line
        let s := if r.write then s.applyReq r else s.onHub (·.send (.slice r.tag false l.data l.poison))
        .next ((s.applyAll t).pumpSlice slice.toNat)
      else
        let s := s.putLine line l
        let s := if r.write then s.writeLine line l r else s.onHub (·.send (.slice r.tag false l.data l.poison))
        .next ((s.applyAll t).pumpSlice slice.toNat)
    | none, r :: t =>
      let s := s.onHub (·.send (.slice r.tag r.write dp.1 dp.2))
      .next ((s.applyAll t).pumpSlice slice.toNat)
    | _, [] => .next (s.pumpSlice slice.toNat)

/-- WRITEBACK_ACK (R218, R220): the victim's dirty sectors are in memory, its entry is free, and what waited is served in order. -/
def execWritebackAck (slice : BitVec 8) (line : Nat) (s : State) : Host.Outcome State Fault Refusal :=
  match s.mem.evicts.find? (fun e => decide (e.slice = slice.toNat) && decide (e.line = line)) with
  | none => .next s
  | some e =>
    let m := s.mem.writeBack line e.dirty e.poison e.data
    let s := { s with mem := { m with evicts := m.evicts.filter (fun x => !decide (x = e)) } }
    .next ((e.waiting.foldl (fun s r => s.serveOrWait slice.toNat r) s).pumpSlice slice.toNat)

/-- WAY_DISABLE (R228): the way has its four parity errors within the window, which the event tells. -/
def execWayDisable (slice : BitVec 8) (way : BitVec 4) (s : State) : Host.Outcome State Fault Refusal :=
  let sl := slice.toNat
  let w := way.toNat
  if 96 * s.hub.dies ≤ sl ∨ (tget [] s.hub.ras.parity (sl * 16 + w)).length < 4 ∨ bitAt (s.hub.get (Reg.frnSliceStatusDisabled sl)) w then
    .next s
  else
    let s := s.flushLines (fun _ l => decide (l.slice = sl) && decide (l.way = w))
    .next (s.onHub (fun h =>
      let h := h.set (Reg.frnSliceStatusDisabled sl) (setBit (h.get (Reg.frnSliceStatusDisabled sl)) w true)
      (h.record { code := 0x0205, cls := 0, part := h.sliceOwner sl, inst := sl, die := sl / 96, d0 := 2 ^ 11 * w }).event
        Reg.frnEventWayDisabled))

/-- SEED_WRITE (R218): the LFSR is loaded; 0 is reserved and leaves it (R6). -/
def execSeedWrite (slice : BitVec 8) (seed : BitVec 16) (s0 : State) : Host.Outcome State Fault Refusal :=
  let s := s0.wroteBy 0
  let sl := slice.toNat
  if 96 * s.hub.dies ≤ sl ∨ seed = 0 then .next s
  else
    .next { s with hub := s.hub.set (Reg.frnSliceCtrlSeed sl) seed.toNat,
                   mem := { s.mem with lfsr := tset 0xACE1 s.mem.lfsr sl seed.toNat } }

-- Maintenance (R223, R224)

/-- FRN_MAINT's fields as a write leaves them. -/
def Hub.maintFields (h : Hub) (op w : Nat) : Hub :=
  h.sets [(Reg.frnMaintOp, op), (Reg.frnMaintSetway, bits w 2 1), (Reg.frnMaintSlice, bits w 8 8), (Reg.frnMaintSet, bits w 16 11),
    (Reg.frnMaintWay, bits w 28 4)]

/-- A pending miss on a line takes the invalidate-on-fill flag (R221). -/
def Memory.flagMiss (m : Memory) (line : Nat) : Memory :=
  { m with misses := m.misses.map (fun e => if e.line = line then { e with invOnFill := true } else e) }

/-- A maintenance operation by address, from a write of FRN_MAINT (R223, R221): where a miss or an eviction of the line is open the
operation completes with it. -/
def State.maintStart (s : State) (op w : Nat) : State :=
  if bits w 32 1 = 0 then s.onHub (·.maintFields op w)
  else if s.hub.on Reg.frnMaintGo then s
  else
    let s := s.onHub (fun h => (h.maintFields op w).sets [(Reg.frnMaintGo, 1), (Reg.frnMaintResult, 0)])
    if s.hub.on Reg.frnMaintSetway then s
    else
      let a := s.hub.get Reg.frnMaintAddrHpa
      if a % 128 ≠ 0 then s.onHub (·.set Reg.frnMaintResult 0x02)
      else if op ≠ 0 ∧ s.mem.misses.any (fun e => decide (e.line = a / 128)) then { s with mem := s.mem.flagMiss (a / 128) }
      else if op ≠ 0 ∧ s.mem.evicts.any (fun e => decide (e.line = a / 128)) then s
      else
        let r := s.maintAt .pf op a
        r.s.onHub (·.set Reg.frnMaintResult r.st)

/-- ZERO_LINE (R223). -/
def execZeroLine (w : BitVec 64) (s0 : State) : Host.Outcome State Fault Refusal :=
  let s := s0.wroteBy 0
  .next (s.maintStart 0 w.toNat)
/-- CLEAN (R223). -/
def execClean (w : BitVec 64) (s0 : State) : Host.Outcome State Fault Refusal :=
  let s := s0.wroteBy 0
  .next (s.maintStart 1 w.toNat)
/-- INVALIDATE (R223). -/
def execInvalidate (w : BitVec 64) (s0 : State) : Host.Outcome State Fault Refusal :=
  let s := s0.wroteBy 0
  .next (s.maintStart 2 w.toNat)
/-- CLEAN_INVALIDATE (R223). -/
def execCleanInvalidate (w : BitVec 64) (s0 : State) : Host.Outcome State Fault Refusal :=
  let s := s0.wroteBy 0
  .next (s.maintStart 3 w.toNat)

/-- The operation is done: GO clears, MAINT_DONE is set. -/
def Hub.maintDone (h : Hub) : Hub := (h.set Reg.frnMaintGo 0).event Reg.frnEventMaintDone

/-- A set/way operation (R223): its result, and the machine. -/
def State.maintWay (s : State) (op sl set w : Nat) : Nat × State :=
  let mode := s.hub.get (Reg.frnSliceStatusMode sl)
  if op = 0 ∨ 96 * s.hub.dies ≤ sl ∨ mode = 1 ∨ (mode = 2 ∧ 8 ≤ w) then (0x02, s)
  else match s.mem.inWay sl set w with
    | none => (0, s)
    | some (line, _) => (0, if op = 1 then s.lineClean line else if op = 2 then s.lineDrop line else (s.lineClean line).lineDrop line)

/-- MAINT_COMPLETE (R221, R222, R224). -/
def execMaintComplete (s : State) : Host.Outcome State Fault Refusal :=
  let h := s.hub
  let op := h.get Reg.frnMaintOp
  if !h.on Reg.frnMaintGo then .next s
  else if h.on Reg.frnMaintSetway then
    let sl := h.get Reg.frnMaintSlice
    if s.mem.wayBusy sl (h.get Reg.frnMaintSet) (h.get Reg.frnMaintWay) then .next s
    else
      let r := s.maintWay op sl (h.get Reg.frnMaintSet) (h.get Reg.frnMaintWay)
      .next (r.2.onHub (fun h => (h.set Reg.frnMaintResult r.1).maintDone))
  else
    let line := h.get Reg.frnMaintAddrHpa / 128
    if s.mem.misses.any (fun e => decide (e.line = line) && e.invOnFill) || s.mem.evicts.any (fun e => decide (e.line = line)) then .next s
    else .next (s.onHub (·.maintDone))

-- Scrub (R196), repair (R201, R202), row query (R204)

/-- SCRUB (R196): a line of a FULL stack read in the background; an unfilled granule is skipped. -/
def execScrub (hpa : BitVec 48) (ecc : EccFind) (s : State) : Host.Outcome State Fault Refusal :=
  let a := hpa.toNat
  if !s.hub.on Reg.hbmRasCfgScrubH ∨ s.hub.region a ≠ .stack ∨ s.hub.stackKind a ≠ .usable then .next s
  else .next (s.channelRead (a / 128) 15 ecc).2.2

/-- REPAIR_START (R201): the stack's first queued repair begins; its journal record reads STATE 0x7F. -/
def execRepairStart (stack : BitVec 5) (s : State) : Host.Outcome State Fault Refusal :=
  let n := stack.toNat
  match s.hub.repairs n with
  | [] => .next s
  | k :: _ =>
    if kmem s.hub.ras.running n then .next s
    else .next (s.onHub (fun h =>
      let h : Hub := { h with ras := { h.ras with running := kadd h.ras.running n },
                              journal := h.journal ++ [⟨0x7F, n / 12, n % 12, k / 2 ^ 20, k % 2 ^ 20, h.perma.unit⟩] }
      (h.set (Reg.hbmStackInfoRepairing n) 1).count (Reg.hbmErrCountRepairs n) 1))

/-- Line index of column line `k` of a row (R183, R184): the low five bits undo the fold. -/
def rowLine (pc row k : Nat) : Nat :=
  let l := row * 256 + k * 32
  l + ((pc % 32) ^^^ lineFold l)

/-- HPA of column line `k` of a row. -/
def rowHpa (n pc row k : Nat) : Nat := n / 12 * 2 ^ 40 + n % 12 * 2 ^ 36 + pc / 32 * 2 ^ 35 + 128 * rowLine pc row k

/-- REPAIR_DONE (R201): the row's sectors stand in the spare, those in `bad` as poison; the record reads STATE 0x3F. -/
def execRepairDone (stack : BitVec 5) (bad : BitVec 32) (s : State) : Host.Outcome State Fault Refusal :=
  let n := stack.toNat
  match s.hub.repairs n with
  | [] => .next s
  | k :: rest =>
    if !kmem s.hub.ras.running n then .next s
    else
      let pc := k / 2 ^ 20
      let row := k % 2 ^ 20
      let m := foldFrom 32 0 (fun i m => if bitAt bad.toNat i then m.mark (rowHpa n pc row (i / 4) / 32 + i % 4) true else m) s.mem
      let s := { s with mem := m }
      .next (s.onHub (fun h =>
        let h : Hub := { h with
          ras := { h.ras with running := kdel h.ras.running n, repairs := tset [] h.ras.repairs n rest },
          journal := h.journal.map (fun j =>
            if j.state = 0x7F ∧ j.die = n / 12 ∧ j.stack = n % 12 ∧ j.pc = pc ∧ j.row = row then { j with state := 0x3F } else j) }
        let h := (h.record { code := 0x0303, cls := 0, part := h.halfOwner (2 * n + pc / 32), inst := n, die := n / 12,
                             d0 := rowWord n pc row }).event Reg.hbmEventRepaired
        h.set (Reg.hbmStackInfoRepairing n) 0))

/-- A write of HBM_ROWQ (R204); while GO reads 1 it restarts the query. -/
def Hub.rowqWrite (h : Hub) (x : Nat) : Hub :=
  h.sets [(Reg.hbmRowqStack, bits x 0 5), (Reg.hbmRowqPc, bits x 8 6), (Reg.hbmRowqRowkey, bits x 16 20),
    (Reg.hbmRowqGo, b2n (h.on Reg.hbmRowqGo || bitAt x 63))]

/-- ROWQ (R204). -/
def execRowq (w : BitVec 64) (s0 : State) : Host.Outcome State Fault Refusal :=
  let s := s0.wroteBy 0
  hubStep (·.rowqWrite w.toNat) s

/-- The result of the query for column line `k`: HPA, META, VALID (R185, R204). -/
def Hub.rowResult (h : Hub) (k : Nat) : Nat × Bool × Bool :=
  let n := h.get Reg.hbmRowqStack
  let pc := h.get Reg.hbmRowqPc
  let a := rowHpa n pc (h.get Reg.hbmRowqRowkey) k
  let half := 2 * n + pc / 32
  let o := a % 2 ^ 35
  let u := h.halfU half
  if 24 ≤ n ∨ h.get (Reg.hbmStackInfoState n) = 0 ∨ u + u / 64 ≤ o then (0, false, false)
  else if o < u then (a, false, true)
  else (a - o + (o - u) * 64, true, true)

/-- ROWQ_DONE (R204). -/
def execRowqDone (s : State) : Host.Outcome State Fault Refusal :=
  if !s.hub.on Reg.hbmRowqGo then .next s
  else .next (s.onHub (fun h =>
    let q := h
    (overList (fun k h => h.sets [(Reg.hbmRowqLineHpa k, (q.rowResult k).1), (Reg.hbmRowqLineMeta k, b2n (q.rowResult k).2.1),
      (Reg.hbmRowqLineValid k, b2n (q.rowResult k).2.2)]) (List.range 8) h).set Reg.hbmRowqGo 0))

-- Fill (R330, R331)

/-- FILL_GRANULE (R330): the background fill writes the lowest unfilled granule of a half-stack; none runs on a DIAG stack. -/
def execFillGranule (half : BitVec 6) (s : State) : Host.Outcome State Fault Refusal :=
  let k := half.toNat
  if 48 ≤ k ∨ s.hub.get (Reg.hbmStackInfoState (k / 2)) ≠ 2 then .next s
  else match findLow (s.hub.granules k) (fun g => s.mem.unfilled k g) with
    | none => .next s
    | some g => .next { s with mem := s.mem.fillGran k g }

/-- FILL_COMPLETE (R331): the half-stack's last granule is filled. -/
def execFillComplete (half : BitVec 6) (s : State) : Host.Outcome State Fault Refusal :=
  let k := half.toNat
  let f := tget HalfFill.rst s.mem.fill k
  if !f.marked ∨ f.filled.length < s.hub.granules k then .next s
  else .next { s with mem := { s.mem with fill := terase s.mem.fill k }, hub := s.hub.event Reg.prtEventFilled }

end Sys2Proof.Machine
end

