-- ==== Sys2Proof/Machine/Budget.lean ====
section
/-! DEFINITION. Isotherm's operations (18): the budget in force and the brake minimum (R411-R414), the allotment and the brake table
(R415, R416, R418), the trip (R420), pump duty (R428), rails (R105, R423). Powers are counted in hundredths of a watt. -/

namespace Sys2Proof.Machine

/-- Isotherm runs: boot step 6 is done, the package is neither halted nor in End of Life, and no trip stopped it. -/
def Hub.isoRuns (h : Hub) : Bool :=
  decide (7 ≤ h.boot.step) && decide (h.boot.step ≤ 10) && !h.boot.stopped && decide (h.get Reg.cfgModeLifecycle ≠ 3)

/-- Stacks fitted (02: STACK_MASK), by number n = 12d + m. -/
def Hub.presentStacks (h : Hub) : List Nat :=
  (List.range (12 * h.dies)).filter (fun n => bitAt (h.pdStackMask (n / 12)) (n % 12))

/-- The site is ACTIVE. -/
def Hub.siteActive (h : Hub) (s : Nat) : Bool := decide (h.get (Reg.siteStatusState s) = 2) || decide (h.get (Reg.siteStatusState s) = 3)

/-- IDLE_W of the Chiplet Descriptor read from a site. -/
def Hub.idleW (h : Hub) (s : Nat) : Nat := bits (h.site s).desc.toNat (8 * 0x14) 16

/-- Sites that count in the minimum: active ones, and ones being sounded that step 4 has passed (R413). -/
def Hub.countedSites (h : Hub) : List Nat :=
  (List.range (8 * h.dies)).filter (fun s => h.siteActive s || (decide (h.get (Reg.siteStatusState s) = 1) && decide (5 ≤ (h.site s).step)))

/-- The brake minimum m in W (R412). -/
def Hub.brakeMin (h : Hub) : Nat :=
  260 * h.dies + 12 * h.presentStacks.length + (h.countedSites.map h.idleW).sum

/-- CLASS_W in effect (R50). -/
def Hub.classW (h : Hub) : Nat := h.iso.classHeld.getD (h.get Reg.cfgPowerClassW)

/-- brake_budget of Table 1. -/
def Hub.brakeBudget (h : Hub) (m lv : Nat) : Nat :=
  if lv = 0 then max m (75 * h.classW) else if lv = 1 then max m (50 * h.classW) else if lv = 2 then max m (35 * h.classW) else m

/-- The software brake (Table 2). -/
def Hub.swBrake (h : Hub) : Bool := h.on Reg.isoBrakeSwReq || decide (h.od 0x2212 1 = 1)

/-- Active brake sources (Table 2), as SOURCE code and level. -/
def Hub.brakes (h : Hub) : List (Nat × Nat) :=
  (if h.iso.brakePin then [(3, h.get Reg.cfgPowerBrakeLevel)] else [])
    ++ (if h.swBrake then [(4, h.get Reg.cfgPowerBrakeLevel)] else [])
    ++ (if h.iso.coolant then [(5, h.od 0x2311 1)] else [])
    ++ (if h.iso.dieCrit.isEmpty && h.iso.stackCrit.isEmpty then [] else [(6, 3)])

/-- The smaller of two terms; the first of equal ones. -/
def minTerm (a : Nat × Nat) : List (Nat × Nat) → Nat × Nat
  | [] => a
  | b :: t => minTerm (if b.2 < a.2 then b else a) t

/-- The budget in force b, its SOURCE, and whether it was raised to m (R411). -/
def Hub.budget (h : Hub) : Nat × Nat × Bool :=
  let m := 100 * h.brakeMin
  let r := minTerm (0, 100 * h.classW)
    ((if h.od 0x2210 1 = 0 then [] else [(1, 100 * h.od 0x2210 1)]) ++ (if h.on Reg.isoStatusHbLost then [(2, 100 * h.od 0x2211 1)] else [])
      ++ h.brakes.map (fun s => (s.1, h.brakeBudget m s.2)))
  if r.2 < m then (m, 7, true) else (r.2, r.1, false)

/-- A power record (Table 9 of 18): INSTANCE, temperature and sensor. -/
def Hub.powerRec (h : Hub) (code inst temp sensor : Nat) : Hub :=
  h.record { code := code, cls := if code = 0x0B05 then 3 else 0, inst := inst, die := if inst < 16 then inst else (inst - 16) / 12,
             d0 := temp + 2 ^ 8 * sensor + 2 ^ 16 * (h.budget.1 / 100) }

/-- ISO_BUDGET and the under-minimum episode brought up to date (R411, R412). -/
def Hub.showBudget (h : Hub) : Hub :=
  let b := h.budget
  let h := h.sets [(Reg.isoBudgetInForceW, b.1 / 100), (Reg.isoBudgetSource, b.2.1), (Reg.isoBudgetMinW, h.brakeMin),
    (Reg.isoBudgetCanLimitW, h.od 0x2210 1), (Reg.isoStatusUnderMin, b2n b.2.2), (Reg.isoStatusBrakeSw, b2n h.swBrake),
    (Reg.isoStatusCritical, b2n (!(h.iso.dieCrit.isEmpty && h.iso.stackCrit.isEmpty))), (Reg.isoStatusCoolant, b2n h.iso.coolant),
    (Reg.isoStatusBrakePin, b2n h.iso.brakePin)]
  if !b.2.2 then { h with iso := { h.iso with underRec := false } }
  else if h.iso.underRec then h
  else (({ h with iso := { h.iso with underRec := true } }).event Reg.isoEventUnderMin).powerRec 0x0B08 0 0 0

-- Sharing (R415, R416)

/-- A consumer: its number (dies 0-1, stacks 16-39, sites 64-79), minimum and demand, the demand clamped to its cap. -/
structure Consumer where
  k : Nat
  m : Nat
  d : Nat

/-- A demand clamped between a minimum and a cap. -/
def clampD (d m c : Nat) : Nat := max m (min d c)

/-- The consumers with the demands of the last pass (R415); a site whose alarm is set asks for its minimum (R421). -/
def Hub.consumers (h : Hub) : List Consumer :=
  let dm (k : Nat) : Nat := 10 * tget 0 h.iso.demands k
  (List.range h.dies).map (fun d => ⟨d, 26000, clampD (dm d) 26000 45000⟩)
    ++ h.presentStacks.map (fun n => ⟨16 + n, 1200, clampD (dm (16 + n)) 1200 (100 * h.pdStackCap n)⟩)
    ++ ((List.range (8 * h.dies)).filter h.siteActive).map (fun s =>
      let m := 100 * h.idleW s
      ⟨64 + s, m, if kmem h.iso.alarms s then m else clampD (dm (64 + s)) m (100 * h.pdSiteCap s)⟩)

/-- The grants of a budget, in 0.1 W, by consumer (R415). -/
def shares (l : List Consumer) (b : Nat) : List (Nat × Nat) :=
  let sm := (l.map (·.m)).sum
  let sd := (l.map (·.d)).sum
  if sd ≤ b then l.map (fun c => (c.k, c.d / 10))
  else l.map (fun c => (c.k, (c.m * (sd - sm) + (b - sm) * (c.d - c.m)) / (10 * (sd - sm))))

/-- The grant of a consumer in force, in 0.1 W. -/
def Hub.grant (h : Hub) (k : Nat) : Nat :=
  if k < 16 then h.get (Reg.isoDieGrant k) else if k < 64 then h.get (Reg.isoStackGrant (k - 16)) else h.get (Reg.sitePowerGrant (k - 64))

/-- A word written into a site's management space over the sideband (Table 7 of 12; log entry 31). -/
def Hub.siteWrite (h : Hub) (s off v : Nat) : Hub := h.send (.eep s off 0 v 0 0 0 0)

/-- A grant set; a site's is written to it (R300). -/
def Hub.setGrant (h : Hub) (k g : Nat) : Hub :=
  if k < 16 then h.set (Reg.isoDieGrant k) g
  else if k < 64 then h.set (Reg.isoStackGrant (k - 16)) g
  else if h.get (Reg.sitePowerGrant (k - 64)) = g then h
  else (h.set (Reg.sitePowerGrant (k - 64)) g).siteWrite (k - 64) 0x1010 g

/-- Grants set from a list. -/
def Hub.setGrants (h : Hub) (l : List (Nat × Nat)) : Hub := l.foldl (fun h x => h.setGrant x.1 x.2) h

/-- Row of the brake table of a level. -/
def Hub.brakeRow (h : Hub) (lv : Nat) : List (Nat × Nat) :=
  (h.iso.table.filter (fun x => decide (x.1 / 128 = lv))).map (fun x => (x.1 % 128, x.2))

/-- The most severe level among the active sources. -/
def Hub.brakeLevel (h : Hub) : Nat := (h.brakes.map (·.2)).foldl max 0

/-- The rise of R418 begins from the grants in force. -/
def Hub.startRamp (h : Hub) : Hub :=
  { h with iso := { h.iso with ramp := some (h.consumers.map (fun c => (c.k, h.grant c.k)), 0) } }

/-- What a change of the brake sources does (R414, R416, R418): `old` is the list before it. A new source sets its event, writes record
0x0B01 and applies the row of the most severe level; when the last one is gone the grants begin to rise. -/
def Hub.rebrake (h : Hub) (old : List (Nat × Nat)) : Hub :=
  let new := h.brakes.filter (fun s => !old.any (fun o => decide (o.1 = s.1)))
  let h := h.showBudget
  if !new.isEmpty then
    let h : Hub := { h with iso := { h.iso with ramp := none } }
    let h := h.setGrants (h.brakeRow (h.brakeLevel))
    new.foldl (fun h _ => (h.event Reg.isoEventBrake).powerRec 0x0B01 0 0 0) h
  else if h.brakes.isEmpty && !old.isEmpty then h.startRamp
  else h

/-- The demands of a pass, in 0.1 W (R415): floe activity of a die, mean power of a stack plus 2 W, REQUEST of a site. The secondary's
come over the bridge (R424). -/
def Hub.takeReadings (h : Hub) (x : PowerIn) : Hub :=
  let tw := h.iso.twin.getD ⟨[], [], []⟩
  let at' (l : List (BitVec 16)) (i : Nat) : Nat := (l.getD i 0).toNat
  let dd (d : Nat) : Nat := if d = 0 then at' x.dieDemand 0 else at' tw.dieDemand 0
  let dp (d : Nat) : Nat := if d = 0 then at' x.diePower 0 else at' tw.diePower 0
  let sp (n : Nat) : Nat := if n < 12 then at' x.stackPower n else at' tw.stackPower (n - 12)
  let h := (List.range h.dies).foldl (fun h d => h.set (Reg.isoDiePower d) (dp d)) h
  let h := h.presentStacks.foldl (fun h n => h.set (Reg.isoStackPower n) (sp n)) h
  let dem := (List.range h.dies).map (fun d => (d, dd d)) ++ h.presentStacks.map (fun n => (16 + n, sp n + 20))
    ++ ((List.range (8 * h.dies)).filter h.siteActive).map (fun s => (64 + s, h.get (Reg.sitePowerRequest s)))
  { h with iso := { h.iso with demands := dem.foldl (fun t p => tset 0 t p.1 p.2) [] } }

/-- The allotment of a pass, on the way up of R418 where one runs, and the brake table (R416). -/
def Hub.allot (h : Hub) : Hub :=
  let l := h.consumers
  let m := 100 * h.brakeMin
  let rows := (List.range 4).flatMap (fun lv => (shares l (h.brakeBudget m lv)).map (fun x => (128 * lv + x.1, x.2)))
  let g := shares l h.budget.1
  let h : Hub := { h with iso := { h.iso with table := rows.foldl (fun t x => tput t x.1 x.2) [] } }
  match h.iso.ramp with
  | none => h.setGrants g
  | some (g0, n) =>
    let up (k t : Nat) : Nat := let a := tget 0 g0 k; if a < t then a + (t - a) * (n + 1) / 10 else t
    let h := h.setGrants (g.map (fun x => (x.1, up x.1 x.2)))
    { h with iso := { h.iso with ramp := if 10 ≤ n + 1 then none else some (g0, n + 1) } }

/-- One millisecond pass (R415, R416, R418). Until boot step 9 is done every grant of a die or stack stays at the floor. -/
def Hub.isoPass (h : Hub) (x : PowerIn) : Hub :=
  let h := h.takeReadings x
  if h.boot.step ≠ 10 then h else h.showBudget.allot

-- Temperatures (R419, R420, R428)

/-- The hottest reading of every die sensor, stack and chiplet. -/
def Hub.hottest (h : Hub) : Nat :=
  let a := (List.range 2).foldl (fun m d => max m (h.get (Reg.isoDieHottestC d))) 0
  let b := (List.range 24).foldl (fun m n => max m (h.get (Reg.hbmStackInfoTemp n))) a
  (List.range 16).foldl (fun m s => if h.siteActive s then max m (h.get (Reg.sitePowerTemp s)) else m) b

/-- The duty that a temperature asks for (R428). -/
def Hub.dutyFor (h : Hub) (t : Nat) : Nat :=
  let mn := h.get Reg.isoPumpCfgMinDuty
  let lo := h.get Reg.isoPumpCfgTLow
  let hi := h.get Reg.isoPumpCfgTHigh
  if hi ≤ t then 100 else if t < lo then mn else mn + ((100 - mn) * (t - lo) + (hi - lo) - 1) / (hi - lo)

/-- The duties of both pumps brought up to date (R428, R429). -/
def Hub.pumps (h : Hub) : Hub :=
  let full := !h.isoRuns || h.iso.coolant
  let d := if full then 100 else h.dutyFor h.hottest
  (h.set (Reg.isoPumpDuty 0) (if h.on (Reg.isoPumpFail 1) then 100 else d)).set (Reg.isoPumpDuty 1) (if h.on (Reg.isoPumpFail 0) then 100 else d)

/-- A trip (R420): pins, ISO_TRIP, which keeps what it already holds, pumps, the record, and the clocks. -/
def Hub.trip (h : Hub) (stack : Bool) (die source temp : Nat) : Hub :=
  if h.boot.stopped then h
  else
    let h := if h.on Reg.isoTripValid then h
      else h.sets [(Reg.isoTripValid, 1), (Reg.isoTripStack, b2n stack), (Reg.isoTripDie, die), (Reg.isoTripSource, source), (Reg.isoTripTempC, temp)]
    let h := (h.sets [(Reg.isoPumpDuty 0, 100), (Reg.isoPumpDuty 1, 100)]).powerRec 0x0B05 (if stack then 16 + 12 * die + source else die) temp (if stack then 0 else source)
    { h with boot := { h.boot with thermN := true, faultN := true, pumpHigh := true, stopped := true } }

-- Rails (R105, R423)

/-- Key of a floe's rail: its die × 16 + select (Table 4). -/
def floeRail (f : Nat) : Nat := f / 256 * 16 + f % 256 / 28

/-- The floes of a rail. -/
def railFloes (k : Nat) : List Nat := if 7 ≤ k % 16 then [] else (List.range 28).map (fun i => k / 16 * 256 + k % 16 * 28 + i)

/-- The frequency whose voltage a rail has acknowledged. -/
def Hub.railFreq (h : Hub) (k : Nat) : Nat := tget 6 h.iso.railFor k

/-- The highest frequency that the acknowledged voltage of a rail supports (R423). -/
def Hub.railCap (h : Hub) (k : Nat) : Nat :=
  let mv := Config.railMv (k / 16) (k % 16) (h.railFreq k)
  ((List.range 16).filter (fun f => decide (6 ≤ f) && decide (Config.railMv (k / 16) (k % 16) f ≤ mv))).foldl max (h.railFreq k)

/-- A voltage write of a rail for a frequency, with the floes that wait for it (R423). -/
def Hub.railWrite (h : Hub) (k f : Nat) (wait : List (Nat × Nat)) : Hub :=
  ({ h with iso := { h.iso with railWait := tput h.iso.railWait k (f, wait) } }).send (.avs k (Config.railMv (k / 16) (k % 16) f))

/-- The highest frequency a rail's floes run at or wait for (R105). -/
def Hub.railNeed (h : Hub) (k : Nat) : Nat :=
  let a := (railFloes k).foldl (fun m f => max m (h.get (Reg.flcFloeStatusFreq f))) 6
  (tget (6, []) h.iso.railWait k).2.foldl (fun m x => max m x.2) a

/-- A floe's frequency decided (R105, R423): raised after its rail's voltage, lowered before it; on a held rail never above what its
voltage supports. -/
def Hub.floeFreq (h : Hub) (f v : Nat) : Hub :=
  let k := floeRail f
  let w := tget (6, []) h.iso.railWait k
  let wait := w.2.filter (fun x => !decide (x.1 = f))
  if kmem h.iso.railHeld k then h.set (Reg.flcFloeStatusFreq f) (min v (h.railCap k))
  else if h.railFreq k < v then h.railWrite k (max v w.1) (wait ++ [(f, v)])
  else
    let h := h.set (Reg.flcFloeStatusFreq f) v
    let h : Hub := if w.2.isEmpty then h else { h with iso := { h.iso with railWait := tput h.iso.railWait k (w.1, wait) } }
    if h.railNeed k < h.railFreq k then h.railWrite k (h.railNeed k) [] else h

/-- A voltage write acknowledged and settled (R423): the frequency changes that waited for it follow. -/
def Hub.railAck (h : Hub) (k : Nat) : Hub :=
  match tlook h.iso.railWait k with
  | none => h
  | some (v, wait) =>
    let h : Hub := { h with iso := { h.iso with railWait := terase h.iso.railWait k, railFor := tset 6 h.iso.railFor k v } }
    wait.foldl (fun h x => h.set (Reg.flcFloeStatusFreq x.1) (min x.2 v)) h

/-- A voltage write unacknowledged after three tries (R423): the rail is held. -/
def Hub.railFail (h : Hub) (k : Nat) : Hub :=
  let h : Hub := { h with iso := { h.iso with railWait := terase h.iso.railWait k, railHeld := kadd h.iso.railHeld k } }
  let h := (railFloes k).foldl (fun h f => h.set (Reg.flcFloeStatusFreq f) (min (h.get (Reg.flcFloeStatusFreq f)) (h.railCap k))) h
  ((h.set Reg.isoStatusRailFail 1).event Reg.isoEventRailFail).powerRec 0x0B06 (k / 16) 0 0

end Sys2Proof.Machine
end

