-- ==== Sys2Proof/Machine/Transcode.lean ====
section
/-! DEFINITION. The transcoder (06: R148, R149, R151, R152, R157, R158) over rows of elements, and what Dewpoint does with a tagged
conversion (07: R163-R171, R181): the tag's format of a group, policy, counters, selection. -/

namespace Sys2Proof.Machine

-- Rows

/-- Bytes of a row of `k` elements, if it holds a whole number of bytes and of block groups (R149, R238). -/
def rowLen (f : FmtByte) (k : Nat) : Option Nat :=
  if f.blk then (if k % 1024 = 0 then some (k / 1024 * groupBytes f) else none)
  else if k * fmtBits f.code % 8 = 0 then some (k * fmtBits f.code / 8) else none

/-- Elements of a row of `n` bytes, if whole. -/
def rowElems (f : FmtByte) (n : Nat) : Option Nat :=
  if f.blk then (if n % groupBytes f = 0 then some (n / groupBytes f * 1024) else none)
  else if 8 * n % fmtBits f.code = 0 then some (8 * n / fmtBits f.code) else none

/-- Bytes of 1,024 elements (R163): a group, or the elements alone where the format has no block scale. -/
def groupSize (f : FmtByte) : Nat := if f.blk then groupBytes f else 128 * fmtBits f.code

/-- The address of the first element byte of block or run `j` of a row that starts at `a` (R152). -/
def blkAddr (f : FmtByte) (a j : Nat) : Nat :=
  if f.blk then a + j / 32 * groupBytes f + j % 32 * blkBytes f.code else a + j * blkBytes f.code

/-- Element codes of block `j`, `m` of them, of a row given as a number; with its scale byte and sidecar word. -/
def blkGet (f : FmtByte) (x j m : Nat) : QBlock :=
  let w := fmtBits f.code
  if f.blk then
    let base := j / 32 * groupBytes f
    let b := blkBytes f.code
    QBlock.of (unpack w m (bits x (8 * (base + j % 32 * b)) (8 * b))) (bits x (8 * (base + 32 * b + j % 32)) 8)
      (if f.esc then bits x (8 * (base + 32 * b + 32 + 4 * (j % 32))) 32 else 0)
  else QBlock.of (unpack w m (bits x (32 * w * j) (w * m))) 0 0

/-- A block put in its place in a row (R148). -/
def blkPut (f : FmtByte) (j : Nat) (q : QBlock) : Nat :=
  let w := fmtBits f.code
  let e := pack w q.codes
  if f.blk then
    let base := j / 32 * groupBytes f
    let b := blkBytes f.code
    e * 2 ^ (8 * (base + j % 32 * b)) + q.scale * 2 ^ (8 * (base + 32 * b + j % 32))
      + (if f.esc then q.sidecar * 2 ^ (8 * (base + 32 * b + 32 + 4 * (j % 32))) else 0)
  else e * 2 ^ (32 * w * j)

/-- Exact values of a block. -/
def blkVals (f : FmtByte) (q : QBlock) : List Val := if f.blk then dequantise f.code q else q.codes.map (decodeElt f.code)

/-- Conditions that Table 1 of 07 counts. -/
structure DewCnt where
  sat : Nat
  ofl : Nat
  nv : Nat
  esc : Nat
  escovf : Nat
  bad : Nat
  deriving DecidableEq, Repr

/-- Nothing counted. -/
def DewCnt.zero : DewCnt := ⟨0, 0, 0, 0, 0, 0⟩

/-- Counts joined. -/
def DewCnt.add (a b : DewCnt) : DewCnt :=
  ⟨a.sat + b.sat, a.ofl + b.ofl, a.nv + b.nv, a.esc + b.esc, a.escovf + b.escovf, a.bad + b.bad⟩

/-- A converted row: its bytes as a number, what it counts, and its blocks with exact source and result values. -/
structure Conv where
  out : Nat
  cnt : DewCnt
  blocks : List (List Val × List Val)

/-- Whether a conversion is eligible for sampling (R170): a narrower element, or a block scale where the source has none. -/
def narrows (sf df : FmtByte) : Bool := decide (fmtBits df.code < fmtBits sf.code) || (df.blk && !sf.blk)

/-- Exact values encoded as block `j` of a row (R153, R154, R157): seed address `va`, BAD as the source has it. -/
def encBlock (df : FmtByte) (xs : List Val) (j va bad : Nat) (mode : Rnd) : Conv :=
  let ds := if mode = .stoch then (srDraws xs.length (srSeed va)).1 else []
  if df.blk then
    let r := quantiseF df.code df.esc xs mode ds
    ⟨blkPut df j r.1,
      ⟨(r.2.1.filter (·.sat)).length, (r.2.1.filter (·.ofl)).length, if r.1.scale = 0xFF then 32 else (r.2.1.filter (·.nv)).length,
        b2n r.2.2.esc, b2n r.2.2.escovf, bad⟩,
      [(xs, dequantise df.code r.1)]⟩
  else
    let rs := xs.zipIdx.map (fun p => encodeElt df.code p.1 mode (ds.getD p.2 0))
    ⟨blkPut df j (QBlock.of (rs.map Prod.fst) 0 0),
      ⟨(rs.filter (·.2.sat)).length, (rs.filter (·.2.ofl)).length, (rs.filter (·.2.nv)).length, 0, 0, bad⟩,
      [(xs, rs.map (fun r => decodeElt df.code r.1))]⟩

/-- One block of a row converted (R152, R157): seed address `va`. -/
def convBlock (sf df : FmtByte) (x j m va : Nat) (mode : Rnd) : Conv :=
  let q := blkGet sf x j m
  encBlock df (blkVals sf q) j va (b2n (q.malformed || q.codes.any (invalidElt sf.code))) mode

/-- Blocks and runs `j` to `j + n - 1` of a row of `k` elements. -/
def convFrom (n j : Nat) (sf df : FmtByte) (x k sa da : Nat) (onRead : Bool) (mode : Rnd) : Conv :=
  match n with
  | 0 => ⟨0, .zero, []⟩
  | n + 1 =>
    let va := if df.blk then blkAddr df da j else if sf.blk then blkAddr sf sa j else if onRead then blkAddr sf sa j else blkAddr df da j
    let a := convBlock sf df x j (min 32 (k - 32 * j)) va mode
    let b := convFrom n (j + 1) sf df x k sa da onRead mode
    ⟨a.out + b.out, a.cnt.add b.cnt, a.blocks ++ b.blocks⟩

/-- A row of `k` elements converted (R157): `x` at address `sa` in `sf` to address `da` in `df`. `onRead` tells that the source's
transcoder converts (R18, R239): the stored side is the source. Equal format bytes copy. -/
def convertRow (sf df : FmtByte) (x k sa da : Nat) (onRead : Bool) (mode : Rnd) : Conv :=
  if sf = df then ⟨x, .zero, []⟩
  else
    let n := (k + 31) / 32
    convFrom n 0 sf df x k sa da onRead mode

/-- Poison of a range of `n` bytes moved unchanged from address `a` to address `b`, by sector. -/
def shiftBad (a b n bad : Nat) : Nat :=
  ((List.range (sectorsOf b n).length).map (fun i =>
    let o1 := 32 * i - b % 32
    let o2 := min n (32 * i + 32 - b % 32)
    let j1 := (a % 32 + o1) / 32
    let j2 := (a % 32 + o2 - 1) / 32
    if (List.range (j2 + 1 - j1)).any (fun j => bitAt bad (j1 + j)) then 2 ^ i else 0)).sum

/-- Bit `k` of a mask set. -/
def setBitN (m k : Nat) : Nat := putBits m k 1 1

/-- Byte ranges of a row that hold chunk `c` of `m` elements (R148): elements, and on a block-scaled side the scale and the sidecar. -/
def chunkRanges (f : FmtByte) (m c : Nat) : List (Nat × Nat) :=
  if f.blk then
    let b := c / 32 * groupBytes f
    let n := blkBytes f.code
    (b + c % 32 * n, n) :: (b + 32 * n + c % 32, 1) :: (if f.esc then [(b + 32 * n + 32 + c % 32 * 4, 4)] else [])
  else [(c * m * fmtBits f.code / 8, (c * m * fmtBits f.code % 8 + m * fmtBits f.code + 7) / 8)]

/-- The 32-byte units, counted from the one that address `a` lies in, that hold ranges of a row at `a`. -/
def rangeUnits (a : Nat) (l : List (Nat × Nat)) : List Nat :=
  l.flatMap (fun r => (List.range ((a % 32 + r.1 + r.2 - 1) / 32 + 1 - (a % 32 + r.1) / 32)).map (· + (a % 32 + r.1) / 32))

/-- Poison of a converted row of `k` elements (Table 2 of 22): a block-scaled side marks whole blocks, else each unit takes the marks of
its own elements. `sa` and `da` are the row's addresses on both sides. -/
def convBad (sf df : FmtByte) (k sa da bad : Nat) : Nat :=
  if bad = 0 then 0
  else
    let m := if sf.blk || df.blk then 32 else 1
    (List.range ((k + m - 1) / m)).foldl (fun acc c =>
      let mm := min m (k - c * m)
      let src := chunkRanges sf m c
      let src := if sf.blk then src else [((c * m * fmtBits sf.code) / 8, (c * m * fmtBits sf.code % 8 + mm * fmtBits sf.code + 7) / 8)]
      if (rangeUnits sa src).any (fun u => bitAt bad u) then (rangeUnits da (chunkRanges df m c)).foldl (fun a u => setBitN a u) acc
      else acc) 0

-- Tags

/-- The next format of a promotion (Table 2 of 07). -/
def nextFmt (b : Nat) : Option Nat :=
  let c := b % 16
  let k := b / 16 * 16
  if c = 10 ∨ c = 11 then some (k + 7)
  else if c = 7 ∨ c = 9 then some (k + 5)
  else if c = 5 ∨ c = 6 then some (putBits k 5 1 0 + 3)
  else none

/-- `c` lies on the promotion chain above `b`. -/
def onChain (n b c : Nat) : Bool :=
  match n with
  | 0 => false
  | n + 1 => match nextFmt b with
    | some x => decide (x = c) || onChain n x c
    | none => false

/-- A tag is promotable (R164). -/
def Hub.promotable (h : Hub) (p t : Nat) : Bool :=
  let f := h.get (Reg.dewTagFmt p t)
  let c := h.get (Reg.dewTagCeil p t)
  decide (c ≠ f) && onChain 4 f c && h.on (Reg.dewTagStride p t) && h.on (Reg.dewTagGroups p t)

/-- The group of a promotable tag's region that an address starts: none outside the region; the group and whether the address is
aligned to it. -/
def Hub.tagGroup (h : Hub) (p t va : Nat) : Option (Nat × Bool) :=
  let b := h.get (Reg.dewTagBase p t)
  let st := h.get (Reg.dewTagStride p t)
  if h.promotable p t ∧ b ≤ va ∧ va < b + h.get (Reg.dewTagGroups p t) * st then some ((va - b) / st, decide ((va - b) % st = 0)) else none

/-- The format a group is held in (R177); none: its rewrite is not complete, and the access waits. -/
def Hub.tagFmt (h : Hub) (p t g : Nat) : Option Nat :=
  if !h.on (Reg.dewTagMigrating p t) then some (h.get (Reg.dewTagFmt p t))
  else if g < h.get (Reg.dewTagFrontier p t) then some (h.get (Reg.dewTagNextFmt p t))
  else if g = h.get (Reg.dewTagFrontier p t) then none
  else some (h.get (Reg.dewTagFmt p t))

/-- What a tag makes of one side of a row. -/
inductive SideFmt where
  | named                 -- the format the request names
  | bad                   -- INVALID_FIELD (R165)
  | wait                  -- the group is being rewritten (R177)
  | group (f : Nat)       -- one whole group, in this format
  deriving DecidableEq, Repr

/-- The side of a row that starts at `va` in stack memory under a tag (R165). -/
def Hub.sideFmt (h : Hub) (p : Nat) (tag : Option Nat) (va : Nat) (stack : Bool) : SideFmt :=
  match tag with
  | none => .named
  | some t =>
    if !stack || decide (24 ≤ p) then .named
    else match h.tagGroup p t va with
      | none => .named
      | some (_, false) => .bad
      | some (g, true) => match h.tagFmt p t g with
        | none => .wait
        | some f => .group f

/-- A stored format is allowed (R167); the PF and the hub have no policy. -/
def Hub.storeOk (h : Hub) (p f : Nat) : Bool := decide (24 ≤ p) || bitAt (h.get (Reg.dewPolicyStoreAllow p)) (f % 16)

/-- A tag of a partition is halted. -/
def Hub.halted (h : Hub) (p : Nat) (tag : Option Nat) : Bool :=
  match tag with
  | some t => decide (p < 24) && h.on (Reg.dewTagHalted p t)
  | none => false

/-- What becomes of a row: a status that refuses it, a wait, or the formats it moves in and whether it is a whole group. -/
inductive RowPlan where
  | refuse (st : Nat)
  | wait
  | go (sf df : Nat) (whole : Bool)
  deriving DecidableEq, Repr

/-- The format of a side. -/
def SideFmt.fmt (x : SideFmt) (named : Nat) : Nat := match x with | .group f => f | _ => named

/-- A row of a request with a tag (R165, R167, R181): the sides' addresses as named and whether each lies in stack memory. -/
def Hub.rowPlan (h : Hub) (p : Nat) (tag : Option Nat) (sva : Nat) (sstack : Bool) (dva : Nat) (dstack : Bool) (sf df : Nat) : RowPlan :=
  let a := h.sideFmt p tag sva sstack
  let b := h.sideFmt p tag dva dstack
  let sf' := a.fmt sf
  let df' := b.fmt df
  if a = .bad ∨ b = .bad then .refuse 0x02
  else if dstack ∧ sf' ≠ df' ∧ !h.storeOk p df' then .refuse 0x04
  else if dstack && decide (p < 24) && (match tag with | some t => !h.storeOk p (h.get (Reg.dewTagFmt p t)) | none => false) then .refuse 0x04
  else if h.halted p tag ∧ sf' ≠ df' ∧ (dstack ∨ narrows (.ofNat sf') (.ofNat df')) then .refuse 0x0F
  else if a = .wait ∨ b = .wait then .wait
  else .go sf' df' (decide (a ≠ .named) || decide (b ≠ .named))

/-- A Dewpoint event of a partition (07, R352): DEW_EVENT and the entry of its VFs. -/
def Hub.dewEvent (h : Hub) (p : Nat) (f : Fld) : Hub := (h.event f).raiseVf p 1

/-- A tagged conversion counted (R169). -/
def Hub.dewCount (h : Hub) (p : Nat) (tag : Option Nat) (c : DewCnt) : Hub :=
  match tag with
  | none => h
  | some t =>
    if 24 ≤ p then h
    else
      (((((h.count (Reg.dewStatSat p t) c.sat).count (Reg.dewStatOf p t) c.ofl).count (Reg.dewStatNv p t) c.nv).count
        (Reg.dewStatEsc p t) c.esc).count (Reg.dewStatEscovf p t) c.escovf).count (Reg.dewStatBad p t) c.bad

/-- A selected block offered to the recompute queue of a die (R171): a full queue counts it SKIPPED. -/
def Hub.dewPush (h : Hub) (d : Nat) (x : DewSample) : Hub :=
  let q := if d = 0 then h.dew.q0 else h.dew.q1
  if 4096 ≤ q.length then h.count (Reg.dewStatSkipped x.part x.tag) 1
  else if d = 0 then { h with dew := { h.dew with q0 := q ++ [x] } } else { h with dew := { h.dew with q1 := q ++ [x] } }

/-- h of R170 for a stored address. -/
def dewHash (va : Nat) : Nat := (va / 32 * srConst) % 2 ^ 64 / 2 ^ 48

/-- Eligible blocks of a transcoder's tagged conversion selected and queued (R170, R171): `f` and `va` are the stored side's format and
row address. -/
def Hub.dewOffer (h : Hub) (p t d src inst : Nat) (f : FmtByte) (va j : Nat) : List (List Val × List Val) → Hub
  | [] => h
  | (xs, qs) :: l =>
    let h := if dewHash (blkAddr f va j) % 2 ^ h.get (Reg.dewTagSampleLog2 p t) = 0 then h.dewPush d ⟨p, t, xs, qs, src, inst⟩ else h
    Hub.dewOffer h p t d src inst f va (j + 1) l

/-- Everything Dewpoint does with a tagged conversion of a transcoder: `hpa` is the stored side's address. The transcoder is the
home slice's where the line is held in Firn, else the channel controller's (R18). -/
def State.dewConv (s : State) (p : Nat) (tag : Option Nat) (sf df : FmtByte) (onRead : Bool) (va hpa : Nat) (c : Conv) : State :=
  match tag with
  | none => s
  | some t =>
    if 24 ≤ p ∨ sf = df then s
    else
      let s := s.onHub (·.dewCount p tag c.cnt)
      if narrows sf df then
        let held := (tlook s.mem.lines (hpa / 128)).isSome
        let src := if held then 2 else 3
        let inst := if held then (s.hub.home hpa).1 else stackOf hpa
        s.onHub (fun h => h.dewOffer p t (hpa / 2 ^ 40) src inst (if onRead then sf else df) va 0 c.blocks)
      else s

end Sys2Proof.Machine
end

