-- ==== Sys2Proof/Machine/Cmd.lean ====
section
/-! DEFINITION. What the queue commands share (15: R356-R358; 00: R7): their header, reserved fields, and the reads that a command
makes of memory. -/

namespace Sys2Proof.Machine

/-- The service level is Whiteout (02). -/
def Hub.whiteout (h : Hub) : Bool := h.on Reg.cfgModeWhiteout

/-- CFG_MODE.LIFECYCLE: 0 Blank, 1 Test, 2 Production, 3 End of Life (02). -/
def Hub.life (h : Hub) : Nat := h.get Reg.cfgModeLifecycle

/-- Bytes of a command from `a` up to `b` are zero. -/
def qz (c : QCmd) (a b : Nat) : Bool := decide (qf c a (b - a) = 0)

/-- The header's own check (R7, R357, Table 8): FLAGS, bytes 5-15, and the PF's PARTITION as the opcode takes it. 0 passes. -/
def cmdHeader (c : QCmd) (acts : Bool) : Nat :=
  if 4 ≤ qf c 1 1 ∨ !qz c 5 0x10 then 0x02
  else if c.fn = 0 ∧ (if acts then 24 ≤ qf c 4 1 else qf c 4 1 ≠ 0xFF) then 0x02
  else 0

/-- The header's check with R337, a PF command that names a THAWING partition, and R351, a VF that belongs to none. -/
def Hub.cmdCheck (h : Hub) (c : QCmd) (acts : Bool) : Nat :=
  if cmdHeader c acts ≠ 0 then cmdHeader c acts
  else if c.fn = 0 ∧ acts ∧ h.partState (qf c 4 1) = 4 then 0x10
  else if c.fn ≠ 0 ∧ h.vfOwner c.fn = 31 then 0x0D
  else 0

/-- Who reads for a command: the PF at an HPA, or a VF's partition. -/
def Hub.cmdOrg (h : Hub) (c : QCmd) : Org := if c.fn = 0 then .pf else .part (h.vfOwner c.fn)

/-- A read that a command makes (R358): at an HPA for the PF, through the partition's primary ASID on its Drift port for a VF. None: it
is parked, and the command waits. -/
def State.cmdRead (s : State) (c : QCmd) (a n : Nat) : Option Ret × State :=
  if c.fn = 0 then
    let r := s.hubRead .pf a n false
    (some r, r.s)
  else
    let p := s.hub.vfOwner c.fn
    let x : XAcc := ⟨0, ⟨2, p, 0xFFFFFFFF⟩, p, p, a, .read, .command c⟩
    match s.span x n with
    | (none, s) => (none, s)
    | (some l, s) =>
      let r := s.readPieces (.part p) false l
      (some r, r.s)

/-- A command completes, nothing else. -/
def State.done (s : State) (c : QCmd) (st result : Nat) : State := s.onHub (·.complete c st result)

end Sys2Proof.Machine
end

