-- ==== Sys2Proof/Machine/Stream.lean ====
section
/-! DEFINITION. What Drift streams share (10): their device and host addresses (R232, R237), completion records, events and interrupts in
ring order (R235, R243), the states of R245 and R247, and doorbells (R233, R234, R294) wherever they are written from. -/

namespace Sys2Proof.Machine

/-- The die that holds a stream (R230). -/
def Hub.streamDie (h : Hub) (n : Nat) : Nat := if h.dies = 2 ∧ 16384 ≤ n then 1 else 0

/-- The partition of a stream; 31 the PF. -/
def Hub.streamPart (h : Hub) (n : Nat) : Nat := h.get (Reg.drfStreamStatusPartition n)

/-- The Drift port of a stream. -/
def Hub.streamPort (h : Hub) (n : Nat) : Nat := driftPort (h.streamDie n) (h.streamPart n)

/-- Who a stream's accesses are. -/
def Hub.streamOrg (h : Hub) (n : Nat) : Org := if h.streamPart n = 31 then .pf else .part (h.streamPart n)

/-- KEY_PARTITION of a PF stream (Table 1). -/
def Stream.key (x : Stream) : Nat := x.f 0x0D 1

/-- Some VF of a partition is in RUN (R232). -/
def Hub.anyRun (h : Hub) (p : Nat) : Bool := (h.vfsOf p).any (fun v => decide (h.get (Reg.secTdispState v) = 2))

/-- What refuses a PF stream's access to an HPA (R232, R337); 0 nothing. -/
def Hub.pfRefuse (h : Hub) (key a : Nat) : Nat :=
  if h.region a ≠ .stack ∨ 24 ≤ stackOf a then 0
  else
    let o := h.halfOwner (halfOf a)
    if key < 24 ∧ h.partState key = 4 then 0x10
    else if (if key = 0xFF then 31 else key) ≠ o then 0x04
    else if o < 24 ∧ h.anyRun o then 0x04
    else 0

/-- The first status that refuses a list of pieces of a PF stream. -/
def Hub.pfRefuseAll (h : Hub) (key : Nat) : List (Nat × Nat) → Nat
  | [] => 0
  | (a, n) :: t =>
    firstSt (h.pfRefuse key a) (firstSt (h.pfRefuse key (a + n - 1)) (h.pfRefuseAll key t))

/-- Device-side pieces of an access of a stream (R232): HPAs for the PF, translated for a partition. None: it is parked. -/
def State.devPieces (s : State) (n ix : Nat) (k : AccKind) (va len : Nat) : Option (List (Nat × Nat)) × State :=
  let p := s.hub.streamPart n
  if p = 31 then (some [(va, len)], s) else s.span ⟨s.hub.streamDie n, ⟨2, p, n⟩, p, p, va, k, .stream n ix⟩ len

/-- The check of R232 on pieces of a stream. -/
def Hub.devRefuse (h : Hub) (n : Nat) (l : List (Nat × Nat)) : Nat :=
  if h.streamPart n = 31 then h.pfRefuseAll (h.stream n).key l else 0

-- Completion records

/-- A completion record of a descriptor (Table 4). -/
def DescRec.word (r : DescRec) (phase : Nat) : Nat :=
  r.index % 2 ^ 32 + 2 ^ 32 * (r.id % 2 ^ 16) + 2 ^ 48 * (r.status % 256) + 2 ^ 56 * (phase + 2 * b2n r.retried) + 2 ^ 64 * (r.detail % 2 ^ 64)

/-- The event add, then the interrupt of a descriptor (R243). -/
def State.descAfter (s : State) (n : Nat) (r : DescRec) : State :=
  let s := match r.event with | some a => s.eventAdd a | none => s
  if r.irq then s.onHub (fun h => h.msix (h.stream n).fn ((h.stream n).f 0x18 2)) else s

/-- A record written to its slot: the status of the write (0 written), none where it is parked. -/
def State.recWrite (s : State) (n : Nat) (r : DescRec) : Option Nat × State :=
  let x := s.hub.stream n
  let lg := x.f 0x09 1
  let a := x.f 0x10 8 + 16 * (x.c % 2 ^ lg)
  let w := r.word (if (x.c / 2 ^ lg) % 2 = 0 then 1 else 0)
  if bitAt (x.f 0x0A 2) 1 then
    if s.hub.quiet x.fn then (some 0x07, s) else (some 0, s.onHub (·.send (.hostWrite x.fn a 16 w)))
  else
    match s.devPieces n r.index .write a 16 with
    | (none, s) => (none, s)
    | (some l, s) =>
      let st := s.hub.devRefuse n l
      if st ≠ 0 then (some st, s)
      else
        let q := s.writePieces (s.hub.streamOrg n) true w 0 l
        (some q.st, q.s)

/-- The completion ring has no space (R235). -/
def Stream.full (x : Stream) : Bool := decide (2 ^ x.f 0x09 1 ≤ diff32 x.c x.cplHead)

/-- The stream is at rest: nothing in flight and no record held. -/
def Stream.quiet (x : Stream) : Bool := x.inflight.isEmpty && x.held.isEmpty

/-- The state of a stream brought in line with what it still does (R245, R247). -/
def Hub.streamSettle (h : Hub) (n : Nat) : Hub :=
  let st := h.get (Reg.drfStreamStatusState n)
  let x := h.stream n
  if st = 0 ∨ st = 5 then h
  else if st = 6 then
    if x.quiet then
      ((h.setStream n { x with stop := none }).set (Reg.drfStreamStatusHead n) x.tail).sets [(Reg.drfStreamStatusState n, 1), (Reg.drfStreamCtrlAbort n, 0)]
    else h
  else match x.stop with
  | some e =>
    if x.quiet then
      ((h.setStream n { x with stop := none, paused := false }).sets [(Reg.drfStreamStatusState n, 5), (Reg.drfStreamStatusLastStatus n, e),
        (Reg.drfStreamCtrlPause n, 0)]).event Reg.drfEventStreamError
    else h
  | none =>
    if st = 3 then (if x.inflight.isEmpty then h.sets [(Reg.drfStreamStatusState n, 4), (Reg.drfStreamCtrlPause n, 0)] else h)
    else if st = 4 then h
    else
      let busy := !x.quiet || decide (h.get (Reg.drfStreamStatusHead n) ≠ x.tail)
      h.sets [(Reg.drfStreamStatusState n, if busy then 2 else 1), (Reg.drfStreamCtrlResume n, 0)]

/-- A descriptor's record that waited is dealt with: written or lost, then the event and the interrupt (R243). -/
def State.recDone (s : State) (n : Nat) (r : DescRec) (st : Nat) : State :=
  let s := s.onHub (fun h =>
    let x := h.stream n
    if st = 0 then h.setStream n { x with held := x.held.drop 1, c := wrapAdd 32 x.c 1 }
    else h.setStream n { x with held := x.held.drop 1, stop := some st })
  s.descAfter n r

/-- Held records written as far as the ring has space and the writes go through. -/
def State.flushRecs (f : Nat) (s : State) (n : Nat) : State :=
  match f with
  | 0 => s
  | f + 1 =>
    match (s.hub.stream n).held with
    | [] => s
    | r :: _ =>
      if (s.hub.stream n).full then s
      else match s.recWrite n r with
        | (none, s) => s
        | (some st, s) => State.flushRecs f (s.recDone n r st) n

/-- The records of a stream that can be written now are, and its state follows. -/
def State.streamFlush (s : State) (n : Nat) : State :=
  (State.flushRecs ((s.hub.stream n).held.length) s n).onHub (·.streamSettle n)

-- Doorbells

/-- A doorbell of a stream comes from a source that R234 honours. -/
def Hub.dbHonoured (h : Hub) (src : DbSrc) (n : Nat) : Bool :=
  match src with
  | .pf => true
  | .vf v => h.on (Reg.drfStreamStatusState n) && decide ((h.stream n).fn = v.toNat)
  | .master p => h.on (Reg.drfStreamStatusState n) && decide (h.streamPart n = p.toNat) && decide (p.toNat < 24)

/-- A doorbell whose source is ignored altogether (R337, R366). -/
def Hub.srcMute (h : Hub) (src : DbSrc) : Bool := match src with | .vf v => h.vfMute v.toNat | _ => false

/-- A rejected doorbell (R234). -/
def Hub.dbReject (h : Hub) : Hub := (h.count Reg.drfDbRejectCount 1).event Reg.drfEventDbReject

/-- A write of DRF_DB_TAIL (R233, R234). -/
def Hub.dbTail (h : Hub) (src : DbSrc) (n v : Nat) : Hub :=
  if h.srcMute src then h
  else if !h.dbHonoured src n then h.dbReject
  else if h.get (Reg.drfStreamStatusState n) = 0 then h
  else
    let x := h.stream n
    if 2 ^ x.f 0x08 1 < diff32 v (h.get (Reg.drfStreamStatusHead n)) ∨ 2 ^ 31 ≤ diff32 v x.tail then
      (h.set (Reg.drfStreamStatusDbErr n) 1).event Reg.drfEventDbErr
    else (h.setStream n { x with tail := v % 2 ^ 32 }).streamSettle n

/-- A write of DRF_DB_CPLHEAD (R234, R235): a held record may go out. -/
def State.dbCplhead (s : State) (src : DbSrc) (n v : Nat) : State :=
  if s.hub.srcMute src then s
  else if !s.hub.dbHonoured src n then s.onHub (·.dbReject)
  else if s.hub.get (Reg.drfStreamStatusState n) = 0 then s
  else (s.onHub (fun h => h.setStream n { h.stream n with cplHead := v % 2 ^ 32 })).streamFlush n

/-- A doorbell of an engine comes from a source that R294 honours. -/
def Hub.engDbHonoured (h : Hub) (src : DbSrc) (e : Nat) : Bool :=
  match src with
  | .pf => true
  | .vf v => decide (h.get (Reg.siteEngCtrlVf e) = v.toNat)
  | .master p => decide (h.engOwner e = p.toNat) && decide (p.toNat < 24)

/-- A write of SITE_ENG_DB (R294): queued behind the engine's waiting doorbells, sixteen of them; a further one replaces the newest. -/
def Hub.engDb (h : Hub) (src : DbSrc) (e v : Nat) : Hub :=
  let st := h.get (Reg.siteEngStatusState e)
  if h.srcMute src then h
  else if !h.engDbHonoured src e then h.event Reg.siteEventDbReject
  else if st ≠ 2 ∧ st ≠ 3 then h
  else
    let s := e / 8
    let mine := (h.site s).dbs.filter (fun d => decide (d.1 = e))
    let h :=
      if 16 ≤ mine.length then
        let l := (h.site s).dbs.filter (fun d => !decide (d.1 = e)) ++ mine.take 15 ++ [(e, v % 2 ^ 64)]
        (h.onSite s (fun x => { x with dbs := l })).set (Reg.siteEngStatusDbMerged e) 1
      else h.onSite s (fun x => { x with dbs := x.dbs ++ [(e, v % 2 ^ 64)] })
    (h.set (Reg.siteEngStatusDbWait e) ((h.site s).dbs.filter (fun d => decide (d.1 = e))).length).flushSite s

/-- A write of a master of partition `p` through the internal register space (R234, R294): a doorbell takes it; a status otherwise (Table
4 of 11). -/
def State.regsWrite (s : State) (p off n v : Nat) : Nat × State :=
  let src := DbSrc.master (BitVec.ofNat 5 p)
  if 0x680000 ≤ off ∧ off < 0x6C0000 ∧ ((n = 8 ∧ off % 8 = 0) ∨ (n = 4 ∧ off % 4 = 0)) then
    let k := (off - 0x680000) / 8
    if n = 8 then (0, (s.onHub (·.dbTail src k (v % 2 ^ 32))).dbCplhead src k (v / 2 ^ 32))
    else if off % 8 = 0 then (0, s.onHub (·.dbTail src k v))
    else (0, s.dbCplhead src k v)
  else if 0x802000 ≤ off ∧ off < 0x802400 ∧ n = 8 ∧ off % 8 = 0 then (0, s.onHub (·.engDb src ((off - 0x802000) / 8) v))
  else (0x04, s)

/-- Pieces written by a master of a partition, doorbells among them. -/
def State.mwrite (s : State) (o : Org) (alloc : Bool) (v bad : Nat) : List (Nat × Nat) → Ret
  | [] => ⟨0, 0, 0, s⟩
  | (a, n) :: t =>
    let r : Ret := match s.hub.region a, o with
      | .regs off, .part p => let q := s.regsWrite p off n (v % 2 ^ (8 * n)); ⟨q.1, 0, 0, q.2⟩
      | _, _ => s.hubWrite o a n (v % 2 ^ (8 * n)) bad alloc
    let q := r.s.mwrite o alloc (v / 2 ^ (8 * n)) (bad / 2 ^ ((a % 32 + n) / 32)) t
    ⟨firstSt r.st q.st, 0, 0, q.s⟩

end Sys2Proof.Machine
end

