-- ==== Sys2Proof/Machine/Move.lean ====
section
/-! DEFINITION. Rows read and written wherever their pieces lie: in the hub, or in a remote window (16: R383, R384, R387), whose answers
arrive later. -/

namespace Sys2Proof.Machine

/-- What a read of pieces gives: the bytes with poison by sector and the first status that is not OK; or it waits for answers of
peers. -/
inductive RGot where
  | ok (s : State) (st v bad : Nat)
  | wait (s : State)

/-- Who asks toward remote windows: the waiter, the partition that issues, and the die of its port. -/
structure RemCtx where
  who : RemWho
  part : Nat
  die : Nat

/-- A request of a waiter for an HPA is outstanding. -/
def Hub.isOut (h : Hub) (w : RemWho) (a : Nat) : Bool := h.allOut.any (fun r => decide (r.who = w) && decide (r.place = a))

/-- A window piece cut at 4 KiB blocks: (HPA, bytes). -/
def cut4k (f a n : Nat) : List (Nat × Nat) :=
  match f with
  | 0 => []
  | f + 1 => if n = 0 then [] else let k := min n (4096 - a % 4096); (a, k) :: cut4k f (a + k) (n - k)

/-- Import slot and offset of a window HPA (R383). -/
def winSlot (a : Nat) : Nat × Nat := ((a - 0x400000000000) / 2 ^ 36, (a - 0x400000000000) % 2 ^ 36)

/-- One window piece of at most 4 KiB read: its answer if it has come, a status that refuses it, or waiting. -/
def State.remRead1 (s : State) (x : RemCtx) (got : List (Nat × Nat × Bool)) (a n : Nat) : RGot :=
  match got.find? (fun g => decide (g.1 = a)) with
  | some g => .ok s 0 (g.2.1 % 2 ^ (8 * n)) (if g.2.2 then allBad a n else 0)
  | none =>
    if s.hub.isOut x.who a then .wait s
    else
      let w := winSlot a
      let st := s.hub.importCheck x.part w.1 w.2 n 1
      if st ≠ 0 then .ok s st 0 (allBad a n)
      else
        let r := s.hub.sendImport x.part x.die w.1 (s.hub.importReq w.1 2 0 w.2 n [] false x.who a)
        if r.2 then .wait { s with hub := r.1 } else .ok s 0x0A 0 (allBad a n)

/-- Two results in order, the second shifted past `n` bytes at `a`. -/
def RGot.join (a n : Nat) (x : RGot) (f : State → RGot) : RGot :=
  match x with
  | .wait s => match f s with
    | .wait s => .wait s
    | .ok s _ _ _ => .wait s
  | .ok s st v bad => match f s with
    | .wait s => .wait s
    | .ok s st' v' bad' => .ok s (firstSt st st') (v + 2 ^ (8 * n) * v') (bad + 2 ^ ((a % 32 + n) / 32) * bad')

/-- Window pieces read in order. -/
def State.remReadL (s : State) (x : RemCtx) (got : List (Nat × Nat × Bool)) : List (Nat × Nat) → RGot
  | [] => .ok s 0 0 0
  | (a, n) :: t => (s.remRead1 x got a n).join a n (fun s => s.remReadL x got t)

/-- Pieces read wherever they lie. -/
def State.readAny (s : State) (o : Org) (alloc : Bool) (x : RemCtx) (got : List (Nat × Nat × Bool)) : List (Nat × Nat) → RGot
  | [] => .ok s 0 0 0
  | (a, n) :: t =>
    let r : RGot := match s.hub.region a with
      | .window _ _ => s.remReadL x got (cut4k (n / 4096 + 2) a n)
      | _ => let r := s.hubRead o a n alloc; .ok r.s r.st r.v r.bad
    r.join a n (fun s => s.readAny o alloc x got t)

/-- Runs of equal poison over 32-byte units of a window piece: (HPA, bytes, poisoned); `i` is the sector of the mask. -/
def poisonRuns (f a n bad i : Nat) : List (Nat × Nat × Bool) :=
  match f with
  | 0 => []
  | f + 1 =>
    if n = 0 then []
    else
      let k := min n (32 - a % 32)
      let b := bitAt bad i
      match poisonRuns f (a + k) (n - k) bad (i + 1) with
      | (a', n', b') :: t => if b = b' then (a, n' + k, b) :: t else (a, k, b) :: (a', n', b') :: t
      | [] => [(a, k, b)]

/-- Runs of a window piece sent as WRITE requests (R387): the first status that refuses one, and the machine. -/
def State.remWriteL (s : State) (x : RemCtx) (a0 v : Nat) : List (Nat × Nat × Bool) → Nat × State
  | [] => (0, s)
  | (a, n, bad) :: t =>
    let w := winSlot a
    let st := s.hub.importCheck x.part w.1 w.2 n 2
    let r : Nat × State :=
      if st ≠ 0 then (st, s)
      else
        let q := s.hub.sendImport x.part x.die w.1
          (s.hub.importReq w.1 1 0 w.2 0 (leBytes n (bits v (8 * (a - a0)) (8 * n))) bad x.who a)
        (if q.2 then 0 else 0x0A, { s with hub := q.1 })
    let q := r.2.remWriteL x a0 v t
    (firstSt r.1 q.1, q.2)

/-- Words written to event counters by an engine or by Drift, which only add (R100, R350): each whole word is added to its counter. -/
def Memory.addWords (f : Nat) (m : Memory) (a n v : Nat) : Memory :=
  match f with
  | 0 => m
  | f + 1 =>
    if n < 4 ∨ a % 4 ≠ 0 then m
    else ((m.wr a 4 (wrapAdd 32 (m.rd a 4) (v % 2 ^ 32)))).addWords f (a + 4) (n - 4) (v / 2 ^ 32)

/-- The waiter is an engine's or a stream's: it adds to event counters and does not set them (R100). -/
def RemWho.adds : RemWho → Bool
  | .engine _ _ => true
  | .row _ _ => true
  | .host _ => true
  | _ => false

/-- Pieces written wherever they lie: the first status that is not OK, and the machine. -/
def State.writeAny (s : State) (o : Org) (alloc : Bool) (x : RemCtx) (v bad : Nat) : List (Nat × Nat) → Nat × State
  | [] => (0, s)
  | (a, n) :: t =>
    let r : Nat × State := match s.hub.region a with
      | .window _ _ =>
        let runs := (cut4k (n / 4096 + 2) a n).flatMap (fun c => poisonRuns 130 c.1 c.2 bad (c.1 / 32 - a / 32))
        s.remWriteL x a v runs
      | .event _ _ =>
        if x.who.adds then (0, { s with mem := s.mem.addWords (n / 4) a n v })
        else let r := s.mwrite o alloc v bad [(a, n)]; (r.st, r.s)
      | _ => let r := s.mwrite o alloc v bad [(a, n)]; (r.st, r.s)
    let q := r.2.writeAny o alloc x (v / 2 ^ (8 * n)) (bad / 2 ^ ((a % 32 + n) / 32)) t
    (firstSt r.1 q.1, q.2)

/-- Some request of a waiter is outstanding. -/
def Hub.anyOut (h : Hub) (w : RemWho) : Bool := h.allOut.any (fun r => decide (r.who = w))

end Sys2Proof.Machine
end

