-- ==== Sys2Proof/Machine/Col.lean ====
section
/-! DEFINITION. The collective engine (17: R396-R408): the ring's steps, combining and retiring chunks, slots and credits, Squall
notices, and what arriving collective packets do. -/

namespace Sys2Proof.Machine

-- A post's geometry (Table 4, R397, R399)

/-- Formats of a post. -/
def colSrcF (c : QCmd) : FmtByte := .ofNat (qf c 0x14 1)
/-- WIRE_FMT. -/
def colWireF (c : QCmd) : FmtByte := .ofNat (qf c 0x15 1)
/-- DST_FMT. -/
def colDstF (c : QCmd) : FmtByte := .ofNat (qf c 0x16 1)
/-- OP. -/
def colOp (c : QCmd) : Nat := qf c 0x11 1
/-- The tag, if TAG_VALID. -/
def colTag (c : QCmd) : Option Nat := if qf c 0x36 1 % 2 = 1 then some (qf c 0x17 1) else none
/-- Elements of a segment. -/
def segElems (n : Nat) (c : QCmd) : Nat := qf c 0x28 4 / n
/-- Elements of a whole chunk. -/
def chunkElems (c : QCmd) : Nat := 1024 * qf c 0x37 1
/-- Chunks of a segment; a barrier has one, without data. -/
def colChunks (n : Nat) (c : QCmd) : Nat :=
  if colOp c = 4 then 1 else (segElems n c + chunkElems c - 1) / chunkElems c
/-- Elements of chunk `k` of a segment: the last may be shorter. -/
def colElems (n : Nat) (c : QCmd) (k : Nat) : Nat := if colOp c = 4 then 0 else min (chunkElems c) (segElems n c - k * chunkElems c)
/-- Bytes of chunk `k` in a format. -/
def colBytes (n : Nat) (c : QCmd) (f : FmtByte) (k : Nat) : Nat := colElems n c k / 1024 * groupSize f
/-- Byte offset of a chunk in the full buffer laid out in a format (R397, R400). -/
def colOff (n : Nat) (c : QCmd) (f : FmtByte) (seg k : Nat) : Nat := (seg * segElems n c + k * chunkElems c) / 1024 * groupSize f
/-- Bytes of a slot (R397). -/
def slotBytes (c : QCmd) : Nat := qf c 0x37 1 * groupSize (colWireF c)

/-- Steps of a post at a member (R399). -/
def colSteps (n : Nat) (c : QCmd) : Nat :=
  match colOp c with
  | 1 => n - 1
  | 2 => n - 1
  | 3 => n
  | _ => 2 * (n - 1)

/-- Place of a rank on the ring after the root of a BROADCAST. -/
def rootPos (n rank : Nat) (c : QCmd) : Nat := (rank + n - qf c 0x34 2) % n

/-- Where chunks of a step that this member does not forward come from. -/
inductive ColSrc where
  | src (seg : Nat)
  | dst (seg : Nat)
  | token
  deriving DecidableEq, Repr

/-- What a member stages itself in step `s` (R399). -/
def stagedStep (n rank : Nat) (c : QCmd) (s : Nat) : Option ColSrc :=
  match colOp c with
  | 0 => if s = 1 then some (.src ((rank + n - 1) % n)) else if s = n then some (.dst rank) else none
  | 1 => if s = 1 then some (.src ((rank + n - 1) % n)) else none
  | 2 => if s = 1 then some (.src rank) else none
  | 3 => if rank = qf c 0x34 2 ∧ 1 ≤ s ∧ s ≤ n then some (.src (s - 1)) else none
  | _ => if s = 1 then some .token else none

/-- The segment received in step `s`; none: nothing is. -/
def recvSeg (n rank : Nat) (c : QCmd) (s : Nat) : Option Nat :=
  match colOp c with
  | 0 => some ((rank + 2 * n - 1 - s) % n)
  | 1 => some ((rank + 2 * n - 1 - s) % n)
  | 2 => some ((rank + n - s) % n)
  | 3 => if rank = qf c 0x34 2 then none else some (s - 1)
  | _ => some 0

/-- A chunk received in step `s` is combined. -/
def reduceStep (n : Nat) (c : QCmd) (s : Nat) : Bool := decide (colOp c ≤ 1) && decide (s < n)

/-- The step in which a chunk received in step `s` is forwarded; none: it ends here. -/
def forwardStep (n rank : Nat) (c : QCmd) (s : Nat) : Option Nat :=
  match colOp c with
  | 0 => if s + 1 = n ∨ 2 * (n - 1) ≤ s then none else some (s + 1)
  | 1 => if n ≤ s + 1 then none else some (s + 1)
  | 2 => if n ≤ s + 1 then none else some (s + 1)
  | 3 => if rootPos n rank c + 1 = n then none else some s
  | _ => if 2 * (n - 1) ≤ s then none else some (s + 1)

/-- Steps in which a member sends, and in which it receives. -/
def sendSteps (n rank : Nat) (c : QCmd) : Nat := if colOp c = 3 ∧ rootPos n rank c + 1 = n then 0 else colSteps n c
/-- Steps in which a member receives. -/
def recvSteps (n rank : Nat) (c : QCmd) : Nat := if colOp c = 3 ∧ rank = qf c 0x34 2 then 0 else colSteps n c

/-- The downstream neighbour (R396). -/
def ColGroup.down (c : ColGroup) : Nat := (c.rank + 1) % c.members
/-- The upstream neighbour. -/
def ColGroup.up (c : ColGroup) : Nat := (c.rank + c.members - 1) % c.members

-- Combination (R400)

/-- Blocks of 32 exact values of a buffer of `n` elements, with their BAD counts. -/
def fmtBlocks (f : FmtByte) (x n : Nat) : List (List Val × Nat) :=
  (List.range (n / 32)).map (fun j =>
    let q := blkGet f x j 32
    (blkVals f q, b2n (q.malformed || q.codes.any (invalidElt f.code))))

/-- Two values combined: 0 SUM in binary32, 1 MAX, 2 MIN. -/
def redVal (red : Nat) (a b : Val) : Val :=
  if red = 0 then decodeElt 0 (encodeElt 0 (a.add b false).1 .rne 0).1
  else if a = .nan ∨ b = .nan then .nan
  else match a.cmp b with
    | .lt => if red = 1 then b else a
    | .gt => if red = 1 then a else b
    | .eq => if Config.colZeroFirst then a else b

/-- Blocks combined element by element. -/
def redBlocks (red : Nat) (x y : List (List Val × Nat)) : List (List Val × Nat) :=
  (x.zip y).map (fun p => ((p.1.1.zip p.2.1).map (fun q => redVal red q.1 q.2), max p.1.2 p.2.2))

/-- Blocks encoded from block `j` on, at byte offset `va` of the buffer (R400). -/
def encBlocks (df : FmtByte) (va : Nat) (mode : Rnd) : List (List Val × Nat) → Nat → Conv
  | [], _ => ⟨0, .zero, []⟩
  | (xs, bad) :: t, j =>
    let a := encBlock df xs j (blkAddr df va j) bad mode
    let b := encBlocks df va mode t (j + 1)
    ⟨a.out + b.out, a.cnt.add b.cnt, a.blocks ++ b.blocks⟩

/-- An unchanged copy, or a conversion of a chunk (R400). -/
def colConvert (sf df : FmtByte) (x n va : Nat) (mode : Rnd) : Conv :=
  if sf = df then ⟨x, .zero, []⟩ else encBlocks df va mode (fmtBlocks sf x n) 0

/-- The slice of a group's slots. -/
def Hub.colSlice (h : Hub) (c : ColGroup) : Nat := match h.region c.chunkHpa with | .scratch sl _ => sl | _ => 0

/-- An encoding narrower than its source is counted and sampled under the post's tag (R401). -/
def Hub.colDew (h : Hub) (c : ColGroup) (cmd : QCmd) (narrow : Bool) (df : FmtByte) (va : Nat) (v : Conv) : Hub :=
  match colTag cmd with
  | none => h
  | some t =>
    if narrow then (h.dewCount c.part (some t) v.cnt).dewOffer c.part t (c.quad / 12) 2 (h.colSlice c) df va 0 v.blocks else h

-- The group's own state

/-- The running collective changed. -/
def Hub.onRun (h : Hub) (g : Nat) (f : ColRun → ColRun) : Hub :=
  match h.group g with
  | none => h
  | some c => h.setGroup g { c with run := c.run.map f }

/-- A group changed. -/
def Hub.onGroup (h : Hub) (g : Nat) (f : ColGroup → ColGroup) : Hub :=
  match h.group g with
  | none => h
  | some c => h.setGroup g (f c)

/-- One access of the group is parked, joined to a walk, or held at its port. -/
def Hub.colStuck (h : Hub) (g : Nat) : Bool :=
  h.xlt.parked.any (fun a => colWaiter g a.who) || h.xlt.held.any (fun a => colWaiter g a.who)
    || h.xlt.walks.any (fun w => colWaiter g w.who || w.joined.any (fun j => colWaiter g j.2.2.2))
    || h.qos.any (fun p => p.2.held.any (fun x => match x with | .col g' _ => decide (g' = g) | _ => false))

/-- The regulator of the group's quad admits `n` bytes (R322), once for each piece of work. -/
def State.colAdmit (s : State) (g : Nat) (c : ColGroup) (n : Nat) : Option State × State :=
  if c.paid ∨ n = 0 then (some s, s)
  else
    let a := s.hub.admitReq (quadPort c.quad) n (.col g n)
    let s' : State := { s with hub := a.2.onGroup g (fun c => { c with paid := true }) }
    if a.1 then (some s', s') else (none, { s with hub := a.2 })

/-- A notice to every other member (R405): at most once a step, recorded once a collective. -/
def Hub.colNotice (h : Hub) (g : Nat) : Hub :=
  match h.group g with
  | none => h
  | some c =>
    match c.run with
    | none => h
    | some r =>
      if r.squalled ∨ colSteps c.members r.cmd < r.step then h
      else
        let ext := min (4 * qf r.cmd 0x2C 4) 50000
        let ranks := (List.range c.members).filter (fun k => decide (k ≠ c.rank))
        let h := ranks.foldl (fun h k => h.colSend g c k 0xE (r.step % 256) r.seq 0 ext 0 [] false) h
        let h := h.onRun g (fun r => { r with squalled := true, rec902 := true })
        let h := if r.rec902 then h else h.record { code := 0x0902, cls := 0, part := c.part, inst := g, d0 := r.seq }
        h.colEvent c.part Reg.colEventSquallSent

/-- A touched stack is at thermal level 2. -/
def Hub.colHot (h : Hub) (r : ColRun) : Bool := r.touched.any (fun n => decide (h.get (Reg.hbmStackInfoLevel n) = 2))

/-- Steps whose chunks have all arrived are passed (R404); a step that starts on a hot stack sends its notice (R405). -/
def Hub.colAdvance (f : Nat) (h : Hub) (g : Nat) : Hub :=
  match f with
  | 0 => h
  | f + 1 =>
    match h.group g with
    | none => h
    | some c =>
      match c.run with
      | none => h
      | some r =>
        let need := if (recvSeg c.members c.rank r.cmd r.step).isSome then colChunks c.members r.cmd else 0
        if r.step ≤ colSteps c.members r.cmd ∧ need ≤ tget 0 r.got r.step then
          let h := h.onRun g (fun r => { r with step := r.step + 1, extStep := false, squalled := false })
          Hub.colAdvance f (if h.colHot r then h.colNotice g else h) g
        else h

/-- Pieces of an access of a group touch their stacks (R405); a touch of a hot stack asks for no notice of its own. -/
def Hub.colTouch (h : Hub) (g : Nat) (l : List (Nat × Nat)) : Hub :=
  let n := (l.filter (fun p => h.region p.1 == .stack)).map (fun p => stackOf p.1)
  h.onRun g (fun r => { r with touched := n.foldl kadd r.touched })

/-- An access of the collective engine for a partition (R396): its quad's port, the primary ASID. -/
def ColGroup.acc (c : ColGroup) (g va : Nat) (k : AccKind) : XAcc := ⟨c.quad / 12, ⟨4, c.quad, 0⟩, c.part, c.part, va, k, .collective g⟩

/-- Its requests toward remote windows. -/
def ColGroup.ctx (c : ColGroup) (g seq : Nat) : RemCtx := ⟨.stage g seq, c.part, c.quad / 12⟩

/-- A chunk read from memory: its bytes and poison. None: it waits, or the collective has ended. -/
def State.colRead (s : State) (g : Nat) (c : ColGroup) (seq va n : Nat) : Option (Nat × Nat) × State :=
  match s.span (c.acc g va .read) n with
  | (none, s) => (none, s)
  | (some l, s) =>
    match (s.onHub (·.colTouch g l)).readAny (.part c.part) false (c.ctx g seq) c.got l with
    | .wait s => (none, s)
    | .ok s st v bad =>
      if st ≠ 0 then (none, s.onHub (·.colAbort g st))
      else (some (v, bad), s.onHub (·.qosCount (quadPort c.quad) (match l with | (a, _) :: _ => a | [] => 0) n false))

/-- A chunk written to memory. -/
def State.colWrite (s : State) (g : Nat) (c : ColGroup) (seq : Nat) (l : List (Nat × Nat)) (n v bad : Nat) : State :=
  let s := s.onHub (fun h => (h.colTouch g l).qosCount (quadPort c.quad) (match l with | (a, _) :: _ => a | [] => 0) n true)
  let q := s.writeAny (.part c.part) false (c.ctx g seq) v bad l
  if q.1 ≠ 0 then q.2.onHub (·.colAbort g q.1) else q.2

/-- Address of a slot. -/
def ColGroup.slotAt (c : ColGroup) (cmd : QCmd) (k : ColChunk) : Nat := c.chunkHpa + k.slot * slotBytes cmd

/-- The same chunk. -/
def ColChunk.is (k x : ColChunk) : Bool := decide (k.seq = x.seq) && decide (k.step = x.step) && decide (k.chunk = x.chunk)

/-- A chunk's slot is free again and its credit goes back upstream (R403). -/
def Hub.colFree (h : Hub) (g : Nat) (k : ColChunk) : Hub :=
  let h := h.onGroup g (fun c => { c with chunks := c.chunks.filter (fun x => !x.is k) })
  match h.group g with
  | none => h
  | some c => h.colSend g c c.up 0xD (k.step % 256) k.seq k.chunk 1 0 [] false

/-- A chunk has been dealt with: it counts as arrived, and waits to be forwarded or is done. -/
def Hub.colDealt (h : Hub) (g : Nat) (c : ColGroup) (cmd : QCmd) (k : ColChunk) : Hub :=
  let h := h.onGroup g (fun c => { c with
    paid := false, got := [],
    run := c.run.map (fun r => { r with got := tset 0 r.got k.step (tget 0 r.got k.step + 1) })
    chunks := c.chunks.map (fun x => if x.is k then { x with ready := true } else x) })
  if (forwardStep c.members c.rank cmd k.step).isSome then h else h.colFree g k

/-- A received chunk combined with the member's own (R400): a partial goes back to its slot, a final one to the destination. -/
def State.colReduce (s : State) (g : Nat) (c : ColGroup) (r : ColRun) (k : ColChunk) (seg y : Nat) : State :=
  let n := c.members
  let last := k.step + 1 = n
  let df := if last then colDstF r.cmd else colWireF r.cmd
  let m := colElems n r.cmd k.chunk
  match (if last then s.span (c.acc g (qf r.cmd 0x20 8 + colOff n r.cmd df seg k.chunk) .write) (colBytes n r.cmd df k.chunk)
         else (some [(c.slotAt r.cmd k, colBytes n r.cmd df k.chunk)], s)) with
  | (none, s) => s
  | (some l, s) =>
    match s.colRead g c r.seq (qf r.cmd 0x18 8 + colOff n r.cmd (colSrcF r.cmd) seg k.chunk) (colBytes n r.cmd (colSrcF r.cmd) k.chunk) with
    | (none, s) => s
    | (some (x, bad), s) =>
      let narrow := (if qf r.cmd 0x12 1 = 0 then narrows (.ofNat 0) df else narrows (colSrcF r.cmd) df || narrows (colWireF r.cmd) df)
      if bad ≠ 0 then s.onHub (·.colAbort g 0x08)
      else if narrow ∧ s.hub.halted c.part (colTag r.cmd) then s.onHub (·.colAbort g 0x0F)
      else
        let va := colOff n r.cmd df seg k.chunk
        let v := encBlocks df va (.ofCode (qf r.cmd 0x13 1 % 8)) (redBlocks (qf r.cmd 0x12 1) (fmtBlocks (colWireF r.cmd) y m) (fmtBlocks (colSrcF r.cmd) x m)) 0
        let s := s.onHub (·.colDew c r.cmd narrow df va v)
        let s := if last then s.colWrite g c r.seq l (colBytes n r.cmd df k.chunk) v.out 0
          else (s.hubWrite (.part c.part) (c.slotAt r.cmd k) (colBytes n r.cmd df k.chunk) v.out 0 false).s
        s.onHub (fun h => match h.group g with | some c' => if c'.run.isSome then h.colDealt g c r.cmd k else h | none => h)

/-- A received final chunk converted and retired (R400). -/
def State.colRetire (s : State) (g : Nat) (c : ColGroup) (r : ColRun) (k : ColChunk) (seg y bad : Nat) : State :=
  let n := c.members
  let wf := colWireF r.cmd
  let df := colDstF r.cmd
  let m := colElems n r.cmd k.chunk
  let va := colOff n r.cmd df seg k.chunk
  let b := colBytes n r.cmd df k.chunk
  match s.span (c.acc g (qf r.cmd 0x20 8 + va) .write) b with
  | (none, s) => s
  | (some l, s) =>
    let narrow := narrows wf df
    if narrow ∧ s.hub.halted c.part (colTag r.cmd) then s.onHub (·.colAbort g 0x0F)
    else
      let v := colConvert wf df y m va (.ofCode (qf r.cmd 0x13 1 % 8))
      let bad' := if wf = df then shiftBad 0 (qf r.cmd 0x20 8 + va) b bad else convBad wf df m 0 (qf r.cmd 0x20 8 + va) bad
      let s := (s.onHub (·.colDew c r.cmd narrow df va v)).colWrite g c r.seq l b v.out bad'
      s.onHub (fun h => match h.group g with | some c' => if c'.run.isSome then h.colDealt g c r.cmd k else h | none => h)

/-- One complete chunk of the running collective dealt with, as far as its accesses go. -/
def State.colDeal (s : State) (g : Nat) (c : ColGroup) (r : ColRun) (k : ColChunk) : State :=
  let n := c.members
  match recvSeg n c.rank r.cmd k.step with
  | none => s.onHub (·.colFree g k)
  | some seg =>
    if colOp r.cmd = 4 then s.onHub (·.colDealt g c r.cmd k)
    else
      let red := reduceStep n r.cmd k.step
      let bytes := (if red then colBytes n r.cmd (colSrcF r.cmd) k.chunk else 0)
        + (if !red || decide (k.step + 1 = n) then colBytes n r.cmd (colDstF r.cmd) k.chunk else 0)
      match s.colAdmit g c bytes with
      | (none, s) => s
      | (some s, _) =>
        let q := s.hubRead (.part c.part) (c.slotAt r.cmd k) (colBytes n r.cmd (colWireF r.cmd) k.chunk) false
        if red then
          if q.bad ≠ 0 ∨ q.st ≠ 0 then q.s.onHub (·.colAbort g 0x08) else q.s.colReduce g c r k seg q.v
        else q.s.colRetire g c r k seg q.v (if q.st ≠ 0 then allBad 0 (colBytes n r.cmd (colWireF r.cmd) k.chunk) else q.bad)

/-- Every byte of a chunk has arrived. -/
def ColChunk.full (k : ColChunk) (n : Nat) (cmd : QCmd) : Bool :=
  !k.parts.isEmpty && decide (colBytes n cmd (colWireF cmd) k.chunk ≤ (k.parts.map (·.2)).sum)

/-- Complete chunks of the running collective combined and retired, in the order of their steps' arrival, until one waits. -/
def State.colWorkGo (f : Nat) (s : State) (g : Nat) : State :=
  match f with
  | 0 => s
  | f + 1 =>
    match s.hub.group g with
    | none => s
    | some c =>
      match c.run with
      | none => s
      | some r =>
        if s.hub.colStuck g then s
        else match c.chunks.find? (fun k => decide (k.seq = r.seq) && !k.ready && k.early.isEmpty && k.full c.members r.cmd) with
          | none => s
          | some k =>
            let s' := s.colDeal g c r k
            match s'.hub.group g with
            | none => s'
            | some c' => if c'.chunks.contains k then s' else State.colWorkGo f s' g

/-- The collective engine goes on with what has arrived. -/
def State.colWork (s : State) (g : Nat) : State :=
  let s := State.colWorkGo (match s.hub.group g with | some c => c.chunks.length + 1 | none => 0) s g
  s.onHub (fun h => match h.group g with
    | some c => (match c.run with | some r => Hub.colAdvance (colSteps c.members r.cmd + 1) h g | none => h)
    | none => h)

-- Arriving collective packets (R402, R403, R406, R408)

/-- The lowest free slot of a group below `n`. -/
def ColGroup.freeSlot (c : ColGroup) (n : Nat) : Option Nat := findLow n (fun k => !c.chunks.any (fun x => decide (x.slot = k)))

/-- A chunk's entry, made if there is none and a slot is free. -/
def ColGroup.entry (c : ColGroup) (n seq step chunk : Nat) : Option (ColChunk × ColGroup) :=
  match c.chunks.find? (fun k => decide (k.seq = seq) && decide (k.step = step) && decide (k.chunk = chunk)) with
  | some k => some (k, c)
  | none =>
    match c.freeSlot n with
    | none => none
    | some slot =>
      let k : ColChunk := ⟨seq, step, chunk, slot, [], [], false⟩
      some (k, { c with chunks := c.chunks ++ [k] })

/-- Part of a chunk written to its slot: a part that does not fit the chunk or has arrived before is dropped. -/
def State.colLand (s : State) (g : Nat) (c : ColGroup) (cmd : QCmd) (k : ColChunk) (part : Nat) (data : List Byte) (poison : Bool) : State :=
  let n := data.length
  if colBytes c.members cmd (colWireF cmd) k.chunk < part + n ∨ k.parts.any (fun x => decide (x.1 = part)) then s
  else
    let a := c.slotAt cmd k + part
    let s := (s.hubWrite (.part c.part) a n (leNat data) (if poison then allBad a n else 0) false).s
    s.onHub (fun h => h.onGroup g (fun c => { c with
      chunks := c.chunks.map (fun x => if x.is k then { x with parts := x.parts ++ [(part, n)] } else x) }))

/-- A COL_DATA of the running post lands in its slot. -/
def State.colTake (s : State) (g : Nat) (c : ColGroup) (r : ColRun) (x : ColExt) (data : List Byte) (poison : Bool) : State :=
  let step := r.step + (x.step.toNat + 256 - r.step % 256) % 256
  match c.entry (s.hub.get (Reg.colGroupStatusSlots g)) r.seq step x.chunk.toNat with
  | none => s
  | some (k, c') => ((s.onHub (·.setGroup g c')).colLand g c' r.cmd k x.part.toNat data poison).colWork g

/-- A COL_DATA of a later post is held (R403). -/
def Hub.colHold (h : Hub) (g : Nat) (c : ColGroup) (x : ColExt) (data : List Byte) (poison : Bool) : Hub :=
  let step := if x.step = 0 then 256 else x.step.toNat
  match c.entry 65536 x.seq.toNat step x.chunk.toNat with
  | none => h
  | some (k, c') =>
    h.setGroup g { c' with chunks := c'.chunks.map (fun y => if y.is k then { y with early := y.early ++ [(x.part.toNat, data, poison)] } else y) }

/-- SEQ `a` lies above `b`. -/
def seqAbove (a b : Nat) : Bool := decide (diff32 a b ≠ 0) && decide (diff32 a b < 2 ^ 31)

/-- A COL_DATA applied (R403): a NAK code, or 0 with the machine after it. -/
def State.colDataIn (s : State) (l : Nat) (x : ColExt) (data : List Byte) (poison : Bool) : Nat × State :=
  let p := s.hub.linkOwner l
  let g := x.dstGroup.toNat
  let miss (s : State) : Nat × State :=
    (0x45, s.onHub (fun h => (h.record { code := 0x0903, cls := 0, part := p, inst := g, d0 := x.seq.toNat }).colEvent p Reg.colEventMismatch))
  match s.hub.group g with
  | none => miss s
  | some c =>
    if c.part ≠ p ∨ c.gkey % 2 ^ 32 ≠ x.gkey.toNat then miss s
    else
      let last := s.hub.get (Reg.colGroupStatusSeq g)
      let old (s : State) : Nat × State :=
        (0, if x.part = 0 then s.onHub (fun h => h.colSend g c c.up 0xD x.step.toNat x.seq.toNat x.chunk.toNat 1 0 [] false) else s)
      match c.run with
      | some r =>
        if x.seq.toNat = r.seq then (0, s.colTake g c r x data poison)
        else if seqAbove x.seq.toNat r.seq then (0, s.onHub (·.colHold g c x data poison))
        else old s
      | none => if seqAbove x.seq.toNat last then (0, s.onHub (·.colHold g c x data poison)) else old s

/-- The group a packet other than COL_DATA is for, if its keys fit and its SEQ runs. -/
def Hub.colRunning (h : Hub) (l : Nat) (x : ColExt) : Option (ColGroup × ColRun) :=
  match h.group x.dstGroup.toNat with
  | none => none
  | some c =>
    if c.part ≠ h.linkOwner l ∨ c.gkey % 2 ^ 32 ≠ x.gkey.toNat then none
    else match c.run with
      | none => none
      | some r => if r.seq = x.seq.toNat then some (c, r) else none

/-- A COL_CREDIT applied (R403): slots of the running post come back. -/
def Hub.colCreditIn (h : Hub) (l : Nat) (x : ColExt) : Hub :=
  match h.colRunning l x with
  | none => h
  | some _ =>
    let g := x.dstGroup.toNat
    let n := h.get (Reg.colGroupStatusSlots g)
    h.onGroup g (fun c => { c with credits := min n (c.credits + x.arg.toNat) })

/-- A COL_SQUALL applied (R406). -/
def Hub.colSquallIn (h : Hub) (l : Nat) (x : ColExt) : Hub :=
  let g := x.dstGroup.toNat
  match h.group g with
  | none => h
  | some c =>
    if c.part ≠ h.linkOwner l ∨ c.gkey % 2 ^ 32 ≠ x.gkey.toNat then h
    else
      let h := h.count (Reg.colGroupStatusSquallsRx g) 1
      match h.colRunning l x with
      | none => h
      | some (c, r) =>
        if r.extStep ∨ 50000 ≤ r.extUsed ∨ colSteps c.members r.cmd < r.step then h
        else
          let u := min 50000 (r.extUsed + x.arg.toNat)
          let h := h.onRun g (fun r => { r with extUsed := u, extStep := true })
          (h.set (Reg.colGroupStatusExtUsedUs g) u).colEvent c.part Reg.colEventSquallRx

/-- A COL_ABORT applied (R408): status and origin are adopted, and the abort is forwarded to both neighbours. -/
def Hub.colAbortIn (h : Hub) (l : Nat) (x : ColExt) : Hub :=
  match h.colRunning l x with
  | none => h
  | some (c, _) =>
    h.colStop x.dstGroup.toNat (bits x.arg.toNat 0 8) (bits x.arg.toNat 8 12) (if c.up = c.down then [c.up] else [c.up, c.down])

end Sys2Proof.Machine
end

