-- ==== Sys2Proof/Machine/Isotherm.lean ====
section
/-! DEFINITION. Commands of Isotherm (18) and the stack temperature reading (08: R198). -/

namespace Sys2Proof.Machine

/-- The level of a reading against rising thresholds, each left 3 °C below (R198, R419): `old` is the level held. -/
def levelOf (ths : List Nat) (old t : Nat) : Nat :=
  ((ths.zipIdx).filter (fun x => decide (x.1 ≤ t) || (decide (x.2 < old) && decide (x.1 < t + 3)))).foldl (fun m x => max m (x.2 + 1)) 0

/-- Groups whose running collective touches a stack (R405). -/
def Hub.touching (h : Hub) (n : Nat) : List Nat :=
  (h.cols.filter (fun c => match c.2.run with | some r => r.touched.contains n | none => false)).map (·.1)

/-- A stack's thermal level applied (R198): entry into level 2 or 3 is an event and a record; collectives that touch the stack send notices
at level 2 (R405) and end at level 3 (R407). -/
def Hub.stackLevel (h : Hub) (n lv : Nat) : Hub :=
  let old := h.get (Reg.hbmStackInfoLevel n)
  let h := h.set (Reg.hbmStackInfoLevel n) lv
  if old < lv ∧ 2 ≤ lv then
    let h := (h.record { code := 0x0307, cls := 0, inst := n, die := n / 12, d0 := n }).event Reg.hbmEventThermal
    let g := h.touching n
    if lv = 3 then overList (fun g h => h.colAbort g 0x09) g h else overList (fun g h => h.colNotice g) g h
  else h

/-- A stack's critical brake (R419): from 110 °C until 3 °C below. -/
def Hub.stackCritical (h : Hub) (n t : Nat) : Hub :=
  let was := kmem h.iso.stackCrit n
  let old := h.brakes
  if !was && decide (110 ≤ t) then
    let h : Hub := { h with iso := { h.iso with stackCrit := kadd h.iso.stackCrit n } }
    ((h.event Reg.isoEventCritical).powerRec 0x0B04 (16 + n) t 0).rebrake old
  else if was && decide (t + 3 ≤ 110) then ({ h with iso := { h.iso with stackCrit := kdel h.iso.stackCrit n } }).rebrake old
  else h

/-- STACK_TEMP_READ (R198, R419, R420, R428). -/
def execStackTempRead (stack : BitVec 5) (temp : BitVec 8) (s : State) : Host.Outcome State Fault Refusal :=
  hubWatch (fun h =>
    let n := stack.toNat
    let t := temp.toNat
    if h.boot.stopped ∨ !h.presentStacks.contains n then h
    else
      let h := h.set (Reg.hbmStackInfoTemp n) t
      let h := if h.isoRuns then ((h.stackLevel n (levelOf [85, 95, 105] (h.get (Reg.hbmStackInfoLevel n)) t)).stackCritical n t).pumps else h
      if 115 ≤ t then h.trip true (n / 12) (n % 12) t else h) s

/-- ALLOT_PASS (R415, R416, R418). -/
def execAllotPass (x : PowerIn) (s : State) : Host.Outcome State Fault Refusal := hubWatch (fun h => if h.isoRuns then h.isoPass x else h) s

/-- POWER_BRAKE_ASSERT (R414, R492). -/
def execPowerBrakeAssert (s : State) : Host.Outcome State Fault Refusal :=
  hubWatch (fun h =>
    if h.boot.step < 7 then { h with iso := { h.iso with brakeEarly := true } }
    else if !h.isoRuns || h.iso.brakePin then h
    else ({ h with iso := { h.iso with brakePin := true } }).rebrake h.brakes) s

/-- POWER_BRAKE_RELEASE (R418): a power class that a commit changed meanwhile takes effect (R50). -/
def execPowerBrakeRelease (s : State) : Host.Outcome State Fault Refusal :=
  hubWatch (fun h =>
    let old := h.brakes
    let h : Hub := { h with iso := { h.iso with brakePin := false, brakeEarly := false, classHeld := none } }
    if h.isoRuns then h.rebrake old else h) s

/-- ISO_BRAKE_SW.REQ written (R414). -/
def Hub.softBrake (h : Hub) (req : Bool) : Hub :=
  let old := h.brakes
  let h := h.set Reg.isoBrakeSwReq (b2n req)
  if h.isoRuns then h.rebrake old else h

/-- SOFTWARE_BRAKE (R414). -/
def execSoftwareBrake (req : Bool) (s0 : State) : Host.Outcome State Fault Refusal :=
  let s := s0.wroteBy 0
  hubWatch (·.softBrake req) s

/-- The hottest of a list of readings with its lowest place. -/
def hottestOf (l : List (BitVec 8)) : Nat × Nat :=
  (l.zipIdx).foldl (fun m x => if m.1 < x.1.toNat then (x.1.toNat, x.2) else m) (0, 0)

/-- A die's throttle and critical brake (R419). -/
def Hub.dieLevels (h : Hub) (d t : Nat) : Hub :=
  let th := h.get Reg.isoThermCfgThrottleC
  let cr := h.get Reg.isoThermCfgCritC
  let h :=
    if kmem h.iso.throttled d then (if t + 3 ≤ th then { h with iso := { h.iso with throttled := kdel h.iso.throttled d } } else h)
    else if th ≤ t then ({ h with iso := { h.iso with throttled := kadd h.iso.throttled d } }).event Reg.isoEventThrottle
    else h
  let was := kmem h.iso.dieCrit d
  let old := h.brakes
  if !was && decide (cr ≤ t) then
    let h : Hub := { h with iso := { h.iso with dieCrit := kadd h.iso.dieCrit d } }
    ((h.event Reg.isoEventCritical).powerRec 0x0B04 d t (h.get (Reg.isoDieHottest d))).rebrake old
  else if was && decide (t + 3 ≤ cr) then ({ h with iso := { h.iso with dieCrit := kdel h.iso.dieCrit d } }).rebrake old
  else h

/-- DIE_SENSOR_SAMPLE (R419, R420, R428): the die's 64 readings. -/
def execDieSensorSample (die : BitVec 1) (temps : List (BitVec 8)) (s : State) : Host.Outcome State Fault Refusal :=
  hubWatch (fun h =>
    let d := die.toNat
    let l := temps.take 64
    let m := hottestOf l
    if h.boot.stopped ∨ h.dies ≤ d ∨ l = [] then h
    else
      let h := (l.zipIdx).foldl (fun h x => h.sets [(Reg.isoSensorTempC d x.2, x.1.toNat), (Reg.isoSensorValid d x.2, 1)]) h
      let h := h.sets [(Reg.isoDieHottestC d, m.1), (Reg.isoDieHottest d, m.2)]
      let h := if h.isoRuns then (h.dieLevels d m.1).pumps else h
      if 125 ≤ m.1 then h.trip false d m.2 m.1 else h) s

/-- SITE_TELEMETRY_READ (R300, R421): a chiplet's alarm lowers its grant to IDLE_W; when it clears the grant rises under R418. -/
def execSiteTelemetryRead (site : BitVec 4) (power request : BitVec 16) (temp : BitVec 8) (alarm : Bool) (s : State) :
    Host.Outcome State Fault Refusal :=
  hubWatch (fun h =>
    let k := site.toNat
    if !h.siteActive k || !h.isoRuns then h
    else
      let was := kmem h.iso.alarms k
      let h := h.sets [(Reg.sitePowerPower k, power.toNat), (Reg.sitePowerRequest k, request.toNat), (Reg.sitePowerTemp k, temp.toNat)]
      let h : Hub := { h with iso := { h.iso with alarms := if alarm then kadd h.iso.alarms k else kdel h.iso.alarms k } }
      let h := h.set Reg.isoStatusChipletAlarm (b2n (!h.iso.alarms.isEmpty))
      let h := if alarm then h.setGrant (64 + k) (10 * h.idleW k) else if was && h.brakes.isEmpty then h.startRamp else h
      h.pumps) s

/-- AVS_ACK (R423). -/
def execAvsAck (die : BitVec 1) (rail : BitVec 4) (s : State) : Host.Outcome State Fault Refusal :=
  hubWatch (fun h => if h.isoRuns then h.railAck (die.toNat * 16 + rail.toNat) else h) s

/-- REGULATOR_STATUS_READ (R424): a fault is recorded. -/
def execRegulatorStatusRead (die : BitVec 1) (rail : BitVec 4) (fault : Bool) (s : State) : Host.Outcome State Fault Refusal :=
  hubWatch (fun h => if h.isoRuns && fault && decide (rail.toNat < 13) then h.powerRec 0x0B06 die.toNat 0 0 else h) s

/-- TWIN_TELEMETRY (R424): the secondary's readings come in, its grants go out. -/
def execTwinTelemetry (x : PowerIn) (s : State) : Host.Outcome State Fault Refusal :=
  hubWatch (fun h =>
    if !h.isoRuns || h.dies ≠ 2 then h
    else
      let h : Hub := { h with iso := { h.iso with twin := some x } }
      let l := (h.consumers.map (·.k)).filter (fun k => k = 1 || (28 ≤ k && k < 40) || (72 ≤ k && k < 80))
      l.foldl (fun h k => h.send (.bridge k (h.grant k))) h) s

/-- HEARTBEAT_LOSS (R427): three periods have passed. -/
def execHeartbeatLoss (s : State) : Host.Outcome State Fault Refusal :=
  hubWatch (fun h =>
    if !h.isoRuns || decide (bits (h.od 0x1016 1) 0 16 = 0) || h.on Reg.isoStatusHbLost then h
    else
      let h : Hub := { h with iso := { h.iso with hbBack := false } }
      let h := ((h.set Reg.isoStatusHbLost 1).event Reg.isoEventHbLost).showBudget
      h.powerRec 0x0B02 0 0 0) s

/-- HEARTBEAT_RX (R427): the cap lifts with the next POWER_LIMIT_W. -/
def execHeartbeatRx (node : BitVec 7) (s : State) : Host.Outcome State Fault Refusal :=
  hubWatch (fun h =>
    if h.on Reg.isoStatusHbLost && decide (bits (h.od 0x1016 1) 16 8 = node.toNat) then { h with iso := { h.iso with hbBack := true } }
    else h) s

/-- PUMP_FAIL (R429). -/
def execPumpFail (k : BitVec 1) (rpm : BitVec 16) (s : State) : Host.Outcome State Fault Refusal :=
  hubWatch (fun h =>
    let i := k.toNat
    if !h.isoRuns then h
    else
      let h := h.set (Reg.isoPumpRpm i) rpm.toNat
      if rpm.toNat < 10 * h.get Reg.isoPumpCfgTachMin ∧ h.on (Reg.isoPumpDuty i) ∧ !h.on (Reg.isoPumpFail i) then
        (((h.set (Reg.isoPumpFail i) 1).event Reg.isoEventPumpFail).pumps).powerRec 0x0B07 i 0 0
      else h) s

/-- AVSBUS_WRITE_UNACKNOWLEDGED (R423). -/
def execAvsbusWriteUnacknowledged (die : BitVec 1) (rail : BitVec 4) (s : State) : Host.Outcome State Fault Refusal :=
  hubWatch (fun h => if h.isoRuns && decide (rail.toNat < 13) && decide (die.toNat < h.dies) then h.railFail (die.toNat * 16 + rail.toNat) else h) s

end Sys2Proof.Machine
end

