-- ==== Sys2Proof/Machine/Operands.lean ====
section
/-! DEFINITION. The operand forms of Fraxo: scalar, vector and predicate registers (R108, R109), immediates, vector
elements and predication, register groups. -/

namespace Sys2Proof.Machine

/-- Scalar register `n`: s0 reads zero (R108). -/
def Core.s (c : Core) (n : BitVec 5) : Word64 := if n = 0 then 0 else tget 0 c.sr n.toNat

/-- Scalar register `n` written: a write to s0 is discarded (R108). -/
def Core.setS (c : Core) (n : BitVec 5) (v : Word64) : Core :=
  if n = 0 then c else { c with sr := tset 0 c.sr n.toNat v }

/-- Vector register `n`, n < 32. -/
def Core.v (c : Core) (n : Nat) : Word256 := tget 0 c.vr n

/-- Vector register `n` written. -/
def Core.setV (c : Core) (n : Nat) (v : Word256) : Core := { c with vr := tset 0 c.vr n v }

/-- Predicate register `n`: p0 reads all ones (R108). -/
def Core.p (c : Core) (n : BitVec 3) : Word64 := if n = 0 then BitVec.allOnes 64 else tget 0 c.pr n.toNat

/-- Predicate register `n` written: a write to p0 is discarded (R108). -/
def Core.setP (c : Core) (n : BitVec 3) (v : Word64) : Core :=
  if n = 0 then c else { c with pr := tset 0 c.pr n.toNat v }

/-- The next instruction (R107). -/
def Core.adv (c : Core) : Core := { c with pc := c.pc + 4 }

/-- What an instruction does to its core alone: it completes, or it raises an exception of Table 9 of 05 with the ADDR
field of the record (flags set so far stay in FFLAGS). -/
inductive CoreRes where
  | ok (c : Core)
  | exc (code : Nat) (addr : Nat) (c : Core)
  deriving DecidableEq, Repr

/-- ILLEGAL (Table 9 of 05). -/
def CoreRes.illegal (c : Core) : CoreRes := .exc 0x01 0 c

/-- The instruction completes if the condition of R115 holds, else ILLEGAL. -/
def legalIf (b : Bool) (c : Core) (r : CoreRes) : CoreRes := if b then r else CoreRes.illegal c

/-- An instruction that writes `v` to scalar register `rd` and goes on. -/
def putS (c : Core) (rd : BitVec 5) (v : Word64) : CoreRes := .ok (c.setS rd v).adv

/-- IMM16 sign-extended (R116, R117, R118). -/
def sext16 (i : BitVec 16) : Word64 := i.signExtend 64

/-- IMM16 zero-extended (R116). -/
def zext16 (i : BitVec 16) : Word64 := i.zeroExtend 64

/-- The base plus sign-extended offset of a scalar load or store (R118). -/
def scalarAddr (c : Core) (rs1 : BitVec 5) (imm : BitVec 16) : Word64 := c.s rs1 + sext16 imm

/-- The address of VLD and VST: s[rs1] + sext(IMM13) × 32 (R118). -/
def vectorAddr (c : Core) (rs1 : BitVec 5) (imm : BitVec 13) : Word64 := c.s rs1 + imm.signExtend 64 * 32

/-- The branch target PC + 4 × IMM (R117). -/
def branchTarget (c : Core) (imm : BitVec 16) : Word32 := c.pc + 4 * imm.signExtend 32

/-- The number of elements of a register in format code `k` (R109). -/
def eltCount (k : Nat) : Nat :=
  match k with
  | 0 => 8
  | 1 => 16
  | 2 => 16
  | 7 => 64
  | 9 => 64
  | 10 => 64
  | 11 => 128
  | _ => 32

/-- The width in bits that a width code names (VINT, VPERM: 0-3 for 8, 16, 32, 64). -/
def widthOf (k : Nat) : Nat := 8 * 2 ^ k

/-- The first `n` elements of a register, `w` bits each, packed without gaps (R109, R147). -/
def elems (w n : Nat) (v : Word256) : List Nat := unpack w n v.toNat

/-- A register from its elements; bits above them are zero. -/
def ofElems (w : Nat) (l : List Nat) : Word256 := BitVec.ofNat 256 (pack w l)

/-- Whether element `i` of `n` is active under predicate `p` (R109). -/
def active (p : Word64) (n i : Nat) : Bool := p.getLsbD (if n = 128 then i / 2 else i)

/-- Elements with the inactive ones keeping the destination's previous value (R109). -/
def mergeElems (p : Word64) (old new : List Nat) : List Nat :=
  (List.range new.length).map (fun i => if active p new.length i then new.getD i 0 else old.getD i 0)

/-- Registers `r .. r + n - 1` of a group, joined, the first lowest. -/
def vgroup (c : Core) (r n : Nat) : Nat :=
  match n with
  | 0 => 0
  | n + 1 => (c.v r).toNat + 2 ^ 256 * vgroup c (r + 1) n

/-- A value written to registers `r .. r + n - 1` of a group. -/
def setVgroup (c : Core) (r n x : Nat) : Core :=
  match n with
  | 0 => c
  | n + 1 => setVgroup (c.setV r (BitVec.ofNat 256 x)) (r + 1) n (x / 2 ^ 256)

end Sys2Proof.Machine
end

