-- ==== Sys2Proof/Machine/Flags.lean ====
section
/-! DEFINITION. The numeric flags of Fraxo (05: Table 8, R136, R137), FCTRL and the handling of NaN, subnormals and
rounding that every floating instruction shares (R123, R124). -/

namespace Sys2Proof.Machine

/-- FCTRL.ROUND for arithmetic: STOCH is treated as RNE (R123). -/
def Core.arithRound (c : Core) : Rnd :=
  match Rnd.ofCode (bits c.fctrl.toNat 0 3) with
  | .stoch => .rne
  | r => r

/-- FCTRL.ROUND as conversions take it (R126, R151). -/
def Core.convRound (c : Core) : Rnd := Rnd.ofCode (bits c.fctrl.toNat 0 3)

/-- FCTRL.FTZ. -/
def Core.ftz (c : Core) : Bool := bitAt c.fctrl.toNat 3

/-- FCTRL.FEXC_EN. -/
def Core.fexc (c : Core) : Nat := bits c.fctrl.toNat 8 8

/-- FFLAGS after an instruction has set `f` (R136: by OR). -/
def Core.orFlags (c : Core) (f : FFlags) : Core := { c with fflags := c.fflags ||| BitVec.ofNat 64 f.toNat }

/-- An instruction that set the flags `f` and would leave the core as `done c'`: NUMERIC if a set flag is enabled, with the
flags reported and the destination not written (R137), else the write. -/
def finish (c : Core) (f : FFlags) (done : Core → Core) : CoreRes :=
  if f.toNat &&& c.fexc = 0 then .ok (done (c.orFlags f)).adv
  else .exc 0x08 0 (c.orFlags f)

/-- An operand of a floating operation: its exact value, a subnormal replaced by a zero of the same sign under FTZ
(R123), and whether it is a signalling NaN (R124). -/
def fpIn (f : FltFmt) (ftz : Bool) (x : Nat) : Val × Bool :=
  let v := f.dec x
  match v with
  | .fin s m e =>
    (if ftz && decide (0 < m) && decide (m < 2 ^ f.mb) then .fin s 0 e else v, false)
  | _ => (v, f.isSnan x)

/-- The result of a floating operation: rounded once, subnormal results flushed under FTZ with UF and NX (R123), NaN
canonical (R124), the operation's own flags joined. -/
def fpOut (f : FltFmt) (ftz : Bool) (mode : Rnd) (v : Val) (own : FFlags) : Nat × FFlags :=
  let (code, fl) := f.enc true v mode 0
  let mag := bits code 0 (f.eb + f.mb)
  if ftz && decide (0 < mag) && decide (mag < 2 ^ f.mb) then
    (code - mag, (fl.or own).or { uf := true, nx := true })
  else (code, fl.or own)

/-- The zero sign of a sum of unlike operands: negative under RDN (IEEE 754). -/
def zeroSign (mode : Rnd) : Bool := decide (mode = .rdn)

/-- The invalid flag alone. -/
def nvIf (b : Bool) : FFlags := { nv := b }

/-- The two-operand arithmetic instructions. -/
inductive FOp where
  | add | sub | mul | div
  deriving DecidableEq, Repr

/-- A two-operand arithmetic result (R123, R124). -/
def fpArith (op : FOp) (f : FltFmt) (ftz : Bool) (mode : Rnd) (x y : Nat) : Nat × FFlags :=
  let (a, sa) := fpIn f ftz x
  let (b, sb) := fpIn f ftz y
  match op with
  | .add =>
    let (v, inv) := a.add b (zeroSign mode)
    fpOut f ftz mode v (nvIf (sa || sb || inv))
  | .sub =>
    let (v, inv) := a.add b.neg (zeroSign mode)
    fpOut f ftz mode v (nvIf (sa || sb || inv))
  | .mul =>
    let (v, inv) := a.mul b
    fpOut f ftz mode v (nvIf (sa || sb || inv))
  | .div =>
    let (v, inv, dz) := a.div b
    fpOut f ftz mode v { nv := sa || sb || inv, dz := dz }

/-- The square root (R123). -/
def fpSqrt (f : FltFmt) (ftz : Bool) (mode : Rnd) (x : Nat) : Nat × FFlags :=
  let (a, sa) := fpIn f ftz x
  let (v, inv) := a.sqrt
  fpOut f ftz mode v (nvIf (sa || inv))

/-- The fused a × b + c, with the product and the addend negated on demand, rounded once (R123). Zero times infinity with
a quiet NaN addend signals as Config leaves it (log entry 12). -/
def fpFma (f : FltFmt) (ftz : Bool) (mode : Rnd) (np nc : Bool) (x y z : Nat) : Nat × FFlags :=
  let (a, sa) := fpIn f ftz x
  let (b, sb) := fpIn f ftz y
  let (d, sd) := fpIn f ftz z
  let (p, inv) := a.mul b
  let p := if np then p.neg else p
  let d' := if nc then d.neg else d
  let inv1 := inv && (decide (d ≠ .nan) || Config.fmaQuietInvalid)
  let (v, inv2) := p.add d' (zeroSign mode)
  let v := if inv then .nan else v
  fpOut f ftz mode v (nvIf (sa || sb || sd || inv1 || (inv2 && !inv)))

/-- Minimum (`mx` false) or maximum: the canonical NaN if either input is a NaN, and −0 below +0 (R124). -/
def fpMinMax (mx : Bool) (f : FltFmt) (ftz : Bool) (x y : Nat) : Nat × FFlags :=
  let (a, sa) := fpIn f ftz x
  let (b, sb) := fpIn f ftz y
  let code (v : Val) (raw : Nat) : Nat := if v.isZero then f.withSign v.sign 0 else raw
  if a = .nan ∨ b = .nan then (f.qnan.getD 0, nvIf (sa || sb))
  else
    let aLess : Bool :=
      match a.cmp b with
      | .lt => true
      | .gt => false
      | .eq => a.sign && !b.sign
    ((if aLess != mx then code a x else code b y), FFlags.none)

/-- The float comparisons of VCMP and FPS. -/
inductive FCmp where
  | eq | ne | lt | le | gt | ge | unord
  deriving DecidableEq, Repr

/-- A float comparison and its invalid flag (R123; whether the ordered kinds signal on a quiet NaN is Config's, log entry
13). -/
def fpCmp (k : FCmp) (f : FltFmt) (ftz : Bool) (x y : Nat) : Bool × FFlags :=
  let (a, sa) := fpIn f ftz x
  let (b, sb) := fpIn f ftz y
  let un := decide (a = .nan) || decide (b = .nan)
  let ord : Bool :=
    match k with
    | .eq => decide (a.cmp b = .eq)
    | .ne => decide (a.cmp b ≠ .eq)
    | .lt => decide (a.cmp b = .lt)
    | .le => decide (a.cmp b ≠ .gt)
    | .gt => decide (a.cmp b = .gt)
    | .ge => decide (a.cmp b ≠ .lt)
    | .unord => false
  let res : Bool := if un then (match k with | .ne => true | .unord => true | _ => false) else ord
  let signals : Bool :=
    match k with
    | .lt => true
    | .le => true
    | .gt => true
    | .ge => true
    | _ => false
  (res, nvIf (sa || sb || (un && signals && Config.orderedCmpSignals)))

end Sys2Proof.Machine
end

