-- ==== Sys2Proof/Machine/FraxoInt.lean ====
section
/-! DEFINITION. The scalar side of Fraxo over the core alone (05: R110, R115-R117, R125 for BP): integer arithmetic,
immediates, branches, control and status registers, predicates, the Dewpoint tag. -/

namespace Sys2Proof.Machine

/-- The two-register integer instructions of major 0x01 (Table 5, R116). -/
inductive IOp where
  | add | sub | and | or | xor | sll | srl | sra | slt | sltu | min | max | minu | maxu
  | mul | mulh | mulhu | div | divu | rem | remu | clz | ctz | popc
  deriving DecidableEq, Repr

/-- Leading zeros of a 64-bit value: 64 for zero (R116, CLZ). -/
def clz64 (x : Word64) : Nat := if x = 0 then 64 else 63 - Nat.log2 x.toNat

/-- Trailing zeros of a 64-bit value: 64 for zero (CTZ). -/
def ctz64 (x : Word64) : Nat := (findLow 64 (fun i => x.getLsbD i)).getD 64

/-- The quotient of signed values: all ones for a zero divisor, the dividend itself for the most negative value by −1
(R116). -/
def divS (a b : Word64) : Word64 :=
  if b = 0 then BitVec.allOnes 64 else BitVec.ofInt 64 (a.toInt.tdiv b.toInt)

/-- The remainder of signed values: the dividend for a zero divisor (R116). -/
def remS (a b : Word64) : Word64 := if b = 0 then a else BitVec.ofInt 64 (a.toInt.tmod b.toInt)

/-- The quotient of unsigned values (R116). -/
def divU (a b : Word64) : Word64 := if b = 0 then BitVec.allOnes 64 else BitVec.ofNat 64 (a.toNat / b.toNat)

/-- The remainder of unsigned values (R116). -/
def remU (a b : Word64) : Word64 := if b = 0 then a else BitVec.ofNat 64 (a.toNat % b.toNat)

/-- The result of an integer instruction (R116): shift amounts are the low 6 bits. -/
def intOp (op : IOp) (a b : Word64) : Word64 :=
  let sh := b.toNat % 64
  match op with
  | .add => a + b
  | .sub => a - b
  | .and => a &&& b
  | .or => a ||| b
  | .xor => a ^^^ b
  | .sll => a <<< sh
  | .srl => a >>> sh
  | .sra => a.sshiftRight sh
  | .slt => if a.slt b then 1 else 0
  | .sltu => if a.ult b then 1 else 0
  | .min => if b.slt a then b else a
  | .max => if a.slt b then b else a
  | .minu => if b.ult a then b else a
  | .maxu => if a.ult b then b else a
  | .mul => a * b
  | .mulh => BitVec.ofInt 64 (a.toInt * b.toInt / 2 ^ 64)
  | .mulhu => BitVec.ofNat 64 (a.toNat * b.toNat / 2 ^ 64)
  | .div => divS a b
  | .divu => divU a b
  | .rem => remS a b
  | .remu => remU a b
  | .clz => BitVec.ofNat 64 (clz64 a)
  | .ctz => BitVec.ofNat 64 (ctz64 a)
  | .popc => BitVec.ofNat 64 (popCount 64 a.toNat)

/-- A two-register integer instruction: X is reserved (R115). -/
def intR (op : IOp) (f : RForm) (c : Core) : CoreRes :=
  legalIf (decide (f.x = 0)) c (putS c f.rd (intOp op (c.s f.rs1) (c.s f.rs2)))

/-- SEL: rd := rs1 if s[X] ≠ 0, else rs2 (Table 5). -/
def selR (f : RForm) (c : Core) : CoreRes :=
  putS c f.rd (if c.s f.x ≠ 0 then c.s f.rs1 else c.s f.rs2)

/-- An immediate instruction whose immediate is sign-extended (R116: ADDI, SLTI, SLTIU). -/
def intSI (op : IOp) (f : IForm) (c : Core) : CoreRes := putS c f.rd (intOp op (c.s f.rs1) (sext16 f.imm))

/-- An immediate instruction whose immediate is zero-extended (R116: ANDI, ORI, XORI). -/
def intZI (op : IOp) (f : IForm) (c : Core) : CoreRes := putS c f.rd (intOp op (c.s f.rs1) (zext16 f.imm))

/-- SHI: IMM[5:0] amount, IMM[7:6] SLL, SRL, SRA, ROR, IMM[15:8] reserved (Table 5). -/
def shi (f : IForm) (c : Core) : CoreRes :=
  let n := f.imm.toNat % 64
  let a := c.s f.rs1
  let r : Word64 :=
    match bits f.imm.toNat 6 2 with
    | 0 => a <<< n
    | 1 => a >>> n
    | 2 => a.sshiftRight n
    | _ => a.rotateRight n
  legalIf (decide (bits f.imm.toNat 8 8 = 0)) c (putS c f.rd r)

/-- MOVZ: rd := IMM16 << 16·HW (Table 5). -/
def movz (f : MForm) (c : Core) : CoreRes :=
  legalIf (decide (f.res = 0)) c (putS c f.rd (f.imm.zeroExtend 64 <<< (16 * f.hw.toNat)))

/-- MOVK: IMM16 inserted at bits [16·HW + 15 : 16·HW], other bits kept (Table 5). -/
def movk (f : MForm) (c : Core) : CoreRes :=
  legalIf (decide (f.res = 0)) c
    (putS c f.rd (BitVec.ofNat 64 (putBits (c.s f.rd).toNat (16 * f.hw.toNat) 16 f.imm.toNat)))

/-- Whether a target is refused by R117: not a multiple of 4, or at or beyond CODE_LEN. -/
def badTarget (codeLen t : Nat) : Bool := decide (t % 4 ≠ 0) || decide (codeLen ≤ t)

/-- The conditional branches of majors 0x20-0x25. -/
inductive BOp where
  | eq | ne | lt | ge | ltu | geu
  deriving DecidableEq, Repr

/-- The condition of a branch. -/
def branchCond (op : BOp) (a b : Word64) : Bool :=
  match op with
  | .eq => decide (a = b)
  | .ne => decide (a ≠ b)
  | .lt => a.slt b
  | .ge => !a.slt b
  | .ltu => a.ult b
  | .geu => !a.ult b

/-- A conditional branch that is taken or not (R117); a taken branch with a refused target raises FETCH. -/
def branchTo (codeLen : Nat) (taken : Bool) (imm : BitVec 16) (c : Core) : CoreRes :=
  let t := branchTarget c imm
  if !taken then .ok c.adv
  else if badTarget codeLen t.toNat then .exc 0x09 t.toNat c
  else .ok { c with pc := t }

/-- BEQ to BGEU. -/
def branch (op : BOp) (codeLen : Nat) (f : BForm) (c : Core) : CoreRes :=
  branchTo codeLen (branchCond op (c.s f.rs1) (c.s f.rs2)) f.imm c

/-- R24: backward branches are predicted taken, forward branches not taken. -/
def mispredicted (taken : Bool) (imm : BitVec 16) : Bool := taken != imm.msb

/-- The bits that BP tests: the first 8, 16, 32 or 64 (Table 5, R125). -/
def bpBits (f : BForm) (c : Core) : Nat := bits (c.p (BitVec.ofNat 3 f.rs1.toNat)).toNat 0 (8 * 2 ^ bits f.rs2.toNat 0 3)

/-- Whether BP's fields are listed: [10:9] 0-2, [13:11] 0-3, [15:14] zero (Table 5). -/
def bpLegal (f : BForm) : Bool :=
  decide (bits f.rs1.toNat 3 2 < 3) && decide (bits f.rs2.toNat 0 3 < 4) && decide (bits f.rs2.toNat 3 2 = 0)

/-- The condition of BP: ANY, ALL or NONE of the tested bits set. -/
def bpTaken (f : BForm) (c : Core) : Bool :=
  let n := 8 * 2 ^ bits f.rs2.toNat 0 3
  let b := bpBits f c
  match bits f.rs1.toNat 3 2 with
  | 0 => decide (b ≠ 0)
  | 1 => decide (b = 2 ^ n - 1)
  | _ => decide (b = 0)

/-- BP (Table 5). -/
def branchP (codeLen : Nat) (f : BForm) (c : Core) : CoreRes :=
  legalIf (bpLegal f) c (branchTo codeLen (bpTaken f c) f.imm c)

/-- JAL: rd := PC + 4, to PC + 4 × IMM (R117). -/
def jal (codeLen : Nat) (f : JForm) (c : Core) : CoreRes :=
  let t : Word32 := c.pc + 4 * f.imm.signExtend 32
  if badTarget codeLen t.toNat then .exc 0x09 t.toNat c
  else .ok { c.setS f.rd ((c.pc + 4).zeroExtend 64) with pc := t }

/-- JALR: rd := PC + 4, to s[rs1] + sext(IMM16) (R117). -/
def jalr (codeLen : Nat) (f : IForm) (c : Core) : CoreRes :=
  let t := scalarAddr c f.rs1 f.imm
  if badTarget codeLen t.toNat then .exc 0x09 t.toNat c
  else .ok { c.setS f.rd ((c.pc + 4).zeroExtend 64) with pc := BitVec.ofNat 32 t.toNat }

/-- What the read-only CSRs show: CYCLE, TIME, WHOAMI, LAUNCH (Table 2 of 05). -/
structure CsrEnv where
  cycle : Nat
  time : Nat
  whoami : Nat
  launch : Nat

/-- A CSR's value, if its index is in Table 2. -/
def csrRead (e : CsrEnv) (c : Core) (ix : Nat) : Option Word64 :=
  match ix with
  | 0x000 => some c.fflags
  | 0x001 => some c.fctrl
  | 0x002 => some c.dewtag
  | 0x003 => some c.srstate
  | 0x010 => some (BitVec.ofNat 64 e.cycle)
  | 0x011 => some (BitVec.ofNat 64 c.instret)
  | 0x012 => some (BitVec.ofNat 64 e.time)
  | 0x020 => some (BitVec.ofNat 64 e.whoami)
  | 0x021 => some (BitVec.ofNat 64 e.launch)
  | _ => none

/-- FCTRL as a write leaves it: reserved bits zero, a reserved ROUND unchanged (Table 2, R110). -/
def fctrlWrite (old new : Word64) : Word64 :=
  let r := if bits new.toNat 0 3 < 5 then bits new.toNat 0 3 else bits old.toNat 0 3
  BitVec.ofNat 64 (r + bits new.toNat 3 1 * 2 ^ 3 + bits new.toNat 8 8 * 2 ^ 8)

/-- A CSR written; none for a read-only or unlisted one (R110, R111). FFLAGS keeps its eight flag bits and DEWTAG its nine. -/
def csrWrite (c : Core) (ix : Nat) (v : Word64) : Option Core :=
  match ix with
  | 0x000 => some { c with fflags := BitVec.ofNat 64 (bits v.toNat 0 8) }
  | 0x001 => some { c with fctrl := fctrlWrite c.fctrl v }
  | 0x002 => some { c with dewtag := BitVec.ofNat 64 (bits v.toNat 0 9) }
  | 0x003 => some { c with srstate := if v = 0 then BitVec.ofNat 64 srConst else v }
  | _ => none

/-- CSRR (Table 5). -/
def csrr (e : CsrEnv) (f : I12Form) (c : Core) : CoreRes :=
  match csrRead e c f.imm.toNat with
  | some v => putS c f.rd v
  | none => CoreRes.illegal c

/-- CSRW, CSRS, CSRC: the CSR takes `upd old s[rs1]`, rd the old value (Table 5, R110). -/
def csrUpd (upd : Word64 → Word64 → Word64) (e : CsrEnv) (f : I12Form) (c : Core) : CoreRes :=
  match csrRead e c f.imm.toNat with
  | some old =>
    match csrWrite c f.imm.toNat (upd old (c.s f.rs1)) with
    | some c' => putS c' f.rd old
    | none => CoreRes.illegal c
  | none => CoreRes.illegal c

/-- A predicate operand of P format: its upper bits are reserved (R114). -/
def pLegal (n : BitVec 5) : Bool := decide (n.toNat < 8)

/-- The predicate register a P-format field names. -/
def pReg (n : BitVec 5) : BitVec 3 := BitVec.ofNat 3 n.toNat

/-- The predicate instructions that combine predicates (Table 5). -/
def predOp (g : Word64 → Word64 → Word64) (useB : Bool) (f : PForm) (c : Core) : CoreRes :=
  legalIf (decide (f.res = 0) && pLegal f.d && pLegal f.a && (!useB || pLegal f.b)) c
    (.ok (c.setP (pReg f.d) (g (c.p (pReg f.a)) (c.p (pReg f.b)))).adv)

/-- PFROM: pd := s[a]. -/
def pfrom (f : PForm) (c : Core) : CoreRes :=
  legalIf (decide (f.res = 0) && pLegal f.d) c (.ok (c.setP (pReg f.d) (c.s f.a)).adv)

/-- PTO: s[d] := pa. -/
def pto (f : PForm) (c : Core) : CoreRes :=
  legalIf (decide (f.res = 0) && pLegal f.a) c (putS c f.d (c.p (pReg f.a)))

/-- PFIRST: pd := low s[a] bits set. -/
def pfirst (f : PForm) (c : Core) : CoreRes :=
  let n := (c.s f.a).toNat
  legalIf (decide (f.res = 0) && pLegal f.d) c
    (.ok (c.setP (pReg f.d) (if 64 ≤ n then BitVec.allOnes 64 else BitVec.ofNat 64 (2 ^ n - 1))).adv)

/-- DEWSET: TAG := IMM[7:0], VALID := 1; IMM[11:8] reserved (Table 5). -/
def dewset (f : I12Form) (c : Core) : CoreRes :=
  legalIf (decide (bits f.imm.toNat 8 4 = 0)) c
    (.ok { c with dewtag := BitVec.ofNat 64 (bits f.imm.toNat 0 8 + 256) }.adv)

/-- DEWSETR: TAG := s[rs1][7:0]; VALID is set as DEWSET sets it (log entry 14). -/
def dewsetr (f : I12Form) (c : Core) : CoreRes :=
  legalIf (decide (bits f.imm.toNat 8 4 = 0)) c
    (.ok { c with dewtag := BitVec.ofNat 64 (bits (c.s f.rs1).toNat 0 8 + 256) }.adv)

/-- DEWCLR: VALID := 0, TAG kept. -/
def dewclr (f : I12Form) (c : Core) : CoreRes :=
  legalIf (decide (bits f.imm.toNat 8 4 = 0)) c
    (.ok { c with dewtag := BitVec.ofNat 64 (bits c.dewtag.toNat 0 8) }.adv)

end Sys2Proof.Machine
end

