-- ==== Sys2Proof/Machine/FraxoFloat.lean ====
section
/-! DEFINITION. FP32 scalar instructions (05: FPS; R116, R123, R124). They read bits [31:0] of their registers and write
bits [31:0] of rd with zero above. -/

namespace Sys2Proof.Machine

/-- The FP32 operand in bits [31:0] of a scalar register. -/
def fps (c : Core) (n : BitVec 5) : Nat := bits (c.s n).toNat 0 32

/-- An FP32 result written to rd with its flags (R116, R136, R137). -/
def putFps (c : Core) (rd : BitVec 5) (r : Nat × FFlags) : CoreRes :=
  finish c r.2 (fun c' => c'.setS rd (BitVec.ofNat 64 r.1))

/-- FADD, FSUB, FMUL, FDIV. -/
def fpsArith (op : FOp) (f : RForm) (c : Core) : CoreRes :=
  putFps c f.rd (fpArith op fp32 c.ftz c.arithRound (fps c f.rs1) (fps c f.rs2))

/-- FSQRT. -/
def fpsSqrt (f : RForm) (c : Core) : CoreRes := putFps c f.rd (fpSqrt fp32 c.ftz c.arithRound (fps c f.rs1))

/-- FMIN and FMAX. -/
def fpsMinMax (mx : Bool) (f : RForm) (c : Core) : CoreRes :=
  putFps c f.rd (fpMinMax mx fp32 c.ftz (fps c f.rs1) (fps c f.rs2))

/-- FMA: rs1 × rs2 + s[X]. -/
def fpsFma (f : RForm) (c : Core) : CoreRes :=
  putFps c f.rd (fpFma fp32 c.ftz c.arithRound false false (fps c f.rs1) (fps c f.rs2) (fps c f.x))

/-- FCVT.L of a value: the integer it rounds to, or none for a NaN, an infinity or a value outside int64. -/
def fcvtLVal (v : Val) (mode : Rnd) : Option (Int × Bool) :=
  match v with
  | .fin s m e =>
    let n : Int := roundMag m e mode s 0
    let i := if s then -n else n
    if -(2 ^ 63 : Int) ≤ i ∧ i < 2 ^ 63 then some (i, hasFrac m e) else none
  | _ => none

/-- FCVT.L: FP32 to int64, all 64 bits of rd written; a value with no int64 result sets NV and its result is open (log
entry 11). -/
def fcvtL (f : RForm) (c : Core) : CoreRes :=
  let x := fps c f.rs1
  match fcvtLVal (fpIn fp32 c.ftz x).1 c.arithRound with
  | some (i, nx) => finish c { nx := nx } (fun c' => c'.setS f.rd (BitVec.ofInt 64 i))
  | none => finish c { nv := true } (fun c' => c'.setS f.rd (Config.fcvtLInvalid (BitVec.ofNat 32 x)))

/-- FCVT.S: int64 to FP32. -/
def fcvtS (f : RForm) (c : Core) : CoreRes :=
  putFps c f.rd (fp32.enc true (valOfInt (c.s f.rs1).toInt) c.arithRound 0)

/-- FEQ, FLT, FLE. -/
def fpsCmp (k : FCmp) (f : RForm) (c : Core) : CoreRes :=
  let (b, fl) := fpCmp k fp32 c.ftz (fps c f.rs1) (fps c f.rs2)
  putFps c f.rd (b2n b, fl)

end Sys2Proof.Machine
end

