-- ==== Sys2Proof/Machine/FraxoVector.lean ====
section
/-! DEFINITION. The vector side of Fraxo over the core alone (05: R109, R123-R130): arithmetic, comparison, special
functions, dot product, conversion, quantisation, reduction, permutation. -/

namespace Sys2Proof.Machine

/-- The arithmetic format that FMT 0x0-0x2 names. -/
def vfFmt (k : Nat) : Option FltFmt :=
  match k with
  | 0 => some fp32
  | 1 => some bf16
  | 2 => some fp16
  | _ => none

/-- The flags of the active elements, joined (R136). -/
def joinFlags (p : Word64) (rs : List (Nat × FFlags)) : FFlags :=
  rs.zipIdx.foldl (fun f r => if active p rs.length r.2 then f.or r.1.2 else f) FFlags.none

/-- An element-wise instruction: `g` gives element i from the elements of va, vb and vd; inactive elements keep the
destination and set no flag (R109, R136). -/
def vmap (w n : Nat) (f : VForm) (c : Core) (g : Nat → Nat → Nat → Nat × FFlags) : CoreRes :=
  let xs := elems w n (c.v f.va.toNat)
  let ys := elems w n (c.v f.vb.toNat)
  let zs := elems w n (c.v f.vd.toNat)
  let rs := (List.range n).map (fun i => g (xs.getD i 0) (ys.getD i 0) (zs.getD i 0))
  finish c (joinFlags (c.p f.pg) rs)
    (fun c' => c'.setV f.vd.toNat (ofElems w (mergeElems (c.p f.pg) zs (rs.map Prod.fst))))

/-- An element-wise instruction of VFP or VFMA on FMT 0x0-0x2; other codes raise ILLEGAL (R115). -/
def vfloat (f : VForm) (c : Core) (g : FltFmt → Nat → Nat → Nat → Nat × FFlags) : CoreRes :=
  match vfFmt f.fmt.toNat with
  | some k => vmap k.width (eltCount f.fmt.toNat) f c (g k)
  | none => CoreRes.illegal c

/-- VADD, VSUB, VMUL, VDIV. -/
def vArith (op : FOp) (f : VForm) (c : Core) : CoreRes :=
  vfloat f c (fun k x y _ => fpArith op k c.ftz c.arithRound x y)

/-- VMIN, VMAX. -/
def vMinMax (mx : Bool) (f : VForm) (c : Core) : CoreRes :=
  vfloat f c (fun k x y _ => fpMinMax mx k c.ftz x y)

/-- VABS and VNEG: the sign of the result; a NaN gives the canonical NaN, a signalling one NV (R124). -/
def vSign (neg : Bool) (f : VForm) (c : Core) : CoreRes :=
  vfloat f c (fun k x _ _ =>
    let (v, sn) := fpIn k c.ftz x
    fpOut k c.ftz c.arithRound (if neg || v.sign then v.neg else v) (nvIf sn))

/-- VSQRT. -/
def vSqrt (f : VForm) (c : Core) : CoreRes := vfloat f c (fun k x _ _ => fpSqrt k c.ftz c.arithRound x)

/-- VFMA (va × vb + vd), VFMS (va × vb − vd), VFNMA (−va × vb + vd). -/
def vFma (np nc : Bool) (f : VForm) (c : Core) : CoreRes :=
  vfloat f c (fun k x y z => fpFma k c.ftz c.arithRound np nc x y z)

/-- The integer instructions of VINT. -/
inductive VOp where
  | add | sub | mul | and | or | xor | sll | srl | sra | min | max | minu | maxu | adds
  deriving DecidableEq, Repr

/-- One element of VINT, `w` bits wide; shift amounts are taken modulo the width (log entry 15). -/
def vintElt (op : VOp) (w x y : Nat) : Nat :=
  let m := 2 ^ w
  let sx := toSigned w x
  let sy := toSigned w y
  match op with
  | .add => (x + y) % m
  | .sub => (x + (m - y % m)) % m
  | .mul => (x * y) % m
  | .and => Nat.land x y
  | .or => Nat.lor x y
  | .xor => Nat.xor x y
  | .sll => (x * 2 ^ (y % w)) % m
  | .srl => x / 2 ^ (y % w)
  | .sra => ofSigned w (sx / 2 ^ (y % w))
  | .min => if sy < sx then y else x
  | .max => if sx < sy then y else x
  | .minu => if y < x then y else x
  | .maxu => if x < y then y else x
  | .adds =>
    let s := sx + sy
    ofSigned w (if (2 ^ (w - 1) : Nat) ≤ s then (2 ^ (w - 1) : Nat) - 1 else if s < -((2 ^ (w - 1) : Nat) : Int) then -((2 ^ (w - 1) : Nat) : Int) else s)

/-- VINT: FMT is a width code 0-3 (R115); no flag. -/
def vInt (op : VOp) (f : VForm) (c : Core) : CoreRes :=
  let w := widthOf f.fmt.toNat
  legalIf (decide (f.fmt.toNat < 4)) c
    (vmap w (256 / w) f c (fun x y _ => (vintElt op w x y, FFlags.none)))

/-- pd of VCMP: bit i for each active element, bits at and above n clear, the others kept (R125). -/
def cmpBits (p old : Word64) (rs : List Bool) : Word64 :=
  BitVec.ofNat 64 (rs.zipIdx.foldl (fun a r =>
    a + b2n (if active p rs.length r.2 then r.1 else old.getLsbD r.2) * 2 ^ r.2) 0)

/-- VCMP on floats (FN 0-6). -/
def vCmp (k : FCmp) (f : VForm) (c : Core) : CoreRes :=
  match vfFmt f.fmt.toNat with
  | none => CoreRes.illegal c
  | some t =>
    let n := eltCount f.fmt.toNat
    let xs := elems t.width n (c.v f.va.toNat)
    let ys := elems t.width n (c.v f.vb.toNat)
    let rs := (List.range n).map (fun i => fpCmp k t c.ftz (xs.getD i 0) (ys.getD i 0))
    let pd := BitVec.ofNat 3 f.vd.toNat
    finish c (joinFlags (c.p f.pg) (rs.map (fun r => (0, r.2))))
      (fun c' => c'.setP pd (cmpBits (c.p f.pg) (c.p pd) (rs.map Prod.fst)))

/-- The signed integer comparisons of VCMP (FN 8-13). -/
def intCmp (k : FCmp) (x y : Int) : Bool :=
  match k with
  | .eq => decide (x = y)
  | .ne => decide (x ≠ y)
  | .lt => decide (x < y)
  | .le => decide (x ≤ y)
  | .gt => decide (y < x)
  | .ge => decide (y ≤ x)
  | .unord => false

/-- VCMP on signed integers (FN 8-13, FMT a width code). -/
def vCmpS (k : FCmp) (f : VForm) (c : Core) : CoreRes :=
  let w := widthOf f.fmt.toNat
  let n := 256 / w
  let xs := elems w n (c.v f.va.toNat)
  let ys := elems w n (c.v f.vb.toNat)
  let rs := (List.range n).map (fun i => intCmp k (toSigned w (xs.getD i 0)) (toSigned w (ys.getD i 0)))
  let pd := BitVec.ofNat 3 f.vd.toNat
  legalIf (decide (f.fmt.toNat < 4)) c (.ok (c.setP pd (cmpBits (c.p f.pg) (c.p pd) rs)).adv)

/-- A result of VRCP or VRSQRT within 1 ulp of the exact FP32 value `v` (R125): Config picks among the two FP32 values
around an inexact value and among an exact value and its neighbours. -/
def specRound (ftz : Bool) (fn : Nat) (x : Nat) (v : Val) : Nat × FFlags :=
  let lo := fp32.enc true v .rz 0
  let up := fp32.enc true v .rne 0
  let k := Config.specPick fn (BitVec.ofNat 32 x)
  let mag := bits lo.1 0 31
  let code := if up.2.ofl then up.1
    else if lo.2.nx then lo.1 + k % 2
    else if mag = 0 then lo.1
    else lo.1 + k % 3 - 1
  let fl : FFlags := if up.2.ofl then up.2
    else if lo.2.nx then { nx := true, uf := lo.2.uf }
    else { nx := decide (mag ≠ 0) && decide (k % 3 ≠ 1) }
  let m := bits code 0 31
  if ftz && decide (0 < m) && decide (m < 2 ^ 23) then (code - m, fl.or { uf := true, nx := true }) else (code, fl)

/-- 1 / sqrt(m × 2^e) for m > 0, carried with a sticky last bit. -/
def rsqrtPos (m : Nat) (e : Int) : Val :=
  let (m1, e1) := if e % 2 = 0 then (m, e) else (2 * m, e - 1)
  let k := 100 + Nat.log2 m1
  let q := isqrt (2 ^ (2 * k) / m1)
  .fin false (2 * q + b2n (decide (q * q * m1 ≠ 2 ^ (2 * k)))) (-(e1 / 2) - k - 1)

/-- The VSPEC functions. -/
inductive SpecFn where
  | rcp | rsqrt | exp2 | log2 | tanh
  deriving DecidableEq, Repr

/-- The flags a byte of Config names (Table 8). -/
def flagsOf (b : BitVec 8) : FFlags :=
  ⟨b.getLsbD 0, b.getLsbD 1, b.getLsbD 2, b.getLsbD 3, b.getLsbD 4, b.getLsbD 5, b.getLsbD 6, b.getLsbD 7⟩

/-- A result of VEXP2, VLOG2 or VTANH: the spec bounds its error and gives neither its bits nor its flags (log entry 16). -/
def specOpen (fn x : Nat) : Nat × FFlags :=
  ((Config.specValue fn (BitVec.ofNat 32 x)).toNat, flagsOf (Config.specFlags fn (BitVec.ofNat 32 x)))

/-- One FP32 result of VSPEC (R125, R124 for NaN, Table 8 for DZ). -/
def spec32 (fn : SpecFn) (ftz : Bool) (x : Nat) : Nat × FFlags :=
  let (a, sa) := fpIn fp32 ftz x
  let qn : Nat := 0x7FC00000
  match a with
  | .nan => (qn, nvIf sa)
  | .inf s =>
    match fn with
    | .rcp => (fp32.withSign s 0, FFlags.none)
    | .rsqrt => if s then (qn, nvIf true) else (0, FFlags.none)
    | .exp2 => (if s then 0 else fp32.infCode, FFlags.none)
    | .log2 => if s then (qn, nvIf true) else (fp32.infCode, FFlags.none)
    | .tanh => (fp32.withSign s 0x3F800000, FFlags.none)
  | .fin s m e =>
    match fn with
    | .rcp =>
      if m = 0 then (fp32.withSign s fp32.infCode, { dz := true })
      else specRound ftz 0 x ((Val.fin false 1 0).div (.fin s m e)).1
    | .rsqrt =>
      if m = 0 then (fp32.withSign s fp32.infCode, { dz := true })
      else if s then (qn, nvIf true) else specRound ftz 1 x (rsqrtPos m e)
    | .exp2 => specOpen 2 x
    | .log2 =>
      if m = 0 then (fp32.withSign true fp32.infCode, { dz := true })
      else if s then (qn, nvIf true) else specOpen 3 x
    | .tanh => specOpen 4 x

/-- VSPEC on FMT 0x0-0x1; a BF16 result is the FP32 result rounded RNE (R125). -/
def vSpec (fn : SpecFn) (f : VForm) (c : Core) : CoreRes :=
  match f.fmt.toNat with
  | 0 => vmap 32 8 f c (fun x _ _ => spec32 fn c.ftz x)
  | 1 => vmap 16 16 f c (fun x _ _ =>
      let r := spec32 fn c.ftz (x * 2 ^ 16)
      let q := bf16.enc true (fp32.dec r.1) .rne 0
      (q.1, r.2.or q.2))
  | _ => CoreRes.illegal c

/-- The group size of VDOT (R129). -/
def dotGroup (k : Nat) : Nat := if k < 3 then 2 else if k = 7 ∨ 9 ≤ k then 8 else 4

/-- One float lane of VDOT: the exact sum of the addend and the products, rounded once to FP32 (R129). -/
def dotFloat (t : FltFmt) (mode : Rnd) (acc : Nat) (xs ys : List Nat) : Nat × FFlags :=
  let a := fp32.dec acc
  let s0 : Val × FFlags := (a, nvIf (fp32.isSnan acc))
  let s := (xs.zip ys).foldl (fun (st : Val × FFlags) p =>
    let (pr, i1) := (t.dec p.1).mul (t.dec p.2)
    let (sm, i2) := st.1.add pr (zeroSign mode)
    (sm, st.2.or (nvIf (i1 || i2 || t.isSnan p.1 || t.isSnan p.2)))) s0
  let r := fp32.enc true s.1 mode 0
  (r.1, r.2.or s.2)

/-- One integer lane of VDOT: the exact sum saturated to INT32, saturation setting SAT (R129). -/
def dotInt (k acc : Nat) (xs ys : List Nat) : Nat × FFlags :=
  let val (x : Nat) : Int := if k = 11 then (if x = 1 then 1 else if x = 3 then -1 else 0) else toSigned (fmtBits k) x
  let s := (xs.zip ys).foldl (fun a p => a + val p.1 * val p.2) (toSigned 32 acc)
  if (2 ^ 31 : Int) ≤ s then (2 ^ 31 - 1, { sat := true })
  else if s < -(2 ^ 31 : Int) then (2 ^ 31, { sat := true })
  else (ofSigned 32 s, FFlags.none)

/-- VDOT on FMT 0x1-0xB (R129): the predicate governs the eight lanes. -/
def vDot (f : VForm) (c : Core) : CoreRes :=
  let k := f.fmt.toNat
  let w := fmtBits k
  let g := dotGroup k
  let xs := elems w (8 * g) (c.v f.va.toNat)
  let ys := elems w (8 * g) (c.v f.vb.toNat)
  let zs := elems 32 8 (c.v f.vd.toNat)
  let lane (j : Nat) : Nat × FFlags :=
    let xj := (xs.drop (j * g)).take g
    let yj := (ys.drop (j * g)).take g
    match fltOf k with
    | some t => dotFloat t c.arithRound (zs.getD j 0) xj yj
    | none => dotInt k (zs.getD j 0) xj yj
  let rs := (List.range 8).map lane
  legalIf (decide (1 ≤ k) && decide (k < 12)) c
    (finish c (joinFlags (c.p f.pg) rs)
      (fun c' => c'.setV f.vd.toNat (ofElems 32 (mergeElems (c.p f.pg) zs (rs.map Prod.fst)))))

/-- The draws of an instruction under a mode, and the generator's state after it: STOCH alone advances it (R152). -/
def coreDraws (c : Core) (mode : Rnd) (n : Nat) : List Nat × Word64 :=
  match mode with
  | .stoch => let (ds, st) := srDraws n c.srstate.toNat; (ds, BitVec.ofNat 64 st)
  | _ => ([], c.srstate)

/-- VCVT's mode: X[20:19] of the instruction, RND (Table 5). -/
def cvtMode (c : Core) (x : BitVec 5) : Rnd :=
  match bits x.toNat 3 2 with
  | 0 => c.convRound
  | 1 => .rne
  | 2 => .rz
  | _ => .stoch

/-- VCVT (R126): the smaller of the two element counts is converted, to or from the part that PART names. -/
def vCvt (f : VCForm) (c : Core) : CoreRes :=
  let sf := f.sfmt.toNat
  let df := f.dfmt.toNat
  let ns := eltCount sf
  let nd := eltCount df
  let part := bits f.x.toNat 0 3
  let mode := cvtMode c f.x
  let m := min ns nd
  let srcAt := if nd < ns then part * nd else 0
  let dstAt := if ns < nd then part * ns else 0
  let xs := ((elems (fmtBits sf) ns (c.v f.va.toNat)).drop srcAt).take m
  let old := (c.v f.vd.toNat).toNat
  let zs := elems (fmtBits df) nd (c.v f.vd.toNat)
  let (ds, st) := coreDraws c mode m
  let one (i : Nat) : Nat × FFlags :=
    let x := xs.getD i 0
    if sf = df then (x, FFlags.none)
    else
      let r := encodeElt df (decodeElt sf x) mode (ds.getD i 0)
      let sn := match fltOf sf with | some t => t.isSnan x | none => false
      (r.1, r.2.or (nvIf sn))
  let rs := (List.range m).map one
  let act (i : Nat) : Bool := active (c.p f.pg) nd (dstAt + i)
  let fl := rs.zipIdx.foldl (fun a r => if act r.2 then a.or r.1.2 else a) FFlags.none
  let new := (List.range nd).map (fun i =>
    if dstAt ≤ i ∧ i < dstAt + m ∧ act (i - dstAt) then (rs.getD (i - dstAt) (0, FFlags.none)).1 else zs.getD i 0)
  let legal := decide (sf < 12) && decide (df < 12) && decide (max ns nd ≤ 8 * min ns nd) &&
    decide (part < max ns nd / min ns nd)
  legalIf legal c
    (finish c fl (fun c' =>
      { c' with srstate := st }.setV f.vd.toNat
        (BitVec.ofNat 256 (putBits old 0 (nd * fmtBits df) (pack (fmtBits df) new)))))

/-- Registers of the wide group of VQB, VQBX and VDQB: four from FP32, two from BF16 or FP16 (R127, R128). -/
def wideRegs (k : Nat) : Nat := if k = 0 then 4 else 2

/-- Whether VQB or VQBX is legal (R115, R127). -/
def vqbLegal (esc : Bool) (f : VCForm) : Bool :=
  decide (f.sfmt.toNat < 3) && decide (3 ≤ f.dfmt.toNat) && decide (f.dfmt.toNat < 12) &&
    decide (f.va.toNat % wideRegs f.sfmt.toNat = 0) &&
    (!esc || (decide (f.dfmt.toNat ≠ 3) && decide (f.dfmt.toNat ≠ 4) && decide (f.dfmt.toNat ≠ 8)))

/-- The 32 source values of VQB: inactive elements are +0 (R127). -/
def vqbSource (f : VCForm) (c : Core) : List Val :=
  let k := f.sfmt.toNat
  (unpack (fmtBits k) 32 (vgroup c f.va.toNat (wideRegs k))).zipIdx.map (fun p =>
    if active (c.p f.pg) 32 p.2 then decodeElt k p.1 else .fin false 0 0)

/-- The block that VQB or VQBX writes, its flags, and the generator's state after it (R127, R152, R154, R155). -/
def vqbBlock (esc : Bool) (f : VCForm) (c : Core) : QBlock × FFlags × Word64 :=
  let (ds, st) := coreDraws c c.convRound 32
  let (b, fl) := quantise f.dfmt.toNat esc (vqbSource f c) c.convRound ds
  (b, fl, st)

/-- VQB and VQBX: the packed elements in the low bytes of vd, the rest zero, the scale word in s[X] (R127, R128). -/
def vQuant (esc : Bool) (f : VCForm) (c : Core) : CoreRes :=
  let (b, fl, st) := vqbBlock esc f c
  legalIf (vqbLegal esc f) c
    (finish c fl (fun c' =>
      ({ c' with srstate := st }.setV f.vd.toNat (ofElems (fmtBits f.dfmt.toNat) b.codes)).setS f.x
        (BitVec.ofNat 64 b.scaleWord)))

/-- VDQB (R128): SFMT 0x3-0xB, DFMT 0x0-0x2, vd aligned to its group. -/
def vDequant (f : VCForm) (c : Core) : CoreRes :=
  let sf := f.sfmt.toNat
  let df := f.dfmt.toNat
  let w := (c.s f.x).toNat
  let b := QBlock.of (elems (fmtBits sf) 32 (c.v f.va.toNat)) (bits w 0 8) (bits w 8 28)
  let (ds, st) := coreDraws c c.convRound 32
  let rs := (dequantise sf b).zipIdx.map (fun p => encodeElt df p.1 c.convRound (ds.getD p.2 0))
  let n := wideRegs df
  let old := unpack (fmtBits df) 32 (vgroup c f.vd.toNat n)
  let fl := (joinFlags (c.p f.pg) rs).or (nvIf b.malformed)
  let new := mergeElems (c.p f.pg) old (rs.map Prod.fst)
  legalIf (decide (3 ≤ sf) && decide (sf < 12) && decide (df < 3) && decide (f.vd.toNat % n = 0)) c
    (finish c fl (fun c' => setVgroup { c' with srstate := st } f.vd.toNat n (pack (fmtBits df) new)))

/-- The reductions of VRED. -/
inductive RedOp where
  | sum | max | min | sumsq
  deriving DecidableEq, Repr

/-- One pairwise step of the tree over FP32 codes; none is a skipped element (R130). -/
def redPair (op : RedOp) (a b : Option Nat) : Option Nat × FFlags :=
  match a, b with
  | some x, some y =>
    let r := match op with
      | .max => fpMinMax true fp32 false x y
      | .min => fpMinMax false fp32 false x y
      | _ => fpArith .add fp32 false .rne x y
    (some r.1, r.2)
  | some x, none => (some x, FFlags.none)
  | none, y => (y, FFlags.none)

/-- One level of the fixed tree: (0, 1), (2, 3) … -/
def redLevel (op : RedOp) : List (Option Nat) → List (Option Nat) × FFlags
  | a :: b :: t =>
    let (r, f1) := redPair op a b
    let (rs, f2) := redLevel op t
    (r :: rs, f1.or f2)
  | l => (l, FFlags.none)

/-- The levels of the tree over 2^k elements. -/
def redTree (op : RedOp) : Nat → List (Option Nat) → Option Nat × FFlags
  | 0, l => (l.getD 0 none, FFlags.none)
  | k + 1, l =>
    let (l1, f1) := redLevel op l
    let (r, f2) := redTree op k l1
    (r, f1.or f2)

/-- The first level of SUMSQ: the exact squares of each pair, added and rounded once (R130). -/
def sumsqLevel : List (Option Val) → List (Option Nat) × FFlags
  | a :: b :: t =>
    let sq (v : Option Val) : Val := match v with | some x => (x.mul x).1 | none => .fin false 0 0
    let (v, inv) := (sq a).add (sq b) false
    let r := fp32.enc true v .rne 0
    let (rs, f2) := sumsqLevel t
    (some r.1 :: rs, (r.2.or (nvIf inv)).or f2)
  | _ => ([], FFlags.none)

/-- VRED on FMT 0x0-0x2 (R130): lane 0 of vd the FP32 result, the other lanes zero. -/
def vRed (op : RedOp) (f : VForm) (c : Core) : CoreRes :=
  match vfFmt f.fmt.toNat with
  | none => CoreRes.illegal c
  | some t =>
    let n := eltCount f.fmt.toNat
    let xs := elems t.width n (c.v f.va.toNat)
    let act (i : Nat) : Bool := active (c.p f.pg) n i
    let lv := Nat.log2 n
    let nan := (List.range n).any (fun i => act i && decide (t.dec (xs.getD i 0) = .nan))
    let sn := (List.range n).any (fun i => act i && t.isSnan (xs.getD i 0))
    let to32 (x : Nat) : Nat := (fp32.enc true (t.dec x) .rne 0).1
    let res : Nat × FFlags :=
      if nan then (0x7FC00000, nvIf sn)
      else
        match op with
        | .sum =>
          let (r, fl) := redTree .sum lv ((List.range n).map (fun i => some (if act i then to32 (xs.getD i 0) else 0)))
          (r.getD 0, fl)
        | .sumsq =>
          let (l1, f1) := sumsqLevel ((List.range n).map (fun i => if act i then some (t.dec (xs.getD i 0)) else none))
          let (r, f2) := redTree .sum (lv - 1) l1
          (r.getD 0, f1.or f2)
        | .max =>
          let (r, fl) := redTree .max lv ((List.range n).map (fun i => if act i then some (to32 (xs.getD i 0)) else none))
          (r.getD 0xFF800000, fl)
        | .min =>
          let (r, fl) := redTree .min lv ((List.range n).map (fun i => if act i then some (to32 (xs.getD i 0)) else none))
          (r.getD 0x7F800000, fl)
    finish c res.2 (fun c' => c'.setV f.vd.toNat (BitVec.ofNat 256 res.1))

/-- A VPERM result of `w`-bit elements written under the predicate; FMT is a width code 0-3 (R115, R109). -/
def permOut (f : VForm) (c : Core) (new : List Nat) : CoreRes :=
  let w := widthOf f.fmt.toNat
  let n := 256 / w
  let old := elems w n (c.v f.vd.toNat)
  legalIf (decide (f.fmt.toNat < 4)) c
    (.ok (c.setV f.vd.toNat (ofElems w (mergeElems (c.p f.pg) old new))).adv)

/-- The elements of a register at VPERM's width. -/
def permElems (f : VForm) (c : Core) (r : BitVec 5) : List Nat :=
  elems (widthOf f.fmt.toNat) (256 / widthOf f.fmt.toNat) (c.v r.toNat)

/-- VPERMB: byte i from byte (vb byte i) mod 32 of va. -/
def vPermb (f : VForm) (c : Core) : CoreRes :=
  let xs := elems 8 32 (c.v f.va.toNat)
  let ix := elems 8 32 (c.v f.vb.toNat)
  let r := ofElems 8 (ix.map (fun i => xs.getD (i % 32) 0))
  permOut f c (elems (widthOf f.fmt.toNat) (256 / widthOf f.fmt.toNat) r)

/-- VBCST: every element from s[va]. -/
def vBcst (f : VForm) (c : Core) : CoreRes :=
  let w := widthOf f.fmt.toNat
  permOut f c (List.replicate (256 / w) ((c.s f.va).toNat % 2 ^ w))

/-- VGET: s[vd] := element s[vb] of va; an index at or above n raises ILLEGAL. -/
def vGet (f : VForm) (c : Core) : CoreRes :=
  let w := widthOf f.fmt.toNat
  let i := (c.s f.vb).toNat
  legalIf (decide (f.fmt.toNat < 4) && decide (i < 256 / w)) c
    (putS c f.vd (BitVec.ofNat 64 (getElt (c.v f.va.toNat).toNat w i)))

/-- VSET: element s[vb] of vd := s[va]; an index at or above n raises ILLEGAL. -/
def vSet (f : VForm) (c : Core) : CoreRes :=
  let w := widthOf f.fmt.toNat
  let i := (c.s f.vb).toNat
  let old := permElems f c f.vd
  legalIf (decide (f.fmt.toNat < 4) && decide (i < 256 / w)) c
    (permOut f c (old.set i ((c.s f.va).toNat % 2 ^ w)))

/-- VSLIDE: down by s[vb] elements, zero at the top. -/
def vSlide (f : VForm) (c : Core) : CoreRes :=
  let xs := permElems f c f.va
  let k := (c.s f.vb).toNat
  permOut f c ((List.range xs.length).map (fun i => xs.getD (i + k) 0))

/-- VZIPLO and VZIPHI: the low or high halves of va and vb interleaved, va first. -/
def vZip (hi : Bool) (f : VForm) (c : Core) : CoreRes :=
  let xs := permElems f c f.va
  let ys := permElems f c f.vb
  let o := if hi then xs.length / 2 else 0
  permOut f c ((List.range xs.length).map (fun i => if i % 2 = 0 then xs.getD (o + i / 2) 0 else ys.getD (o + i / 2) 0))

/-- VMOV. -/
def vMov (f : VForm) (c : Core) : CoreRes := permOut f c (permElems f c f.va)

end Sys2Proof.Machine
end

