-- ==== Sys2Proof/Machine/Sea.lean ====
section
/-! DEFINITION. How a Fraxo core runs one instruction (04, 05): what it may address (R84-R86), its loads, stores and atomics, and
how an instruction ends: retired, an exception, or waiting. An instruction arrives as a command with its fields; the model does not
fetch (log entry 22). -/

namespace Sys2Proof.Machine

/-- Number of a core: floe × 128 + index. -/
def coreNum (c : CoreId) : Nat := c.floe.toNat * 128 + c.core.toNat

/-- The floe number names a floe (R82). -/
def Hub.floeExists (h : Hub) (f : Nat) : Bool := decide (f % 256 < 196) && decide (f / 256 < h.dies)

/-- The launch whose tile a core runs. -/
def Hub.launchOf (h : Hub) (x : Core) : Option Launch := tlook h.sea.launches (x.launch - 1)

/-- Partition of a core's launch. -/
def Hub.corePart (h : Hub) (x : Core) : Nat := match h.launchOf x with | some l => l.part | none => 31

/-- LAUNCH_ID of a core's launch. -/
def Hub.coreLaunchId (h : Hub) (x : Core) : Nat := match h.launchOf x with | some l => l.id | none => 0

/-- CODE_LEN of a core's launch (R117). -/
def Hub.codeLen (h : Hub) (x : Core) : Nat := match h.launchOf x with | some l => l.f 8 4 | none => 0

-- Encoding, as the kernel fault record shows it (Tables 4 and 5 of 05)

/-- R format. -/
def encR (maj fn : Nat) (f : RForm) : Nat :=
  maj + f.rd.toNat * 2 ^ 6 + f.rs1.toNat * 2 ^ 11 + f.rs2.toNat * 2 ^ 16 + f.x.toNat * 2 ^ 21 + fn * 2 ^ 26
/-- I format. -/
def encI (maj : Nat) (f : IForm) : Nat := maj + f.rd.toNat * 2 ^ 6 + f.rs1.toNat * 2 ^ 11 + f.imm.toNat * 2 ^ 16
/-- I format with IMM[15:12] fixed. -/
def encI12 (maj hi : Nat) (f : I12Form) : Nat :=
  maj + f.rd.toNat * 2 ^ 6 + f.rs1.toNat * 2 ^ 11 + f.imm.toNat * 2 ^ 16 + hi * 2 ^ 28
/-- I format with IMM[3:0] fixed (SYS). -/
def encSys (lo : Nat) (f : I12Form) : Nat :=
  0x0E + f.rd.toNat * 2 ^ 6 + f.rs1.toNat * 2 ^ 11 + lo * 2 ^ 16 + f.imm.toNat * 2 ^ 20
/-- I format with IMM[1:0] fixed (FENCE). -/
def encFence (lo : Nat) (f : I14Form) : Nat :=
  0x2C + f.rd.toNat * 2 ^ 6 + f.rs1.toNat * 2 ^ 11 + lo * 2 ^ 16 + f.imm.toNat * 2 ^ 18
/-- S format. -/
def encS (maj : Nat) (f : SForm) : Nat := maj + f.rs2.toNat * 2 ^ 6 + f.rs1.toNat * 2 ^ 11 + f.imm.toNat * 2 ^ 16
/-- B format. -/
def encB (maj : Nat) (f : BForm) : Nat := maj + f.rs1.toNat * 2 ^ 6 + f.rs2.toNat * 2 ^ 11 + f.imm.toNat * 2 ^ 16
/-- J format. -/
def encJ (maj : Nat) (f : JForm) : Nat := maj + f.rd.toNat * 2 ^ 6 + f.imm.toNat * 2 ^ 11
/-- M format. -/
def encM (maj : Nat) (f : MForm) : Nat :=
  maj + f.rd.toNat * 2 ^ 6 + f.hw.toNat * 2 ^ 11 + f.res.toNat * 2 ^ 13 + f.imm.toNat * 2 ^ 16
/-- V format. -/
def encV (maj fn : Nat) (f : VForm) : Nat :=
  maj + f.vd.toNat * 2 ^ 6 + f.va.toNat * 2 ^ 11 + f.vb.toNat * 2 ^ 16 + f.pg.toNat * 2 ^ 21 + f.fmt.toNat * 2 ^ 24 + fn * 2 ^ 28
/-- VM format. -/
def encVM (maj : Nat) (f : VMForm) : Nat :=
  maj + f.vd.toNat * 2 ^ 6 + f.rs1.toNat * 2 ^ 11 + f.pg.toNat * 2 ^ 16 + f.imm.toNat * 2 ^ 19
/-- VC format. -/
def encVC (maj : Nat) (f : VCForm) : Nat :=
  maj + f.vd.toNat * 2 ^ 6 + f.va.toNat * 2 ^ 11 + f.x.toNat * 2 ^ 16 + f.pg.toNat * 2 ^ 21 + f.dfmt.toNat * 2 ^ 24 + f.sfmt.toNat * 2 ^ 28
/-- P format. -/
def encP (fn : Nat) (f : PForm) : Nat :=
  0x34 + f.d.toNat * 2 ^ 6 + f.a.toNat * 2 ^ 11 + f.b.toNat * 2 ^ 16 + f.res.toNat * 2 ^ 21 + fn * 2 ^ 28

-- How an instruction ends

/-- What an instruction does: it retires with the machine and its core as given; it raises an exception (code, ADDR, TRAP_CODE), its
core carrying the flags it set; or its core waits and issues it again. -/
inductive Iss where
  | done (s : State) (c : Core)
  | exc (s : State) (c : Core) (code addr trap : Nat)
  | stall (s : State) (run : CoreRun)

/-- An instruction of a core that may issue: word `w` is what the fault record shows (R138, R140, R141). A core that may not issue
runs nothing. -/
def issue (c : CoreId) (w : Nat) (body : Nat → Core → State → Iss) (s : State) : Host.Outcome State Fault Refusal :=
  let n := coreNum c
  if !s.hub.floeExists c.floe.toNat then .fault .noSuchUnit
  else
    let x := s.hub.core n
    if x.run ≠ .ready then .next s
    else
      match body n x s with
      | .done s x => .next (s.onHub (·.setCore n { x with instret := x.instret + 1, rem := [], stalled := (0, 0), paid := false }))
      | .exc s x code addr trap => .next (s.onHub (fun h => (h.setCore n x).coreExc n code w addr trap (bits x.fflags.toNat 0 8)))
      | .stall s run =>
        .next (s.onHub (fun h => let x := h.core n; h.setCore n { x with run := run, stalled := (w, x.stalled.2) }))

/-- An instruction over the core alone. -/
def pureIss (g : Core → CoreRes) (_ : Nat) (x : Core) (s : State) : Iss :=
  match g x with
  | .ok x => .done s x
  | .exc code addr x => .exc s x code addr 0

/-- A branch: what it does over the core with the launch's CODE_LEN. -/
def jumpIss (g : Nat → Core → CoreRes) (n : Nat) (x : Core) (s : State) : Iss := pureIss (g (s.hub.codeLen x)) n x s

/-- A conditional branch with its predicted direction (R24): FLC_PERF_MISPRED counts one that retires mispredicted. -/
def branchIss (taken : Core → Bool) (imm : BitVec 16) (g : Nat → Core → CoreRes) (n : Nat) (x : Core) (s : State) : Iss :=
  match jumpIss g n x s with
  | .done s y => .done (if mispredicted (taken x) imm then s.onHub (·.wrap (Reg.flcPerfMispredCount (n / 128)) 1) else s) y
  | r => r

/-- A vector FMA: FLC_PERF_VFMA counts it. -/
def fmaIss (g : Core → CoreRes) (n : Nat) (x : Core) (s : State) : Iss :=
  pureIss g n x (s.onHub (·.wrap (Reg.flcPerfVfmaCount (n / 128)) 1))

/-- What the read-only CSRs show a core (Table 2 of 05; log entry 3 for CYCLE and TIME). -/
def Hub.csrEnv (h : Hub) (n : Nat) (x : Core) : CsrEnv :=
  ⟨Config.cycles h.fresh, Config.timeNs h.fresh, n % 128 + 2 ^ 7 * (n / 128) + 2 ^ 16 * h.corePart x, h.coreLaunchId x + 2 ^ 32 * x.tile⟩

/-- A CSR instruction. -/
def csrIss (g : CsrEnv → Core → CoreRes) (n : Nat) (x : Core) (s : State) : Iss :=
  pureIss (g (s.hub.csrEnv n x)) n x (s.onHub (fun h => { h with fresh := h.fresh + 1 }))

-- Addresses

/-- Where a device virtual address of a core leads (R84, R86). -/
inductive Where where
  | here (a : Nat)       -- an address of the byte memory: private memory, floe memory, event counters
  | undef                -- WINDOW
  | xlat                 -- translated
  deriving DecidableEq, Repr

/-- The local window (Table 2): `n` bytes at `va` from a core of partition `p`. -/
def Hub.window (h : Hub) (core p va n : Nat) : Where :=
  if va / 2 ^ 40 ≠ 0xFFF then .xlat
  else
    let w := va % 2 ^ 40
    let f := core / 128
    if w + n ≤ 0x4000 then .here (privBase core + w)
    else if 0x100000000 ≤ w ∧ w + n ≤ 0x100100000 then .here (floeHpa f + (w - 0x100000000))
    else if 0x200000000 ≤ w ∧ w + n ≤ 0x200000100 then .here (eventHpa f 0 + (w - 0x200000000))
    else if 0x1000000000 ≤ w then
      let b := w - 0x1000000000
      let d := b / 0x10000000
      let r := b % 0x10000000
      let g := d * 256 + r / 0x100000
      let e := d * 256 + (r - 0xC800000) / 0x100
      if r < 0xC400000 then
        if h.floeExists g ∧ h.floeOwner g = p ∧ r % 0x100000 + n ≤ 0x100000 then .here (floeHpa g + r % 0x100000) else .undef
      else if 0xC800000 ≤ r ∧ h.floeExists e ∧ h.floeOwner e = p ∧ r % 0x100 + n ≤ 0x100 then .here (eventHpa e 0 + r % 0x100)
      else .undef
    else .undef

/-- An access of a core as the translation sees it. -/
def Hub.coreAcc (h : Hub) (core : Nat) (x : Core) (va : Nat) (k : AccKind) : XAcc :=
  ⟨core / 128 / 256, ⟨0, core / 128, h.coreLaunchId x⟩, h.corePart x, h.corePart x, va, k, .core core⟩

/-- The regulator's admission of an instruction that leaves the floe, once (R322). None: the core waits at the port. -/
def State.coreAdmit (s : State) (core : Nat) (x : Core) (bytes : Nat) : Option State :=
  if (s.hub.core core).paid || x.paid then some s
  else
    let r := s.hub.admitReq (floePort (core / 128)) bytes (.core core bytes)
    if r.1 then some { s with hub := r.2.setCore core { r.2.core core with paid := true } } else none

/-- The machine after a refused admission: the core is in its port's queue. -/
def State.coreQueue (s : State) (core bytes : Nat) : State :=
  { s with hub := (s.hub.admitReq (floePort (core / 128)) bytes (.core core bytes)).2 }

/-- What one access of an instruction gives: the bytes as a number and poison; an exception; or the core waits. -/
inductive Got where
  | ok (s : State) (v : Nat) (bad : Bool)
  | exc (s : State) (code : Nat)
  | stall (s : State) (run : CoreRun)

/-- The stalled access noted. -/
def State.stallAt (s : State) (core va : Nat) : State :=
  s.onHub (fun h => let x := h.core core; h.setCore core { x with stalled := (x.stalled.1, va) })

/-- The answer that an access to a remote window got, if it has one. -/
def Core.remAt (x : Core) (hpa : Nat) : Option (Nat × Bool) := (x.rem.find? (fun r => decide (r.1 = hpa))).map (·.2)

/-- The translated part of an access: admitted, translated, counted; then `go` with the HPA. -/
def State.coreXlat (s : State) (core : Nat) (x : Core) (va n : Nat) (k : AccKind) (go : State → Nat → Got) : Got :=
  match s.coreAdmit core x n with
  | none => .stall (s.coreQueue core n) .parked
  | some s =>
    match s.translate (s.hub.coreAcc core x va k) with
    | (none, s) => .stall (s.stallAt core va) .parked
    | (some a, s) => go (s.onHub (·.qosCount (floePort (core / 128)) a n (decide (k = .write)))) a

/-- A request of a core to a remote window sent (R384), with what its master must answer. -/
def State.coreRemote (s : State) (core : Nat) (x : Core) (type detail a rlen rights len : Nat) (data : List Byte) : Nat × State :=
  let slot := (a - 0x400000000000) / 2 ^ 36
  let off := (a - 0x400000000000) % 2 ^ 36
  let p := s.hub.corePart x
  let st := s.hub.importCheck p slot off len rights
  if st ≠ 0 then (st, s)
  else
    let who := if type = 1 then RemWho.coreStore core p a else .coreLoad core
    let r := s.hub.sendImport p (core / 128 / 256) slot (s.hub.importReq slot type detail off rlen data false who a)
    if r.2 then (0, { s with hub := r.1 }) else (0x0A, { s with hub := r.1 })

/-- A load at an HPA. -/
def State.coreLoadAt (s : State) (core : Nat) (x : Core) (n a : Nat) : Got :=
  match s.hub.region a with
  | .window _ _ =>
    match x.remAt a with
    | some (v, bad) => .ok s (v % 2 ^ (8 * n)) bad
    | none =>
      if s.hub.isOut (.coreLoad core) a then .stall s .remote
      else
        let r := s.coreRemote core x 2 0 a n 1 n []
        if r.1 ≠ 0 then .ok r.2 0 true else .stall r.2 .remote
  | _ =>
    let r := s.hubRead (.part (s.hub.corePart x)) a n true
    .ok r.s r.v (decide (r.bad ≠ 0) || decide (r.st ≠ 0))

/-- A load of `n` bytes (R118, R86). -/
def State.coreLoad (s : State) (core : Nat) (x : Core) (va n : Nat) : Got :=
  match s.hub.window core (s.hub.corePart x) va n with
  | .undef => .exc s 0x03
  | .here a => .ok s (s.mem.rd a n) (s.mem.bad a n)
  | .xlat => s.coreXlat core x va n .read (fun s a => s.coreLoadAt core x n a)

/-- A store that failed at a remote window (R388): discarded, recorded, and complete. -/
def State.storeErr (s : State) (p hpa st : Nat) : State :=
  s.onHub (fun h => (h.sets [(Reg.winErrHpa, hpa), (Reg.winErrStatus, st), (Reg.winErrPartition, p), (Reg.winErrValid, 1)]).linkEvent p
    Reg.lnkEventRemoteErr)

/-- A store at an HPA; a doorbell takes it in the internal register space (R234, R294). -/
def State.coreStoreAt (s : State) (core : Nat) (x : Core) (n v a : Nat) : Got :=
  match s.hub.region a with
  | .window _ _ =>
    match x.remAt a with
    | some _ => .ok s 0 false
    | none =>
      let r := s.coreRemote core x 1 0 a 0 2 n (leBytes n v)
      let s := if r.1 ≠ 0 then r.2.storeErr (s.hub.corePart x) a r.1 else r.2
      .ok (s.onHub (fun h => let y := h.core core; h.setCore core { y with rem := y.rem ++ [(a, 0, false)] })) 0 false
  | _ => .ok (s.mwrite (.part (s.hub.corePart x)) true v 0 [(a, n)]).s 0 false

/-- A store of `n` bytes (R118). -/
def State.coreStore (s : State) (core : Nat) (x : Core) (va n v : Nat) : Got :=
  match s.hub.window core (s.hub.corePart x) va n with
  | .undef => .exc s 0x03
  | .here a => .ok { s with mem := s.mem.storeBits a n v 0 } 0 false
  | .xlat => s.coreXlat core x va n .write (fun s a => s.coreStoreAt core x n v a)

-- Loads and stores (R116, R118)

/-- Exception, stall or continuation of an access. -/
def Got.bind (g : Got) (x : Core) (va : Nat) (f : State → Nat → Iss) : Iss :=
  match g with
  | .ok s v false => f s v
  | .ok s _ true => .exc s x 0x05 va 0
  | .exc s code => .exc s x code va 0
  | .stall s run => .stall s run

/-- A scalar load of `n` bytes, sign-extended or not. -/
def loadIss (n : Nat) (signed : Bool) (f : IForm) (core : Nat) (x : Core) (s : State) : Iss :=
  let va := (scalarAddr x f.rs1 f.imm).toNat
  if va % n ≠ 0 then .exc s x 0x02 va 0
  else
    (s.coreLoad core x va n).bind x va (fun s v =>
      .done s (x.setS f.rd (if signed then BitVec.ofInt 64 (toSigned (8 * n) v) else BitVec.ofNat 64 v)).adv)

/-- A scalar store of `n` bytes. -/
def storeIss (n : Nat) (f : SForm) (core : Nat) (x : Core) (s : State) : Iss :=
  let va := (scalarAddr x f.rs1 f.imm).toNat
  if va % n ≠ 0 then .exc s x 0x02 va 0
  else (s.coreStore core x va n ((x.s f.rs2).toNat % 2 ^ (8 * n))).bind x va (fun s _ => .done s x.adv)

/-- Active 32-bit elements of a vector access, as (element, address). -/
def activeAddrs (p : Word64) (addr : Nat → Nat) : List (Nat × Nat) :=
  ((List.range 8).filter (fun i => p.getLsbD i)).map (fun i => (i, addr i))

/-- Elements loaded in order into a vector register's eight words. -/
def loadElts (core : Nat) (x : Core) (v : Nat) (done : State → Nat → Iss) : State → List (Nat × Nat) → Iss
  | s, [] => done s v
  | s, (i, va) :: t => (s.coreLoad core x va 4).bind x va (fun s w => loadElts core x (putBits v (32 * i) 32 w) done s t)

/-- Elements stored in order. -/
def storeElts (core : Nat) (x : Core) (v : Nat) : State → List (Nat × Nat) → Iss
  | s, [] => .done s x.adv
  | s, (i, va) :: t => (s.coreStore core x va 4 (bits v (32 * i) 32)).bind x va (fun s _ => storeElts core x v s t)

/-- VLD: 32 bytes, predicate per 32-bit word (R109, R118). -/
def vldIss (f : VMForm) (core : Nat) (x : Core) (s : State) : Iss :=
  let va := (vectorAddr x f.rs1 f.imm).toNat
  let p := x.p f.pg
  if va % 32 ≠ 0 then .exc s x 0x02 va 0
  else if bits p.toNat 0 8 = 255 then
    (s.coreLoad core x va 32).bind x va (fun s v => .done s (x.setV f.vd.toNat (BitVec.ofNat 256 v)).adv)
  else
    loadElts core x (x.v f.vd.toNat).toNat (fun s v => .done s (x.setV f.vd.toNat (BitVec.ofNat 256 v)).adv) s
      (activeAddrs p (fun i => va + 4 * i))

/-- VST. -/
def vstIss (f : VMForm) (core : Nat) (x : Core) (s : State) : Iss :=
  let va := (vectorAddr x f.rs1 f.imm).toNat
  let p := x.p f.pg
  let v := (x.v f.vd.toNat).toNat
  if va % 32 ≠ 0 then .exc s x 0x02 va 0
  else if bits p.toNat 0 8 = 255 then (s.coreStore core x va 32 v).bind x va (fun s _ => .done s x.adv)
  else storeElts core x v s (activeAddrs p (fun i => va + 4 * i))

/-- The element addresses of VLDX and VSTX: s[vb] + va[i], the element zero-extended (R122; log entry 24). -/
def idxAddr (x : Core) (f : VForm) (i : Nat) : Nat := ((x.s f.vb).toNat + bits (x.v f.va.toNat).toNat (32 * i) 32) % 2 ^ 64

/-- A gather or scatter with every active address aligned (log entry 24), FMT zero. -/
def idxIss (f : VForm) (x : Core) (s : State) (go : List (Nat × Nat) → Iss) : Iss :=
  let l := activeAddrs (x.p f.pg) (idxAddr x f)
  if f.fmt ≠ 0 then .exc s x 0x01 0 0
  else match l.find? (fun a => decide (a.2 % 4 ≠ 0)) with
    | some a => .exc s x 0x02 a.2 0
    | none => go l

/-- VLDX (R122). -/
def vldxIss (f : VForm) (core : Nat) (x : Core) (s : State) : Iss :=
  idxIss f x s (loadElts core x (x.v f.vd.toNat).toNat (fun s v => .done s (x.setV f.vd.toNat (BitVec.ofNat 256 v)).adv) s)

/-- VSTX (R122): where two active elements name an address, the higher one is written last. -/
def vstxIss (f : VForm) (core : Nat) (x : Core) (s : State) : Iss := idxIss f x s (storeElts core x (x.v f.vd.toNat).toNat s)

-- Atomics (R121, R287)

/-- The AMO functions by their FN code. -/
def amoVal (fn w old opnd cmp : Nat) : Nat :=
  let a := toSigned w old
  let b := toSigned w opnd
  let r := match fn with
    | 0 => old + opnd
    | 1 => old &&& opnd
    | 2 => old ||| opnd
    | 3 => old ^^^ opnd
    | 4 => if a ≤ b then old else opnd
    | 5 => if a < b then opnd else old
    | 6 => if old % 2 ^ w ≤ opnd % 2 ^ w then old else opnd
    | 7 => if old % 2 ^ w < opnd % 2 ^ w then opnd else old
    | 8 => opnd
    | _ => if old % 2 ^ w = cmp % 2 ^ w then opnd else old
  r % 2 ^ w

/-- An atomic at an address of the byte memory (private memory, floe memory, event counters). -/
def State.amoHere (s : State) (fn n a opnd cmp : Nat) : Got :=
  let old := s.mem.rd a n
  if s.mem.bad a n then .ok s old true
  else .ok { s with mem := s.mem.wr a n (amoVal fn (8 * n) old opnd cmp) } old false

/-- An atomic at an HPA of the hub (R121), one indivisible step: a status, the old value and poison. -/
def State.amoAt (s : State) (o : Org) (fn n a opnd cmp : Nat) (alloc : Bool) : Ret :=
  let r := s.hubRead o a n alloc
  if r.st ≠ 0 ∨ r.bad ≠ 0 then ⟨r.st, r.v, r.bad, r.s⟩
  else
    let q := r.s.hubWrite o a n (amoVal fn (8 * n) r.v opnd cmp) 0 alloc
    ⟨q.st, r.v, 0, q.s⟩

/-- An atomic of a core at an HPA, remote windows among them. -/
def State.coreAmoAt (s : State) (core : Nat) (x : Core) (fn n opnd cmp a : Nat) : Got :=
  match s.hub.region a with
  | .window _ _ =>
    match x.remAt a with
    | some (v, bad) => .ok s (v % 2 ^ (8 * n)) bad
    | none =>
      if s.hub.isOut (.coreLoad core) a then .stall s .remote
      else
        let r := s.coreRemote core x 4 (fn + (if n = 8 then 16 else 0)) a 0 7 n (leBytes 8 opnd ++ leBytes 8 cmp)
        if r.1 ≠ 0 then .ok r.2 0 true else .stall r.2 .remote
  | _ =>
    let r := s.amoAt (.part (s.hub.corePart x)) fn n a opnd cmp true
    .ok r.s r.v (decide (r.bad ≠ 0) || decide (r.st ≠ 0))

/-- AMO (R121): X[2] 64-bit; AQ and RL order what this model does in order; X[4:3] reserved. The old value of a 32-bit atomic is
zero-extended (log entry 25). -/
def amoIss (fn : Nat) (f : RForm) (core : Nat) (x : Core) (s : State) : Iss :=
  let n := if f.x.getLsbD 2 then 8 else 4
  let va := (x.s f.rs1).toNat
  let opnd := (x.s f.rs2).toNat % 2 ^ (8 * n)
  let cmp := if fn = 9 then (x.s f.rd).toNat % 2 ^ (8 * n) else 0
  if bits f.x.toNat 3 2 ≠ 0 then .exc s x 0x01 0 0
  else if va % n ≠ 0 then .exc s x 0x02 va 0
  else
    let got : Got := match s.hub.window core (s.hub.corePart x) va n with
      | .undef => .exc s 0x03
      | .here a => s.amoHere fn n a opnd cmp
      | .xlat => s.coreXlat core x va n .atomic (fun s a => s.coreAmoAt core x fn n opnd cmp a)
    got.bind x va (fun s v => .done s (x.setS f.rd (BitVec.ofNat 64 v)).adv)

-- Fences (R120)

/-- A posted store of the core to a remote window is not yet acknowledged. -/
def Hub.storesOut (h : Hub) (core : Nat) : Bool :=
  h.allOut.any (fun r => match r.who with | .coreStore c _ _ => decide (c = core) | _ => false)

/-- What waits for the core's earlier stores (R120): every access of this model but a remote store is complete when its instruction
retires. -/
def afterStores (core : Nat) (s : State) (r : Iss) : Iss := if s.hub.storesOut core then .stall s .remote else r

/-- A fence: reserved fields zero, then FENCE.ST's wait where it has one. -/
def fenceIss (legal wait : Bool) (core : Nat) (x : Core) (s : State) : Iss :=
  if !legal then .exc s x 0x01 0 0
  else if wait then afterStores core s (.done s x.adv) else .done s x.adv

end Sys2Proof.Machine
end

