-- ==== Sys2Proof/Machine/Eep.lean ====
section
/-! DEFINITION. EEP requests and events of engines (12: R276-R295, R299, R307). A request passes the checks of R284-R289, waits for its
port's regulator, and then runs: `engRun` translates it, moves its data and answers it, and is called again whenever something it waited
for has happened. -/

namespace Sys2Proof.Machine

-- Headers (Tables 3 and 5)

/-- A field of a header. -/
def hf (h : BitVec 128) (lo len : Nat) : Nat := bits h.toNat lo len

/-- Stored side of a request: VA. -/
def reqVa (h : BitVec 128) : Nat := hf h 64 52
/-- Bytes of the delivered side. -/
def reqLen (h : BitVec 128) : Nat := 32 * (hf h 116 8 + 1)
/-- DFMT. -/
def reqDfmt (h : BitVec 128) : Nat := hf h 40 8
/-- SFMT. -/
def reqSfmt (h : BitVec 128) : Nat := hf h 48 8
/-- The tensor tag. -/
def reqTag (h : BitVec 128) : Option Nat := if hf h 12 1 = 1 then some (hf h 56 8) else none
/-- The allocating hint. -/
def reqAlloc (h : BitVec 128) : Bool := bitAt h.toNat 11

/-- The rounding mode of a request. -/
def reqRound (h : BitVec 128) : Rnd := Rnd.ofCode (hf h 13 3)

/-- Bytes of data flits as one number. -/
def flitNat (l : List (BitVec 512)) : Nat := l.foldr (fun f acc => f.toNat + 2 ^ 512 * acc) 0

/-- Operations that an engine sends (Table 2). -/
def engineOps : List Nat := [0x00, 0x01, 0x02, 0x03, 0x04, 0x05, 0x06, 0xE1, 0xE2, 0xE4, 0xE5, 0xF0]

/-- Data flits that a request carries (Table 2). -/
def reqFlits (h : BitVec 128) : Nat :=
  match hdrOp h with
  | 2 => (hf h 116 8 + 2) / 2
  | 3 => 1
  | 4 => 1
  | _ => 0

-- Engines

/-- A field of an engine's descriptor (Table 9). -/
def Hub.engDesc (h : Hub) (e off size : Nat) : Nat := bits (h.get (Reg.siteEngDescDesc e)) (8 * off) (8 * size)

/-- MIN_ACC of a partition for a format code (R168). -/
def minAccFld (p c : Nat) : Fld := ⟨0x1100008 + 0x20 * p + c / 8 * 8, c % 8 * 8, 8, if c < 3 then 0 else 32⟩

/-- The site takes flits: it is ACTIVE (R306). -/
def Hub.siteUp (h : Hub) (s : Nat) : Bool := decide (h.get (Reg.siteStatusState s) = 2) || decide (h.get (Reg.siteStatusState s) = 3)

/-- An ASID is granted to an engine, at admission (R252). -/
def Hub.granted (h : Hub) (e a : Nat) : Bool :=
  ((decide (h.get (Reg.xltGrantAsid0 e) = a) && h.on (Reg.xltGrantV0 e)) || (decide (h.get (Reg.xltGrantAsid1 e) = a) && h.on (Reg.xltGrantV1 e))
    || (decide (h.get (Reg.xltGrantAsid2 e) = a) && h.on (Reg.xltGrantV2 e)) || (decide (h.get (Reg.xltGrantAsid3 e) = a) && h.on (Reg.xltGrantV3 e)))
    && decide (h.get (Reg.xltAsPartition a) = h.engOwner e)

-- Well-formedness (R284, R286, R287)

/-- Stored bytes that the delivered length gives under the two formats (R284, R286); none: it is not whole. -/
def storedLen (df sf n : Nat) : Option Nat :=
  let d := FmtByte.ofNat df
  let s := FmtByte.ofNat sf
  if (d.blk || s.blk) && decide (n % groupSize d ≠ 0) then none
  else if df = sf then some n
  else match rowElems d n with
    | none => none
    | some k => rowLen s k

/-- What all requests require: bits that Table 3 reserves, an aligned VA, a legal ROUND for the minor in force. -/
def reqCommon (h : BitVec 128) (minor : Nat) : Bool :=
  decide (hf h 124 4 = 0) && decide (reqVa h % 32 = 0) && decide (hf h 13 3 ≤ (if minor = 0 then 3 else 4))

/-- A request with data on the stored side fits below the top of the address space. -/
def reqFits (h : BitVec 128) : Bool :=
  match storedLen (reqDfmt h) (reqSfmt h) (reqLen h) with
  | some n => decide (reqVa h + n ≤ 2 ^ 52)
  | none => false

/-- A request is well formed (R284, R286, R287). -/
def wellFormed (r : EngReq) (minor : Nat) : Bool :=
  let h := r.hdr
  let d := flitNat r.data
  match hdrOp h with
  | 1 => reqCommon h minor && fmtLegal (reqDfmt h) && fmtLegal (reqSfmt h) && reqFits h
  | 2 => reqCommon h minor && fmtLegal (reqDfmt h) && fmtLegal (reqSfmt h) && reqFits h
  | 3 => reqCommon h minor && fmtLegal (reqDfmt h) && decide (reqDfmt h = reqSfmt h) && decide (reqDfmt h < 16) && decide (hf h 116 8 = 0)
  | 4 =>
    let n := if bitAt (reqDfmt h) 4 then 8 else 4
    let cas := decide (reqDfmt h % 16 = 9)
    decide (hf h 124 4 = 0) && decide (hf h 13 3 ≤ (if minor = 0 then 3 else 4)) && decide (reqVa h % n = 0)
      && decide (reqDfmt h < 32) && decide (reqDfmt h % 16 ≤ 9) && decide (reqSfmt h = 0) && decide (hf h 116 8 = 0)
      && decide (d / 2 ^ 128 = 0) && (cas || decide (d / 2 ^ 64 = 0))
      && (decide (n = 8) || (decide (bits d 32 32 = 0) && decide (bits d 96 32 = 0)))
  | 5 => reqCommon h minor && decide (reqDfmt h < 4) && decide (reqSfmt h = 0) && decide (reqVa h % 128 = 0) && decide (reqLen h % 128 = 0)
  | 6 => reqCommon h minor && fmtLegal (reqDfmt h) && decide (reqSfmt h = 0) && decide (reqVa h + reqLen h ≤ 2 ^ 52)
  | _ => false

/-- A format byte is declared by the engine for a direction: 0 RD, 1 WR (R285). -/
def Hub.declared (h : Hub) (e f dir : Nat) : Bool :=
  let b := FmtByte.ofNat f
  let x := h.engDesc e (8 + 2 * b.code) 1
  bitAt x dir && (!b.blk || bitAt x 2) && (!b.esc || bitAt x 3)

/-- The checks of R289 in order: 0 passes. -/
def Hub.engState (h : Hub) (e : Nat) : Nat :=
  let p := h.engOwner e
  if 24 ≤ p then 0x30
  else if h.get (Reg.siteEngStatusState e) = 3 then 0x31
  else if h.partState p = 4 then 0x10
  else if h.partState p ≠ 2 ∧ h.partState p ≠ 3 then 0x0D
  else 0

/-- The format checks of R285: FORMAT_UNDECLARED. -/
def Hub.engFormats (h : Hub) (r : EngReq) : Nat :=
  let minor := h.get (Reg.siteStatusMinor (r.e / 8))
  let d := reqDfmt r.hdr
  let op := hdrOp r.hdr
  if op = 1 ∨ op = 2 ∨ op = 3 then
    if minor = 0 ∧ ((FmtByte.ofNat d).esc ∨ (FmtByte.ofNat (reqSfmt r.hdr)).esc) then 0x32
    else if h.declared r.e d (if op = 1 then 0 else 1) then 0 else 0x32
  else 0

/-- The accumulator check of R168: the declared width is below MIN_ACC of the format delivered. -/
def Hub.accBad (h : Hub) (r : EngReq) : Bool :=
  let c := reqDfmt r.hdr % 16
  let m := h.get (minAccFld (h.engOwner r.e) c)
  decide (hdrOp r.hdr = 1) && decide (m ≠ 0) && decide (h.engDesc r.e (9 + 2 * c) 1 < m)

/-- Everything before the regulator: a status that answers the request (0: it goes on), and the hub with what the refusal recorded. -/
def Hub.engCheck (h : Hub) (r : EngReq) : Nat × Hub :=
  let p := h.engOwner r.e
  if h.engState r.e ≠ 0 then (h.engState r.e, h)
  else if !wellFormed r (h.get (Reg.siteStatusMinor (r.e / 8))) then (0x02, h)
  else if h.engFormats r ≠ 0 then (h.engFormats r, h)
  else if h.accBad r then (0x04, (h.count (Reg.dewAccRefusedCount p) 1).dewEvent p Reg.dewEventAccRefused)
  else if !h.granted r.e (hf r.hdr 28 12) then
    (0x21, (h.record { code := 0x0503, cls := 0, part := p, inst := hf r.hdr 28 12, die := r.e / 64, d0 := reqVa r.hdr }).event
      Reg.xltEventAsidReject)
  else (0, h)

-- Answers (R288)

/-- A request is done with: it leaves the open ones. -/
def Hub.engClose (h : Hub) (r : EngReq) : Hub :=
  (h.onSite (r.e / 8) (fun x => { x with open' := x.open'.filter (fun y => !(decide (y.e = r.e) && decide (y.rtag = r.rtag))) })).countOpen r.e

/-- READ_DATA parts of at most 1 KiB (R288): `n` bytes from `v`, poison by 32-byte unit. -/
def Hub.readParts (f : Nat) (h : Hub) (r : EngReq) (i n v bad : Nat) : Hub :=
  match f with
  | 0 => h
  | f + 1 =>
    let k := min n 1024
    let u := (k + 31) / 32
    let c := b2n (decide (n ≤ 1024)) + 2 * i + 16 * (u - 1)
    let h := h.respond (r.e / 8) ((u + 1) / 2) (.eep (r.e / 8) 0x81 (r.e % 8) r.rtag 0 c (v % 2 ^ (8 * k)) (bad % 2 ^ u))
    if n ≤ 1024 then h else Hub.readParts f h r (i + 1) (n - k) (v / 2 ^ (8 * k)) (bad / 2 ^ u)

/-- A request changed among the open ones. -/
def Hub.onReq (h : Hub) (r : EngReq) (f : EngReq → EngReq) : Hub :=
  h.onSite (r.e / 8) (fun x => { x with open' := x.open'.map (fun y => if y.e = r.e ∧ y.rtag = r.rtag then f y else y) })

-- What a request does once admitted

/-- Who asks for an engine. -/
def Hub.engCtx (h : Hub) (r : EngReq) : RemCtx := ⟨.engine r.e r.rtag, h.engOwner r.e, r.e / 64⟩

/-- The translated access of a request. -/
def Hub.engAcc (h : Hub) (r : EngReq) (k : AccKind) : XAcc :=
  ⟨r.e / 64, ⟨1, r.e, 0⟩, h.engOwner r.e, hf r.hdr 28 12, reqVa r.hdr, k, .engine r.e r.rtag⟩

/-- The first HPA of a list of pieces. -/
def firstHpa (l : List (Nat × Nat)) : Nat := match l with | (a, _) :: _ => a | [] => 0

/-- The pieces start in stack memory. -/
def Hub.inStack (h : Hub) (l : List (Nat × Nat)) : Bool := h.region (firstHpa l) == .stack

/-- Pieces for the length that a plan needs: those already there, or the span translated again. None: it parks. -/
def State.engSpan (s : State) (r : EngReq) (k : AccKind) (l : List (Nat × Nat)) (n0 n : Nat) : Option (List (Nat × Nat)) × State :=
  if n = n0 then (some l, s) else s.span (s.hub.engAcc r k) n

/-- READ (R285, R286): the stored row is read, converted and delivered. -/
def State.engRead (s : State) (r : EngReq) : State :=
  let p := s.hub.engOwner r.e
  let tag := reqTag r.hdr
  let va := reqVa r.hdr
  let n0 := (storedLen (reqDfmt r.hdr) (reqSfmt r.hdr) (reqLen r.hdr)).getD 0
  match s.span (s.hub.engAcc r .read) n0 with
  | (none, s) => s
  | (some l, s) =>
    match s.hub.rowPlan p tag va (s.hub.inStack l) 0 false (reqSfmt r.hdr) (reqDfmt r.hdr) with
    | .wait => s
    | .refuse st => s.onHub (·.answerSt r st)
    | .go sf df whole =>
      let k := if whole then 1024 else if sf = df then 0 else (rowElems (.ofNat df) (reqLen r.hdr)).getD 0
      let n := if whole then (rowLen (.ofNat sf) k).getD 0 else n0
      let m := if whole then (rowLen (.ofNat df) k).getD 0 else reqLen r.hdr
      match s.engSpan r .read l n0 n with
      | (none, s) => s
      | (some l, s) =>
        match s.readAny (.part p) (reqAlloc r.hdr) (s.hub.engCtx r) r.got l with
        | .wait s => s
        | .ok s st v bad =>
          if st ≠ 0 then s.onHub (·.answerSt r st)
          else
            let c := convertRow (.ofNat sf) (.ofNat df) v k va 0 true (reqRound r.hdr)
            let bad' := if sf = df then shiftBad va 0 m bad else convBad (.ofNat sf) (.ofNat df) k va 0 bad
            let s := s.dewConv p tag (.ofNat sf) (.ofNat df) true va (firstHpa l) c
            s.onHub (fun h => ((h.qosCount (engPort r.e) (firstHpa l) m false).engClose r).readParts 8 r 0 m c.out bad')

/-- A write is done, or waits for its peers' acknowledgements (R288). -/
def State.engWrote (s : State) (r : EngReq) (st : Nat) : State :=
  if s.hub.anyOut (.engine r.e r.rtag) then s.onHub (·.onReq r (fun y => { y with wrote := true }))
  else s.onHub (·.answerSt r st)

/-- WRITE (R285, R286, R159): the delivered row is quantised and stored. A whole group of a promotable tag takes the data of one group. -/
def State.engWrite (s : State) (r : EngReq) : State :=
  let p := s.hub.engOwner r.e
  let tag := reqTag r.hdr
  let va := reqVa r.hdr
  let n0 := (storedLen (reqDfmt r.hdr) (reqSfmt r.hdr) (reqLen r.hdr)).getD 0
  match s.span (s.hub.engAcc r .write) n0 with
  | (none, s) => s
  | (some l, s) =>
    match s.hub.rowPlan p tag 0 false va (s.hub.inStack l) (reqDfmt r.hdr) (reqSfmt r.hdr) with
    | .wait => s
    | .refuse st => s.onHub (·.answerSt r st)
    | .go sf df whole =>
      if whole ∧ rowLen (.ofNat sf) 1024 ≠ some (reqLen r.hdr) then s.onHub (·.answerSt r 0x02)
      else
        let k := if whole then 1024 else if sf = df then 0 else (rowElems (.ofNat sf) (reqLen r.hdr)).getD 0
        let n := if whole then (rowLen (.ofNat df) k).getD 0 else n0
        match s.engSpan r .write l n0 n with
        | (none, s) => s
        | (some l, s) =>
          let c := convertRow (.ofNat sf) (.ofNat df) (flitNat r.data % 2 ^ (8 * reqLen r.hdr)) k 0 va false (reqRound r.hdr)
          let s := s.dewConv p tag (.ofNat sf) (.ofNat df) false va (firstHpa l) c
          let s := s.onHub (·.qosCount (engPort r.e) (firstHpa l) (reqLen r.hdr) true)
          let q := s.writeAny (.part p) (reqAlloc r.hdr) (s.hub.engCtx r) c.out 0 l
          q.2.engWrote r q.1

/-- Runs of enabled bytes of a mask: (offset, bytes). -/
def byteRuns (n i mask : Nat) : List (Nat × Nat) :=
  match n with
  | 0 => []
  | n + 1 =>
    if bitAt mask i then
      match byteRuns n (i + 1) mask with
      | (j, k) :: t => if j = i + 1 then (i, k + 1) :: t else (i, 1) :: (j, k) :: t
      | [] => [(i, 1)]
    else byteRuns n (i + 1) mask

/-- Runs of bytes written at an HPA, in order: the first status that is not OK. -/
def State.writeRuns (s : State) (o : Org) (alloc : Bool) (x : RemCtx) (a v : Nat) : List (Nat × Nat) → Nat × State
  | [] => (0, s)
  | (i, n) :: t =>
    let q := s.writeAny o alloc x (bits v (8 * i) (8 * n)) 0 [(a + i, n)]
    let w := q.2.writeRuns o alloc x a v t
    (firstSt q.1 w.1, w.2)

/-- WRITE_PARTIAL (R284, R190): the enabled bytes of one 32-byte unit are merged. -/
def State.engPartial (s : State) (r : EngReq) : State :=
  let p := s.hub.engOwner r.e
  match s.translate (s.hub.engAcc r .write) with
  | (none, s) => s
  | (some a, s) =>
    match s.hub.rowPlan p (reqTag r.hdr) 0 false (reqVa r.hdr) (s.hub.region a == .stack) (reqDfmt r.hdr) (reqSfmt r.hdr) with
    | .wait => s
    | .refuse st => s.onHub (·.answerSt r st)
    | .go _ _ true => s.onHub (·.answerSt r 0x02)
    | .go _ _ false =>
      let d := flitNat r.data
      let s := s.onHub (·.qosCount (engPort r.e) a 32 true)
      let q := s.writeRuns (.part p) (reqAlloc r.hdr) (s.hub.engCtx r) a d (byteRuns 32 0 (bits d 256 32))
      q.2.engWrote r q.1

/-- ATOMIC_RESULT of a status and an old value (Table 4). -/
def Hub.atomicAnswer (h : Hub) (r : EngReq) (st old : Nat) : Hub :=
  (h.engClose r).respond (r.e / 8) 0 (.eep (r.e / 8) 0x83 (r.e % 8) r.rtag st 1 old 0)

/-- ATOMIC (R287, R121): at the address's home, or at a peer. -/
def State.engAtomic (s : State) (r : EngReq) : State :=
  let p := s.hub.engOwner r.e
  let n := if bitAt (reqDfmt r.hdr) 4 then 8 else 4
  let d := flitNat r.data
  let opnd := bits d 0 (8 * n)
  let cmp := bits d 64 (8 * n)
  match s.translate (s.hub.engAcc r .atomic) with
  | (none, s) => s
  | (some a, s) =>
    match s.hub.region a with
    | .window _ _ =>
      match r.got.find? (fun g => decide (g.1 = a)) with
      | some g => s.onHub (·.atomicAnswer r (if g.2.2 then 0x08 else 0) (if g.2.2 then 0 else g.2.1 % 2 ^ (8 * n)))
      | none =>
        if s.hub.isOut (.engine r.e r.rtag) a then s
        else
          let w := winSlot a
          let st := s.hub.importCheck p w.1 w.2 n 7
          if st ≠ 0 then s.onHub (·.answerSt r st)
          else
            let q := s.hub.sendImport p (r.e / 64) w.1
              (s.hub.importReq w.1 4 (reqDfmt r.hdr) w.2 0 (leBytes 8 opnd ++ leBytes 8 cmp) false (.engine r.e r.rtag) a)
            if q.2 then { s with hub := q.1 } else s.onHub (·.answerSt r 0x0A)
    | _ =>
      let q := s.amoAt (.part p) (reqDfmt r.hdr % 16) n a opnd cmp (reqAlloc r.hdr)
      if q.st ≠ 0 then q.s.onHub (·.answerSt r q.st)
      else q.s.onHub (·.atomicAnswer r (if q.bad ≠ 0 then 0x08 else 0) (if q.bad ≠ 0 then 0 else q.v))

/-- The lines of a list of pieces. -/
def linesOf (l : List (Nat × Nat)) : List Nat := l.flatMap (fun q => (List.range ((q.2 + 127) / 128)).map (fun i => q.1 / 128 + i))

/-- Maintenance of one line wherever it lies (R223): an address of a remote window passes through uncached. -/
def State.maintAny (s : State) (o : Org) (x : RemCtx) (op line : Nat) : Nat × State :=
  match s.hub.region (128 * line) with
  | .window _ _ => if op = 0 then s.writeAny o false x 0 0 [(128 * line, 128)] else (0, s)
  | _ => let q := s.maintAt o op (128 * line); (q.st, q.s)

/-- Maintenance of several lines in order: the first status that is not OK. -/
def State.maintLines (s : State) (o : Org) (x : RemCtx) (op : Nat) : List Nat → Nat × State
  | [] => (0, s)
  | k :: t =>
    let q := s.maintAny o x op k
    let w := q.2.maintLines o x op t
    (firstSt q.1 w.1, w.2)

/-- MAINT (R284, R223, R224): write rights on the page. -/
def State.engMaint (s : State) (r : EngReq) : State :=
  match s.span (s.hub.engAcc r .write) (reqLen r.hdr) with
  | (none, s) => s
  | (some l, s) =>
    let q := s.maintLines (.part (s.hub.engOwner r.e)) (s.hub.engCtx r) (reqDfmt r.hdr % 4) (linesOf l)
    q.2.engWrote r q.1

/-- PREFETCH (R297 minor 1.3): translates, and with ALLOC fills the lines in Firn. -/
def State.engPrefetch (s : State) (r : EngReq) : State :=
  match s.span (s.hub.engAcc r .read) (reqLen r.hdr) with
  | (none, s) => s
  | (some l, s) =>
    let s := if reqAlloc r.hdr then
        (linesOf l).foldl (fun s k => if s.hub.region (128 * k) = .stack then (s.readPiece (.part (s.hub.engOwner r.e)) (128 * k) 128 true).s else s) s
      else s
    s.onHub (·.answerSt r 0)

/-- An admitted request runs as far as it can. -/
def State.engRun (s : State) (r : EngReq) : State :=
  if r.wrote then (if s.hub.anyOut (.engine r.e r.rtag) then s else s.onHub (·.answerSt r 0))
  else match hdrOp r.hdr with
    | 1 => s.engRead r
    | 2 => s.engWrite r
    | 3 => s.engPartial r
    | 4 => s.engAtomic r
    | 5 => s.engMaint r
    | _ => s.engPrefetch r

-- Completions and interrupts (R291-R293)

/-- The COMPLETE cannot be applied (R292). -/
def Hub.cplErr (h : Hub) (e : Nat) : Hub :=
  let p := h.engOwner e
  let h := (h.set (Reg.siteEngStatusCplErr e) 1).event Reg.siteEventCplErr
  h.record { code := 0x0605, cls := 0, part := p, inst := e / 8, die := e / 64, d0 := 2 ^ 14 * e }

/-- `a` does not lie after `b`, as 32-bit counts. -/
def notAfter (a b : Nat) : Bool := decide (diff32 b a < 2 ^ 31)

/-- The writes that an event waits for have been received and are visible (R291). -/
def Hub.evtReady (h : Hub) (v : EngEvt) : Bool :=
  let w := hf v.hdr 32 32
  notAfter w (h.get (Reg.siteEngStatusWrites v.e))
    && !(h.site (v.e / 8)).open'.any (fun r => decide (r.e = v.e) && (match r.wseq with | some k => notAfter k w | none => false))

/-- The event's access is parked, held, or joined to a walk. -/
def Hub.evtStuck (h : Hub) (v : EngEvt) : Bool :=
  let w : Waiter := .engine v.e (4096 + v.id)
  h.xlt.parked.any (fun a => decide (a.who = w)) || h.xlt.held.any (fun a => decide (a.who = w))
    || h.xlt.walks.any (fun k => decide (k.who = w) || k.joined.any (fun j => decide (j.2.2.2 = w)))

/-- CREDIT sent to a site (R281): a class and a count. -/
def Hub.sendCredit (h : Hub) (s cls n : Nat) : Hub := if n = 0 then h else h.send (.eep s 0xF0 0 cls n 0 0 0)

/-- An event is done with: its buffers are free. -/
def Hub.evtDone (h : Hub) (v : EngEvt) : Hub :=
  let s := v.e / 8
  let h := h.onSite s (fun x => { x with evts := x.evts.filter (fun y => !decide (y.id = v.id)), evtH := x.evtH + 1, evtD := x.evtD + v.data.length })
  (h.sendCredit s 4 1).sendCredit s 5 v.data.length

/-- RECORD or EVENT (R292). -/
def State.evtMemory (s : State) (v : EngEvt) : State :=
  let p := s.hub.engOwner v.e
  let va := hf v.hdr 64 52
  let rec' := decide (hf v.hdr 11 2 = 1)
  let bad (s : State) : State := s.onHub (fun h => (h.cplErr v.e).evtDone v)
  if 24 ≤ p ∨ !s.hub.granted v.e (hf v.hdr 16 12) ∨ (rec' ∧ va % 16 ≠ 0) then bad s
  else match s.translate ⟨v.e / 64, ⟨1, v.e, 0⟩, p, hf v.hdr 16 12, va, .write, .engine v.e (4096 + v.id)⟩ with
    | (none, s) => s
    | (some a, s) =>
      if rec' then
        let q := s.writeAny (.part p) true ⟨.host v.e, p, v.e / 64⟩ (flitNat v.data % 2 ^ 128) 0 [(a, 16)]
        if q.1 ≠ 0 then bad q.2 else q.2.onHub (·.evtDone v)
      else match s.hub.region a with
        | .event _ _ => (s.eventAdd a).onHub (·.evtDone v)
        | _ => bad s

/-- One event applied, if it can be (R291-R293). -/
def State.evtApply (s : State) (v : EngEvt) : State :=
  if !s.hub.evtReady v || s.hub.evtStuck v then s
  else if hdrOp v.hdr = 0xE2 then
    s.onHub (fun h =>
      let fn := h.get (Reg.siteEngCtrlVf v.e)
      let k := h.get (Reg.siteEngCtrlIrqBase v.e) + hf v.hdr 16 4
      (if msixSize fn ≤ k then h.set (Reg.siteEngStatusCplErr v.e) 1 else h.msix fn k).evtDone v)
  else if hf v.hdr 11 2 = 3 then
    let p := s.hub.engOwner v.e
    let n := hf v.hdr 64 15
    s.onHub (fun h =>
      if p < 24 ∧ h.on (Reg.drfStreamStatusState n) ∧ h.streamPart n = p then (h.dbTail (.master (BitVec.ofNat 5 p)) n (hf v.hdr 96 32)).evtDone v
      else (h.cplErr v.e).evtDone v)
  else s.evtMemory v

/-- Events of a site tried in order. -/
def State.pumpEvts (s : State) (site : Nat) : State := (s.hub.site site).evts.foldl (fun s v => s.evtApply v) s

-- Receipt (R281, R289, R290)

/-- A request received: it is a protocol error (R290). -/
def Hub.reqError (h : Hub) (e rtag flits : Nat) (hdr : BitVec 128) (data : List (BitVec 512)) : Bool :=
  let x := h.site (e / 8)
  let mine := x.open'.filter (fun r => decide (r.e = e))
  decide (x.reqH = 0) || decide (x.reqD < flits) || decide (data.length ≠ flits)
    || (decide (hdrOp hdr = 6) && decide (h.get (Reg.siteStatusMinor (e / 8)) < 3))
    || mine.any (fun r => decide (r.rtag = rtag))
    || (decide (h.get (Reg.siteEngStatusState e) ≠ 0) && decide (h.engDesc e 4 2 ≤ mine.length))

/-- The port's REQ credits go back (R283): the request has left the site port. -/
def Hub.reqLeft (h : Hub) (r : EngReq) : Hub :=
  let s := r.e / 8
  let h := h.onSite s (fun x => { x with reqH := x.reqH + 1, reqD := x.reqD + r.data.length })
  (h.sendCredit s 0 1).sendCredit s 1 r.data.length

/-- Port-side bytes of a request (R322). -/
def EngReq.bytes (r : EngReq) : Nat :=
  match hdrOp r.hdr with
  | 1 => reqLen r.hdr
  | 2 => reqLen r.hdr
  | 3 => 32
  | 4 => 8
  | _ => 0

/-- The request is of the write class (R291). -/
def writeClass (op : Nat) : Bool := decide (2 ≤ op) && decide (op ≤ 5)

/-- A request listed as open, its credits taken, its place among the writes counted. -/
def Hub.reqOpen (h : Hub) (e rtag mod flits : Nat) (hdr : BitVec 128) (data : List (BitVec 512)) : EngReq × Hub :=
  let w := h.get (Reg.siteEngStatusWrites e)
  let wc := writeClass (hdrOp hdr)
  let r : EngReq := ⟨e, rtag, mod, if wc then some (wrapAdd 32 w 1) else none, hdr, data, [], false⟩
  let h := h.onSite (e / 8) (fun x => { x with open' := x.open' ++ [r], reqH := x.reqH - 1, reqD := x.reqD - flits })
  (r, (if wc then h.set (Reg.siteEngStatusWrites e) (wrapAdd 32 w 1) else h).countOpen e)

/-- The module carries traffic. -/
def Hub.moduleUp (h : Hub) (site m : Nat) : Bool := decide (m < 6) && decide (h.get (Reg.siteModuleState site m) < 2)

/-- A header of another message than the row's: an unknown OP is a protocol error, a known one is another row's. -/
def State.wrongOp (s : State) (site : Nat) (hdr : BitVec 128) : State :=
  if engineOps.contains (hdrOp hdr) then s else s.onHub (·.fence site 7)

/-- A request arrives at a site (R284-R291): protocol errors, the answers that no data precede, the regulator, then the request runs. -/
def eepRequest (op : Nat) (site mod : Nat) (hdr : BitVec 128) (data : List (BitVec 512)) (s : State) : State :=
  if !s.hub.siteUp site || !s.hub.moduleUp site mod then s
  else if hdrOp hdr ≠ op then s.wrongOp site hdr
  else
    let e := 8 * site + hdrEng hdr
    let rtag := hdrRtag hdr
    let flits := reqFlits hdr
    if s.hub.reqError e rtag flits hdr data then s.onHub (·.fence site 7)
    else
      let q := s.hub.reqOpen e rtag mod flits hdr data
      let c := q.2.engCheck q.1
      if c.1 ≠ 0 then ({ s with hub := (c.2.reqLeft q.1).answerSt q.1 c.1 }).pumpEvts site
      else
        let a := c.2.admitReq (engPort e) q.1.bytes (.eng q.1)
        if a.1 then ({ s with hub := a.2.reqLeft q.1 }.engRun q.1).pumpEvts site else { s with hub := a.2 }

/-- An open request of an engine looked at again, unless it is stuck or waits for a peer. -/
def State.engAgain1 (s : State) (r : EngReq) : State :=
  match s.hub.engReq r.e r.rtag with
  | none => s
  | some r => if s.hub.engStuck r || (s.hub.anyOut (.engine r.e r.rtag) && !r.wrote) then s else s.engRun r

/-- The open requests of engines that `p` names are looked at again, with the events behind them. -/
def State.engAgain (s : State) (p : Nat → Bool) : State :=
  (List.range 16).foldl (fun s k => ((s.hub.site k).open'.foldl (fun s r => if p r.e then s.engAgain1 r else s) s).pumpEvts k) s

/-- EEP_READ (R288). -/
def execEepRead (site : BitVec 4) (mod : BitVec 3) (hdr : BitVec 128) (s : State) : Host.Outcome State Fault Refusal :=
  .next (eepRequest 1 site.toNat mod.toNat hdr [] s)
/-- EEP_WRITE (R285). -/
def execEepWrite (site : BitVec 4) (mod : BitVec 3) (hdr : BitVec 128) (data : List (BitVec 512)) (s : State) : Host.Outcome State Fault Refusal :=
  .next (eepRequest 2 site.toNat mod.toNat hdr data s)
/-- EEP_WRITE_PARTIAL (R284). -/
def execEepWritePartial (site : BitVec 4) (mod : BitVec 3) (hdr : BitVec 128) (data : List (BitVec 512)) (s : State) :
    Host.Outcome State Fault Refusal :=
  .next (eepRequest 3 site.toNat mod.toNat hdr data s)
/-- EEP_ATOMIC (R287). -/
def execEepAtomic (site : BitVec 4) (mod : BitVec 3) (hdr : BitVec 128) (data : List (BitVec 512)) (s : State) : Host.Outcome State Fault Refusal :=
  .next (eepRequest 4 site.toNat mod.toNat hdr data s)
/-- EEP_MAINT (R284). -/
def execEepMaint (site : BitVec 4) (mod : BitVec 3) (hdr : BitVec 128) (s : State) : Host.Outcome State Fault Refusal :=
  .next (eepRequest 5 site.toNat mod.toNat hdr [] s)
/-- EEP_PREFETCH (R297). -/
def execEepPrefetch (site : BitVec 4) (mod : BitVec 3) (hdr : BitVec 128) (s : State) : Host.Outcome State Fault Refusal :=
  .next (eepRequest 6 site.toNat mod.toNat hdr [] s)

/-- The number of a new event of a site. -/
def Site.nextEvt (x : Site) : Nat := x.evts.foldl (fun m v => max m (v.id + 1)) 0

/-- A COMPLETE or INTERRUPT arrives (R290, R291). -/
def eepEvent (op : Nat) (site mod : Nat) (hdr : BitVec 128) (data : List (BitVec 512)) (s : State) : State :=
  if !s.hub.siteUp site || !s.hub.moduleUp site mod then s
  else if hdrOp hdr ≠ op then s.wrongOp site hdr
  else
    let x := s.hub.site site
    let kind := hf hdr 11 2
    let flits := if op = 0xE1 ∧ kind = 1 then 1 else 0
    if x.evtH = 0 ∨ x.evtD < flits ∨ data.length ≠ flits
        ∨ (op = 0xE1 ∧ (kind = 0 ∨ (kind = 3 ∧ s.hub.get (Reg.siteStatusMinor site) < 2))) then s.onHub (·.fence site 7)
    else
      let v : EngEvt := ⟨8 * site + hdrEng hdr, x.nextEvt, hdr, data⟩
      (s.onHub (·.onSite site (fun x => { x with evts := x.evts ++ [v], evtH := x.evtH - 1, evtD := x.evtD - flits }))).pumpEvts site

/-- EEP_COMPLETE (R292). -/
def execEepComplete (site : BitVec 4) (mod : BitVec 3) (hdr : BitVec 128) (data : List (BitVec 512)) (s : State) :
    Host.Outcome State Fault Refusal :=
  .next (eepEvent 0xE1 site.toNat mod.toNat hdr data s)
/-- EEP_INTERRUPT (R293). -/
def execEepInterrupt (site : BitVec 4) (mod : BitVec 3) (hdr : BitVec 128) (s : State) : Host.Outcome State Fault Refusal :=
  .next (eepEvent 0xE2 site.toNat mod.toNat hdr [] s)

/-- An engine has cleared (R299): partitions and functions that waited for it wait no more. -/
def Hub.engCleared (h : Hub) (e : Nat) : Hub :=
  let h := (h.waitDone e).onSite (e / 8) (fun x => { x with clearing := kdel x.clearing e })
  let h := (h.set (Reg.siteEngStatusWrites e) 0).set (Reg.siteEngStatusState e) (if h.engOwner e < 24 then 2 else 1)
  h.flushSite (e / 8)

/-- EEP_CLEARED (R299): events whose writes are done are applied first. -/
def execEepCleared (site : BitVec 4) (mod : BitVec 3) (hdr : BitVec 128) (s : State) : Host.Outcome State Fault Refusal :=
  let k := site.toNat
  if !s.hub.siteUp k || !s.hub.moduleUp k mod.toNat then .next s
  else if hdrOp hdr ≠ 0xE4 then .next (s.wrongOp k hdr)
  else if (s.hub.site k).evtH = 0 then .next (s.onHub (·.fence k 7))
  else
    let e := 8 * k + hdrEng hdr
    let s := (s.onHub (·.sendCredit k 4 1)).pumpEvts k
    if s.hub.get (Reg.siteEngStatusState e) = 3 then .next (s.onHub (·.engCleared e))
    else .next (s.onHub (·.set (Reg.siteEngStatusWrites e) 0))

/-- EEP_ERROR_REPORT (R307). -/
def execEepErrorReport (site : BitVec 4) (mod : BitVec 3) (hdr : BitVec 128) (s : State) : Host.Outcome State Fault Refusal :=
  let k := site.toNat
  if !s.hub.siteUp k || !s.hub.moduleUp k mod.toNat then .next s
  else if hdrOp hdr ≠ 0xE5 then .next (s.wrongOp k hdr)
  else if (s.hub.site k).evtH = 0 then .next (s.onHub (·.fence k 7))
  else
    let e := 8 * k + hdrEng hdr
    let p := s.hub.engOwner e
    let x : RecIn := { code := 0x0609, cls := 0, part := p, inst := k, die := k / 8, d0 := 2 ^ 14 * e, d1 := hf hdr 32 16 }
    let s := s.onHub (·.sendCredit k 4 1)
    if hf hdr 16 1 = 0 then .next (s.onHub (·.record x))
    else .next (s.onHub (fun h =>
      let h := (h.engLost e).event Reg.siteEventEngineLost
      let h := if p < 24 then h.raiseVf p 2 else h
      h.record { x with code := 0x060A, cls := 1 }))

/-- EEP_CREDIT (R281, R290): credits come back, never more than were granted; what waited for them is sent. -/
def execEepCredit (site : BitVec 4) (mod : BitVec 3) (hdr : BitVec 128) (s : State) : Host.Outcome State Fault Refusal :=
  let k := site.toNat
  if !s.hub.siteUp k || !s.hub.moduleUp k mod.toNat then .next s
  else if hdrOp hdr ≠ 0xF0 then .next (s.wrongOp k hdr)
  else
    let x := s.hub.site k
    let n := hf hdr 16 16
    let g := x.credits.toNat
    let cls := hf hdr 8 3
    let bad := (decide (cls < 2) && decide (n ≠ 0)) || decide (5 < cls) || (decide (cls = 2) && decide (bits g 0 16 < x.rspH + n))
      || (decide (cls = 3) && decide (bits g 16 16 < x.rspD + n)) || (decide (cls = 4) && decide (bits g 32 16 < x.cvtH + n))
      || (decide (cls = 5) && decide (bits g 48 16 < x.cvtD + n))
    if bad then .next (s.onHub (·.fence k 7))
    else .next (s.onHub (fun h => (h.onSite k (fun x =>
      if cls = 2 then { x with rspH := x.rspH + n } else if cls = 3 then { x with rspD := x.rspD + n }
      else if cls = 4 then { x with cvtH := x.cvtH + n } else if cls = 5 then { x with cvtD := x.cvtD + n } else x)).flushSite k))

/-- SITE_ENG_DB (R294). -/
def execSiteEngDb (src : DbSrc) (e : BitVec 7) (v : BitVec 64) (s0 : State) : Host.Outcome State Fault Refusal :=
  let s := s0.wroteSrc src
  .next (s.onHub (·.engDb src e.toNat v.toNat))

/-- CLEARED_TIMEOUT (R299): the site is fenced with cause 8. -/
def execClearedTimeout (e : BitVec 7) (s : State) : Host.Outcome State Fault Refusal :=
  if s.hub.get (Reg.siteEngStatusState e.toNat) = 3 then .next (s.onHub (·.fence (e.toNat / 8) 8)) else .next s

end Sys2Proof.Machine
end

