-- ==== Sys2Proof/Machine/Dewpoint.lean ====
section
/-! DEFINITION. Dewpoint's commands (07: R171-R181): samples recomputed, windows closed, promotions migrated, halts and counters
cleared. -/

namespace Sys2Proof.Machine

-- binary64 (R172)

/-- A value rounded to binary64. -/
def f64 (v : Val) : Nat := (fp64.enc true v .rne 0).1
/-- A sum in binary64. -/
def f64add (a b : Nat) : Nat := f64 ((fp64.dec a).add (fp64.dec b) false).1
/-- A product in binary64. -/
def f64mul (a b : Nat) : Nat := f64 ((fp64.dec a).mul (fp64.dec b)).1
/-- A quotient in binary64. -/
def f64div (a b : Nat) : Nat := f64 ((fp64.dec a).div (fp64.dec b)).1
/-- A square root in binary64. -/
def f64sqrt (a : Nat) : Nat := f64 (fp64.dec a).sqrt.1
/-- The magnitude. -/
def f64abs (a : Nat) : Nat := a % 2 ^ 63
/-- A NaN. -/
def f64nan (a : Nat) : Bool := decide (fp64.dec a = .nan)
/-- The larger of two magnitudes; a NaN stays one (log entry 29). -/
def f64max (a b : Nat) : Nat := if f64nan a then a else if f64nan b then b else max a b

/-- min(floor(x * 65536), 0xFFFF); none of a NaN. -/
def f64unit (a : Nat) : Option Nat :=
  match fp64.dec a with
  | .nan => none
  | .inf _ => some 0xFFFF
  | .fin _ m e => some (min (floorShift m (e + 16)) 0xFFFF)

/-- The differences of a sample at the positions with a finite source (R172): (|x|, q - x), as binary64 patterns. -/
def DewSample.diffs (x : DewSample) : List (Nat × Nat) :=
  (x.xs.zip x.qs).filterMap (fun p =>
    match p.1 with
    | .fin _ _ _ => some (f64abs (f64 p.1), f64add (f64 p.2) (f64 p.1.neg))
    | _ => none)

/-- A window with a sample added (R172). -/
def DewWin.add (w : DewWin) (l : List (Nat × Nat)) : DewWin :=
  let e2 := l.foldl (fun a p => f64add a (f64mul p.2 p.2)) w.e2
  let x2 := l.foldl (fun a p => f64add a (f64mul p.1 p.1)) w.x2
  let m := l.foldl (fun a p => f64max a p.1) 0
  let d := l.foldl (fun a p => f64max a (f64abs p.2)) 0
  ⟨e2, x2, if m = 0 then w.mx else f64max w.mx (f64div d m)⟩

/-- A window with nothing in it. -/
def DewWin.rst : DewWin := ⟨0, 0, 0⟩

/-- The window of a tag restarted. -/
def Hub.dewRestart (h : Hub) (p t : Nat) : Hub :=
  { h.set (Reg.dewStatCount p t) 0 with
    dew := { h.dew with wins := tset DewWin.rst h.dew.wins (256 * p + t) .rst, closing := terase h.dew.closing (256 * p + t) } }

/-- The window of a tag is full. -/
def Hub.dewFull (h : Hub) (p t : Nat) : Bool := decide (2 ^ h.get (Reg.dewTagWindowLog2 p t) ≤ h.get (Reg.dewStatCount p t))

/-- The migration of a promotion waits or runs. -/
def Hub.promoting (h : Hub) (p t : Nat) : Bool := h.dew.waiting.contains (p, t) || h.dew.running.contains (p, t)

/-- A promotion is possible (R176, Table 2). -/
def Hub.canPromote (h : Hub) (p t : Nat) : Bool :=
  h.promotable p t && (match nextFmt (h.get (Reg.dewTagFmt p t)) with
    | some f => h.storeOk p f
    | none => false)

/-- A HALT crossing (R181): record with the source block of the sample that closed the window; its event byte is open (log entry 30). -/
def Hub.dewHalt (h : Hub) (p t : Nat) : Hub :=
  let c := tget (1, 0) h.dew.closing (256 * p + t)
  let b := h.draw.1 % 256
  let h := (h.draw.2.set (Reg.dewTagHalted p t) 1).dewEvent p Reg.dewEventHalt
  let die := if c.1 = 1 then c.2 / 256 else if c.1 = 2 then c.2 / 96 else c.2 / 12
  h.record { code := c.1 * 256 + b, cls := 0, part := p, inst := c.2, die := die }

/-- A window that crosses its thresholds (R174-R176); `bound`: the tag's region overlaps a domain (R464). -/
def Hub.dewTrip (h : Hub) (bound : Bool) (p t : Nat) : Hub :=
  let h := h.count (Reg.dewStatTrips p t) 1
  if h.on (Reg.dewTagMigrating p t) then h
  else
    let a := h.get (Reg.dewTagAction p t)
    let h := h.sets [(Reg.dewLastPartition, p), (Reg.dewLastTag, t), (Reg.dewLastAction, a)]
    if a = 0 then h
    else
      let h := h.dewEvent p Reg.dewEventTrip
      if a = 1 then h
      else if a = 2 then
        if h.promoting p t then h
        else if h.canPromote p t && !bound then { h with dew := { h.dew with waiting := h.dew.waiting ++ [(p, t)] } }
        else h.dewEvent p Reg.dewEventCeiling
      else h.dewHalt p t

/-- A window closes (R172-R174); an error measure that is no number is open (log entry 29). -/
def Hub.dewClose (h : Hub) (bound : Bool) (p t : Nat) : Hub :=
  let w := tget DewWin.rst h.dew.wins (256 * p + t)
  let rms := if (match fp64.dec w.x2 with | .fin _ 0 _ => true | _ => false) then 0 else f64sqrt (f64div w.e2 w.x2)
  let a := (f64unit rms).getD (h.draw.1 % 2 ^ 16)
  let h := h.draw.2
  let b := (f64unit w.mx).getD (h.draw.1 % 2 ^ 16)
  let h := (h.draw.2.set (Reg.dewStatLastRms p t) a).set (Reg.dewStatLastMax p t) b
  let h := if h.get (Reg.dewTagRmsTh p t) < a ∨ h.get (Reg.dewTagMaxTh p t) < b then h.dewTrip bound p t else h
  h.dewRestart p t

/-- A sample accumulated (R172). A window that is full closes first. -/
def Hub.dewTake (h : Hub) (bound : Bool) (x : DewSample) : Hub :=
  if 24 ≤ x.part then h
  else
    let h := if h.dewFull x.part x.tag then h.dewClose bound x.part x.tag else h
    let k := 256 * x.part + x.tag
    let w := (tget DewWin.rst h.dew.wins k).add x.diffs
    { h.set (Reg.dewStatCount x.part x.tag) (h.get (Reg.dewStatCount x.part x.tag) + 1) with
      dew := { h.dew with wins := tset DewWin.rst h.dew.wins k w, closing := tput h.dew.closing k (x.src, x.inst) } }

/-- The access of a migration: master kind 3, the partition's Drift port of the primary, its primary ASID (Table 10 of 11). -/
def migAcc (p t va : Nat) (k : AccKind) : XAcc := ⟨0, ⟨3, p, 0⟩, p, p, va, k, .migration p t⟩

/-- Some granule of a tag's region satisfies `q` (R463, R464): the region lies in the VA space of the primary ASID, and a page that does
not translate has no granule. -/
def State.tagMeets (s : State) (p t : Nat) (q : Nat → Bool) : Bool :=
  let base := s.hub.get (Reg.dewTagBase p t)
  let len := s.hub.get (Reg.dewTagGroups p t) * s.hub.get (Reg.dewTagStride p t)
  (List.range ((base % 65536 + len + 65535) / 65536)).any (fun i =>
    let va := (pageOf base + i) * 65536
    match (s.walk (migAcc p t va .read)).1 with
    | .leaf out log2 _ _ => q (out + va % 2 ^ log2)
    | _ => false)

/-- A PROMOTE tag whose region overlaps a domain (R464). -/
def State.tagBound (s : State) (p t : Nat) : Bool :=
  decide (s.hub.get (Reg.dewTagAction p t) = 2) && s.tagMeets p t (fun a => (s.hub.domainAt a).isSome)

/-- DEWPOINT_RECOMPUTE (R171, R172). -/
def execDewpointRecompute (die : BitVec 1) (s : State) : Host.Outcome State Fault Refusal :=
  match (if die = 0 then s.hub.dew.q0 else s.hub.dew.q1) with
  | [] => .next s
  | x :: t =>
    hubStep (fun h =>
      let h : Hub := if die = 0 then { h with dew := { h.dew with q0 := t } } else { h with dew := { h.dew with q1 := t } }
      h.dewTake (s.tagBound x.part x.tag) x) s

/-- WINDOW_CLOSE (R173): a window whose count is reached. -/
def execWindowClose (part : BitVec 5) (tag : BitVec 8) (s : State) : Host.Outcome State Fault Refusal :=
  let p := part.toNat
  let t := tag.toNat
  if p < 24 ∧ s.hub.dewFull p t then hubStep (·.dewClose (s.tagBound p t) p t) s else .next s

/-- Migrations of a partition that run. -/
def Hub.migrations (h : Hub) (p : Nat) : Nat := (h.dew.running.filter (fun x => decide (x.1 = p))).length

/-- The oldest promotion of a partition starts its migration (R176, R178). -/
def Hub.migStart (h : Hub) (p : Nat) : Hub :=
  match h.dew.waiting.find? (fun x => decide (x.1 = p)) with
  | none => h
  | some x =>
    if 4 ≤ h.migrations p then h
    else
      let h : Hub := { h with dew := { h.dew with waiting := h.dew.waiting.erase x } }
      match nextFmt (h.get (Reg.dewTagFmt p x.2)) with
      | none => h
      | some f =>
        let h := h.sets [(Reg.dewTagNextFmt p x.2, f), (Reg.dewTagMigrating p x.2, 1), (Reg.dewTagFrontier p x.2, 0)]
        { h with dew := { h.dew with running := h.dew.running ++ [x] } }

/-- MIGRATION_START (R176): when fewer than four migrations of the partition run. -/
def execMigrationStart (part : BitVec 5) (s : State) : Host.Outcome State Fault Refusal := hubStep (·.migStart part.toNat) s

/-- Elements that a rewrite changed (R179): saturations and rounded body values. -/
def changed (l : List (List Val × List Val)) : Nat :=
  (l.map (fun b => ((b.1.zip b.2).filter (fun p => (match p.1 with | .fin _ _ _ => true | _ => false) && p.1.cmp p.2 != .eq)).length)).sum

/-- The migration's access is parked, held, or joined to a walk (R178). -/
def Hub.migStuck (h : Hub) (p t : Nat) : Bool :=
  let w : Waiter := .migration p t
  h.xlt.parked.any (fun a => decide (a.who = w)) || h.xlt.held.any (fun a => decide (a.who = w))
    || h.xlt.walks.any (fun k => decide (k.who = w) || k.joined.any (fun j => decide (j.2.2.2 = w)))

/-- The group at FRONTIER rewritten in the next format (R176, R178, R179); a parked access leaves it for later. -/
def State.migGroup (s : State) (p t : Nat) : State :=
  let h := s.hub
  let g := h.get (Reg.dewTagFrontier p t)
  let sf := FmtByte.ofNat (h.get (Reg.dewTagFmt p t))
  let df := FmtByte.ofNat (h.get (Reg.dewTagNextFmt p t))
  let va := h.get (Reg.dewTagBase p t) + g * h.get (Reg.dewTagStride p t)
  match s.span (migAcc p t va .read) (groupSize sf) with
  | (none, s) => s
  | (some l, s) =>
    match s.span (migAcc p t va .write) (groupSize df) with
    | (none, s) => s
    | (some d, s) =>
      let r := s.readPieces (.part p) true l
      let c := convertRow sf df r.v 1024 va va true .rne
      let w := r.s.writePieces (.part p) true c.out (convBad sf df 1024 (va % 32) (va % 32) r.bad) d
      let s := w.s.onHub (fun h =>
        let h := match l with | (a, _) :: _ => h.qosCount (driftPort 0 p) a (groupSize sf) false | [] => h
        let h := match d with | (a, _) :: _ => h.qosCount (driftPort 0 p) a (groupSize df) true | [] => h
        (h.count (Reg.dewStatSat p t) (changed c.blocks)).set (Reg.dewTagFrontier p t) (g + 1))
      s.engAgain (fun e => decide (s.hub.engOwner e = p))

/-- MIGRATION_GROUP_DONE (R176-R179). -/
def execMigrationGroupDone (part : BitVec 5) (tag : BitVec 8) (s : State) : Host.Outcome State Fault Refusal :=
  let p := part.toNat
  let t := tag.toNat
  if p < 24 ∧ s.hub.dew.running.contains (p, t) ∧ !s.hub.migStuck p t
      ∧ s.hub.get (Reg.dewTagFrontier p t) < s.hub.get (Reg.dewTagGroups p t) then .next (s.migGroup p t)
  else .next s

/-- MIGRATION_COMPLETE (R175, R176): windows restart under the new format. -/
def execMigrationComplete (part : BitVec 5) (tag : BitVec 8) (s : State) : Host.Outcome State Fault Refusal :=
  let p := part.toNat
  let t := tag.toNat
  if p < 24 ∧ s.hub.dew.running.contains (p, t) ∧ s.hub.get (Reg.dewTagGroups p t) ≤ s.hub.get (Reg.dewTagFrontier p t) then
    let s := s.onHub (fun h =>
      let h := { h with dew := { h.dew with running := h.dew.running.erase (p, t) } }
      let h := (h.set (Reg.dewTagFmt p t) (h.get (Reg.dewTagNextFmt p t))).set (Reg.dewTagMigrating p t) 0
      (h.dewEvent p Reg.dewEventPromoted).dewRestart p t)
    .next (s.engAgain (fun e => decide (s.hub.engOwner e = p)))
  else .next s

/-- The partition whose tags a function writes: the one named for the PF, its own for a VF; 31 where the write is ignored. -/
def Hub.tagPart (h : Hub) (fn part : Nat) : Nat := if fn = 0 then part else if h.vfMute fn then 31 else h.vfOwner fn

/-- HALTED_CLEAR (R181): a write of 1 ends the halt and restarts the window. -/
def execHaltedClear (fn : BitVec 6) (part : BitVec 5) (tag : BitVec 8) (s0 : State) : Host.Outcome State Fault Refusal :=
  let s := s0.wroteBy fn.toNat
  hubStep (fun h =>
    let p := h.tagPart fn.toNat part.toNat
    if p < 24 ∧ h.on (Reg.dewTagHalted p tag.toNat) then (h.set (Reg.dewTagHalted p tag.toNat) 0).dewRestart p tag.toNat else h) s

/-- The counters of a tag cleared (R169, Table 1). -/
def Hub.dewClear (h : Hub) (p t : Nat) : Hub :=
  h.sets [(Reg.dewStatSat p t, 0), (Reg.dewStatOf p t, 0), (Reg.dewStatNv p t, 0), (Reg.dewStatEsc p t, 0), (Reg.dewStatEscovf p t, 0),
    (Reg.dewStatBad p t, 0), (Reg.dewStatTrips p t, 0), (Reg.dewStatSkipped p t, 0)]

/-- DEW_COUNTER_CLEAR (R169). -/
def execDewCounterClear (fn : BitVec 6) (part : BitVec 5) (tag : BitVec 8) (s0 : State) : Host.Outcome State Fault Refusal :=
  let s := s0.wroteBy fn.toNat
  hubStep (fun h => let p := h.tagPart fn.toNat part.toNat; if p < 24 then h.dewClear p tag.toNat else h) s

end Sys2Proof.Machine
end

