-- ==== Sys2Proof/Machine/Drift.lean ====
section
/-! DEFINITION. Drift's commands (10): streams opened, closed and controlled, descriptors started, run and reported, remote rows retried,
host channels with ATS and page requests (R230-R249; 15: R361). -/

namespace Sys2Proof.Machine

-- STREAM_OPEN, STREAM_CLOSE (R231)

/-- A field of a parameter block. -/
def pbf (d off size : Nat) : Nat := bits d (8 * off) (8 * size)

/-- The parameter block is valid (Table 1, R7). -/
def paramOk (d : Nat) (pf : Bool) : Bool :=
  let cl := pbf d 0x09 1
  let key := pbf d 0x0D 1
  decide (pbf d 0 8 % 64 = 0) && decide (pbf d 0 8 < 2 ^ 52) && decide (6 ≤ pbf d 0x08 1) && decide (pbf d 0x08 1 ≤ 16)
    && (decide (cl = 0) || (decide (6 ≤ cl) && decide (cl ≤ 16))) && decide (pbf d 0x0A 2 < 8)
    && (!bitAt (pbf d 0x0A 2) 1 || bitAt (pbf d 0x0A 2) 0)
    && decide (1 ≤ pbf d 0x0C 1) && decide (pbf d 0x0C 1 ≤ 15) && (decide (key = 0xFF) || (pf && decide (key < 24)))
    && decide (1 ≤ pbf d 0x0E 2) && decide (pbf d 0x0E 2 ≤ 1000) && decide (pbf d 0x10 8 % 64 = 0)
    && (decide (cl ≠ 0) || decide (pbf d 0x10 8 = 0)) && decide (pbf d 0x1A 38 = 0)

/-- The lowest CLOSED stream that a DIE byte allows (R230, R358). -/
def Hub.freeStream (h : Hub) (die : Nat) : Option Nat :=
  let lo := if h.dies = 2 ∧ die = 1 then 16384 else 0
  let n := if h.dies = 2 ∧ die < 2 then 16384 else 32768
  findFrom n lo (fun k => !h.on (Reg.drfStreamStatusState k))

/-- The index of an owner in DRF_PART_LIMIT: 24 the PF. -/
def limitIx (p : Nat) : Nat := if p < 24 then p else 24

/-- A stream opened with its parameter block. -/
def Hub.openStream (h : Hub) (n fn p d : Nat) : Hub :=
  let h := h.count (Reg.drfPartLimitOpen (limitIx p)) 1
  (h.setStream n { Stream.rst with fn := fn, param := d }).sets
    [(Reg.drfStreamStatusState n, 1), (Reg.drfStreamStatusHostChannel n, pbf d 0x0A 2 % 2), (Reg.drfStreamStatusPartition n, p),
     (Reg.drfStreamStatusDbErr n, 0), (Reg.drfStreamStatusLastStatus n, 0), (Reg.drfStreamStatusHead n, 0)]

/-- The state of the machine refuses STREAM_OPEN (R231, Table 3 of 14, R337). -/
def Hub.openRefused (h : Hub) (c : QCmd) : Nat :=
  let p := h.vfOwner c.fn
  if h.whiteout ∨ h.life = 3 then 0x0D
  else if c.fn = 0 then 0
  else if h.partState p = 4 then 0x10
  else if h.partState p ≠ 2 then 0x0D
  else 0

/-- STREAM_OPEN, from its start: a parked read of the parameter block leaves it waiting. -/
def streamOpenCmd (c : QCmd) (s : State) : State :=
  let st := s.hub.cmdCheck c false
  let die := qf c 0x18 1
  if st ≠ 0 then s.done c st 0
  else if !qz c 0x19 0x40 ∨ (die ≠ 0 ∧ die ≠ 0xFF ∧ (die ≠ 1 ∨ s.hub.dies = 1)) then s.done c 0x02 0
  else if s.hub.openRefused c ≠ 0 then s.done c (s.hub.openRefused c) 0
  else match s.cmdRead c (qf c 0x10 8) 64 with
    | (none, s) => s
    | (some r, s) =>
      let p := if c.fn = 0 then 31 else s.hub.vfOwner c.fn
      if r.st ≠ 0 then s.done c r.st 0
      else if r.bad ≠ 0 then s.done c 0x08 0
      else if !paramOk r.v (decide (c.fn = 0)) then s.done c 0x02 0
      else if s.hub.get (Reg.drfPartLimitMax (limitIx p)) ≤ s.hub.get (Reg.drfPartLimitOpen (limitIx p)) then s.done c 0x03 0
      else match s.hub.freeStream die with
        | none => s.done c 0x03 0
        | some n => (s.onHub (·.openStream n c.fn p r.v)).done c 0 n

/-- STREAM_OPEN (R231). -/
def execStreamOpen (cmd : QCmd) (s : State) : Host.Outcome State Fault Refusal := .next (streamOpenCmd cmd s)

/-- STREAM_CLOSE (R231): checked in its order. -/
def execStreamClose (cmd : QCmd) (s : State) : Host.Outcome State Fault Refusal :=
  let n := qf cmd 0x18 2
  let st := s.hub.cmdCheck cmd false
  let state := s.hub.get (Reg.drfStreamStatusState n)
  if st ≠ 0 then .next (s.done cmd st 0)
  else if !qz cmd 0x10 0x18 ∨ !qz cmd 0x1A 0x40 ∨ 32767 < n then .next (s.done cmd 0x02 0)
  else if state = 0 ∨ (s.hub.stream n).fn ≠ cmd.fn then .next (s.done cmd 0x04 0)
  else if state = 1 ∨ state = 4 ∨ state = 5 then .next ((s.onHub (·.streamClosed n)).done cmd 0 0)
  else .next (s.done cmd 0x0D 0)

-- Doorbells

/-- DB_TAIL (R233, R234). -/
def execDbTail (src : DbSrc) (n : BitVec 15) (v : BitVec 32) (s0 : State) : Host.Outcome State Fault Refusal :=
  let s := s0.wroteSrc src
  .next (s.onHub (·.dbTail src n.toNat v.toNat))

/-- DB_CPLHEAD (R235). -/
def execDbCplhead (src : DbSrc) (n : BitVec 15) (v : BitVec 32) (s0 : State) : Host.Outcome State Fault Refusal :=
  let s := s0.wroteSrc src
  .next (s.dbCplhead src n.toNat v.toNat)

-- Descriptors (R236-R240)

/-- OP of a descriptor. -/
def Desc.op (d : Desc) : Nat := d.f 0 1
/-- A bit of FLAGS: 0 FENCE, 1 COMPLETE, 2 EVENT, 3 IRQ, 4 TAG_VALID. -/
def Desc.flag (d : Desc) (i : Nat) : Bool := bitAt (d.f 1 1) i
/-- SRC_FMT. -/
def Desc.sf (d : Desc) : Nat := d.f 2 1
/-- DST_FMT. -/
def Desc.df (d : Desc) : Nat := d.f 3 1
/-- A bit of MODE: 3 SRC_ALLOC, 4 DST_ALLOC, 5 SRC_HOST, 6 DST_HOST. -/
def Desc.mode (d : Desc) (i : Nat) : Bool := bitAt (d.f 5 1) i
/-- ROUND. -/
def Desc.round (d : Desc) : Rnd := Rnd.ofCode (d.f 5 1 % 8)
/-- The tag. -/
def Desc.tag (d : Desc) : Option Nat := if d.flag 4 then some (d.f 4 1) else none
/-- ROW_BYTES. -/
def Desc.rowBytes (d : Desc) : Nat := d.f 0x18 4
/-- ROWS. -/
def Desc.rows (d : Desc) : Nat := d.f 0x1C 4
/-- Bytes of an index. -/
def Desc.ixBytes (d : Desc) : Nat := if d.f 0x38 1 = 1 then 8 else 4
/-- GATHER or SCATTER. -/
def Desc.indexed (d : Desc) : Bool := decide (d.op = 3) || decide (d.op = 4)
/-- The descriptor reads source rows. -/
def Desc.reads (d : Desc) : Bool := decide (d.op = 1) || decide (3 ≤ d.op ∧ d.op ≤ 5)
/-- Elements of a row that converts. -/
def Desc.elems (d : Desc) : Nat := if d.sf = d.df then 0 else (rowElems (.ofNat d.sf) d.rowBytes).getD 0
/-- Bytes of a destination row (R238). -/
def Desc.dstBytes (d : Desc) : Nat := if d.sf = d.df then d.rowBytes else (rowLen (.ofNat d.df) d.elems).getD 0

/-- The rows are whole at both formats (R238, R149). -/
def Desc.whole (d : Desc) : Bool :=
  d.sf == d.df || (match rowElems (.ofNat d.sf) d.rowBytes with
    | some k => (rowLen (.ofNat d.df) k).isSome
    | none => false)

/-- The format bytes suit the operation (R239). -/
def Desc.fmtsOk (d : Desc) : Bool :=
  match d.op with
  | 1 => fmtLegal d.sf && decide (d.sf = d.df)
  | 3 => fmtLegal d.sf && fmtLegal d.df
  | 4 => fmtLegal d.sf && fmtLegal d.df
  | 5 => fmtLegal d.sf && fmtLegal d.df && decide (d.sf ≠ d.df)
  | _ => decide (d.sf = 0) && decide (d.df = 0)

/-- The checks of a descriptor that was read (R7, R236-R240, R243): 0 passes. `hostCh`: the stream is a host channel; `ring`: it has a
completion ring. -/
def Desc.check (d : Desc) (hostCh ring : Bool) : Nat :=
  let maint := decide (6 ≤ d.op)
  if 9 < d.op then 0x01
  else if d.f 1 1 < 32 ∧ d.f 5 1 % 8 ≤ 4 ∧ !d.mode 7 ∧ d.f 0x39 7 = 0 ∧ d.fmtsOk
      ∧ (d.op ≠ 0 ∨ (d.f 8 8 = 0 ∧ d.f 0x10 8 = 0 ∧ d.rowBytes = 0 ∧ d.rows = 0))
      ∧ (d.op = 0 ∨ (1 ≤ d.rowBytes ∧ d.rowBytes ≤ 16777216 ∧ 1 ≤ d.rows ∧ d.rows ≤ 16777216))
      ∧ (if d.indexed then d.f 0x38 1 < 2 ∧ d.f 0x30 8 % d.ixBytes = 0 else d.f 0x30 8 = 0 ∧ d.f 0x38 1 = 0)
      ∧ (!(d.mode 5 || d.mode 6) || hostCh) ∧ (!d.mode 5 || d.reads) ∧ (!d.mode 6 || !maint)
      ∧ d.whole ∧ (!maint || (decide (d.rowBytes % 128 = 0) && decide (d.f 0x10 8 % 128 = 0) && decide (d.f 0x24 4 % 128 = 0)))
      ∧ (!d.flag 1 || ring) then 0
  else 0x02

/-- Partition of a stream's port in import checks: KEY_PARTITION for the PF (R384). -/
def Hub.streamIssuer (h : Hub) (n : Nat) : Nat := if h.streamPart n = 31 then (h.stream n).key else h.streamPart n

/-- Who asks for a descriptor. -/
def Hub.rowCtx (h : Hub) (n ix : Nat) : RemCtx := ⟨.row n ix, h.streamIssuer n, h.streamDie n⟩

/-- An access of a descriptor is parked, held, or joined to a walk. -/
def Hub.rowStuck (h : Hub) (n ix : Nat) : Bool :=
  let w : Waiter := .stream n ix
  h.xlt.parked.any (fun a => decide (a.who = w)) || h.xlt.held.any (fun a => decide (a.who = w))
    || h.xlt.walks.any (fun k => decide (k.who = w) || k.joined.any (fun j => decide (j.2.2.2 = w)))

/-- The descriptor ended in a way that stops its stream (Table 5). -/
def Stream.stopsAt (x : Stream) (d : Desc) : Bool :=
  match d.ended with
  | some (st, _) => decide (st ≠ 0) && !(decide (st = 0x08) && bitAt (x.f 0x0A 2) 2 && !d.hard)
  | none => false

/-- The stream may start its next descriptor (R235, R242, R245, R247; Table 3 of 14). -/
def Hub.mayStart (h : Hub) (n : Nat) : Bool :=
  let x := h.stream n
  let st := h.get (Reg.drfStreamStatusState n)
  (decide (st = 1) || decide (st = 2)) && decide (h.get (Reg.drfStreamStatusHead n) ≠ x.tail) && x.held.isEmpty
    && decide (x.inflight.length < 16) && x.stop.isNone && !x.inflight.any x.stopsAt
    && (decide (h.streamPart n = 31) || decide (h.partState (h.streamPart n) = 2))

/-- A descriptor as it starts. -/
def Desc.new (ix raw : Nat) (known : Bool) : Desc := ⟨ix, raw, none, none, false, [], known, false, false, [], false⟩

/-- A descriptor in flight; HEAD passes it. -/
def Hub.pushDesc (h : Hub) (n : Nat) (d : Desc) : Hub :=
  let x := h.stream n
  ((h.setStream n { x with inflight := x.inflight ++ [d] }).set (Reg.drfStreamStatusHead n) (d.index + 1)).streamSettle n

/-- What the read of a descriptor gives: bytes, or how it failed. -/
inductive DescRead where
  | ok (raw : Nat)
  | bad (st : Nat)
  | wait

/-- The 64 bytes of ring entry `ix` (R233): from host memory they come with the command. -/
def State.descFetch (s : State) (n ix : Nat) (host : BitVec 512) : DescRead × State :=
  let x := s.hub.stream n
  let a := x.f 0 8 + 64 * (ix % 2 ^ x.f 8 1)
  if bitAt (x.f 0x0A 2) 1 then (if s.hub.quiet x.fn then .bad 0x07 else .ok host.toNat, s)
  else match s.devPieces n ix .read a 64 with
    | (none, s) => (.wait, s)
    | (some l, s) =>
      if s.hub.devRefuse n l ≠ 0 then (.bad (s.hub.devRefuse n l), s)
      else
        let r := s.readPieces (s.hub.streamOrg n) true l
        (if r.st ≠ 0 then .bad r.st else if r.bad ≠ 0 then .bad 0x08 else .ok r.v, r.s)

/-- EVENT_VA translated as the descriptor starts (R244): none where the access parks; else the counter's HPA if it reaches one. -/
def State.eventVa (s : State) (n ix : Nat) (d : Desc) : Option (Option Nat) × State :=
  if !d.flag 2 then (some none, s)
  else match s.devPieces n ix .write (d.f 0x28 8) 4 with
    | (none, s) => (none, s)
    | (some l, s) =>
      match l with
      | [(a, _)] => (match s.hub.region a with
        | .event _ _ => (some (if a % 4 = 0 then some a else none), s)
        | _ => (some none, s))
      | _ => (some none, s)

/-- DESCRIPTOR_START (R242-R245): the descriptor at HEAD is read and checked. A parked access starts it later. -/
def execDescriptorStart (n : BitVec 15) (host : BitVec 512) (s : State) : Host.Outcome State Fault Refusal :=
  let k := n.toNat
  let ix := s.hub.get (Reg.drfStreamStatusHead k)
  if !s.hub.mayStart k || s.hub.rowStuck k ix then .next s
  else match s.descFetch k ix host with
    | (.wait, s) => .next s
    | (.bad st, s) =>
      let x := s.hub.stream k
      let d := { Desc.new ix 0 false with hard := true }
      .next (s.onHub (·.pushDesc k (d.finish st (x.f 0 8 + 64 * (ix % 2 ^ x.f 8 1)))))
    | (.ok raw, s) =>
      let x := s.hub.stream k
      let d := Desc.new ix raw true
      if d.flag 0 && !x.inflight.isEmpty then .next s
      else match s.eventVa k ix d with
        | (none, s) => .next s
        | (some ev, s) =>
          let st := d.check (bitAt (x.f 0x0A 2) 0) (decide (x.f 9 1 ≠ 0))
          let st := if st = 0 ∧ d.flag 2 ∧ ev.isNone then 0x02 else st
          let d := { d with event := ev }
          .next (s.onHub (·.pushDesc k (if st ≠ 0 then d.finish st (d.f 8 8) else d)))

-- Host side (R249, R361, R364)

/-- The lowest free tag. -/
def Hub.freeTag (h : Hub) : Option Nat := findLow 16384 (fun t => !h.tags.any (fun x => decide (x.tag = t)))

/-- A tag reserved for a requester (R361). -/
def Hub.takeTag (h : Hub) (fn : Nat) (who : Requester) (key : Nat) : Option (Nat × Hub) :=
  match h.freeTag with
  | none => none
  | some t => some (t, { h with tags := h.tags ++ [⟨t, fn, tget 0 h.epochs fn, who, key⟩] })

/-- A request of a requester for a key is open. -/
def Hub.tagOpen (h : Hub) (who : Requester) (key : Nat) : Bool := h.tags.any (fun x => decide (x.who = who) && decide (x.key = key))

/-- A host address as it goes out: translated where the function's ATS is enabled (R249). -/
inductive HostAddr where
  | ok (a : Nat) (h : Hub)
  | wait (h : Hub)

/-- The address of a host-side access of a descriptor (R249): a translation is asked for where the cache lacks it. -/
def Hub.hostAddr (h : Hub) (n ix a rights : Nat) : HostAddr :=
  let fn := (h.stream n).fn
  if !h.on (Pci.atsEn fn) then .ok a h
  else match h.drift.ats.find? (fun e => decide (e.fn = fn) && decide (a / 4096 / 2 ^ e.log2 = e.page / 2 ^ e.log2)
      && decide ((e.rights &&& rights) = rights)) with
    | some e => .ok (e.out * 4096 + a % (4096 * 2 ^ e.log2)) h
    | none =>
      if h.tagOpen (.ats n ix) a || h.drift.pri.any (fun p => decide (p = (n, ix))) then .wait h
      else match h.takeTag fn (.ats n ix) a with
        | none => .wait h
        | some (_, h) => .wait (h.send (.ats fn a 0))

/-- A host row read: its data where they have come, else asked for. A request that may not go out ends the descriptor (R248). -/
def State.hostRead (s : State) (n ix a len : Nat) (got : List (Nat × Nat × Bool)) : RGot :=
  match got.find? (fun g => decide (g.1 = 2 ^ 64 + a)) with
  | some g => .ok s 0 (g.2.1 % 2 ^ (8 * len)) (if g.2.2 then allBad a len else 0)
  | none =>
    let fn := (s.hub.stream n).fn
    if s.hub.tagOpen (.stream n ix) (2 ^ 64 + a) then .wait s
    else if s.hub.quiet fn then .ok s 0x07 0 0
    else match s.hub.hostAddr n ix a 1 with
      | .wait h => .wait { s with hub := h }
      | .ok b h =>
        match h.takeTag fn (.stream n ix) (2 ^ 64 + a) with
        | none => .wait { s with hub := h }
        | some (t, h) => .wait { s with hub := h.send (.hostRead fn t b len) }

-- Rows

/-- A destination row resolved: pieces of the device side, or a bus address. -/
inductive RowDst where
  | dev (l : List (Nat × Nat))
  | host (a : Nat)

/-- A row ready to be written: its destination, bytes, poison. -/
structure RowOut where
  dst : RowDst
  n : Nat
  v : Nat
  bad : Nat

/-- What a row gives: a row to write (with the source address if it was poisoned), the end of the descriptor, or a wait. -/
inductive RowRes where
  | out (o : RowOut) (poison : Option Nat) (s : State)
  | stop (st detail : Nat) (s : State)
  | wait (again : Bool) (s : State)

/-- The destination side of a row (R237): none: it parks or waits. -/
def State.rowDst (s : State) (n ix va len : Nat) (host : Bool) : Option RowDst × State :=
  if host then
    match s.hub.hostAddr n ix va 2 with
    | .ok a h => (some (.host a), { s with hub := h })
    | .wait h => (none, { s with hub := h })
  else match s.devPieces n ix .write va len with
    | (none, s) => (none, s)
    | (some l, s) => (some (.dev l), s)

/-- The destination lies in stack memory. -/
def Hub.dstStack (h : Hub) (d : RowDst) : Bool := match d with | .dev l => (match l with | (a, _) :: _ => h.region a == .stack | [] => false) | .host _ => false

/-- What R232 refuses of a destination. -/
def Hub.dstRefuse (h : Hub) (n : Nat) (d : RowDst) : Nat :=
  match d with
  | .dev l => h.devRefuse n l
  | .host _ => if h.quiet (h.stream n).fn then 0x07 else 0

/-- The first HPA of a destination. -/
def RowDst.hpa (d : RowDst) : Nat := match d with | .dev ((a, _) :: _) => a | _ => 0

/-- The source side of a row resolved: its pieces (none: host), or a wait. -/
def State.rowSrc (s : State) (n ix va len : Nat) (host : Bool) : Option (List (Nat × Nat)) × State :=
  if host then (some [], s) else s.devPieces n ix .read va len

/-- The bytes of a source row. -/
def State.rowRead (s : State) (n ix va len : Nat) (host alloc : Bool) (d : Desc) (l : List (Nat × Nat)) : RGot :=
  if host then s.hostRead n ix va len d.got
  else if s.hub.devRefuse n l ≠ 0 then .ok s (s.hub.devRefuse n l) 0 0
  else s.readAny (s.hub.streamOrg n) alloc (s.hub.rowCtx n ix) d.got l

/-- One row moved as far as its destination bytes (R237-R239, R241): source address, destination address. -/
def State.rowMove (s : State) (n : Nat) (d : Desc) (sva dva : Nat) : RowRes :=
  let ix := d.index
  let p := s.hub.streamPart n
  match s.rowSrc n ix sva d.rowBytes (d.mode 5) with
  | (none, s) => .wait false s
  | (some sp, s) =>
    match s.rowDst n ix dva d.dstBytes (d.mode 6) with
    | (none, s) => .wait false s
    | (some dp, s) =>
      let ss := !d.mode 5 && (match sp with | (a, _) :: _ => s.hub.region a == .stack | [] => false)
      let ds := s.hub.dstStack dp
      if d.sf ≠ d.df ∧ !ss ∧ !ds then .stop 0x02 sva s
      else match s.hub.rowPlan p d.tag sva ss dva ds d.sf d.df with
        | .refuse st => .stop st (if ss then sva else dva) s
        | .wait => .wait false s
        | .go sf df whole =>
          let k := if whole then 1024 else d.elems
          let n1 := if whole then (rowLen (.ofNat sf) k).getD 0 else d.rowBytes
          let n2 := if whole then (rowLen (.ofNat df) k).getD 0 else d.dstBytes
          match s.rowSrc n ix sva n1 (d.mode 5) with
          | (none, s) => .wait false s
          | (some sp, s) =>
            match s.rowDst n ix dva n2 (d.mode 6) with
            | (none, s) => .wait false s
            | (some dp, s) =>
              if s.hub.dstRefuse n dp ≠ 0 then .stop (s.hub.dstRefuse n dp) dva s
              else match s.rowRead n ix sva n1 (d.mode 5) (d.mode 3) d sp with
                | .wait s => .wait true s
                | .ok s st v bad =>
                  if st ≠ 0 then .stop st sva s
                  else
                    let c := convertRow (.ofNat sf) (.ofNat df) v k sva dva ss d.round
                    let bad' := if sf = df then shiftBad sva dva n2 bad else convBad (.ofNat sf) (.ofNat df) k sva dva bad
                    let s := s.dewConv p d.tag (.ofNat sf) (.ofNat df) ss (if ss then sva else dva) (if ss then firstPiece sp else dp.hpa) c
                    .out ⟨dp, n2, c.out, bad'⟩ (if bad = 0 then none else some sva) s
where
  /-- The first HPA of a list of pieces. -/
  firstPiece (l : List (Nat × Nat)) : Nat := match l with | (a, _) :: _ => a | [] => 0

/-- What the rows of a descriptor give together: the rows to write, the first poisoned source, how it ends early; or a wait. -/
structure Rows where
  outs : List RowOut
  poison : Option Nat
  stop : Option (Nat × Nat)
  wait : Bool
  s : State

/-- Rows `r` on, `f` of them, at the addresses that `addr` gives: none where an index leaves the address space or is poisoned, with the
status and DETAIL. -/
def State.rowsGo (f r : Nat) (s : State) (n : Nat) (d : Desc) (addr : Nat → (Nat × Nat) ⊕ (Nat × Nat)) : Rows :=
  match f with
  | 0 => ⟨[], none, none, false, s⟩
  | f + 1 =>
    match addr r with
    | .inr (st, det) => ⟨[], none, some (st, det), false, s⟩
    | .inl (sva, dva) =>
      match s.rowMove n d sva dva with
      | .wait true s => { State.rowsGo f (r + 1) s n d addr with wait := true }
      | .wait false s => ⟨[], none, none, true, s⟩
      | .stop st det s => ⟨[], none, some (st, det), false, s⟩
      | .out o p s =>
        let t := State.rowsGo f (r + 1) s n d addr
        ⟨o :: t.outs, (match p with | some a => some a | none => t.poison), t.stop, t.wait, t.s⟩

/-- One row written: the status of the write. Posted writes of the host side go out at once, poisoned ones as poisoned TLPs. -/
def State.rowWrite (s : State) (n ix : Nat) (alloc : Bool) (o : RowOut) : Nat × State :=
  match o.dst with
  | .host a =>
    let fn := (s.hub.stream n).fn
    if s.hub.quiet fn then (0x07, s)
    else (0, s.onHub (·.send (if o.bad = 0 then .hostWrite fn a o.n o.v else .hostPoison fn a o.n o.v)))
  | .dev l => s.writeAny (s.hub.streamOrg n) alloc (s.hub.rowCtx n ix) o.v o.bad l

/-- Rows written in order: the first status that is not OK. -/
def State.rowsWrite (s : State) (n ix : Nat) (alloc : Bool) : List RowOut → Nat × State
  | [] => (0, s)
  | o :: t =>
    let a := s.rowWrite n ix alloc o
    let b := a.2.rowsWrite n ix alloc t
    (firstSt a.1 b.1, b.2)

/-- Bytes counted for a stream's port: read, written (DRF_PERF, R326). -/
def Hub.rowCount (h : Hub) (n rd wr a : Nat) : Hub :=
  let i := limitIx (h.streamPart n)
  let h := (h.wrap (Reg.drfPerfRdCount i) rd).wrap (Reg.drfPerfWrCount i) wr
  h.qosCount (h.streamPort n) a wr true

/-- The rows of a descriptor written, and its end: where peers still owe an answer it ends later. -/
def State.rowsEnd (n : Nat) (d : Desc) (q : Rows) : State :=
  let w := q.s.rowsWrite n d.index (d.mode 4) q.outs
  let bytes := (q.outs.map (·.n)).sum
  let s := w.2.onHub (fun h => h.rowCount n (if d.reads then d.rowBytes * q.outs.length else 0) bytes
    (match q.outs with | o :: _ => o.dst.hpa | [] => 0))
  let st : Nat × Nat := match q.stop with
    | some x => x
    | none => if w.1 ≠ 0 then (w.1, d.f 0x10 8) else match q.poison with | some a => (0x08, a) | none => (0, bytes)
  s.onHub (fun h =>
    let h := h.onDesc n d.index (fun d => { d with wrote := true })
    if st.1 = 0 ∧ h.anyOut (.row n d.index) then h else h.onDesc n d.index (fun d => d.finish st.1 st.2))

/-- A descriptor that waits only for its peers ends once they have answered (R243). -/
def Hub.rowsDone (h : Hub) (n : Nat) (d : Desc) : Hub :=
  if h.anyOut (.row n d.index) || !d.retry.isEmpty then h else h.onDesc n d.index (fun d => d.finish 0 (d.rows * d.dstBytes))

/-- Port-side bytes of a descriptor (R322): read as delivered and written as sent. -/
def Desc.bytes (d : Desc) : Nat := (if d.reads then d.rowBytes * d.rows else 0) + (if 1 ≤ d.op ∧ d.op ≤ 6 then d.dstBytes * d.rows else 0)

/-- Admission, then the body, for a descriptor in flight that has not ended; a descriptor that has been written waits for its peers. -/
def State.descRun (s : State) (n ix op : Nat) (body : State → Desc → State) : State :=
  match s.hub.desc n ix with
  | none => s
  | some d =>
    if d.ended.isSome || decide (d.op ≠ op) || s.hub.rowStuck n ix then s
    else if d.wrote then s.onHub (·.rowsDone n d)
    else if !d.retry.isEmpty then s
    else
      let a := if d.paid then (true, s.hub) else s.hub.admitReq (s.hub.streamPort n) d.bytes (.row n ix d.bytes)
      let s : State := { s with hub := a.2 }
      if !a.1 then s else body (s.onHub (fun h => h.onDesc n ix (fun d => { d with paid := true }))) d

/-- Plain rows of COPY and TRANSCODE (Table 3). -/
def Desc.plain (d : Desc) (r : Nat) : (Nat × Nat) ⊕ (Nat × Nat) := .inl (d.f 8 8 + r * d.f 0x20 4, d.f 0x10 8 + r * d.f 0x24 4)

/-- DRIFT_NOP (R236): no rows. -/
def execDriftNop (n : BitVec 15) (ix : BitVec 32) (s : State) : Host.Outcome State Fault Refusal :=
  .next (s.descRun n.toNat ix.toNat 0 (fun s d => s.onHub (fun h => h.onDesc n.toNat d.index (fun d => d.finish 0 0))))

/-- The rows of a descriptor, and what follows. -/
def State.moveRows (s : State) (n : Nat) (d : Desc) (addr : Nat → (Nat × Nat) ⊕ (Nat × Nat)) : State :=
  let q := State.rowsGo d.rows 0 s n d addr
  if q.wait && q.stop.isNone then q.s else State.rowsEnd n d q

/-- DRIFT_COPY (R236). -/
def execDriftCopy (n : BitVec 15) (ix : BitVec 32) (s : State) : Host.Outcome State Fault Refusal :=
  .next (s.descRun n.toNat ix.toNat 1 (fun s d => s.moveRows n.toNat d d.plain))

/-- DRIFT_TRANSCODE (R239). -/
def execDriftTranscode (n : BitVec 15) (ix : BitVec 32) (s : State) : Host.Outcome State Fault Refusal :=
  .next (s.descRun n.toNat ix.toNat 5 (fun s d => s.moveRows n.toNat d d.plain))

/-- Eight bytes repeated over `n`. -/
def fillRow (n v : Nat) : Nat :=
  match n with
  | 0 => 0
  | n + 1 => v % 256 + 256 * fillRow n (v / 256 + v % 256 * 2 ^ 56)

/-- Rows of FILL. -/
def State.fillRows (f r : Nat) (s : State) (n : Nat) (d : Desc) : Rows :=
  match f with
  | 0 => ⟨[], none, none, false, s⟩
  | f + 1 =>
    let va := d.f 0x10 8 + r * d.f 0x24 4
    match s.rowDst n d.index va d.rowBytes (d.mode 6) with
    | (none, s) => ⟨[], none, none, true, s⟩
    | (some dp, s) =>
      if s.hub.dstRefuse n dp ≠ 0 then ⟨[], none, some (s.hub.dstRefuse n dp, va), false, s⟩
      else match s.hub.sideFmt (s.hub.streamPart n) d.tag va (s.hub.dstStack dp) with
        | .bad => ⟨[], none, some (0x02, va), false, s⟩
        | .wait => ⟨[], none, none, true, s⟩
        | _ =>
          let t := State.fillRows f (r + 1) s n d
          { t with outs := ⟨dp, d.rowBytes, fillRow d.rowBytes (d.f 8 8), 0⟩ :: t.outs }

/-- DRIFT_FILL (R236). -/
def execDriftFill (n : BitVec 15) (ix : BitVec 32) (s : State) : Host.Outcome State Fault Refusal :=
  .next (s.descRun n.toNat ix.toNat 2 (fun s d =>
    let q := State.fillRows d.rows 0 s n.toNat d
    if q.wait then q.s else State.rowsEnd n.toNat d q))

/-- The index list of a descriptor (R245): its bytes, poison and address pieces; or a wait, or a status. -/
def State.indexList (s : State) (n : Nat) (d : Desc) : RGot :=
  let len := d.rows * d.ixBytes
  match s.devPieces n d.index .read (d.f 0x30 8) len with
  | (none, s) => .wait s
  | (some l, s) =>
    if s.hub.devRefuse n l ≠ 0 then .ok s (s.hub.devRefuse n l) 0 0
    else s.readAny (s.hub.streamOrg n) true (s.hub.rowCtx n d.index) d.got l

/-- Addresses of row `r` from its index (Table 3, R238): none past the address space, none where the index is poisoned. -/
def Desc.indexedRow (d : Desc) (v bad r : Nat) : (Nat × Nat) ⊕ (Nat × Nat) :=
  let w := d.ixBytes
  let iva := d.f 0x30 8
  if bitAt bad ((iva % 32 + r * w) / 32) then .inr (0x08, iva + r * w)
  else
    let i := bits v (8 * r * w) (8 * w)
    if d.op = 3 then
      let a := d.f 8 8 + i * d.f 0x20 4
      if !d.mode 5 ∧ 2 ^ 52 < a + d.rowBytes then .inr (0x02, a) else .inl (a, d.f 0x10 8 + r * d.f 0x24 4)
    else
      let a := d.f 0x10 8 + i * d.f 0x24 4
      if !d.mode 6 ∧ 2 ^ 52 < a + d.dstBytes then .inr (0x02, a) else .inl (d.f 8 8 + r * d.f 0x20 4, a)

/-- Rows whose indices are not poisoned, in order; the first poisoned one gives the end (R245). -/
def State.indexedGo (f r : Nat) (s : State) (n : Nat) (d : Desc) (v bad : Nat) : Rows :=
  match f with
  | 0 => ⟨[], none, none, false, s⟩
  | f + 1 =>
    match d.indexedRow v bad r with
    | .inr (0x08, det) => let t := State.indexedGo f (r + 1) s n d v bad; { t with stop := some (0x08, det) }
    | _ =>
      let a := State.rowsGo 1 r s n d (d.indexedRow v bad)
      if a.stop.isSome then a
      else
        let t := State.indexedGo f (r + 1) a.s n d v bad
        ⟨a.outs ++ t.outs, (match a.poison with | some x => some x | none => t.poison), t.stop, a.wait || t.wait, t.s⟩

/-- GATHER and SCATTER: the index list, then the rows. -/
def State.indexedRows (s : State) (n : Nat) (d : Desc) : State :=
  match s.indexList n d with
  | .wait s => s
  | .ok s st v bad =>
    if st ≠ 0 then s.onHub (fun h => h.onDesc n d.index (fun d => d.finish st (d.f 0x30 8)))
    else
      let q := State.indexedGo d.rows 0 s n d v bad
      if q.wait && q.stop.isNone then q.s
      else
        let s := if bad ≠ 0 then q.s.onHub (fun h => h.onDesc n d.index (fun d => { d with hard := true })) else q.s
        State.rowsEnd n d { q with s := s }

/-- DRIFT_GATHER (R236). -/
def execDriftGather (n : BitVec 15) (ix : BitVec 32) (s : State) : Host.Outcome State Fault Refusal :=
  .next (s.descRun n.toNat ix.toNat 3 (fun s d => s.indexedRows n.toNat d))

/-- DRIFT_SCATTER (R236). -/
def execDriftScatter (n : BitVec 15) (ix : BitVec 32) (s : State) : Host.Outcome State Fault Refusal :=
  .next (s.descRun n.toNat ix.toNat 4 (fun s d => s.indexedRows n.toNat d))

/-- Lines of a list of pieces maintained in order (R223, R240): the first status that is not OK; a row outside stack memory and
scratchpads is INVALID_FIELD. -/
def State.maintRow (s : State) (n op : Nat) : List (Nat × Nat) → Nat × State
  | [] => (0, s)
  | (a, len) :: t =>
    let bad := match s.hub.region a with | .stack => false | .scratch _ _ => false | _ => true
    if bad then (0x02, s)
    else
      let q : Nat × State := (List.range (len / 128)).foldl (fun (q : Nat × State) i =>
        let r := q.2.maintAt (q.2.hub.streamOrg n) op (a + 128 * i)
        (firstSt q.1 r.st, r.s)) (0, s)
      let u := q.2.maintRow n op t
      (firstSt q.1 u.1, u.2)

/-- Rows of ZERO, CLEAN, INVALIDATE, CLEAN_INVALIDATE from row `r` on: how the descriptor ends, none: an access parks. -/
def State.maintRows (f r : Nat) (s : State) (n op : Nat) (d : Desc) : Option (Nat × Nat) × State :=
  match f with
  | 0 => (some (0, d.rows * d.rowBytes), s)
  | f + 1 =>
    let va := d.f 0x10 8 + r * d.f 0x24 4
    match s.devPieces n d.index .write va d.rowBytes with
    | (none, s) => (none, s)
    | (some l, s) =>
      if s.hub.devRefuse n l ≠ 0 then (some (s.hub.devRefuse n l, va), s)
      else
        let q := s.maintRow n op l
        if q.1 ≠ 0 then (some (q.1, va), q.2) else State.maintRows f (r + 1) q.2 n op d

/-- A maintenance descriptor (R240). -/
def driftMaint (op : Nat) (n : BitVec 15) (ix : BitVec 32) (s : State) : Host.Outcome State Fault Refusal :=
  .next (s.descRun n.toNat ix.toNat (6 + op) (fun s d =>
    match State.maintRows d.rows 0 s n.toNat op d with
    | (none, s) => s
    | (some e, s) => s.onHub (fun h => h.onDesc n.toNat d.index (fun d => d.finish e.1 e.2))))

/-- DRIFT_ZERO (R240). -/
def execDriftZero (n : BitVec 15) (ix : BitVec 32) (s : State) : Host.Outcome State Fault Refusal := driftMaint 0 n ix s
/-- DRIFT_CLEAN (R240). -/
def execDriftClean (n : BitVec 15) (ix : BitVec 32) (s : State) : Host.Outcome State Fault Refusal := driftMaint 1 n ix s
/-- DRIFT_INVALIDATE (R240). -/
def execDriftInvalidate (n : BitVec 15) (ix : BitVec 32) (s : State) : Host.Outcome State Fault Refusal := driftMaint 2 n ix s
/-- DRIFT_CLEAN_INVALIDATE (R240). -/
def execDriftCleanInvalidate (n : BitVec 15) (ix : BitVec 32) (s : State) : Host.Outcome State Fault Refusal := driftMaint 3 n ix s

-- Reports (R243, R245)

/-- A descriptor that ended, reported in ring order: its record where it has one, else its event and interrupt at once. -/
def State.descReport (s : State) (n : Nat) (d : Desc) (st detail : Nat) : State :=
  let x := s.hub.stream n
  let r : DescRec := ⟨d.index, if d.known then d.f 6 2 else 0, st, d.retried, detail, d.event, d.known && d.flag 3⟩
  let ring := decide (x.f 9 1 ≠ 0)
  let s := s.onHub (fun h =>
    let x' := { x with inflight := x.inflight.filter (fun y => !decide (y.index = d.index)),
                       stop := if x.stopsAt d then some st else x.stop,
                       held := if ring && (decide (st ≠ 0) || (d.known && d.flag 1)) then x.held ++ [r] else x.held }
    let h := h.setStream n x'
    if st = 0x06 then h.event Reg.drfEventHostTimeout else h)
  let s := if ring && (decide (st ≠ 0) || (d.known && d.flag 1)) then s else s.descAfter n r
  s.streamFlush n

/-- DESCRIPTOR_COMPLETE (R243): the oldest descriptor in flight has ended. -/
def execDescriptorComplete (n : BitVec 15) (s : State) : Host.Outcome State Fault Refusal :=
  match (s.hub.stream n.toNat).inflight with
  | [] => .next (s.streamFlush n.toNat)
  | d :: _ => match d.ended with
    | none => .next s
    | some (st, det) => .next (s.descReport n.toNat d st det)

-- Stream control (R247)

/-- The stream may be controlled from a function's BAR0: the PF's, or its owner's (R347). -/
def Hub.ctrlOk (h : Hub) (fn n : Nat) : Bool := !h.vfMute fn && h.on (Reg.drfStreamStatusState n) && (decide (fn = 0) || decide ((h.stream n).fn = fn))

/-- A stream told to pause. -/
def Hub.streamPause (h : Hub) (n : Nat) : Hub :=
  let st := h.get (Reg.drfStreamStatusState n)
  if st = 1 ∨ st = 2 then (h.sets [(Reg.drfStreamStatusState n, 3), (Reg.drfStreamCtrlPause n, 1)]).streamSettle n else h

/-- PAUSE written by a function. -/
def Hub.pauseBy (h : Hub) (fn n : Nat) : Hub := if h.ctrlOk fn n then h.streamPause n else h

/-- STREAM_PAUSE. -/
def execStreamPause (fn : BitVec 6) (n : BitVec 15) (s0 : State) : Host.Outcome State Fault Refusal :=
  let s := s0.wroteBy fn.toNat
  hubStep (·.pauseBy fn.toNat n.toNat) s

/-- A stream runs again from PAUSED or ERROR, at HEAD. -/
def Hub.streamResume (h : Hub) (n : Nat) : Hub :=
  let st := h.get (Reg.drfStreamStatusState n)
  if st = 4 ∨ st = 5 then
    ((h.setStream n { h.stream n with stop := none, paused := false }).sets [(Reg.drfStreamStatusState n, 1), (Reg.drfStreamCtrlResume n, 1)]).streamSettle n
  else h

/-- RESUME written by a function: without meaning while the partition is not ACTIVE, whose streams are paused (Table 3 of 14). -/
def Hub.resumeBy (h : Hub) (fn n : Nat) : Hub :=
  if h.ctrlOk fn n ∧ (h.streamPart n = 31 ∨ h.partState (h.streamPart n) = 2) then h.streamResume n else h

/-- STREAM_RESUME. -/
def execStreamResume (fn : BitVec 6) (n : BitVec 15) (s0 : State) : Host.Outcome State Fault Refusal :=
  let s := s0.wroteBy fn.toNat
  hubStep (·.resumeBy fn.toNat n.toNat) s

/-- Rows of a stream taken from the port that holds them. -/
def Hub.dropHeldRows (h : Hub) (n : Nat) : Hub :=
  { h with qos := h.qos.map (fun p => (p.1, { p.2 with held := p.2.held.filter (fun x => match x with | .row n' _ _ => !decide (n' = n) | _ => true) })) }

/-- ABORT written by a function: what is in flight ends ABORTED, what is posted is discarded. -/
def Hub.abortBy (h : Hub) (fn n : Nat) : Hub :=
  if !h.ctrlOk fn n || decide (h.get (Reg.drfStreamStatusState n) = 6) then h
  else
    let h := (h.dropHeldRows n).endAll n 0x07
    (h.sets [(Reg.drfStreamStatusState n, 6), (Reg.drfStreamCtrlAbort n, 1), (Reg.drfStreamCtrlPause n, 0)]).streamSettle n

/-- STREAM_ABORT. -/
def execStreamAbort (fn : BitVec 6) (n : BitVec 15) (s0 : State) : Host.Outcome State Fault Refusal :=
  let s := s0.wroteBy fn.toNat
  hubStep (·.abortBy fn.toNat n.toNat) s

-- Remote rows (R246)

/-- REMOTE_ROW_RETRY: the requests of a descriptor that a peer answered WINDOW_CLOSING go out again, as they were admitted, until RETRY_MS
has passed (`us` microseconds). -/
def execRemoteRowRetry (n : BitVec 15) (ix : BitVec 32) (us : BitVec 32) (s : State) : Host.Outcome State Fault Refusal :=
  let k := n.toNat
  match s.hub.desc k ix.toNat with
  | none => .next s
  | some d =>
    match d.retry with
    | [] => .next s
    | r :: _ =>
      if (s.hub.stream k).f 0x0E 2 * 1000 < us.toNat then .next (s.onHub (fun h => h.onDesc k d.index (fun d => d.finish 0x0B r.place)))
      else .next (s.onHub (fun h =>
        let h := h.onDesc k d.index (fun d => { d with retry := [], retried := true })
        d.retry.foldl (fun h q =>
          let x := h.sendImport (h.streamIssuer k) (h.streamDie k) (winSlot q.place).1 { q with psn := 0, resends := 0, held := false }
          if x.2 then x.1 else h.onDesc k d.index (fun d => d.finish 0x0A q.place)) h))

-- ATS and page requests (R249)

/-- A host-side request of a function's streams is open. -/
def Hub.hostOpen (h : Hub) (fn : Nat) : Bool :=
  h.tags.any (fun t => decide (t.fn = fn) && (match t.who with | .stream _ _ => true | _ => false))

/-- Invalidations of a function that no open request holds back complete. -/
def Hub.flushAts (h : Hub) (fn : Nat) : Hub :=
  if h.hostOpen fn then h
  else
    let mine := h.drift.inv.filter (fun x => decide (x.1 = fn))
    let h : Hub := { h with drift := { h.drift with inv := h.drift.inv.filter (fun x => !decide (x.1 = fn)) } }
    mine.foldl (fun h x => h.send (.ats fn (x.2.1 * 4096) 1)) h

/-- ATS_INVALIDATION: translations that overlap the span go; the request completes once no request uses them. -/
def execAtsInvalidation (fn : BitVec 6) (page : BitVec 52) (log2 : BitVec 6) (s : State) : Host.Outcome State Fault Refusal :=
  let k := max log2.toNat 0
  .next (s.onHub (fun h =>
    let d := h.drift
    let l := d.ats.filter (fun e => !(decide (e.fn = fn.toNat) && decide (e.page / 2 ^ max e.log2 k = page.toNat / 2 ^ max e.log2 k)))
    ({ h with drift := { d with ats := l, inv := d.inv ++ [(fn.toNat, page.toNat, k)] } }).flushAts fn.toNat))

/-- PRI_RESPONSE: the held access goes on, or its descriptor ends TRANSLATION_FAULT. -/
def execPriResponse (n : BitVec 15) (ix : BitVec 32) (ok : Bool) (s : State) : Host.Outcome State Fault Refusal :=
  let k := (n.toNat, ix.toNat)
  if !s.hub.drift.pri.any (fun p => decide (p = k)) then .next s
  else .next (s.onHub (fun h =>
    let h : Hub := { h with drift := { h.drift with pri := h.drift.pri.filter (fun p => !decide (p = k)) } }
    if ok then h else h.onDesc n.toNat ix.toNat (fun d => d.finish 0x05 (d.f 8 8))))

end Sys2Proof.Machine
end

