-- ==== Sys2Proof/Machine/Partitions.lean ====
section
/-! DEFINITION. Partitions (14): START, STOP, partition reset and Thaw, and the scrubbing that they share with the Thaw of a removed
resource (R338) and with a Function Level Reset (R366). -/

namespace Sys2Proof.Machine

-- Scrubbing

/-- Registers from offset `lo` up to `hi` back at their reset values. -/
def Hub.resetRange (h : Hub) (lo hi : Nat) : Hub :=
  { h with regs := h.regs.filter (fun x => !(decide (lo * 2048 ≤ x.1) && decide (x.1 < hi * 2048))) }

/-- Waiters whose access belongs to a queue command of a function. -/
def cmdWaiter (fn : Nat) (w : Waiter) : Bool := match w with | .command c => decide (c.fn = fn) | _ => false

/-- A command that may post nothing any more. -/
def deadCmd (fn : Nat) (c : QCmd) : QCmd := if c.fn = fn then { c with q := 64 } else c

/-- The commands of a function post nothing any more, and their parked accesses go. -/
def Hub.killCmds (h : Hub) (fn : Nat) : Hub :=
  let h := h.dropParked (cmdWaiter fn)
  { h with
    xlt := { h.xlt with invals := h.xlt.invals.map (fun i => { i with cmd := i.cmd.map (deadCmd fn) }) }
    sea := { h.sea with launches := h.sea.launches.map (fun l => (l.1, { l.2 with cmd := deadCmd fn l.2.cmd })) }
    sec := { h.sec with installs := h.sec.installs.map (fun i => { i with cmd := deadCmd fn i.cmd }) }
    cols := h.cols.map (fun g => (g.1, { g.2 with posts := g.2.posts.map (deadCmd fn),
                                                   run := g.2.run.map (fun r => { r with cmd := deadCmd fn r.cmd }) })) }

/-- The queue pairs of a function at reset (Table 13 of 15): its epoch advances, so that nothing asked before is answered (R361). -/
def Hub.queuesReset (h : Hub) (fn : Nat) : Hub :=
  let h := h.killCmds fn
  let h := h.resetRange (0x1001000 + 0x100000000 * fn) (0x1002000 + 0x100000000 * fn)
  { h with queues := h.queues.filter (fun x => !decide (x.1 / 64 = fn)), epochs := tset 0 h.epochs fn (tget 0 h.epochs fn + 1) }

/-- A link's paths close, and what is outstanding on them ends PEER_UNREACHABLE (R377, R392). -/
def Hub.linkClear (h : Hub) (l : Nat) : Hub :=
  let w := (h.links.waiting.filter (fun x => decide (x.1 = l))).map (fun x => x.2.2)
  let h : Hub := { h with links := { h.links with waiting := h.links.waiting.filter (fun x => !decide (x.1 = l)) } }
  (h.closePaths l (fun _ => true) 0x0A).remFailAll w 0x0A

/-- A link whose partition thaws, or that leaves its partition: PATH_CLOSE on every open path first (R336, R338). -/
def Hub.linkThaw (h : Hub) (l : Nat) : Hub :=
  let h := ((h.pathsOf l).filter (·.isOpen)).foldl (fun h p => h.frame l p.num typePathClose p.txPsn 0 p.peerNum 0) h
  h.linkClear l

/-- A WTT entry that is OPEN or CLOSING becomes CLOSED, one generation on, and requests it admitted that still wait go (R392). -/
def Hub.winShut (h : Hub) (d w : Nat) : Hub :=
  if h.get (Reg.winWttState d w) = 1 ∨ h.get (Reg.winWttState d w) = 2 then
    let h := h.sets [(Reg.winWttState d w, 3), (Reg.winWttGen d w, h.get (Reg.winWttGen d w) + 1), (Reg.winWttDrain d w, 0),
      (Reg.winWttClose d w, 0)]
    { h with
      links := { h.links with
        held := h.links.held.filter (fun x => !(decide (x.die = d) && decide (x.w = w)))
        paths := h.links.paths.map (fun p => { p with unacked := p.unacked.map (fun k => if k = d * 4096 + w then 8192 else k) }) }
      qos := h.qos.map (fun p => (p.1, { p.2 with
        held := p.2.held.filter (fun x => match x with | .win r => !(decide (r.die = d) && decide (r.w = w)) | _ => true) })) }
  else h

/-- The windows of a partition shut, and its import entries invalid (R392). -/
def Hub.winsClear (h : Hub) (p : Nat) : Hub :=
  let h := overList (fun k h =>
    if h.get (Reg.winWttPartition (k / 4096) (k % 4096)) = p then h.winShut (k / 4096) (k % 4096) else h) (List.range 8192) h
  overList (fun k h => if h.get (Reg.winImportPartition k) = p then h.set (Reg.winImportV k) 0 else h) (List.range 1008) h

/-- A command that leaves without a completion record. -/
def Hub.forget (h : Hub) (c : QCmd) : Hub :=
  if 64 ≤ c.q then h
  else
    let x := h.qp c.fn c.q
    (h.setQp c.fn c.q { x with openCmds := x.openCmds.erase c }).drainQueue c.fn c.q

/-- A group destroyed: its collectives end with no record posted and no COL_ABORT sent (R410). -/
def Hub.groupGone (h : Hub) (g : Nat) : Hub :=
  match h.group g with
  | none => h
  | some c =>
    let h := h.dropParked (colWaiter g)
    let h : Hub := { h with
      cols := terase h.cols g
      qos := h.qos.map (fun p => (p.1, { p.2 with held := p.2.held.filter (fun x => match x with | .col g' _ => !decide (g' = g) | _ => true) })) }
    let h := (c.posts ++ (match c.run with | some r => [r.cmd] | none => [])).foldl (fun h c => h.forget c) h
    h.resetRange (0xC01000 + 0x20 * g) (0xC01020 + 0x20 * g)

/-- An address space back at reset, its translations gone (R275). -/
def Hub.asReset (h : Hub) (n : Nat) : Hub :=
  let h := h.resetRange (0x708000 + 8 * n) (0x708008 + 8 * n)
  { h with xlt := { h.xlt with
    tlbs := h.xlt.tlbs.filter (fun t => !decide (t.asid = n)), wcache := h.xlt.wcache.filter (fun t => !decide (t.asid = n)),
    invals := h.xlt.invals.filter (fun i => !(i.cmd.isNone && decide (i.asid = n))) } }

/-- Translation of a partition (R275): parked accesses, walks and open faults are discarded; pending records, the fault queue's registers
and every address space but the primary return to their reset values. -/
def Hub.xltClear (h : Hub) (p : Nat) : Hub :=
  let x := h.xlt
  let mine (d k : Nat) : Bool := x.faults.any (fun f => decide (f.part = p) && decide (f.die = d) && decide (f.slot = k))
  let held := x.held.filter (fun a => !decide (a.part = p))
  let h : Hub := { h with xlt := { x with
    parked := x.parked.filter (fun a => !mine a.die a.slot), faults := x.faults.filter (fun f => !decide (f.part = p)),
    held := held, walks := x.walks.filter (fun w => !decide (w.part = p)),
    episode := x.episode.filter (fun d => held.any (fun a => decide (a.die = d))) } }
  let h := h.resetRange (0x700100 + 0x20 * p) (0x700120 + 0x20 * p)
  overList (fun n h => if h.get (Reg.xltAsPartition n) = p ∧ n ≠ p then h.asReset n else h) ((List.range 4096).filter (fun n => decide (24 ≤ n))) h

/-- Dewpoint of a partition (R180): tags, counters, samples and migrations go; policy and accumulator formats stay. -/
def Hub.dewScrub (h : Hub) (p : Nat) : Hub :=
  let d := h.dew
  let h : Hub := { h with dew := {
    wins := d.wins.filter (fun x => !decide (x.1 / 256 = p)), q0 := d.q0.filter (fun x => !decide (x.part = p)),
    q1 := d.q1.filter (fun x => !decide (x.part = p)), closing := d.closing.filter (fun x => !decide (x.1 / 256 = p)),
    waiting := d.waiting.filter (fun x => !decide (x.1 = p)), running := d.running.filter (fun x => !decide (x.1 = p)) } }
  let h := h.dropParked (fun w => match w with | .migration p' _ => decide (p' = p) | _ => false)
  (h.resetRange (0x1110000 + 0x2000 * p) (0x1110000 + 0x2000 * (p + 1))).resetRange (0x1140000 + 0x4000 * p) (0x1140000 + 0x4000 * (p + 1))

/-- A floe scrubbed: domain reset, and its floe memory, event counters and private memories zeroed (Table 5). -/
def State.floeScrub (s : State) (f : Nat) : State :=
  { s with hub := s.hub.floeReset f,
           mem := ((s.mem.zero (floeHpa f) 0x100000).zero (eventHpa f 0) 0x100).zero (privBase (128 * f)) (128 * 0x4000) }

/-- The first scratchpad address of a slice. -/
def scratchBase (sl : Nat) : Nat := 0x200000000000 + sl / 96 * 0x40000000 + sl % 96 * 0x400000

/-- Requests of slices or of addresses that `p` names. -/
def Memory.dropReqs (m : Memory) (p : Nat → Nat → Bool) : Memory :=
  { m with misses := m.misses.filter (fun e => !p e.slice e.line), evicts := m.evicts.filter (fun e => !p e.slice e.line),
           waiting := m.waiting.filter (fun x => !p x.1 x.2.line) }

/-- Lines with a request in a slice. -/
def Memory.busyLines (m : Memory) (sl : Nat) : List Nat :=
  let a := (m.misses.filter (fun e => decide (e.slice = sl))).map (·.line)
  let b := (m.evicts.filter (fun e => decide (e.slice = sl))).map (·.line)
  let c := (m.waiting.filter (fun x => decide (x.1 = sl))).map (fun x => x.2.line)
  (a ++ b ++ c).eraseDups

/-- A slice scrubbed: its lines invalidated, dirty ones written back first unless `drop`; its scratchpad zeroed. -/
def State.sliceScrub (s : State) (drop : Bool) (sl : Nat) : State :=
  let s :=
    if drop then { s with mem := (s.mem.dropReqs (fun k _ => decide (k = sl))).dropLines (fun _ l => decide (l.slice = sl)) }
    else ((s.mem.busyLines sl).foldl (fun s k => s.settle k) s).flushLines (fun _ l => decide (l.slice = sl))
  { s with mem := s.mem.zero (scratchBase sl) 0x400000 }

/-- A half-stack takes a new key (R330, R332): its generation advances and every granule is unfilled; what waited for it is discarded. -/
def State.rekey (s : State) (k : Nat) : State :=
  let m := (s.mem.dropReqs (fun _ l => decide (halfOf (128 * l) = k))).dropLines (fun l _ => decide (halfOf (128 * l) = k))
  { s with mem := m.unfillHalf k,
           hub := { s.hub with ras := { s.hub.ras with keyGens := tset 0 s.hub.ras.keyGens k (tget 0 s.hub.ras.keyGens k + 1) } } }

/-- A domain ends (R465): its entry is free. -/
def Hub.domFree (h : Hub) (d : Nat) : Hub :=
  if h.get (Reg.secDomainState d) = 0 then h
  else
    let h := h.resetRange (0xF01000 + 0x40 * d) (0xF01040 + 0x40 * d)
    (({ h with sec := { h.sec with domH := terase h.sec.domH d } }).set Reg.secStatusDomains (h.get Reg.secStatusDomains - 1)).event Reg.secEventDomain

/-- Installs of a domain complete ABORTED, and the domain ends (R465). -/
def Hub.domEnd (h : Hub) (d : Nat) : Hub :=
  let i := h.sec.installs.filter (fun i => decide (i.dom = d))
  let h : Hub := { h with sec := { h.sec with installs := h.sec.installs.filter (fun i => !decide (i.dom = d)) } }
  (i.foldl (fun h i => h.complete i.cmd 0x07 0) h).domFree d

/-- Installs of a partition that have taken no domain yet complete ABORTED (R465). -/
def Hub.waitsEnd (h : Hub) (p : Nat) : Hub :=
  let mine (i : Install) : Bool := decide (i.part = p) && decide (64 ≤ i.dom)
  let l := h.sec.installs.filter mine
  let h : Hub := { h with sec := { h.sec with installs := h.sec.installs.filter (fun i => !mine i) } }
  l.foldl (fun h i => h.complete i.cmd 0x07 0) h

/-- The domains that `q` names end. -/
def Hub.domsEnd (h : Hub) (q : Nat → Bool) : Hub := overList (fun d h => if h.on (Reg.secDomainState d) && q d then h.domEnd d else h) (List.range 64) h

/-- A TDISP interface back in CONFIG_UNLOCKED (R457). -/
def Hub.tdispUnlock (h : Hub) (v : Nat) : Hub := h.sets [(Reg.secTdispState v, 0), (Reg.secTdispBound v, 0), (Reg.secTdispStream v, 0)]

-- Reset and Thaw (Tables 5 and 6)

/-- Engines of a list that are clearing. -/
def Hub.clearingOf (h : Hub) (l : List Nat) : List Nat := l.filter (fun e => decide (h.get (Reg.siteEngStatusState e) = 3))

/-- The entry of a partition's model state changed. -/
def Hub.onPart (h : Hub) (p : Nat) (f : PartSt → PartSt) : Hub := { h with parts := tmod PartSt.rst h.parts p f }

/-- What reset and Thaw do alike to the hub before memory (Table 5): links, windows, collectives, launches, streams, translation,
engines, Dewpoint. -/
def Hub.partQuiet (h : Hub) (p : Nat) : Hub :=
  let h := overList (fun g h => h.groupGone g) (h.partGroups p) h
  let h := overList (fun l h => h.linkClear l) (h.linksOf p) h
  let h := h.winsClear p
  let h := h.launchesStop (fun l => decide (l.part = p)) 0x07
  let h := overList (fun n h => h.streamClosed n) (h.partStreams p) h
  let h := overList (fun e h => h.clearEng e) (h.enginesOf p) h
  let h := (h.xltClear p).dewScrub p
  h.onPart p (fun x => { x with waits := h.clearingOf (h.enginesOf p) })

/-- Partition reset (Table 5), up to the wait for its engines. -/
def State.partReset (s : State) (p : Nat) : State :=
  let s := s.onHub (fun h => (h.sets [(Reg.prtStatusState p, 5), (Reg.prtCtrlReset p, 1), (Reg.prtCtrlStop p, 0)]).raiseVf p 4)
  let s := s.onHub (·.partQuiet p)
  let s := (s.hub.floesOf p).foldl (fun s f => s.floeScrub f) s
  let s := (s.hub.slicesOf p).foldl (fun s k => (s.sliceScrub false k).onHub (·.set (Reg.frnSliceStatusHome k) 1)) s
  s

/-- Thaw (Table 6), up to the wait for its engines: `del` ends in NONE. -/
def State.partThaw (s : State) (p : Nat) (del : Bool) : State :=
  let s := s.onHub (fun h =>
    let h := overList (fun v h => h.queuesReset v) (h.vfsOf p) h
    let h := overList (fun g h => h.groupGone g) (h.partGroups p) h
    let h := overList (fun l h => h.linkThaw l) (h.linksOf p) h
    let h := h.sets [(Reg.prtStatusState p, 4), (Reg.prtCtrlStop p, 0), (Reg.prtCtrlReset p, 0), (Reg.prtCtrlThaw p, b2n (!del)),
      (Reg.prtStatusKeyGen p, h.get (Reg.prtStatusKeyGen p) + 1)]
    let h := (h.onPart p (fun x => { x with deleting := del })).partQuiet p
    let h := (h.domsEnd (fun d => decide (h.get (Reg.secDomainPartition d) = p))).waitsEnd p
    let h := overList (fun v h => h.tdispUnlock v) (h.vfsOf p) h
    h.sets [(Reg.secObservedMap, setBit (h.get Reg.secObservedMap) p false), (Reg.secDebugMap, setBit (h.get Reg.secDebugMap) p false)])
  let s := (s.hub.floesOf p).foldl (fun s f => s.floeScrub f) s
  let s := (s.hub.slicesOf p).foldl (fun s k => s.sliceScrub true k) s
  (s.hub.halvesOf p).foldl (fun s k => s.rekey k) s

/-- A refused write of PRT_CTRL (R333): the PF's sets PRT_EVENT.REFUSED. -/
def Hub.prtRefused (h : Hub) (via : Nat) : Hub := if via = 1 then h.event Reg.prtEventRefused else h

/-- A commit is in prepare or apply. -/
def Hub.committing (h : Hub) : Bool := decide (2 ≤ h.get Reg.cfgStatusPhase)

/-- RESET may start (Table 4). -/
def Hub.mayReset (h : Hub) (p : Nat) : Bool := let st := h.partState p; decide (st = 1) || decide (st = 2) || decide (st = 3) || decide (st = 6)

/-- THAW may start (Table 4). -/
def Hub.mayThaw (h : Hub) (p : Nat) : Bool := h.mayReset p || decide (h.partState p = 5)

/-- A written RESET: at once, or when the commit that is in prepare or apply ends (R339). -/
def State.prtReset (s : State) (via p : Nat) : State :=
  if !s.hub.mayReset p then s.onHub (·.prtRefused via)
  else if s.hub.committing then s.onHub (·.set (Reg.prtCtrlReset p) 1)
  else s.partReset p

/-- A written THAW. -/
def State.prtThaw (s : State) (via p : Nat) : State :=
  if !s.hub.mayThaw p then s.onHub (·.prtRefused via)
  else if s.hub.committing then s.onHub (·.set (Reg.prtCtrlThaw p) 1)
  else s.partThaw p false

/-- The RESET and THAW writes that a commit held back act (R339). -/
def State.prtPending (s : State) : State :=
  (List.range 24).foldl (fun s p =>
    let st := s.hub.partState p
    if s.hub.on (Reg.prtCtrlThaw p) && decide (st ≠ 4) then
      (if s.hub.mayThaw p then s.partThaw p false else s.onHub (·.set (Reg.prtCtrlThaw p) 0))
    else if s.hub.on (Reg.prtCtrlReset p) && decide (st ≠ 5) then
      (if s.hub.mayReset p then s.partReset p else s.onHub (·.set (Reg.prtCtrlReset p) 0))
    else s) s

-- START and STOP

/-- A stream that STOP, or the want of an ACTIVE partition, paused runs again (R334). -/
def Hub.streamUnpause (h : Hub) (n : Nat) : Hub :=
  let st := h.get (Reg.drfStreamStatusState n)
  if (h.stream n).paused ∧ (st = 3 ∨ st = 4) then
    ((h.setStream n { h.stream n with paused := false }).sets [(Reg.drfStreamStatusState n, 1), (Reg.drfStreamCtrlPause n, 0)]).streamSettle n
  else h.setStream n { h.stream n with paused := false }

/-- The partition is ACTIVE: paused streams resume and waiting doorbells go (R334). -/
def Hub.partActive (h : Hub) (p : Nat) : Hub :=
  let h := (h.sets [(Reg.prtStatusState p, 2), (Reg.prtCtrlStart p, 0), (Reg.prtCtrlStop p, 0)]).raiseVf p 4
  let h := overList (fun n h => h.streamUnpause n) (h.partStreams p) h
  overList (fun s h => h.flushSite s) (List.range 16) h

/-- A written START (Table 4). -/
def Hub.prtStart (h : Hub) (via p : Nat) : Hub := if h.partState p = 1 then h.partActive p else h.prtRefused via

/-- A stream paused by STOP. -/
def Hub.stopStream (h : Hub) (n : Nat) : Hub :=
  let st := h.get (Reg.drfStreamStatusState n)
  if st = 1 ∨ st = 2 then (h.setStream n { h.stream n with paused := true }).streamPause n else h

/-- A written STOP (Table 4). -/
def Hub.prtStop (h : Hub) (via p : Nat) : Hub :=
  if h.partState p = 2 then
    let h := (h.sets [(Reg.prtStatusState p, 3), (Reg.prtCtrlStop p, 1)]).raiseVf p 4
    overList (fun n h => h.stopStream n) (h.partStreams p) h
  else h.prtRefused via

/-- START. -/
def execStart (via : Iface) (part : BitVec 5) (s0 : State) : Host.Outcome State Fault Refusal :=
  let s := s0.wroteVia via
  hubStep (·.prtStart via.code.toNat part.toNat) s

/-- STOP. -/
def execStop (via : Iface) (part : BitVec 5) (s0 : State) : Host.Outcome State Fault Refusal :=
  let s := s0.wroteVia via
  hubStep (·.prtStop via.code.toNat part.toNat) s

/-- The four conditions of R334. -/
def Hub.drained (h : Hub) (p : Nat) : Bool :=
  !h.sea.launches.any (fun l => decide (l.2.part = p))
    && (h.partStreams p).all (fun n => (h.stream n).inflight.isEmpty)
    && !h.sites.any (fun x => x.2.open'.any (fun r => decide (h.engOwner r.e = p)))
    && !h.xlt.faults.any (fun f => decide (f.part = p) && h.xlt.parked.any (fun a => decide (a.die = f.die) && decide (a.slot = f.slot)))
    && !h.xlt.held.any (fun a => decide (a.part = p))

/-- STOP_COMPLETE. -/
def execStopComplete (part : BitVec 5) (s : State) : Host.Outcome State Fault Refusal :=
  let p := part.toNat
  if s.hub.partState p = 3 ∧ s.hub.drained p then
    hubStep (fun h => (h.sets [(Reg.prtStatusState p, 1), (Reg.prtCtrlStop p, 0)]).raiseVf p 4) s
  else .next s

/-- STOP_TIMEOUT. -/
def execStopTimeout (part : BitVec 5) (s : State) : Host.Outcome State Fault Refusal :=
  let p := part.toNat
  if s.hub.partState p = 3 then hubStep (fun h => (h.partActive p).event Reg.prtEventStopTimeout) s else .next s

/-- PARTITION_RESET. -/
def execPartitionReset (via : Iface) (part : BitVec 5) (s0 : State) : Host.Outcome State Fault Refusal :=
  let s := s0.wroteVia via
  .next ((s.prtReset via.code.toNat part.toNat).watch s)

/-- No engine of a partition is still to clear. -/
def Hub.allClear (h : Hub) (p : Nat) : Bool := (h.clearingOf (tget PartSt.rst h.parts p).waits).isEmpty

/-- PARTITION_RESET_COMPLETE. -/
def execPartitionResetComplete (part : BitVec 5) (s : State) : Host.Outcome State Fault Refusal :=
  let p := part.toNat
  if s.hub.partState p = 5 ∧ s.hub.allClear p then
    hubStep (fun h =>
      let h := overList (fun v h => h.queuesReset v) (h.vfsOf p) h
      (h.sets [(Reg.prtStatusState p, 1), (Reg.prtCtrlReset p, 0)]).raiseVf p 4) s
  else .next s

/-- THAW. -/
def execThaw (via : Iface) (part : BitVec 5) (s0 : State) : Host.Outcome State Fault Refusal :=
  let s := s0.wroteVia via
  .next ((s.prtThaw via.code.toNat part.toNat).watch s)

/-- THAW_COMPLETE: the VFs' queues are reset; a deleted partition ends in NONE. -/
def execThawComplete (part : BitVec 5) (s : State) : Host.Outcome State Fault Refusal :=
  let p := part.toNat
  if s.hub.partState p = 4 ∧ s.hub.allClear p then
    hubStep (fun h =>
      let h := overList (fun v h => h.queuesReset v) (h.vfsOf p) h
      let h := if (tget PartSt.rst h.parts p).deleting then overList (fun f h => h.set (Reg.flcFloeStatusState f) 0) (h.floesOf p) h else h
      let h := h.sets [(Reg.prtStatusState p, if (tget PartSt.rst h.parts p).deleting then 0 else 1), (Reg.prtCtrlThaw p, 0)]
      ({ h with parts := terase h.parts p }).event Reg.prtEventThawed) s
  else .next s

end Sys2Proof.Machine
end

