-- ==== Sys2Proof/Machine/LinkRx.lean ====
section
/-! DEFINITION. The receiving side of the Drift transport (16: R375-R382, R386, R387): arriving frames, requests in PSN order, the checks
of a window, acknowledgement, and answers given to whoever asked. -/

namespace Sys2Proof.Machine

-- PFC sent (R382)

/-- Bytes of a request in the receive buffer. -/
def InReq.bytes : InReq → Nat
  | .mem _ p _ => p.data.length
  | .col _ p _ => p.data.length

/-- Bytes of a link's receive buffer in use: requests held for reordering and at their port. -/
def Hub.rxUse (h : Hub) (l : Nat) : Nat :=
  (((h.pathsOf l).flatMap (·.reorder)).map (·.bytes)).sum + ((h.links.held.filter (fun x => decide (x.link = l))).map (fun x => x.req.bytes)).sum

/-- XOFF above 768 KiB, XON below 512 KiB (R382). -/
def Hub.pfcOut (h : Hub) (l : Nat) : Hub :=
  let u := h.rxUse l
  let off := kmem h.links.xoff l
  if !off && decide (768 * 1024 < u) then
    ({ h with links := { h.links with xoff := kadd h.links.xoff l } }).send (.frame l 0 0x10 (h.get Reg.lnkCfgDataPcp) 1 0 0)
  else if off && decide (u < 512 * 1024) then
    ({ h with links := { h.links with xoff := kdel h.links.xoff l } }).send (.frame l 0 0x10 (h.get Reg.lnkCfgDataPcp) 0 0 0)
  else h

-- Frames

/-- A frame that fails MACsec (R375, R393): counted, recorded once a second. -/
def Hub.macFail (h : Hub) (l : Nat) : Hub :=
  let h := h.wrap (Reg.lnkCntMacsecFail l) 1
  let t := h.now.1
  let h := h.now.2
  let last := tget 0 h.links.macRec l
  if last = 0 ∨ last + 10 ^ 9 ≤ t + 1 then
    let h := { h with links := { h.links with macRec := tset 0 h.links.macRec l (t + 1) } }
    (h.record { code := 0x0803, cls := 0, part := h.linkOwner l, inst := l, die := l / 48 }).linkEvent (h.linkOwner l) Reg.lnkEventMacsecFail
  else h

/-- A Drift frame arrives (R373, R375, R337): what reaches the transport goes on. -/
def rxFrame (p : LinkPkt) (go : State → State) (s : State) : State :=
  let l := p.link.toNat
  let o := s.hub.linkOwner l
  if !s.hub.linkUpNow l ∨ o = 31 then s
  else if s.hub.partState o = 4 then s.onHub (·.count (Reg.prtStatusThawDrop o) 1)
  else if p.check = 1 then s.onHub (·.wrap (Reg.lnkCntRxDrop l) 1)
  else if p.check ≠ 0 then s.onHub (·.macFail l)
  else (go (s.onHub (·.wrap (Reg.lnkCntRxFrames l) 1))).onHub (·.pfcOut l)

/-- The path an arriving packet names: its own number, open, with the sender's address. -/
def Hub.rxPath (h : Hub) (p : LinkPkt) : Option LPath :=
  match h.path p.link.toNat p.dstPath.toNat with
  | some q => if q.isOpen && decide (q.ip = p.ip) then some q else none
  | none => none

/-- A CNP for a request with CE (R381): at most one in 10 µs on a path. -/
def Hub.cnpOut (h : Hub) (p : LinkPkt) (q : LPath) : Hub :=
  if p.ce then
    let h := h.wrap (Reg.lnkCntCeRx q.link) 1
    let t := h.now.1
    let h := h.now.2
    let k := 65536 * q.link + q.num
    let last := tget 0 h.links.cnpAt k
    if last = 0 ∨ last + 10000 ≤ t + 1 then
      ({ h with links := { h.links with cnpAt := tset 0 h.links.cnpAt k (t + 1) } }).frame q.link q.num 0x8 0 0 q.peerNum 0
    else h
  else h

-- Acknowledgement (R379, R380)

/-- PSNs are 24 bits. -/
def psnNext (n : Nat) : Nat := (n + 1) % 2 ^ 24
/-- The PSN before. -/
def psnPrev (n : Nat) : Nat := (n + 2 ^ 24 - 1) % 2 ^ 24
/-- How far `a` lies after `b`. -/
def psnDiff (a b : Nat) : Nat := (a + 2 ^ 24 - b) % 2 ^ 24

/-- PSN of a received request. -/
def InReq.psn : InReq → Nat
  | .mem _ p _ => p.psn.toNat
  | .col _ p _ => p.psn.toNat

/-- The request that a path waits for at its port, if any: what lies before it is applied. -/
def Hub.heldPsn (h : Hub) (q : LPath) : Nat :=
  match h.links.held.find? (fun x => decide (x.link = q.link) && decide (x.path = q.num)) with
  | some x => x.req.psn
  | none => q.rxPsn

/-- ACK sent on a path (Table 5): the last PSN applied, and what is held for reordering; every request it answers leaves DRAIN. -/
def Hub.sendAck (h : Hub) (l n : Nat) : Hub :=
  match h.path l n with
  | none => h
  | some q =>
    let a := psnPrev (h.heldPsn q)
    let sack := (q.reorder.map (fun r => 2 ^ (psnDiff r.psn (psnNext a)))).sum % 2 ^ 128
    let h := overList (fun k h => h.drainDone k) q.unacked h
    (h.setPath { q with unacked := [] }).frame l n typeAck a 0 q.peerNum sack

/-- A request has been applied: acknowledged after sixteen, or at once where it asks (R379). -/
def Hub.noteApplied (h : Hub) (l n k : Nat) (now : Bool) : Hub :=
  match h.path l n with
  | none => h.drainDone k
  | some q =>
    let h := h.setPath { q with unacked := q.unacked ++ [k] }
    if now ∨ 16 ≤ (q.unacked ++ [k]).length then h.sendAck l n else h

/-- A response or a NAK sent on a path, if it is still there. -/
def Hub.reply (h : Hub) (l n kind psn flags : Nat) (data : List Byte) : Hub :=
  match h.path l n with
  | none => h
  | some q => h.frame l n kind psn (flags + 2 ^ 8 * data.length) q.peerNum (leNat data)

/-- NAK of a PSN with a code. -/
def Hub.nakOut (h : Hub) (l n psn code : Nat) : Hub :=
  match h.path l n with
  | none => h
  | some q => h.frame l n typeNak psn code q.peerNum 0

-- Windows (R385, R386)

/-- Bytes that a request covers. -/
def memLen (type : Nat) (p : LinkPkt) (x : ReqExt) : Nat :=
  if type = 1 then p.data.length else if type = 2 then x.rlen.toNat else if bitAt x.detail.toNat 4 then 8 else 4

/-- Rights that a request needs (Table 3 of 11). -/
def memRights (type : Nat) : Nat := if type = 1 then 2 else if type = 2 then 1 else 7

/-- The checks of Table 6 in order; 0 admits. An unknown atomic function is refused as R284 refuses it. -/
def Hub.winCheck (h : Hub) (type : Nat) (p : LinkPkt) (x : ReqExt) : Nat :=
  let d := p.link.toNat / 48
  let w := x.window.toNat
  let st := h.get (Reg.winWttState d w)
  let o := h.get (Reg.winWttPartition d w)
  let need := memRights type
  if st = 0 ∨ h.linkOwner p.link.toNat ≠ o then 0x41
  else if h.get (Reg.winWttGen d w) ≠ x.gen.toNat then 0x0C
  else if st ≠ 1 then 0x0B
  else if h.get (Reg.winWttWkey d w) ≠ x.wkey.toNat ∨ (h.get (Reg.winWttRights d w) &&& need) ≠ need then 0x41
  else if 2 ^ h.get (Reg.winWttSizeLog2 d w) < x.offset.toNat + memLen type p x then 0x42
  else if h.partState o = 5 ∨ h.partState o = 6 then 0x0A
  else if type = 4 ∧ 9 < x.detail.toNat % 16 then 0x02
  else 0

/-- The result of an atomic kept for its duplicates (R379): the last 128 of the path. -/
def LPath.keepAtomic (q : LPath) (psn : Nat) (v : List Byte) : LPath := { q with atomics := ((psn, v) :: q.atomics).take 128 }

/-- An admitted request of a window applied and answered (R380, R386, R387). -/
def State.winApply (s : State) (l n type : Nat) (p : LinkPkt) (x : ReqExt) : State :=
  let d := l / 48
  let w := x.window.toNat
  let k := d * 4096 + w
  let o : Org := .remote (s.hub.get (Reg.winWttPartition d w))
  let a := s.hub.get (Reg.winWttBase d w) + x.offset.toNat
  let m := memLen type p x
  let alloc := s.hub.on (Reg.winWttAlloc d w)
  let psn := p.psn.toNat
  let now := bitAt p.flags.toNat 0
  let s := s.onHub (·.qosCount (quadPort (quadOf l)) a m (decide (type ≠ 2)))
  let nak (s : State) (st : Nat) : State := s.onHub (fun h => (h.drainDone k).nakOut l n psn st)
  match type with
  | 1 =>
    let r := s.hubWrite o a m (leNat p.data) (if bitAt p.flags.toNat 1 then allBad a m else 0) alloc
    if r.st ≠ 0 then nak r.s r.st else r.s.onHub (·.noteApplied l n k now)
  | 2 =>
    let r := s.hubRead o a m alloc
    if r.st ≠ 0 then nak r.s r.st
    else r.s.onHub (fun h => ((h.drainDone k).reply l n 0x3 psn (2 * b2n (decide (r.bad ≠ 0))) (leBytes m r.v)).noteApplied l n 8192 now)
  | _ =>
    let r := s.amoAt o (x.detail.toNat % 16) m a (leNat (p.data.take 8)) (leNat ((p.data.drop 8).take 8)) alloc
    if r.st ≠ 0 then nak r.s r.st
    else r.s.onHub (fun h =>
      let v := leBytes m r.v
      let h := match h.path l n with | some q => h.setPath (q.keepAtomic psn v) | none => h
      ((h.drainDone k).reply l n 0x5 psn (2 * b2n (decide (r.bad ≠ 0))) v).noteApplied l n 8192 now)

/-- A collective packet applied and answered (R402). -/
def State.colApply (s : State) (l n type : Nat) (p : LinkPkt) (x : ColExt) : State :=
  let psn := p.psn.toNat
  let now := bitAt p.flags.toNat 0
  if type = 0xC then
    let r := s.colDataIn l x p.data (bitAt p.flags.toNat 1)
    if r.1 ≠ 0 then r.2.onHub (·.nakOut l n psn r.1) else r.2.onHub (·.noteApplied l n 8192 now)
  else
    s.onHub (fun h =>
      let h := if type = 0xD then h.colCreditIn l x else if type = 0xE then h.colSquallIn l x else h.colAbortIn l x
      h.noteApplied l n 8192 now)

/-- A request that its port has admitted. -/
def State.winDo (s : State) (r : WinHeld) : State :=
  match r.req with
  | .mem t p x => s.winApply r.link r.path t p x
  | .col t p x => s.colApply r.link r.path t p x

/-- A request in its turn: a window's checks and its count in DRAIN at one instant (R386), then its port's regulator (R385). -/
def State.rxApply (s : State) (q : LPath) (r : InReq) : State :=
  let l := q.link
  match r with
  | .mem t p x =>
    let st := s.hub.winCheck t p x
    if st ≠ 0 then s.onHub (·.nakOut l q.num p.psn.toNat st)
    else
      let d := l / 48
      let w := x.window.toNat
      let h := s.hub.set (Reg.winWttDrain d w) (s.hub.get (Reg.winWttDrain d w) + 1)
      let k : WinHeld := ⟨d, w, l, q.num, r⟩
      let a := h.admitReq (quadPort (quadOf l)) (memLen t p x) (.win k)
      if a.1 then { s with hub := a.2 }.winDo k else { s with hub := { a.2 with links := { a.2.links with held := a.2.links.held ++ [k] } } }
  | .col _ p _ =>
    let k : WinHeld := ⟨2, 0, l, q.num, r⟩
    let a := s.hub.admitReq (quadPort (quadOf l)) p.data.length (.win k)
    if a.1 then { s with hub := a.2 }.winDo k else { s with hub := { a.2 with links := { a.2.links with held := a.2.links.held ++ [k] } } }

/-- Requests of a path applied in PSN order as far as they have arrived (R378). -/
def State.rxDrain (f : Nat) (s : State) (l n : Nat) : State :=
  match f with
  | 0 => s
  | f + 1 =>
    match s.hub.path l n with
    | none => s
    | some q =>
      match q.reorder.find? (fun r => decide (r.psn = q.rxPsn)) with
      | none => s
      | some r =>
        let q' := { q with rxPsn := psnNext q.rxPsn, reorder := q.reorder.filter (fun y => !decide (y.psn = q.rxPsn)) }
        State.rxDrain f ((s.onHub (·.setPath q')).rxApply q' r) l n

/-- A duplicate (R379): acknowledged again, an atomic from the path's cache, a read read again; one that still waits at its port is left. -/
def State.rxDup (s : State) (q : LPath) (r : InReq) : State :=
  if psnDiff r.psn (s.hub.heldPsn q) < 2 ^ 23 then s
  else match r with
    | .mem 2 p x => s.rxApply q (.mem 2 p x)
    | .mem 4 p _ =>
      match q.atomics.find? (fun a => decide (a.1 = p.psn.toNat)) with
      | some a => s.onHub (fun h => h.reply q.link q.num 0x5 p.psn.toNat 0 a.2)
      | none => s.onHub (·.sendAck q.link q.num)
    | _ => s.onHub (·.sendAck q.link q.num)

/-- A request arrives on its path (R376, R378, R379). -/
def State.rxReq (s : State) (p : LinkPkt) (r : InReq) : State :=
  match s.hub.rxPath p with
  | none => s
  | some q =>
    let s := s.onHub (·.cnpOut p q)
    let d := psnDiff r.psn q.rxPsn
    if 2 ^ 23 ≤ d then s.rxDup q r
    else if 128 < d then s
    else if q.reorder.any (fun y => decide (y.psn = r.psn)) ∨ (d ≠ 0 ∧ 128 ≤ q.reorder.length) then s
    else
      let q' := { q with reorder := q.reorder ++ [r] }
      State.rxDrain (q'.reorder.length) (s.onHub (·.setPath q')) q.link q.num

-- Answers (R379, R387, R388)

/-- What waited for an engine goes on. -/
def State.wakeEng (s : State) (e rtag : Nat) : State :=
  let s := match s.hub.engReq e rtag with | some r => s.engAgain1 r | none => s
  s.pumpEvts (e / 8)

/-- A remote request ends OK: a read or an atomic with its data. -/
def State.remOk (s : State) (r : OutReq) (v : Nat) (bad : Bool) : State :=
  match r.who with
  | .coreLoad c => s.onHub (·.coreGot c r.place v bad)
  | .coreStore c _ _ => s.onHub (·.coreAck c)
  | .dma f ch id => if r.type = 2 then s.onHub (fun h => h.onDma f ch id (fun q => { q with got := q.got ++ [(r.place, v, bad)] })) else s
  | .row n ix => if r.type = 2 then s.onHub (fun h => h.onDesc n ix (fun d => { d with got := d.got ++ [(r.place, v, bad)] })) else s
  | .engine e rtag =>
    let s := if r.type = 1 then s
      else match s.hub.engReq e rtag with
        | some q => s.onHub (fun h => h.onReq q (fun y => { y with got := y.got ++ [(r.place, v, bad)] }))
        | none => s
    s.wakeEng e rtag
  | .stage g seq =>
    match s.hub.group g with
    | some c =>
      if c.run.any (fun x => decide (x.seq = seq)) then
        (if r.type = 2 then s.onHub (fun h => h.onGroup g (fun c => { c with got := c.got ++ [(r.place, v, bad)] })) else s).colWork g
      else s
    | none => s
  | .collective _ => s
  | .host e => s.pumpEvts (e / 8)

/-- A remote request ends with a status (R388). -/
def State.remBad (s : State) (r : OutReq) (st : Nat) : State :=
  let s := s.onHub (·.remFail r st)
  match r.who with
  | .engine e rtag => s.wakeEng e rtag
  | .host e => s.pumpEvts (e / 8)
  | _ => s

/-- A request leaves a path's outstanding list. -/
def Hub.takeOut (h : Hub) (q : LPath) (r : OutReq) : Hub := h.setPath { q with out := q.out.filter (fun y => !decide (y.psn = r.psn)) }

/-- A response of a type completes the request of its PSN (R376). -/
def State.rxResp (s : State) (p : LinkPkt) (type : Nat) : State :=
  match s.hub.rxPath p with
  | none => s
  | some q =>
    match q.out.find? (fun r => decide (r.psn = p.psn.toNat) && decide (r.type = type)) with
    | none => s
    | some r => (s.onHub (·.takeOut q r)).remOk r (leNat p.data) (bitAt p.flags.toNat 1)

/-- Requests of a list end OK. -/
def State.remOkAll (s : State) (l : List OutReq) : State := l.foldl (fun s r => s.remOk r 0 false) s

/-- An ACK (R379): requests without a response up to its PSN are complete, and SACK shows which others are held. -/
def State.rxAck (s : State) (p : LinkPkt) (a sack : Nat) : State :=
  match s.hub.rxPath p with
  | none => s
  | some q =>
    let done (r : OutReq) : Bool := decide (psnDiff a r.psn < 2 ^ 23) && decide (r.type ≠ 2) && decide (r.type ≠ 4)
    let held (r : OutReq) : Bool := let d := psnDiff r.psn (psnNext a); decide (d < 128) && bitAt sack d
    let q' := { q with out := (q.out.filter (fun r => !done r)).map (fun r => { r with held := r.held || held r }) }
    (s.onHub (·.setPath q')).remOkAll (q.out.filter done)

/-- A NAK ends the request of its PSN with its code (R380). -/
def State.rxNak (s : State) (p : LinkPkt) (psn code : Nat) : State :=
  match s.hub.rxPath p with
  | none => s
  | some q =>
    match q.out.find? (fun r => decide (r.psn = psn)) with
    | none => s
    | some r => (s.onHub (·.takeOut q r)).remBad r code

end Sys2Proof.Machine
end

