-- ==== Sys2Proof/Machine/LinkRows.lean ====
section
/-! DEFINITION. Commands of the scale-out links (16): LINK_SAK, arriving packets, sending, timers, PFC, link events, and LNK_PEER. -/

namespace Sys2Proof.Machine

/-- Events that waited for an answer go on. -/
def State.pumpAll (s : State) : State := s.engAgain (fun _ => false)

/-- The links of the package. -/
def Hub.linkCount (h : Hub) : Nat := 48 * h.dies

/-- LINK_SAK's fields are in range (Table 2). -/
def Hub.sakOk (h : Hub) (c : QCmd) : Bool :=
  decide (qf c 0x10 1 < h.linkCount) && decide (qf c 0x11 1 < 2) && decide (qf c 0x12 1 < 4) && decide (qf c 0x13 1 < 2)
    && qz c 0x14 0x18 && qz c 0x28 0x40 && (decide (qf c 0x13 1 = 1) || decide (qf c 0x20 8 < 2 ^ 32))

/-- A secure association installed (R374, R375). -/
def Hub.sakPut (h : Hub) (k : Sak) : Hub :=
  let l := k.link
  let rest := h.links.saks.filter (fun x => !(decide (x.link = l) && decide (x.dir = k.dir) && decide (x.an = k.an)))
  let h := { h with links := { h.links with saks := k :: rest } }
  if (h.txSak l).isSome && h.hasRxSak l then h.set (Reg.lnkStatusMacsecReady l) 1 else h

/-- LINK_SAK (R374): the key block is read from host memory and overwritten with zeros. -/
def execLinkSak (cmd : QCmd) (host : List (BitVec 8)) (s : State) : Host.Outcome State Fault Refusal :=
  hubStep (fun h =>
    if cmd.fn ≠ 0 then h.complete cmd 0x04 0
    else if cmdHeader cmd false ≠ 0 ∨ !h.sakOk cmd then h.complete cmd 0x02 0
    else if h.quiet 0 then h.complete cmd 0x07 0
    else if host.length ≠ 48 then h.complete cmd 0x06 0
    else
      let k : Sak := ⟨qf cmd 0x10 1, qf cmd 0x11 1, qf cmd 0x12 1, qf cmd 0x13 1, host, qf cmd 0x20 8⟩
      ((h.send (.hostWrite 0 (qf cmd 0x18 8) 48 0)).sakPut k).complete cmd 0 0) s

/-- TRANSPORT_WRITE (R386, R387). -/
def execTransportWrite (p : LinkPkt) (x : ReqExt) (s : State) : Host.Outcome State Fault Refusal :=
  .next (rxFrame p (fun s => s.rxReq p (.mem 1 p x)) s)

/-- READ_REQ (R386). -/
def execReadReq (p : LinkPkt) (x : ReqExt) (s : State) : Host.Outcome State Fault Refusal :=
  .next (rxFrame p (fun s => s.rxReq p (.mem 2 p x)) s)

/-- READ_RESP (R387). -/
def execReadResp (p : LinkPkt) (s : State) : Host.Outcome State Fault Refusal := .next (rxFrame p (fun s => s.rxResp p 2) s)

/-- TRANSPORT_ATOMIC (R386, R287). -/
def execTransportAtomic (p : LinkPkt) (x : ReqExt) (s : State) : Host.Outcome State Fault Refusal :=
  .next (rxFrame p (fun s => s.rxReq p (.mem 4 p x)) s)

/-- ATOMIC_RESP (R379). -/
def execAtomicResp (p : LinkPkt) (s : State) : Host.Outcome State Fault Refusal := .next (rxFrame p (fun s => s.rxResp p 4) s)

/-- ACK (R379). -/
def execAck (p : LinkPkt) (ackPsn : BitVec 24) (sack : BitVec 128) (s : State) : Host.Outcome State Fault Refusal :=
  .next (rxFrame p (fun s => s.rxAck p ackPsn.toNat sack.toNat) s)

/-- NAK (R380). -/
def execNak (p : LinkPkt) (ackPsn : BitVec 24) (code : BitVec 8) (s : State) : Host.Outcome State Fault Refusal :=
  .next (rxFrame p (fun s => s.rxNak p ackPsn.toNat code.toNat) s)

/-- The rate of a path after a CNP (R381). -/
def LPath.slow (q : LPath) : LPath :=
  let a := 15 * q.alpha / 16 + 1 / 16
  { q with alpha := a, rate := max (1 / 10) (q.rate * (1 - a / 2)) }

/-- The rate of a path after 50 µs without one. -/
def LPath.recover (q : LPath) : LPath := { q with alpha := 15 * q.alpha / 16, rate := min 50 (q.rate + 1 / 2) }

/-- CNP (R381). -/
def execCnp (p : LinkPkt) (s : State) : Host.Outcome State Fault Refusal :=
  .next (rxFrame p (fun s => match s.hub.rxPath p with
    | none => s
    | some q => s.onHub (fun h => (h.wrap (Reg.lnkCntCnpRx q.link) 1).setPath q.slow)) s)

/-- PATH_ACCEPT sent for a path: the PSN of the first request that the peer has not acknowledged. -/
def Hub.acceptOut (h : Hub) (q : LPath) : Hub :=
  h.frame q.link q.num typePathAccept (match q.out with | r :: _ => r.psn | [] => q.txPsn) 0 q.peerNum 0

/-- A path takes the peer's number and initial PSN and is open. -/
def LPath.joined (q : LPath) (p : LinkPkt) : LPath :=
  { q with peerNum := p.srcPath.toNat, rxPsn := p.psn.toNat, isOpen := true, openTries := 0 }

/-- A path that a peer opens (R377). -/
def Hub.pathFrom (h : Hub) (p : LinkPkt) : Hub :=
  let l := p.link.toNat
  match h.freePath l with
  | none => h
  | some (n, h) =>
    let psn := h.draw.1 % 2 ^ 24
    let h := h.draw.2
    let q := (LPath.fresh l n p.ip p.v4 none psn).joined p
    ((h.setPath q).countPaths l).acceptOut q

/-- PATH_OPEN (R377): an open path with the same peer number is accepted again; one with another number belongs to a peer that has
started afresh, and closes first. -/
def execPathOpen (p : LinkPkt) (s : State) : Host.Outcome State Fault Refusal :=
  .next ((rxFrame p (fun s => s.onHub (fun h =>
    let l := p.link.toNat
    match (h.pathsOf l).find? (fun q => decide (q.ip = p.ip)) with
    | none => h.pathFrom p
    | some q =>
      if !q.isOpen then ((h.setPath (q.joined p)).countPaths l).acceptOut (q.joined p)
      else if q.peerNum = p.srcPath.toNat then h.acceptOut q
      else (h.closePath l q.num 0x0A).pathFrom p)) s).pumpAll)

/-- PATH_ACCEPT (R377). -/
def execPathAccept (p : LinkPkt) (s : State) : Host.Outcome State Fault Refusal :=
  .next (rxFrame p (fun s => s.onHub (fun h =>
    match h.path p.link.toNat p.dstPath.toNat with
    | some q => if !q.isOpen && decide (q.ip = p.ip) then (h.setPath (q.joined p)).countPaths q.link else h
    | none => h)) s)

/-- PATH_CLOSE (R377). -/
def execPathClose (p : LinkPkt) (s : State) : Host.Outcome State Fault Refusal :=
  .next ((rxFrame p (fun s => match s.hub.rxPath p with
    | none => s
    | some q => s.onHub (·.closePath q.link q.num 0x0A)) s).pumpAll)

/-- Bytes of the link's retransmit buffer in use (R379). -/
def Hub.retxUse (h : Hub) (l : Nat) : Nat := (((h.pathsOf l).flatMap (·.out)).map (fun r => r.data.length)).sum

/-- The path's next request may go out (R379, R381, R382). -/
def Hub.maySendReq (h : Hub) (q : LPath) (r : OutReq) : Bool :=
  q.isOpen && decide (q.out.length < 128) && h.maySend q.link && !h.pcpPaused q.link (h.framePcp r.type)
    && decide (h.retxUse q.link + r.data.length ≤ 2 * 1024 * 1024)

/-- PACED_SEND (R381): the event says that the path's rate allows it. -/
def execPacedSend (link : BitVec 7) (path : BitVec 16) (s : State) : Host.Outcome State Fault Refusal :=
  hubStep (fun h =>
    match h.path link.toNat path.toNat with
    | none => h
    | some q =>
      match q.queued with
      | [] => h
      | r :: t =>
        if h.maySendReq q r then
          let r := { r with psn := q.txPsn }
          let q' := { q with queued := t, out := q.out ++ [r], txPsn := psnNext q.txPsn }
          (h.setPath q').sendReq q' r
        else h) s

/-- ACK_TIMER (R379). -/
def execAckTimer (link : BitVec 7) (path : BitVec 16) (s : State) : Host.Outcome State Fault Refusal :=
  hubStep (fun h => match h.path link.toNat path.toNat with
    | none => h
    | some q => if q.unacked.isEmpty then h else h.sendAck q.link q.num) s

/-- A path fails after RETRIES resends (R379, R393). -/
def Hub.pathFailed (h : Hub) (q : LPath) : Hub :=
  let o := h.linkOwner q.link
  let h := h.closePath q.link q.num 0x0A
  (h.record { code := 0x0806, cls := 0, part := o, inst := q.link, die := q.link / 48, d0 := q.num }).linkEvent o Reg.lnkEventPathFailed

/-- RTO_EXPIRY (R379): the request of a PSN goes out again, or the path fails; a path that is not open asks again. -/
def execRtoExpiry (link : BitVec 7) (path : BitVec 16) (psn : BitVec 24) (s : State) : Host.Outcome State Fault Refusal :=
  .next ((s.onHub (fun h =>
    match h.path link.toNat path.toNat with
    | none => h
    | some q =>
      let n := h.get Reg.lnkCfgRetries
      if !q.isOpen then
        if q.openTries < n then (h.setPath { q with openTries := q.openTries + 1 }).frame q.link q.num typePathOpen q.txPsn 4 0xFFFF 0
        else h.pathFailed q
      else match q.out.find? (fun r => decide (r.psn = psn.toNat)) with
        | none => h
        | some r =>
          if r.held then h
          else if r.resends < n then
            let r' := { r with resends := r.resends + 1 }
            let q' := { q with out := q.out.map (fun y => if y.psn = r.psn then r' else y) }
            ((h.setPath q').wrap (Reg.lnkCntRetx q.link) 1).sendReq q' r'
          else h.pathFailed q)).pumpAll)

/-- RATE_RECOVERY_TIMER (R381). -/
def execRateRecoveryTimer (link : BitVec 7) (path : BitVec 16) (s : State) : Host.Outcome State Fault Refusal :=
  hubStep (fun h => match h.path link.toNat path.toNat with
    | none => h
    | some q => h.setPath q.recover) s

/-- Frames held at a priority of a link go out in their order. -/
def Hub.pcpFlush (h : Hub) (l prio : Nat) : Hub :=
  let mine := h.links.txHeld.filter (fun x => decide (x.1 = l) && decide (x.2.1 = prio))
  let h := { h with links := { h.links with txHeld := h.links.txHeld.filter (fun x => !(decide (x.1 = l) && decide (x.2.1 = prio))) } }
  mine.foldl (fun h x => match x.2.2 with | .frame l n k a b c d => h.frame l n k a b c d | _ => h) h

/-- PFC_FRAME (R382): a priority paused or resumed. -/
def execPfcFrame (link : BitVec 7) (prio : BitVec 3) (xoff : Bool) (s : State) : Host.Outcome State Fault Refusal :=
  hubStep (fun h =>
    let l := link.toNat
    let k := 8 * l + prio.toNat
    if !h.linkUpNow l then h
    else
      let h := if prio.toNat = h.get Reg.lnkCfgDataPcp then h.set (Reg.lnkStatusPaused l) (b2n xoff) else h
      if xoff then { h with links := { h.links with paused := kadd h.links.paused k } }
      else ({ h with links := { h.links with paused := kdel h.links.paused k } }).pcpFlush l prio.toNat) s

/-- PFC_WATCHDOG (R382): DATA_PCP has stayed paused for PAUSE_LIMIT_MS. -/
def execPfcWatchdog (link : BitVec 7) (s : State) : Host.Outcome State Fault Refusal :=
  .next ((s.onHub (fun h =>
    if h.linkUpNow link.toNat && h.pcpPaused link.toNat (h.get Reg.lnkCfgDataPcp) then h.linkDown link.toNat 0x0802 else h)).pumpAll)

/-- LOSS_OF_LOCK (R393). -/
def execLossOfLock (link : BitVec 7) (s : State) : Host.Outcome State Fault Refusal :=
  .next ((s.onHub (fun h => if h.linkUpNow link.toNat then h.linkDown link.toNat 0x0801 else h)).pumpAll)

/-- LINK_UP (R393): training is done. -/
def execLinkUp (link : BitVec 7) (s : State) : Host.Outcome State Fault Refusal :=
  hubStep (fun h =>
    let l := link.toNat
    if h.get (Reg.lnkStatusState l) = 1 then (h.set (Reg.lnkStatusState l) 2).linkEvent (h.linkOwner l) Reg.lnkEventLinkUp else h) s

/-- A quad's domain reset (R80, R393): its links go down, and their MACsec sessions are gone. -/
def Hub.quadReset (h : Hub) (q : Nat) : Hub :=
  overList (fun i h =>
    let l := 4 * q + i
    let h := h.linkDown l 0
    let h := { h with links := { h.links with saks := h.links.saks.filter (fun k => !decide (k.link = l)) } }
    h.set (Reg.lnkStatusMacsecReady l) 0) [0, 1, 2, 3] h

/-- QUAD_FATAL (R393). -/
def execQuadFatal (quad : BitVec 5) (s : State) : Host.Outcome State Fault Refusal :=
  .next ((s.onHub (fun h =>
    let q := quad.toNat
    if 12 * h.dies ≤ q then h
    else
      let p := h.linkOwner (4 * q)
      (h.quadReset q).record { code := 0x0805, cls := 0, part := p, inst := 4 * q, die := q / 12 })).pumpAll)

/-- The paths of a peer close, and what waits for one ends, where its entry is invalidated (R377). -/
def Hub.peerGone (h : Hub) (n : Nat) : Hub :=
  let ip := BitVec.ofNat 128 (h.get (Reg.lnkPeerIp n))
  let w := (h.links.waiting.filter (fun x => decide (x.2.1 = n))).map (fun x => x.2.2)
  let h := { h with links := { h.links with waiting := h.links.waiting.filter (fun x => !decide (x.2.1 = n)) } }
  let h := overList (fun l h => h.closePaths l (fun p => decide (p.peer = some n) || decide (p.ip = ip)) 0x0A) (List.range 96) h
  h.remFailAll w 0x0A

/-- A write of one 64-bit word of LNK_PEER[n]. -/
def Hub.peerWrite (h : Hub) (n word w : Nat) : Hub :=
  let v := h.on (Reg.lnkPeerV n)
  let ip := h.get (Reg.lnkPeerIp n)
  match word with
  | 0 => if v then h else h.set (Reg.lnkPeerIp n) (putBits ip 0 64 w)
  | 1 => if v then h else h.set (Reg.lnkPeerIp n) (putBits ip 64 64 w)
  | 2 =>
    let h := if v then h else h.sets [(Reg.lnkPeerIpv4 n, bits w 0 1), (Reg.lnkPeerPartition n, bits w 2 5)]
    let h := h.set (Reg.lnkPeerV n) (bits w 1 1)
    if v ∧ bits w 1 1 = 0 then h.peerGone n else h
  | _ => h

/-- LNK_PEER_WRITE (R377). -/
def execLnkPeerWrite (n : BitVec 12) (word : BitVec 2) (w : BitVec 64) (s0 : State) : Host.Outcome State Fault Refusal :=
  let s := s0.wroteBy 0
  .next ((s.onHub (·.peerWrite n.toNat word.toNat w.toNat)).pumpAll)

end Sys2Proof.Machine
end

