-- ==== Sys2Proof/Machine/Windows.lean ====
section
/-! DEFINITION. Opening, closing and freeing exported windows (16: R385, R389, R390). -/

namespace Sys2Proof.Machine

/-- The range of an entry lies in memory that its partition may export (R385). -/
def Hub.winOwned (h : Hub) (d w : Nat) : Bool :=
  let p := h.get (Reg.winWttPartition d w)
  let lg := h.get (Reg.winWttSizeLog2 d w)
  let a := h.get (Reg.winWttBase d w)
  let b := a + 2 ^ lg - 1
  decide (p < 24) && decide (16 ≤ lg) && decide (lg ≤ 36) && decide (a % 2 ^ lg = 0) &&
  match h.region a, h.region b with
  | .stack, .stack =>
    let l := (List.range (halfOf b - halfOf a + 1)).map (· + halfOf a)
    decide (stackOf a < 24) && decide (stackOf b < 24) && l.all (fun k => decide (h.halfOwner k = p))
  | .scratch sl _, .scratch sm _ => decide (sl = sm) && decide (h.sliceOwner sl = p)
  | .floeMem f _, .floeMem g _ => ((List.range (g - f + 1)).map (· + f)).all (fun k => decide (h.floeOwner k = p))
  | _, _ => false

/-- A record 0x0807 of an entry (R385, R389). -/
def Hub.winRec (h : Hub) (d w : Nat) : Hub :=
  h.record { code := 0x0807, cls := 0, part := h.get (Reg.winWttPartition d w), inst := (h.linksOf (h.get (Reg.winWttPartition d w))).headD (48 * d),
             die := d, d0 := w }

/-- A control or field write that the entry's state does not take (R389). -/
def Hub.winRefuse (h : Hub) (d w : Nat) : Hub :=
  ((h.set (Reg.winWttWrErr d w) 1).winRec d w).linkEvent (h.get (Reg.winWttPartition d w)) Reg.lnkEventWinErr

/-- OPEN (R385, R390): from FREE or CLOSED; the range is judged in the active epoch. -/
def Hub.winOpenAt (h : Hub) (d w : Nat) : Hub :=
  let st := h.get (Reg.winWttState d w)
  if h.dies ≤ d then h
  else if st = 1 ∨ st = 2 then h.winRefuse d w
  else if h.winOwned d w then h.sets [(Reg.winWttGen d w, h.get (Reg.winWttGen d w) + 1), (Reg.winWttState d w, 1)]
  else ((h.set (Reg.winWttOpenErr d w) 1).winRec d w).linkEvent (h.get (Reg.winWttPartition d w)) Reg.lnkEventWinErr

/-- CLOSE (R390): only from OPEN. -/
def Hub.winCloseAt (h : Hub) (d w : Nat) : Hub :=
  if h.dies ≤ d then h else if h.get (Reg.winWttState d w) = 1 then h.set (Reg.winWttState d w) 2 else h.winRefuse d w

/-- FREE (R389): only from CLOSED. -/
def Hub.winFreeAt (h : Hub) (d w : Nat) : Hub :=
  if h.dies ≤ d then h else if h.get (Reg.winWttState d w) = 3 then h.set (Reg.winWttState d w) 0 else h.winRefuse d w

/-- WIN_OPEN (R390). -/
def execWinOpen (die : BitVec 1) (w : BitVec 12) (s0 : State) : Host.Outcome State Fault Refusal :=
  let s := s0.wroteBy 0
  hubStep (·.winOpenAt die.toNat w.toNat) s

/-- WIN_CLOSE (R390). -/
def execWinClose (die : BitVec 1) (w : BitVec 12) (s0 : State) : Host.Outcome State Fault Refusal :=
  let s := s0.wroteBy 0
  hubStep (·.winCloseAt die.toNat w.toNat) s

/-- WIN_FREE (R389). -/
def execWinFree (die : BitVec 1) (w : BitVec 12) (s0 : State) : Host.Outcome State Fault Refusal :=
  let s := s0.wroteBy 0
  hubStep (·.winFreeAt die.toNat w.toNat) s

/-- WIN_DRAINED (R390): a closing entry with nothing admitted and unanswered is CLOSED. -/
def execWinDrained (die : BitVec 1) (w : BitVec 12) (s : State) : Host.Outcome State Fault Refusal :=
  hubStep (fun h =>
    let d := die.toNat
    if h.get (Reg.winWttState d w.toNat) = 2 ∧ h.get (Reg.winWttDrain d w.toNat) = 0 then
      (h.set (Reg.winWttState d w.toNat) 3).linkEvent (h.get (Reg.winWttPartition d w.toNat)) Reg.lnkEventWinDrained
    else h) s

end Sys2Proof.Machine
end

