-- ==== Sys2Proof/Machine/Forecast.lean ====
section
/-! DEFINITION. The forecast (02): the view and staging (R39-R41, R502), checks of a commit (R503), validation (R32, R33, R50), prepare,
apply and failure (R45-R48, R52), and what the apply phase does to partitions, slices, stacks, links and power. -/

namespace Sys2Proof.Machine

-- Staging

/-- The register field of a key of the register file. -/
def fldOf (k : Nat) : Option Fld :=
  match findReg (k / 2048) regMap with
  | some (r, ix, _) => ((r.fields 0 0 ix).map (·.fld)).find? (fun f => decide (f.key = k))
  | none => none

/-- What the forecast view shows of an RWF field (R41). -/
def Hub.view (h : Hub) (f : Fld) : Nat := (tlook h.cfg.staged f.key).getD (h.get f)

/-- A staged value moved to the register file. -/
def Hub.unstage (h : Hub) (x : Nat × Nat) : Hub :=
  match fldOf x.1 with
  | some f => h.set f x.2
  | none => h

/-- The configuration as the forecast would make it (R45). -/
def Hub.future (h : Hub) : Hub := h.cfg.staged.foldl Hub.unstage h

/-- The forecast is closed (R32, R68): open only in Test and Production, at Full service. -/
def Hub.cfgClosed (h : Hub) : Bool := h.whiteout || !(decide (h.life = 1) || decide (h.life = 2))

/-- A commit runs (R45). -/
def Hub.cfgBusy (h : Hub) : Bool := h.on Reg.cfgStatusPhase

/-- The interface that owns the forecast; 0 none. -/
def Hub.cfgOwner (h : Hub) : Nat := h.get Reg.cfgOwnerOwnerIf

/-- A refused write (R56, Table 14): one of PF MMIO is recorded. -/
def Hub.cfgRefuse (h : Hub) (via off cause : Nat) : Hub :=
  if via = 1 then
    (h.sets [(Reg.cfgRefusedOffset, off), (Reg.cfgRefusedIface, h.cfgOwner), (Reg.cfgRefusedCause, cause)]).event Reg.cfgEventRefused
  else h

/-- What refuses a staged write; 0 nothing (R32, R39, R45). -/
def Hub.stageCause (h : Hub) (via : Nat) : Nat :=
  if h.cfgBusy then 0x05 else if h.cfgClosed then 0x09 else if h.cfgOwner ≠ 0 ∧ h.cfgOwner ≠ via then 0x02 else 0

/-- The RWF fields of a register write, staged (R39, R502): those at the value the view shows are not staged, and a write of no other
stages nothing. The cause of a refusal, 0 none. -/
def Hub.stage (h : Hub) (via off : Nat) (l : List (Fld × Nat)) : Nat × Hub :=
  let l := l.filter (fun x => decide (x.2 % 2 ^ x.1.len ≠ h.view x.1))
  if l.isEmpty then (0, h)
  else
    let c := h.stageCause via
    if c ≠ 0 then (c, h.cfgRefuse via off c)
    else
      let h := h.set Reg.cfgOwnerOwnerIf via
      (0, { h with cfg := { h.cfg with staged := l.foldl (fun t x => tput t x.1.key (x.2 % 2 ^ x.1.len)) h.cfg.staged } })

/-- The forecast discarded, its ownership released. -/
def Hub.cfgDrop (h : Hub) : Hub := { h.set Reg.cfgOwnerOwnerIf 0 with cfg := { h.cfg with staged := [] } }

-- Validation

/-- Partitions of a configuration. -/
def Hub.existing (h : Hub) : List Nat := (List.range 24).filter h.partExists

/-- The maps of a partition (R328). -/
def Hub.maps (h : Hub) (p : Nat) : List Nat :=
  [h.get (Reg.prtHalvesMap p), h.get (Reg.prtVfsMap p), h.get (Reg.prtLinksLoMap p), h.get (Reg.prtLinksHiMap p)]
    ++ (List.range 3).map (fun w => h.get (Reg.prtSlicesMap p w)) ++ (List.range 8).map (fun w => h.get (Reg.prtFloesMap p w))

/-- Floor of the power class (Table 3 item 10). -/
def Hub.floorW (h : Hub) : Nat := 450 * h.dies + 30 * h.presentStacks.length

/-- CLASS_W lies in floor-budget. -/
def Hub.classOk (h : Hub) (n : Hub) : Bool :=
  decide (h.floorW ≤ n.get Reg.cfgPowerClassW) && decide (n.get Reg.cfgPowerClassW ≤ h.pdBudget)

/-- Some bit stands in two of the maps. -/
def overlap (l : List Nat) : Bool :=
  (l.foldl (fun (a : Nat × Bool) m => (a.1 ||| m, a.2 || decide (a.1 &&& m ≠ 0))) (0, false)).2

/-- VFs that exist now (Table 3 item 8): NumVFs while VF Enable is set. -/
def Hub.vfCount (h : Hub) : Nat := if h.on Pci.vfEnable then h.get Pci.numVfs else 0

/-- A half-stack that Table 3 item 2 lets no partition hold in configuration `n`. -/
def Hub.badHalf (h n : Hub) (k : Nat) : Bool :=
  let st := h.get (Reg.hbmStackInfoState (k / 2))
  decide (12 * h.dies ≤ k / 2) || decide (n.get (Reg.hbmStackCtrlEcc (k / 2)) = 1) || decide (st = 0) || decide (st = 3)

/-- An engine that Table 3 item 9 lets no partition hold. -/
def Hub.badEng (h : Hub) (e : Nat) : Bool :=
  let st := h.get (Reg.siteStatusState (e / 8))
  decide (st = 0) || decide (st = 4) || decide (h.get (Reg.siteEngStatusState e) = 0) || decide (h.get (Reg.siteEngStatusState e) = 4)

/-- A unit leaves partition `p` on the way to configuration `n` (Table 3 item 11). -/
def Hub.loses (h n : Hub) (p : Nat) : Bool :=
  !n.partExists p || ((h.maps p).zip (n.maps p)).any (fun x => decide (x.1 &&& x.2 ≠ x.1))
    || (h.enginesOf p).any (fun e => decide (n.engOwner e ≠ p))

/-- A unit joins partition `p`. -/
def Hub.gains (h n : Hub) (p : Nat) : Bool :=
  n.partExists p && (!h.partExists p || ((h.maps p).zip (n.maps p)).any (fun x => decide (x.1 &&& x.2 ≠ x.2))
    || (n.enginesOf p).any (fun e => decide (h.engOwner e ≠ p)))

/-- The item of Table 3 that a configuration breaks; 0 none. Items 1, 4 and 12 hold by the registers' form: a stack has one speed and
one ECC mode, the link mode has no field, BRAKE_LEVEL has two bits. -/
def Hub.brokenItem (h n : Hub) : Nat :=
  let ps := n.existing
  if ps.any (fun p => (n.halvesOf p).any (h.badHalf n)) then 2
  else if h.presentStacks.any (fun k => decide (h.pdMaxSpeed k < n.get (Reg.hbmStackCtrlSpeed k))) then 3
  else if ps.any (fun p => (n.halvesOf p).isEmpty || (n.slicesOf p).isEmpty) then 5
  else if ps.any (fun p => !(n.linksOf p).isEmpty && !(h.partGroups p).isEmpty
      && (n.slicesOf p).all (fun k => decide (n.get (Reg.frnSliceCtrlMode k) = 0))) then 6
  else if (List.range 15).any (fun i => overlap (ps.map (fun p => (n.maps p).getD i 0))) then 7
  else if ps.any (fun p => decide (n.get (Reg.prtVfsMap p) / 2 ^ h.vfCount ≠ 0)) then 8
  else if (List.range 128).any (fun e => decide (n.engOwner e < 24) && h.badEng e) then 9
  else if !h.classOk n then 10
  else if h.existing.any (fun p => h.loses n p && decide (h.partState p ≠ 1)) then 11
  else 0

/-- The partitions that a changed field concerns (R50): its own, or the owner of its unit before and after. -/
def Hub.keyParts (h n : Hub) (k : Nat) : List Nat :=
  let o := k / 2048
  if 0xA01000 ≤ o ∧ o < 0xA02800 then [(o - 0xA01000) / 0x100]
  else if 0x1100000 ≤ o ∧ o < 0x1100300 then [(o - 0x1100000) / 0x20]
  else if 0x1110000 ≤ o ∧ o < 0x1140000 then [(o - 0x1110000) / 0x2000]
  else if 0x801800 ≤ o ∧ o < 0x801C00 then [h.engOwner ((o - 0x801800) / 8), n.engOwner ((o - 0x801800) / 8)]
  else if 0x401000 ≤ o ∧ o < 0x401600 then [h.sliceOwner ((o - 0x401000) / 8)]
  else if 0x500100 ≤ o ∧ o < 0x5001C0 then [h.halfOwner ((o - 0x500100) / 8 * 2), h.halfOwner ((o - 0x500100) / 8 * 2 + 1)]
  else if 0xB02000 ≤ o ∧ o < 0xB03800 then [h.linkOwner ((o - 0xB02000) / 0x40)]
  else []

/-- The staged values that differ from the active ones, by key. -/
def Hub.changed (h : Hub) : List Nat :=
  (h.cfg.staged.filter (fun x => match fldOf x.1 with | some f => decide (h.get f ≠ x.2) | none => false)).map (·.1)

/-- The forecast touches a partition in Thaw, or assigns a resource that still thaws (R50, R338): an engine that has not cleared, or a
unit of a partition that is being deleted. -/
def Hub.thawTouched (h n : Hub) : Bool :=
  h.changed.any (fun k => (h.keyParts n k).any (fun p => decide (p < 24) && decide (h.partState p = 4)))
    || (tget PartSt.rst h.parts 31).waits.any (fun e => decide (n.engOwner e < 24))
    || n.existing.any (fun p => (List.range 24).any (fun q =>
        decide (h.partState q = 4) && decide (q ≠ p) && ((n.maps p).zip (h.maps q)).any (fun x => decide (x.1 &&& x.2 ≠ 0))))

/-- Validation (R33): cause and item, 0 for a legal forecast. Table 2 first, then Table 3, then THAWING. -/
def Hub.validate (h : Hub) : Nat × Nat :=
  let n := h.future
  if (h.life = 2 ∧ (List.range 24).any (fun k => h.get (Reg.hbmStackInfoState k) ≠ 0 && n.get (Reg.hbmStackCtrlEcc k) = 1)) ∨ !h.classOk n then (0x04, 0)
  else if h.brokenItem n ≠ 0 then (0x04, h.brokenItem n)
  else if h.thawTouched n then (0x06, 0)
  else (0, 0)

-- Commit

/-- The last result shown in CFG_STATUS. -/
def Hub.cfgResult (h : Hub) (cause item : Nat) : Hub :=
  h.sets [(Reg.cfgStatusLastOk, b2n (decide (cause = 0))), (Reg.cfgStatusLastCause, cause), (Reg.cfgStatusLastItem, item)]

/-- A failed commit or validation (R503, R46): the forecast is kept. -/
def Hub.cfgFail (h : Hub) (cause item : Nat) : Hub := (h.cfgResult cause item).event Reg.cfgEventCommitFailed

/-- The checks of R503: 1 and 3 refuse, the others fail. The cause, and whether it is a refusal. -/
def Hub.commitCause (h : Hub) (via w : Nat) : Nat × Bool :=
  if h.cfgBusy then (0x05, true)
  else if h.cfgClosed then (0x09, false)
  else if h.cfgOwner ≠ 0 ∧ h.cfgOwner ≠ via then (0x02, true)
  else if bits w 0 32 ≠ h.get Reg.cfgEpochEpoch then (0x01, false)
  else if h.cfg.staged.isEmpty then (0x03, false)
  else (0, false)

/-- Slices whose mode or whose disabled ways the forecast changes, and stacks whose speed it changes: the gates that close (R52), as
kind × 4096 + number. -/
def Hub.gatesOf (h n : Hub) : List Nat :=
  (List.range 192).filter (fun k => decide (h.get (Reg.frnSliceCtrlMode k) ≠ n.get (Reg.frnSliceCtrlMode k)))
    ++ ((List.range 24).filter (fun k => decide (h.get (Reg.hbmStackCtrlSpeed k) ≠ n.get (Reg.hbmStackCtrlSpeed k)))).map (· + 4096)

/-- A legal forecast goes into prepare (R45, Table 11): gates close, a stack whose speed changes enters self-refresh, and a twin's
secondary is asked. -/
def Hub.prepare (h : Hub) (via : Nat) : Hub :=
  let g := h.gatesOf h.future
  let tw := decide (h.dies = 2)
  let h := overList (fun k h => if 4096 ≤ k ∧ h.get (Reg.hbmStackInfoState (k - 4096)) = 2 then h.set (Reg.hbmStackInfoState (k - 4096)) 4 else h) g h
  let h := { h.set Reg.cfgStatusPhase 2 with cfg := { h.cfg with commit := some ⟨via, tw, g⟩ } }
  if tw then h.send (.bridge 1 (h.get Reg.cfgEpochEpoch)) else h

/-- A write of CFG_COMMIT with DISCARD 0 (R44, R45, R47, R503); the cause of a refusal, 0 none. -/
def Hub.cfgCommit (h : Hub) (via w : Nat) : Nat × Hub :=
  let c := h.commitCause via w
  if c.2 then (c.1, h.cfgRefuse via 0x100010 c.1)
  else if c.1 ≠ 0 then (0, h.cfgFail c.1 0)
  else
    let v := h.validate
    if v.1 ≠ 0 then (0, h.cfgFail v.1 v.2)
    else if bitAt w 32 then (0, h.cfgResult 0 0)
    else (0, h.prepare via)

/-- A write of CFG_COMMIT with DISCARD 1 (R503): checks 1 and 3 only. -/
def Hub.cfgDiscard (h : Hub) (via : Nat) : Nat × Hub :=
  if h.cfgBusy then (0x05, h.cfgRefuse via 0x100010 0x05)
  else if h.cfgOwner = 0 then (0, h)
  else if h.cfgOwner ≠ via then (0x02, h.cfgRefuse via 0x100010 0x02)
  else (0, h.cfgDrop)

/-- BREAK (R40), from PF MMIO only. -/
def Hub.cfgBreak (h : Hub) (via : Nat) : Hub :=
  if via ≠ 1 then h
  else if h.cfgBusy then h.cfgRefuse via 0x100018 0x05
  else if h.cfgOwner = 0 then h
  else h.cfgDrop.event Reg.cfgEventForecastExpired

/-- A write of the whole register CFG_COMMIT. -/
def Hub.cfgCommitWord (h : Hub) (via w : Nat) : Nat × Hub := if bitAt w 33 then h.cfgDiscard via else h.cfgCommit via w

/-- COMMIT (R503). -/
def execCommit (via : Iface) (w : BitVec 64) (s0 : State) : Host.Outcome State Fault Refusal :=
  let s := s0.wroteVia via
  hubStep (fun h => (h.cfgCommit via.code.toNat (putBits w.toNat 32 1 0)).2) s

/-- VALIDATE_ONLY (R47). -/
def execValidateOnly (via : Iface) (w : BitVec 64) (s0 : State) : Host.Outcome State Fault Refusal :=
  let s := s0.wroteVia via
  hubStep (fun h => (h.cfgCommit via.code.toNat (putBits w.toNat 32 1 1)).2) s

/-- DISCARD (R503). -/
def execDiscard (via : Iface) (s0 : State) : Host.Outcome State Fault Refusal :=
  let s := s0.wroteVia via
  hubStep (fun h => (h.cfgDiscard via.code.toNat).2) s

/-- BREAK (R40). -/
def execBreakForecast (via : Iface) (s0 : State) : Host.Outcome State Fault Refusal :=
  let s := s0.wroteVia via
  hubStep (·.cfgBreak via.code.toNat) s

/-- FORECAST_IDLE_EXPIRY (R40); a running commit keeps the forecast frozen (R45). -/
def execForecastIdleExpiry (s : State) : Host.Outcome State Fault Refusal :=
  hubStep (fun h => if h.cfgOwner = 0 ∨ h.cfgBusy then h else h.cfgDrop.event Reg.cfgEventForecastExpired) s

/-- TWIN_PREPARE_READY (R45). -/
def execTwinPrepareReady (s : State) : Host.Outcome State Fault Refusal :=
  hubStep (fun h => { h with cfg := { h.cfg with commit := h.cfg.commit.map (fun c => { c with twinWait := false }) } }) s

/-- A commit that fails in prepare (R46): gates reopen and the stacks leave self-refresh. -/
def State.commitFails (s : State) (cause : Nat) : State :=
  match s.hub.cfg.commit with
  | none => s
  | some c =>
    (s.onHub (fun h =>
      let h := overList (fun k h => if 4096 ≤ k ∧ h.get (Reg.hbmStackInfoState (k - 4096)) = 4 then h.set (Reg.hbmStackInfoState (k - 4096)) 2 else h)
        c.gates h
      ({ h.set Reg.cfgStatusPhase 0 with cfg := { h.cfg with commit := none } }).cfgFail cause 0)).prtPending

/-- COMMIT_DRAIN_TIMEOUT (R46). -/
def execCommitDrainTimeout (s : State) : Host.Outcome State Fault Refusal := .next (s.commitFails 0x07)

/-- COMMIT_TWIN_TIMEOUT (R46): only while the secondary's answer is awaited. -/
def execCommitTwinTimeout (s : State) : Host.Outcome State Fault Refusal :=
  match s.hub.cfg.commit with
  | some c => if c.twinWait then .next (s.commitFails 0x08) else .next s
  | none => .next s

-- Apply

/-- Requests of the lines that `q` names settled, their lines written back where dirty, and invalidated. -/
def State.cleanLines (s : State) (q : Nat → Bool) : State :=
  let a := (s.mem.misses.filter (fun e => q e.line)).map (·.line)
  let b := (s.mem.evicts.filter (fun e => q e.line)).map (·.line)
  let c := (s.mem.waiting.filter (fun x => q x.2.line)).map (fun x => x.2.line)
  ((a ++ b ++ c).eraseDups.foldl (fun s k => s.settle k) s).flushLines (fun l _ => q l)

/-- A slice changes its mode or its disabled ways (Table 13): lines in ways that leave cache use are written back and invalidated, ways
entering scratchpad are zeroed, and what ways entering cache held is lost. -/
def State.sliceMode (s : State) (sl m m' dis : Nat) : State :=
  let low (x : Nat) : Bool := decide (x = 1) || decide (x = 2)
  let high (x : Nat) : Bool := decide (x = 1)
  let s := ((s.mem.busyLines sl).foldl (fun s k => s.settle k) s).flushLines
    (fun _ l => decide (l.slice = sl) && (bitAt dis l.way || (if l.way < 8 then high m' else low m')))
  let s := if low m = low m' then s else { s with mem := s.mem.zero (scratchBase sl) 0x200000 }
  let s := if high m = high m' then s else { s with mem := s.mem.zero (scratchBase sl + 0x200000) 0x200000 }
  s.onHub (·.set (Reg.frnSliceStatusMode sl) m')

/-- A stack changes its ECC mode (R197, Table 13). -/
def State.stackEcc (s : State) (n ecc : Nat) : State :=
  let s := s.onHub (fun h => h.sets [(Reg.hbmStackInfoEcc n, ecc), (Reg.hbmStackInfoState n, if ecc = 1 then 5 else 2)])
  if ecc = 1 then s
  else
    let s := (s.rekey (2 * n)).rekey (2 * n + 1)
    { s with mem := { s.mem with cells := s.mem.cells.filter (fun c => !decide (stackOf c.1 = n)) } }

/-- The units whose owner differs between two configurations: half-stacks, slices, floes, links, VFs, engines. -/
structure Moves where
  halves : List Nat
  slices : List Nat
  floes : List Nat
  links : List Nat
  vfs : List Nat
  engines : List Nat

/-- What moves from configuration `h` to `n`. -/
def moves (h n : Hub) : Moves where
  halves := (List.range 48).filter (fun k => decide (h.halfOwner k ≠ n.halfOwner k))
  slices := (List.range 192).filter (fun k => decide (h.sliceOwner k ≠ n.sliceOwner k))
  floes := (List.range 512).filter (fun k => decide (h.floeOwner k ≠ n.floeOwner k))
  links := (List.range 96).filter (fun k => decide (h.linkOwner k ≠ n.linkOwner k))
  vfs := ((List.range 48).map (· + 1)).filter (fun k => decide (h.vfOwner k ≠ n.vfOwner k))
  engines := (List.range 128).filter (fun k => decide (h.engOwner k ≠ n.engOwner k))

/-- An engine that changes hands (R298, R338): one that leaves a partition receives CLEAR, and its Thaw waits for CLEARED. -/
def Hub.engMoves (h0 : Hub) (e : Nat) (h : Hub) : Hub :=
  let h :=
    if !h.partExists (h0.engOwner e) then h
    else
      let h := h.clearEng e
      if h.get (Reg.siteEngStatusState e) = 3 then h.onPart 31 (fun x => { x with waits := kadd x.waits e }) else h.event Reg.prtEventThawed
  if h.get (Reg.siteEngStatusState e) = 1 ∧ h.engOwner e < 24 then h.set (Reg.siteEngStatusState e) 2
  else if h.get (Reg.siteEngStatusState e) = 2 ∧ 24 ≤ h.engOwner e then h.set (Reg.siteEngStatusState e) 1
  else h

/-- A VF that changes hands: one that leaves a partition is thawed (R338). -/
def Hub.vfMoves (h0 : Hub) (v : Nat) (h : Hub) : Hub :=
  if !h.partExists (h0.vfOwner v) then h else ((h.queuesReset v).tdispUnlock v).event Reg.prtEventThawed

/-- A link that changes hands: its paths close (R377), and one that leaves a partition is thawed (R338). -/
def Hub.linkMoves (h0 : Hub) (l : Nat) (h : Hub) : Hub := if !h.partExists (h0.linkOwner l) then h.linkClear l else (h.linkThaw l).event Reg.prtEventThawed

/-- A floe that changes hands (R106, R338). -/
def State.floeMoves (h0 : Hub) (s : State) (f : Nat) : State :=
  let s := if !s.hub.partExists (h0.floeOwner f) then s else (s.floeScrub f).onHub (·.event Reg.prtEventThawed)
  s.onHub (fun h => h.set (Reg.flcFloeStatusState f) (if h.floeOwner f < 24 then 1 else 0))

/-- A slice that changes hands (R209, R338): it joins the home set of a partition that is created or Stopped. -/
def State.sliceMoves (h0 : Hub) (s : State) (k : Nat) : State :=
  let s := if !s.hub.partExists (h0.sliceOwner k) then s else (s.sliceScrub true k).onHub (·.event Reg.prtEventThawed)
  s.onHub (fun h => h.set (Reg.frnSliceStatusHome k) 0)

/-- A half-stack that changes hands takes a new key (R329, R330), and its domains end (R465); one that leaves a partition is at step 5 of
its Thaw at once. -/
def State.halfMoves (h0 : Hub) (s : State) (k : Nat) : State :=
  let s := (s.onHub (fun h => h.domsEnd (fun d => decide (halfOf (h.get (Reg.secDomainBase d)) = k)))).rekey k
  if !s.hub.partExists (h0.halfOwner k) then s else s.onHub (·.event Reg.prtEventThawed)

/-- A partition created (Table 4 of 14): STOPPED, with its first keys. -/
def Hub.created (p : Nat) (h : Hub) : Hub :=
  (h.sets [(Reg.prtStatusState p, 1), (Reg.prtStatusKeyGen p, h.get (Reg.prtStatusKeyGen p) + 1), (Reg.prtStatusThawDrop p, 0)]).raiseVf p 4

/-- The translations of a partition's address spaces invalidated (R266). -/
def Hub.asidDrop (p : Nat) (h : Hub) : Hub :=
  { h with xlt := { h.xlt with
    tlbs := h.xlt.tlbs.filter (fun t => !decide (h.get (Reg.xltAsPartition t.asid) = p)),
    wcache := h.xlt.wcache.filter (fun t => !decide (h.get (Reg.xltAsPartition t.asid) = p)) } }

/-- The slices of a Stopped partition all join its home set (R209). -/
def Hub.joinHome (p : Nat) (h : Hub) : Hub :=
  if h.partState p = 1 then overList (fun k h => h.set (Reg.frnSliceStatusHome k) 1) (h.slicesOf p) h else h

/-- Tokens of the regulators whose BURST changes (R324): the smaller of what they hold and a full new bucket. -/
def Hub.burstMoves (h0 : Hub) (h : Hub) : Hub :=
  { h with qos := h.qos.map (fun x =>
      if h0.get (Reg.qosPortBurst x.1) = h.get (Reg.qosPortBurst x.1) then x
      else (x.1, { x.2 with tokens := some (min (x.2.tokens.getD (h0.bucket x.1)) (h.bucket x.1)) })) }

/-- The power class and the brake level applied (R50): while POWER_BRAKE_N is active the old class stays in effect, and a new brake level
applies its row. -/
def Hub.powerMoves (h0 : Hub) (h : Hub) : Hub :=
  if h0.get Reg.cfgPowerClassW = h.get Reg.cfgPowerClassW ∧ h0.get Reg.cfgPowerBrakeLevel = h.get Reg.cfgPowerBrakeLevel then h
  else
    let h : Hub := if h.iso.brakePin then { h with iso := { h.iso with classHeld := some h0.classW } } else h
    if !h.isoRuns then h
    else
      let h := h.showBudget
      if h.brakes.isEmpty then h else h.setGrants (h.brakeRow h.brakeLevel)

/-- The partition layout applied: `h0` is the configuration before, and deletions have begun their Thaw (R209, R210, R266, R298, R329,
R330, R338, R370, R392). -/
def State.applyLayout (h0 : Hub) (s : State) : State :=
  let n := s.hub
  let m := moves h0 n
  let made := (List.range 24).filter (fun p => n.partExists p && !h0.partExists p)
  let kept := (List.range 24).filter (fun p => n.partExists p && h0.partExists p && (h0.gains n p || h0.loses n p))
  let s := s.onHub (fun h =>
    let h := overList (fun p h => overList (fun v h => if h0.vfOwner v = p then h.tdispError v else h) (h.vfsOf p) h) kept h
    let h := overList (Hub.engMoves h0) m.engines h
    let h := overList (Hub.linkMoves h0) m.links h
    let h := overList (Hub.vfMoves h0) m.vfs h
    overList (fun k h =>
      if (h.get (Reg.winWttState (k / 4096) (k % 4096)) = 1 ∨ h.get (Reg.winWttState (k / 4096) (k % 4096)) = 2) && !h.winOwned (k / 4096) (k % 4096) then
        h.winShut (k / 4096) (k % 4096) else h) (if kept.isEmpty then [] else List.range 8192) h)
  let s := m.floes.foldl (State.floeMoves h0) s
  let s := m.slices.foldl (State.sliceMoves h0) s
  let s := m.halves.foldl (State.halfMoves h0) s
  s.onHub (fun h =>
    let h := overList Hub.created made h
    let h := overList Hub.joinHome h.existing h
    overList Hub.asidDrop (kept ++ made) h)

/-- Slices whose mode or whose operator-disabled ways change; stacks whose ECC mode, and whose speed, change; links whose port entry
changes. -/
def State.applyUnits (h0 : Hub) (s : State) : State :=
  let n := s.hub
  let s := (List.range 192).foldl (fun s k =>
    let a := h0.get (Reg.frnSliceCtrlMode k)
    let b := n.get (Reg.frnSliceCtrlMode k)
    let d := n.get (Reg.frnSliceCtrlOpDisable k)
    if a = b ∧ h0.get (Reg.frnSliceCtrlOpDisable k) = d then s else s.sliceMode k a b d) s
  let s := (List.range 24).foldl (fun s k =>
    if h0.get (Reg.hbmStackCtrlEcc k) = n.get (Reg.hbmStackCtrlEcc k) ∨ h0.get (Reg.hbmStackInfoState k) = 0 then s
    else s.stackEcc k (n.get (Reg.hbmStackCtrlEcc k))) s
  s.onHub (fun h =>
    let h := overList (fun k h =>
      if h0.get (Reg.hbmStackCtrlSpeed k) = h.get (Reg.hbmStackCtrlSpeed k) ∨ h.get (Reg.hbmStackInfoState k) ≠ 4 then h
      else { h.set (Reg.hbmStackInfoState k) 1 with cfg := { h.cfg with retrain := h.cfg.retrain ++ [4096 + k] } }) (List.range 24) h
    let ports := (h0.changed.filter (fun k => decide (0xB02000 ≤ k / 2048) && decide (k / 2048 < 0xB03800))).map (fun k => (k / 2048 - 0xB02000) / 0x40)
    overList (fun l h => h.linkClear l) ports.eraseDups h)

/-- The last gate is open: the commit has ended (Table 11), and RESET and THAW writes that it held back act (R339). -/
def State.commitEnds (s : State) : State :=
  if s.hub.cfg.retrain.isEmpty then (s.onHub (·.set Reg.cfgStatusPhase 0)).prtPending else s

/-- The partition's home set differs in the configuration to come, or slices wait to join it (R209, R210). -/
def Hub.homeChanges (h n : Hub) (p : Nat) : Bool :=
  h.partExists p && n.partExists p && decide (h.partState p = 1)
    && (decide (h.slicesOf p ≠ n.slicesOf p) || (h.slicesOf p).any (fun k => !h.on (Reg.frnSliceStatusHome k)))

/-- The configuration `n` takes effect: the register file is `n`'s, and the units follow. -/
def State.applyConfig (s : State) : State :=
  let h0 := s.hub
  let n := h0.future
  let home := (List.range 24).filter (h0.homeChanges n)
  let s := if home.isEmpty then s else s.cleanLines (fun l => home.contains (h0.halfOwner (halfOf (128 * l))))
  let s := ((List.range 24).filter (fun p => h0.partExists p && !n.partExists p)).foldl (fun s p => s.partThaw p true) s
  let s := s.onHub Hub.future
  let s := (State.applyLayout h0 s).applyUnits h0
  s.onHub (fun h => (h.burstMoves h0).powerMoves h0)

/-- What a drain still waits for: a repair on a gated stack (R201), the migration of a tag whose place or format changes (R180), the
secondary. -/
def Hub.drains (h : Hub) (c : Commit) : Bool :=
  c.twinWait || c.gates.any (fun k => decide (4096 ≤ k) && h.ras.running.contains (k - 4096))
    || h.changed.any (fun k =>
      let t := (k / 2048 - 0x1110000)
      decide (0x1110000 ≤ k / 2048) && decide (k / 2048 < 0x1140000) && (h.dew.running ++ h.dew.waiting).contains (t / 0x2000, t % 0x2000 / 0x20)
        && [Reg.dewTagBase 0 0, Reg.dewTagGroups 0 0, Reg.dewTagStride 0 0, Reg.dewTagFmt 0 0, Reg.dewTagCeil 0 0].any (fun f => decide (f.lo = k % 2048)))

/-- COMMIT_APPLY (R45, R48): prepare has drained. -/
def execCommitApply (s0 : State) : Host.Outcome State Fault Refusal :=
  match s0.hub.cfg.commit with
  | none => .next s0
  | some c =>
    if s0.hub.drains c then .next s0
    else
      let s := s0.applyConfig
      let s := s.onHub (fun h =>
        let e := h.get Reg.cfgEpochEpoch
        let h := (h.sets [(Reg.cfgEpochEpoch, if e = 0xFFFFFFFF then 1 else e + 1), (Reg.cfgStatusPhase, 3), (Reg.cfgOwnerOwnerIf, 0)]).cfgResult 0 0
        ({ h with cfg := { h.cfg with staged := [], commit := none } }).event Reg.cfgEventCommitDone)
      .next (s.commitEnds.watch s0)

/-- RETRAIN_DONE (R45; Modes of 08): a stack runs at the speed that trained, at most the configured one; a lower one is recorded. A quad
retrains only when the link mode changes, which no register field lets a forecast do. -/
def execRetrainDone (quad : Bool) (n : BitVec 5) (speed : BitVec 2) (s : State) : Host.Outcome State Fault Refusal :=
  let k := n.toNat
  if quad ∨ !s.hub.cfg.retrain.contains (4096 + k) then .next s
  else
    let want := s.hub.get (Reg.hbmStackCtrlSpeed k)
    let got := min speed.toNat want
    let s := s.onHub (fun h =>
      let h := { h.sets [(Reg.hbmStackInfoState k, 2), (Reg.hbmStackInfoSpeed k, got)] with
        cfg := { h.cfg with retrain := h.cfg.retrain.filter (fun x => !decide (x = 4096 + k)) } }
      if got < want then (h.event Reg.hbmEventRetrain).record { code := 0x0306, cls := 0, inst := k, die := k / 12, d0 := k } else h)
    .next s.commitEnds

end Sys2Proof.Machine
end

