-- ==== Sys2Proof/Machine/Host.lean ====
section
/-! DEFINITION. The host endpoint (15): queue pairs (R354-R360), NOP and DIAG_ACCESS (R358, R197), BAR2 (R348-R350), upstream requests
(R361, R362), Bus Master Enable, MSI-X and power state (R343, R353, R364), Function Level Resets and SR-IOV (R54, R351, R366,
R367). -/

namespace Sys2Proof.Machine

-- Errors of the endpoint (R363)

/-- A host record (Table 5 of 22): the function, the BAR offset or tag, and the first bytes of a TLP header, which no command carries
(a free value). -/
def Hub.hostRec (h : Hub) (code fn d0 : Nat) (tlp : Bool) : Hub :=
  if tlp then
    let v := h.draw.1 % 2 ^ 64
    h.draw.2.record { code := code, cls := 0, inst := fn, d0 := d0, d1 := v }
  else h.record { code := code, cls := 0, inst := fn, d0 := d0 }

/-- An uncorrectable error with a TLP (R363): the Header Log takes the first logged header, a free value. -/
def Hub.aerTlp (h : Hub) (fn bit : Nat) : Hub :=
  if h.on (Pci.aerUnc fn) then h.aerUnc fn bit
  else
    let v := h.draw.1 % 2 ^ 128
    (h.draw.2.set (Pci.aerHeader fn) v).aerUnc fn bit

/-- An uncorrectable error whose record has no code of its own in Table 15: source 0x0A, the rest of the code a free value. -/
def Hub.aerPlain (h : Hub) (fn bit d0 : Nat) : Hub :=
  let c := h.draw.1 % 256
  (h.draw.2.aerTlp fn bit).hostRec (0x0A00 + c) fn d0 true

/-- A poisoned TLP received (Table 12). -/
def Hub.poisonRx (h : Hub) (fn d0 : Nat) : Hub := ((h.aerTlp fn 12).event Reg.hstEventPoisonRx).hostRec 0x0A04 fn d0 true

-- Queue pairs

/-- The opcodes of Table 9 and of 16, 17 and 20. -/
def opcodes : List Nat :=
  [0x00, 0x01, 0x02, 0x03, 0x04, 0x05, 0x06, 0x10, 0x40, 0x41, 0x42, 0x43, 0x44, 0x50, 0x51, 0x52, 0x53, 0x54]

/-- A queue enters STATE 3 (R360). -/
def Hub.queueErr (h : Hub) (fn q st : Nat) : Hub :=
  ((h.sets [(Reg.qStatusState fn q, 3), (Reg.qStatusErr fn q, st)]).event Reg.hstEventQueueErr).hostRec 0x0A05 fn q false

/-- A fetch of a queue is open. -/
def Hub.fetching (h : Hub) (fn q : Nat) : Bool := h.tags.any (fun t => decide (t.fn = fn) && decide (t.who = .fetch q))

/-- A fetch of a queue has ended (R356, R358, R360): its command is open; one with an unknown opcode completes INVALID_OPCODE. Which
command it was says its row. -/
def Hub.fetchDone (h : Hub) (fn q st raw : Nat) : Hub :=
  if h.get (Reg.qStatusState fn q) ≠ 1 then h
  else if st = 0x06 ∨ st = 0x07 ∨ st = 0x08 then h.queueErr fn q st
  else
    let n := wrapAdd 32 (h.get (Reg.qStatusSqHead fn q)) 1
    let c : QCmd := ⟨fn, q, n, BitVec.ofNat 512 raw⟩
    let h := h.set (Reg.qStatusSqHead fn q) n
    let h := h.setQp fn q { h.qp fn q with openCmds := (h.qp fn q).openCmds ++ [c] }
    if opcodes.contains (qf c 0 1) then h else h.complete c 0x01 0

/-- The queue may fetch and start its next command (R355, R356, R359): a command with FENCE waits for all before it. -/
def Hub.mayFetch (h : Hub) (fn q raw : Nat) : Bool :=
  decide (h.get (Reg.qStatusState fn q) = 1) && decide (h.get (Reg.qStatusSqHead fn q) ≠ (h.qp fn q).tail) && (h.qp fn q).held.isEmpty
    && !h.quiet fn && !h.vfMute fn && !h.fetching fn q && (!bitAt (bits raw 8 8) 0 || (h.qp fn q).openCmds.isEmpty)

/-- COMMAND_FETCH (R356): `status` is how the read of the command ends, 0 with its bytes; any other value than 0 and those of R360 leaves
the read open, for HOST_COMPLETION or COMPLETION_TIMEOUT to end. -/
def execCommandFetch (fn : BitVec 6) (q : BitVec 6) (status : BitVec 8) (raw : BitVec 512) (s : State) : Host.Outcome State Fault Refusal :=
  hubStep (fun h =>
    let st := status.toNat
    if !h.mayFetch fn.toNat q.toNat raw.toNat then h
    else if st = 0 ∨ st = 0x06 ∨ st = 0x07 ∨ st = 0x08 then h.fetchDone fn.toNat q.toNat st raw.toNat
    else
      let a := h.get (Reg.qSqBaseAddr fn.toNat q.toNat) * 4096
        + 64 * (h.get (Reg.qStatusSqHead fn.toNat q.toNat) % 2 ^ h.get (Reg.qCtrlSqLog2 fn.toNat q.toNat))
      match h.takeTag fn.toNat (.fetch q.toNat) a with
      | none => h
      | some (t, h) => h.send (.hostRead fn.toNat t a 64)) s

/-- A write of Q_SQ_TAIL (R355). -/
def Hub.sqTail (h : Hub) (f k v : Nat) : Hub :=
  if h.vfMute f ∨ h.get (Reg.qStatusState f k) ≠ 1 then h
  else if 2 ^ h.get (Reg.qCtrlSqLog2 f k) < diff32 v (h.get (Reg.qStatusSqHead f k)) ∨ 2 ^ 31 ≤ diff32 v (h.qp f k).tail then
    h.set (Reg.qStatusDbErr f k) 1
  else h.setQp f k { h.qp f k with tail := v }

/-- SQ_TAIL (R355). -/
def execSqTail (fn : BitVec 6) (q : BitVec 6) (v : BitVec 32) (s0 : State) : Host.Outcome State Fault Refusal :=
  let s := s0.wroteBy fn.toNat
  hubStep (·.sqTail fn.toNat q.toNat v.toNat) s

/-- A write of Q_CQ_HEAD (R355, R359): held records go out as there is space. -/
def Hub.cqHead (h : Hub) (f k v : Nat) : Hub :=
  if h.vfMute f ∨ h.get (Reg.qStatusState f k) = 0 then h
  else (h.setQp f k { h.qp f k with cqHead := v }).flushQueue f k

/-- CQ_HEAD (R355, R359). -/
def execCqHead (fn : BitVec 6) (q : BitVec 6) (v : BitVec 32) (s0 : State) : Host.Outcome State Fault Refusal :=
  let s := s0.wroteBy fn.toNat
  hubStep (·.cqHead fn.toNat q.toNat v.toNat) s

/-- The fields of Q_CTRL that a write sets whatever the state: IRQ_EN, and VECTOR where it is no reserved encoding (R6). -/
def Hub.qCtrlWrite (h : Hub) (f k w : Nat) : Hub :=
  let h := h.set (Reg.qCtrlIrqEn f k) (bits w 11 1)
  if f ≠ 0 ∧ 255 < bits w 16 11 then h else h.set (Reg.qCtrlVector f k) (bits w 16 11)

/-- A queue size field, kept where the value is a reserved encoding (R6). -/
def Hub.setLog2 (h : Hub) (f : Fld) (v : Nat) : Hub := if 6 ≤ v ∧ v ≤ 16 then h.set f v else h

/-- A write of Q_CTRL with ENABLE 1 (R354): only from STATE 0 does it enable. -/
def Hub.queueOn (h : Hub) (f k w : Nat) : Hub :=
  if h.vfMute f then h
  else if h.get (Reg.qStatusState f k) = 0 then
    let h := (h.setLog2 (Reg.qCtrlSqLog2 f k) (bits w 1 5)).setLog2 (Reg.qCtrlCqLog2 f k) (bits w 6 5)
    let h := (h.qCtrlWrite f k w).setQp f k QPair.rst
    if bitAt w 0 then h.sets [(Reg.qCtrlEnable f k, 1), (Reg.qStatusState f k, 1), (Reg.qStatusSqHead f k, 0), (Reg.qStatusHeld f k, 0)] else h
  else h.qCtrlWrite f k w

/-- QUEUE_ENABLE (R354). -/
def execQueueEnable (fn : BitVec 6) (q : BitVec 6) (w : BitVec 32) (s0 : State) : Host.Outcome State Fault Refusal :=
  let s := s0.wroteBy fn.toNat
  hubStep (·.queueOn fn.toNat q.toNat w.toNat) s

/-- ENABLE written 0 (R360): a running queue drains, and one in STATE 3 leaves it. -/
def Hub.queueOff (h : Hub) (f k : Nat) : Hub :=
  let st := h.get (Reg.qStatusState f k)
  let h := h.set (Reg.qCtrlEnable f k) 0
  if st = 1 ∨ st = 3 then (h.set (Reg.qStatusState f k) 2).drainQueue f k else h

/-- A write of Q_CTRL with ENABLE 0 (R360). -/
def Hub.queueCtl0 (h : Hub) (f k w : Nat) : Hub :=
  if h.vfMute f then h
  else
    let h := if h.get (Reg.qStatusState f k) = 0 then
        (h.setLog2 (Reg.qCtrlSqLog2 f k) (bits w 1 5)).setLog2 (Reg.qCtrlCqLog2 f k) (bits w 6 5)
      else h
    (h.qCtrlWrite f k w).queueOff f k

/-- QUEUE_DISABLE (R360). -/
def execQueueDisable (fn : BitVec 6) (q : BitVec 6) (w : BitVec 32) (s0 : State) : Host.Outcome State Fault Refusal :=
  let s := s0.wroteBy fn.toNat
  hubStep (·.queueCtl0 fn.toNat q.toNat w.toNat) s

/-- CMD_NOP (R358). -/
def execCmdNop (cmd : QCmd) (s : State) : Host.Outcome State Fault Refusal :=
  let st := s.hub.cmdCheck cmd false
  .next (s.done cmd (if st ≠ 0 then st else if qz cmd 0x10 0x40 then 0 else 0x02) 0)

-- DIAG_ACCESS (R197)

/-- A byte of a DIAG stack as its cell stands. -/
def Memory.cell (m : Memory) (a : Nat) : Byte := (tlook m.cells a).getD (Config.cellByte a)

/-- Cells read as a number. -/
def Memory.cellsRd (m : Memory) (a n : Nat) : Nat :=
  match n with
  | 0 => 0
  | n + 1 => (m.cell a).toNat + 256 * m.cellsRd (a + 1) n

/-- Cells written. -/
def Memory.cellsWr (m : Memory) (a : Nat) : List Byte → Memory
  | [] => m
  | b :: t => ({ m with cells := tput m.cells a b }).cellsWr (a + 1) t

/-- Every byte of a range lies in one DIAG stack, below its capacity. -/
def Hub.diagRange (h : Hub) (a n : Nat) : Bool :=
  let ok (x : Nat) : Bool := h.region x == .stack && decide (stackOf x < 24) && decide (h.get (Reg.hbmStackInfoState (stackOf x)) = 5)
    && decide (x % 2 ^ 35 < h.halfC (halfOf x))
  decide (n = 0) || (ok a && ok (a + n - 1) && decide (halfOf a = halfOf (a + n - 1)))
    || (ok a && ok (a + n - 1) && decide (halfOf a + 1 = halfOf (a + n - 1)) && decide (stackOf a = stackOf (a + n - 1))
      && decide (h.halfC (halfOf a) = 2 ^ 35))

/-- What refuses a DIAG_ACCESS; 0 nothing. -/
def Hub.diagCheck (h : Hub) (c : QCmd) : Nat :=
  if c.fn ≠ 0 then 0x04
  else if h.cmdCheck c false ≠ 0 then h.cmdCheck c false
  else if qf c 0x10 8 % 32 ≠ 0 ∨ qf c 0x20 4 % 32 ≠ 0 ∨ 2 ^ 20 < qf c 0x20 4 ∨ 1 < qf c 0x24 1 ∨ !qz c 0x25 0x40 then 0x02
  else if h.life ≠ 1 then 0x0D
  else if !h.diagRange (qf c 0x10 8) (qf c 0x20 4) then 0x02
  else 0

/-- DIAG_ACCESS (R197, R358): `host` is what the host memory it reads holds; given less than LENGTH, the read stays open. -/
def execDiagAccess (cmd : QCmd) (host : List (BitVec 8)) (s : State) : Host.Outcome State Fault Refusal :=
  let st := s.hub.diagCheck cmd
  let a := qf cmd 0x10 8
  let n := qf cmd 0x20 4
  if st ≠ 0 then .next (s.done cmd st 0)
  else if s.hub.quiet 0 then .next s
  else if qf cmd 0x24 1 = 0 then
    .next ((s.onHub (·.send (.hostWrite 0 (qf cmd 0x18 8) n (s.mem.cellsRd a n)))).done cmd 0 n)
  else if host.length = n then .next ({ s with mem := s.mem.cellsWr a host }.done cmd 0 n)
  else if s.hub.tagOpen (.diag (qf cmd 2 2) cmd.q) (qf cmd 0x18 8) then .next s
  else hubStep (fun h =>
    match h.takeTag 0 (.diag (qf cmd 2 2) cmd.q) (qf cmd 0x18 8) with
    | none => h
    | some (t, h) => h.send (.hostRead 0 t (qf cmd 0x18 8) n)) s

/-- The open DIAG_ACCESS of a tag. -/
def Hub.diagCmd (h : Hub) (cid q : Nat) : Option QCmd := (h.qp 0 q).openCmds.find? (fun c => decide (qf c 0 1 = 0x10) && decide (qf c 2 2 = cid))

-- BAR2 (R348-R350)

/-- The HPA of a BAR2 offset. -/
def Hub.bar2Hpa (h : Hub) (off : Nat) : Nat := h.get (Reg.hstAttHpa (off / 2 ^ 26)) * 2 ^ 26 + off % 2 ^ 26

/-- CAUSE of Table 6; 0 none. -/
def Hub.bar2Cause (h : Hub) (off : Nat) (write : Bool) : Nat :=
  let w := off / 2 ^ 26
  let a := h.bar2Hpa off
  let k := h.get (Reg.hstAttKeyPartition w)
  let stack := h.region a == .stack
  if !h.on (Reg.hstAttV w) || decide (h.get Reg.hstInfoWindows ≤ w) then 1
  else if (match h.region a with | .stack => false | .scratch _ _ => false | .floeMem _ _ => false | .event _ _ => false | _ => true) then 1
  else if write && !h.on (Reg.hstAttWe w) then 2
  else if stack && decide (h.halfOwner (halfOf a) ≠ k) then 3
  else if stack && decide (k < 24) && decide (h.partState k = 4) then 4
  else if stack && decide (k < 24) && h.anyRun k then 5
  else 0

/-- A refused access (R349): event, first-refusal record, Moraine record. -/
def Hub.bar2Refuse (h : Hub) (off cause : Nat) : Hub :=
  let h := h.event Reg.hstEventAttErr
  let h := if h.on Reg.hstAttErrCause then h else h.sets [(Reg.hstAttErrOffset, off), (Reg.hstAttErrCause, cause)]
  h.hostRec 0x0A02 0 off true

/-- An admitted BAR2 read. -/
def State.bar2Rd (s : State) (off n : Nat) : State :=
  let a := s.hub.bar2Hpa off
  let s := s.onHub (·.qosCount hostPort a n false)
  match s.hub.region a with
  | .event _ _ =>
    let v := if n = 4 ∧ a % 4 = 0 then s.mem.rd a 4 else 0
    s.onHub (·.send (.bar2Cpl 0 n v false))
  | _ =>
    let r := s.hubRead .pf a n (s.hub.on (Reg.hstAttAlloc (off / 2 ^ 26)))
    r.s.onHub (·.send (.bar2Cpl 0 n r.v (decide (r.bad ≠ 0))))

/-- An admitted BAR2 write. -/
def State.bar2Wr (s : State) (off : Nat) (data : List Byte) (poison : Bool) : State :=
  let a := s.hub.bar2Hpa off
  let n := data.length
  let s := s.onHub (·.qosCount hostPort a n true)
  match s.hub.region a with
  | .event f k =>
    if n = 4 ∧ a % 4 = 0 then { s with mem := s.mem.setCounter f k (wrapAdd 32 (s.mem.counter f k) (leNat data)) } else s
  | _ => (s.hubWrite .pf a n (leNat data) (if poison then allBad a n else 0) (s.hub.on (Reg.hstAttAlloc (off / 2 ^ 26)))).s

/-- BAR2_READ (R348, R349, R365). Completion kinds: 0 successful, 1 Unsupported Request, 4 Completer Abort. -/
def execBar2Read (off : BitVec 40) (len : BitVec 13) (s : State) : Host.Outcome State Fault Refusal :=
  let o := off.toNat
  let n := len.toNat
  if !s.hub.on (Pci.mse 0) then hubStep (fun h => (h.aerPlain 0 20 o).send (.bar2Cpl 1 0 0 false)) s
  else
    let c := s.hub.bar2Cause o false
    if c ≠ 0 then
      hubStep (fun h =>
        let ur := decide (c < 4)
        ((h.aerTlp 0 (if ur then 20 else 15)).bar2Refuse o c).send (.bar2Cpl (if ur then 1 else 4) 0 0 false)) s
    else
      let q := s.hub.admitReq hostPort n (.host o n none false)
      if q.1 then .next (State.bar2Rd { s with hub := q.2 } o n) else .next { s with hub := q.2 }

/-- BAR2_WRITE (R348, R349, R365). -/
def execBar2Write (off : BitVec 40) (data : List (BitVec 8)) (poison : Bool) (s : State) : Host.Outcome State Fault Refusal :=
  let o := off.toNat
  let s := if poison then s.onHub (·.poisonRx 0 o) else s
  if !s.hub.on (Pci.mse 0) then hubStep (·.aerPlain 0 20 o) s
  else
    let c := s.hub.bar2Cause o true
    if c ≠ 0 then hubStep (·.bar2Refuse o c) s
    else
      let q := s.hub.admitReq hostPort data.length (.host o data.length (some data) poison)
      if q.1 then .next (State.bar2Wr { s with hub := q.2 } o data poison) else .next { s with hub := q.2 }

-- Upstream requests (R361, R362)

/-- A translation completion (R249), as PCIe's ATS lays it out: R bit 0, W bit 1, S bit 11, the address from bit 12 (PRESUMED). -/
def Hub.atsDone (h : Hub) (fn n ix a st v : Nat) : Hub :=
  if st ≠ 0 then h.onDesc n ix (fun d => d.finish 0x05 (d.f 8 8))
  else if bits v 0 2 = 0 then
    (if h.on (Pci.priEn fn) then ({ h with drift := { h.drift with pri := h.drift.pri ++ [(n, ix)] } }).send (.ats fn a 2)
     else h.onDesc n ix (fun d => d.finish 0x05 (d.f 8 8)))
  else
    let out := v / 4096
    let log2 := if bitAt v 11 then (findLow 40 (fun i => !bitAt out i)).getD 0 + 1 else 0
    let e : AtsEntry := ⟨fn, a / 4096 / 2 ^ log2 * 2 ^ log2, log2, out / 2 ^ log2 * 2 ^ log2, bits v 0 2⟩
    { h with drift := { h.drift with ats := (e :: h.drift.ats).take 8192 } }

/-- What a completion means to its requester: status 0 data, 0x07 Unsupported Request or Completer Abort, 0x08 poisoned data, 0x06
timed out (Table 11). -/
def State.answerTag (s : State) (t : TagEntry) (st : Nat) (data : List Byte) : State :=
  match t.who with
  | .fetch q => s.onHub (·.fetchDone t.fn q st (leNat data))
  | .stream n ix =>
    if st = 0 ∨ st = 0x08 then s.onHub (·.onDesc n ix (fun d => { d with got := d.got ++ [(t.key, leNat data, decide (st ≠ 0))] }))
    else s.onHub (·.onDesc n ix (fun d => d.finish st (t.key % 2 ^ 64)))
  | .diag cid q =>
    match s.hub.diagCmd cid q with
    | none => s
    | some c =>
      if st ≠ 0 then s.done c st 0
      else { s with mem := s.mem.cellsWr (qf c 0x10 8) (data.take (qf c 0x20 4)) }.done c 0 (qf c 0x20 4)
  | .ats n ix => s.onHub (·.atsDone t.fn n ix t.key st (leNat data))

/-- HOST_COMPLETION (R361, R363). -/
def execHostCompletion (fn : BitVec 6) (tag : BitVec 14) (status : BitVec 8) (data : List (BitVec 8)) (s : State) :
    Host.Outcome State Fault Refusal :=
  match s.hub.tags.find? (fun t => decide (t.tag = tag.toNat)) with
  | none => hubStep (·.aerPlain fn.toNat 16 tag.toNat) s
  | some t =>
    let s := s.onHub (fun h => { h with tags := h.tags.filter (fun x => !decide (x.tag = t.tag)) })
    let st := status.toNat
    let s := if st = 0x08 then s.onHub (·.poisonRx t.fn t.tag) else s
    let s := if t.epoch = tget 0 s.hub.epochs t.fn then s.answerTag t (if st = 0 ∨ st = 0x08 then st else 0x07) data else s
    .next (s.onHub (·.flushAts t.fn))

/-- COMPLETION_TIMEOUT (R362). -/
def execCompletionTimeout (tag : BitVec 14) (s : State) : Host.Outcome State Fault Refusal :=
  match s.hub.tags.find? (fun t => decide (t.tag = tag.toNat)) with
  | none => .next s
  | some t =>
    let s := s.onHub (fun h => { h with tags := h.tags.filter (fun x => !decide (x.tag = t.tag)) })
    if t.epoch ≠ tget 0 s.hub.epochs t.fn then .next (s.onHub (·.flushAts t.fn))
    else
      let s := s.onHub (fun h => (((h.event Reg.hstEventCto).count Reg.hstCtoCountCount 1).aerTlp t.fn 14).hostRec 0x0A03 t.fn t.tag true)
      .next ((s.answerTag t 0x06 []).onHub (·.flushAts t.fn))

-- Host controls (R343, R353, R364)

/-- What waited for a function's upstream requests goes out. -/
def Hub.upstreamOn (h : Hub) (fn : Nat) : Hub := overList (fun q h => h.flushQueue fn q) (List.range 64) (h.msixFlush fn)

/-- BUS_MASTER_ENABLE_CLEAR (R364). -/
def execBusMasterEnableClear (fn : BitVec 6) (s : State) : Host.Outcome State Fault Refusal := hubStep (·.set (Pci.bme fn.toNat) 0) s

/-- BUS_MASTER_ENABLE_SET (R364). -/
def execBusMasterEnableSet (fn : BitVec 6) (s : State) : Host.Outcome State Fault Refusal :=
  hubStep (fun h => (h.set (Pci.bme fn.toNat) 1).upstreamOn fn.toNat) s

/-- A field that Table 14 of 15 locks changes: the VF's interface enters ERROR (R457). -/
def Hub.lockedChange (h : Hub) (fn : Nat) : Hub := if fn = 0 then h else h.tdispError fn

/-- MSIX_UNMASK (R353). -/
def execMsixUnmask (fn : BitVec 6) (entry : BitVec 11) (s0 : State) : Host.Outcome State Fault Refusal :=
  let s := s0.wroteBy fn.toNat
  hubStep (fun h =>
    if h.vfMute fn.toNat ∨ msixSize fn.toNat ≤ entry.toNat ∨ !h.on (Reg.msixMask fn.toNat entry.toNat) then h
    else Hub.msixFlush1 fn.toNat entry.toNat ((h.lockedChange fn.toNat).set (Reg.msixMask fn.toNat entry.toNat) 0)) s

/-- POWER_STATE_CHANGE (R343): in D3hot no upstream request goes out; a return to D0 keeps all state. -/
def execPowerStateChange (fn : BitVec 6) (d3 : Bool) (s : State) : Host.Outcome State Fault Refusal :=
  hubStep (fun h => if d3 then h.set (Pci.d3 fn.toNat) 1 else (h.set (Pci.d3 fn.toNat) 0).upstreamOn fn.toNat) s

-- Function Level Resets (R366, R367) and SR-IOV (R54, R351)

/-- Steps 1 and 2 of Table 13 for a function. -/
def Hub.fnQuiesce (h : Hub) (fn : Nat) : Hub :=
  let h : Hub := { h with epochs := tset 0 h.epochs fn (tget 0 h.epochs fn + 1), halves := h.halves.filter (fun x => !decide (x.1 = fn)) }
  let h := (h.set (Pci.flr fn) 1).dropParked (cmdWaiter fn)
  let h := h.launchesStop (fun l => decide (l.cmd.fn = fn)) 0x07
  let h := overList (fun n h => if (h.stream n).fn = fn then h.streamClosed n else h) (h.drift.streams.map (·.1)) h
  let es := (List.range 128).filter (fun e => decide (h.get (Reg.siteEngCtrlVf e) = fn) && decide (h.engOwner e < 24))
  let h := overList (fun e h => h.clearEng e) es h
  h.onPart (32 + fn) (fun x => { x with waits := h.clearingOf es })

/-- The engines of a function that is being reset have cleared. -/
def Hub.fnClear (h : Hub) (fn : Nat) : Bool := (h.clearingOf (tget PartSt.rst h.parts (32 + fn)).waits).isEmpty

/-- Step 4 of Table 13: queues, MSI-X table and PBA at reset, and the function's own configuration bits (PRESUMED, log entry 2). -/
def Hub.fnReset (h : Hub) (fn : Nat) : Hub :=
  let h := h.queuesReset fn
  let h := h.resetRange (0x1300000 + 0x100000000 * fn) (0x1300000 + 16 * 2048 + 0x100000000 * fn)
  let h : Hub := { h with pba := h.pba.filter (fun k => !decide (k / 4096 = fn)), parts := terase h.parts (32 + fn),
                          drift := { h.drift with ats := h.drift.ats.filter (fun e => !decide (e.fn = fn)) } }
  h.sets [(Pci.flr fn, 0), (Pci.bme fn, 0), (Pci.msixEn fn, 0), (Pci.msixFmask fn, 0), (Pci.atsEn fn, 0), (Pci.priEn fn, 0), (Pci.d3 fn, 0)]

/-- A Function Level Reset of a VF begins; its TDISP interface is CONFIG_UNLOCKED (R457). -/
def Hub.vfFlr (h : Hub) (v : Nat) : Hub := (h.fnQuiesce v).tdispUnlock v

/-- The VF exists (R351). -/
def Hub.vfOn (h : Hub) (v : Nat) : Bool := h.on Pci.vfEnable && decide (1 ≤ v) && decide (v ≤ h.get Pci.numVfs)

/-- Initiate Function Level Reset of a VF that exists (R366). -/
def Hub.vfFlrStart (h : Hub) (v : Nat) : Hub := if h.vfOn v && !h.on (Pci.flr v) then h.vfFlr v else h

/-- VF_FLR (R366). -/
def execVfFlr (fn : BitVec 6) (s : State) : Host.Outcome State Fault Refusal := hubStep (·.vfFlrStart fn.toNat) s

/-- VF_FLR_COMPLETE (R366). -/
def execVfFlrComplete (fn : BitVec 6) (s : State) : Host.Outcome State Fault Refusal :=
  hubStep (fun h => if fn.toNat ≠ 0 ∧ h.on (Pci.flr fn.toNat) ∧ h.fnClear fn.toNat then h.fnReset fn.toNat else h) s

/-- VF Enable cleared (R54): a VF of a partition is quiesced as by Function Level Reset; one of none has nothing to quiesce. -/
def Hub.vfsOff (h : Hub) : Hub :=
  let l := (List.range 49).filter (fun v => h.vfOn v)
  let h := overList (fun v h => if h.vfOwner v < 24 then (if h.on (Pci.flr v) then h else h.vfFlr v) else h.fnReset v) l h
  (h.set Pci.vfEnable 0).set Reg.cfgModeSriov 0

/-- VF Enable written 0 (R54). -/
def Hub.vfEnable0 (h : Hub) : Hub := if h.on Pci.vfEnable then h.vfsOff else h

/-- VF_ENABLE_CLEAR (R54). -/
def execVfEnableClear (s : State) : Host.Outcome State Fault Refusal := hubStep (·.vfEnable0) s

/-- TotalVFs (R351). -/
def Hub.totalVfs (h : Hub) : Nat := if h.whiteout ∨ h.life = 0 ∨ h.life = 3 then 0 else 48

/-- VF Enable written 1 (R351): with TotalVFs 0 there is no VF to enable. -/
def Hub.vfEnable1 (h : Hub) : Hub := if h.totalVfs = 0 then h else (h.set Pci.vfEnable 1).set Reg.cfgModeSriov 1

/-- VF_ENABLE_SET (R351). -/
def execVfEnableSet (s : State) : Host.Outcome State Fault Refusal := hubStep (·.vfEnable1) s

/-- NumVFs written (R351). -/
def Hub.numVfsWrite (h : Hub) (v : Nat) : Hub := if h.on Pci.vfEnable ∨ h.totalVfs < v then h else h.set Pci.numVfs v

/-- NUMVFS_WRITE (R351). -/
def execNumvfsWrite (v : BitVec 16) (s : State) : Host.Outcome State Fault Refusal := hubStep (·.numVfsWrite v.toNat) s

/-- Initiate Function Level Reset of the PF (R367). -/
def Hub.pfFlr (h : Hub) : Hub := if h.on (Pci.flr 0) then h else (if h.on Pci.vfEnable then h.vfsOff else h).fnQuiesce 0

/-- PF_FLR (R367). -/
def execPfFlr (s : State) : Host.Outcome State Fault Refusal := hubStep (·.pfFlr) s

/-- PF_FLR_COMPLETE (R367): once its own engines and those of the quiesced VFs have cleared. -/
def execPfFlrComplete (s : State) : Host.Outcome State Fault Refusal :=
  hubStep (fun h =>
    if h.on (Pci.flr 0) ∧ (List.range 49).all (fun v => h.fnClear v) then
      (overList (fun v h => if h.on (Pci.flr v) then h.fnReset v else h) (List.range 49) h).resetRange 0x1210000 (0x1210000 + 8 * 16384)
    else h) s

end Sys2Proof.Machine
end

