-- ==== Sys2Proof/Machine/Security.lean ====
section
/-! DEFINITION. The security core (20): measurements and the SPDM responder (R449-R454), IDE_KM and TDISP (R455-R457), bundles and
domains (R461-R465), operator debug (R466, R467). Message codes are those of the published SPDM, IDE_KM and TDISP (PRESUMED, log
entry 33). -/

namespace Sys2Proof.Machine

-- Measurements (R452)

/-- Bytes of the boot flash. -/
def Hub.flashBytes (h : Hub) (a n : Nat) : List Byte := (List.range n).map (fun i => tget 0xFF h.flash (a + i))

/-- The DeviceID certificate does not match its digest (R450). -/
def Hub.certBad (h : Hub) : Bool := decide (Config.sha384 (h.flashBytes 0x10000 0x1000) ≠ h.perma.cert)

/-- A certificate chain is offered (R450). -/
def Hub.hasCerts (h : Hub) : Bool := decide (h.life ≠ 0) && !h.certBad

/-- The READY domains of a partition, lowest first. -/
def Hub.domsOf (h : Hub) (p : Nat) : List Nat :=
  (List.range 64).filter (fun d => decide (h.get (Reg.secDomainState d) = 2) && decide (h.get (Reg.secDomainPartition d) = p))

/-- What the layout digest of a partition covers: its maps, its engines' entries and its VFs. -/
def Hub.layoutOf (h : Hub) (p : Nat) : List Nat :=
  h.maps p ++ (h.enginesOf p).map (fun e => e + 256 * h.get (Reg.siteEngCtrlVf e)) ++ h.vfsOf p

/-- Measurement block 0x10 + p. -/
def Hub.partBlock (h : Hub) (p : Nat) : Nat :=
  let d := h.domsOf p
  let doms := Config.sha384 (d.flatMap (fun k => leBytes 16 (h.get (Reg.secDomainBundleId k)) ++ leBytes 48 (tget 0 h.sec.domH k)))
  h.partState p + 2 ^ 8 * bits (h.get Reg.secObservedMap) p 1 + 2 ^ 16 * (h.get (Reg.prtStatusKeyGen p) % 2 ^ 16) + 2 ^ 32 * d.length
    + 2 ^ 128 * (Config.layoutDigest (h.layoutOf p) % 2 ^ 384) + 2 ^ 512 * (doms % 2 ^ 384)

/-- Measurement block 9: the identity and the state of the hub. -/
def Hub.stateBlock (h : Hub) : Nat :=
  let flags := b2n (!h.boot.staged.isEmpty) + 2 * h.get Reg.glbBootStatusPartnerHeld + 4 * b2n (decide (h.life ≠ 0) && h.certBad)
  h.perma.rev % 256 + 2 ^ 8 * h.get Reg.glbRevFeatureLevel + 2 ^ 16 * h.life + 2 ^ 24 * h.get Reg.cfgModeWhiteout
    + 2 ^ 32 * h.get Reg.cfgModeWhiteoutCause + 2 ^ 40 * flags + 2 ^ 48 * h.get Reg.glbHostIfVersion
    + 2 ^ 64 * h.get Reg.glbPartnerUnitIdUnitId

/-- A measurement block of Table 3; none: no such index. -/
def Hub.measBlock (h : Hub) (i : Nat) : Option Nat :=
  if i = 1 then some Config.romDigest
  else if 2 ≤ i ∧ i ≤ 7 then some (bits (tget 0 h.boot.images (i - 1)) 256 384)
  else if i = 8 then some (Config.sha384 (leBytes (bits h.boot.pdRaw 48 16) h.boot.pdRaw))
  else if i = 9 then some h.stateBlock
  else if i = 10 then some (if h.boot.staged.isEmpty then 0 else Config.sha384 ((List.range 6).flatMap (fun t => leBytes 256 (tget 0 h.boot.staged (t + 1)))))
  else if 0x10 ≤ i ∧ i < 0x28 then some (h.partBlock (i - 0x10))
  else if 0x30 ≤ i ∧ i < 0x40 then
    let x := tget Site.rst h.sites (i - 0x30)
    some (x.chain.toNat + 2 ^ 384 * x.meas.toNat)
  else none

/-- The indices of Table 3. -/
def measIndices : List Nat := (List.range 10).map (· + 1) ++ (List.range 24).map (· + 0x10) ++ (List.range 16).map (· + 0x30)

-- SPDM (R451, R453)

/-- An SPDM ERROR. -/
def Hub.spdmError (h : Hub) (code data : Nat) : Hub := h.send (.spdm 0x7F code data)

/-- The responder answers on a transport (Table 4): MCTP from boot step 6, DOE from step 9; never in End of Life. -/
def Hub.spdmUp (h : Hub) (transport : Nat) : Bool :=
  h.on Reg.secStatusReady && decide (h.life ≠ 3) && (decide (transport ≠ 0) || decide (h.boot.step = 10))

/-- SESSIONS shows the open sessions. -/
def Hub.setSessions (h : Hub) (l : List Nat) : Hub :=
  ({ h with sec := { h.sec with sessions := l } }).set Reg.secStatusSessions l.length

/-- GET_MEASUREMENTS: operation 0 the number of blocks, 0xFF all of them, else one; signed only by slot 0 (Table 2). -/
def Hub.measure (h : Hub) (r : SpdmReq) : Hub :=
  if bitAt r.p1.toNat 0 ∧ r.slot.toNat ≠ 0 then h.spdmError 0x07 0xE0
  else if r.p2 = 0 then h.send (.spdm 0x60 0 measIndices.length)
  else if r.p2 = 0xFF then measIndices.foldl (fun h i => h.send (.spdm 0x60 i ((h.measBlock i).getD 0))) h
  else match h.measBlock r.p2.toNat with
    | some v => h.send (.spdm 0x60 r.p2.toNat v)
    | none => h.spdmError 0x01 0

/-- A session is asked for: the lowest free identifier of 15, at most 8 at once (Table 2). -/
def Hub.sessionOpen (h : Hub) (ok : Bool) : Hub :=
  if !ok then h.spdmError 0x01 0
  else if 8 ≤ h.sec.sessions.length then h.spdmError 0x0A 0
  else
    let id := (findFrom 15 1 (fun i => !h.sec.sessions.contains i)).getD 1
    (h.setSessions (h.sec.sessions ++ [id])).send (.spdm 0x64 id 0)

/-- A request that only makes sense in a session. -/
def Hub.inSession (h : Hub) (r : SpdmReq) (f : Hub → Hub) : Hub := if r.session = 0 then h.spdmError 0x0B 0 else f h

/-- An SPDM request while the responder answers. -/
def Hub.spdmAnswer (h : Hub) (r : SpdmReq) : Hub :=
  let c := r.code.toNat
  if r.session ≠ 0 ∧ !h.sec.sessions.contains r.session.toNat then h.spdmError 0x02 0
  else if c = 0x84 then h.send (.spdm 0x04 0 0x13)
  else if c = 0xE1 then h.send (.spdm 0x61 0 0x262F6)
  else if c = 0xE3 then (if r.ok then h.send (.spdm 0x63 0 0) else h.spdmError 0x01 0)
  else if c = 0x81 then h.send (.spdm 0x01 (if h.hasCerts then 3 else 0) 0)
  else if c = 0x82 then (if h.hasCerts ∧ r.p1.toNat < 2 then h.send (.spdm 0x02 r.p1.toNat 0) else h.spdmError 0x01 0)
  else if c = 0x83 then
    (if r.p1.toNat = 1 then h.spdmError 0x07 0x83
     else if h.hasCerts ∧ r.p1 = 0 ∧ r.ok then h.send (.spdm 0x03 0 h.sec.aliasKeys) else h.spdmError 0x01 0)
  else if c = 0xE0 then (if r.ok then h.measure r else h.spdmError 0x01 0)
  else if c = 0xE4 then h.sessionOpen (r.ok && h.hasCerts)
  else if c = 0xE5 then
    h.inSession r (fun h => if r.ok then h.send (.spdm 0x65 r.session.toNat 0)
      else (h.setSessions (h.sec.sessions.erase r.session.toNat)).spdmError 0x06 0)
  else if c = 0xE8 then h.inSession r (·.send (.spdm 0x68 r.session.toNat 0))
  else if c = 0xE9 then h.inSession r (fun h => if r.ok then h.send (.spdm 0x69 r.session.toNat 0) else h.spdmError 0x01 0)
  else if c = 0xEC then
    h.inSession r (fun h => (h.setSessions (h.sec.sessions.erase r.session.toNat)).send (.spdm 0x6C r.session.toNat 0))
  else if c = 0x85 ∨ c = 0x86 then (if r.ok then h.send (.spdm (c - 0x80) 0 0) else h.spdmError 0x01 0)
  else if c = 0xFE then h.inSession r (·.spdmError 0x07 0xFE)
  else h.spdmError 0x07 c

/-- SPDM_REQUEST (R451, R453): while an activation runs every request is answered ResponseNotReady, RDTExponent 15 and RDTM 12. -/
def execSpdmRequest (r : SpdmReq) (s : State) : Host.Outcome State Fault Refusal :=
  hubStep (fun h =>
    if h.boot.activating then h.spdmError 0x42 (15 + 2 ^ 16 * 12)
    else if h.spdmUp r.transport.toNat then h.spdmAnswer r else h) s

-- IDE_KM (R369, R454, R455)

/-- A vendor-defined message is taken: the responder answers and the message stands in an open session. -/
def Hub.vendorUp (h : Hub) (session : Nat) (f : Hub → Hub) : Hub :=
  if h.boot.activating then h.spdmError 0x42 (15 + 2 ^ 16 * 12)
  else if !h.on Reg.secStatusReady || decide (h.life = 3) then h
  else if h.sec.sessions.contains session then f h
  else h.spdmError (if session = 0 then 0x0B else 0x02) 0

/-- The session is the stream's own (R455): the one its keys came through, or a session of no other stream once that one has ended. -/
def Hub.ownSession (h : Hub) (stream session : Nat) : Bool :=
  let cur := tget 0 h.sec.ideSess stream
  decide (cur = session)
    || (!h.sec.sessions.contains cur && !h.sec.ideSess.any (fun x => decide (x.1 ≠ stream) && decide (x.2 = session)))

/-- Some key set of a stream runs. -/
def Hub.streamGo (h : Hub) (stream : Nat) : Bool := h.sec.ideGo.any (fun k => decide (k / 2 = stream))

/-- What refuses an IDE_KM message of a stream: a status of R455, none where it is taken. -/
def Hub.ideCheck (h : Hub) (r : IdeReq) : Option Nat :=
  if 8 < r.stream.toNat ∨ r.sub.toNat = 3 then some (Config.ideRefused 1)
  else if !h.ownSession r.stream.toNat r.session.toNat then some (Config.ideRefused 2)
  else none

/-- An IDE_KM message handled: refused with its status, or taken and acknowledged. -/
def Hub.ideMsg (h : Hub) (r : IdeReq) (ack : Nat) (f : Hub → Hub) : Hub :=
  h.vendorUp r.session.toNat (fun h =>
    match h.ideCheck r with
    | some st => h.send (.spdm ack r.stream.toNat st)
    | none =>
      let h := { h with sec := { h.sec with ideSess := tset 0 h.sec.ideSess r.stream.toNat r.session.toNat } }
      f h)

/-- QUERY (R455): the stream and whether it runs. -/
def execQuery (r : IdeReq) (s : State) : Host.Outcome State Fault Refusal :=
  hubStep (fun h => h.ideMsg r 0x1001 (fun h => h.send (.spdm 0x1001 r.stream.toNat (2 ^ 8 * b2n (h.streamGo r.stream.toNat))))) s

/-- KEY_PROG (R455): refused for a stream that runs. -/
def execKeyProg (r : IdeReq) (s : State) : Host.Outcome State Fault Refusal :=
  hubStep (fun h => h.ideMsg r 0x1003 (fun h =>
    let t := r.stream.toNat
    if h.streamGo t then h.send (.spdm 0x1003 t (Config.ideRefused 0))
    else
      let k := t * 16 + b2n r.keySet * 8 + b2n r.rxTx * 4 + r.sub.toNat
      ({ h with sec := { h.sec with ideKeys := tput h.sec.ideKeys k r.key.toNat } }).send (.spdm 0x1003 t 0))) s

/-- K_SET_GO (R455): the stream runs on the key set. -/
def execKSetGo (r : IdeReq) (s : State) : Host.Outcome State Fault Refusal :=
  hubStep (fun h => h.ideMsg r 0x1006 (fun h =>
    let t := r.stream.toNat
    let go := kadd (h.sec.ideGo.filter (fun k => !decide (k / 2 = t))) (2 * t + b2n r.keySet)
    ({ h with sec := { h.sec with ideGo := go } }).send (.spdm 0x1006 t 0))) s

/-- A selective stream stops: the interfaces it is bound to enter ERROR (R457). -/
def Hub.streamStopped (h : Hub) (t : Nat) : Hub :=
  overList (fun v h => if h.on (Reg.secTdispBound v) && decide (h.get (Reg.secTdispStream v) = t) then h.tdispError v else h)
    ((List.range 48).map (· + 1)) h

/-- K_SET_STOP (R455, R457). -/
def execKSetStop (r : IdeReq) (s : State) : Host.Outcome State Fault Refusal :=
  hubStep (fun h => h.ideMsg r 0x1006 (fun h =>
    let t := r.stream.toNat
    let k := 2 * t + b2n r.keySet
    let was := kmem h.sec.ideGo k
    let h := { h with sec := { h.sec with ideGo := kdel h.sec.ideGo k } }
    let h := h.send (.spdm 0x1006 t 0)
    if was && decide (t < 8) && !h.streamGo t then h.streamStopped t else h)) s

-- TDISP (R456)

/-- A TDISP message: in a session, for a VF of a partition. -/
def Hub.tdispMsg (h : Hub) (r : TdispReq) (f : Nat → Hub → Hub) : Hub :=
  h.vendorUp r.session.toNat (fun h =>
    let v := r.vf.toNat
    if !h.vfOn v || decide (h.vfOwner v = 31) then h.send (.spdm 0x207F 0x0101 v) else f v h)

/-- The TDISP error for an interface in a state that does not take the message. -/
def Hub.tdispState (h : Hub) (v : Nat) : Hub := h.send (.spdm 0x207F 0x0004 v)

/-- LOCK_INTERFACE (R456). -/
def execLockInterface (r : TdispReq) (s : State) : Host.Outcome State Fault Refusal :=
  hubStep (fun h => h.tdispMsg r (fun v h =>
    let p := h.vfOwner v
    if h.get (Reg.secTdispState v) = 0 ∧ (h.partState p = 1 ∨ h.partState p = 2) ∧ !bitAt (h.get Reg.secObservedMap) p then
      (if 8 ≤ r.stream.toNat then h.send (.spdm 0x207F 0x0001 v)
       else (h.sets [(Reg.secTdispState v, 1), (Reg.secTdispBound v, 1), (Reg.secTdispStream v, r.stream.toNat)]).send (.spdm 0x2003 v 0))
    else h.tdispState v)) s

/-- The BAR0 range of a VF: its bus address as the PF's VF BAR0 places it (R344). -/
def Hub.vfBar0 (h : Hub) (v : Nat) : Nat := h.get (Pci.bar0 v)

/-- GET_DEVICE_INTERFACE_REPORT (R456): VF number, BAR0 range, partition and measurement block 0x10 + p. -/
def execGetDeviceInterfaceReport (r : TdispReq) (s : State) : Host.Outcome State Fault Refusal :=
  hubStep (fun h => h.tdispMsg r (fun v h =>
    let st := h.get (Reg.secTdispState v)
    if st = 1 ∨ st = 2 then
      h.send (.spdm 0x2004 (v + 2 ^ 8 * h.vfOwner v + 2 ^ 16 * h.vfBar0 v) (h.partBlock (h.vfOwner v)))
    else h.tdispState v)) s

/-- START_INTERFACE (R456). -/
def execStartInterface (r : TdispReq) (s : State) : Host.Outcome State Fault Refusal :=
  hubStep (fun h => h.tdispMsg r (fun v h =>
    if h.get (Reg.secTdispState v) = 1 then (h.set (Reg.secTdispState v) 2).send (.spdm 0x2006 v 0) else h.tdispState v)) s

/-- STOP_INTERFACE (R456): the VF's queues stop as in ERROR. -/
def execStopInterface (r : TdispReq) (s : State) : Host.Outcome State Fault Refusal :=
  hubStep (fun h => h.tdispMsg r (fun v h => ((h.stopQueues v).tdispUnlock v).send (.spdm 0x2007 v 0))) s

/-- GET_DEVICE_INTERFACE_STATE (R456). -/
def execGetDeviceInterfaceState (r : TdispReq) (s : State) : Host.Outcome State Fault Refusal :=
  hubStep (fun h => h.tdispMsg r (fun v h => h.send (.spdm 0x2005 v (h.get (Reg.secTdispState v))))) s

-- Bundles (R461-R463)

/-- A field of a bundle header. -/
def bunF (b : List Byte) (off size : Nat) : Nat := leNat ((b.drop off).take size)

/-- Bytes of a bundle header as they stand. -/
def bunB (b : List Byte) (off size : Nat) : List Byte := (b.drop off).take size

/-- The header is in range (Table 7). -/
def bundleOk (b : List Byte) : Bool :=
  decide (bunF b 0 4 = 0x42574845) && decide (bunF b 4 2 = 1) && decide (bunF b 6 2 = 0) && decide (bunF b 0x90 112 = 0)
    && decide (1 ≤ bunF b 0x18 4) && decide (bunF b 0x18 4 ≤ 65536)
    && decide (bunF b 0x1C 4 = (0x100 + 48 * bunF b 0x18 4 + 4095) / 4096 * 4096)
    && decide (bunF b 0x20 8 % 65536 = 0) && decide (65536 ≤ bunF b 0x20 8) && decide (bunF b 0x20 8 ≤ 34359738368)

/-- DEST to DEST + PAYLOAD_LEN lies in one half-stack of the partition (R463). -/
def Hub.destOk (h : Hub) (p a n : Nat) : Bool :=
  let ok (x : Nat) : Bool := h.region x == .stack && h.stackKind x == .usable
  decide (a % 65536 = 0) && ok a && ok (a + n - 1) && decide (halfOf a = halfOf (a + n - 1)) && decide (p < 24)
    && decide (h.halfOwner (halfOf a) = p)

/-- The range overlaps a domain, or the region of a promotable tag (Table 10). -/
def State.destTaken (s : State) (p a n : Nat) : Bool :=
  (List.range 64).any (fun d =>
      s.hub.on (Reg.secDomainState d) && decide (s.hub.get (Reg.secDomainBase d) < a + n)
        && decide (a < s.hub.get (Reg.secDomainBase d) + 65536 * s.hub.get (Reg.secDomainGranules d)))
    || (List.range 256).any (fun t => s.hub.promotable p t && s.tagMeets p t (fun x => decide (a ≤ x) && decide (x < a + n)))

/-- Bytes that a command reads: none, it waits; the status that ends it, or the bytes. -/
inductive CmdGot where
  | wait (s : State)
  | bad (st : Nat) (s : State)
  | ok (b : List Byte) (s : State)

/-- A read of a command's data. -/
def State.cmdBytes (s : State) (c : QCmd) (a n : Nat) : CmdGot :=
  match s.cmdRead c a n with
  | (none, s) => .wait s
  | (some r, s) => if r.st ≠ 0 then .bad r.st s else if r.bad ≠ 0 then .bad 0x08 s else .ok (leBytes n r.v) s

/-- The unit's entry found by binary search (R463): `.ok []` where it is not there. -/
def State.findUnit (f : Nat) (s : State) (c : QCmd) (base lo hi : Nat) : CmdGot :=
  match f with
  | 0 => .ok [] s
  | f + 1 =>
    if hi ≤ lo then .ok [] s
    else
      let m := (lo + hi) / 2
      match s.cmdBytes c (base + 0x100 + 48 * m) 48 with
      | .ok b s =>
        if bunF b 0 8 = s.hub.perma.unit then .ok b s
        else if bunF b 0 8 < s.hub.perma.unit then State.findUnit f s c base (m + 1) hi
        else State.findUnit f s c base lo m
      | r => r

/-- A bundle install that has not taken a domain. -/
def Install.isWaiting (i : Install) : Bool := decide (64 ≤ i.dom)

/-- The install of a command leaves. -/
def Hub.installOut (h : Hub) (c : QCmd) : Hub :=
  { h with sec := { h.sec with installs := h.sec.installs.filter (fun i => !decide (i.cmd = c)) } }

/-- An install ends: its completion, and for a failure record 0x0C01. -/
def Hub.installEnd (h : Hub) (c : QCmd) (p st result : Nat) : Hub :=
  let h := (h.installOut c).complete c st result
  if st = 0 then h else h.record { code := 0x0C01, cls := 0, part := p, inst := result % 64, d0 := st }

/-- A domain taken (R463): INSTALLING, its granules, its bundle. -/
def Hub.takeDomain (h : Hub) (d p : Nat) (c : QCmd) (b ck : List Byte) : Hub :=
  let dig := Config.sha384 b
  let h := h.sets [(Reg.secDomainState d, 1), (Reg.secDomainPartition d, p), (Reg.secDomainDone d, 0), (Reg.secDomainBase d, qf c 0x18 8),
    (Reg.secDomainGranules d, bunF b 0x20 8 / 65536), (Reg.secDomainBundleId d, bunF b 8 16), (Reg.secStatusDomains, h.get Reg.secStatusDomains + 1)]
  { h with sec := { h.sec with
      domH := tset 0 h.sec.domH d dig
      installs := h.sec.installs.map (fun i => if i.cmd = c then ⟨d, c, p, b, ck, dig⟩ else i) } }

/-- The checks of R463 from the recipient table on. -/
def State.installKey (s : State) (c : QCmd) (p : Nat) (b : List Byte) : State :=
  match findLow 64 (fun d => !s.hub.on (Reg.secDomainState d)) with
  | none => s.onHub (·.installEnd c p 0x03 0)
  | some d =>
    match State.findUnit 18 s c (qf c 0x10 8) 0 (bunF b 0x18 4) with
    | .wait s => s
    | .bad st s => s.onHub (·.installEnd c p st 0)
    | .ok [] s => s.onHub (·.installEnd c p 0x50 0)
    | .ok (x :: e) s =>
      match Config.unwrapKey s.hub.perma.sealing s.hub.perma.unit (Config.sha384 b) (bunB b 0x30 96) ((x :: e).drop 8) with
      | none => s.onHub (·.installEnd c p 0x51 (0xFFFFFFFF * 2 ^ 32))
      | some ck => s.onHub (·.takeDomain d p c b ck)

/-- The oldest install of a partition begins (R463): header, range, conflicts, then the key. Where a read waits, the install does. -/
def State.installGo (s : State) (p : Nat) : State :=
  match s.hub.sec.installs.find? (fun i => decide (i.part = p)) with
  | none => s
  | some i =>
    if !i.isWaiting then s
    else
      let c := i.cmd
      match s.cmdBytes c (qf c 0x10 8) 256 with
      | .wait s => s
      | .bad st s => s.onHub (·.installEnd c p st 0)
      | .ok b s =>
        if !bundleOk b || !s.hub.destOk p (qf c 0x18 8) (bunF b 0x20 8) then s.onHub (·.installEnd c p 0x02 0)
        else if s.destTaken p (qf c 0x18 8) (bunF b 0x20 8) then s.onHub (·.installEnd c p 0x52 0)
        else s.installKey c p b

/-- The installs of a partition that wait begin, until one waits for a read or has taken a domain. -/
def State.installNext (f : Nat) (s : State) (p : Nat) : State :=
  match f with
  | 0 => s
  | f + 1 =>
    let n := s.hub.sec.installs.length
    let s := s.installGo p
    if s.hub.sec.installs.length < n then State.installNext f s p else s

/-- Installs of a partition begin as far as they can. -/
def State.installRun (s : State) (p : Nat) : State := State.installNext (s.hub.sec.installs.length + 1) s p

/-- What refuses a BUNDLE_INSTALL before its bundle is read; 0 nothing. -/
def Hub.installCheck (h : Hub) (c : QCmd) : Nat :=
  if h.cmdCheck c true ≠ 0 then h.cmdCheck c true
  else if !qz c 0x20 0x40 ∨ qf c 0x18 8 % 65536 ≠ 0 then 0x02
  else if !h.partExists (h.cmdPart c) then 0x0D
  else 0

/-- BUNDLE_INSTALL (R463): installs of one partition run one at a time, in submission order. -/
def execBundleInstall (cmd : QCmd) (s : State) : Host.Outcome State Fault Refusal :=
  let st := s.hub.installCheck cmd
  let p := s.hub.cmdPart cmd
  if st ≠ 0 then .next (s.onHub (·.installEnd cmd p st 0))
  else if s.hub.sec.installs.any (fun i => decide (i.cmd = cmd)) then .next (s.installRun p)
  else
    let s := s.onHub (fun h => { h with sec := { h.sec with installs := h.sec.installs ++ [⟨64, cmd, p, [], [], 0⟩] } })
    .next (s.installRun p)

/-- The granules of a range are unfilled under the partition key (R330, R463, R465): they read as zero, and no line of them is held. -/
def State.unfillRange (s : State) (a n : Nat) : State :=
  let inside (x : Nat) : Bool := decide (a ≤ x) && decide (x < a + n)
  let m := (s.mem.dropReqs (fun _ l => inside (128 * l))).dropLines (fun l _ => inside (128 * l))
  let m := m.zero a n
  let k := halfOf a
  let f := tget HalfFill.rst m.fill k
  let g := granOf a
  let f : HalfFill := { f with filled := f.filled.filter (fun x => !(decide (g ≤ x) && decide (x < g + n / 65536))) }
  { s with mem := { m with fill := tset HalfFill.rst m.fill k f } }

/-- A domain removed with its granules. -/
def State.domDrop (s : State) (d : Nat) : State :=
  let a := s.hub.get (Reg.secDomainBase d)
  let n := 65536 * s.hub.get (Reg.secDomainGranules d)
  (s.unfillRange a n).onHub (·.domFree d)

/-- One chunk verified and written (R463): done, waiting for its read, or failed with a status. -/
inductive Chunk where
  | done (s : State)
  | wait (s : State)
  | fail (st : Nat) (s : State)

/-- Chunk `i` of an install. -/
def State.chunk (s : State) (x : Install) (i : Nat) : Chunk :=
  let a := qf x.cmd 0x10 8
  let off := bunF x.hdr 0x1C 4
  let len := bunF x.hdr 0x20 8
  match s.cmdBytes x.cmd (a + off + 65536 * i) 65536 with
  | .wait s => .wait s
  | .bad st s => .fail st s
  | .ok ct s =>
    match s.cmdBytes x.cmd (a + off + len + 16 * i) 16 with
    | .wait s => .wait s
    | .bad st s => .fail st s
    | .ok tag s =>
      match Config.gcmOpen x.ck (bunB x.hdr 0x28 8) i x.digest ct tag with
      | none => .fail 0x51 s
      | some pt =>
        let w := s.hubWrite .hub (s.hub.get (Reg.secDomainBase x.dom) + 65536 * i) 65536 (leNat pt) 0 false
        .done (w.s.onHub (·.set (Reg.secDomainDone x.dom) (i + 1)))

/-- The chunks of an install from DONE on. -/
def State.chunks (f : Nat) (s : State) (x : Install) : Chunk :=
  match f with
  | 0 => .done s
  | f + 1 =>
    match s.chunk x (s.hub.get (Reg.secDomainDone x.dom)) with
    | .done s => State.chunks f s x
    | r => r

/-- The chunks of the install of a domain, and its end (R463). -/
def State.installDo (s : State) (d : Nat) : State :=
  match s.hub.sec.installs.find? (fun i => decide (i.dom = d)) with
  | none => s
  | some x =>
    match State.chunks (s.hub.get (Reg.secDomainGranules d) - s.hub.get (Reg.secDomainDone d)) s x with
    | .wait s => s
    | .fail st s =>
      let i := s.hub.get (Reg.secDomainDone d)
      let s := (s.domDrop d).onHub (·.installEnd x.cmd x.part st (if st = 0x51 then d + 2 ^ 32 * i else d))
      s.installRun x.part
    | .done s =>
      let s := s.onHub (fun h => ((h.set (Reg.secDomainState d) 2).event Reg.secEventDomain).installEnd x.cmd x.part 0 d)
      s.installRun x.part

/-- BUNDLE_INSTALL_COMPLETE (R463). -/
def execBundleInstallComplete (dom : BitVec 6) (s : State) : Host.Outcome State Fault Refusal :=
  if s.hub.get (Reg.secDomainState dom.toNat) = 1 then .next (s.installDo dom.toNat) else .next s

/-- A BUNDLE_INSTALL whose read was parked runs again (R273). -/
def State.installAgain (s : State) (c : QCmd) : State :=
  match s.hub.sec.installs.find? (fun i => decide (i.cmd = c)) with
  | none => s
  | some i => if i.isWaiting then s.installRun i.part else s.installDo i.dom

/-- A BUNDLE_INSTALL whose read was refused (R273) ends. -/
def State.installRefused (s : State) (c : QCmd) (st : Nat) : State :=
  match s.hub.sec.installs.find? (fun i => decide (i.cmd = c)) with
  | none => s
  | some i =>
    let s := if i.isWaiting then s else s.domDrop i.dom
    (s.onHub (·.installEnd c i.part st 0)).installRun i.part

/-- What refuses a DOMAIN_REMOVE; 0 nothing (R465). -/
def Hub.removeCheck (h : Hub) (c : QCmd) : Nat :=
  let d := qf c 0x10 1
  if h.cmdCheck c true ≠ 0 then h.cmdCheck c true
  else if !qz c 0x11 0x40 ∨ 64 ≤ d ∨ h.get (Reg.secDomainState d) = 0 then 0x02
  else if h.get (Reg.secDomainPartition d) ≠ h.cmdPart c then 0x04
  else if h.get (Reg.secDomainState d) = 1 then 0x0D
  else 0

/-- DOMAIN_REMOVE (R465). -/
def execDomainRemove (cmd : QCmd) (s : State) : Host.Outcome State Fault Refusal :=
  let st := s.hub.removeCheck cmd
  if st ≠ 0 then .next (s.done cmd st 0) else .next ((s.domDrop (qf cmd 0x10 1)).done cmd 0 0)

-- Operator debug (R466, R467)

/-- What refuses a debug command whose fields from `a` on are reserved; 0 nothing. -/
def Hub.debugCheck (h : Hub) (c : QCmd) (a : Nat) : Nat :=
  if c.fn ≠ 0 then 0x04
  else if h.cmdCheck c true ≠ 0 then h.cmdCheck c true
  else if !qz c a 0x40 then 0x02
  else if !h.partExists (qf c 4 1) then 0x0D
  else 0

/-- DEBUG_ENGAGE (R466). -/
def execDebugEngage (cmd : QCmd) (s : State) : Host.Outcome State Fault Refusal :=
  hubStep (fun h =>
    let st := h.debugCheck cmd 0x10
    let p := qf cmd 4 1
    if st ≠ 0 then h.complete cmd st 0
    else
      let h := overList (fun v h => h.tdispError v) (h.vfsOf p) h
      let h := h.sets [(Reg.secObservedMap, setBit (h.get Reg.secObservedMap) p true), (Reg.secDebugMap, setBit (h.get Reg.secDebugMap) p true)]
      ((h.event Reg.secEventObserved).record { code := 0x0C04, cls := 0, part := p }).complete cmd 0 0) s

/-- A 32-byte unit that debug may read (R467): stack memory, scratchpad or floe memory of the partition, and no domain. -/
def Hub.debugMay (h : Hub) (p a : Nat) : Bool :=
  match h.region a with
  | .stack => decide (h.halfOwner (halfOf a) = p) && decide (stackOf a < 24) && (h.domainAt a).isNone
  | .scratch sl _ => decide (h.sliceOwner sl = p)
  | .floeMem f _ => decide (h.floeOwner f = p)
  | _ => false

/-- What refuses a DEBUG_READ; 0 nothing. -/
def Hub.debugReadCheck (h : Hub) (c : QCmd) : Nat :=
  let a := qf c 0x10 8
  let n := qf c 0x20 4
  if h.debugCheck c 0x24 ≠ 0 then h.debugCheck c 0x24
  else if a % 32 ≠ 0 ∨ n % 32 ≠ 0 ∨ 2 ^ 20 < n then 0x02
  else if !bitAt (h.get Reg.secDebugMap) (qf c 4 1) then 0x0D
  else if !(List.range (n / 32)).all (fun i => h.debugMay (qf c 4 1) (a + 32 * i)) then 0x04
  else 0

/-- DEBUG_READ (R467); while the PF may not write upstream it waits (R364). -/
def execDebugRead (cmd : QCmd) (s : State) : Host.Outcome State Fault Refusal :=
  let st := s.hub.debugReadCheck cmd
  let n := qf cmd 0x20 4
  if st ≠ 0 then .next (s.done cmd st 0)
  else if s.hub.quiet 0 then .next s
  else
    let r := s.hubRead .hub (qf cmd 0x10 8) n false
    if r.st ≠ 0 then .next (r.s.done cmd r.st 0)
    else
      let m : Sent := if r.bad = 0 then .hostWrite 0 (qf cmd 0x18 8) n r.v else .hostPoison 0 (qf cmd 0x18 8) n r.v
      .next ((r.s.onHub (·.send m)).done cmd 0 n)

/-- DEBUG_RELEASE (R467). -/
def execDebugRelease (cmd : QCmd) (s : State) : Host.Outcome State Fault Refusal :=
  hubStep (fun h =>
    let st := h.debugCheck cmd 0x10
    if st ≠ 0 then h.complete cmd st 0
    else (h.set Reg.secDebugMap (setBit (h.get Reg.secDebugMap) (qf cmd 4 1) false)).complete cmd 0 0) s

end Sys2Proof.Machine
end

