-- ==== Sys2Proof/Machine/FieldWrite.lean ====
section
/-! DEFINITION. Register words and forecast sets: which register stands at an offset, the parts of fields that a word carries (R4-R6, R8),
the write of a register that holds RWF fields in its two parts (R502), and the loading of a forecast set (R43). -/

namespace Sys2Proof.Machine

/-- A register at an offset: its own offset, its width, its first bit within its entry, the indices of the entry and its fields. -/
structure RegAt where
  off : Nat
  width : Nat
  lo : Nat
  ix : List Nat
  flds : List RField

/-- A part of a field that stands in one register: bit `src` of the word, bit `dst` of the field, `len` bits. -/
structure Piece where
  f : RField
  src : Nat
  dst : Nat
  len : Nat

/-- The unit that a counter register shows (the PERF_SEL registers). -/
def Hub.perfSel (h : Hub) (off : Nat) : Nat :=
  let b := off / 0x100000
  if b = 2 then h.get Reg.flcPerfSelFloe else if b = 4 then h.get Reg.frnPerfSelSlice else if b = 6 then h.get Reg.drfPerfSelPort
  else if b = 7 then h.get Reg.xltPerfSelDie else 0

/-- Bits of PRT_SLICES and PRT_FLOES that name no slice or floe are reserved (14): those of the second die, in a package of one. -/
def Hub.unitBits (h : Hub) (o : Nat) (f : RField) : RField :=
  if 0xA01000 ≤ o ∧ o < 0xA02800 ∧ h.dies = 1 then
    (let x := o % 0x100
     if x = 0x40 then { f with fld := { f.fld with len := 32 } }
     else if x = 0x48 ∨ (0x70 ≤ x ∧ x < 0x90) then { f with fld := { f.fld with len := 0 } }
     else f)
  else f

/-- The register that holds BAR0 offset `off` of a function's view. -/
def Hub.regAt (h : Hub) (fn off : Nat) : Option RegAt :=
  match findReg off regMap with
  | none => none
  | some (r, ix, q) =>
    let k := 8 * q / r.width
    some ⟨off - q + k * (r.width / 8), r.width, k * r.width, ix, (r.fields fn (h.perfSel off) ix).map (h.unitBits (off - q))⟩

/-- The parts of fields in a register. -/
def RegAt.pieces (r : RegAt) : List Piece :=
  (r.flds.filter (fun f => decide (f.fld.lo < r.lo + r.width) && decide (r.lo < f.fld.lo + f.fld.len))).map (fun f =>
    let a := max f.fld.lo r.lo
    let b := min (f.fld.lo + f.fld.len) (r.lo + r.width)
    ⟨f, a - r.lo, a - f.fld.lo, b - a⟩)

/-- The bits of a word that a part takes. -/
def Piece.of (p : Piece) (w : Nat) : Nat := bits w p.src p.len

/-- A field with a part replaced. -/
def Piece.into (p : Piece) (old w : Nat) : Nat := putBits old p.dst p.len (p.of w)

/-- The part holds no reserved encoding (R6). -/
def Piece.ok (p : Piece) (w : Nat) : Bool := p.f.legal w (p.of w)

/-- What the lower half of a 64-bit write carries when none was held (R5): RW fields as they are, RWF fields as the view shows them. -/
def Hub.lowNow (h : Hub) (r : RegAt) : Nat :=
  (r.pieces.map (fun p =>
    let v := bits (h.get p.f.fld) p.dst p.len * 2 ^ p.src
    match p.f.ty with
    | .rw => v
    | .rwf => bits (h.view p.f.fld) p.dst p.len * 2 ^ p.src
    | _ => 0)).sum % 2 ^ 32

/-- The RWF fields of a register word, with the values it gives them (R6, R502). -/
def Hub.rwfOf (h : Hub) (r : RegAt) (w : Nat) : List (Fld × Nat) :=
  (r.pieces.filter (fun p => decide (p.f.ty = .rwf) && p.ok w)).map (fun p => (p.f.fld, p.into (h.view p.f.fld) w))

/-- The register holds at least one RWF field. -/
def RegAt.hasRwf (r : RegAt) : Bool := r.pieces.any (fun p => decide (p.f.ty = .rwf))

/-- A halt cleared from a register write (R181): the window restarts. -/
def Hub.haltClear (h : Hub) (p t : Nat) : Hub :=
  if p < 24 ∧ h.on (Reg.dewTagHalted p t) then (h.set (Reg.dewTagHalted p t) 0).dewRestart p t else h

/-- The replacement LFSR of a slice loaded (R218). -/
def State.seedLoad (s : State) (sl v : Nat) : State :=
  if 96 * s.hub.dies ≤ sl ∨ v = 0 then s
  else { s with hub := s.hub.set (Reg.frnSliceCtrlSeed sl) v, mem := { s.mem with lfsr := tset 0xACE1 s.mem.lfsr sl v } }

/-- The fields other than RWF ones of a register that holds RWF fields: HALTED and CLEAR of DEW_TAG, SEED of FRN_SLICE_CTRL. -/
def State.rwfOthers (s : State) (r : RegAt) (w : Nat) : State :=
  r.pieces.foldl (fun s p =>
    let i := r.ix.getD 0 0
    let j := r.ix.getD 1 0
    if p.f.fld = Reg.dewTagHalted i j ∧ p.of w = 1 then s.onHub (·.haltClear i j)
    else if p.f.fld = Reg.dewTagClear i j ∧ p.of w = 1 then s.onHub (·.dewClear i j)
    else if p.f.fld = Reg.frnSliceCtrlSeed i then s.seedLoad i (p.of w)
    else s) s

/-- A word written to a register that holds RWF fields (R502): the staged write, then the other fields. The cause of a refusal, 0 none. -/
def State.rwfWrite (s : State) (via : Nat) (r : RegAt) (w : Nat) : Nat × State :=
  let q := s.hub.stage via r.off (s.hub.rwfOf r w)
  (q.1, { s with hub := q.2 }.rwfOthers r w)

-- Forecast sets (R43)

/-- An entry of a set: offset, width, value, and whether its reserved bytes are zero. -/
structure FsetEntry where
  off : Nat
  width : Nat
  val : Nat
  ok : Bool

/-- Entry `k` of a set given as a number. -/
def fsetEntry (v k : Nat) : FsetEntry :=
  let e := bits v (128 * (k + 1)) 128
  let w := bits e 32 8
  ⟨bits e 0 32 % 0x8000000, w, bits e 64 64, decide (bits e 40 24 = 0) && (decide (w = 8) || decide (bits e 96 32 = 0))
    && decide (bits e 0 32 < 0x10000000)⟩

/-- An entry is well formed. -/
def Hub.fsetOk (h : Hub) (e : FsetEntry) : Bool :=
  e.ok && (decide (e.width = 4) || decide (e.width = 8)) && decide (e.off % e.width = 0)
    && (match h.regAt 0 e.off with
      | some r => r.hasRwf
      | none => false)

/-- The entries of a set, none where the header or any entry is malformed. -/
def Hub.fsetParse (h : Hub) (v : Nat) : Option (List FsetEntry) :=
  let n := bits v 32 32
  if bits v 0 32 ≠ 0x54534546 ∨ n = 0 ∨ 65535 < n ∨ bits v 64 64 ≠ 0 then none
  else
    let l := (List.range n).map (fsetEntry v)
    if l.all h.fsetOk then some l else none

/-- One entry applied as a write (R4, R5): the first cause of refusal of the set so far, its entries applied, and a held lower half. -/
structure FsetRun where
  s : State
  cause : Nat
  count : Nat
  half : Option (Nat × Nat)

/-- The writes of one entry: whole words of the registers it covers. -/
def FsetRun.word (x : FsetRun) (via : Nat) (r : RegAt) (w : Nat) : FsetRun :=
  let q := x.s.rwfWrite via r w
  ⟨q.2, if x.cause = 0 then q.1 else x.cause, if q.1 = 0 then x.count + 1 else x.count, none⟩

/-- An entry applied. -/
def FsetRun.entry (via : Nat) (x : FsetRun) (e : FsetEntry) : FsetRun :=
  match x.s.hub.regAt 0 e.off with
  | none => x
  | some r =>
    if e.width = 8 ∨ r.width = 32 then x.word via r e.val
    else if e.off = r.off then { x with half := some (r.off, e.val), count := x.count + 1 }
    else
      let lo := match x.half with
        | some (o, v) => if o = r.off then v else x.s.hub.lowNow r
        | none => x.s.hub.lowNow r
      x.word via r (lo + 2 ^ 32 * e.val)

/-- The entries of a set applied in order. -/
def State.fsetApply (s : State) (via : Nat) (l : List FsetEntry) : FsetRun := l.foldl (FsetRun.entry via) ⟨s, 0, 0, none⟩

/-- The result of a set load shown (Table 12). -/
def Hub.fsetResult (h : Hub) (cause count : Nat) : Hub :=
  h.sets [(Reg.cfgFsetLoadLoad, 0), (Reg.cfgFsetLoadResult, cause), (Reg.cfgFsetLoadCount, count), (Reg.cfgStatusLastCause, cause)]

/-- A set read and applied for an interface (R43): the header says how long it is. -/
def State.fsetLoad (s : State) (via : Nat) : State :=
  let a := s.hub.get Reg.cfgFsetAddrHpa
  if a % 16 ≠ 0 then s.onHub (·.fsetResult 0x0A 0)
  else
    let r := s.hubRead .pf a 16 false
    if r.st ≠ 0 ∨ r.bad ≠ 0 then r.s.onHub (·.fsetResult 0x0B 0)
    else
      let n := bits r.v 32 32
      if n = 0 ∨ 65535 < n then r.s.onHub (·.fsetResult 0x0A 0)
      else
        let r := r.s.hubRead .pf a (16 + 16 * n) false
        if r.st ≠ 0 ∨ r.bad ≠ 0 then r.s.onHub (·.fsetResult 0x0B 0)
        else match r.s.hub.fsetParse r.v with
          | none => r.s.onHub (·.fsetResult 0x0A 0)
          | some l =>
            let x := r.s.fsetApply via l
            x.s.onHub (·.fsetResult x.cause x.count)

/-- FSET_LOAD (R43), from PF MMIO. -/
def execFsetLoad (s0 : State) : Host.Outcome State Fault Refusal :=
  let s := s0.wroteBy 0
  .next (s.fsetLoad 1)

end Sys2Proof.Machine
end

