-- ==== Sys2Proof/Machine/Reset.lean ====
section
/-! DEFINITION. Reset domains of the whole hub (03: R57-R59, R73, R80; 22: R479): cold reset by PORST_N, hub reset by PERST_N, GLB_RESET,
a hub-fatal error or the watchdog. -/

namespace Sys2Proof.Machine

/-- ISO_TRIP keeps its contents while supply group 1 is up (R420). -/
def Hub.tripRegs (h : Hub) : Tab Nat := h.regs.filter (fun x => decide (0xD00058 * 2048 ≤ x.1) && decide (x.1 < 0xD0005C * 2048))

/-- What every reset of the hub leaves as it is: the Permafrost store, the flash with its journal, ISO_TRIP, the TAP, and the model's own
counters and record of outputs. -/
def Hub.cold (h : Hub) : Hub :=
  { Hub.rst with regs := h.tripRegs, perma := h.perma, flash := h.flash, journal := h.journal, tap := h.tap, fresh := h.fresh, sent := h.sent }

/-- The hub while PORST_N is low (R80): every domain is in reset, and every output is released (R489). -/
def Hub.porstLow (h : Hub) : Hub :=
  { h.cold with boot := { Boot.rst with group1 := h.boot.group1, porst := true, perst := h.boot.perst, pumpHigh := false, step := 0 } }

/-- PORST_N_ASSERT (R80). -/
def execPorstNAssert (s : State) : Host.Outcome State Fault Refusal := .next { s with hub := s.hub.porstLow, mem := Memory.rst }

/-- The hub right after PORST_N rises (R58, R59, R493): the straps are latched, boot step 1 begins, and the TAP drives no pin (R500). -/
def Hub.porstHigh (h : Hub) (x : Straps) : Hub :=
  let b : Boot := { Boot.rst with group1 := h.boot.group1, perst := !x.perstHigh, role := x.role, twinEn := x.twinEn,
                                  nodeId := x.nodeId.toNat, bootMode := x.bootMode.toNat }
  Hub.set { h.cold with boot := b, tap := { h.tap with drives := false } } Reg.glbResetCausePorst 1

/-- PORST_N_DEASSERT (R58): only a rising edge latches. -/
def execPorstNDeassert (x : Straps) (s : State) : Host.Outcome State Fault Refusal :=
  if s.hub.boot.porst then .next { s with hub := s.hub.porstHigh x, mem := Memory.rst } else .next s

/-- The hub after a hub reset (Table 9): the Moraine log and the latched straps stay; exactly one cause is shown. -/
def Hub.warm (h : Hub) (cause : Fld) (fault : Bool) : Hub :=
  let b : Boot := { Boot.rst with group1 := h.boot.group1, perst := h.boot.perst, role := h.boot.role, twinEn := h.boot.twinEn,
                                  nodeId := h.boot.nodeId, bootMode := h.boot.bootMode, notes := h.boot.notes, faultN := fault }
  let n : Hub := { h.cold with
    boot := b, mor := h.mor, boots := (h.boots + 1) % 2 ^ 16
    iso := { Iso.rst with brakeEarly := h.iso.brakePin || h.iso.brakeEarly }
    sec := { Sec.rst with aliasKeys := h.sec.aliasKeys } }
  n.sets [(cause, 1), (Reg.morNextSeqSeq, h.get Reg.morNextSeqSeq), (Reg.morLostCount, h.get Reg.morLostCount)]

/-- The hub can be reset: power is good and PORST_N high, and it stands neither in the halt of R74 nor in that of a trip (R420), which only
PORST_N ends. -/
def Hub.resettable (h : Hub) : Bool := decide (h.boot.step ≠ 0) && !h.boot.halt && !h.boot.stopped

/-- A hub reset (R80). -/
def State.hubReset (s : State) (cause : Fld) (fault : Bool) : State :=
  if s.hub.resettable then { s with hub := s.hub.warm cause fault, mem := Memory.rst } else s

/-- The die takes PERST_N as its own: a twin's secondary does not (R59). -/
def Hub.hasPerst (h : Hub) : Bool := h.boot.role || !h.boot.twinEn

/-- PERST_N_ASSERT (R73, R80). -/
def execPerstNAssert (s : State) : Host.Outcome State Fault Refusal :=
  if s.hub.hasPerst then
    let s := s.onHub (fun h => { h with boot := { h.boot with perst := true } })
    .next (s.hubReset Reg.glbResetCausePerst false)
  else .next s

/-- PERST_N_DEASSERT (R69): the endpoint answers with CRS from here until step 9 ends. -/
def execPerstNDeassert (s : State) : Host.Outcome State Fault Refusal :=
  hubStep (fun h =>
    if !h.hasPerst || !h.boot.perst then h
    else { h with boot := { h.boot with perst := false, crs := h.resettable && decide (h.boot.step < 10) } }) s

/-- BAR0 is there: after step 9, or as the minimal BAR0 of recovery and of End of Life (Tables 2 and 8 of 03). -/
def Hub.bar0Up (h : Hub) : Bool :=
  !h.boot.stopped && (decide (h.boot.step = 10) || (decide (h.boot.step = 11) && !h.boot.halt && !h.boot.perst))

/-- A write of GLB_RESET: HUB with the right KEY (R80). -/
def State.glbReset (s : State) (w : Nat) : State :=
  if bitAt w 0 ∧ bits w 16 16 = 0xE960 ∧ s.hub.bar0Up then s.hubReset Reg.glbResetCauseSoft false else s

/-- GLB_RESET (R80). -/
def execGlbReset (w : BitVec 32) (s0 : State) : Host.Outcome State Fault Refusal :=
  let s := s0.wroteBy 0
  .next (s.glbReset w.toNat)

/-- A hub-fatal error (R479): its record in the log, FAULT_N, and the hub reset. -/
def State.hubFatal (s : State) (x : RecIn) (cause : Fld) : State :=
  if s.hub.resettable then (s.onHub (·.record x)).hubReset cause true else s

/-- WATCHDOG_EXPIRY (R479): the watchdog watches the management core, which runs from boot step 6. -/
def execWatchdogExpiry (s : State) : Host.Outcome State Fault Refusal :=
  if s.hub.boot.step < 6 then .next s else .next (s.hubFatal { code := 0x0E07, cls := 3 } Reg.glbResetCauseWatchdog)

/-- HUB_FATAL_ERROR (R479, R420): the codes of class Hub-fatal; a thermal trip halts instead. -/
def execHubFatalError (code : BitVec 16) (inst : BitVec 16) (d0 d1 : BitVec 64) (s : State) : Host.Outcome State Fault Refusal :=
  let c := code.toNat
  let k := inst.toNat
  if s.hub.boot.step = 0 then .next s
  else if c = 0x0B05 then
    hubStep (fun h => if k < 16 then h.trip false k (bits d0.toNat 8 6) (bits d0.toNat 0 8)
      else h.trip true ((k - 16) / 12) ((k - 16) % 12) (bits d0.toNat 0 8)) s
  else if c = 0x0E07 then .next (s.hubFatal { code := c, cls := 3 } Reg.glbResetCauseWatchdog)
  else if c = 0x0702 ∨ c = 0x0703 ∨ c = 0x0C06 then
    .next (s.hubFatal { code := c, cls := 3, inst := k, d0 := d0.toNat, d1 := d1.toNat } Reg.glbResetCauseHubFatal)
  else .next s

end Sys2Proof.Machine
end

