-- ==== Sys2Proof/Machine/ColRows.lean ====
section
/-! DEFINITION. Commands of the collectives (17): groups, posts, sending chunks, arriving packets, deadlines and completion. -/

namespace Sys2Proof.Machine

/-- Entry of rank `r` in a group descriptor (Table 2): PEER, PEER_GROUP, reserved. -/
def descPeer (x r : Nat) : Nat × Nat × Nat := (bits x (8 * (0x40 + 8 * r)) 16, bits x (8 * (0x42 + 8 * r)) 8, bits x (8 * (0x43 + 8 * r)) 40)

/-- The header part of a group descriptor is good (R395, Table 2). -/
def Hub.groupHead (h : Hub) (p x : Nat) : Bool :=
  let n := bits x 32 16
  let rank := bits x 48 16
  let a := bits x 128 64
  let b := bits x 192 32
  let q := bits x 224 8
  decide (bits x 0 32 = 0x47434845) && decide (2 ≤ n) && decide (n ≤ 4096) && decide (rank < n) && decide (bits x 232 280 = 0)
    && decide (a % 4096 = 0) && decide (b % 4096 = 0) && decide (0 < b)
    && (match h.region a, h.region (a + b - 1) with
        | .scratch sl o, .scratch sm o' =>
          decide (sl = sm) && decide (h.sliceOwner sl = p) && h.scratchHas sl o && h.scratchHas sl o'
        | _, _ => false)
    && decide (q < 24) && (List.range 4).any (fun i => decide (h.linkOwner (4 * q + i) = p))

/-- The entry of a rank is good (R395). -/
def Hub.groupPeer (h : Hub) (p x rank r : Nat) : Bool :=
  let e := descPeer x r
  decide (e.2.2 = 0)
    && (if r = rank then decide (e.1 = 0xFFFF)
        else decide (e.1 < 4096) && h.on (Reg.lnkPeerV e.1) && decide (h.get (Reg.lnkPeerPartition e.1) = p))

/-- A group made from its descriptor. -/
def ColGroup.make (p x : Nat) : ColGroup where
  part := p
  members := bits x 32 16
  rank := bits x 48 16
  gkey := bits x 64 64
  chunkHpa := bits x 128 64
  chunkBytes := bits x 192 32
  quad := bits x 224 8
  peers := (List.range (bits x 32 16)).map (fun r => ((descPeer x r).1, (descPeer x r).2.1))
  posts := []
  run := none
  credits := 0
  chunks := []
  paid := false
  got := []

/-- A descriptor read whole: its bytes; none where it waits, or the status that ends the command. -/
def State.groupDesc (s : State) (c : QCmd) : Option (Nat × Nat) × State :=
  match s.cmdRead c (qf c 0x18 8) 64 with
  | (none, s) => (none, s)
  | (some r, s) =>
    if r.st ≠ 0 ∨ r.bad ≠ 0 then (some (if r.st ≠ 0 then r.st else 0x08, 0), s)
    else
      let n := bits r.v 32 16
      if n < 2 ∨ 4096 < n then (some (0x02, 0), s)
      else match s.cmdRead c (qf c 0x18 8 + 64) (8 * n) with
        | (none, s) => (none, s)
        | (some q, s) => if q.st ≠ 0 ∨ q.bad ≠ 0 then (some (if q.st ≠ 0 then q.st else 0x08, 0), s) else (some (0, r.v + 2 ^ 512 * q.v), s)

/-- COL_GROUP_CREATE (R395): checked, its descriptor read, the group made. RESULT, the slots that R397 gives for a post's WIRE_FMT, is a
free value at creation. -/
def groupCreateCmd (c : QCmd) (s : State) : State :=
  let st := s.hub.cmdCheck c true
  let g := qf c 0x10 1
  let p := s.hub.cmdPart c
  if st ≠ 0 then s.done c st 0
  else if !qz c 0x11 0x18 ∨ !qz c 0x20 0x40 ∨ 64 ≤ g ∨ (s.hub.group g).isSome then s.done c 0x02 0
  else match s.groupDesc c with
    | (none, s) => s
    | (some (e, x), s) =>
      if e ≠ 0 then s.done c e 0
      else if !s.hub.groupHead p x ∨ !((List.range (bits x 32 16)).all (fun r => s.hub.groupPeer p x (bits x 48 16) r)) then s.done c 0x02 0
      else s.onHub (fun h =>
        let v := h.draw.1 % 2 ^ 64
        let k := ColGroup.make p x
        let h := (h.draw.2.setGroup g k).sets [(Reg.colGroupStatusState g, 1), (Reg.colGroupStatusPartition g, p),
          (Reg.colGroupStatusRank g, k.rank), (Reg.colGroupStatusMembers g, k.members)]
        h.complete c 0 v)

/-- COL_GROUP_CREATE. -/
def execColGroupCreate (cmd : QCmd) (s : State) : Host.Outcome State Fault Refusal := .next (groupCreateCmd cmd s)

/-- A group that a command may name (Table 9: GROUP_UNKNOWN otherwise). -/
def Hub.cmdGroup (h : Hub) (c : QCmd) : Option ColGroup :=
  match h.group (qf c 0x10 1) with
  | some g => if g.part = h.cmdPart c then some g else none
  | none => none

/-- COL_GROUP_DESTROY (R395). -/
def execColGroupDestroy (cmd : QCmd) (s : State) : Host.Outcome State Fault Refusal :=
  hubStep (fun h =>
    let st := h.cmdCheck cmd true
    if st ≠ 0 then h.complete cmd st 0
    else if !qz cmd 0x11 0x40 then h.complete cmd 0x02 0
    else match h.cmdGroup cmd with
      | none => h.complete cmd 0x46 0
      | some g => if g.run.isSome ∨ g.posts ≠ [] then h.complete cmd 0x0D 0 else (h.groupGone (qf cmd 0x10 1)).complete cmd 0 0) s

/-- Fields of COL_POST are in range for a group of `n` members (Table 4). -/
def postOk (n : Nat) (c : QCmd) : Bool :=
  let op := colOp c
  decide (op ≤ 4) && decide (qf c 0x12 1 ≤ 2) && (decide (op < 2) || decide (qf c 0x12 1 = 0)) && decide (qf c 0x13 1 ≤ 4)
    && fmtLegal (qf c 0x14 1) && fmtLegal (qf c 0x15 1) && fmtLegal (qf c 0x16 1)
    && decide (qf c 0x28 4 % (1024 * n) = 0) && (decide (op = 4) || decide (qf c 0x28 4 ≠ 0))
    && decide (1 ≤ qf c 0x2C 4) && decide (qf c 0x2C 4 ≤ 100000) && decide (2 * qf c 0x2C 4 ≤ qf c 0x30 4) && decide (qf c 0x30 4 ≤ 1000000)
    && (if op = 3 then decide (qf c 0x34 2 < n) else decide (qf c 0x34 2 = 0)) && decide (qf c 0x36 1 ≤ 1)
    && decide (1 ≤ qf c 0x37 1) && decide (qf c 0x37 1 ≤ 64) && qz c 0x38 0x40

/-- SLOTS of a post (R397). -/
def ColGroup.slots (g : ColGroup) (c : QCmd) : Nat := g.chunkBytes / slotBytes c

/-- COL_POST (R397, R398): queued on its group. -/
def execColPost (cmd : QCmd) (s : State) : Host.Outcome State Fault Refusal :=
  hubStep (fun h =>
    let st := h.cmdCheck cmd true
    if st ≠ 0 then h.complete cmd st 0
    else match h.cmdGroup cmd with
      | none => h.complete cmd 0x46 0
      | some g =>
        if !postOk g.members cmd ∨ g.slots cmd < 4 then h.complete cmd 0x02 0
        else if !h.storeOk g.part (qf cmd 0x16 1) ∨ !h.storeOk g.part (qf cmd 0x15 1) then h.complete cmd 0x04 0
        else h.setGroup (qf cmd 0x10 1) { g with posts := g.posts ++ [cmd] }) s

/-- COL_CANCEL (R407): the running collective ends ABORTED. -/
def execColCancel (cmd : QCmd) (s : State) : Host.Outcome State Fault Refusal :=
  hubStep (fun h =>
    let st := h.cmdCheck cmd true
    if st ≠ 0 then h.complete cmd st 0
    else if !qz cmd 0x11 0x40 then h.complete cmd 0x02 0
    else match h.cmdGroup cmd with
      | none => h.complete cmd 0x46 0
      | some _ => (h.colAbort (qf cmd 0x10 1) 0x07).complete cmd 0 0) s

/-- Parts of one chunk that came before its post ran land in their slot. -/
def State.colLandAll (s : State) (g : Nat) (cmd : QCmd) (k : ColChunk) : List (Nat × List Byte × Bool) → State
  | [] => s
  | (part, data, poison) :: t =>
    match s.hub.group g with
    | none => s
    | some c => (s.colLand g c cmd k part data poison).colLandAll g cmd k t

/-- Parts that came before their post ran land in their slots (R403). -/
def State.colUnhold (s : State) (g seq : Nat) (cmd : QCmd) : List ColChunk → State
  | [] => s
  | k :: t =>
    if k.seq = seq then
      let s := s.onHub (fun h => h.onGroup g (fun c => { c with chunks := c.chunks.map (fun y => if y.is k then { y with early := [] } else y) }))
      (s.colLandAll g cmd { k with early := [] } k.early).colUnhold g seq cmd t
    else s.colUnhold g seq cmd t

/-- POST_START (R398): the group's next post runs, with SLOTS credits (R403). -/
def execPostStart (g : BitVec 6) (s : State) : Host.Outcome State Fault Refusal :=
  let k := g.toNat
  match s.hub.group k with
  | none => .next s
  | some c =>
    match c.run, c.posts with
    | none, cmd :: t =>
      let seq := wrapAdd 32 (s.hub.get (Reg.colGroupStatusSeq k)) 1
      let n := c.slots cmd
      let r : ColRun := ⟨cmd, seq, 1, [], [], 0, false, [], false, false⟩
      let s := s.onHub (fun h => (h.setGroup k { c with posts := t, run := some r, credits := n, paid := false, got := [] }).sets
        [(Reg.colGroupStatusState k, 2), (Reg.colGroupStatusSlots k, n), (Reg.colGroupStatusSeq k, seq), (Reg.colGroupStatusExtUsedUs k, 0)])
      .next ((s.colUnhold k seq cmd c.chunks).colWork k)
    | _, _ => .next s

/-- Pieces of one run of equal poison, of at most 4,096 bytes: (offset, bytes, poison). -/
def cutParts (f a n : Nat) (bad : Bool) : List (Nat × Nat × Bool) :=
  match f with
  | 0 => []
  | f + 1 => if n = 0 then [] else let k := min n 4096; (a, k, bad) :: cutParts f (a + k) (n - k) bad

/-- A chunk sent downstream in COL_DATA packets (R402), with its credit. -/
def Hub.colShip (h : Hub) (g : Nat) (c : ColGroup) (seq step chunk v n bad : Nat) : Hub :=
  let parts := if n = 0 then [(0, 0, false)] else (poisonRuns (n / 32 + 2) 0 n bad 0).flatMap (fun x => cutParts (x.2.1 / 4096 + 2) x.1 x.2.1 x.2.2)
  let h := parts.foldl (fun h x => h.colSend g c c.down 0xC (step % 256) seq chunk 0 x.1 (leBytes x.2.1 (bits v (8 * x.1) (8 * x.2.1))) x.2.2) h
  h.onGroup g (fun c => { c with
    credits := c.credits - 1, paid := false, got := [],
    run := c.run.map (fun r => { r with sent := tset 0 r.sent step (tget 0 r.sent step + 1) }) })

/-- A chunk of the member's own staged from memory in a format, sent in WIRE_FMT; where the member keeps it, it is written to its
destination as well (ALL_GATHER, BROADCAST). -/
def State.colStage (s : State) (g : Nat) (c : ColGroup) (r : ColRun) (step chunk seg va : Nat) (sf : FmtByte) (keep : Bool) : State :=
  let n := c.members
  let wf := colWireF r.cmd
  let df := colDstF r.cmd
  let m := colElems n r.cmd chunk
  let nb := colBytes n r.cmd sf chunk
  let db := colBytes n r.cmd df chunk
  let dva := qf r.cmd 0x20 8 + colOff n r.cmd df seg chunk
  let keep := keep && !(decide (dva = va) && sf = df)
  match s.colAdmit g c (nb + (if keep then db else 0)) with
  | (none, s) => s
  | (some s, _) =>
    match (if keep then s.span (c.acc g dva .write) db else (some [], s)) with
    | (none, s) => s
    | (some l, s) =>
      match s.colRead g c r.seq va nb with
      | (none, s) => s
      | (some (x, bad), s) =>
        if (narrows sf wf ∨ (keep ∧ narrows sf df)) ∧ s.hub.halted c.part (colTag r.cmd) then s.onHub (·.colAbort g 0x0F)
        else
          let mode := Rnd.ofCode (qf r.cmd 0x13 1 % 8)
          let w := colConvert sf wf x m (colOff n r.cmd wf seg chunk) mode
          let wbad := if sf = wf then shiftBad va 0 nb bad else convBad sf wf m va 0 bad
          let s := s.onHub (·.colDew c r.cmd (narrows sf wf) wf (colOff n r.cmd wf seg chunk) w)
          let s :=
            if keep then
              let d := colConvert sf df x m (colOff n r.cmd df seg chunk) mode
              let dbad := if sf = df then shiftBad va dva db bad else convBad sf df m va dva bad
              (s.onHub (·.colDew c r.cmd (narrows sf df) df (colOff n r.cmd df seg chunk) d)).colWrite g c r.seq l db d.out dbad
            else s
          s.onHub (fun h => match h.group g with
            | some c' => if c'.run.isSome then h.colShip g c' r.seq step chunk w.out (colBytes n r.cmd wf chunk) wbad else h
            | none => h)

/-- A received chunk forwarded from its slot; the slot is free again. -/
def State.colForward (s : State) (g : Nat) (c : ColGroup) (r : ColRun) (step : Nat) (k : ColChunk) : State :=
  let n := colBytes c.members r.cmd (colWireF r.cmd) k.chunk
  let q := s.hubRead (.part c.part) (c.slotAt r.cmd k) n false
  q.s.onHub (fun h => (h.colShip g c r.seq step k.chunk q.v n (if q.st ≠ 0 then allBad 0 n else q.bad)).colFree g k)

/-- The first step, from `s` up, whose own chunks are still to be staged: the step, the chunk, where from. -/
def ColGroup.nextStage (c : ColGroup) (r : ColRun) : Option (Nat × Nat × ColSrc) :=
  let n := c.members
  ((List.range (colSteps n r.cmd)).map (· + 1)).findSome? (fun s =>
    match stagedStep n c.rank r.cmd s with
    | none => none
    | some x =>
      let k := tget 0 r.sent s
      let ok : Bool := match x with | .dst _ => decide (colChunks n r.cmd ≤ tget 0 r.got (n - 1)) | _ => true
      if decide (k < colChunks n r.cmd) && ok then some (s, k, x) else none)

/-- The received chunk that is forwarded next: the lowest step, then the lowest chunk. -/
def ColGroup.nextForward (c : ColGroup) (r : ColRun) : Option (Nat × ColChunk) :=
  c.chunks.foldl (fun best k =>
    if k.seq = r.seq ∧ k.ready then
      match forwardStep c.members c.rank r.cmd k.step, best with
      | none, _ => best
      | some s, none => some (s, k)
      | some s, some (s', k') => if s < s' ∨ (s = s' ∧ k.chunk < k'.chunk) then some (s, k) else best
    else best) none

/-- One chunk that may be sent is staged or forwarded (R396, R399). -/
def State.colSendOne (s : State) (g : Nat) (c : ColGroup) (r : ColRun) : State :=
  let n := c.members
  let stage (step k : Nat) (x : ColSrc) : State := match x with
    | .token => s.onHub (fun h => h.colShip g c r.seq step k 0 0 0)
    | .src seg => s.colStage g c r step k seg (qf r.cmd 0x18 8 + colOff n r.cmd (colSrcF r.cmd) seg k) (colSrcF r.cmd) (decide (2 ≤ colOp r.cmd))
    | .dst seg => s.colStage g c r step k seg (qf r.cmd 0x20 8 + colOff n r.cmd (colDstF r.cmd) seg k) (colDstF r.cmd) false
  match c.nextStage r, c.nextForward r with
  | none, none => s
  | some (t, k, x), none => stage t k x
  | none, some (t, k) => s.colForward g c r t k
  | some (t, k, x), some (t', k') => if t ≤ t' then stage t k x else s.colForward g c r t' k'

/-- CHUNK_SEND (R403): a chunk goes out while the member holds a credit and no access of the group waits. Without an UP link of the
partition the collective ends PEER_UNREACHABLE (log entry 18). -/
def execChunkSend (g : BitVec 6) (s : State) : Host.Outcome State Fault Refusal :=
  let k := g.toNat
  match s.hub.group k with
  | none => .next s
  | some c =>
    match c.run with
    | none => .next s
    | some r =>
      if c.credits = 0 ∨ s.hub.colStuck k then .next s
      else if (c.nextStage r).isNone ∧ (c.nextForward r).isNone then .next s
      else if (s.hub.chunkLink c.part c.gkey c.down 0).isNone then .next (s.onHub (·.colAbort k 0x0A))
      else .next (s.colSendOne k c r)

/-- COL_DATA (R402, R403). -/
def execColData (p : LinkPkt) (x : ColExt) (s : State) : Host.Outcome State Fault Refusal :=
  .next (rxFrame p (fun s => s.rxReq p (.col 0xC p x)) s)

/-- COL_CREDIT (R403). -/
def execColCredit (p : LinkPkt) (x : ColExt) (s : State) : Host.Outcome State Fault Refusal :=
  .next (rxFrame p (fun s => s.rxReq p (.col 0xD p x)) s)

/-- COL_SQUALL (R406). -/
def execColSquall (p : LinkPkt) (x : ColExt) (s : State) : Host.Outcome State Fault Refusal :=
  .next (rxFrame p (fun s => s.rxReq p (.col 0xE p x)) s)

/-- COL_ABORT (R408). -/
def execColAbort (p : LinkPkt) (x : ColExt) (s : State) : Host.Outcome State Fault Refusal :=
  .next (rxFrame p (fun s => s.rxReq p (.col 0xF p x)) s)

/-- STEP_DEADLINE (R404): a step that still waits for chunks ends the collective. -/
def execStepDeadline (g : BitVec 6) (s : State) : Host.Outcome State Fault Refusal :=
  hubStep (fun h =>
    match h.group g.toNat with
    | none => h
    | some c =>
      match c.run with
      | none => h
      | some r => if r.step ≤ colSteps c.members r.cmd then h.colAbort g.toNat 0x44 else h) s

/-- The running collective has nothing left to do (R398). -/
def Hub.colOver (h : Hub) (g : Nat) (c : ColGroup) (r : ColRun) : Bool :=
  let n := colChunks c.members r.cmd
  decide ((r.sent.map (·.2)).sum = n * sendSteps c.members c.rank r.cmd)
    && decide ((r.got.map (·.2)).sum = n * recvSteps c.members c.rank r.cmd)
    && !h.allOut.any (fun o => (decide (o.who = .collective g) && decide (o.place = r.seq)) || decide (o.who = .stage g r.seq))

/-- POST_COMPLETE (R398): the post completes OK, and its group is READY. -/
def execPostComplete (g : BitVec 6) (s : State) : Host.Outcome State Fault Refusal :=
  hubStep (fun h =>
    let k := g.toNat
    match h.group k with
    | none => h
    | some c =>
      match c.run with
      | none => h
      | some r =>
        if h.colOver k c r then
          let h := (h.setGroup k { c with run := none, chunks := c.chunks.filter (fun x => !decide (x.seq = r.seq)) }).sets
            [(Reg.colGroupStatusState k, 1), (Reg.colGroupStatusLastStatus k, 0), (Reg.colGroupStatusLastOrigin k, 0)]
          h.complete r.cmd 0 r.seq
        else h) s

end Sys2Proof.Machine
end

