-- ==== Sys2Proof/Machine/SeaSync.lean ====
section
/-! DEFINITION. Synchronisation, DMA issue and the end of a tile as a core sees them (04: R98-R104; 05: R131-R135). -/

namespace Sys2Proof.Machine

/-- Cores of a tile (Table 4 of 04). -/
def Launch.tc (l : Launch) : Nat := 128 / 2 ^ l.f 0x1C 1

/-- Tiles of the grid. -/
def Launch.total (l : Launch) : Nat := l.f 0x20 4 * l.f 0x24 4 * l.f 0x28 4

/-- A FLAGS bit: 0 STAGE_CODE, 1 CO_RESIDENT, 2 SERIAL, 3 ZERO_FLOE_MEM. -/
def Launch.flag (l : Launch) (i : Nat) : Bool := bitAt (l.f 0x1A 2) i

/-- Cores that run again. -/
def Hub.readyCores (h : Hub) (l : List Nat) : Hub := l.foldl (fun h c => h.setCore c { h.core c with run := .ready }) h

-- Barriers

/-- The barrier's key: barrier `b` of a floe, barrier 0 by slot. -/
def barKey (f b slot : Nat) : Nat := if b = 0 then 64 * f + 16 + slot else 64 * f + b

/-- The cores of a slot. -/
def slotCores (f slot tc : Nat) : List Nat := (List.range tc).map (fun i => 128 * f + slot * tc + i)

/-- Barrier 0 of a slot releases if every core of the tile has arrived or ended (R98). -/
def Hub.releaseTile (h : Hub) (f slot tc : Nat) : Hub :=
  let k := barKey f 0 slot
  let b := tget Barrier.rst h.sea.barriers k
  if b.arrived = [] then h
  else if (slotCores f slot tc).all (fun c => kmem b.arrived c || decide ((h.core c).run = .ended)) then
    ({ h with sea := { h.sea with barriers := tset Barrier.rst h.sea.barriers k .rst } }).readyCores b.arrived
  else h

/-- An arrival at barrier 0-14 of the core's floe; the core stands arrived. -/
def Hub.arrive (h : Hub) (core b count slot : Nat) : Hub :=
  let k := barKey (core / 128) b slot
  let x := tget Barrier.rst h.sea.barriers k
  { h with sea := { h.sea with barriers := tset Barrier.rst h.sea.barriers k ⟨if x.arrived = [] then count else x.count, kadd x.arrived core⟩ } }

/-- A barrier 1-14 whose count is reached releases its cores (R98). -/
def Hub.releaseCount (h : Hub) (f b : Nat) : Hub :=
  let k := barKey f b 0
  let x := tget Barrier.rst h.sea.barriers k
  if x.arrived ≠ [] ∧ x.count ≤ x.arrived.length then
    ({ h with sea := { h.sea with barriers := tset Barrier.rst h.sea.barriers k .rst } }).readyCores x.arrived
  else h

/-- An arrival at the grid barrier of a launch (R99), which releases once every core of the launch has arrived. -/
def Hub.arriveGrid (h : Hub) (core k : Nat) (l : Launch) : Hub :=
  let x := tget Barrier.rst h.sea.grid k
  let a := kadd x.arrived core
  if l.total * l.tc ≤ a.length then ({ h with sea := { h.sea with grid := tset Barrier.rst h.sea.grid k .rst } }).readyCores a
  else { h with sea := { h.sea with grid := tset Barrier.rst h.sea.grid k ⟨0, a⟩ } }

/-- BAR (R131): the core arrives, and stays at the barrier unless it is the last. -/
def barIss (f : IForm) (core : Nat) (x : Core) (s : State) : Iss :=
  let b := f.imm.toNat % 16
  let n := (x.s f.rs1).toNat
  let fl := core / 128
  if f.imm.toNat / 16 ≠ 0 ∨ f.rd ≠ 0 then .exc s x 0x01 0 0
  else
    afterStores core s <|
      match s.hub.launchOf x with
      | none => .done s x.adv
      | some l =>
        let wait : Core := { x with run := .atBarrier b }
        let go (h : Hub) : Iss := .done { s with hub := h } { x.adv with run := (h.core core).run }
        let h := s.hub.setCore core wait
        if b = 15 then (if l.flag 1 then go (h.arriveGrid core (x.launch - 1) l) else .exc s x 0x06 0 0)
        else if b = 0 then go ((h.arrive core 0 0 x.slot).releaseTile fl x.slot l.tc)
        else if n = 0 ∨ 128 < n then .exc s x 0x06 0 0
        else
          let y := tget Barrier.rst h.sea.barriers (barKey fl b 0)
          if y.arrived ≠ [] ∧ y.count ≠ n then .exc s x 0x06 0 0
          else go ((h.arrive core b n 0).releaseCount fl b)

-- Event counters

/-- The event counter that a local-window address names (R84, R132): floe and index. -/
def Hub.evtAt (h : Hub) (core p va : Nat) : Option (Nat × Nat) :=
  match h.window core p va 4 with
  | .here a => match h.region a with
    | .event f k => if a % 4 = 0 then some (f, k) else none
    | _ => none
  | _ => none

/-- An event operation on the counter that s[rs1] names; WINDOW otherwise. -/
def evtIss (f : RForm) (core : Nat) (x : Core) (s : State) (go : Nat → Nat → Iss) : Iss :=
  let va := (x.s f.rs1).toNat
  match s.hub.evtAt core (s.hub.corePart x) va with
  | none => .exc s x 0x03 va 0
  | some (fl, k) => go fl k

/-- EVT READ. -/
def evtReadIss (f : RForm) (core : Nat) (x : Core) (s : State) : Iss :=
  evtIss f core x s (fun fl k => .done s (x.setS f.rd (BitVec.ofNat 64 (s.mem.counter fl k))).adv)

/-- EVT SET: after FENCE.ST. -/
def evtSetIss (f : RForm) (core : Nat) (x : Core) (s : State) : Iss :=
  evtIss f core x s (fun fl k =>
    afterStores core s (.done { s with mem := s.mem.setCounter fl k ((x.s f.rs2).toNat % 2 ^ 32) } x.adv))

/-- EVT ADD: after FENCE.ST, rd the old value. -/
def evtAddIss (f : RForm) (core : Nat) (x : Core) (s : State) : Iss :=
  evtIss f core x s (fun fl k =>
    let old := s.mem.counter fl k
    afterStores core s
      (.done { s with mem := s.mem.setCounter fl k (wrapAdd 32 old (x.s f.rs2).toNat) } (x.setS f.rd (BitVec.ofNat 64 old)).adv))

/-- A counter has reached a target (R100). -/
def evtMet (v target : Nat) : Bool := decide (diff32 v target < 2 ^ 31)

/-- EVT WAIT: own counters only. -/
def evtWaitIss (f : RForm) (core : Nat) (x : Core) (s : State) : Iss :=
  evtIss f core x s (fun fl k =>
    let t := (x.s f.rs2).toNat % 2 ^ 32
    if fl ≠ core / 128 then .exc s x 0x0C (x.s f.rs1).toNat 0
    else if evtMet (s.mem.counter fl k) t then .done s x.adv
    else .done s { x.adv with run := .waitEvent k t })

-- Floe DMA issue (R102, R103, R133, R134)

/-- A field of a DMA request by byte offset and size (Table 9 of 04). -/
def dmaF (b off size : Nat) : Nat := bits b (8 * off) (8 * size)

/-- The field checks of Table 9. -/
def dmaFields (b : Nat) : Bool :=
  decide (dmaF b 0 8 < 2 ^ 64) && decide (bits (dmaF b 0 8) 52 12 = 0) && decide (bits (dmaF b 8 8) 52 12 = 0)
    && decide (32 ≤ dmaF b 0x10 4) && decide (dmaF b 0x10 4 ≤ 1048576) && decide (dmaF b 0x10 4 % 32 = 0)
    && decide (1 ≤ dmaF b 0x14 4) && decide (dmaF b 0x14 4 ≤ 65536)
    && decide (dmaF b 0x18 4 % 32 = 0) && decide (dmaF b 0x1C 4 % 32 = 0)
    && fmtLegal (dmaF b 0x20 1) && fmtLegal (dmaF b 0x21 1)
    && (decide (dmaF b 0x22 1 < 64) || decide (dmaF b 0x22 1 = 255)) && decide (dmaF b 0x23 1 < 2) && decide (dmaF b 0x24 12 = 0)

/-- Row `r` of a side: 0 source, 1 destination. -/
def dmaRow (b side r : Nat) : Nat := dmaF b (8 * side) 8 + r * dmaF b (0x18 + 4 * side) 4

/-- Elements of a row, and the length of a destination row, where both are whole (R103, R149). -/
def dmaLen (b : Nat) : Option (Nat × Nat) :=
  let sf := FmtByte.ofNat (dmaF b 0x20 1)
  let df := FmtByte.ofNat (dmaF b 0x21 1)
  if sf = df then some (0, dmaF b 0x10 4)
  else match rowElems sf (dmaF b 0x10 4) with
    | none => none
    | some k => (rowLen df k).map (fun n => (k, n))

/-- An address is in the local window. -/
def isLocal (va : Nat) : Bool := decide (va / 2 ^ 40 = 0xFFF)

/-- Every row of a side that is local lies in the window (R84). -/
def Hub.dmaLocalOk (h : Hub) (core p b side len : Nat) : Bool :=
  !isLocal (dmaF b (8 * side) 8)
    || (List.range (dmaF b 0x14 4)).all (fun r => match h.window core p (dmaRow b side r) len with | .here _ => true | _ => false)

/-- Where a translated side would lead now: none where it does not translate now (the access parks when it is made). -/
def State.peek (s : State) (x : XAcc) : Option Region := (s.translate x).1.map s.hub.region

/-- R103 on the formats of a request: equal, or exactly one side translated and, as far as it translates now, in stack memory. -/
def State.dmaFmtOk (s : State) (core : Nat) (x : Core) (b : Nat) : Bool :=
  if dmaF b 0x20 1 = dmaF b 0x21 1 then true
  else if isLocal (dmaF b 0 8) = isLocal (dmaF b 8 8) then
    -- both sides translated: exactly one of them in stack memory (both local is refused)
    !isLocal (dmaF b 0 8) &&
      (match s.peek (s.hub.coreAcc core x (dmaF b 0 8) .read), s.peek (s.hub.coreAcc core x (dmaF b 8 8) .write) with
        | some a, some c => (a == .stack) != (c == .stack)
        | _, _ => true)
  else
    let src := isLocal (dmaF b 8 8)
    match s.peek (s.hub.coreAcc core x (if src then dmaF b 0 8 else dmaF b 8 8) (if src then .read else .write)) with
    | some a => a == .stack
    | none => true

/-- DEWTAG of a core, if VALID. -/
def Core.tag (x : Core) : Option Nat := if bitAt x.dewtag.toNat 8 then some (bits x.dewtag.toNat 0 8) else none

/-- DMAIS (R133). -/
def dmaisIss (f : RForm) (core : Nat) (x : Core) (s : State) : Iss :=
  let va := (x.s f.rs1).toNat
  let ch := (x.s f.rs2).toNat
  let fl := core / 128
  let p := s.hub.corePart x
  if va / 2 ^ 40 ≠ 0xFFF ∨ va % 16 ≠ 0 ∨ 0x4000 < va % 2 ^ 40 + 48 ∨ 15 < ch then .exc s x 0x07 va 0
  else
    let a := privBase core + va % 2 ^ 40
    let q := tget [] s.hub.sea.dma (16 * fl + ch)
    if s.mem.bad a 48 then .exc s x 0x05 va 0
    else if 4 ≤ q.length then .stall s (.dmaFull ch)
    else
      let b := s.mem.rd a 48
      match dmaLen b with
      | none => .exc s x 0x07 va 0
      | some (_, n) =>
        if !dmaFields b || !s.hub.dmaLocalOk core p b 0 (dmaF b 0x10 4) || !s.hub.dmaLocalOk core p b 1 n || !s.dmaFmtOk core x b then
          .exc s x 0x07 va 0
        else
          let sf := FmtByte.ofNat (dmaF b 0x20 1)
          let df := FmtByte.ofNat (dmaF b 0x21 1)
          let tag := if sf ≠ df ∧ narrows sf df ∧ !isLocal (dmaF b 8 8) then x.tag else none
          if s.hub.halted p tag then .exc s x 0x0B 0 0
          else
            let id := (q.map (·.id)).foldl max 0 + 1
            let r : DmaReq := ⟨core, b, tag, id, [], false, x.launch - 1, false⟩
            afterStores core s
              (.done (s.onHub (fun h => { h with sea := { h.sea with dma := tset [] h.sea.dma (16 * fl + ch) (q ++ [r]) } })) x.adv)

/-- DMAST: the map of busy channels. -/
def dmastIss (f : RForm) (core : Nat) (x : Core) (s : State) : Iss :=
  let m := ((List.range 16).map (fun ch => if tget [] s.hub.sea.dma (16 * (core / 128) + ch) = [] then 0 else 2 ^ ch)).sum
  .done s (x.setS f.rd (BitVec.ofNat 64 m)).adv

/-- DMAWT: until the channel is idle. A channel above 15 does not exist (log entry 26: DMA). -/
def dmawtIss (f : RForm) (core : Nat) (x : Core) (s : State) : Iss :=
  let ch := (x.s f.rs2).toNat
  if 15 < ch then .exc s x 0x07 0 0
  else if tget [] s.hub.sea.dma (16 * (core / 128) + ch) = [] then .done s x.adv
  else .done s { x.adv with run := .waitDma ch }

-- ENDT, TRAP

/-- FLC_FLOE_STATUS.STATE and LAUNCH_ID of a floe follow what runs on it. -/
def Hub.floeSettle (h : Hub) (f : Nat) : Hub :=
  let st := h.get (Reg.flcFloeStatusState f)
  if st = 0 ∨ st = 3 then h
  else match h.sea.launches.find? (fun l => l.2.running.any (fun t => decide (t.1 = f))) with
    | some l => h.sets [(Reg.flcFloeStatusState f, 2), (Reg.flcFloeStatusLaunchId f, l.2.id)]
    | none => h.set (Reg.flcFloeStatusState f) 1

/-- A core of a tile has ended: the tile ends with its last core (R89, R94). -/
def Hub.coreEnded (h : Hub) (k f slot : Nat) (l : Launch) : Hub :=
  let l' : Launch := { l with running := l.running.map (fun t => if t.1 = f ∧ t.2.1 = slot then (t.1, t.2.1, t.2.2.1, t.2.2.2 - 1) else t) }
  let last := l'.running.any (fun t => decide (t.1 = f) && decide (t.2.1 = slot) && decide (t.2.2.2 = 0))
  if last then
    let h : Hub := (slotCores f slot l.tc).foldl (fun (h : Hub) c => h.setCore c { h.core c with run := .idle, launch := 0 }) h
    let l' : Launch := { l' with running := l'.running.filter (fun t => !(decide (t.1 = f) && decide (t.2.1 = slot))), done := l'.done + 1 }
    ((h.setLaunch k l').floeSettle f).launchGone k
  else (h.setLaunch k l').releaseTile f slot l.tc

/-- ENDT (R135): the core's part of the tile ends, its FFLAGS join the launch's flag summary. -/
def endtIss (f : I12Form) (core : Nat) (x : Core) (s : State) : Iss :=
  if f.imm ≠ 0 then .exc s x 0x01 0 0
  else
    afterStores core s <|
      match s.hub.launchOf x with
      | none => .done s { x.adv with run := .ended }
      | some l =>
        let h := s.hub.setCore core { x with run := .ended }
        let h := h.coreEnded (x.launch - 1) (core / 128) x.slot { l with flags := l.flags ||| bits x.fflags.toNat 0 8 }
        .done { s with hub := h } { x.adv with run := (h.core core).run, launch := (h.core core).launch }

/-- TRAP (R140): its code is IMM[15:8]. -/
def trapIss (f : I12Form) (_ : Nat) (x : Core) (s : State) : Iss :=
  if bits f.imm.toNat 0 4 ≠ 0 then .exc s x 0x01 0 0 else .exc s x 0x0A 0 (bits f.imm.toNat 4 8)

/-- NOP. -/
def nopIss (f : I12Form) (_ : Nat) (x : Core) (s : State) : Iss := if f.imm ≠ 0 then .exc s x 0x01 0 0 else .done s x.adv

/-- FENCE.I (R120): earlier stores visible; the instruction cache holds nothing in this model. -/
def fenceIIss (f : I12Form) (core : Nat) (x : Core) (s : State) : Iss := fenceIss (decide (f.imm = 0)) true core x s

/-- Whether a FENCE's reserved fields are zero (Table 5). -/
def fenceLegal (f : I14Form) : Bool := decide (f.imm = 0) && decide (f.rd = 0) && decide (f.rs1 = 0)

-- VQB and VQBX under a tag (R134, R170)

/-- A selected core block offered to Dewpoint. -/
def Hub.dewCore (h : Hub) (core : Nat) (p t : Nat) (xs qs : List Val) : Hub :=
  let fl := core / 128
  let n := tget 0 h.sea.tagged fl + 1
  let h : Hub := { h with sea := { h.sea with tagged := tset 0 h.sea.tagged fl n } }
  if n % 2 ^ h.get (Reg.dewTagSampleLog2 p t) = 0 then h.dewPush (fl / 256) ⟨p, t, xs, qs, 1, fl⟩ else h

/-- VQB and VQBX. -/
def quantIss (esc : Bool) (f : VCForm) (core : Nat) (x : Core) (s : State) : Iss :=
  let p := s.hub.corePart x
  match vQuant esc f x with
  | .exc code addr y =>
    if code ≠ 0x01 ∧ s.hub.halted p x.tag then .exc s x 0x0B 0 0 else .exc s y code addr 0
  | .ok y =>
    if s.hub.halted p x.tag then .exc s x 0x0B 0 0
    else match x.tag with
      | none => .done s y
      | some t =>
        if 24 ≤ p then .done s y
        else .done (s.onHub (·.dewCore core p t (vqbSource f x) (dequantise f.dfmt.toNat (vqbBlock esc f x).1))) y

end Sys2Proof.Machine
end

