-- ==== Sys2Proof/Machine/Floe.lean ====
section
/-! DEFINITION. Floe control (04: R88-R97, R100, R104-R106): launches, tiles, floe resets, floe DMA requests, waiting cores. -/

namespace Sys2Proof.Machine

-- LAUNCH (R88, R93)

/-- The field checks of Table 4 that no other state enters (R88, R93 row 3). -/
def descFields (d : Nat) : Bool :=
  let f (o n : Nat) : Nat := bits d (8 * o) (8 * n)
  let len := f 8 4
  decide (f 0 8 % 64 = 0) && decide (bits (f 0 8) 52 12 = 0)
    && decide (len % 64 = 0) && decide (64 ≤ len) && decide (len ≤ (if bitAt (f 0x1A 2) 0 then 262144 else 16777216))
    && decide (f 0x0C 4 % 4 = 0) && decide (f 0x0C 4 < len)
    && decide (f 0x10 8 % 8 = 0) && decide (f 0x18 2 ≤ 4096) && decide (f 0x18 2 % 8 = 0)
    && (decide (f 0x18 2 ≠ 0) || decide (f 0x10 8 = 0))
    && decide (f 0x1A 2 < 16) && decide (f 0x1C 1 < 4) && decide (f 0x1D 1 < 3) && decide (f 0x1E 2 = 0)
    && decide (1 ≤ f 0x20 4 ∧ f 0x20 4 ≤ 65535) && decide (1 ≤ f 0x24 4 ∧ f 0x24 4 ≤ 65535)
    && decide (1 ≤ f 0x28 4 ∧ f 0x28 4 ≤ 65535) && decide (f 0x20 4 * f 0x24 4 * f 0x28 4 ≤ 2 ^ 32 - 1)
    && decide (f 0x38 8 = 0) && decide (f 0x40 64 ≠ 0)

/-- The floes of a launch's set. -/
def Launch.set (l : Launch) : List Nat := ones 512 (l.f 0x40 64)

/-- A launch that has not been posted uses the LAUNCH_ID in the partition (R358). -/
def Hub.idInUse (h : Hub) (p id : Nat) : Bool :=
  h.sea.launches.any (fun l => decide (l.2.part = p) && decide (l.2.id = id) && !l.2.posted)

/-- A launch not yet queued. -/
def Launch.new (c : QCmd) (p d : Nat) : Launch := ⟨c, p, d, 0, 0, [], [], none, false, 0, 0⟩

/-- The number of a new launch: after the highest. -/
def Hub.nextLaunch (h : Hub) : Nat := h.sea.launches.foldl (fun m l => max m (l.1 + 1)) 0

/-- Rows 3 and 4 of Table 7 on a descriptor that was read; 0 queues the launch. -/
def Hub.launchCheck (h : Hub) (l : Launch) : Nat :=
  if !descFields l.desc || h.idInUse l.part l.id then 0x02
  else if l.flag 1 && decide (l.set.length * (128 / l.tc) < l.total) then 0x02
  else if l.set.all (fun f => h.floeExists f && decide (h.floeOwner f = l.part)) then 0
  else 0x04

/-- The floe whose port reads a launch descriptor: the partition's lowest (log entry 27). -/
def Hub.descFloe (h : Hub) (p : Nat) : Nat := (h.floesOf p).headD 0

/-- LAUNCH (R93): rows 1 and 2, then the descriptor is read, then rows 3 and 4. A parked read leaves the command waiting. -/
def launchCmd (c : QCmd) (s : State) : State :=
  let p := s.hub.cmdPart c
  if c.fn = 0 ∧ 24 ≤ p then s.done c 0x02 0
  else if s.hub.whiteout ∨ s.hub.life = 3 then s.done c 0x0D 0
  else if s.hub.partState p = 4 then s.done c 0x10 0
  else if s.hub.partState p ≠ 2 then s.done c 0x0D 0
  else if cmdHeader c true ≠ 0 ∨ !qz c 0x1A 0x40 ∨ qf c 0x10 8 % 64 ≠ 0 then s.done c 0x02 0
  else
    let f := s.hub.descFloe p
    match s.translate ⟨f / 256, ⟨0, f, qf c 0x18 2⟩, p, p, qf c 0x10 8, .read, .command c⟩ with
    | (none, s) => s
    | (some a, s) =>
      let r := s.hubRead (.part p) a 128 true
      if r.st ≠ 0 then r.s.done c r.st 0
      else if r.bad ≠ 0 then r.s.done c 0x08 0
      else
        let l := Launch.new c p r.v
        let st := r.s.hub.launchCheck l
        if st ≠ 0 then r.s.done c st 0
        else r.s.onHub (fun h => h.setLaunch h.nextLaunch l)

/-- LAUNCH. -/
def execLaunch (cmd : QCmd) (s : State) : Host.Outcome State Fault Refusal := .next (launchCmd cmd s)

-- Tiles (R89-R92)

/-- C of R92. -/
def Launch.codeArea (l : Launch) : Nat := if l.flag 0 then (l.f 8 4 + 4095) / 4096 * 4096 else 0

/-- A master access of a floe for a launch. -/
def Launch.acc (l : Launch) (k f va : Nat) (a : AccKind) : XAcc := ⟨f / 256, ⟨0, f, l.id⟩, l.part, l.part, va, a, .launch k⟩

/-- A copy of `n` bytes at `va` into floe memory, with poison (R92, R104); none where the read is parked. -/
def State.stageIn (s : State) (l : Launch) (k f va n dst : Nat) : Option State × State :=
  if n = 0 then (some s, s)
  else match s.span (l.acc k f va .read) n with
    | (none, s) => (none, s)
    | (some ps, s) =>
      let r := s.readPieces (.part l.part) true ps
      let s := { r.s with mem := r.s.mem.storeBits dst n r.v (shiftBad va dst n r.bad) }
      (some s, s)

/-- A floe prepared for a launch (R92): private memories zeroed, the kernel area zeroed on demand, code and arguments copied. -/
def State.prepare (s : State) (l : Launch) (k f : Nat) : Option State × State :=
  let c := l.codeArea
  let argAt := floeHpa f + 0x100000 - c - 0x1000
  match s.stageIn l k f (l.f 0 8) (if l.flag 0 then l.f 8 4 else 0) (floeHpa f + 0x100000 - c) with
  | (none, s) => (none, s)
  | (some _, s) =>
    match s.stageIn l k f (l.f 0x10 8) (l.f 0x18 2) argAt with
    | (none, s) => (none, s)
    | (some _, s) =>
      let m := s.mem.zero (privBase (128 * f)) (128 * 0x4000)
      let m := if l.flag 3 then m.zero (floeHpa f) (0x100000 - c - 0x1000) else m
      let s := { s with mem := m }
      (some s, s)

/-- Core state at tile start (Table 6 of 04; R111). -/
def Launch.core (l : Launch) (k f slot tile i : Nat) : Core :=
  let c := l.codeArea
  let gx := l.f 0x20 4
  let gy := l.f 0x24 4
  let x := { Core.rst with
    pc := BitVec.ofNat 32 (l.f 0x0C 4), srstate := BitVec.ofNat 64 (srConst ^^^ (tile * 128 ||| i)), run := if l.flag 1 then .coWait else .ready,
    launch := k + 1, tile := tile, slot := slot }
  let w (n v : Nat) (x : Core) : Core := x.setS (BitVec.ofNat 5 n) (BitVec.ofNat 64 v)
  w 9 (0x100000 - c - 0x1000) (w 8 l.id (w 7 f (w 6 slot (w 5 i (w 4 (tile / (gx * gy)) (w 3 (tile / gx % gy) (w 2 (tile % gx)
    (w 1 (0xFFF0100000000 + (0x100000 - c - 0x1000)) x))))))))

/-- A free slot of a floe for a launch. -/
def Launch.freeSlot (l : Launch) (f : Nat) : Option Nat :=
  findLow (128 / l.tc) (fun s => !l.running.any (fun t => decide (t.1 = f) && decide (t.2.1 = s)))

/-- Another launch holds the floe, or stands before this one in its queue (R91). -/
def Hub.floeHeld (h : Hub) (k f : Nat) (l : Launch) : Bool :=
  h.sea.launches.any (fun o =>
    decide (o.1 ≠ k) &&
      (o.2.running.any (fun t => decide (t.1 = f))
        || (o.2.status.isNone && decide (o.2.next < o.2.total) &&
          (kmem o.2.prepared f
            || (decide (o.1 < k) && decide (o.2.cmd.fn = l.cmd.fn) && decide (o.2.cmd.q = l.cmd.q) && kmem o.2.set f)))))

/-- SERIAL holds the launch back until the previous one of its queue has completed (R91). -/
def Hub.serialHeld (h : Hub) (k : Nat) (l : Launch) : Bool :=
  l.flag 2 && h.sea.launches.any (fun o =>
    decide (o.1 < k) && decide (o.2.cmd.fn = l.cmd.fn) && decide (o.2.cmd.q = l.cmd.q) && !o.2.posted)

/-- A tile may start on a floe. -/
def Hub.canStart (h : Hub) (k f : Nat) (l : Launch) : Bool :=
  l.status.isNone && decide (l.next < l.total) && kmem l.set f && decide (h.partState l.part = 2 ∨ h.partState l.part = 3)
    && (decide (h.get (Reg.flcFloeStatusState f) = 1) || decide (h.get (Reg.flcFloeStatusState f) = 2))
    && !h.floeHeld k f l && !h.serialHeld k l

/-- The cores of a tile set up, the tile listed (R89). -/
def Hub.dealTile (h : Hub) (k f slot : Nat) (l : Launch) : Hub :=
  let h := (List.range l.tc).foldl (fun (h : Hub) i => h.setCore (128 * f + slot * l.tc + i) (l.core k f slot l.next i)) h
  let l' : Launch := { l with next := l.next + 1, running := l.running ++ [(f, slot, l.next, l.tc)], prepared := kadd l.prepared f }
  let h : Hub := { h.setLaunch k l' with sea := { (h.setLaunch k l').sea with gated := kdel h.sea.gated f } }
  let h := h.floeSettle f
  -- CO_RESIDENT: the last tile of the grid starts them all (R90)
  if l.flag 1 ∧ l'.next = l.total then
    l'.running.foldl (fun (h : Hub) t =>
      (slotCores t.1 t.2.1 l.tc).foldl (fun (h : Hub) c => if (h.core c).run = .coWait then h.setCore c { h.core c with run := .ready } else h) h) h
  else h

/-- TILE_START (R89-R92): the launch's next tile in the lowest free slot of a floe of its set. -/
def execTileStart (launch : Nat) (floe : BitVec 9) (s : State) : Host.Outcome State Fault Refusal :=
  let f := floe.toNat
  if !s.hub.floeExists f then .fault .noSuchUnit
  else match tlook s.hub.sea.launches launch with
    | none => .next s
    | some l =>
      match (if s.hub.canStart launch f l then l.freeSlot f else none) with
      | none => .next s
      | some slot =>
        if kmem l.prepared f then .next (s.onHub (fun h => h.dealTile launch f slot l))
        else match s.prepare l launch f with
          | (none, s) => .next s
          | (some _, s) =>
            match tlook s.hub.sea.launches launch with
            | none => .next s
            | some l => .next (s.onHub (fun h => h.dealTile launch f slot l))

-- Ends (R94-R97)

/-- Floe DMA of a launch is outstanding. -/
def Hub.dmaOf (h : Hub) (k : Nat) : Bool := h.sea.dma.any (fun d => d.2.any (fun r => decide (r.launch = k)))

/-- LAUNCH_COMPLETE (R94): the last tile has ended and its writes are visible. The completion is posted, then EVENT_VA gets its add
(log entry 28: only with OK). -/
def execLaunchComplete (launch : Nat) (s : State) : Host.Outcome State Fault Refusal :=
  match tlook s.hub.sea.launches launch with
  | none => .next s
  | some l =>
    if l.status.isSome ∨ l.next ≠ l.total ∨ l.running ≠ [] ∨ s.hub.dmaOf launch then .next s
    else if l.f 0x30 8 = 0 then .next (s.onHub (fun h => h.launchPost launch 0))
    else match s.translate (l.acc launch (l.set.headD 0) (l.f 0x30 8) .write) with
      | (none, s) => .next s
      | (some a, s) => .next ((s.onHub (fun h => h.launchPost launch 0)).eventAdd a)

/-- LAUNCH_TIMEOUT (R95): TIMEOUT_US is set and a tile has started. -/
def execLaunchTimeout (launch : Nat) (s : State) : Host.Outcome State Fault Refusal :=
  match tlook s.hub.sea.launches launch with
  | none => .next s
  | some l =>
    if l.status.isSome ∨ l.next = 0 ∨ l.f 0x2C 4 = 0 then .next s
    else .next (s.onHub (fun h => (h.event Reg.flcEventTimeout).launchStop launch 0x06))

/-- LAUNCH_ABORT (R95, R96). -/
def execLaunchAbort (cmd : QCmd) (s : State) : Host.Outcome State Fault Refusal :=
  let st := s.hub.cmdCheck cmd true
  if st ≠ 0 then .next (s.done cmd st 0)
  else if !qz cmd 0x10 0x18 ∨ !qz cmd 0x1A 0x40 then .next (s.done cmd 0x02 0)
  else
    let p := s.hub.cmdPart cmd
    let k := s.hub.sea.launches.find? (fun l => decide (l.2.part = p) && decide (l.2.id = qf cmd 0x18 2) && l.2.status.isNone)
    let s := match k with
      | some (k, _) => s.onHub (fun h => h.launchStop k 0x07)
      | none => s
    .next (s.done cmd 0 0)

/-- FLOE_RESET_DONE (R97): the floe stands idle again, or power-gated where it belongs to no partition (R106). -/
def execFloeResetDone (floe : BitVec 9) (s : State) : Host.Outcome State Fault Refusal :=
  let f := floe.toNat
  if !s.hub.floeExists f then .fault .noSuchUnit
  else if s.hub.get (Reg.flcFloeStatusState f) ≠ 3 then .next s
  else .next (s.onHub (fun h => h.set (Reg.flcFloeStatusState f) (if h.floeOwner f < 24 then 1 else 0)))

/-- A write of 1 to FLC_FLOE_CTRL.RESET: honoured only on an idle floe. -/
def Hub.floeCtrl (h : Hub) (f : Nat) : Hub :=
  if h.floeExists f ∧ h.get (Reg.flcFloeStatusState f) = 1 then h.floeReset f else h.event Reg.flcEventResetRefused

/-- FLOE_CTRL_RESET (FLC_FLOE_CTRL.RESET): honoured only on an idle floe. -/
def execFloeCtrlReset (floe : BitVec 9) (s0 : State) : Host.Outcome State Fault Refusal :=
  let s := s0.wroteBy 0
  hubStep (·.floeCtrl floe.toNat) s

/-- FLOE_IDLE_GATE (R106): an idle floe's clock is gated. -/
def execFloeIdleGate (floe : BitVec 9) (s : State) : Host.Outcome State Fault Refusal :=
  let f := floe.toNat
  if !s.hub.floeExists f then .fault .noSuchUnit
  else if s.hub.get (Reg.flcFloeStatusState f) ≠ 1 then .next s
  else .next (s.onHub (fun h => { h with sea := { h.sea with gated := kadd h.sea.gated f } }))

/-- FLOE_FREQ_CHANGE (R105, R423): 0.6 to 1.5 GHz; the floe keeps all its state. -/
def execFloeFreqChange (floe : BitVec 9) (freq : BitVec 4) (s : State) : Host.Outcome State Fault Refusal :=
  let f := floe.toNat
  if !s.hub.floeExists f then .fault .noSuchUnit
  else if freq.toNat < 6 then .next s
  else .next (s.onHub (·.floeFreq f freq.toNat))

/-- EVT_WAIT_WAKE (R100): a waiting core runs on once its counter meets its target. -/
def execEvtWaitWake (c : CoreId) (s : State) : Host.Outcome State Fault Refusal :=
  let n := coreNum c
  if !s.hub.floeExists c.floe.toNat then .fault .noSuchUnit
  else match (s.hub.core n).run with
    | .waitEvent k t =>
      if evtMet (s.mem.counter c.floe.toNat k) t then .next (s.onHub (fun h => h.readyCores [n])) else .next s
    | _ => .next s

-- Floe DMA (R102-R104)

/-- A side of a DMA row resolved: pieces, and whether they lie in stack memory. None: parked. -/
def State.dmaSide (s : State) (f ch : Nat) (r : DmaReq) (p id va n : Nat) (k : AccKind) : Option (List (Nat × Nat) × Bool) × State :=
  match s.hub.window r.core p va n with
  | .here a => (some ([(a, n)], false), s)
  | .undef => (some ([], false), s)
  | .xlat =>
    match s.span ⟨f / 256, ⟨0, f, id⟩, p, p, va, k, .dma f ch⟩ n with
    | (none, s) => (none, s)
    | (some l, s) => (some (l, match l with | (a, _) :: _ => s.hub.region a == .stack | [] => false), s)

/-- A row ready to be written: destination pieces, bytes, poison. -/
structure DmaOut where
  dst : List (Nat × Nat)
  n : Nat
  v : Nat
  bad : Nat

/-- Private memory and floe memory by address, everything else as the hub sees it. -/
def State.dmaRead (s : State) (p : Nat) (x : RemCtx) (got : List (Nat × Nat × Bool)) (l : List (Nat × Nat)) : RGot :=
  match l with
  | [(a, n)] => if 2 ^ 48 ≤ a then .ok s 0 (s.mem.rd a n) (s.mem.badBits a n) else s.readAny (.part p) true x got l
  | l => s.readAny (.part p) true x got l

/-- The rows of a request read and converted, from row `r` on: none where something parks or waits (the request is tried again). -/
def State.dmaRows (n r : Nat) (s : State) (f ch : Nat) (q : DmaReq) (p id : Nat) : Option (List DmaOut) × State :=
  match n with
  | 0 => (some [], s)
  | n + 1 =>
    let sfB := dmaF q.body 0x20 1
    let dfB := dmaF q.body 0x21 1
    let sva := dmaRow q.body 0 r
    let dva := dmaRow q.body 1 r
    let k := if sfB = dfB then 0 else (rowElems (.ofNat sfB) (dmaF q.body 0x10 4)).getD 0
    match s.dmaSide f ch q p id sva (dmaF q.body 0x10 4) .read with
    | (none, s) => (none, s)
    | (some (sp, ss), s) =>
      match s.dmaSide f ch q p id dva 32 .write with
      | (none, s) => (none, s)
      | (some (_, ds), s) =>
        match (if sfB ≠ dfB ∧ ss = ds then .refuse 0x04 else s.hub.rowPlan p q.tag sva ss dva ds sfB dfB : RowPlan) with
        | .wait => (none, s)
        | .refuse _ => State.dmaRows n (r + 1) s f ch q p id
        | .go sf df whole =>
          let k := if whole then 1024 else k
          let n1 := if sf = df ∧ !whole then dmaF q.body 0x10 4 else (rowLen (.ofNat sf) k).getD 0
          let n2 := if sf = df ∧ !whole then n1 else (rowLen (.ofNat df) k).getD 0
          let src : Option (List (Nat × Nat)) × State :=
            if n1 = dmaF q.body 0x10 4 then (some sp, s)
            else match s.dmaSide f ch q p id sva n1 .read with
              | (some (l, _), s) => (some l, s)
              | (none, s) => (none, s)
          match src with
          | (none, s) => (none, s)
          | (some sp, s) =>
            match s.dmaSide f ch q p id dva n2 .write with
            | (none, s) => (none, s)
            | (some (dp, _), s) =>
              match s.dmaRead p ⟨.dma f ch q.id, p, f / 256⟩ q.got sp with
              | .wait s =>
                -- later rows ask too, and the request waits for them all
                (none, (State.dmaRows n (r + 1) s f ch q p id).2)
              | .ok s _ v bad =>
                let c := convertRow (.ofNat sf) (.ofNat df) v k sva dva ss .rne
                let bad' := if sf = df then shiftBad sva dva n2 bad else convBad (.ofNat sf) (.ofNat df) k sva dva bad
                let s := s.dewConv p q.tag (.ofNat sf) (.ofNat df) ss (if ss then sva else dva)
                  ((match (if ss then sp else dp) with | (a, _) :: _ => a | [] => 0)) c
                match State.dmaRows n (r + 1) s f ch q p id with
                | (none, s) => (none, s)
                | (some l, s) => (some (⟨dp, n2, c.out, bad'⟩ :: l), s)

/-- A row written. -/
def State.dmaWrite (s : State) (p : Nat) (x : RemCtx) (o : DmaOut) : State :=
  match o.dst with
  | [(a, n)] =>
    if 2 ^ 48 ≤ a then { s with mem := s.mem.storeBits a n o.v o.bad } else (s.writeAny (.part p) true x o.v o.bad o.dst).2
  | _ => (s.writeAny (.part p) true x o.v o.bad o.dst).2

/-- A request is finished (R104): its event is added, and cores that waited for the channel run on. -/
def State.dmaDone (s : State) (f ch : Nat) (q : DmaReq) : State :=
  let l := (tget [] s.hub.sea.dma (16 * f + ch)).filter (fun r => !decide (r.id = q.id))
  let e := dmaF q.body 0x22 1
  let s := s.onHub (fun h =>
    let h : Hub := { h with sea := { h.sea with dma := tset [] h.sea.dma (16 * f + ch) l } }
    h.readyCores ((List.range 128).filterMap (fun i =>
      let c := 128 * f + i
      if (h.core c).run = .dmaFull ch ∨ ((h.core c).run = .waitDma ch ∧ l = []) then some c else none)))
  if e < 64 then s.eventAdd (eventHpa f e) else s

/-- DMA_COMPLETE (R104): request `i` of a channel moves its rows and completes, unless ORDERED holds it behind earlier requests, or an
access parks, waits at the port, or waits for a peer. -/
def execDmaComplete (floe : BitVec 9) (ch : BitVec 4) (i : BitVec 2) (s : State) : Host.Outcome State Fault Refusal :=
  let f := floe.toNat
  if !s.hub.floeExists f then .fault .noSuchUnit
  else match (tget [] s.hub.sea.dma (16 * f + ch.toNat))[i.toNat]? with
    | none => .next s
    | some q =>
      let w : RemWho := .dma f ch.toNat q.id
      let p := match tlook s.hub.sea.launches q.launch with | some l => l.part | none => 31
      let id := match tlook s.hub.sea.launches q.launch with | some l => l.id | none => 0
      if bitAt (dmaF q.body 0x23 1) 0 ∧ i ≠ 0 then .next s
      else if q.wrote then (if s.hub.anyOut w then .next s else .next (s.dmaDone f ch.toNat q))
      else
        let n := dmaF q.body 0x10 4 * dmaF q.body 0x14 4
        let adm := if q.paid then (true, s.hub) else s.hub.admitReq (floePort f) n (.dma f ch.toNat q.id n)
        let s : State := { s with hub := adm.2 }
        if !adm.1 then .next s
        else
          let s := s.onHub (fun h => h.onDma f ch.toNat q.id (fun r => { r with paid := true }))
          match State.dmaRows (dmaF q.body 0x14 4) 0 s f ch.toNat q p id with
          | (none, s) => .next s
          | (some l, s) =>
            let s := l.foldl (fun s o => s.dmaWrite p ⟨w, p, f / 256⟩ o) s
            let s := s.onHub (fun h => l.foldl (fun h o => match o.dst with
              | (a, _) :: _ => if 2 ^ 48 ≤ a then h else h.qosCount (floePort f) a o.n true
              | [] => h) h)
            if s.hub.anyOut w then .next (s.onHub (fun h => h.onDma f ch.toNat q.id (fun r => { r with wrote := true })))
            else .next (s.dmaDone f ch.toNat q)

end Sys2Proof.Machine
end

