-- ==== Sys2Proof/Machine/Walks.lean ====
section
/-! DEFINITION. Walks, faults and their records (11: R252, R253, R260-R274): walks that a row starts, fault records and queues, the park
buffer, XLT_INVALIDATE and XLT_RESUME, address spaces and grants. -/

namespace Sys2Proof.Machine

-- What a released access does

/-- A queue command whose read was parked runs again (R358). -/
def State.cmdAgain (s : State) (c : QCmd) : State :=
  match qf c 0 1 with
  | 0x01 => launchCmd c s
  | 0x03 => streamOpenCmd c s
  | 0x41 => groupCreateCmd c s
  | 0x50 => s.installAgain c
  | _ => s

/-- A queue command whose read was refused (R358, Table 12). -/
def State.cmdRefused (s : State) (c : QCmd) : State :=
  match qf c 0 1 with
  | 0x01 => s.done c 0x07 0
  | 0x50 => s.installRefused c 0x05
  | _ => s.done c 0x05 0

/-- An engine's request or event looks again. -/
def State.engWake (s : State) (e rtag : Nat) : State := if 4096 ≤ rtag then s.pumpEvts (e / 8) else s.wakeEng e rtag

/-- An access is translated: its master goes on. Masters whose rows the environment sends again do so at their next row. -/
def State.wake (s : State) (w : Waiter) : State :=
  match w with
  | .core c => s.onHub (fun h => if (h.core c).run = .parked then h.readyCores [c] else h)
  | .launch _ => s
  | .dma _ _ => s
  | .engine e rtag => s.engWake e rtag
  | .stream n _ => s.streamFlush n
  | .migration _ _ => s
  | .collective g => s.colWork g
  | .command c => s.cmdAgain c
  | .walk => s

/-- The access of a parked transaction under its fault. -/
def Fault11.access (f : Fault11) (a : Parked) : XAcc := ⟨a.die, a.master, f.part, f.asid, a.va, a.acc, a.who⟩

/-- An access walks again (R273): it goes on, or parks again. -/
def State.xltRetry (s : State) (x : XAcc) : State :=
  match s.translate x with
  | (none, s) => s
  | (some _, s) => s.wake x.who

/-- A refused access of a core: ACCESS (0x04), with the word and the address it stalled at. -/
def Hub.coreRefused (h : Hub) (c : Nat) : Hub :=
  let x := h.core c
  if x.run = .parked then h.coreExc c 0x04 x.stalled.1 x.stalled.2 0 (bits x.fflags.toNat 0 8) else h

/-- REFUSE of one access (Table 12). -/
def State.xltRefuse (s : State) (f : Fault11) (x : XAcc) : State :=
  match x.who with
  | .core c => s.onHub (·.coreRefused c)
  | .launch k => s.onHub (·.launchStop k 0x07)
  | .dma g ch => s.onHub (fun h =>
      match (tget [] h.sea.dma (16 * g + ch)).head? with
      | none => h
      | some q => if (h.core q.core).launch = q.launch + 1 then h.coreExc q.core 0x04 0 x.va 0 0 else h.launchStop q.launch 0x07)
  | .engine e rtag =>
    if 4096 ≤ rtag then
      match (s.hub.site (e / 8)).evts.find? (fun v => decide (v.e = e) && decide (v.id = rtag - 4096)) with
      | none => s
      | some v => s.onHub (fun h => (h.cplErr e).evtDone v)
    else
      match s.hub.engReq e rtag with
      | none => s
      | some r => (s.onHub (·.answerSt r 0x05)).pumpEvts (e / 8)
  | .stream n ix => (s.onHub (fun h => h.onDesc n ix (fun d => d.finish 0x05 0))).streamFlush n
  | .migration _ _ => s.onHub (·.openFault x f.cause f.level f.entry f.entryHpa)
  | .collective g => s.onHub (·.colAbort g 0x05)
  | .command c => s.cmdRefused c
  | .walk => s

-- Walks

/-- Partition of the master of a walk request (R270); 31 where it belongs to none. -/
def Hub.reqPart (h : Hub) (r : XltReq) : Nat :=
  match r.kind.toNat with
  | 0 => if h.floeExists r.port.toNat then h.floeOwner r.port.toNat else 31
  | 1 => if r.port.toNat < 128 then h.engOwner r.port.toNat else 31
  | 2 => r.port.toNat
  | 3 => r.port.toNat
  | 4 => if r.port.toNat < 24 then r.asid.toNat else 31
  | _ => 31

/-- The die of the master of a walk request. -/
def reqDie (die : Nat) (r : XltReq) : Nat :=
  match r.kind.toNat with
  | 0 => r.port.toNat / 256
  | 1 => r.port.toNat / 64
  | 4 => r.port.toNat / 12
  | _ => die

/-- The access of a walk request, where such a master can have issued it (R251, R252). -/
def Hub.walkAcc (h : Hub) (die : Nat) (r : XltReq) : Option XAcc :=
  let p := h.reqPart r
  let k := match r.acc.toNat with | 0 => some AccKind.read | 1 => some AccKind.write | 2 => some AccKind.atomic | _ => none
  match k with
  | none => none
  | some k =>
    if p < 24 ∧ h.holds p ∧ die < h.dies ∧ reqDie die r = die ∧ (if r.kind = 1 then h.granted r.port.toNat r.asid.toNat else r.asid.toNat = p) then
      some ⟨die, ⟨r.kind.toNat, r.port.toNat, r.context.toNat⟩, p, r.asid.toNat, r.va.toNat, k, .walk⟩
    else none

/-- A walk in flight that begins for an access. -/
def Hub.walkBegin (h : Hub) (x : XAcc) : Hub :=
  let f := h.walkFrom x.die x.asid x.va
  let w : Walk := ⟨x.die, x.master.local', x.asid, x.part, x.va, x.acc, f.1, f.2, false, x.master, [], x.who⟩
  let h := h.wrap (Reg.xltPerfWalksCount x.die) 1
  { h with xlt := { h.xlt with walks := h.xlt.walks ++ [w] } }

/-- Walkers in use on a die, and by one of its ports. -/
def Hub.walksOf (h : Hub) (die : Nat) : Nat := (h.xlt.walks.filter (fun w => decide (w.die = die))).length
/-- Walks of a port. -/
def Hub.portWalks (h : Hub) (die port : Nat) : Nat := (h.xlt.walks.filter (fun w => decide (w.die = die) && decide (w.port = port))).length

/-- A TLB miss goes to a walker (R261, R268): behind a held access it waits at its port, at an open fault it parks, at a walk in
flight it joins; a free walker starts. -/
def Hub.walkStart (h : Hub) (x : XAcc) : Hub :=
  if h.portHeld x then h.holdAt x 0 0 0 0
  else match h.faultFor x with
  | some f => if 512 ≤ h.parkedIn x.die then h.holdAt x f.cause f.level f.entry f.entryHpa else h.parkUnder f x
  | none =>
    if x.va / 2 ^ 52 = 0 ∧ ((h.tlbGet x.utlb x.asid x.va).isSome ∨ (h.tlbGet x.stlb x.asid x.va).isSome) then h
    else match h.walkFor x with
    | some w => (h.wrap (Reg.xltPerfStlbMissCount x.die) 1).joinWalk w x
    | none =>
      if 64 ≤ h.walksOf x.die ∨ 8 ≤ h.portWalks x.die x.master.local' then h
      else
        let h := h.wrap (Reg.xltPerfStlbMissCount x.die) 1
        if x.va / 2 ^ 52 ≠ 0 then h.openFault x 0x06 3 0 0
        else if !h.on (Reg.xltAsValid x.asid) then h.openFault x 0x05 3 0 0
        else h.walkBegin x

/-- WALK_START (R253, R261). -/
def execWalkStart (die : BitVec 1) (r : XltReq) (s : State) : Host.Outcome State Fault Refusal :=
  match s.hub.walkAcc die.toNat r with
  | none => .next s
  | some x => hubStep (·.walkStart x) s

/-- The access of a walk. -/
def Walk.access (w : Walk) : XAcc := ⟨w.die, w.master, w.part, w.asid, w.va, w.acc, w.who⟩

/-- The accesses that joined a walk. -/
def Walk.others (w : Walk) : List XAcc := w.joined.map (fun j => ⟨w.die, j.1, w.part, w.asid, j.2.1, j.2.2.1, j.2.2.2⟩)

/-- A walk leaves its walker. -/
def Hub.walkEnd (h : Hub) (w : Walk) : Hub := { h with xlt := { h.xlt with walks := h.xlt.walks.erase w } }

/-- A walk goes on with the table of the next level. -/
def Hub.walkOn (h : Hub) (w : Walk) (level t : Nat) : Hub :=
  { h with xlt := { h.xlt with walks := h.xlt.walks.map (fun y => if y = w then { y with level := level, table := t, stale := false } else y) } }

/-- A walk whose result an invalidation discards (R265): the access walks again. -/
def Hub.walkAgain (h : Hub) (w : Walk) : Hub :=
  if h.on (Reg.xltAsValid w.asid) then
    let f := h.walkFrom w.die w.asid w.va
    (h.wrap (Reg.xltPerfWalksCount w.die) 1).walkOn w f.1 f.2
  else h

/-- A walk that ends in a fault: its access opens the fault; those that joined park under it where they may, else walk again. -/
def State.walkFault (s : State) (w : Walk) (cause level entry ea : Nat) : State :=
  let s := s.onHub (fun h => (h.walkEnd w).openFault w.access cause level entry ea)
  w.others.foldl (fun s x => s.xltRetry x) s

/-- One table read of a walk in flight (R253). -/
def State.walkReturn (s : State) (w : Walk) : State :=
  if w.stale then
    (if s.hub.on (Reg.xltAsValid w.asid) then s.onHub (·.walkAgain w) else s.walkFault w 0x05 3 0 0)
  else match s.walkRead (s.hub.get (Reg.xltAsPartition w.asid)) w.va w.level w.acc.rights w.table with
    | (.table t, s) =>
      s.onHub (fun h => (h.cacheWalk ⟨w.die, w.asid, w.level - 1, w.va / 2 ^ (25 + 9 * (w.level - 1)), t⟩).walkOn w (w.level - 1) t)
    | (.leaf base log2 rights e, s) =>
      let ea := w.table + 8 * bits w.va (16 + 9 * w.level) 9
      let s := s.onHub (fun h => (h.walkEnd w).tlbInstall w.access base log2 rights w.level e ea)
      (w.access :: w.others).foldl (fun s x => s.xltRetry x) s
    | (.fault cause level e ea, s) => s.walkFault w cause level e ea

/-- TABLE_READ_RETURN (R253, R260, R265, R267). -/
def execTableReadReturn (die : BitVec 1) (asid : BitVec 12) (page : BitVec 36) (s : State) : Host.Outcome State Fault Refusal :=
  match s.hub.xlt.walks.find? (fun w => decide (w.die = die.toNat) && decide (w.asid = asid.toNat) && decide (pageOf w.va = page.toNat)) with
  | none => .next s
  | some w => .next (s.walkReturn w)

-- Fault records and queues (R269-R271)

/-- The fault queue of a partition takes a record now (R271). -/
def Hub.fqOpen (h : Hub) (p : Nat) : Bool :=
  h.on (Reg.xltFqCtrlEnable p) && decide (diff32 (h.get (Reg.xltFqPiCount p)) (h.get (Reg.xltFqCiCount p)) ≠ 2 ^ h.get (Reg.xltFqCtrlLog2 p))

/-- The 64 bytes of a fault record (Table 10) at index `pi` of a queue of 2^`n`, written at time `t`. -/
def Fault11.bytes (f : Fault11) (pi n t : Nat) : List Byte :=
  leBytes 1 f.cause ++ leBytes 1 ((1 - pi / 2 ^ n % 2) + 2 * f.flags + 16 * f.die) ++ leBytes 2 f.asid ++ leBytes 1 f.level ++ leBytes 1 f.master.kind
    ++ leBytes 2 f.master.port ++ leBytes 8 f.va ++ leBytes 8 f.entry ++ leBytes 8 f.entryHpa ++ leBytes 8 f.engines ++ leBytes 2 f.parked
    ++ leBytes 2 0 ++ leBytes 4 f.id ++ leBytes 8 t ++ leBytes 4 f.master.context ++ leBytes 4 0

/-- An open fault changed. -/
def Hub.onFault (h : Hub) (f : Fault11) (g : Fault11 → Fault11) : Hub :=
  { h with xlt := { h.xlt with faults := h.xlt.faults.map (fun y => if y.die = f.die ∧ y.slot = f.slot then g y else y) } }

/-- A fault record written to its queue (R269, R270), with its event and vectors. -/
def State.fqWrite (s : State) (f : Fault11) : State :=
  let p := f.part
  let pi := s.hub.get (Reg.xltFqPiCount p)
  let n := s.hub.get (Reg.xltFqCtrlLog2 p)
  let t := s.hub.now
  let r := ({ s with hub := t.2 } : State).hubWrite (.part p) (s.hub.get (Reg.xltFqBaseHpa p) + 64 * (pi % 2 ^ n)) 64 (leNat (f.bytes pi n t.1)) 0 false
  r.s.onHub (fun h =>
    (((h.onFault f (fun y => { y with written := true, pendingRec := false })).set (Reg.xltFqPiCount p) (pi + 1)).event Reg.xltEventFault).raiseVf p 0)

/-- The oldest pending record of a partition. -/
def Hub.fqNext (h : Hub) (p : Nat) : Option Fault11 := h.xlt.faults.find? (fun f => decide (f.part = p) && f.pendingRec)

/-- Pending records written in order as space appears (R271). -/
def State.fqGo (n : Nat) (s : State) (p : Nat) : State :=
  match n with
  | 0 => s
  | n + 1 =>
    match s.hub.fqNext p with
    | none => s
    | some f => if s.hub.fqOpen p then State.fqGo n (s.fqWrite f) p else s

/-- Pending records of a partition written as far as there is space. -/
def State.fqPump (s : State) (p : Nat) : State := State.fqGo s.hub.xlt.faults.length s p

/-- A record that finds its queue full or disabled waits (R271). -/
def Hub.fqPend (h : Hub) (f : Fault11) : Hub :=
  let h := (h.onFault f (fun y => { y with pendingRec := true })).set (Reg.xltFqStatusOvfSeen f.part) 1
  (h.record { code := 0x0504, cls := 0, part := f.part, inst := f.asid, die := f.die, d0 := f.va, d1 := f.id }).event Reg.xltEventOverflow

/-- FAULT_RECORD_WRITE (R269-R271): records of one partition go in the order in which their faults opened. -/
def execFaultRecordWrite (die : BitVec 1) (slot : BitVec 9) (s : State) : Host.Outcome State Fault Refusal :=
  match s.hub.xlt.faults.find? (fun f => decide (f.die = die.toNat) && decide (f.slot = slot.toNat)) with
  | none => .next s
  | some f =>
    if f.written ∨ f.pendingRec then .next s
    else if s.hub.xlt.faults.find? (fun y => decide (y.part = f.part) && !y.written && !y.pendingRec) ≠ some f then .next s
    else if s.hub.fqOpen f.part ∧ (s.hub.fqNext f.part).isNone then .next (s.fqWrite f)
    else hubStep (·.fqPend f) s

/-- FQ_CI_WRITE (R271): space appears, and pending records are written. -/
def State.fqCi (s : State) (fn part ci : Nat) : State :=
  let p := s.hub.tagPart fn part
  if p < 24 then (s.onHub (·.set (Reg.xltFqCiCount p) ci)).fqPump p else s

/-- FQ_CI_WRITE. -/
def execFqCiWrite (fn : BitVec 6) (part : BitVec 5) (ci : BitVec 32) (s0 : State) : Host.Outcome State Fault Refusal :=
  let s := s0.wroteBy fn.toNat
  .next (s.fqCi fn.toNat part.toNat ci.toNat)

-- The park buffer (R272)

/-- The access that a held entry stands for. -/
def HeldAcc.access (a : HeldAcc) : XAcc := ⟨a.die, a.master, a.part, a.asid, a.va, a.acc, a.who⟩

/-- PARK_ADMIT (R272): the oldest held access of a die enters a freed slot, opening or joining its fault; accesses behind it at its
port go on. -/
def State.parkAdmit (s : State) (d : Nat) : State :=
  if 512 ≤ s.hub.parkedIn d then s
  else match s.hub.xlt.held.find? (fun a => decide (a.die = d)) with
  | none => s
  | some a =>
    let x := a.access
    let port (b : HeldAcc) : Bool := decide (b.die = d) && (b.master.local' == a.master.local')
    let behind := (s.hub.xlt.held.filter port).drop 1
    let left := s.hub.xlt.held.filter (fun b => !port b)
    let s := s.onHub (fun h =>
      let h : Hub := { h with xlt := { h.xlt with held := left } }
      let h := match h.faultFor x with | some f => h.parkUnder f x | none => h.openFault x a.cause a.level a.entry a.entryHpa
      { h with xlt := { h.xlt with episode := if h.xlt.held.any (fun b => decide (b.die = d)) then h.xlt.episode else kdel h.xlt.episode d } })
    behind.foldl (fun s b => s.xltRetry b.access) s

/-- PARK_ADMIT. -/
def execParkAdmit (die : BitVec 1) (s : State) : Host.Outcome State Fault Refusal := .next (s.parkAdmit die.toNat)

-- XLT_RESUME (R273, R274)

/-- XLT_RESUME. -/
def xltResumeCmd (c : QCmd) (s : State) : State :=
  let st := s.hub.cmdCheck c false
  if st ≠ 0 then s.done c st 0
  else if 2 ≤ qf c 0x14 1 ∨ !qz c 0x15 0x40 then s.done c 0x02 0
  else match s.hub.xlt.faults.find? (fun f => decide (f.id = qf c 0x10 4) && f.written && (decide (c.fn = 0) || decide (f.part = s.hub.vfOwner c.fn))) with
    | none => s.done c 0x20 0
    | some f =>
      let mine := s.hub.xlt.parked.filter (fun a => decide (a.die = f.die) && decide (a.slot = f.slot))
      let x := s.hub.xlt
      let s := s.onHub (fun h => { h with xlt := { x with
        faults := x.faults.filter (fun y => !(decide (y.die = f.die) && decide (y.slot = f.slot)))
        parked := x.parked.filter (fun a => !(decide (a.die = f.die) && decide (a.slot = f.slot))) } })
      let s := mine.foldl (fun s a => if qf c 0x14 1 = 0 then s.xltRetry (f.access a) else s.xltRefuse f (f.access a)) s
      s.done c 0 0

/-- XLT_RESUME. -/
def execXltResume (cmd : QCmd) (s : State) : Host.Outcome State Fault Refusal := .next (xltResumeCmd cmd s)

-- Invalidation (R264-R266)

/-- The scope of an invalidation: address spaces, and for a range at most 1 GiB its addresses. -/
structure XScope where
  asid : Nat
  scope : Nat
  va : Nat
  len : Nat

/-- An address space is in scope. -/
def Hub.inScope (h : Hub) (k : XScope) (a : Nat) : Bool :=
  if k.scope = 2 then decide (h.get (Reg.xltAsPartition a) = h.get (Reg.xltAsPartition k.asid)) else decide (a = k.asid)

/-- A span of addresses meets the range of the scope; a range above 1 GiB is the whole address space. -/
def XScope.meets (k : XScope) (lo n : Nat) : Bool :=
  decide (k.scope ≠ 0) || decide (2 ^ 30 < k.len) || (decide (lo < k.va + k.len) && decide (k.va < lo + n))

/-- Entries in scope removed, on both dies; walks in scope go stale. -/
def Hub.xltPurge (h : Hub) (k : XScope) (leafOnly : Bool) : Hub :=
  let x := h.xlt
  { h with xlt := { x with
      tlbs := x.tlbs.filter (fun t => !(h.inScope k t.asid && k.meets t.va (2 ^ t.log2)))
      wcache := if leafOnly then x.wcache else
        x.wcache.filter (fun t => !(h.inScope k t.asid && k.meets (t.vaHigh * 2 ^ (25 + 9 * t.level)) (2 ^ (25 + 9 * t.level))))
      walks := x.walks.map (fun w => if h.inScope k w.asid && k.meets (pageOf w.va * 65536) 65536 then { w with stale := true } else w) } }

/-- Table 8 of an XLT_INVALIDATE. -/
def invalOk (c : QCmd) : Bool :=
  let range := decide (qf c 0x12 1 = 0)
  decide (qf c 0x10 2 < 4096) && decide (qf c 0x12 1 ≤ 2) && decide (qf c 0x13 1 ≤ 1) && qz c 0x14 0x18 && qz c 0x28 0x40
    && (if range then decide (qf c 0x18 8 % 65536 = 0) && decide (qf c 0x18 8 < 2 ^ 52) && decide (qf c 0x20 8 % 65536 = 0) && decide (qf c 0x20 8 ≠ 0)
        else decide (qf c 0x20 8 = 0))

/-- XLT_INVALIDATE (R264): removed at once; XLT_INVALIDATE_DONE completes it. -/
def Hub.xltInvalidate (h : Hub) (c : QCmd) : Hub :=
  let st := h.cmdCheck c false
  let a := qf c 0x10 2
  if st ≠ 0 then h.complete c st 0
  else if !invalOk c then h.complete c 0x02 0
  else if c.fn ≠ 0 ∧ h.get (Reg.xltAsPartition a) ≠ h.vfOwner c.fn then h.complete c 0x04 0
  else
    let h := h.xltPurge ⟨a, qf c 0x12 1, qf c 0x18 8, qf c 0x20 8⟩ (bitAt (qf c 0x13 1) 0)
    { h with xlt := { h.xlt with invals := h.xlt.invals ++ [⟨some c, a, qf c 0x12 1⟩] } }

/-- XLT_INVALIDATE. -/
def execXltInvalidate (cmd : QCmd) (s : State) : Host.Outcome State Fault Refusal := hubStep (·.xltInvalidate cmd) s

/-- A walk that an invalidation waits for is open. -/
def Hub.staleIn (h : Hub) (i : Inval) : Bool := h.xlt.walks.any (fun w => w.stale && h.inScope ⟨i.asid, i.scope, 0, 0⟩ w.asid)

/-- XLT_INVALIDATE_DONE (R264): the oldest invalidation command of the ASID completes. -/
def Hub.xltInvalDone (h : Hub) (a : Nat) : Hub :=
  match h.xlt.invals.find? (fun i => i.cmd.isSome && decide (i.asid = a)) with
  | none => h
  | some i =>
    if h.staleIn i then h
    else
      let h : Hub := { h with xlt := { h.xlt with invals := h.xlt.invals.erase i } }
      match i.cmd with | some c => h.complete c 0 0 | none => h

/-- XLT_INVALIDATE_DONE. -/
def execXltInvalidateDone (asid : BitVec 12) (s : State) : Host.Outcome State Fault Refusal := hubStep (·.xltInvalDone asid.toNat) s

-- XLT_AS and XLT_GRANT

/-- A write of XLT_AS by the PF (R266). -/
def Hub.asWrite (h : Hub) (n w : Nat) : Hub :=
  let v0 := h.on (Reg.xltAsValid n)
  let root := bits w 12 36
  let p0 := h.get (Reg.xltAsPartition n)
  let p := if n < 24 then p0 else if bits w 56 5 < 24 ∨ bits w 56 5 = 31 then bits w 56 5 else p0
  let chg := decide (root ≠ h.get (Reg.xltAsRoot n)) || decide (p ≠ p0)
  let h :=
    if chg then
      if v0 ∨ h.on (Reg.xltAsBusy n) then h.event Reg.xltEventAsRefused
      else h.sets [(Reg.xltAsRoot n, root), (Reg.xltAsPartition n, p)]
    else h
  if v0 ∧ !bitAt w 0 then
    let h := ((h.sets [(Reg.xltAsValid n, 0), (Reg.xltAsBusy n, 1)]).xltPurge ⟨n, 1, 0, 0⟩ false)
    { h with xlt := { h.xlt with invals := h.xlt.invals ++ [⟨none, n, 1⟩] } }
  else h.set (Reg.xltAsValid n) (bits w 0 1)

/-- A write of XLT_AS by a function: a VF reaches only its partition's, without PARTITION. -/
def Hub.asWriteBy (h : Hub) (fn n w : Nat) : Hub :=
  let p := h.get (Reg.xltAsPartition n)
  if fn = 0 then h.asWrite n w
  else if h.vfMute fn ∨ 24 ≤ h.vfOwner fn ∨ h.vfOwner fn ≠ p then h
  else h.asWrite n (putBits w 56 5 p)

/-- XLT_AS_WRITE. -/
def execXltAsWrite (fn : BitVec 6) (asid : BitVec 12) (w : BitVec 64) (s0 : State) : Host.Outcome State Fault Refusal :=
  let s := s0.wroteBy fn.toNat
  hubStep (·.asWriteBy fn.toNat asid.toNat w.toNat) s

/-- AS_INVALIDATE_DONE (R266): BUSY clears. -/
def Hub.asDone (h : Hub) (n : Nat) : Hub :=
  match h.xlt.invals.find? (fun i => i.cmd.isNone && decide (i.asid = n)) with
  | none => h
  | some i => if h.staleIn i then h else ({ h with xlt := { h.xlt with invals := h.xlt.invals.erase i } }).set (Reg.xltAsBusy n) 0

/-- AS_INVALIDATE_DONE. -/
def execAsInvalidateDone (asid : BitVec 12) (s : State) : Host.Outcome State Fault Refusal := hubStep (·.asDone asid.toNat) s

/-- ASID and V of a slot of a grant. -/
def grantSlot (e k : Nat) : Fld × Fld :=
  match k with
  | 0 => (Reg.xltGrantAsid0 e, Reg.xltGrantV0 e)
  | 1 => (Reg.xltGrantAsid1 e, Reg.xltGrantV1 e)
  | 2 => (Reg.xltGrantAsid2 e, Reg.xltGrantV2 e)
  | _ => (Reg.xltGrantAsid3 e, Reg.xltGrantV3 e)

/-- One slot of a write of XLT_GRANT (R252): judged where it changes and becomes valid. -/
def Hub.grantWrite (e w : Nat) (k : Nat) (h : Hub) : Hub :=
  let f := grantSlot e k
  let a := bits w (16 * k) 12
  let v := bits w (16 * k + 12) 1
  let p := h.engOwner e
  if v = 1 ∧ (a ≠ h.get f.1 ∨ h.get f.2 ≠ 1) ∧ (24 ≤ p ∨ h.get (Reg.xltAsPartition a) ≠ p) then h.event Reg.xltEventAsRefused
  else h.sets [(f.1, a), (f.2, v)]

/-- A write of XLT_GRANT; entries of engines that do not exist stay zero. -/
def Hub.grantsWrite (h : Hub) (e w : Nat) : Hub := if h.dies = 1 ∧ 64 ≤ e then h else overList (Hub.grantWrite e w) [0, 1, 2, 3] h

/-- XLT_GRANT_WRITE. -/
def execXltGrantWrite (e : BitVec 7) (w : BitVec 64) (s0 : State) : Host.Outcome State Fault Refusal :=
  let s := s0.wroteBy 0
  hubStep (·.grantsWrite e.toNat w.toNat) s

end Sys2Proof.Machine
end

