-- ==== Sys2Proof/Machine/Admit.lean ====
section
/-! DEFINITION. What a port's regulator releases (13: R322, R323), the TAP (23: R500, R501), and MOR_CLEAR (22: R485). -/

namespace Sys2Proof.Machine

/-- Port-side bytes of a held request (R322). -/
def HeldReq.bytes (r : HeldReq) : Nat :=
  match r with
  | .eng r => r.bytes
  | .win k => (match k.req with | .mem t p x => memLen t p x | .col _ p _ => p.data.length)
  | .core _ n => n
  | .dma _ _ _ n => n
  | .row _ _ n => n
  | .col _ n => n
  | .host _ n _ _ => n

/-- An admitted request goes on; requests whose rows the environment sends again do so at their next row, marked as paid. -/
def State.released (s : State) (r : HeldReq) : State :=
  match r with
  | .eng r => (({ s with hub := s.hub.reqLeft r } : State).engRun r).pumpEvts (r.e / 8)
  | .win k =>
    let s := s.onHub (fun h => { h with links := { h.links with held := h.links.held.erase k } })
    (s.winDo k).onHub (·.pfcOut k.link)
  | .core c _ => s.onHub (fun h =>
      let x := h.core c
      if x.run = .parked then h.setCore c { x with run := .ready, paid := true } else h)
  | .dma f ch id _ => s.onHub (fun h => h.onDma f ch id (fun q => { q with paid := true }))
  | .row n ix _ => s.onHub (fun h => h.onDesc n ix (fun d => { d with paid := true }))
  | .col g _ => (s.onHub (fun h => h.onGroup g (fun c => { c with paid := true }))).colWork g
  | .host off n none _ => s.bar2Rd off n
  | .host off _ (some data) poison => s.bar2Wr off data poison

/-- REGULATOR_ADMIT (R322, R323): the oldest held request of a port is admitted if the bucket holds a token. -/
def State.portAdmit (s : State) (n : Nat) : State :=
  match (s.hub.qosPort n).held with
  | [] => s
  | r :: t =>
    let k := s.hub.refill n
    let h := k.2
    if h.on (Reg.qosPortRegEn n) ∧ k.1 ≤ 0 then { s with hub := h }
    else
      let h := h.setQosPort n { h.qosPort n with held := t }
      let h := if h.on (Reg.qosPortRegEn n) then h.spend n r.bytes else h
      ({ s with hub := h } : State).released r

/-- REGULATOR_ADMIT. -/
def execRegulatorAdmit (port : BitVec 10) (s : State) : Host.Outcome State Fault Refusal := .next (s.portAdmit port.toNat)

-- Moraine

/-- MOR_CLEAR (R485): slots up to UPTO empty; honoured from PF MMIO only. -/
def Hub.morClearTo (h : Hub) (upto : Nat) : Hub :=
  { h with mor := h.mor.filter (fun r => decide (2 ^ 31 ≤ diff32 upto r.2.seq)) }

/-- MOR_CLEAR. -/
def execMorClear (via : Iface) (upto : BitVec 32) (s0 : State) : Host.Outcome State Fault Refusal :=
  let s := s0.wroteVia via
  hubStep (fun h => if via.code = 1 ∧ h.bar0Up then h.morClearTo upto.toNat else h) s

-- The TAP

/-- What a one-bit bypass register shifts out: the captured 0, then TDI one bit late. -/
def bypassOut (tdi : BitVec 64) : Nat := 2 * tdi.toNat % 2 ^ 64

/-- A TAP instruction (R500): it runs whenever supply group 1 is in regulation; the pins are driven by `drives`. -/
def Hub.tapRun (h : Hub) (out : Nat) (cells : BitVec 64) (drives : Bool) : Hub :=
  if h.boot.group1 then ({ h with tap := ⟨cells, drives⟩ }).send (.scan out) else h

/-- BYPASS. -/
def execBypass (tdi : BitVec 64) (s : State) : Host.Outcome State Fault Refusal :=
  hubStep (fun h => h.tapRun (bypassOut tdi) h.tap.cells false) s

/-- The identity code (R501): revision, part number 0xE960, manufacturer 0x4F3. -/
def Hub.idcode (h : Hub) : Nat := h.perma.rev / 16 % 16 * 2 ^ 28 + 0xE960 * 2 ^ 12 + 0x4F3 * 2 + 1

/-- IDCODE. -/
def execIdcode (s : State) : Host.Outcome State Fault Refusal := hubStep (fun h => h.tapRun h.idcode h.tap.cells false) s

/-- SAMPLE/PRELOAD: the pins are captured and shifted out, and the boundary register takes what is shifted in. -/
def execSamplePreload (pins : BitVec 64) (tdi : BitVec 64) (s : State) : Host.Outcome State Fault Refusal :=
  hubStep (fun h => h.tapRun pins.toNat tdi false) s

/-- EXTEST: effective only while PORST_N is low, else BYPASS. -/
def execExtest (pins : BitVec 64) (tdi : BitVec 64) (s : State) : Host.Outcome State Fault Refusal :=
  hubStep (fun h => if h.boot.porst then h.tapRun pins.toNat tdi true else h.tapRun (bypassOut tdi) h.tap.cells false) s

/-- CLAMP: the preloaded cells drive the pins, with the bypass register selected; effective only while PORST_N is low, else BYPASS. -/
def execClamp (tdi : BitVec 64) (s : State) : Host.Outcome State Fault Refusal :=
  hubStep (fun h => if h.boot.porst then h.tapRun (bypassOut tdi) h.tap.cells true else h.tapRun (bypassOut tdi) h.tap.cells false) s

end Sys2Proof.Machine
end

