-- ==== Sys2Proof/Machine/Flash.lean ====
section
/-! DEFINITION. The boot flash (03: R60-R64, R436): the directory with its two copies and CRC, image slots, verification of images and
choice of the slot. -/

namespace Sys2Proof.Machine

/-- One bit step of the reflected CRC-32 of IEEE 802.3. -/
def crcBit (c : Nat) : Nat := if c % 2 = 1 then (c / 2) ^^^ 0xEDB88320 else c / 2

/-- One byte taken into a CRC-32. -/
def crcByte (c : Nat) (b : Byte) : Nat :=
  crcBit (crcBit (crcBit (crcBit (crcBit (crcBit (crcBit (crcBit (c ^^^ b.toNat))))))))

/-- CRC-32 (IEEE 802.3 polynomial) of a string of bytes. -/
def crc32 (l : List Byte) : Nat := (l.foldl crcByte 0xFFFFFFFF) ^^^ 0xFFFFFFFF

/-- A little-endian field of the flash. -/
def Hub.ff (h : Hub) (a n : Nat) : Nat := leNat (h.flashBytes a n)

/-- Bytes written to the flash. -/
def Hub.flashWrite (h : Hub) (a : Nat) (l : List Byte) : Hub :=
  { h with flash := (l.zipIdx).foldl (fun t x => tset 0xFF t (a + x.2) x.1) h.flash }

/-- The flash directory in use (Table 3): which copy it stands in, and its fields. -/
structure Dir where
  copy : Nat
  seq : Nat
  active : Nat
  stA : Nat
  stB : Nat
  tries : Nat
  slotA : Nat
  slotB : Nat
  slotLen : Nat
  pdOff : Nat
  waivOff : Nat
  waivN : Nat
  userOff : Nat
  userLen : Nat
  deriving DecidableEq, Repr

/-- A copy of the directory, if it is valid (R60). -/
def Hub.dirAt (h : Hub) (c : Nat) : Option Dir :=
  let a := 0x1000 * c
  if h.ff a 4 = 0x44464845 ∧ h.ff (a + 0x3C) 4 = crc32 (h.flashBytes a 0x3C) then
    some ⟨c, h.ff (a + 4) 2, h.ff (a + 6) 1, h.ff (a + 7) 1, h.ff (a + 8) 1, h.ff (a + 9) 1, h.ff (a + 0xC) 4, h.ff (a + 0x10) 4,
      h.ff (a + 0x14) 4, h.ff (a + 0x18) 4, h.ff (a + 0x1C) 4, h.ff (a + 0x20) 1, h.ff (a + 0x24) 4, h.ff (a + 0x28) 4⟩
  else none

/-- The directory: the valid copy with the higher SEQ modulo 2^16 (R60). -/
def Hub.dir (h : Hub) : Option Dir :=
  match h.dirAt 0, h.dirAt 1 with
  | some a, some b => if (a.seq + 2 ^ 16 - b.seq) % 2 ^ 16 < 2 ^ 15 then some a else some b
  | some a, none => some a
  | none, b => b

/-- The 64 bytes of a directory. -/
def Dir.bytes (d : Dir) : List Byte :=
  let l := leBytes 4 0x44464845 ++ leBytes 2 d.seq ++ leBytes 1 d.active ++ leBytes 1 d.stA ++ leBytes 1 d.stB ++ leBytes 1 d.tries
    ++ leBytes 2 0 ++ leBytes 4 d.slotA ++ leBytes 4 d.slotB ++ leBytes 4 d.slotLen ++ leBytes 4 d.pdOff ++ leBytes 4 d.waivOff
    ++ leBytes 1 d.waivN ++ leBytes 3 0 ++ leBytes 4 d.userOff ++ leBytes 4 d.userLen ++ leBytes 16 0
  l ++ leBytes 4 (crc32 l)

/-- The directory updated (R60): the other copy is written, one SEQ further. -/
def Hub.writeDir (h : Hub) (d : Dir) : Dir × Hub :=
  let d := { d with copy := 1 - d.copy, seq := (d.seq + 1) % 2 ^ 16 }
  (d, h.flashWrite (0x1000 * d.copy) d.bytes)

/-- State of a slot. -/
def Dir.st (d : Dir) (x : Nat) : Nat := if x = 0 then d.stA else d.stB

/-- A slot's state changed. -/
def Dir.setSt (d : Dir) (x v : Nat) : Dir := if x = 0 then { d with stA := v } else { d with stB := v }

/-- Flash offset of a slot. -/
def Dir.base (d : Dir) (x : Nat) : Nat := if x = 0 then d.slotA else d.slotB

-- Images (R62, R64)

/-- The key that a KEY byte of a vendor signature names, where the life-cycle state takes it (R64): 0 production, 1 test. -/
def vendorKey (life key : Nat) : Option Nat := if key = 0x80 then some 0 else if key = 0xFF ∧ life < 2 then some 1 else none

/-- A signature block at a flash offset verifies for the bytes before it (R64, Table 9 of 02). -/
def Hub.signedBy (h : Hub) (msg n sig : Nat) : Bool :=
  decide (h.ff (sig + 1) 15 = 0) && decide (h.ff (sig + 0x70) 16 = 0)
    && (match vendorKey h.life (h.ff sig 1) with
      | some k => Config.sigOk k (h.flashBytes msg n) (h.flashBytes (sig + 0x10) 96)
      | none => false)

/-- A field of an image header given as a number. -/
def imf (v off size : Nat) : Nat := bits v (8 * off) (8 * size)

/-- The header is in range (Table 4). -/
def imageHeaderOk (v : Nat) : Bool :=
  decide (imf v 0 4 = 0x4D494845) && decide (imf v 4 2 = 1) && decide (1 ≤ imf v 6 1) && decide (imf v 6 1 ≤ 6) && decide (imf v 7 1 = 0)
    && (imf v 0x14 1 == 3 || imf v 0x14 1 == 4) && (imf v 0x15 1 == 3 || imf v 0x15 1 == 4)
    && decide (5 ≤ imf v 0x1A 1) && decide (imf v 0x1A 1 ≤ 8) && decide (imf v 0x1B 5 = 0) && decide (imf v 0xD0 48 = 0)

/-- The image at an offset verifies within its slot (R62): header, signature, digest, SVN. -/
def Hub.imageOk (h : Hub) (a e : Nat) : Bool :=
  let v := h.ff a 256
  let n := imf v 0x10 4
  imageHeaderOk v && decide (a + 384 + n ≤ e) && h.signedBy a 256 (a + 256)
    && decide (Config.sha384 (h.flashBytes (a + 384) n) = imf v 0x20 48) && decide (tget 0 h.perma.svn (imf v 6 1) ≤ imf v 0xC 4)

/-- The images of a slot by type, found at its 4 KiB boundaries, with whether each verifies: the first of a type counts. -/
def Hub.slotScan (f : Nat) (h : Hub) (a e : Nat) : Tab (Nat × Bool) :=
  match f with
  | 0 => []
  | f + 1 =>
    if e ≤ a then []
    else if h.ff a 4 = 0x4D494845 then
      let v := h.ff a 256
      let next := (a + 384 + imf v 0x10 4 + 4095) / 4096 * 4096
      tput (Hub.slotScan f h next e) (imf v 6 1) (v, h.imageOk a e)
    else Hub.slotScan f h (a + 4096) e

/-- The headers of the six images of a slot; none where one is missing or fails (R62). -/
def Hub.slotImages (h : Hub) (d : Dir) (x : Nat) : Option (Tab Nat) :=
  let a := d.base x
  let t := Hub.slotScan (d.slotLen / 4096 + 1) h a (a + d.slotLen)
  if (List.range 6).all (fun i => match tlook t (i + 1) with | some y => y.2 | none => false) then
    some (((List.range 6).map (fun i => (i + 1, (tget (0, false) t (i + 1)).1))))
  else none

/-- One slot tried (R61, R62): whether it is TRIAL and its images; a slot that is used up or fails is marked BAD. -/
def Hub.trySlot (h : Hub) (d : Dir) (x : Nat) : Option (Bool × Tab Nat) × Dir × Hub :=
  let st := d.st x
  if st ≠ 1 ∧ st ≠ 2 then (none, d, h)
  else if st = 2 ∧ d.tries = 0 then (none, h.writeDir (d.setSt x 3))
  else
    let q : Dir × Hub := if st = 2 then h.writeDir { d with tries := d.tries - 1 } else (d, h)
    match q.2.slotImages q.1 x with
    | some t => (some (decide (st = 2), t), q)
    | none => (none, q.2.writeDir (q.1.setSt x 3))

/-- The slot that boots (R61, R62): its number, whether it is TRIAL, its images; none: recovery. A slot marked BAD while the other one
boots is recorded. -/
def Hub.selectSlot (h : Hub) (d : Dir) : Option (Nat × Bool × Tab Nat) × Hub :=
  let a := if d.active = 1 then 1 else 0
  match h.trySlot d a with
  | (some r, _, h) => (some (a, r), h)
  | (none, d', h) =>
    match h.trySlot d' (1 - a) with
    | (some r, _, h) =>
      (some (1 - a, r), if d.st a ≠ 3 ∧ d'.st a = 3 then h.record { code := 0x0E03, cls := 0, d0 := h.get Reg.glbBootStatusStage } else h)
    | (none, _, h) => (none, h)

-- Compatibility (R65, R66)

/-- A waiver in force: TYPE_A, VERSION_A, TYPE_B, MIN_B, MAX_B. -/
structure Waiver where
  ta : Nat
  va : Nat
  tb : Nat
  lo : Nat
  hi : Nat

/-- A waiver of the flash (Table 7): whether it is valid; it applies only to this unit or to all. -/
def Hub.waiverAt (h : Hub) (a : Nat) : Bool × Option Waiver :=
  let ok := decide (h.ff a 4 = 0x56574845) && decide (h.ff (a + 4) 2 = 1) && decide (h.ff (a + 6) 2 = 0) && decide (h.ff (a + 0x12) 2 = 0)
    && decide (h.ff (a + 0x20) 32 = 0) && h.signedBy a 64 (a + 64)
  let u := h.ff (a + 8) 8
  (ok, if ok && (decide (u = 0) || decide (u = h.perma.unit)) then
    some ⟨h.ff (a + 0x10) 1, h.ff (a + 0x14) 4, h.ff (a + 0x11) 1, h.ff (a + 0x18) 4, h.ff (a + 0x1C) 4⟩ else none)

/-- The waivers of a directory: each is 64 bytes and a signature block. -/
def Hub.waivers (h : Hub) (d : Dir) : List (Bool × Option Waiver) :=
  if d.waivOff = 0 then [] else (List.range d.waivN).map (fun i => h.waiverAt (d.waivOff + 192 * i))

/-- A range widened by waivers. -/
def widen (r : Option (Nat × Nat)) (l : List Waiver) : Option (Nat × Nat) :=
  l.foldl (fun r w => match r with
    | none => some (w.lo, w.hi)
    | some (a, b) => some (min a w.lo, max b w.hi)) r

/-- The compatibility record of an image for a partner type (Table 6). -/
def compatRec (v tb : Nat) : Option (Nat × Nat) :=
  ((List.range 8).find? (fun i => decide (imf v (0x50 + 16 * i) 1 = tb))).map (fun i => (imf v (0x54 + 16 * i) 4, imf v (0x58 + 16 * i) 4))

/-- The waivers that apply to an image for a partner type. -/
def waiversFor (l : List Waiver) (v tb : Nat) : List Waiver :=
  l.filter (fun w => decide (w.ta = imf v 6 1) && decide (w.va = imf v 8 4) && decide (w.tb = tb))

/-- The check of R66 over the headers of a set: its cause (0, 1, 2) and the host interface version presented. -/
def compat (imgs : List Nat) (fl : Nat) (ws : List Waiver) : Nat × Nat :=
  let bad := imgs.any (fun a =>
    decide (fl < imf a 0x14 1) || decide (imf a 0x15 1 < fl)
      || imgs.any (fun b => decide (imf b 6 1 ≠ imf a 6 1)
        && (match widen (compatRec a (imf b 6 1)) (waiversFor ws a (imf b 6 1)) with
          | none => true
          | some (lo, hi) => decide (imf b 8 4 < lo) || decide (hi < imf b 8 4))))
  let hif : List (Nat × Nat) := imgs.map (fun a =>
    (widen (some (imf a 0x16 2, imf a 0x18 2)) ((waiversFor ws a 0xF0).map (fun w => { w with lo := w.lo % 2 ^ 16, hi := w.hi % 2 ^ 16 }))).getD (0, 0))
  let lo : Nat := hif.foldl (fun m x => max m x.1) 0
  let hi : Nat := hif.foldl (fun m x => min m x.2) 0xFFFF
  (if bad then 1 else if hi < lo then 2 else 0, hi)

end Sys2Proof.Machine
end

