-- ==== Sys2Proof/Machine/LifeCycle.lean ====
section
/-! DEFINITION. The life cycle (21): the codes, the vote over the Permafrost store (R469), transition requests (R470, R471) and the
transition sequence (R472). -/

namespace Sys2Proof.Machine

/-- The code of a state by its LIFECYCLE encoding (Table 1). -/
def lifeCode (n : Nat) : Nat := if n = 0 then 0 else if n = 1 then 0x0000FFFF else if n = 2 then 0x00FFFFFF else 0xFFFFFFFF

/-- The state that a code names (Table 1). -/
def lifeOf (c : Nat) : Option Nat :=
  if c = 0 then some 0 else if c = 0x0000FFFF then some 1 else if c = 0x00FFFFFF then some 2 else if c = 0xFFFFFFFF then some 3 else none

/-- The value that at least `k` of the copies hold. -/
def majority (k : Nat) (l : List Word32) : Option Nat := (l.find? (fun x => decide (k ≤ l.count x))).map (·.toNat)

/-- s of R469: the state that three of the five copies name. -/
def Perma.voted (p : Perma) : Option Nat := (majority 3 p.copies).bind lifeOf

/-- i of R469: the state that two of the three intents name; a blank intent is none. -/
def Perma.intent (p : Perma) : Option Nat := ((majority 2 p.intents).bind lifeOf).filter (fun n => decide (n ≠ 0))

/-- A copy programmed to a code: only bits that are zero are set, and a copy that holds a bit outside the code stays (R469). -/
def programCopy (s : Nat) (c : Word32) : Word32 := if c.toNat &&& s = c.toNat then BitVec.ofNat 32 s else c

/-- The state copies programmed. -/
def Hub.programCopies (h : Hub) (n : Nat) : Hub :=
  { h with perma := { h.perma with copies := h.perma.copies.map (programCopy (lifeCode n)) } }

/-- The intents programmed with a state's code (Table 5, step 1). -/
def Hub.programIntents (h : Hub) (n : Nat) : Hub :=
  { h with perma := { h.perma with intents := h.perma.intents.map (fun c => BitVec.ofNat 32 (c.toNat ||| lifeCode n)) } }

/-- The 64 KiB sectors of the user region erased (Table 5, step 2). -/
def Hub.eraseUser (h : Hub) : Hub :=
  match h.dir with
  | none => h
  | some d =>
    if d.userLen = 0 then h
    else
      let a := d.userOff / 65536 * 65536
      let b := (d.userOff + d.userLen + 65535) / 65536 * 65536
      { h with flash := h.flash.filter (fun x => decide (x.1 < a) || decide (b ≤ x.1)) }

/-- The wipe of End of Life (Table 5, step 2). -/
def Hub.lifeWipe (h : Hub) : Hub :=
  Hub.eraseUser { h with perma := { h.perma with owner0 := 2 ^ 384 - 1, owner1 := 2 ^ 384 - 1, sealing := 2 ^ 256 - 1 } }

/-- A record of the life cycle. -/
def Hub.lifeRec (h : Hub) (code d0 : Nat) : Hub := h.record { code := code, cls := 0, d0 := d0 }

/-- The state decided at boot step 1 (R469): an interrupted transition is completed, and the copies are programmed. -/
def Hub.lifeVote (h : Hub) : Nat × Hub :=
  match h.perma.voted, h.perma.intent with
  | none, none => (3, (h.programCopies 3).lifeRec 0x0D04 (3 * 2 ^ 8))
  | some s, none => (s, h.programCopies s)
  | none, some i => (i, ((if i = 3 then h.lifeWipe else h).programCopies i).lifeRec 0x0D02 (i * 2 ^ 8))
  | some s, some i =>
    if s < i then (i, ((if i = 3 then h.lifeWipe else h).programCopies i).lifeRec 0x0D02 (s + i * 2 ^ 8)) else (s, h.programCopies s)

-- Transition requests

/-- What an Almanac write answers: a status of the common completion codes, and a CiA abort code; none where no code is stated. -/
structure AlmAns where
  st : Nat
  abort : Option Nat
  deriving DecidableEq, Repr

/-- OK. -/
def AlmAns.ok : AlmAns := ⟨0, some 0⟩
/-- Value out of range, or a reserved encoding (Table 7 of 19). -/
def AlmAns.range : AlmAns := ⟨0x02, some 0x06090030⟩
/-- Legal, but not in the present state. -/
def AlmAns.state : AlmAns := ⟨0x0D, some 0x08000022⟩

/-- A row of Table 4. -/
def lifeRow (f t : Nat) : Bool := (decide (f = 0) && (t == 1 || t == 3)) || (decide (f = 1) && (t == 2 || t == 3)) || (decide (f = 2) && decide (t = 3))

/-- The key that a request's KEY byte names, where its row allows it (Table 4): 0 production, 1 test, else the hash of an integrator key. -/
def Hub.lifeKey (h : Hub) (fr tg key : Nat) : Option Nat :=
  if key = 0x80 then some 0
  else if key = 0xFF ∧ (fr = 0 ∨ (fr = 1 ∧ tg = 3)) then some 1
  else if key < 2 ∧ fr = 2 then
    let k := if key = 0 then h.perma.owner0 else h.perma.owner1
    if k = 0 then none else some k
  else none

/-- The signature of a request verifies (Table 3, check 5). -/
def Hub.lifeSigned (h : Hub) (fr tg : Nat) (d : List Byte) : Bool :=
  match h.lifeKey fr tg (bunF d 0x40 1) with
  | some k => Config.sigOk k (d.take 64) (bunB d 0x50 96)
  | none => false

/-- The prerequisite of a row (Table 4). -/
def Hub.lifeReady (h : Hub) (fr : Nat) : Bool :=
  decide (fr ≠ 1) || (decide (h.perma.sealing ≠ 0) && decide (h.perma.owner0 ≠ 0) && decide (h.perma.cert ≠ 0))

/-- A request refused by one of the checks 3-6 (R471). -/
def Hub.lifeRefuse (h : Hub) (fr tg check : Nat) (a : AlmAns) : AlmAns × Hub :=
  (a, h.lifeRec 0x0D03 (fr + 2 ^ 8 * tg + 2 ^ 16 * check))

/-- A transition request checked in the order of Table 3; an accepted one programs the intents (Table 5, step 1). -/
def Hub.lcRequest (h : Hub) (d : List Byte) : AlmAns × Hub :=
  let f := bunF d 6 1
  let t := bunF d 7 1
  let u := bunF d 8 8
  if (List.range 24).any h.partExists || !h.cfg.staged.isEmpty || h.whiteout || decide (h.life = 3)
      || h.boot.activating || h.boot.lc.isSome then (.state, h)
  else if bunF d 0 4 ≠ 0x434C4845 ∨ bunF d 4 2 ≠ 1 ∨ bunF d 0x10 48 ≠ 0 ∨ u = 0 ∨ bunF d 0x41 15 ≠ 0 ∨ bunF d 0xB0 16 ≠ 0 ∨ !lifeRow f t then
    (.range, h)
  else if u ≠ h.perma.unit then
    if h.dies = 2 ∧ u = h.get Reg.glbPartnerUnitIdUnitId then
      let q := (h.send (.bridge 0x2910 (leNat d))).draw
      (⟨q.1 % 256, none⟩, q.2)
    else h.lifeRefuse f t 3 ⟨0x04, none⟩
  else if f ≠ h.life then h.lifeRefuse f t 4 .state
  else if !h.lifeSigned f t d then h.lifeRefuse f t 5 ⟨0x04, none⟩
  else if !h.lifeReady f then h.lifeRefuse f t 6 .state
  else
    let n : Hub := { h with boot := { h.boot with lc := some (if t = 3 then 2 else 3, t) } }
    (.ok, n.programIntents t)

/-- LC_TRANSITION_STEP (R472): the step in hand ends. The last one resets the hub, which then boots in the new state. -/
def execLcTransitionStep (s : State) : Host.Outcome State Fault Refusal :=
  match s.hub.boot.lc with
  | none => .next s
  | some (k, t) =>
    let at' (n : Nat) (h : Hub) : Hub := { h with boot := { h.boot with lc := some (n, t) } }
    if k = 2 then hubStep (fun h => at' 3 h.lifeWipe) s
    else if k = 3 then hubStep (fun h => at' 4 (h.programCopies t)) s
    else
      let s := s.onHub (fun h => { h with boot := { h.boot with lc := none, notes := if t = 3 then h.boot.notes else h.boot.notes ++ [(0x0D01, h.life + 2 ^ 8 * t)] } })
      .next (s.hubReset Reg.glbResetCauseSoft false)

end Sys2Proof.Machine
end

