-- ==== Sys2Proof/Machine/Sites.lean ====
section
/-! DEFINITION. Sites outside their engines' messages (12): Sounding (R296, R297, R302-R304, R413), fencing and re-sounding by the
operator (R306, R308), Rime's lane actions (R309, R310). -/

namespace Sys2Proof.Machine

-- Sounding (Table 10)

/-- Every register of a site and of its engines as Sounding starts. -/
def Hub.siteClear (h : Hub) (s : Nat) : Hub :=
  let h := h.sets [(Reg.siteStatusCause s, 0), (Reg.siteStatusMinor s, 0), (Reg.siteStatusEngines s, 0), (Reg.siteStatusActive s, 0),
    (Reg.siteStatusRawGbs s, 0), (Reg.sitePowerRequest s, 0), (Reg.sitePowerPower s, 0), (Reg.sitePowerTemp s, 0)]
  let h := overList (fun m h => h.sets [(Reg.siteModuleState s m, 3), (Reg.siteModuleHalf s m, 0), (Reg.siteModuleHalfOut s m, 0),
    (Reg.siteModuleSparesIn s m, 0), (Reg.siteModuleSparesOut s m, 0), (Reg.siteModuleStalled s m, 0), (Reg.siteModuleParity s m, 0)]) (List.range 6) h
  overList (fun i h => let e := 8 * s + i
    h.sets [(Reg.siteEngStatusState e, 0), (Reg.siteEngStatusOpen e, 0), (Reg.siteEngStatusDbWait e, 0), (Reg.siteEngStatusDbMerged e, 0),
      (Reg.siteEngStatusCplErr e, 0), (Reg.siteEngStatusWrites e, 0), (Reg.siteEngDescDesc e, 0)]) (List.range 8) h

/-- Sounding starts: the site is reset, 10 W is granted and SRST_N released (Table 10 step 1). A minor once fixed stays fixed (R78). -/
def Hub.soundStart (h : Hub) (s : Nat) : Hub :=
  let f := (h.site s).fixedMinor
  let h := (h.siteClear s).setSite s { Site.rst with step := 1, srst := true, fixedMinor := f }
  (h.set (Reg.siteStatusState s) 1).setGrant (64 + s) 100

/-- A field of the Chiplet Descriptor that a Sounding step read. -/
def sdf (d off size : Nat) : Nat := bits d (8 * off) (8 * size)

/-- A FORMATS entry is in range (Table 9). -/
def formatOk (e : Nat) : Bool :=
  let w := e / 256
  decide (bits e 4 4 = 0) && (if bits e 0 2 = 0 then decide (w = 0) else decide (16 ≤ w) && decide (w ≤ 64))

/-- An Engine Descriptor is in range (Table 9, R297). -/
def engDescOk (d i : Nat) : Bool :=
  let o := 0x40 + 0x80 * i
  decide (sdf d o 1 = i) && decide (sdf d (o + 1) 1 < 3) && decide (sdf d (o + 2) 1 < 4) && decide (sdf d (o + 3) 1 = 0)
    && decide (1 ≤ sdf d (o + 4) 2) && decide (sdf d (o + 4) 2 ≤ 4096) && decide (sdf d (o + 6) 2 = 0)
    && (List.range 12).all (fun c => formatOk (sdf d (o + 8 + 2 * c) 2)) && decide (sdf d (o + 0x30) 80 = 0)

/-- The Chiplet Descriptor is in range (Tables 8 and 9, R297). -/
def chipDescOk (d : Nat) : Bool :=
  let n := sdf d 6 1
  decide (1 ≤ n) && decide (n ≤ 8) && decide (sdf d 7 1 < 64) && decide (1 ≤ sdf d 0x12 2) && decide (sdf d 0x12 2 ≤ 270)
    && decide (sdf d 0x16 1 < 2) && decide (sdf d 0x17 41 = 0) && (List.range n).all (engDescOk d)

/-- CREDITS are at least those of R282. -/
def creditsOk (c : Nat) : Bool := decide (64 ≤ bits c 0 16) && decide (256 ≤ bits c 16 16) && decide (16 ≤ bits c 32 16)

/-- The minor in force (R77, R297). -/
def Hub.soundMinor (h : Hub) (d : Nat) : Nat := min (sdf d 5 1) (h.get Reg.siteInfoMaxMinor)

/-- The cause that fences at step 4 (R297, R413); 0 none. -/
def Hub.soundCause (h : Hub) (s : Nat) : Nat :=
  let x := h.site s
  let d := x.desc.toNat
  let m := h.soundMinor d
  if sdf d 4 1 ≠ 1 then 1
  else if m < h.pdMinMinor s ∨ sdf d 6 1 ≠ h.pdEngines s ∨ (h.pdModel s ≠ 0 ∧ sdf d 8 8 ≠ h.pdModel s) ∨ !chipDescOk d ∨ !creditsOk x.credits.toNat
      ∨ (x.fixedMinor ≠ 0 ∧ x.fixedMinor ≠ m + 1) then 2
  else if h.pdBudget < h.brakeMin + sdf d 0x14 2 then 10
  else 0

/-- Step 4: the contract, or a fence. -/
def Hub.soundContract (h : Hub) (s : Nat) : Hub :=
  let c := h.soundCause s
  if c ≠ 0 then h.fence s c
  else
    let m := h.soundMinor (h.site s).desc.toNat
    let h := (h.set (Reg.siteStatusMinor s) m).onSite s (fun x => { x with step := 5, fixedMinor := m + 1 })
    h.siteWrite s 0x1000 (1 + 2 ^ 8 * m + 2 ^ 31)

/-- Attestation is required of the site (R302). -/
def Hub.spdmRequired (h : Hub) (s : Nat) : Bool := bitAt (h.pdSiteFlags s) 0

/-- The chiplet offers attestation (R304). -/
def Hub.spdmOffered (h : Hub) (s : Nat) : Bool := bitAt (sdf (h.site s).desc.toNat 0x16 1) 0

/-- An optional attestation failed (R304). -/
def Hub.spdmRec (h : Hub) (s : Nat) : Hub := h.record { code := 0x060B, cls := 0, inst := s, die := s / 8 }

/-- Step 5: SPDM, if required or offered (R302-R304). -/
def Hub.soundSpdm (h : Hub) (s : Nat) (x : SoundIn) : Hub :=
  let on (h : Hub) : Hub := h.onSite s (fun y => { y with step := 6 })
  if x.spdmOk ∧ (h.spdmRequired s ∨ h.spdmOffered s) then
    on (h.onSite s (fun y => { y with chain := x.chainDigest, meas := x.measDigest }))
  else if h.spdmRequired s then h.fence s 6
  else if h.spdmOffered s then on (h.spdmRec s)
  else on h

/-- Raw bandwidth and modules that carry traffic (Table 13): 256 GB/s at x64, 128 at x32; STATE follows. -/
def Hub.siteRaw (h : Hub) (s : Nat) : Hub :=
  let st (m : Nat) : Nat := h.get (Reg.siteModuleState s m)
  let act := ((List.range 6).map (fun m => if st m < 2 then 2 ^ m else 0)).sum
  let raw := ((List.range 6).map (fun m => if st m = 0 then 256 else if st m = 1 then 128 else 0)).sum
  (h.set (Reg.siteStatusActive s) act).set (Reg.siteStatusRawGbs s) raw

/-- STATE of a site that runs: 3 with a degraded or retired module. -/
def Hub.siteLive (h : Hub) (s : Nat) : Nat :=
  if (List.range 6).any (fun m => decide (h.get (Reg.siteModuleState s m) = 1) || decide (h.get (Reg.siteModuleState s m) = 2)) then 3 else 2

/-- Step 6: the modules train; none trained fences with cause 4. -/
def Hub.soundModules (h : Hub) (s : Nat) (x : SoundIn) : Hub :=
  let fit := h.pdModules s
  let h := overList (fun m h => h.set (Reg.siteModuleState s m)
    (if !bitAt fit m then 3 else if bitAt x.trained.toNat m then 0 else 2)) (List.range 6) h
  if fit &&& x.trained.toNat = 0 then h.fence s 4 else (h.siteRaw s).onSite s (fun y => { y with step := 7 })

/-- Step 7: credits, engines, the grant; the site is ACTIVE. -/
def Hub.soundEnd (h : Hub) (s : Nat) : Hub :=
  let d := (h.site s).desc.toNat
  let n := sdf d 6 1
  let c := (h.site s).credits.toNat
  let h := h.onSite s (fun x => { x with step := 0, reqH := 256, reqD := 1024, evtH := 64, evtD := 64, rspH := bits c 0 16,
                                          rspD := bits c 16 16, cvtH := bits c 32 16, cvtD := bits c 48 16 })
  let h := (h.sets [(Reg.siteStatusState s, h.siteLive s), (Reg.siteStatusEngines s, n), (Reg.siteCtrlResound s, 0)])
  let h := overList (fun i h => (h.set (Reg.siteEngStatusState (8 * s + i)) 1).set (Reg.siteEngDescDesc (8 * s + i)) (sdf d (0x40 + 0x80 * i) 128))
    (List.range n) h
  (h.setGrant (64 + s) (10 * h.idleW s)).rescale s

/-- SOUNDING_STEP (R296). -/
def Hub.soundStep (h : Hub) (s : Nat) (x : SoundIn) : Hub :=
  match (h.site s).step with
  | 1 => h.onSite s (fun y => { y with step := 2 })
  | 2 => h.onSite s (fun y => { y with step := 3 })
  | 3 =>
    if sdf x.desc.toNat 0 4 ≠ 0x44434845 then h.fence s 3
    else h.onSite s (fun y => { y with step := 4, desc := x.desc, credits := x.credits })
  | 4 => h.soundContract s
  | 5 => h.soundSpdm s x
  | 6 => h.soundModules s x
  | 7 => h.soundEnd s
  | _ => h

/-- SOUNDING_STEP (R296). -/
def execSoundingStep (site : BitVec 4) (x : SoundIn) (s : State) : Host.Outcome State Fault Refusal :=
  hubStep (fun h => if h.get (Reg.siteStatusState site.toNat) = 1 then h.soundStep site.toNat x else h) s

/-- SOUNDING_TIMEOUT (R296, R302, R304): cause 3 up to step 4, 6 for a required attestation, 4 from step 6 on (log entry 32). -/
def execSoundingTimeout (site : BitVec 4) (s : State) : Host.Outcome State Fault Refusal :=
  let k := site.toNat
  hubStep (fun h =>
    if h.get (Reg.siteStatusState k) ≠ 1 then h
    else
      let st := (h.site k).step
      if st ≤ 4 then h.fence k 3
      else if st = 5 then
        (if h.spdmRequired k then h.fence k 6
         else (if h.spdmOffered k then h.spdmRec k else h).onSite k (fun y => { y with step := 6 }))
      else h.fence k 4) s

/-- SITE_FENCE (R305, R306): cause 9. -/
def execSiteFence (site : BitVec 4) (s0 : State) : Host.Outcome State Fault Refusal :=
  let s := s0.wroteBy 0
  hubStep (·.fence site.toNat 9) s

/-- RESOUND written (R308). -/
def Hub.resound (h : Hub) (k : Nat) : Hub :=
  let c := h.get (Reg.siteStatusCause k)
  if h.get (Reg.siteStatusState k) = 0 ∨ h.get (Reg.siteStatusState k) = 1 then h
  else if (h.sitePartitions k).isEmpty ∧ c ≠ 1 ∧ c ≠ 2 ∧ c ≠ 11 then (h.soundStart k).set (Reg.siteCtrlResound k) 1
  else h.event Reg.siteEventResoundRefused

/-- RESOUND (R308). -/
def execResound (site : BitVec 4) (s0 : State) : Host.Outcome State Fault Refusal :=
  let s := s0.wroteBy 0
  hubStep (·.resound site.toNat) s

-- Rime (R309, R310)

/-- Key of a lane: module × 256 + 128 × (1 toward the chiplet) + lane. -/
def laneKey (m : Nat) (toHub : Bool) (l : Nat) : Nat := 256 * m + (if toHub then 0 else 128) + l

/-- A parity error of a lane noted at a time, those before the window forgotten (R309). -/
def noteErr (w t : Nat) (tab : Tab (List Nat)) (k : Nat) : Tab (List Nat) :=
  tset [] tab k (t :: (tget [] tab k).filter (fun u => decide (t ≤ u + w)))

/-- RIME_SWEEP (R309): parity errors counted per lane and per module. -/
def execRimeSweep (site : BitVec 4) (mod : BitVec 3) (errIn errOut : BitVec 68) (s : State) : Host.Outcome State Fault Refusal :=
  let k := site.toNat
  let m := mod.toNat
  hubStep (fun h =>
    if !h.siteActive k ∨ 6 ≤ m ∨ 2 ≤ h.get (Reg.siteModuleState k m) ∨ h.on (Reg.siteModuleStalled k m) then h
    else
      let t := h.now.1
      let w := h.get Reg.siteRimeCfgWindowS * 1000000000
      let keys := (ones 68 errIn.toNat).map (laneKey m true) ++ (ones 68 errOut.toNat).map (laneKey m false)
      let h := h.now.2.count (Reg.siteModuleParity k m) keys.length
      h.onSite k (fun x => { x with laneErr := keys.foldl (noteErr w t) x.laneErr })) s

/-- The lowest redundant lane of a direction that is neither in use nor condemned. -/
def Site.freeSpare (x : Site) (m : Nat) (toHub : Bool) : Option Nat :=
  findFrom 4 64 (fun l => (tlook x.spares (laneKey m toHub l)).isNone && !kmem x.condemned (laneKey m toHub l))

/-- A half of a direction without condemned data lanes (R310), the lower first. -/
def Site.cleanHalf (x : Site) (m : Nat) (toHub : Bool) : Option Nat :=
  findLow 2 (fun i => (List.range 32).all (fun j => !kmem x.condemned (laneKey m toHub (32 * i + j))))

/-- The module carries traffic on a lane. -/
def Hub.laneUsed (h : Hub) (k m : Nat) (toHub : Bool) (l : Nat) : Bool :=
  if 64 ≤ l then (tlook (h.site k).spares (laneKey m toHub l)).isSome
  else if h.get (Reg.siteModuleState k m) = 1 then
    decide (l / 32 = (if toHub then h.get (Reg.siteModuleHalf k m) else h.get (Reg.siteModuleHalfOut k m)))
  else true

/-- The first action that applies to a condemned lane (R310): 0 remap, 1 x32, 2 retire. -/
def Hub.laneAction (h : Hub) (k m : Nat) (toHub : Bool) : Nat :=
  let x := h.site k
  if h.get (Reg.siteModuleState k m) = 1 then 2
  else if (x.freeSpare m toHub).isSome then 0
  else if bitAt (h.pdSiteFlags k) 1 && (x.cleanHalf m true).isSome && (x.cleanHalf m false).isSome then 1
  else 2

/-- LANE_CONDEMN (R309, R310, Table 13 steps 1 and 2): the lane has shown LANE_TH errors. A lane that carries nothing needs no action. -/
def execLaneCondemn (site : BitVec 4) (mod : BitVec 3) (toHub : Bool) (lane : BitVec 7) (s : State) : Host.Outcome State Fault Refusal :=
  let k := site.toNat
  let m := mod.toNat
  let l := lane.toNat
  let key := laneKey m toHub l
  hubStep (fun h =>
    let x := h.site k
    if !h.siteActive k ∨ 6 ≤ m ∨ 68 ≤ l ∨ 2 ≤ h.get (Reg.siteModuleState k m) ∨ h.on (Reg.siteModuleStalled k m) ∨ kmem x.condemned key
        ∨ (tget [] x.laneErr key).length < h.get Reg.siteRimeCfgLaneTh then h
    else
      let h := h.onSite k (fun x => { x with condemned := kadd x.condemned key })
      if !h.laneUsed k m toHub l then h
      else (h.onSite k (fun x => { x with actions := x.actions ++ [(m, h.laneAction k m toHub, key % 256)] })).set (Reg.siteModuleStalled k m) 1) s

/-- A site record of a lane or module (Table 5 of 22). -/
def Hub.laneRec (h : Hub) (code k m lane : Nat) : Hub :=
  h.record { code := code, cls := 0, inst := k, die := k / 8, d0 := m + 2 ^ 3 * lane }

/-- A lane remapped to a redundant one: where the lane was itself a redundant one, what it stood for moves on. -/
def Hub.laneRemap (h : Hub) (k m lk : Nat) : Hub :=
  let toHub := decide (lk < 128)
  let x := h.site k
  match x.freeSpare m toHub with
  | none => h
  | some r =>
    let l := tget (lk % 128) x.spares (256 * m + lk)
    let sp := tput (terase x.spares (256 * m + lk)) (laneKey m toHub r) l
    let n := (sp.filter (fun y => decide (y.1 / 128 = laneKey m toHub 0 / 128))).length
    let h := h.onSite k (fun x => { x with spares := sp })
    let h := h.set (if toHub then Reg.siteModuleSparesIn k m else Reg.siteModuleSparesOut k m) n
    (h.event Reg.siteEventLane).laneRec 0x0601 k m (lk % 128)

/-- A module degraded to x32 on its clean halves. -/
def Hub.laneDegrade (h : Hub) (k m lk : Nat) : Hub :=
  let x := h.site k
  let h := h.sets [(Reg.siteModuleState k m, 1), (Reg.siteModuleHalf k m, (x.cleanHalf m true).getD 0),
    (Reg.siteModuleHalfOut k m, (x.cleanHalf m false).getD 0)]
  (h.event Reg.siteEventDegraded).laneRec 0x0602 k m (lk % 128)

/-- A module retired. -/
def Hub.laneRetire (h : Hub) (k m lk : Nat) : Hub :=
  ((h.set (Reg.siteModuleState k m) 2).event Reg.siteEventRetired).laneRec 0x0603 k m (lk % 128)

/-- MODULE_ACTION_DONE (R310, Table 13 steps 3 and 4): the last module gone fences the site with cause 5. -/
def execModuleActionDone (site : BitVec 4) (mod : BitVec 3) (ok : Bool) (s : State) : Host.Outcome State Fault Refusal :=
  let k := site.toNat
  let m := mod.toNat
  hubStep (fun h =>
    match (h.site k).actions.find? (fun a => decide (a.1 = m)) with
    | none => h
    | some (_, a, lk) =>
      let h := (h.onSite k (fun x => { x with actions := x.actions.filter (fun a => !decide (a.1 = m)) })).set (Reg.siteModuleStalled k m) 0
      let h := if !ok || decide (a = 2) then h.laneRetire k m lk else if a = 0 then h.laneRemap k m lk else h.laneDegrade k m lk
      let h := h.siteRaw k
      if h.get (Reg.siteStatusActive k) = 0 then h.fence k 5
      else (h.set (Reg.siteStatusState k) (h.siteLive k)).rescale k) s

end Sys2Proof.Machine
end

