-- ==== Sys2Proof/Machine/Boot.lean ====
section
/-! DEFINITION. The boot sequence (03: R69-R78; 02: R27-R29, R34-R38, R51): the steps of Table 8, the Package Descriptor, the halt of R74,
supply groups, Hot Reset, and the end of a security-core activation. -/

namespace Sys2Proof.Machine

-- The Package Descriptor (R34-R36)

/-- A number whose bytes from `off` on, `n` of them, are zero. -/
def zeroAt (v off n : Nat) : Bool := decide (imf v off n = 0)

/-- The header of a descriptor is in range and its reserved bytes are zero (Table 4 of 02). -/
def pdHeaderOk (v : Nat) : Bool :=
  let d := imf v 0x14 1
  let nst := popCount 12 (imf v (pdDie 0 + 2) 2) + (if d = 2 then popCount 12 (imf v (pdDie 1 + 2) 2) else 0)
  decide (imf v 0 4 = 0x44504845) && decide (imf v 4 2 = 1) && (d == 1 || d == 2) && decide (imf v 6 2 = 192 + 512 * d)
    && (imf v 0x15 1 == 3 || imf v 0x15 1 == 4) && decide (450 * d + 30 * nst ≤ imf v 0x16 2) && decide (imf v 0x16 2 ≤ 3000)
    && decide (imf v 0x1A 1 < 4) && zeroAt v 0x1B 1 && (decide (imf v 0x1C 4 ≠ 0) || zeroAt v 0x20 4) && zeroAt v 0x24 28

/-- The masks of a die section are in range (Table 5 of 02). -/
def pdMasksOk (v d : Nat) : Bool :=
  let a := pdDie d
  decide (imf v a 1 = d) && decide (imf v (a + 2) 2 < 4096) && zeroAt v (a + 4) 4 && zeroAt v (a + 0xE) 2 && zeroAt v (a + 0x1B0) 80

/-- The entries of a die section are in range (Tables 6-8 of 02). -/
def pdEntriesOk (v d : Nat) : Bool :=
  let a := pdDie d
  (List.range 8).all (fun i =>
    let s := a + 0x10 + 16 * i
    decide (imf v s 1 ≤ 8) && decide (imf v (s + 1) 1 < 4) && decide (imf v (s + 2) 2 ≤ 270) && decide (imf v (s + 4) 1 < 64)
      && decide (imf v (s + 5) 1 < 4) && zeroAt v (s + 6) 2)
    && (List.range 12).all (fun i =>
      let s := a + 0x90 + 16 * i
      decide (imf v s 1 ≤ 4) && decide (imf v (s + 1) 1 < 3) && decide (imf v (s + 2) 1 ≤ 30) && decide (imf v (s + 3) 1 < 2) && zeroAt v (s + 6) 10)
    && (List.range 12).all (fun i =>
      let s := a + 0x150 + 8 * i
      decide (imf v s 1 < 3) && decide (imf v (s + 1) 1 < 2) && zeroAt v (s + 2) 6)

/-- What Blank uses of a descriptor (R35): header and die masks, and for each stack 8.0 Gb/s, FULL and 30 W. -/
def pdBlank (v : Nat) : Nat :=
  bits v 0 512 + ((List.range 2).map (fun d =>
    2 ^ (8 * pdDie d) * (bits v (8 * pdDie d) 128 + ((List.range 12).map (fun m =>
      if bitAt v (8 * (pdDie d + 2) + m) then 2 ^ (8 * (0x90 + 16 * m)) * (2 * 2 ^ 8 + 30 * 2 ^ 16) else 0)).sum))).sum

/-- The key a descriptor's KEY byte names where the life-cycle state takes it (R35): 1 the vendor test key, else an owner hash. -/
def Hub.pdKey (h : Hub) (key : Nat) : Option Nat :=
  if key = 0xFF then (if h.life = 1 then some 1 else none)
  else
    let k := if key = 0 then h.perma.owner0 else if key = 1 then h.perma.owner1 else 0
    if k = 0 then none else some k

/-- The descriptor verifies (R35, R36): its range, its reserved bytes and, but for Blank, its signature. -/
def Hub.pdGood (h : Hub) (off v : Nat) : Bool :=
  let n := imf v 6 2
  let dies := List.range (imf v 0x14 1)
  pdHeaderOk v && dies.all (pdMasksOk v)
    && (decide (h.life = 0)
      || (dies.all (pdEntriesOk v) && zeroAt v (n - 127) 15 && zeroAt v (n - 16) 16
        && (match h.pdKey (imf v (n - 128) 1) with
          | some k => Config.sigOk k (h.flashBytes off (n - 128)) (h.flashBytes (off + n - 112) 96)
          | none => false)))

/-- The descriptor read and verified (step 3 of Table 8): the die's own section must name the die's role (R494). -/
def Hub.pdLoad (h : Hub) (off : Nat) : Hub :=
  let v := h.ff off 1216
  let raw := bits v 0 (8 * (if imf v 0x14 1 = 2 then 1216 else 704))
  if h.pdGood off v then
    { h with boot := { h.boot with pdRaw := raw, pd := if h.life = 0 then pdBlank raw else raw, pdBad := !h.boot.role } }
  else { h with boot := { h.boot with pdRaw := raw, pd := 0, pdBad := true } }

-- The end of a boot that does not reach readiness

/-- The boot stops at a stage: recovery, End of Life, held, or halted. -/
def Hub.bootStop (h : Hub) (stage recovery : Nat) : Hub :=
  let n : Hub := { h with boot := { h.boot with step := 11, crs := false } }
  n.sets [(Reg.glbBootStatusStage, stage), (Reg.glbBootStatusRecovery, recovery)]

/-- A boot step ends: the stage shown, and the step that starts. -/
def Hub.bootNext (h : Hub) (stage next : Nat) : Hub :=
  let n : Hub := { h with boot := { h.boot with step := next } }
  n.set Reg.glbBootStatusStage stage

/-- A record of the boot (source 0x0E of Table 5 of 22): the stage shown and a cause. -/
def Hub.bootRec (h : Hub) (code cause die : Nat) : Hub :=
  h.record { code := code, cls := 0, die := die, d0 := h.get Reg.glbBootStatusStage + 2 ^ 8 * cause }

/-- Step 1: the life-cycle state; FAULT_N is released. -/
def Hub.boot1 (h : Hub) : Hub :=
  let q := h.lifeVote
  let n : Hub := { q.2 with boot := { q.2.boot with faultN := false } }
  (n.sets [(Reg.cfgModeLifecycle, q.1), (Reg.cfgModeTwin, b2n h.boot.twinEn), (Reg.cfgModePrimary, b2n h.boot.role),
    (Reg.glbRevSiliconRev, h.perma.rev), (Reg.glbUnitIdUnitId, h.perma.unit)]).bootNext 0x01 2

/-- The die is a twin's secondary: it reads no flash and takes its images from the primary (R60, R27). -/
def Hub.secondary (h : Hub) : Bool := !h.boot.role && h.boot.twinEn

/-- Step 2: End of Life stops here; BOOT_MODE (Table 2; R495); the flash directory (R60). -/
def Hub.boot2 (h : Hub) : Hub :=
  if h.life = 3 then h.bootStop 0x83 0
  else if h.secondary then h.bootNext 0x02 3
  else
    let m := h.boot.bootMode
    let h := if m = 3 then h.bootRec 0x0E01 0 0 else h
    if m = 1 then h.bootStop 0x85 1
    else
      let h : Hub := { h with sec := { h.sec with testAccess := decide (m = 2) && decide (h.life < 2) } }
      if h.dir.isNone then h.bootStop 0x82 1 else h.bootNext 0x02 3

/-- Step 3: the slot and its images, the descriptor; the security core starts with a new alias key (R449). -/
def Hub.boot3 (h : Hub) : Hub :=
  if h.secondary then h.bootNext 0x03 4
  else match h.dir with
    | none => h.bootStop 0x82 1
    | some d =>
      match h.selectSlot d with
      | (none, h) => h.bootStop 0x82 1
      | (some (slot, trial, imgs), h) =>
        let n : Hub := { h with boot := { h.boot with images := imgs }, sec := { h.sec with aliasKeys := h.sec.aliasKeys + 1 } }
        ((n.sets [(Reg.glbBootStatusSlot, slot), (Reg.glbBootStatusTrial, b2n trial)]).pdLoad d.pdOff).bootNext 0x03 4

-- Step 4: the partner, the feature level, the service level

/-- The halt of R74. -/
def Hub.roleHalt (h : Hub) : Hub :=
  let n : Hub := { h with boot := { h.boot with halt := true, faultN := true } }
  n.bootStop 0x81 0

/-- The secondary is held in reset and the package boots as a single hub (R76, R28, R29). -/
def Hub.partnerHeld (h : Hub) : Hub :=
  if h.on Reg.glbBootStatusPartnerHeld then h else (h.set Reg.glbBootStatusPartnerHeld 1).bootRec 0x0E05 0 0

/-- The partner forms a twin with this primary (R27, R28, R76, R473). -/
def Hub.twinForms (h : Hub) (p : Partner) : Bool :=
  p.twinEn && decide (h.pdDies = 2) && decide (3 ≤ p.fl.toNat) && decide (p.life.toNat = h.life) && !h.on Reg.glbBootStatusPartnerHeld

/-- What bridge Sounding found, for a die that boots as primary or alone; the number of dies that run. -/
def Hub.partnerMet (h : Hub) (x : Option Partner) : Hub :=
  let h : Hub := { h with boot := { h.boot with partner := x } }
  if !h.boot.twinEn then
    let h : Hub := if h.pdDies = 2 then { h with boot := { h.boot with pdBad := true } } else h
    (match x with
      | some p => if p.twinEn then h.bootRec 0x0E05 0 0 else h
      | none => h).sets [(Reg.cfgModeTwin, 0), (Reg.glbRevFeatureLevel, h.perma.fl)]
  else match x with
    | none => h.partnerHeld.sets [(Reg.cfgModeTwin, 0), (Reg.glbRevFeatureLevel, h.perma.fl)]
    | some p =>
      if !p.twinEn then h.partnerHeld.sets [(Reg.cfgModeTwin, 0), (Reg.glbRevFeatureLevel, h.perma.fl)]
      else
        let h := h.sets [(Reg.glbRevPartnerRev, p.rev.toNat), (Reg.glbRevPartnerFl, p.fl.toNat)]
        if h.twinForms p then
          h.sets [(Reg.cfgModeTwin, 1), (Reg.glbRevTwin, 1), (Reg.glbPartnerUnitIdUnitId, p.unit.toNat),
            (Reg.glbRevFeatureLevel, min h.perma.fl p.fl.toNat)]
        else
          let h : Hub := if h.boot.pd ≠ 0 ∧ h.pdDies = 1 then { h with boot := { h.boot with pdBad := true } } else h
          let h := if p.life.toNat = h.life then h else h.lifeRec 0x0D05 0
          h.partnerHeld.sets [(Reg.cfgModeTwin, 0), (Reg.glbRevFeatureLevel, h.perma.fl)]

/-- The service level (R36, R65, R66): the cause of Whiteout, 0 for Full service. -/
def Hub.service (h : Hub) : Hub :=
  let fl := h.get Reg.glbRevFeatureLevel
  let ws := match h.dir with
    | some d => h.waivers d
    | none => []
  let h := ws.foldl (fun h w => if w.1 then h else h.bootRec 0x0E02 0 0) h
  let c := compat (h.boot.images.map (·.2)) fl (ws.filterMap (·.2))
  let bad := h.boot.pdBad || decide (fl < h.pdf 0x15 1)
  let h := if bad then h.bootRec 0x0E06 3 0 else h
  let h := if c.1 ≠ 0 then h.bootRec 0x0E06 c.1 0 else h
  let cause := if c.1 ≠ 0 then c.1 else if bad then 3 else 0
  h.sets [(Reg.glbHostIfVersion, c.2), (Reg.cfgModeFeatureLevel, fl), (Reg.cfgModeWhiteout, b2n (decide (cause ≠ 0))),
    (Reg.cfgModeWhiteoutCause, cause), (Reg.siteInfoMaxMinor, if fl = 3 then 2 else 3), (Reg.siteInfoSites, 8 * h.dies)]

/-- Step 4. A secondary that finds no twin partner stays held (R29, R76, R473); one of a formed pair runs under its primary. -/
def Hub.boot4 (h : Hub) (x : BootIn) : Hub :=
  match x.partner with
  | some p =>
    if h.boot.twinEn && p.twinEn && decide (p.role = h.boot.role) then h.roleHalt
    else if h.secondary then
      h.bootStop (if p.twinEn && decide (3 ≤ h.perma.fl) && decide (p.life.toNat = h.life) then 0x04 else 0x84) 0
    else (h.partnerMet x.partner).service.bootNext 0x04 5
  | none => if h.secondary then h.bootStop 0x84 0 else (h.partnerMet none).service.bootNext 0x04 5

/-- Step 5: the endpoint answers with CRS once PERST_N is released. STAGE has no code of its own for it. -/
def Hub.boot5 (h : Hub) : Hub := { h with boot := { h.boot with step := 6, crs := !h.boot.perst } }

/-- The newest Hub-fatal record of the previous boot (R480). -/
def Hub.lastFatal (h : Hub) : Option MorRec :=
  let next := h.get Reg.morNextSeqSeq
  (h.mor.map (·.2)).foldl (fun b r =>
    if r.cls = 3 ∧ r.boot = (h.boots + 2 ^ 16 - 1) % 2 ^ 16 then
      (match b with
        | none => some r
        | some y => if seqAge next r.seq < seqAge next y.seq then some r else b)
    else b) none

/-- The last reset was a recovery from a hub-fatal error. -/
def Hub.wasFatal (h : Hub) : Bool := h.on Reg.glbResetCauseHubFatal || h.on Reg.glbResetCauseWatchdog

/-- The boot-up message, on which the node enters Pre-operational (R440). -/
def Hub.canBoot (h : Hub) : Hub :=
  Hub.canSend { h with alm := { h.alm with nmt := 1 } } (0x700 + h.boot.nodeId) 1 0

/-- Step 6: the management core starts; grants stand at the floor; a brake asserted before now applies (R492). -/
def Hub.boot6 (h : Hub) : Hub :=
  let n : Hub := { h with boot := { h.boot with pumpHigh := false } }
  let h := ((n.sets [(Reg.secStatusReady, 1), (Reg.cfgDescSerial, h.pdf 0x10 4)]).bootNext 0x05 7).canBoot
  let h := h.setGrants ((List.range h.dies).map (fun d => (d, 4500)) ++ h.presentStacks.map (fun k => (16 + k, 300)))
  let h := if h.wasFatal then (match h.lastFatal with
    | some r => h.emcy (emcyCode r.code) r.code
    | none => h) else h
  let h : Hub := if h.iso.brakeEarly then Hub.rebrake { h with iso := { h.iso with brakePin := true, brakeEarly := false } } h.brakes else h.showBudget
  h.pumps

-- Step 7: the stacks

/-- One stack as training found it (R71, R38): ready, or unused. -/
def State.stackFound (s : State) (n : Nat) (x : StackFound) : State :=
  let h := s.hub
  if !bitAt (h.pdStackMask (n / 12)) (n % 12) || (decide (h.life ≠ 0) && decide (h.pdDensity n = 0)) then s
  else
    let blank := decide (h.life = 0)
    let den := if blank then x.density.toNat else h.pdDensity n
    let good := x.ok && (blank || (decide (x.density.toNat = h.pdDensity n) && (decide (h.pdMaker n = 0) || decide (x.maker.toNat = h.pdMaker n))))
    let sp := min x.speed.toNat (h.pdMaxSpeed n)
    let n0 := h.sets [(Reg.hbmStackInfoDensity n, den), (Reg.hbmStackInfoMaker n, x.maker.toNat), (Reg.hbmStackInfoSpeed n, sp),
      (Reg.hbmStackCtrlSpeed n, h.pdMaxSpeed n),
      (Reg.hbmErrCountRepairs n, min 255 ((h.journal.filter (fun j => (decide (j.state = 0x7F) || decide (j.state = 0x3F))
        && decide (j.die = n / 12) && decide (j.stack = n % 12) && decide (j.unit = h.perma.unit))).length))]
    let rec' (h : Hub) (code : Nat) : Hub := h.record { code := code, cls := 0, inst := n, die := n / 12, d0 := n }
    if good then
      let h := n0.set (Reg.hbmStackInfoState n) 2
      let h := if sp < h.pdMaxSpeed n then rec' h 0x0306 else h
      ⟨h, (s.mem.unfillHalf (2 * n)).unfillHalf (2 * n + 1), s.pending⟩
    else { s with hub := rec' (n0.set (Reg.hbmStackInfoState n) 3) 0x0308 }

/-- Whether sites and links come up: not in Blank nor in Whiteout (Table 2 of 02). -/
def Hub.fullService (h : Hub) : Bool := decide (h.life ≠ 0) && !h.whiteout

/-- A populated site starts Sounding, or is fenced where every site is (Table 12 of 12, cause 11). -/
def Hub.siteBoot (k : Nat) (h : Hub) : Hub :=
  if !bitAt (h.pdSiteMask (k / 8)) (k % 8) then h
  else if h.fullService then h.soundStart k
  else h.sets [(Reg.siteStatusState k, 4), (Reg.siteStatusCause k, 11)]

/-- A routed link of an enabled quad starts training. -/
def Hub.linkBoot (l : Nat) (h : Hub) : Hub :=
  if h.fullService && bitAt (h.pdLinkMask (l / 48)) (l % 48) && decide (h.pdQuadMode (l / 4) ≠ 0) then h.set (Reg.lnkStatusState l) 1 else h

/-- Step 7 ends: the stacks have trained and every page is unfilled; step 8 starts. -/
def State.boot7 (s : State) (x : BootIn) : State :=
  let s := (List.range (12 * s.hub.dies)).foldl (fun s n => s.stackFound n (x.found.getD n ⟨false, 0, 0, 0⟩)) s
  s.onHub (fun h =>
    let h := h.bootNext 0x06 8
    overList Hub.linkBoot (List.range (48 * h.dies)) (overList Hub.siteBoot (List.range (8 * h.dies)) h))

-- Step 9: epoch 1

/-- A value of the descriptor outside its column, recorded once per item (R37): 1 stack ECC, 3 power class. -/
def Hub.columnRec (h : Hub) (die item : Nat) : Hub := h.bootRec 0x0E08 item die

/-- The power class of epoch 1: the descriptor's, or the floor where the column does not allow it (R37). -/
def Hub.bootClass (h : Hub) : Hub :=
  let c := h.pdf 0x18 2
  let okc := if h.life = 0 then decide (c = h.floorW) else decide (h.floorW ≤ c) && decide (c ≤ h.pdBudget)
  let h := h.sets [(Reg.cfgPowerClassW, if okc then c else h.floorW), (Reg.cfgPowerBrakeLevel, h.pdf 0x1A 1)]
  if okc ∨ h.boot.pd = 0 then h else h.columnRec 0 3

/-- The ECC mode of epoch 1 of a ready stack: DIAG only in Test and in Full service (R37). -/
def State.bootEcc (s : State) (n : Nat) : State :=
  if s.hub.pdEcc n = 0 ∨ s.hub.get (Reg.hbmStackInfoState n) ≠ 2 then s
  else if s.hub.life = 1 then
    if s.hub.whiteout then s
    else (s.stackEcc n 1).onHub (·.set (Reg.hbmStackCtrlEcc n) 1)
  else s.onHub (·.columnRec (n / 12) 1)

/-- The initial forecast set dropped (R51). -/
def Hub.setDropped (h : Hub) (cause item : Nat) : Hub :=
  (h.cfgDrop.sets [(Reg.cfgStatusLastCause, cause), (Reg.cfgStatusLastItem, item)]).bootRec 0x0E04 cause 0

/-- The initial forecast set of the descriptor, applied as part of epoch 1 where it is legal (R43, R51). -/
def State.bootSet (s : State) : State :=
  let off := s.hub.pdf 0x1C 4
  let len := s.hub.pdf 0x20 4
  if off = 0 ∨ s.hub.cfgClosed then s
  else
    let v := s.hub.ff off len
    match s.hub.fsetParse v with
    | none => s.onHub (·.setDropped 0x0A 0)
    | some l =>
      if len ≠ 16 + 16 * l.length then s.onHub (·.setDropped 0x0A 0)
      else
        let r := s.fsetApply 15 l
        if r.cause ≠ 0 then r.s.onHub (·.setDropped r.cause 0)
        else
          let c := r.s.hub.validate
          if c.1 ≠ 0 then r.s.onHub (·.setDropped c.1 c.2)
          else r.s.applyConfig.onHub (·.cfgDrop)

/-- The stacks run at the speed of epoch 1, no faster than they trained. -/
def Hub.bootSpeed (n : Nat) (h : Hub) : Hub :=
  h.set (Reg.hbmStackInfoSpeed n) (min (h.get (Reg.hbmStackInfoSpeed n)) (h.get (Reg.hbmStackCtrlSpeed n)))

/-- Step 9 ends: epoch 1 stands, traffic leaves the Halo rings, CRS ends (R69, R70). -/
def State.boot9 (s : State) : State :=
  let s := s.onHub Hub.bootClass
  let s := (List.range (12 * s.hub.dies)).foldl (fun s n => s.bootEcc n) s
  let s := s.bootSet
  s.onHub (fun h =>
    let h := overList Hub.bootSpeed (List.range 24) h
    let h := h.boot.notes.foldl (fun h x => h.lifeRec x.1 x.2) h
    let n : Hub := { h with boot := { h.boot with halo := false, crs := false, notes := [] } }
    let h := n.bootNext 0x0F 10
    let h := if h.wasFatal then h.event Reg.morEventHubFatal else h
    (h.showBudget).allot)

/-- BOOT_STEP_COMPLETE (R69): the step of Table 8 in hand ends. Step 8 waits for every site to leave Sounding, step 9 for PERST_N. -/
def execBootStepComplete (x : BootIn) (s : State) : Host.Outcome State Fault Refusal :=
  let h := s.hub
  if h.boot.step = 1 then hubWatch Hub.boot1 s
  else if h.boot.step = 2 then hubWatch Hub.boot2 s
  else if h.boot.step = 3 then hubWatch Hub.boot3 s
  else if h.boot.step = 4 then hubWatch (·.boot4 x) s
  else if h.boot.step = 5 then hubWatch Hub.boot5 s
  else if h.boot.step = 6 then hubWatch Hub.boot6 s
  else if h.boot.step = 7 then .next ((s.boot7 x).watch s)
  else if h.boot.step = 8 then
    (if (List.range 16).any (fun k => decide (h.get (Reg.siteStatusState k) = 1)) then .next s else hubWatch (·.bootNext 0x07 9) s)
  else if h.boot.step = 9 ∧ !h.boot.perst then .next (s.boot9.watch s)
  else .next s

/-- HALT_SERVICE_START (R74): the management core serves index 0x2000, with boot-up message and heartbeat. -/
def execHaltServiceStart (s : State) : Host.Outcome State Fault Refusal :=
  hubStep (fun h => if h.boot.halt && !h.boot.haltSvc then Hub.canBoot { h with boot := { h.boot with haltSvc := true } } else h) s

/-- PARTNER_SOUNDING_TIMEOUT (R76, R29). -/
def execPartnerSoundingTimeout (s : State) : Host.Outcome State Fault Refusal :=
  hubStep (fun h =>
    if h.boot.step ≠ 4 || !h.boot.twinEn then h
    else if h.boot.role then h.partnerHeld else h.bootStop 0x84 0) s

/-- ACTIVATION_COMPLETE (R79, R453): the new security image runs with a new alias key; no session is left. -/
def execActivationComplete (s : State) : Host.Outcome State Fault Refusal :=
  hubStep (fun h =>
    if !h.boot.activating then h
    else
      let b : Boot := { h.boot with activating := false, images := tput h.boot.images 1 (tget 0 h.boot.staged 1), staged := [] }
      let n : Hub := { h with boot := b, sec := { h.sec with aliasKeys := h.sec.aliasKeys + 1 } }
      (n.setSessions []).sets [(Reg.secStatusUpdateStaged, 0), (Reg.secStatusReady, 1)]) s

/-- HOT_RESET (R343): a Hot Reset or DL_Down is a hub reset, with its record. -/
def execHotReset (s : State) : Host.Outcome State Fault Refusal :=
  if s.hub.hasPerst && decide (5 ≤ s.hub.boot.step) && s.hub.resettable then
    .next ((s.onHub (·.record { code := 0x0A06, cls := 0 })).hubReset Reg.glbResetCausePerst false)
  else .next s

/-- SUPPLY_GROUP_UP (R490): the always-on island starts; PORST_N is still low. -/
def execSupplyGroupUp (s : State) : Host.Outcome State Fault Refusal :=
  hubStep (fun h => if h.boot.group1 then h else { h with boot := { h.boot with group1 := true } }) s

/-- SUPPLY_GROUP_LOSS (R420, R489, R490): nothing but the Permafrost store and the flash is left, and every output is released. -/
def execSupplyGroupLoss (s : State) : Host.Outcome State Fault Refusal :=
  let h := s.hub.porstLow
  .next { s with hub := { h with regs := [], tap := .rst, boot := { h.boot with group1 := false } }, mem := Memory.rst }

end Sys2Proof.Machine
end

