-- ==== Sys2Proof/Machine/Reads.lean ====
section
/-! DEFINITION. What registers read (R8, R41): fields that other state determines, the words of registers, and the forecast view. -/

namespace Sys2Proof.Machine

/-- The 64 bytes of a Moraine record (Table 4 of 22), with its CHECK (R481). -/
def MorRec.bytes (r : MorRec) : List Byte :=
  let l := leBytes 4 r.seq ++ leBytes 2 r.code ++ leBytes 1 r.cls ++ leBytes 1 r.flags ++ leBytes 1 r.part ++ leBytes 1 0 ++ leBytes 2 r.inst
    ++ leBytes 2 r.boot ++ leBytes 2 r.rep ++ leBytes 8 r.time ++ leBytes 8 r.hpa ++ leBytes 8 r.d0 ++ leBytes 8 r.d1 ++ leBytes 12 0
  l ++ leBytes 4 (crc32 l)

/-- Launches queued on a floe: neither running there nor gone (FLC_FLOE_STATUS.QUEUED). -/
def Hub.launchesQueued (h : Hub) (f : Nat) : Nat :=
  (h.sea.launches.filter (fun l => !l.2.posted && l.2.set.contains f && !l.2.running.any (fun r => decide (r.1 = f)))).length

/-- Clock of an island in MHz while it runs (Table 3 of 13). -/
def Hub.islandMhz (h : Hub) (d i : Nat) : Nat :=
  if i < 196 then 100 * h.get (Reg.flcFloeStatusFreq (256 * d + i))
  else if i < 208 then 800 + 100 * h.get (Reg.hbmStackInfoSpeed (12 * d + (i - 196)))
  else if i < 232 then 1600 else if i < 240 then 2000 else if i < 252 then 1600 else if i < 268 then 2000
  else if i < 270 then 1000 else if i = 270 then 800 else 400

/-- State of an island (QOS_ISLAND.STATE): in reset until the boot releases it, off when a trip stops the clocks, else running or
clock-gated. -/
def Hub.islandState (h : Hub) (d i : Nat) : Nat :=
  if h.dies ≤ d then 0
  else if i = 271 then 2
  else if h.boot.stopped then 0
  else if h.boot.step < 10 ∧ i < 268 then 3
  else if i < 196 ∧ kmem h.sea.gated (256 * d + i) then 1
  else 2

/-- A field as a read shows it: fields that follow from other state, else the register file (R8). -/
def State.shown (s : State) (f : Fld) : Nat :=
  let h := s.hub
  let o := f.off
  if f.key = Reg.cfgStatusStaged.key then b2n (!h.cfg.staged.isEmpty)
  else if f.key = Reg.cfgModePartitions.key then h.existing.length
  else if f.key = Reg.morHeldCount.key then h.mor.length
  else if 0xE10000 ≤ o ∧ o < 0xE50000 then (match tlook h.mor ((o - 0xE10000) / 0x40) with | some r => leNat r.bytes | none => 0)
  else if f.key = Reg.xltParkParkedD0.key then h.parkedIn 0
  else if f.key = Reg.xltParkParkedD1.key then h.parkedIn 1
  else if f.key = Reg.xltParkHeld.key then ((h.xlt.held.map (fun a => (a.die, a.master.local'))).eraseDups).length
  else if 0x201000 ≤ o ∧ o < 0x202000 ∧ f.lo = 3 then h.floeOwner ((o - 0x201000) / 8)
  else if 0x201000 ≤ o ∧ o < 0x202000 ∧ f.lo = 12 then min 15 (h.launchesQueued ((o - 0x201000) / 8))
  else if 0x402000 ≤ o ∧ o < 0x402600 ∧ f.lo = 8 then h.sliceOwner ((o - 0x402000) / 8)
  else if 0x402000 ≤ o ∧ o < 0x402600 ∧ f.lo = 2 then (if h.sliceOwner ((o - 0x402000) / 8) < 24 then h.get f else 0)
  else if 0x402000 ≤ o ∧ o < 0x402600 ∧ f.lo = 32 then s.mem.dirtyLines ((o - 0x402000) / 8)
  else if 0x700100 ≤ o ∧ o < 0x700400 ∧ o % 0x20 = 0x18 ∧ f.lo = 0 then
    b2n (h.xlt.faults.any (fun x => decide (x.part = (o - 0x700100) / 0x20) && x.pendingRec))
  else if 0x700100 ≤ o ∧ o < 0x700400 ∧ o % 0x20 = 0x18 ∧ f.lo = 16 then
    (h.xlt.faults.filter (fun x => decide (x.part = (o - 0x700100) / 0x20) && x.pendingRec)).length
  else if 0x700100 ≤ o ∧ o < 0x700400 ∧ o % 0x20 = 0x18 ∧ f.lo = 32 then (h.xlt.faults.filter (fun x => decide (x.part = (o - 0x700100) / 0x20))).length
  else if 0x801000 ≤ o ∧ o < 0x801400 ∧ f.lo = 3 then h.engOwner ((o - 0x801000) / 8)
  else if 0x90A000 ≤ o ∧ o < 0x90C000 ∧ f.lo = 0 then h.islandState ((o - 0x90A000) / 0x1000) ((o - 0x90A000) % 0x1000 / 8)
  else if 0x90A000 ≤ o ∧ o < 0x90C000 ∧ f.lo = 8 then
    (if h.islandState ((o - 0x90A000) / 0x1000) ((o - 0x90A000) % 0x1000 / 8) = 2 then
      h.islandMhz ((o - 0x90A000) / 0x1000) ((o - 0x90A000) % 0x1000 / 8) else 0)
  else if 0xA01000 ≤ o ∧ o < 0xA02800 ∧ o % 0x100 = 8 ∧ f.lo = 3 then
    b2n ((h.halvesOf ((o - 0xA01000) / 0x100)).any (fun k => decide (s.unfilledCount k ≠ 0)))
  else if 0xA01000 ≤ o ∧ o < 0xA02800 ∧ o % 0x100 = 0x90 then ((h.halvesOf ((o - 0xA01000) / 0x100)).map s.unfilledCount).sum
  else if 0xB01000 ≤ o ∧ o < 0xB01300 ∧ f.lo = 16 then h.linkOwner ((o - 0xB01000) / 8)
  else if 0x1110000 ≤ o ∧ o < 0x1140000 ∧ f.lo = 194 then
    (let p := (o - 0x1110000) / 0x2000
     let t := (o - 0x1110000) % 0x2000 / 0x20
     b2n (!h.promotable p t || decide (h.get (Reg.dewTagFmt p t) = h.get (Reg.dewTagCeil p t))))
  else h.get f

/-- The engine of a global number is there: SITE_ENG_STATUS.STATE is not 0 (Table of SITE_ENG_STATUS in 12). -/
def Hub.hasEngine (h : Hub) (e : Nat) : Bool := decide (h.get (Reg.siteEngStatusState e) ≠ 0)

/-- The register at an offset is an entry of a unit that the package does not have: a floe (04), a stack or slice of an absent die (08,
09), an engine or a site of an absent die (11, 12), a port, a die's islands (13), a link (16), a die or a stack (18). It reads zero. -/
def Hub.absentEntry (h : Hub) (o : Nat) : Bool :=
  let noDie (d : Nat) : Bool := decide (h.dies ≤ d)
  if 0x201000 ≤ o ∧ o < 0x203000 then noDie (o % 0x1000 / 8 / 256) || decide (196 ≤ o / 8 % 256)
  else if 0x401000 ≤ o ∧ o < 0x403000 then noDie (o % 0x1000 / 8 / 96)
  else if 0x500000 ≤ o ∧ o < 0x500300 then noDie (o % 0x100 / 8 / 12)
  else if 0x701000 ≤ o ∧ o < 0x701400 then !h.hasEngine (o % 0x1000 / 8)
  else if 0x800100 ≤ o ∧ o < 0x800200 then noDie (o % 0x80 / 8 / 8)
  else if 0x800200 ≤ o ∧ o < 0x800600 then noDie ((o - 0x800200) / 0x40 / 8)
  else if 0x800600 ≤ o ∧ o < 0x800680 then noDie (o % 0x80 / 8 / 8)
  else if 0x801000 ≤ o ∧ o < 0x801C00 then !h.hasEngine (o % 0x400 / 8)
  else if 0x804000 ≤ o ∧ o < 0x808000 then !h.hasEngine ((o - 0x804000) / 0x80)
  else if 0x902000 ≤ o ∧ o < 0x906000 then noDie (o % 0x2000 / 8 / 512) || decide (298 ≤ o % 0x2000 / 8 % 512)
  else if 0x908000 ≤ o ∧ o < 0x908080 then noDie (o % 0x80 / 0x40)
  else if 0x90A000 ≤ o ∧ o < 0x90C000 then noDie ((o - 0x90A000) / 0x1000)
  else if 0x910000 ≤ o ∧ o < 0x914000 then noDie ((o - 0x910000) / 0x2000)
  else if 0xB01000 ≤ o ∧ o < 0xB02000 then noDie (o % 0x1000 / 8 / 48)
  else if 0xB02000 ≤ o ∧ o < 0xB06000 then noDie (o % 0x2000 / 0x40 / 48)
  else if 0xB40000 ≤ o ∧ o < 0xB80000 then noDie ((o - 0xB40000) / 0x20000)
  else if 0xD00100 ≤ o ∧ o < 0xD00200 then noDie (o % 0x100 / 8)
  else if 0xD00200 ≤ o ∧ o < 0xD00300 then decide (h.get (Reg.hbmStackInfoState (o % 0x100 / 8)) = 0)
  else if 0xD00400 ≤ o ∧ o < 0xD00600 then noDie ((o - 0xD00400) / 0x100)
  else false

/-- A register as a read shows it, in the plain view or the forecast view (R41); WO fields read zero (R8), and so does an entry of a unit
that is not there. -/
def State.regWord (s : State) (r : RegAt) (fview : Bool) : Nat :=
  if s.hub.absentEntry r.off then 0 else
  (r.pieces.map (fun p =>
    let v : Nat := match p.f.ty with
      | .wo => 0
      | .rwf => if fview then s.hub.view p.f.fld else s.hub.get p.f.fld
      | _ => s.shown p.f.fld
    bits v p.dst p.len * 2 ^ p.src)).sum

/-- The register at an offset of the PF's BAR0, read whole; zero where there is none. -/
def State.regRead (s : State) (off : Nat) : Nat :=
  match s.hub.regAt 0 off with
  | some r => s.regWord r false
  | none => 0

end Sys2Proof.Machine
end

