-- ==== Sys2Proof/Machine/Almanac.lean ====
section
/-! DEFINITION. The Almanac (19): its entries, types and access (R431-R435), service by state (R434), refusals (R445), locks (R446),
update objects (R436), the effects of writes (R433, R425-R427), and reads. -/

namespace Sys2Proof.Machine

/-- Access types (R432). -/
inductive OdAcc where
  | ro | rw | wo | rwf
  deriving DecidableEq, Repr

/-- An entry: its bytes (none: DOMAIN) and its access. -/
structure OdObj where
  size : Option Nat
  acc : OdAcc
  deriving DecidableEq, Repr

/-- What looking an entry up finds. -/
inductive OdLook where
  | noIndex
  | noSub
  | found (o : OdObj)
  deriving DecidableEq, Repr

/-- An array of sub-indices 1 to `n` of one type, with sub-index 0. -/
def odArray (sub n size : Nat) (a : OdAcc) : OdLook :=
  if sub = 0 then .found ⟨some 1, .ro⟩ else if sub ≤ n then .found ⟨some size, a⟩ else .noSub

/-- A single entry, at sub-index 0 only. -/
def odVar (sub : Nat) (o : OdObj) : OdLook := if sub = 0 then .found o else .noSub

/-- A record: sub-index 0, and the entries listed. -/
def odRec (sub : Nat) (l : List (Nat × Nat × OdAcc)) : OdLook :=
  if sub = 0 then .found ⟨some 1, .ro⟩
  else match l.find? (fun x => decide (x.1 = sub)) with
    | some x => .found ⟨some x.2.1, x.2.2⟩
    | none => .noSub

/-- The entries of Table 3 and of Table 6 of 18 (R431, R435). -/
def odLook (ix sub : Nat) : OdLook :=
  if ix = 0x1000 then odVar sub ⟨some 4, .ro⟩
  else if ix = 0x1001 then odVar sub ⟨some 1, .ro⟩
  else if ix = 0x1005 ∨ ix = 0x1014 then odVar sub ⟨some 4, .rw⟩
  else if ix = 0x1015 ∨ ix = 0x1017 then odVar sub ⟨some 2, .rw⟩
  else if ix = 0x1016 then odArray sub 1 4 .rw
  else if ix = 0x1018 then odArray sub 4 4 .ro
  else if 0x1400 ≤ ix ∧ ix ≤ 0x1407 then odRec sub [(1, 4, .rw), (2, 1, .rw)]
  else if (0x1600 ≤ ix ∧ ix ≤ 0x1607) ∨ (0x1A00 ≤ ix ∧ ix ≤ 0x1A07) then odArray sub 16 4 .rw
  else if 0x1800 ≤ ix ∧ ix ≤ 0x1807 then odRec sub [(1, 4, .rw), (2, 1, .rw), (3, 2, .rw), (5, 2, .rw)]
  else if ix = 0x2000 then odRec sub [(1, 1, .ro), (2, 1, .ro), (3, 1, .ro), (4, 1, .ro), (5, 2, .ro), (6, 1, .ro), (7, 1, .ro), (8, 8, .ro)]
  else if ix = 0x2001 then odArray sub 2 2 .rw
  else if ix = 0x2010 then
    (if sub = 2 then .found ⟨none, .wo⟩ else odRec sub [(1, 4, .rw), (3, 1, .wo), (4, 1, .wo), (5, 1, .wo), (6, 1, .ro)])
  else if ix = 0x2100 then odRec sub [(1, 4, .ro), (2, 8, .wo), (3, 4, .ro), (4, 4, .rw), (5, 1, .rw), (6, 4, .ro)]
  else if ix = 0x2101 then
    (if 0x10 ≤ sub ∧ sub ≤ 0x1F then .found ⟨some 4, .ro⟩ else odRec sub [(1, 2, .wo), (2, 2, .wo), (3, 2, .rw), (4, 2, .wo)])
  else if ix = 0x2200 then odRec sub [(1, 2, .rwf), (2, 1, .rwf)]
  else if ix = 0x2201 then odArray sub 3 2 .ro
  else if ix = 0x2210 ∨ ix = 0x2211 then odArray sub 1 2 .rw
  else if ix = 0x2212 ∨ ix = 0x2311 then odArray sub 1 1 .rw
  else if ix = 0x2213 then odRec sub [(1, 2, .ro), (2, 1, .ro)]
  else if ix = 0x2300 then odArray sub 2 1 .ro
  else if ix = 0x2301 then odArray sub 2 1 .rw
  else if ix = 0x2310 then odRec sub [(1, 2, .rw), (2, 1, .rw), (3, 5, .rw)]
  else if ix = 0x2320 then odArray sub 1 1 .ro
  else if ix = 0x2400 ∨ ix = 0x2800 then odArray sub 24 8 .ro
  else if ix = 0x2500 then odArray sub 192 8 .ro
  else if ix = 0x2600 ∨ ix = 0x2601 then odArray sub 16 8 .ro
  else if ix = 0x2700 then odArray sub 96 8 .ro
  else if ix = 0x2801 then odArray sub 24 1 .wo
  else if ix = 0x2900 then odArray sub 3 4 .ro
  else if ix = 0x2910 then odVar sub ⟨none, .wo⟩
  else if ix = 0x2A00 then odRec sub [(1, 4, .ro), (2, 4, .rw)]
  else if ix = 0x2A01 then odVar sub ⟨none, .ro⟩
  else if ix = 0x2B00 then odArray sub 8 8 .ro
  else .noIndex

/-- The highest sub-index of an entry (R431). -/
def odHigh (ix : Nat) : Nat :=
  ((List.range 256).reverse.find? (fun k => decide (k ≠ 0) && (match odLook ix k with | .found _ => true | _ => false))).getD 0

/-- An object that an RPDO can map, with its length in bits. -/
def rpdoLen (k : Nat) : Option Nat :=
  if k = 0x221001 ∨ k = 0x231001 then some 16 else if k = 0x221201 ∨ k = 0x231002 then some 8 else if k = 0x231003 then some 40 else none

/-- An object that a TPDO can map, with its length in bits. -/
def tpdoLen (k : Nat) : Option Nat := (Hub.rst.tpdoObj k).map (·.1)

-- Service by state (R434)

/-- Which reads and writes are served now. -/
inductive OdLevel where
  | silent                -- the interface does not answer
  | only (r w : List Nat) -- the indices that can be read, and written
  | early                 -- boot steps 6-8
  | whiteout
  | full
  deriving DecidableEq, Repr

/-- Service on an interface (Table 2); recovery serves the update objects over the mailbox (Table 2 of 03). -/
def Hub.odLevel (h : Hub) (via : Nat) : OdLevel :=
  let wire := decide (via = 3) || (decide (via = 5) && h.canUp)
  if h.boot.stopped then .silent
  else if h.boot.halt then (if h.boot.haltSvc && wire then .only [0x2000] [] else .silent)
  else if h.boot.step = 11 then
    (if via ≠ 2 ∨ !h.bar0Up then .silent
     else if h.life = 3 then .only [0x2000, 0x2A00, 0x2A01] [0x2A00]
     else if h.on Reg.glbBootStatusRecovery then .only [0x2000, 0x2010] [0x2010]
     else .silent)
  else if h.boot.step < 7 then .silent
  else if h.boot.step < 10 then (if wire then .early else .silent)
  else if wire ∨ via = 2 ∨ via = 4 then (if h.whiteout then .whiteout else .full)
  else .silent

/-- Entries that can be written from boot step 6: communication entries, the rates, and the plant objects. -/
def odEarly (ix : Nat) : Bool :=
  decide (0x1000 ≤ ix ∧ ix < 0x2000) || decide (ix = 0x2001) || decide (0x2210 ≤ ix ∧ ix ≤ 0x2213) || decide (0x2310 ≤ ix ∧ ix ≤ 0x2320)

/-- An index can be read now. -/
def OdLevel.reads (l : OdLevel) (ix : Nat) : Bool := match l with | .silent => false | .only r _ => r.contains ix | _ => true

/-- An index can be written now. -/
def OdLevel.writes (l : OdLevel) (ix : Nat) : Bool :=
  match l with
  | .silent => false
  | .only _ w => w.contains ix
  | .early => odEarly ix
  | .whiteout => decide (ix = 0x2010) || decide (0x1000 ≤ ix ∧ ix < 0x2000)
  | .full => true

-- Refusals of Table 7

/-- Index absent. -/
def AlmAns.noIndex : AlmAns := ⟨0x02, some 0x06020000⟩
/-- Sub-index absent. -/
def AlmAns.noSub : AlmAns := ⟨0x02, some 0x06090011⟩
/-- Length does not match the type. -/
def AlmAns.len : AlmAns := ⟨0x02, some 0x06070010⟩
/-- Write to an RO entry. -/
def AlmAns.wrRo : AlmAns := ⟨0x04, some 0x06010002⟩
/-- Read of a WO entry. -/
def AlmAns.rdWo : AlmAns := ⟨0x04, some 0x06010001⟩
/-- Object not mappable. -/
def AlmAns.noMap : AlmAns := ⟨0x02, some 0x06040041⟩
/-- PDO too long. -/
def AlmAns.long : AlmAns := ⟨0x02, some 0x06040042⟩
/-- Entry locked by another interface. -/
def AlmAns.locked : AlmAns := ⟨0x04, some 0x08000021⟩
/-- Lock table full. -/
def AlmAns.full : AlmAns := ⟨0x03, some 0x08000000⟩

-- Locks (R446)

/-- The interface that locks an index; 0 none. -/
def Hub.lockOf (h : Hub) (ix : Nat) : Nat := ((h.alm.locks.find? (fun l => decide (l.1 = ix))).map (·.2)).getD 0

/-- An index is mapped into a valid RPDO. -/
def Hub.inRpdo (h : Hub) (ix : Nat) : Bool :=
  (List.range 8).any (fun n => !bitAt (h.od (0x1400 + n) 1) 31 && (h.mapped (0x1600 + n)).any (fun m => decide (m.1 / 256 = ix)))

/-- A lock refused because of another interface: counted in 0x2B00. -/
def Hub.lockRefuse (h : Hub) : AlmAns × Hub := (.locked, h.almCount 8)

/-- An index locked for an interface. -/
def Hub.lockTake (h : Hub) (via ix : Nat) : AlmAns × Hub :=
  let o := h.lockOf ix
  if odLook ix 0 = .noIndex then (.noIndex, h)
  else if ix = 0x2100 then (.range, h)
  else if o = via then (.ok, h)
  else if o ≠ 0 then h.lockRefuse
  else if via ≠ 5 ∧ h.inRpdo ix then h.lockRefuse
  else if 16 ≤ h.alm.locks.length then (.full, h)
  else (.ok, { h with alm := { h.alm with locks := h.alm.locks ++ [(ix, via)] } })

/-- An index released; one that another interface locks is refused. -/
def Hub.lockDrop (h : Hub) (via ix : Nat) : AlmAns × Hub :=
  let o := h.lockOf ix
  if o ≠ 0 ∧ o ≠ via then h.lockRefuse
  else (.ok, { h with alm := { h.alm with locks := h.alm.locks.filter (fun l => !decide (l.1 = ix)) } })

/-- Every lock released, from the PF mailbox only. -/
def Hub.lockClear (h : Hub) (via : Nat) : AlmAns × Hub :=
  if via = 2 then (.ok, { h with alm := { h.alm with locks := [] } }) else (⟨0x04, none⟩, h)

/-- The locks of an interface lapse. -/
def Hub.lockLapse (h : Hub) (owner : Nat) : Hub := { h with alm := { h.alm with locks := h.alm.locks.filter (fun l => !decide (l.2 = owner)) } }

-- Values that a write may carry (R445)

/-- A transmission type (Table 4): event-driven or synchronous. -/
def pdoType (v : Nat) : Bool := decide (v = 0xFE) || (decide (1 ≤ v) && decide (v ≤ 0xF0))

/-- A mapping entry: none, or an object that the PDO can map at its length, with room for it in 64 bytes. -/
def Hub.mapCheck (h : Hub) (base sub v : Nat) (len : Nat → Option Nat) : AlmAns :=
  if v = 0 then .ok
  else match len (v / 256) with
    | none => .noMap
    | some n =>
      if v % 256 ≠ n then .noMap
      else
        let others := ((List.range 16).map (fun i => if i + 1 = sub then 0 else h.od base (i + 1) % 256)).sum
        if 512 < others + n then .long else .ok

/-- The field of a register takes a value (R6), its other fields staying as they read. -/
def State.fieldOk (s : State) (off : Nat) (f : Fld) (v : Nat) : Bool :=
  match s.hub.regAt 0 off with
  | some r => r.pieces.all (fun p => decide (p.f.fld ≠ f) || (decide (v < 2 ^ p.len) && p.ok (putBits (s.regWord r false) p.src p.len v)))
  | none => false

/-- What refuses a value of an entry. -/
def State.odCheck (s : State) (via ix sub v : Nat) : AlmAns :=
  let h := s.hub
  let ok (b : Bool) : AlmAns := if b then .ok else .range
  if 0x1600 ≤ ix ∧ ix ≤ 0x1607 then
    (if v ≠ 0 ∧ h.lockOf (v / 65536) ≠ 0 ∧ h.lockOf (v / 65536) ≠ via then .locked else h.mapCheck ix sub v rpdoLen)
  else if 0x1A00 ≤ ix ∧ ix ≤ 0x1A07 then h.mapCheck ix sub v tpdoLen
  else if ((0x1400 ≤ ix ∧ ix ≤ 0x1407) ∨ (0x1800 ≤ ix ∧ ix ≤ 0x1807)) ∧ sub = 2 then ok (pdoType v)
  else if ix = 0x2001 then ok (if sub = 1 then v == 500 || v == 1000 else v == 2000 || v == 5000 || v == 8000)
  else if ix = 0x2010 ∧ sub = 3 then ok (decide (1 ≤ v) && decide (v ≤ 7))
  else if ix = 0x2010 ∧ (sub = 4 ∨ sub = 5) then ok (decide (v = 1))
  else if ix = 0x2101 ∧ sub = 3 then ok (decide (1 ≤ v) && decide (v ≤ 3600))
  else if ix = 0x2101 ∧ sub = 4 then ok (decide (v = 1))
  else if ix = 0x2200 then ok (s.fieldOk 0x100028 (if sub = 1 then Reg.cfgPowerClassW else Reg.cfgPowerBrakeLevel) v)
  else if ix = 0x2212 then ok (decide (v < 2))
  else if ix = 0x2301 then ok (s.fieldOk 0xD00030 (if sub = 1 then Reg.isoThermCfgThrottleC else Reg.isoThermCfgCritC) v)
  else if ix = 0x2311 then ok (decide (v < 4))
  else .ok

-- Update objects (R436)

/-- The slot that is not running; in recovery the one that is not ACTIVE. -/
def Hub.spareSlot (h : Hub) (d : Dir) : Nat :=
  if h.on Reg.glbBootStatusRecovery then (if d.active = 1 then 0 else 1) else 1 - h.get Reg.glbBootStatusSlot

/-- RESULT set. -/
def Hub.updResult (h : Hub) (a : AlmAns) : AlmAns × Hub := (a, { h with alm := { h.alm with updResult := a.st } })

/-- SLOT_DATA. -/
def Hub.slotData (h : Hub) (l : List Byte) : AlmAns × Hub :=
  match h.dir with
  | none => (.range, h)
  | some d =>
    if d.slotLen < h.alm.slotOff + l.length then (.range, h)
    else
      let h := h.flashWrite (d.base (h.spareSlot d) + h.alm.slotOff) l
      (.ok, { h with alm := { h.alm with slotOff := h.alm.slotOff + l.length } })

/-- STAGE: the spare slot verified, marked TRIAL and made ACTIVE. -/
def Hub.slotStage (h : Hub) (v : Nat) : AlmAns × Hub :=
  match h.dir with
  | none => h.updResult ⟨0x0E, none⟩
  | some d =>
    let x := h.spareSlot d
    match h.slotImages d x with
    | none => h.updResult ⟨0x0E, none⟩
    | some t =>
      let d' : Dir := { d.setSt x 2 with active := x, tries := v }
      let h := (h.writeDir d').2
      let h : Hub := { h with boot := { h.boot with staged := t } }
      (h.set Reg.secStatusUpdateStaged 1).updResult .ok

/-- CONFIRM: the running TRIAL slot becomes GOOD. -/
def Hub.slotConfirm (h : Hub) : AlmAns × Hub :=
  match h.dir with
  | none => h.updResult .state
  | some d =>
    if h.on Reg.glbBootStatusRecovery ∨ !h.on Reg.glbBootStatusTrial then h.updResult .state
    else
      let h := (h.writeDir (d.setSt (h.get Reg.glbBootStatusSlot) 1)).2
      (h.set Reg.glbBootStatusTrial 0).updResult .ok

/-- The staged set verifies, and its security image passes R66 against the images still running (R79). -/
def Hub.activateOk (h : Hub) : Bool :=
  match h.dir with
  | none => false
  | some d =>
    let imgs := (tget 0 h.boot.staged 1) :: ((h.boot.images.filter (fun x => decide (x.1 ≠ 1))).map (·.2))
    decide (h.slotImages d (h.spareSlot d) = some h.boot.staged)
      && decide ((compat imgs (h.get Reg.glbRevFeatureLevel) ((h.waivers d).filterMap (·.2))).1 = 0)

/-- ACTIVATE (R79): the security core restarts; SPDM sessions end at once (R453). -/
def Hub.activate (h : Hub) : AlmAns × Hub :=
  if h.boot.activating ∨ !h.sec.installs.isEmpty ∨ h.boot.lc.isSome then h.updResult .state
  else if !h.activateOk then h.updResult ⟨0x0E, none⟩
  else
    let h : Hub := { h with boot := { h.boot with activating := true } }
    ((h.setSessions []).set Reg.secStatusReady 0).updResult .ok

-- Effects of writes (R433)

/-- An interface's first write to SLOT_OFFSET or SLOT_DATA locks 0x2010 for it (R436). -/
def Hub.updLock (h : Hub) (via : Nat) (f : Hub → AlmAns × Hub) : AlmAns × Hub :=
  if h.lockOf 0x2010 = via then f h
  else if 16 ≤ h.alm.locks.length then (.full, h)
  else
    let q := f h
    if q.1 = .ok then (q.1, { q.2 with alm := { q.2.alm with locks := q.2.alm.locks ++ [(0x2010, via)] } }) else q

/-- POWER_LIMIT_W written (R426, R427): it lifts the cap of a heartbeat loss once a heartbeat is back. -/
def Hub.powerLimit (h : Hub) (v : Nat) : Hub :=
  let h := h.setOd 0x2210 1 v
  let h : Hub := if h.on Reg.isoStatusHbLost && h.iso.hbBack then
    { h.set Reg.isoStatusHbLost 0 with iso := { h.iso with hbBack := false } } else h
  if h.isoRuns then h.showBudget else h

/-- A change of an entry that a brake source depends on (Table 2 of 18). -/
def Hub.brakeOd (h : Hub) (ix v : Nat) : Hub :=
  let old := h.brakes
  let h := h.setOd ix 1 v
  if h.isoRuns then h.rebrake old else h

/-- COOLANT_ERROR written (R425): a coolant event starts, or ends. -/
def Hub.coolant (h : Hub) (v : Nat) : Hub :=
  let old := h.brakes
  let was := h.iso.coolant
  let h := h.setOd 0x2310 1 v
  let h : Hub := { h with iso := { h.iso with coolant := decide (v ≠ 0) } }
  if !h.isoRuns || was == decide (v ≠ 0) then h
  else
    let h := if v ≠ 0 then (h.event Reg.isoEventCoolant).powerRec 0x0B03 0 0 0 else h
    (h.rebrake old).pumps

/-- A partition command through 0x2801 (R333): the first of THAW, RESET, STOP and START is taken. -/
def State.prtWord (s : State) (via p v : Nat) : AlmAns × State :=
  let yes (b : Bool) : AlmAns := if b then .ok else .state
  if bitAt v 3 then (yes (s.hub.mayThaw p), s.prtThaw via p)
  else if bitAt v 2 then (yes (s.hub.mayReset p), s.prtReset via p)
  else if bitAt v 1 then (yes (decide (s.hub.partState p = 2)), s.onHub (·.prtStop via p))
  else if bitAt v 0 then (yes (decide (s.hub.partState p = 1)), s.onHub (·.prtStart via p))
  else (.ok, s)

/-- A result on the hub, on the state. -/
def State.ans (s : State) (f : Hub → AlmAns × Hub) : AlmAns × State := let q := f s.hub; (q.1, { s with hub := q.2 })

/-- A cause of a refused write of the forecast, as an answer (R39, Table 14 of 02). -/
def causeAns (c : Nat) : AlmAns := if c = 0 then .ok else .state

/-- The effect of a write that nothing refuses yet, `l` its bytes. -/
def State.odEffect (s : State) (via ix sub : Nat) (l : List Byte) : AlmAns × State :=
  let v := leNat l
  let done (f : Hub → Hub) : AlmAns × State := (.ok, s.onHub f)
  if ix = 0x2010 then
    (if sub = 1 then s.ans (fun h => h.updLock via (fun h => (.ok, { h with alm := { h.alm with slotOff := v } })))
     else if sub = 2 then s.ans (fun h => h.updLock via (·.slotData l))
     else if sub = 3 then s.ans (·.slotStage v)
     else if sub = 4 then s.ans (·.slotConfirm)
     else s.ans (·.activate))
  else if ix = 0x2100 then
    (if sub = 2 then
      (let q := s.hub.cfgCommitWord via v
       (causeAns q.1, { s with hub := q.2 }))
     else if sub = 5 then done (fun h => { h with alm := { h.alm with view := v &&& 0x3E } })
     else (.ok, s))
  else if ix = 0x2101 then
    (if sub = 1 then s.ans (·.lockTake via v) else if sub = 2 then s.ans (·.lockDrop via v)
     else if sub = 4 then s.ans (·.lockClear via) else done (·.setOd ix sub v))
  else if ix = 0x2200 then
    (let q := s.hub.stage via 0x100028 [(if sub = 1 then Reg.cfgPowerClassW else Reg.cfgPowerBrakeLevel, v)]
     (causeAns q.1, { s with hub := q.2 }))
  else if ix = 0x2210 then done (·.powerLimit v)
  else if ix = 0x2211 then done (fun h => let h := h.setOd ix 1 v; if h.isoRuns then h.showBudget else h)
  else if ix = 0x2212 ∨ ix = 0x2311 then done (·.brakeOd ix v)
  else if ix = 0x2301 then done (·.set (if sub = 1 then Reg.isoThermCfgThrottleC else Reg.isoThermCfgCritC) v)
  else if ix = 0x2310 ∧ sub = 1 then done (·.coolant v)
  else if ix = 0x2801 then s.prtWord via (sub - 1) v
  else if ix = 0x2910 then s.ans (·.lcRequest l)
  else if ix = 0x2A00 then done (fun h => { h with cursors := tset 1 h.cursors via v })
  else done (·.setOd ix sub v)

/-- The length of a write suits the entry. -/
def odLenOk (ix n : Nat) (o : OdObj) : Bool :=
  match o.size with
  | some k => decide (n = k)
  | none => decide (n ≤ 4080) && (decide (ix ≠ 0x2910) || decide (n = 192))

/-- A write of an entry from an interface (R445, R446). -/
def State.odWrite (s : State) (via ix sub : Nat) (l : List Byte) : AlmAns × State :=
  match odLook ix sub with
  | .noIndex => (.noIndex, s)
  | .noSub => (.noSub, s)
  | .found o =>
    if o.acc = .ro then (.wrRo, s)
    else if !odLenOk ix l.length o then (.len, s)
    else
      let c := s.odCheck via ix sub (leNat l)
      if c = .locked then s.ans (·.lockRefuse)
      else if c ≠ .ok then (c, s)
      else if s.hub.lockOf ix ≠ 0 ∧ s.hub.lockOf ix ≠ via then s.ans (·.lockRefuse)
      else if !(s.hub.odLevel via).writes ix then (.state, s)
      else s.odEffect via ix sub l

-- Reads

/-- The held record with the smallest SEQ not below a cursor (R486). -/
def Hub.morFrom (h : Hub) (c : Nat) : Option MorRec :=
  (h.mor.map (·.2)).foldl (fun b r =>
    if 2 ^ 31 ≤ diff32 r.seq c then b
    else match b with
      | none => some r
      | some y => if diff32 r.seq c < diff32 y.seq c then some r else b) none

/-- The value of an entry that can be read; `view` asks for staged values of RWF entries (R437). -/
def State.odValue (s : State) (via : Nat) (view : Bool) (ix sub : Nat) : Nat :=
  let h := s.hub
  let k := sub - 1
  if sub = 0 ∧ 0x1016 ≤ ix ∧ ix ≠ 0x1017 then odHigh ix
  else if ix = 0x1000 then 0
  else if ix = 0x1001 then h.errorReg
  else if ix = 0x1018 then (if sub = 1 then 0x1F3C else if sub = 2 then 0xE960 else if sub = 3 then h.perma.rev else h.perma.unit % 2 ^ 32)
  else if ix = 0x2000 then
    (if sub = 1 then h.get Reg.glbRevSiliconRev else if sub = 2 then h.get Reg.glbRevFeatureLevel else if sub = 3 then h.get Reg.glbBootStatusStage
     else if sub = 4 then h.get Reg.glbBootStatusPartnerHeld else if sub = 5 then h.get Reg.glbHostIfVersion
     else if sub = 6 then h.get Reg.cfgModeWhiteoutCause else if sub = 7 then h.life else h.perma.unit)
  else if ix = 0x2010 then (if sub = 1 then h.alm.slotOff else h.alm.updResult)
  else if ix = 0x2100 then
    (if sub = 1 then h.get Reg.cfgEpochEpoch else if sub = 3 then s.regRead 0x100008 else if sub = 4 then h.get Reg.cfgOwnerOwnerIf
     else if sub = 5 then h.alm.view else s.regRead 0x100020)
  else if ix = 0x2101 ∧ 0x10 ≤ sub then (match h.alm.locks[sub - 0x10]? with | some l => l.1 + 2 ^ 16 * l.2 | none => 0)
  else if ix = 0x2200 then
    (let f := if sub = 1 then Reg.cfgPowerClassW else Reg.cfgPowerBrakeLevel
     if view || bitAt h.alm.view via then h.view f else h.get f)
  else if ix = 0x2201 then h.get (if sub = 1 then Reg.isoBudgetInForceW else if sub = 2 then Reg.isoBudgetMinW else Reg.isoBudgetCanLimitW)
  else if ix = 0x2213 then h.get (if sub = 1 then Reg.isoBudgetInForceW else Reg.isoBudgetSource)
  else if ix = 0x2300 then (if sub = 1 then h.hottestDie else h.isoStatusByte)
  else if ix = 0x2301 then h.get (if sub = 1 then Reg.isoThermCfgThrottleC else Reg.isoThermCfgCritC)
  else if ix = 0x2320 then h.get (Reg.isoPumpDuty 0)
  else if ix = 0x2400 then s.regRead (0x500000 + 8 * k)
  else if ix = 0x2500 then s.regRead (0x402000 + 8 * k)
  else if ix = 0x2600 then s.regRead (0x800100 + 8 * k)
  else if ix = 0x2601 then s.regRead (0x800600 + 8 * k)
  else if ix = 0x2700 then s.regRead (0xB01000 + 8 * k)
  else if ix = 0x2800 then s.regRead (0xA01008 + 0x100 * k)
  else if ix = 0x2900 then s.regRead (if sub = 1 then 0xF00018 else if sub = 2 then 0xF00020 else 0xF00024)
  else if ix = 0x2A00 then (if sub = 1 then h.mor.length else tget 1 h.cursors via)
  else if ix = 0x2B00 then tget 0 h.alm.counts sub
  else h.od ix sub

/-- A read of an entry from an interface: the answer, the bytes, and the state after it (only 0x2A01 changes any). -/
def State.odRead (s : State) (via : Nat) (view : Bool) (ix sub : Nat) : AlmAns × List Byte × State :=
  match odLook ix sub with
  | .noIndex => (.noIndex, [], s)
  | .noSub => (.noSub, [], s)
  | .found o =>
    if o.acc = .wo then (.rdWo, [], s)
    else if !(s.hub.odLevel via).reads ix then (.state, [], s)
    else if ix = 0x2A01 then
      (match s.hub.morFrom (tget 1 s.hub.cursors via) with
        | none => (.range, [], s)
        | some r => (.ok, r.bytes, s.onHub (fun h => { h with cursors := tset 1 h.cursors via ((r.seq + 1) % 2 ^ 32) })))
    else (.ok, leBytes (o.size.getD 0) (s.odValue via view ix sub), s)

-- Answers (R445)

/-- The abort code of an answer; one that the spec does not state is a free value. -/
def Hub.abortOf (h : Hub) (a : AlmAns) : Nat × Hub :=
  match a.abort with
  | some c => (c, h)
  | none => let q := h.draw; (q.1 % 2 ^ 32, q.2)

/-- An answer sent: the status, and the value read or the abort code. -/
def Hub.answer (h : Hub) (via : Nat) (a : AlmAns) (data : List Byte) : Hub :=
  if a = .ok then h.send (.almanac via 0 (leNat data))
  else
    let q := h.abortOf a
    q.2.send (.almanac via a.st q.1)

/-- A request counted (0x2B00 sub-indices 2, 6 and 7). -/
def Hub.countReq (h : Hub) (via : Nat) : Hub := if via = 5 then h.almCount 2 else if via = 2 then h.almCount 7 else h.almCount 6

/-- A refused USDO counted (0x2B00 sub-index 3). -/
def Hub.countAbort (h : Hub) (via : Nat) (a : AlmAns) : Hub := if via = 5 ∧ a ≠ .ok then h.almCount 3 else h

/-- An interface answers: it is served now, and a CAN node is not Stopped (R440). -/
def Hub.odServed (h : Hub) (via : Nat) : Bool := decide (h.odLevel via ≠ .silent) && !(decide (via = 5) && decide (h.alm.nmt = 3))

/-- A READ served. -/
def State.odServeRead (s : State) (via : Nat) (view : Bool) (ix sub : Nat) : State :=
  if !s.hub.odServed via then s
  else
    let q := (s.onHub (·.countReq via)).odRead via view ix sub
    q.2.2.onHub (fun h => (h.countAbort via q.1).answer via q.1 q.2.1)

/-- A WRITE served, and what the management core sends because of it. -/
def State.odServeWrite (s : State) (via ix sub : Nat) (l : List Byte) : State :=
  if !s.hub.odServed via then s
  else
    let q := (s.onHub (·.countReq via)).odWrite via ix sub l
    (q.2.onHub (fun h => (h.countAbort via q.1).answer via q.1 [])).watch s

/-- LOCK or UNLOCK served: a write of INDEX to 0x2101 (R443). -/
def State.odServeLock (s : State) (via sub ix : Nat) : State := s.odServeWrite via 0x2101 sub (leBytes 2 ix)

end Sys2Proof.Machine
end

