-- ==== Sys2Proof/Machine/AlmRows.lean ====
section
/-! DEFINITION. Commands of the Almanac (19): requests over MCTP and the mailbox, USDO, PDOs, SYNC, NMT, heartbeat, locks, update objects. -/

namespace Sys2Proof.Machine

/-- An interface that carries requests of Table 6: the mailbox and the two MCTP bindings. -/
def Iface.isReq (v : Iface) : Bool := v.code.toNat == 2 || v.code.toNat == 3 || v.code.toNat == 4

/-- ALMANAC_READ (R443). -/
def execAlmanacRead (via : Iface) (r : AlmReq) (s : State) : Host.Outcome State Fault Refusal :=
  if Iface.isReq via then .next (s.odServeRead via.code.toNat r.staged r.index.toNat r.sub.toNat) else .next s

/-- ALMANAC_WRITE (R433). -/
def execAlmanacWrite (via : Iface) (r : AlmReq) (s : State) : Host.Outcome State Fault Refusal :=
  if Iface.isReq via then .next (s.odServeWrite via.code.toNat r.index.toNat r.sub.toNat r.data) else .next s

/-- ALMANAC_LOCK (R446). -/
def execAlmanacLock (via : Iface) (r : AlmReq) (s : State) : Host.Outcome State Fault Refusal :=
  if Iface.isReq via then .next (s.odServeLock via.code.toNat 1 r.index.toNat) else .next s

/-- ALMANAC_UNLOCK (R446). -/
def execAlmanacUnlock (via : Iface) (r : AlmReq) (s : State) : Host.Outcome State Fault Refusal :=
  if Iface.isReq via then .next (s.odServeLock via.code.toNat 2 r.index.toNat) else .next s

/-- LOCK_RELEASE_ALL (R446): a write of 0x2101 sub-index 4. -/
def execLockReleaseAll (via : Iface) (v : BitVec 8) (s : State) : Host.Outcome State Fault Refusal :=
  .next (s.odServeWrite via.code.toNat 0x2101 4 (leBytes 2 v.toNat))

/-- LOCK_LAPSE (R446). -/
def execLockLapse (owner : Iface) (s : State) : Host.Outcome State Fault Refusal := hubStep (·.lockLapse owner.code.toNat) s

/-- USDO_TRANSFER (R438). -/
def execUsdoTransfer (write : Bool) (index : BitVec 16) (sub : BitVec 8) (data : List (BitVec 8)) (s : State) : Host.Outcome State Fault Refusal :=
  .next (if write then s.odServeWrite 5 index.toNat sub.toNat data else s.odServeRead 5 false index.toNat sub.toNat)

/-- USDO_TIMEOUT (R445): a segmented transfer idle for 100 ms. -/
def execUsdoTimeout (index : BitVec 16) (sub : BitVec 8) (s : State) : Host.Outcome State Fault Refusal :=
  hubStep (fun h => if h.odServed 5 && decide (odLook index.toNat sub.toNat ≠ .noIndex) then (h.almCount 3).answer 5 ⟨0x06, some 0x05040000⟩ [] else h) s

-- PDOs (R440, R441)

/-- The mapped values of an RPDO written, each refused one dropped and counted (R445). -/
def State.rpdoValues (s : State) : List (Nat × Nat) → List Byte → State
  | [], _ => s
  | (k, n) :: t, l =>
    let q := s.odWrite 5 (k / 256) (k % 256) (l.take (n / 8))
    State.rpdoValues (if q.1 = .ok then q.2 else q.2.onHub (·.almCount 5)) t (l.drop (n / 8))

/-- An RPDO applied. -/
def State.rpdoApply (s : State) (n : Nat) (l : List Byte) : State := (s.rpdoValues (s.hub.mapped (0x1600 + n)) l).onHub (·.almCount 4)

/-- RPDO (R440): dropped outside Operational or at another length; a synchronous one waits for SYNC. -/
def execRpdo (n : BitVec 3) (data : List (BitVec 8)) (s : State) : Host.Outcome State Fault Refusal :=
  let k := n.toNat
  let h := s.hub
  if !h.canUp || h.boot.stopped || h.boot.halt || bitAt (h.od (0x1400 + k) 1) 31 then .next s
  else if !h.pdoRun || decide (((h.mapped (0x1600 + k)).map (·.2)).sum ≠ 8 * data.length) then hubStep (·.almCount 5) s
  else if h.od (0x1400 + k) 2 = 0xFE then .next ((s.rpdoApply k data).watch s)
  else hubStep (fun h => { h with alm := { h.alm with rpdoWait := tput h.alm.rpdoWait k data } }) s

/-- A synchronous TPDO counts a SYNC, and is sent at its number of them (R438). -/
def Hub.tpdoSync (n : Nat) (h : Hub) : Hub :=
  let t := h.od (0x1800 + n) 2
  if h.tpdoOn n && decide (1 ≤ t) && decide (t ≤ 0xF0) then
    let c := tget 0 h.alm.syncs n + 1
    let h : Hub := { h with alm := { h.alm with syncs := tset 0 h.alm.syncs n (if t ≤ c then 0 else c) } }
    if t ≤ c then h.tpdoSend n else h
  else h

/-- SYNC (R438): waiting RPDOs apply, then synchronous TPDOs go. -/
def execSync (s : State) : Host.Outcome State Fault Refusal :=
  if !s.hub.pdoRun || s.hub.boot.stopped then .next s
  else
    let w := s.hub.alm.rpdoWait
    let s1 := s.onHub (fun h => { h with alm := { h.alm with rpdoWait := [] } })
    let s1 := w.foldl (fun s x => s.rpdoApply x.1 x.2) s1
    .next ((s1.onHub (fun h => overList Hub.tpdoSync (List.range 8) h)).watch s)

/-- TPDO_EVENT_TIMER (R441). -/
def execTpdoEventTimer (n : BitVec 3) (s : State) : Host.Outcome State Fault Refusal :=
  let k := n.toNat
  hubStep (fun h =>
    if h.tpdoOn k && !h.boot.stopped && decide (h.od (0x1800 + k) 2 = 0xFE) && decide (h.od (0x1800 + k) 5 ≠ 0) then h.tpdoSend k else h) s

/-- INHIBIT_EXPIRY (R441, R442): what was held is sent. -/
def execInhibitExpiry (emcy : Bool) (n : BitVec 3) (s : State) : Host.Outcome State Fault Refusal :=
  let k := n.toNat
  hubStep (fun h =>
    if emcy then
      let h0 : Hub := { h with alm := { h.alm with emcyInhibit := false, emcyQ := h.alm.emcyQ.drop 1 } }
      (match h.alm.emcyQ with
        | [] => h0
        | (c, m) :: _ =>
          if h.canUp && decide (h.alm.nmt ≠ 3) && !h.boot.stopped then
            Hub.send { h0 with alm := { h0.alm with emcyInhibit := decide (h.od 0x1015 0 ≠ 0) } } (.emcy c m)
          else h0)
    else
      let held := h.alm.pdoHeld.contains k
      let h : Hub := { h with alm := { h.alm with pdoInhibit := kdel h.alm.pdoInhibit k, pdoHeld := kdel h.alm.pdoHeld k } }
      if held && h.tpdoOn k && !h.boot.stopped then h.tpdoSend k else h) s

-- NMT and heartbeat (R438, R440)

/-- The node obeys NMT: its management core runs and is not in halt service. -/
def Hub.nmtLive (h : Hub) : Bool := h.canUp && !h.boot.halt && !h.boot.stopped

/-- The state that a heartbeat tells. -/
def nmtCode (n : Nat) : Nat := if n = 2 then 0x05 else if n = 3 then 0x04 else 0x7F

/-- HEARTBEAT_PRODUCE. -/
def execHeartbeatProduce (s : State) : Host.Outcome State Fault Refusal :=
  hubStep (fun h =>
    if h.canUp && !h.boot.stopped && decide (h.od 0x1017 0 ≠ 0) then h.canSend (0x700 + h.boot.nodeId) 1 (nmtCode h.alm.nmt) else h) s

/-- The NMT state changed. -/
def Hub.setNmt (h : Hub) (n : Nat) : Hub := { h with alm := { h.alm with nmt := n } }

/-- NMT_START: PDOs begin, the event-driven ones with their present values. -/
def execNmtStart (s : State) : Host.Outcome State Fault Refusal :=
  hubWatch (fun h => if h.nmtLive && decide (h.alm.nmt ≠ 2) then Hub.setNmt { h with alm := { h.alm with pdoLast := [] } } 2 else h) s

/-- NMT_STOP. -/
def execNmtStop (s : State) : Host.Outcome State Fault Refusal := hubStep (fun h => if h.nmtLive then h.setNmt 3 else h) s

/-- NMT_ENTER_PRE_OPERATIONAL. -/
def execNmtEnterPreOperational (s : State) : Host.Outcome State Fault Refusal := hubStep (fun h => if h.nmtLive then h.setNmt 1 else h) s

/-- What both resets of the node do (R440): entries 0x1000-0x1FFF at their defaults, the rates in effect, the boot-up message. -/
def Hub.nmtReset (h : Hub) : Hub :=
  let a := h.alm
  let h : Hub := { h with alm := { a with
    od := a.od.filter (fun x => decide (x.1 / 256 < 0x1000) || decide (0x2000 ≤ x.1 / 256)), rate := h.od 0x2001 1, dataRate := h.od 0x2001 2,
    pdoInhibit := [], pdoHeld := [], pdoLast := [], syncs := [], rpdoWait := [] } }
  h.canBoot

/-- NMT_RESET_NODE. -/
def execNmtResetNode (s : State) : Host.Outcome State Fault Refusal := hubStep (fun h => if h.nmtLive then h.nmtReset else h) s

/-- NMT_RESET_COMMUNICATION: the locks of CAN FD lapse too (R446). -/
def execNmtResetCommunication (s : State) : Host.Outcome State Fault Refusal :=
  hubStep (fun h => if h.nmtLive then (h.nmtReset).lockLapse 5 else h) s

/-- CAN_BUS_OFF (R438): the controller recovers; record 0x0F01. -/
def execCanBusOff (s : State) : Host.Outcome State Fault Refusal :=
  hubStep (fun h => if h.canUp && !h.boot.stopped then h.record { code := 0x0F01, cls := 0, inst := 5 } else h) s

-- Update objects, the log, the life cycle: writes and reads of their entries

/-- SLOT_OFFSET (R436). -/
def execSlotOffset (via : Iface) (v : BitVec 32) (s : State) : Host.Outcome State Fault Refusal :=
  .next (s.odServeWrite via.code.toNat 0x2010 1 (leBytes 4 v.toNat))

/-- SLOT_DATA (R436). -/
def execSlotData (via : Iface) (data : List (BitVec 8)) (s : State) : Host.Outcome State Fault Refusal :=
  .next (s.odServeWrite via.code.toNat 0x2010 2 data)

/-- STAGE (R436). -/
def execStage (via : Iface) (v : BitVec 8) (s : State) : Host.Outcome State Fault Refusal :=
  .next (s.odServeWrite via.code.toNat 0x2010 3 (leBytes 1 v.toNat))

/-- CONFIRM (R436). -/
def execConfirm (via : Iface) (v : BitVec 8) (s : State) : Host.Outcome State Fault Refusal :=
  .next (s.odServeWrite via.code.toNat 0x2010 4 (leBytes 1 v.toNat))

/-- ACTIVATE (R79). -/
def execActivate (via : Iface) (v : BitVec 8) (s : State) : Host.Outcome State Fault Refusal :=
  .next (s.odServeWrite via.code.toNat 0x2010 5 (leBytes 1 v.toNat))

/-- MORAINE_RECORD_READ (R486). -/
def execMoraineRecordRead (via : Iface) (s : State) : Host.Outcome State Fault Refusal := .next (s.odServeRead via.code.toNat false 0x2A01 0)

/-- LC_REQUEST (R471). -/
def execLcRequest (via : Iface) (data : List (BitVec 8)) (s : State) : Host.Outcome State Fault Refusal :=
  .next (s.odServeWrite via.code.toNat 0x2910 0 data)

-- The PF mailbox (R444)

/-- Bytes of MBX_REQ. -/
def Alm.req (a : Alm) (off n : Nat) : List Byte := (List.range n).map (fun i => tget 0 a.mbxReq (off + i))

/-- The response in MBX_RSP (Table 6). -/
def Hub.mbxAnswer (h : Hub) (a : AlmAns) (data : List Byte) : Hub :=
  let q := if a = .ok then (0, h) else h.abortOf a
  let l := h.alm.req 0 1 ++ leBytes 1 a.st ++ h.alm.req 2 5 ++ leBytes 1 0 ++ leBytes 4 data.length ++ leBytes 4 q.1 ++ data
  let h := q.2
  { h with alm := { h.alm with mbxRsp := (l.zipIdx).foldl (fun t x => tset 0 t x.2 x.1) h.alm.mbxRsp } }

/-- The request in MBX_REQ judged and carried out. -/
def State.mbxRequest (s : State) : AlmAns × List Byte × State :=
  let a := s.hub.alm
  let op := leNat (a.req 0 1)
  let ix := leNat (a.req 4 2)
  let sub := leNat (a.req 6 1)
  let n := leNat (a.req 8 4)
  let wr (q : AlmAns × State) : AlmAns × List Byte × State := (q.1, [], q.2)
  if op = 0 ∨ 4 < op ∨ 1 < leNat (a.req 1 1) ∨ leNat (a.req 7 1) ≠ 0 ∨ leNat (a.req 0xC 4) ≠ 0 then (.range, [], s)
  else if 4080 < n then (.len, [], s)
  else if op = 1 then s.odRead 2 (decide (leNat (a.req 1 1) = 1)) ix sub
  else if op = 2 then wr (s.odWrite 2 ix sub (a.req 0x10 n))
  else wr (s.odWrite 2 0x2101 (op - 2) (leBytes 2 ix))

/-- MBX_DOORBELL.GO: the request in MBX_REQ is served, DONE set and PF entry 14 raised (R444). -/
def State.mbxServe (s : State) : State :=
  if !s.hub.odServed 2 then s
  else
    let q := (s.onHub (·.countReq 2)).mbxRequest
    (q.2.2.onHub (fun h =>
      let h := (h.mbxAnswer q.1 q.2.1).set Reg.mbxStatusDone 1
      if h.on Reg.mbxStatusIrqEn then h.msix 0 14 else h)).watch s

/-- MBX_GO (R444). -/
def execMbxGo (s0 : State) : Host.Outcome State Fault Refusal :=
  let s := s0.wroteBy 0
  .next s.mbxServe

end Sys2Proof.Machine
end

