-- ==== Sys2Proof/Machine/FraxoS.lean ====
section
/-! DEFINITION. The scalar, branch, memory, synchronisation and DMA instructions of Fraxo (05), one meaning each. -/

namespace Sys2Proof.Machine

/-- ADD (R116). -/
def execAdd (c : CoreId) (f : RForm) (s : State) : Host.Outcome State Fault Refusal :=
  issue c (encR 0x01 0x00 f) (pureIss (intR .add f)) s

/-- SUB (R116). -/
def execSub (c : CoreId) (f : RForm) (s : State) : Host.Outcome State Fault Refusal :=
  issue c (encR 0x01 0x01 f) (pureIss (intR .sub f)) s

/-- AND (R116). -/
def execAnd (c : CoreId) (f : RForm) (s : State) : Host.Outcome State Fault Refusal :=
  issue c (encR 0x01 0x02 f) (pureIss (intR .and f)) s

/-- OR (R116). -/
def execOr (c : CoreId) (f : RForm) (s : State) : Host.Outcome State Fault Refusal :=
  issue c (encR 0x01 0x03 f) (pureIss (intR .or f)) s

/-- XOR (R116). -/
def execXor (c : CoreId) (f : RForm) (s : State) : Host.Outcome State Fault Refusal :=
  issue c (encR 0x01 0x04 f) (pureIss (intR .xor f)) s

/-- SLL (R116). -/
def execSll (c : CoreId) (f : RForm) (s : State) : Host.Outcome State Fault Refusal :=
  issue c (encR 0x01 0x05 f) (pureIss (intR .sll f)) s

/-- SRL (R116). -/
def execSrl (c : CoreId) (f : RForm) (s : State) : Host.Outcome State Fault Refusal :=
  issue c (encR 0x01 0x06 f) (pureIss (intR .srl f)) s

/-- SRA (R116). -/
def execSra (c : CoreId) (f : RForm) (s : State) : Host.Outcome State Fault Refusal :=
  issue c (encR 0x01 0x07 f) (pureIss (intR .sra f)) s

/-- SLT (R116). -/
def execSlt (c : CoreId) (f : RForm) (s : State) : Host.Outcome State Fault Refusal :=
  issue c (encR 0x01 0x08 f) (pureIss (intR .slt f)) s

/-- SLTU (R116). -/
def execSltu (c : CoreId) (f : RForm) (s : State) : Host.Outcome State Fault Refusal :=
  issue c (encR 0x01 0x09 f) (pureIss (intR .sltu f)) s

/-- MIN (R116). -/
def execMin (c : CoreId) (f : RForm) (s : State) : Host.Outcome State Fault Refusal :=
  issue c (encR 0x01 0x0A f) (pureIss (intR .min f)) s

/-- MAX (R116). -/
def execMax (c : CoreId) (f : RForm) (s : State) : Host.Outcome State Fault Refusal :=
  issue c (encR 0x01 0x0B f) (pureIss (intR .max f)) s

/-- MINU (R116). -/
def execMinu (c : CoreId) (f : RForm) (s : State) : Host.Outcome State Fault Refusal :=
  issue c (encR 0x01 0x0C f) (pureIss (intR .minu f)) s

/-- MAXU (R116). -/
def execMaxu (c : CoreId) (f : RForm) (s : State) : Host.Outcome State Fault Refusal :=
  issue c (encR 0x01 0x0D f) (pureIss (intR .maxu f)) s

/-- MUL (R116). -/
def execMul (c : CoreId) (f : RForm) (s : State) : Host.Outcome State Fault Refusal :=
  issue c (encR 0x01 0x10 f) (pureIss (intR .mul f)) s

/-- MULH (R116). -/
def execMulh (c : CoreId) (f : RForm) (s : State) : Host.Outcome State Fault Refusal :=
  issue c (encR 0x01 0x11 f) (pureIss (intR .mulh f)) s

/-- MULHU (R116). -/
def execMulhu (c : CoreId) (f : RForm) (s : State) : Host.Outcome State Fault Refusal :=
  issue c (encR 0x01 0x12 f) (pureIss (intR .mulhu f)) s

/-- DIV (R116). -/
def execDiv (c : CoreId) (f : RForm) (s : State) : Host.Outcome State Fault Refusal :=
  issue c (encR 0x01 0x14 f) (pureIss (intR .div f)) s

/-- DIVU (R116). -/
def execDivu (c : CoreId) (f : RForm) (s : State) : Host.Outcome State Fault Refusal :=
  issue c (encR 0x01 0x15 f) (pureIss (intR .divu f)) s

/-- REM (R116). -/
def execRem (c : CoreId) (f : RForm) (s : State) : Host.Outcome State Fault Refusal :=
  issue c (encR 0x01 0x16 f) (pureIss (intR .rem f)) s

/-- REMU (R116). -/
def execRemu (c : CoreId) (f : RForm) (s : State) : Host.Outcome State Fault Refusal :=
  issue c (encR 0x01 0x17 f) (pureIss (intR .remu f)) s

/-- CLZ (R116). -/
def execClz (c : CoreId) (f : RForm) (s : State) : Host.Outcome State Fault Refusal :=
  issue c (encR 0x01 0x18 f) (pureIss (intR .clz f)) s

/-- CTZ (R116). -/
def execCtz (c : CoreId) (f : RForm) (s : State) : Host.Outcome State Fault Refusal :=
  issue c (encR 0x01 0x19 f) (pureIss (intR .ctz f)) s

/-- POPC (R116). -/
def execPopc (c : CoreId) (f : RForm) (s : State) : Host.Outcome State Fault Refusal :=
  issue c (encR 0x01 0x1A f) (pureIss (intR .popc f)) s

/-- SEL (R115, Table 5). -/
def execSel (c : CoreId) (f : RForm) (s : State) : Host.Outcome State Fault Refusal :=
  issue c (encR 0x01 0x1C f) (pureIss (selR f)) s

/-- ADDI (R116). -/
def execAddi (c : CoreId) (f : IForm) (s : State) : Host.Outcome State Fault Refusal :=
  issue c (encI 0x02 f) (pureIss (intSI .add f)) s

/-- ANDI (R116). -/
def execAndi (c : CoreId) (f : IForm) (s : State) : Host.Outcome State Fault Refusal :=
  issue c (encI 0x03 f) (pureIss (intZI .and f)) s

/-- ORI (R116). -/
def execOri (c : CoreId) (f : IForm) (s : State) : Host.Outcome State Fault Refusal :=
  issue c (encI 0x04 f) (pureIss (intZI .or f)) s

/-- XORI (R116). -/
def execXori (c : CoreId) (f : IForm) (s : State) : Host.Outcome State Fault Refusal :=
  issue c (encI 0x05 f) (pureIss (intZI .xor f)) s

/-- SLTI (R116). -/
def execSlti (c : CoreId) (f : IForm) (s : State) : Host.Outcome State Fault Refusal :=
  issue c (encI 0x06 f) (pureIss (intSI .slt f)) s

/-- SLTIU (R116). -/
def execSltiu (c : CoreId) (f : IForm) (s : State) : Host.Outcome State Fault Refusal :=
  issue c (encI 0x07 f) (pureIss (intSI .sltu f)) s

/-- SHI (Table 5). -/
def execShi (c : CoreId) (f : IForm) (s : State) : Host.Outcome State Fault Refusal :=
  issue c (encI 0x08 f) (pureIss (shi f)) s

/-- MOVZ (Table 5). -/
def execMovz (c : CoreId) (f : MForm) (s : State) : Host.Outcome State Fault Refusal :=
  issue c (encM 0x09 f) (pureIss (movz f)) s

/-- MOVK (Table 5). -/
def execMovk (c : CoreId) (f : MForm) (s : State) : Host.Outcome State Fault Refusal :=
  issue c (encM 0x0A f) (pureIss (movk f)) s

/-- FADD (R123). -/
def execFadd (c : CoreId) (f : RForm) (s : State) : Host.Outcome State Fault Refusal :=
  issue c (encR 0x0B 0x00 f) (pureIss (fpsArith .add f)) s

/-- FSUB (R123). -/
def execFsub (c : CoreId) (f : RForm) (s : State) : Host.Outcome State Fault Refusal :=
  issue c (encR 0x0B 0x01 f) (pureIss (fpsArith .sub f)) s

/-- FMUL (R123). -/
def execFmul (c : CoreId) (f : RForm) (s : State) : Host.Outcome State Fault Refusal :=
  issue c (encR 0x0B 0x02 f) (pureIss (fpsArith .mul f)) s

/-- FDIV (R123). -/
def execFdiv (c : CoreId) (f : RForm) (s : State) : Host.Outcome State Fault Refusal :=
  issue c (encR 0x0B 0x03 f) (pureIss (fpsArith .div f)) s

/-- FSQRT (R123). -/
def execFsqrt (c : CoreId) (f : RForm) (s : State) : Host.Outcome State Fault Refusal :=
  issue c (encR 0x0B 0x04 f) (pureIss (fpsSqrt f)) s

/-- FMIN (R124). -/
def execFmin (c : CoreId) (f : RForm) (s : State) : Host.Outcome State Fault Refusal :=
  issue c (encR 0x0B 0x05 f) (pureIss (fpsMinMax false f)) s

/-- FMAX (R124). -/
def execFmax (c : CoreId) (f : RForm) (s : State) : Host.Outcome State Fault Refusal :=
  issue c (encR 0x0B 0x06 f) (pureIss (fpsMinMax true f)) s

/-- FMA: rs1 × rs2 + s[X] (R123). -/
def execFma (c : CoreId) (f : RForm) (s : State) : Host.Outcome State Fault Refusal :=
  issue c (encR 0x0B 0x08 f) (pureIss (fpsFma f)) s

/-- FCVT.L (R116, R123). -/
def execFcvtL (c : CoreId) (f : RForm) (s : State) : Host.Outcome State Fault Refusal :=
  issue c (encR 0x0B 0x0C f) (pureIss (fcvtL f)) s

/-- FCVT.S (R116, R123). -/
def execFcvtS (c : CoreId) (f : RForm) (s : State) : Host.Outcome State Fault Refusal :=
  issue c (encR 0x0B 0x0D f) (pureIss (fcvtS f)) s

/-- FEQ (R123). -/
def execFeq (c : CoreId) (f : RForm) (s : State) : Host.Outcome State Fault Refusal :=
  issue c (encR 0x0B 0x10 f) (pureIss (fpsCmp .eq f)) s

/-- FLT (R123). -/
def execFlt (c : CoreId) (f : RForm) (s : State) : Host.Outcome State Fault Refusal :=
  issue c (encR 0x0B 0x11 f) (pureIss (fpsCmp .lt f)) s

/-- FLE (R123). -/
def execFle (c : CoreId) (f : RForm) (s : State) : Host.Outcome State Fault Refusal :=
  issue c (encR 0x0B 0x12 f) (pureIss (fpsCmp .le f)) s

/-- NOP (Table 5, SYS). -/
def execNop (c : CoreId) (f : I12Form) (s : State) : Host.Outcome State Fault Refusal :=
  issue c (encSys 0 f) (nopIss f) s

/-- ENDT (R135). -/
def execEndt (c : CoreId) (f : I12Form) (s : State) : Host.Outcome State Fault Refusal :=
  issue c (encSys 1 f) (endtIss f) s

/-- TRAP (R140, Table 9). -/
def execTrap (c : CoreId) (f : I12Form) (s : State) : Host.Outcome State Fault Refusal :=
  issue c (encSys 2 f) (trapIss f) s

/-- FENCE.I (R120). -/
def execFenceI (c : CoreId) (f : I12Form) (s : State) : Host.Outcome State Fault Refusal :=
  issue c (encSys 3 f) (fenceIIss f) s

/-- CSRR (R110). -/
def execCsrr (c : CoreId) (f : I12Form) (s : State) : Host.Outcome State Fault Refusal :=
  issue c (encI12 0x0F 0 f) (csrIss (fun e => csrr e f)) s

/-- CSRW (R110). -/
def execCsrw (c : CoreId) (f : I12Form) (s : State) : Host.Outcome State Fault Refusal :=
  issue c (encI12 0x0F 1 f) (csrIss (fun e => csrUpd (fun _ v => v) e f)) s

/-- CSRS (R110). -/
def execCsrs (c : CoreId) (f : I12Form) (s : State) : Host.Outcome State Fault Refusal :=
  issue c (encI12 0x0F 2 f) (csrIss (fun e => csrUpd (fun o v => o ||| v) e f)) s

/-- CSRC (R110). -/
def execCsrc (c : CoreId) (f : I12Form) (s : State) : Host.Outcome State Fault Refusal :=
  issue c (encI12 0x0F 3 f) (csrIss (fun e => csrUpd (fun o v => o &&& ~~~v) e f)) s

/-- LDB (R118). -/
def execLdb (c : CoreId) (f : IForm) (s : State) : Host.Outcome State Fault Refusal :=
  issue c (encI 0x10 f) (loadIss 1 true f) s

/-- LDH (R118). -/
def execLdh (c : CoreId) (f : IForm) (s : State) : Host.Outcome State Fault Refusal :=
  issue c (encI 0x11 f) (loadIss 2 true f) s

/-- LDW (R118). -/
def execLdw (c : CoreId) (f : IForm) (s : State) : Host.Outcome State Fault Refusal :=
  issue c (encI 0x12 f) (loadIss 4 true f) s

/-- LDD (R118). -/
def execLdd (c : CoreId) (f : IForm) (s : State) : Host.Outcome State Fault Refusal :=
  issue c (encI 0x13 f) (loadIss 8 false f) s

/-- LDBU (R118). -/
def execLdbu (c : CoreId) (f : IForm) (s : State) : Host.Outcome State Fault Refusal :=
  issue c (encI 0x14 f) (loadIss 1 false f) s

/-- LDHU (R118). -/
def execLdhu (c : CoreId) (f : IForm) (s : State) : Host.Outcome State Fault Refusal :=
  issue c (encI 0x15 f) (loadIss 2 false f) s

/-- LDWU (R118). -/
def execLdwu (c : CoreId) (f : IForm) (s : State) : Host.Outcome State Fault Refusal :=
  issue c (encI 0x16 f) (loadIss 4 false f) s

/-- STB (R118). -/
def execStb (c : CoreId) (f : SForm) (s : State) : Host.Outcome State Fault Refusal :=
  issue c (encS 0x18 f) (storeIss 1 f) s

/-- STH (R118). -/
def execSth (c : CoreId) (f : SForm) (s : State) : Host.Outcome State Fault Refusal :=
  issue c (encS 0x19 f) (storeIss 2 f) s

/-- STW (R118). -/
def execStw (c : CoreId) (f : SForm) (s : State) : Host.Outcome State Fault Refusal :=
  issue c (encS 0x1A f) (storeIss 4 f) s

/-- STD (R118). -/
def execStd (c : CoreId) (f : SForm) (s : State) : Host.Outcome State Fault Refusal :=
  issue c (encS 0x1B f) (storeIss 8 f) s

/-- VLD (R109, R118). -/
def execVld (c : CoreId) (f : VMForm) (s : State) : Host.Outcome State Fault Refusal :=
  issue c (encVM 0x1C f) (vldIss f) s

/-- VST (R109, R118). -/
def execVst (c : CoreId) (f : VMForm) (s : State) : Host.Outcome State Fault Refusal :=
  issue c (encVM 0x1D f) (vstIss f) s

/-- VLDX (R122). -/
def execVldx (c : CoreId) (f : VForm) (s : State) : Host.Outcome State Fault Refusal :=
  issue c (encV 0x1E 0 f) (vldxIss f) s

/-- VSTX (R122). -/
def execVstx (c : CoreId) (f : VForm) (s : State) : Host.Outcome State Fault Refusal :=
  issue c (encV 0x1E 1 f) (vstxIss f) s

/-- AMO ADD (R121). -/
def execAmoAdd (c : CoreId) (f : RForm) (s : State) : Host.Outcome State Fault Refusal :=
  issue c (encR 0x1F 0 f) (amoIss 0 f) s

/-- AMO AND (R121). -/
def execAmoAnd (c : CoreId) (f : RForm) (s : State) : Host.Outcome State Fault Refusal :=
  issue c (encR 0x1F 1 f) (amoIss 1 f) s

/-- AMO OR (R121). -/
def execAmoOr (c : CoreId) (f : RForm) (s : State) : Host.Outcome State Fault Refusal :=
  issue c (encR 0x1F 2 f) (amoIss 2 f) s

/-- AMO XOR (R121). -/
def execAmoXor (c : CoreId) (f : RForm) (s : State) : Host.Outcome State Fault Refusal :=
  issue c (encR 0x1F 3 f) (amoIss 3 f) s

/-- AMO MIN (R121). -/
def execAmoMin (c : CoreId) (f : RForm) (s : State) : Host.Outcome State Fault Refusal :=
  issue c (encR 0x1F 4 f) (amoIss 4 f) s

/-- AMO MAX (R121). -/
def execAmoMax (c : CoreId) (f : RForm) (s : State) : Host.Outcome State Fault Refusal :=
  issue c (encR 0x1F 5 f) (amoIss 5 f) s

/-- AMO MINU (R121). -/
def execAmoMinu (c : CoreId) (f : RForm) (s : State) : Host.Outcome State Fault Refusal :=
  issue c (encR 0x1F 6 f) (amoIss 6 f) s

/-- AMO MAXU (R121). -/
def execAmoMaxu (c : CoreId) (f : RForm) (s : State) : Host.Outcome State Fault Refusal :=
  issue c (encR 0x1F 7 f) (amoIss 7 f) s

/-- AMO SWAP (R121). -/
def execAmoSwap (c : CoreId) (f : RForm) (s : State) : Host.Outcome State Fault Refusal :=
  issue c (encR 0x1F 8 f) (amoIss 8 f) s

/-- AMO CAS (R121). -/
def execAmoCas (c : CoreId) (f : RForm) (s : State) : Host.Outcome State Fault Refusal :=
  issue c (encR 0x1F 9 f) (amoIss 9 f) s

/-- BEQ (R117). -/
def execBeq (c : CoreId) (f : BForm) (s : State) : Host.Outcome State Fault Refusal :=
  issue c (encB 0x20 f) (branchIss (fun x => branchCond .eq (x.s f.rs1) (x.s f.rs2)) f.imm (fun l => branch .eq l f)) s

/-- BNE (R117). -/
def execBne (c : CoreId) (f : BForm) (s : State) : Host.Outcome State Fault Refusal :=
  issue c (encB 0x21 f) (branchIss (fun x => branchCond .ne (x.s f.rs1) (x.s f.rs2)) f.imm (fun l => branch .ne l f)) s

/-- BLT (R117). -/
def execBlt (c : CoreId) (f : BForm) (s : State) : Host.Outcome State Fault Refusal :=
  issue c (encB 0x22 f) (branchIss (fun x => branchCond .lt (x.s f.rs1) (x.s f.rs2)) f.imm (fun l => branch .lt l f)) s

/-- BGE (R117). -/
def execBge (c : CoreId) (f : BForm) (s : State) : Host.Outcome State Fault Refusal :=
  issue c (encB 0x23 f) (branchIss (fun x => branchCond .ge (x.s f.rs1) (x.s f.rs2)) f.imm (fun l => branch .ge l f)) s

/-- BLTU (R117). -/
def execBltu (c : CoreId) (f : BForm) (s : State) : Host.Outcome State Fault Refusal :=
  issue c (encB 0x24 f) (branchIss (fun x => branchCond .ltu (x.s f.rs1) (x.s f.rs2)) f.imm (fun l => branch .ltu l f)) s

/-- BGEU (R117). -/
def execBgeu (c : CoreId) (f : BForm) (s : State) : Host.Outcome State Fault Refusal :=
  issue c (encB 0x25 f) (branchIss (fun x => branchCond .geu (x.s f.rs1) (x.s f.rs2)) f.imm (fun l => branch .geu l f)) s

/-- JAL (R117). -/
def execJal (c : CoreId) (f : JForm) (s : State) : Host.Outcome State Fault Refusal :=
  issue c (encJ 0x26 f) (jumpIss (fun l => jal l f)) s

/-- JALR (R117). -/
def execJalr (c : CoreId) (f : IForm) (s : State) : Host.Outcome State Fault Refusal :=
  issue c (encI 0x27 f) (jumpIss (fun l => jalr l f)) s

/-- BP (R117, R125). -/
def execBp (c : CoreId) (f : BForm) (s : State) : Host.Outcome State Fault Refusal :=
  issue c (encB 0x28 f) (branchIss (bpTaken f) f.imm (fun l => branchP l f)) s

/-- FENCE.LD (R120). -/
def execFenceLd (c : CoreId) (f : I14Form) (s : State) : Host.Outcome State Fault Refusal :=
  issue c (encFence 0 f) (fenceIss (fenceLegal f) false) s

/-- FENCE.ST (R120). -/
def execFenceSt (c : CoreId) (f : I14Form) (s : State) : Host.Outcome State Fault Refusal :=
  issue c (encFence 1 f) (fenceIss (fenceLegal f) true) s

/-- FENCE.ALL (R120). -/
def execFenceAll (c : CoreId) (f : I14Form) (s : State) : Host.Outcome State Fault Refusal :=
  issue c (encFence 2 f) (fenceIss (fenceLegal f) true) s

/-- BAR (R98, R99, R131). -/
def execBar (c : CoreId) (f : IForm) (s : State) : Host.Outcome State Fault Refusal :=
  issue c (encI 0x2D f) (barIss f) s

/-- EVT READ (R132). -/
def execEvtRead (c : CoreId) (f : RForm) (s : State) : Host.Outcome State Fault Refusal :=
  issue c (encR 0x2E 0 f) (evtReadIss f) s

/-- EVT SET (R132). -/
def execEvtSet (c : CoreId) (f : RForm) (s : State) : Host.Outcome State Fault Refusal :=
  issue c (encR 0x2E 1 f) (evtSetIss f) s

/-- EVT ADD (R132). -/
def execEvtAdd (c : CoreId) (f : RForm) (s : State) : Host.Outcome State Fault Refusal :=
  issue c (encR 0x2E 2 f) (evtAddIss f) s

/-- EVT WAIT (R100, R132). -/
def execEvtWait (c : CoreId) (f : RForm) (s : State) : Host.Outcome State Fault Refusal :=
  issue c (encR 0x2E 3 f) (evtWaitIss f) s

/-- DMAIS (R102, R103, R133). -/
def execDmais (c : CoreId) (f : RForm) (s : State) : Host.Outcome State Fault Refusal :=
  issue c (encR 0x2F 0 f) (dmaisIss f) s

/-- DMAST (R133). -/
def execDmast (c : CoreId) (f : RForm) (s : State) : Host.Outcome State Fault Refusal :=
  issue c (encR 0x2F 1 f) (dmastIss f) s

/-- DMAWT (R133). -/
def execDmawt (c : CoreId) (f : RForm) (s : State) : Host.Outcome State Fault Refusal :=
  issue c (encR 0x2F 2 f) (dmawtIss f) s

/-- DEWSET (R134). -/
def execDewset (c : CoreId) (f : I12Form) (s : State) : Host.Outcome State Fault Refusal :=
  issue c (encI12 0x3F 0 f) (pureIss (dewset f)) s

/-- DEWSETR (R134). -/
def execDewsetr (c : CoreId) (f : I12Form) (s : State) : Host.Outcome State Fault Refusal :=
  issue c (encI12 0x3F 1 f) (pureIss (dewsetr f)) s

/-- DEWCLR (R134). -/
def execDewclr (c : CoreId) (f : I12Form) (s : State) : Host.Outcome State Fault Refusal :=
  issue c (encI12 0x3F 2 f) (pureIss (dewclr f)) s

end Sys2Proof.Machine
end

