-- ==== Sys2Proof/Machine/FraxoV.lean ====
section
/-! DEFINITION. The vector and predicate instructions of Fraxo (05), one meaning each. -/

namespace Sys2Proof.Machine

/-- VADD (R123, R124). -/
def execVadd (c : CoreId) (f : VForm) (s : State) : Host.Outcome State Fault Refusal :=
  issue c (encV 0x30 0 f) (pureIss (vArith .add f)) s

/-- VSUB (R123, R124). -/
def execVsub (c : CoreId) (f : VForm) (s : State) : Host.Outcome State Fault Refusal :=
  issue c (encV 0x30 1 f) (pureIss (vArith .sub f)) s

/-- VMUL (R123, R124). -/
def execVmul (c : CoreId) (f : VForm) (s : State) : Host.Outcome State Fault Refusal :=
  issue c (encV 0x30 2 f) (pureIss (vArith .mul f)) s

/-- VMIN (R123, R124). -/
def execVmin (c : CoreId) (f : VForm) (s : State) : Host.Outcome State Fault Refusal :=
  issue c (encV 0x30 3 f) (pureIss (vMinMax false f)) s

/-- VMAX (R123, R124). -/
def execVmax (c : CoreId) (f : VForm) (s : State) : Host.Outcome State Fault Refusal :=
  issue c (encV 0x30 4 f) (pureIss (vMinMax true f)) s

/-- VABS (R123, R124). -/
def execVabs (c : CoreId) (f : VForm) (s : State) : Host.Outcome State Fault Refusal :=
  issue c (encV 0x30 5 f) (pureIss (vSign false f)) s

/-- VNEG (R123, R124). -/
def execVneg (c : CoreId) (f : VForm) (s : State) : Host.Outcome State Fault Refusal :=
  issue c (encV 0x30 6 f) (pureIss (vSign true f)) s

/-- VDIV (R123, R124). -/
def execVdiv (c : CoreId) (f : VForm) (s : State) : Host.Outcome State Fault Refusal :=
  issue c (encV 0x30 7 f) (pureIss (vArith .div f)) s

/-- VSQRT (R123, R124). -/
def execVsqrt (c : CoreId) (f : VForm) (s : State) : Host.Outcome State Fault Refusal :=
  issue c (encV 0x30 8 f) (pureIss (vSqrt f)) s

/-- VFMA (R123). -/
def execVfma (c : CoreId) (f : VForm) (s : State) : Host.Outcome State Fault Refusal :=
  issue c (encV 0x31 0 f) (fmaIss (vFma false false f)) s

/-- VFMS (R123). -/
def execVfms (c : CoreId) (f : VForm) (s : State) : Host.Outcome State Fault Refusal :=
  issue c (encV 0x31 1 f) (fmaIss (vFma false true f)) s

/-- VFNMA (R123). -/
def execVfnma (c : CoreId) (f : VForm) (s : State) : Host.Outcome State Fault Refusal :=
  issue c (encV 0x31 2 f) (fmaIss (vFma true false f)) s

/-- VINT ADD (Table 5). -/
def execVintAdd (c : CoreId) (f : VForm) (s : State) : Host.Outcome State Fault Refusal :=
  issue c (encV 0x32 0 f) (pureIss (vInt .add f)) s

/-- VINT SUB (Table 5). -/
def execVintSub (c : CoreId) (f : VForm) (s : State) : Host.Outcome State Fault Refusal :=
  issue c (encV 0x32 1 f) (pureIss (vInt .sub f)) s

/-- VINT MUL (Table 5). -/
def execVintMul (c : CoreId) (f : VForm) (s : State) : Host.Outcome State Fault Refusal :=
  issue c (encV 0x32 2 f) (pureIss (vInt .mul f)) s

/-- VINT AND (Table 5). -/
def execVintAnd (c : CoreId) (f : VForm) (s : State) : Host.Outcome State Fault Refusal :=
  issue c (encV 0x32 3 f) (pureIss (vInt .and f)) s

/-- VINT OR (Table 5). -/
def execVintOr (c : CoreId) (f : VForm) (s : State) : Host.Outcome State Fault Refusal :=
  issue c (encV 0x32 4 f) (pureIss (vInt .or f)) s

/-- VINT XOR (Table 5). -/
def execVintXor (c : CoreId) (f : VForm) (s : State) : Host.Outcome State Fault Refusal :=
  issue c (encV 0x32 5 f) (pureIss (vInt .xor f)) s

/-- VINT SLL (Table 5). -/
def execVintSll (c : CoreId) (f : VForm) (s : State) : Host.Outcome State Fault Refusal :=
  issue c (encV 0x32 6 f) (pureIss (vInt .sll f)) s

/-- VINT SRL (Table 5). -/
def execVintSrl (c : CoreId) (f : VForm) (s : State) : Host.Outcome State Fault Refusal :=
  issue c (encV 0x32 7 f) (pureIss (vInt .srl f)) s

/-- VINT SRA (Table 5). -/
def execVintSra (c : CoreId) (f : VForm) (s : State) : Host.Outcome State Fault Refusal :=
  issue c (encV 0x32 8 f) (pureIss (vInt .sra f)) s

/-- VINT MIN (Table 5). -/
def execVintMin (c : CoreId) (f : VForm) (s : State) : Host.Outcome State Fault Refusal :=
  issue c (encV 0x32 9 f) (pureIss (vInt .min f)) s

/-- VINT MAX (Table 5). -/
def execVintMax (c : CoreId) (f : VForm) (s : State) : Host.Outcome State Fault Refusal :=
  issue c (encV 0x32 10 f) (pureIss (vInt .max f)) s

/-- VINT MINU (Table 5). -/
def execVintMinu (c : CoreId) (f : VForm) (s : State) : Host.Outcome State Fault Refusal :=
  issue c (encV 0x32 11 f) (pureIss (vInt .minu f)) s

/-- VINT MAXU (Table 5). -/
def execVintMaxu (c : CoreId) (f : VForm) (s : State) : Host.Outcome State Fault Refusal :=
  issue c (encV 0x32 12 f) (pureIss (vInt .maxu f)) s

/-- VINT ADDS (Table 5). -/
def execVintAdds (c : CoreId) (f : VForm) (s : State) : Host.Outcome State Fault Refusal :=
  issue c (encV 0x32 13 f) (pureIss (vInt .adds f)) s

/-- VCMP EQ on floats (R123, R125). -/
def execVcmpEq (c : CoreId) (f : VForm) (s : State) : Host.Outcome State Fault Refusal :=
  issue c (encV 0x33 0 f) (pureIss (vCmp .eq f)) s

/-- VCMP NE on floats (R123, R125). -/
def execVcmpNe (c : CoreId) (f : VForm) (s : State) : Host.Outcome State Fault Refusal :=
  issue c (encV 0x33 1 f) (pureIss (vCmp .ne f)) s

/-- VCMP LT on floats (R123, R125). -/
def execVcmpLt (c : CoreId) (f : VForm) (s : State) : Host.Outcome State Fault Refusal :=
  issue c (encV 0x33 2 f) (pureIss (vCmp .lt f)) s

/-- VCMP LE on floats (R123, R125). -/
def execVcmpLe (c : CoreId) (f : VForm) (s : State) : Host.Outcome State Fault Refusal :=
  issue c (encV 0x33 3 f) (pureIss (vCmp .le f)) s

/-- VCMP GT on floats (R123, R125). -/
def execVcmpGt (c : CoreId) (f : VForm) (s : State) : Host.Outcome State Fault Refusal :=
  issue c (encV 0x33 4 f) (pureIss (vCmp .gt f)) s

/-- VCMP GE on floats (R123, R125). -/
def execVcmpGe (c : CoreId) (f : VForm) (s : State) : Host.Outcome State Fault Refusal :=
  issue c (encV 0x33 5 f) (pureIss (vCmp .ge f)) s

/-- VCMP UNORD on floats (R123, R125). -/
def execVcmpUnord (c : CoreId) (f : VForm) (s : State) : Host.Outcome State Fault Refusal :=
  issue c (encV 0x33 6 f) (pureIss (vCmp .unord f)) s

/-- VCMP signed EQ (Table 5). -/
def execVcmpSeq (c : CoreId) (f : VForm) (s : State) : Host.Outcome State Fault Refusal :=
  issue c (encV 0x33 8 f) (pureIss (vCmpS .eq f)) s

/-- VCMP signed NE (Table 5). -/
def execVcmpSne (c : CoreId) (f : VForm) (s : State) : Host.Outcome State Fault Refusal :=
  issue c (encV 0x33 9 f) (pureIss (vCmpS .ne f)) s

/-- VCMP signed LT (Table 5). -/
def execVcmpSlt (c : CoreId) (f : VForm) (s : State) : Host.Outcome State Fault Refusal :=
  issue c (encV 0x33 10 f) (pureIss (vCmpS .lt f)) s

/-- VCMP signed LE (Table 5). -/
def execVcmpSle (c : CoreId) (f : VForm) (s : State) : Host.Outcome State Fault Refusal :=
  issue c (encV 0x33 11 f) (pureIss (vCmpS .le f)) s

/-- VCMP signed GT (Table 5). -/
def execVcmpSgt (c : CoreId) (f : VForm) (s : State) : Host.Outcome State Fault Refusal :=
  issue c (encV 0x33 12 f) (pureIss (vCmpS .gt f)) s

/-- VCMP signed GE (Table 5). -/
def execVcmpSge (c : CoreId) (f : VForm) (s : State) : Host.Outcome State Fault Refusal :=
  issue c (encV 0x33 13 f) (pureIss (vCmpS .ge f)) s

/-- PAND (Table 5). -/
def execPand (c : CoreId) (f : PForm) (s : State) : Host.Outcome State Fault Refusal :=
  issue c (encP 0 f) (pureIss (predOp (fun a b => a &&& b) true f)) s

/-- POR (Table 5). -/
def execPor (c : CoreId) (f : PForm) (s : State) : Host.Outcome State Fault Refusal :=
  issue c (encP 1 f) (pureIss (predOp (fun a b => a ||| b) true f)) s

/-- PXOR (Table 5). -/
def execPxor (c : CoreId) (f : PForm) (s : State) : Host.Outcome State Fault Refusal :=
  issue c (encP 2 f) (pureIss (predOp (fun a b => a ^^^ b) true f)) s

/-- PANDN (Table 5). -/
def execPandn (c : CoreId) (f : PForm) (s : State) : Host.Outcome State Fault Refusal :=
  issue c (encP 3 f) (pureIss (predOp (fun a b => a &&& ~~~b) true f)) s

/-- PNOT (Table 5). -/
def execPnot (c : CoreId) (f : PForm) (s : State) : Host.Outcome State Fault Refusal :=
  issue c (encP 4 f) (pureIss (predOp (fun a _ => ~~~a) false f)) s

/-- PFROM (Table 5). -/
def execPfrom (c : CoreId) (f : PForm) (s : State) : Host.Outcome State Fault Refusal :=
  issue c (encP 5 f) (pureIss (pfrom f)) s

/-- PTO (Table 5). -/
def execPto (c : CoreId) (f : PForm) (s : State) : Host.Outcome State Fault Refusal :=
  issue c (encP 6 f) (pureIss (pto f)) s

/-- PFIRST (Table 5). -/
def execPfirst (c : CoreId) (f : PForm) (s : State) : Host.Outcome State Fault Refusal :=
  issue c (encP 7 f) (pureIss (pfirst f)) s

/-- VRCP (R125). -/
def execVrcp (c : CoreId) (f : VForm) (s : State) : Host.Outcome State Fault Refusal :=
  issue c (encV 0x35 0 f) (pureIss (vSpec .rcp f)) s

/-- VRSQRT (R125). -/
def execVrsqrt (c : CoreId) (f : VForm) (s : State) : Host.Outcome State Fault Refusal :=
  issue c (encV 0x35 1 f) (pureIss (vSpec .rsqrt f)) s

/-- VEXP2 (R125). -/
def execVexp2 (c : CoreId) (f : VForm) (s : State) : Host.Outcome State Fault Refusal :=
  issue c (encV 0x35 2 f) (pureIss (vSpec .exp2 f)) s

/-- VLOG2 (R125). -/
def execVlog2 (c : CoreId) (f : VForm) (s : State) : Host.Outcome State Fault Refusal :=
  issue c (encV 0x35 3 f) (pureIss (vSpec .log2 f)) s

/-- VTANH (R125). -/
def execVtanh (c : CoreId) (f : VForm) (s : State) : Host.Outcome State Fault Refusal :=
  issue c (encV 0x35 4 f) (pureIss (vSpec .tanh f)) s

/-- VDOT (R129). -/
def execVdot (c : CoreId) (f : VForm) (s : State) : Host.Outcome State Fault Refusal :=
  issue c (encV 0x36 0 f) (pureIss (vDot f)) s

/-- VCVT (R126). -/
def execVcvt (c : CoreId) (f : VCForm) (s : State) : Host.Outcome State Fault Refusal :=
  issue c (encVC 0x38 f) (pureIss (vCvt f)) s

/-- VQB (R127, R134). -/
def execVqb (c : CoreId) (f : VCForm) (s : State) : Host.Outcome State Fault Refusal :=
  issue c (encVC 0x39 f) (quantIss false f) s

/-- VQBX (R127, R134). -/
def execVqbx (c : CoreId) (f : VCForm) (s : State) : Host.Outcome State Fault Refusal :=
  issue c (encVC 0x3A f) (quantIss true f) s

/-- VDQB (R128). -/
def execVdqb (c : CoreId) (f : VCForm) (s : State) : Host.Outcome State Fault Refusal :=
  issue c (encVC 0x3B f) (pureIss (vDequant f)) s

/-- VRED SUM (R130). -/
def execVredSum (c : CoreId) (f : VForm) (s : State) : Host.Outcome State Fault Refusal :=
  issue c (encV 0x3C 0 f) (pureIss (vRed .sum f)) s

/-- VRED MAX (R130). -/
def execVredMax (c : CoreId) (f : VForm) (s : State) : Host.Outcome State Fault Refusal :=
  issue c (encV 0x3C 1 f) (pureIss (vRed .max f)) s

/-- VRED MIN (R130). -/
def execVredMin (c : CoreId) (f : VForm) (s : State) : Host.Outcome State Fault Refusal :=
  issue c (encV 0x3C 2 f) (pureIss (vRed .min f)) s

/-- VRED SUMSQ (R130). -/
def execVredSumsq (c : CoreId) (f : VForm) (s : State) : Host.Outcome State Fault Refusal :=
  issue c (encV 0x3C 3 f) (pureIss (vRed .sumsq f)) s

/-- VPERMB (R130, Table 5). -/
def execVpermb (c : CoreId) (f : VForm) (s : State) : Host.Outcome State Fault Refusal :=
  issue c (encV 0x3D 0 f) (pureIss (vPermb f)) s

/-- VBCST (R130, Table 5). -/
def execVbcst (c : CoreId) (f : VForm) (s : State) : Host.Outcome State Fault Refusal :=
  issue c (encV 0x3D 1 f) (pureIss (vBcst f)) s

/-- VGET (R130, Table 5). -/
def execVget (c : CoreId) (f : VForm) (s : State) : Host.Outcome State Fault Refusal :=
  issue c (encV 0x3D 2 f) (pureIss (vGet f)) s

/-- VSET (R130, Table 5). -/
def execVset (c : CoreId) (f : VForm) (s : State) : Host.Outcome State Fault Refusal :=
  issue c (encV 0x3D 3 f) (pureIss (vSet f)) s

/-- VSLIDE (R130, Table 5). -/
def execVslide (c : CoreId) (f : VForm) (s : State) : Host.Outcome State Fault Refusal :=
  issue c (encV 0x3D 4 f) (pureIss (vSlide f)) s

/-- VZIPLO (R130, Table 5). -/
def execVziplo (c : CoreId) (f : VForm) (s : State) : Host.Outcome State Fault Refusal :=
  issue c (encV 0x3D 5 f) (pureIss (vZip false f)) s

/-- VZIPHI (R130, Table 5). -/
def execVziphi (c : CoreId) (f : VForm) (s : State) : Host.Outcome State Fault Refusal :=
  issue c (encV 0x3D 6 f) (pureIss (vZip true f)) s

/-- VMOV (R130, Table 5). -/
def execVmov (c : CoreId) (f : VForm) (s : State) : Host.Outcome State Fault Refusal :=
  issue c (encV 0x3D 7 f) (pureIss (vMov f)) s

end Sys2Proof.Machine
end

