-- ==== Sys2Proof/Machine/HostWrites.lean ====
section
/-! DEFINITION. Writes of BAR0 (00: R4-R6, R8; 15: R346, R347) and of configuration space (15: R343-R345, R351, R365). -/

namespace Sys2Proof.Machine

-- Fields by type (R8)

/-- One part of a field written by its type: RW fields but reserved encodings, RW1C bits written 1 cleared. -/
def Hub.putPiece (w : Nat) (h : Hub) (p : Piece) : Hub :=
  let old := h.get p.f.fld
  match p.f.ty with
  | .rw => if p.ok w then h.set p.f.fld (p.into old w) else h
  | .rw1c => h.set p.f.fld (old ^^^ (old &&& (p.of w * 2 ^ p.dst)))
  | _ => h

/-- The RW and RW1C fields of a register. -/
def Hub.putPlain (h : Hub) (r : RegAt) (w : Nat) : Hub := r.pieces.foldl (Hub.putPiece w) h

/-- An enable bit newly set beside a set event bit raises the PF's entry (Table 7 of 15). -/
def Hub.enableRaise (h old : Hub) (r : RegAt) : Hub :=
  match eventRegs.find? (fun e => decide (e.1 + 4 = r.off)) with
  | none => h
  | some e =>
    if r.pieces.any (fun p => h.on p.f.fld && !old.on p.f.fld && h.on { p.f.fld with off := e.1, rst := 0 }) then h.msix 0 e.2 else h

/-- A register with no action of its own. -/
def State.putReg (s : State) (r : RegAt) (w : Nat) : State :=
  if r.hasRwf then (s.rwfWrite 1 r w).2
  else s.onHub (fun h => (h.putPlain r w).enableRaise h r)

-- Registers whose fields depend on others

/-- XLT_FQ_BASE: only while ENABLE is 0 (R270). -/
def Hub.fqBase (h : Hub) (p w : Nat) : Hub := if h.on (Reg.xltFqCtrlEnable p) then h else h.set (Reg.xltFqBaseHpa p) (w % 2 ^ 48)

/-- XLT_FQ_CTRL: LOG2 only while ENABLE is 0 (R270); enabled, pending records are written (R271). -/
def State.fqCtrl (s : State) (p w : Nat) : State :=
  (s.onHub (fun h =>
    let n := bits w 1 5
    let h := if h.on (Reg.xltFqCtrlEnable p) ∨ n < 6 ∨ 16 < n then h else h.set (Reg.xltFqCtrlLog2 p) n
    h.set (Reg.xltFqCtrlEnable p) (bits w 0 1))).fqPump p

/-- SITE_CTRL (R305, R308). -/
def Hub.siteCtrl (h : Hub) (k w : Nat) : Hub :=
  let h := if bitAt w 0 then h.fence k 9 else h
  if bitAt w 1 then h.resound k else h

/-- DRF_STREAM_CTRL (R247): the first of ABORT, PAUSE and RESUME. -/
def Hub.streamCtrl (h : Hub) (fn n w : Nat) : Hub :=
  if bitAt w 2 then h.abortBy fn n else if bitAt w 0 then h.pauseBy fn n else if bitAt w 1 then h.resumeBy fn n else h

/-- HST_ATT_ERR: 0b111 in CAUSE clears the record. -/
def Hub.attErrWrite (h : Hub) (r : RegAt) (w : Nat) : Hub :=
  if bits w 40 3 = 7 then h.sets [(Reg.hstAttErrOffset, 0), (Reg.hstAttErrCause, 0)] else h.putPlain r w

/-- The RW fields of a word of WIN_WTT are changed by a write. -/
def Hub.wttChanges (h : Hub) (r : RegAt) (w : Nat) : Bool :=
  r.pieces.any (fun p => decide (p.f.ty = .rw) && p.ok w && decide (p.into (h.get p.f.fld) w ≠ h.get p.f.fld))

/-- A word of WIN_WTT (R389): RW1C bits, then RW fields while FREE or CLOSED, then one control. -/
def Hub.wttWrite (h : Hub) (r : RegAt) (w : Nat) : Hub :=
  let d := r.ix.getD 0 0
  let k := r.ix.getD 1 0
  if h.dies ≤ d then h
  else
    let busy := decide (h.get (Reg.winWttState d k) = 1) || decide (h.get (Reg.winWttState d k) = 2)
    let chg := h.wttChanges r w
    let r1 := { r with flds := r.flds.filter (fun f => decide (f.ty = .rw1c)) }
    let h := h.putPlain (if busy then r1 else r) w
    let h := if busy && chg then h.winRefuse d k else h
    if r.lo ≠ 0 then h
    else
      let o := bitAt w 2
      let c := bitAt w 3
      let f := bitAt w 4
      if (o && c) || (o && f) || (c && f) then h.winRefuse d k
      else if o then h.winOpenAt d k
      else if c then h.winCloseAt d k
      else if f then h.winFreeAt d k
      else h

/-- Q_SQ_BASE and Q_CQ_BASE: only while STATE is 0 (R354); a change is one of a locked field (Table 14). -/
def Hub.queueBase (h : Hub) (fn q : Nat) (f : Fld) (w : Nat) : Hub :=
  if h.get (Reg.qStatusState fn q) ≠ 0 ∨ h.get f = w / 4096 then h else (h.lockedChange fn).set f (w / 4096)

/-- Q_CTRL. -/
def Hub.queueCtrl (h : Hub) (fn q w : Nat) : Hub := if bitAt w 0 then h.queueOn fn q w else h.queueCtl0 fn q w

/-- A word of the MSI-X table (R352, R353): a change is one of a locked field (Table 14), and a mask bit that clears lets a pending message
go. -/
def Hub.msixWrite (h : Hub) (fn : Nat) (r : RegAt) (w : Nat) : Hub :=
  let e := r.ix.getD 0 0
  let chg := r.pieces.any (fun p => decide (p.into (h.get p.f.fld) w ≠ h.get p.f.fld))
  let was := h.on (Reg.msixMask fn e)
  let h := (if chg then h.lockedChange fn else h).putPlain r w
  if was ∧ !h.on (Reg.msixMask fn e) then Hub.msixFlush1 fn e h else h

/-- A register of the Q_ block or the MSI-X table of a function. -/
def Hub.ownReg (h : Hub) (fn : Nat) (r : RegAt) (w : Nat) : Hub :=
  if 0x1300000 ≤ r.off then h.msixWrite fn r w
  else
    let q := r.ix.getD 0 0
    match r.off % 0x40 with
    | 0x00 => h.queueBase fn q (Reg.qSqBaseAddr fn q) w
    | 0x08 => h.queueBase fn q (Reg.qCqBaseAddr fn q) w
    | 0x10 => h.queueCtrl fn q w
    | 0x20 => h.sqTail fn q w
    | 0x24 => h.cqHead fn q w
    | _ => h.putPlain r w

/-- A whole register of PF BAR0 written. -/
def State.putPf (s : State) (r : RegAt) (w : Nat) : State :=
  let o := r.off
  let i := r.ix.getD 0 0
  if o = 0x50 then s.glbReset w
  else if o = 0x100010 then s.onHub (fun h => (h.cfgCommitWord 1 w).2)
  else if o = 0x100018 then (if bitAt w 16 then s.onHub (·.cfgBreak 1) else s)
  else if o = 0x100048 then (if bitAt w 0 then s.fsetLoad 1 else s)
  else if 0x202000 ≤ o ∧ o < 0x203000 then (if bitAt w 0 then s.onHub (·.floeCtrl i) else s)
  else if o = 0x500320 then s.onHub (·.rowqWrite w)
  else if o = 0x400028 then s.maintStart (bits w 0 2) w
  else if 0x680000 ≤ o ∧ o < 0x6C0000 then (if o % 8 = 0 then s.onHub (·.dbTail .pf i w) else s.dbCplhead .pf i w)
  else if 0x6C0000 ≤ o ∧ o < 0x700000 then s.onHub (·.streamCtrl 0 i w)
  else if 0x700100 ≤ o ∧ o < 0x700400 ∧ o % 0x20 = 0 then s.onHub (·.fqBase i w)
  else if 0x700100 ≤ o ∧ o < 0x700400 ∧ o % 0x20 = 8 then s.fqCtrl i w
  else if 0x700100 ≤ o ∧ o < 0x700400 ∧ o % 0x20 = 0x14 then s.fqCi 0 i w
  else if 0x701000 ≤ o ∧ o < 0x702000 then s.onHub (·.grantsWrite i w)
  else if 0x708000 ≤ o ∧ o < 0x710000 then s.onHub (·.asWriteBy 0 i w)
  else if 0x800180 ≤ o ∧ o < 0x800200 then s.onHub (·.siteCtrl i w)
  else if 0x802000 ≤ o ∧ o < 0x803000 then s.onHub (·.engDb .pf i w)
  else if 0xA01000 ≤ o ∧ o < 0xA03000 ∧ o % 0x100 = 0 then (s.prtWord 1 i w).2
  else if 0xB10000 ≤ o ∧ o < 0xB30000 then (s.onHub (·.peerWrite i (o % 0x20 / 8) w)).pumpAll
  else if 0xB40000 ≤ o ∧ o < 0xB80000 then s.onHub (·.wttWrite r w)
  else if o = 0xD00050 then s.onHub (·.softBrake (bitAt w 0))
  else if o = 0xE00028 then s.onHub (·.morClearTo w)
  else if 0x1000000 ≤ o ∧ o < 0x1100000 then s.onHub (·.ownReg 0 r w)
  else if o = 0x1200018 then s.onHub (·.attErrWrite r w)
  else if 0x1300000 ≤ o ∧ o < 0x1310000 then s.onHub (·.ownReg 0 r w)
  else if o = 0x1402000 then (if bitAt w 0 then s.mbxServe else s)
  else s.putReg r w

-- The view of a VF (R347)

/-- The place in PF BAR0 that an offset of a VF's BAR0 stands for (Table 5), for the parts that writes reach. -/
def Hub.vfPlace (h : Hub) (v off : Nat) : Option Nat :=
  let p := h.vfOwner v
  if 0x100 ≤ off ∧ off < 0x120 then (if p < 24 then some (0x700100 + 0x20 * p + (off - 0x100)) else none)
  else if 0x1000 ≤ off ∧ off < 0x2000 then some (0x1001000 + (off - 0x1000))
  else if 0x2000 ≤ off ∧ off < 0x2040 then (if p < 24 then some (0x204000 + 0x40 * p + (off - 0x2000)) else none)
  else if 0x3000 ≤ off ∧ off < 0x4000 then some (0x1300000 + (off - 0x3000))
  else if 0x8000 ≤ off ∧ off < 0x10000 then some (0x708000 + (off - 0x8000))
  else if 0x10000 ≤ off ∧ off < 0x12000 then (if p < 24 then some (0x1110000 + 0x2000 * p + (off - 0x10000)) else none)
  else if 0x20000 ≤ off ∧ off < 0x20400 then some (0x802000 + (off - 0x20000))
  else if 0x40000 ≤ off ∧ off < 0x80000 then some (0x640000 + (off - 0x40000))
  else if 0x80000 ≤ off ∧ off < 0xC0000 then some (0x680000 + (off - 0x80000))
  else if 0xC0000 ≤ off ∧ off < 0x100000 then some (0x6C0000 + (off - 0xC0000))
  else none

/-- HALTED and CLEAR of a tag from a VF's BAR0: the only fields of DEW_TAG that it writes. -/
def State.vfTag (s : State) (r : RegAt) (w : Nat) : State :=
  s.rwfOthers { r with flds := r.flds.filter (fun f => decide (f.ty ≠ .rwf)) } w

/-- A whole register of a VF's BAR0 written. -/
def State.putVf (s : State) (v : Nat) (r : RegAt) (w : Nat) : State :=
  let o := r.off
  let i := r.ix.getD 0 0
  if 0x680000 ≤ o ∧ o < 0x6C0000 then
    (if o % 8 = 0 then s.onHub (·.dbTail (.vf (BitVec.ofNat 6 v)) i w) else s.dbCplhead (.vf (BitVec.ofNat 6 v)) i w)
  else if 0x640000 ≤ o ∧ o < 0x680000 then
    (if s.hub.on (Reg.drfStreamStatusState i) ∧ (s.hub.stream i).fn = v then s.onHub (·.putPlain r w) else s)
  else if 0x6C0000 ≤ o ∧ o < 0x700000 then s.onHub (·.streamCtrl v i w)
  else if 0x700100 ≤ o ∧ o < 0x700400 ∧ o % 0x20 = 0 then s.onHub (·.fqBase i w)
  else if 0x700100 ≤ o ∧ o < 0x700400 ∧ o % 0x20 = 8 then s.fqCtrl i w
  else if 0x700100 ≤ o ∧ o < 0x700400 ∧ o % 0x20 = 0x14 then s.fqCi v i w
  else if 0x708000 ≤ o ∧ o < 0x710000 then s.onHub (·.asWriteBy v i w)
  else if 0x802000 ≤ o ∧ o < 0x803000 then s.onHub (·.engDb (.vf (BitVec.ofNat 6 v)) i w)
  else if 0x1000000 ≤ o ∧ o < 0x1100000 then s.onHub (·.ownReg v r w)
  else if 0x1300000 ≤ o ∧ o < 0x1310000 then s.onHub (·.ownReg v r w)
  else if 0x1110000 ≤ o ∧ o < 0x1140000 then s.vfTag r w
  else s.onHub (·.putPlain r w)

-- Accesses (R4, R5)

/-- A whole register written by a function. -/
def State.putBy (s : State) (fn : Nat) (r : RegAt) (w : Nat) : State := if fn = 0 then s.putPf r w else s.putVf fn r w

/-- A 32-bit write of a register, or of one half of a 64-bit one (R5); `place` is the offset in PF BAR0. -/
def State.putWord (s : State) (fn place w : Nat) : State :=
  match s.hub.regAt fn place with
  | none => s.wroteBy fn
  | some r =>
    let t := s.wroteBy fn
    if r.width = 32 then t.putBy fn r w
    else if place = r.off then t.onHub (fun h => { h with halves := h.halves ++ [(fn, r.off, w)] })
    else
      let low := match s.hub.halves.find? (fun x => decide (x.1 = fn) && decide (x.2.1 = r.off)) with
        | some x => x.2.2
        | none => s.hub.lowNow r
      t.putBy fn r (low + 2 ^ 32 * w)

/-- A 64-bit write: a 64-bit register, or the 32-bit registers of the pair. -/
def State.putPair (s : State) (fn place w : Nat) : State :=
  let s := s.wroteBy fn
  match s.hub.regAt fn place with
  | some r => if r.width = 64 then s.putBy fn r w else (s.putBy fn r (w % 2 ^ 32)).putWord fn (place + 4) (w / 2 ^ 32)
  | none => s.putWord fn (place + 4) (w / 2 ^ 32)

/-- Bytes of MBX_REQ written (R444). -/
def Hub.mbxReqPut (h : Hub) (a n w : Nat) : Hub :=
  { h with alm := { h.alm with mbxReq := (List.range n).foldl (fun t i => tset 0 t (a + i) (BitVec.ofNat 8 (w / 2 ^ (8 * i)))) h.alm.mbxReq } }

/-- What PF BAR0 carries now: all of it, or the minimal one of recovery and End of Life (Table 2 of 03). -/
def Hub.pfHas (h : Hub) (off : Nat) : Bool :=
  decide (h.boot.step = 10) || decide (off < 0x100000) || (decide (0x1400000 ≤ off) && decide (off < 0x1403000))

/-- A write that R4 accepts, by the PF. -/
def State.pfWrite (s : State) (off bytes w : Nat) : State :=
  let off := if 0x8000000 ≤ off then off - 0x8000000 else off
  if !s.hub.pfHas off then s.wroteBy 0
  else if 0x1400000 ≤ off ∧ off < 0x1402000 then
    (s.wroteBy 0).onHub (fun h => if off < 0x1401000 then h.mbxReqPut (off - 0x1400000) bytes w else h)
  else if bytes = 8 then s.putPair 0 off w
  else s.putWord 0 off (w % 2 ^ 32)

/-- A write that R4 accepts, by a VF. -/
def State.vfWrite (s : State) (v off bytes w : Nat) : State :=
  match s.hub.vfPlace v off with
  | none => s.wroteBy v
  | some a => if bytes = 8 then s.putPair v a w else s.putWord v a (w % 2 ^ 32)

/-- R4 accepts the access. -/
def accepts (off bytes : Nat) : Bool := (decide (bytes = 4) || decide (bytes = 8)) && decide (off % bytes = 0)

/-- A BAR0 access reaches its function: the endpoint is up, the function exists, Memory Space Enable is 1 (R365). None: it does not, with
what that leaves. -/
def Hub.barReach (h : Hub) (fn off : Nat) : Option Hub :=
  if !h.bar0Up ∨ (fn ≠ 0 ∧ !h.vfOn fn) then some h
  else if !h.on (Pci.mse fn) then some (h.aerPlain fn 20 off)
  else if fn ≠ 0 ∧ (h.vfMute fn ∨ 2 ^ 20 ≤ off) then some h
  else none

/-- An access of another width or alignment (R4): recorded, with no other effect. -/
def Hub.badAccess (h : Hub) (fn off : Nat) : Hub := h.hostRec 0x0A01 fn off true

/-- REGISTER_WRITE (R4, R5, R6, R8, R346, R347, R502). -/
def execRegisterWrite (fn : BitVec 6) (off : BitVec 28) (bytes : BitVec 4) (w : BitVec 64) (s : State) : Host.Outcome State Fault Refusal :=
  let f := fn.toNat
  let o := off.toNat
  match s.hub.barReach f o with
  | some h => .next { s with hub := h }
  | none =>
    if !accepts o bytes.toNat then .next (s.onHub (·.badAccess f o))
    else if f = 0 then .next ((s.pfWrite o bytes.toNat w.toNat).watch s)
    else .next ((s.vfWrite f o bytes.toNat w.toNat).watch s)

/-- BAR0_BAD_ACCESS (R4): a read completes with zero. -/
def execBar0BadAccess (fn : BitVec 6) (off : BitVec 28) (bytes : BitVec 4) (write : Bool) (s : State) : Host.Outcome State Fault Refusal :=
  let f := fn.toNat
  let o := off.toNat
  match s.hub.barReach f o with
  | some h => .next { s with hub := h }
  | none =>
    if accepts o bytes.toNat then .next s
    else hubStep (fun h =>
      let h := h.badAccess f o
      if write then h else h.send (.bar2Cpl 0 bytes.toNat 0 false)) s

-- Configuration space (R343-R345, R351, R365; layouts PRESUMED, log entry 2)

/-- The Command register (Table 2); a VF's Memory Space Enable stands in the SR-IOV capability. -/
def Hub.cfgCommand (h : Hub) (fn w : Nat) : Hub :=
  let h := if fn = 0 then h.set (Pci.mse 0) (bits w 1 1) else h
  let h := (h.set (Pci.perr fn) (bits w 6 1)).set (Pci.serr fn) (bits w 8 1)
  if bitAt w 2 then (if h.on (Pci.bme fn) then h else (h.set (Pci.bme fn) 1).upstreamOn fn) else h.set (Pci.bme fn) 0

/-- Every VF's interface that is locked loses its lock by a change. -/
def Hub.lockedAll (h : Hub) : Hub := overList (fun v h => h.lockedChange v) ((List.range 48).map (· + 1)) h

/-- A half of a 64-bit base address. -/
def Hub.setBase (h : Hub) (f : Fld) (hi : Bool) (mask w : Nat) : Hub :=
  let old := h.get f
  let new := if hi then putBits old 32 32 w else putBits old 0 32 w
  h.set f (new / 2 ^ mask * 2 ^ mask)

/-- VF BAR0 of the SR-IOV capability: a change moves it for every VF (Table 14). -/
def Hub.vfBarWrite (h : Hub) (hi : Bool) (w : Nat) : Hub :=
  let n := h.setBase Pci.vfBar0 hi 20 w
  if n.get Pci.vfBar0 = h.get Pci.vfBar0 then h else h.lockedAll.setBase Pci.vfBar0 hi 20 w

/-- SR-IOV Control: VF Enable, and Memory Space Enable of the VFs. -/
def Hub.sriovCtrl (h : Hub) (w : Nat) : Hub :=
  let h := overList (fun v h => h.set (Pci.mse v) (bits w 3 1)) ((List.range 48).map (· + 1)) h
  if bitAt w 0 then h.vfEnable1 else h.vfEnable0

/-- ATS Control: a change of ATS Enable is one of a locked field (Table 14). -/
def Hub.atsCtrl (h : Hub) (fn w : Nat) : Hub :=
  if h.get (Pci.atsEn fn) = bits w 31 1 then h else (h.lockedChange fn).set (Pci.atsEn fn) (bits w 31 1)

/-- MSI-X Control: what was masked goes out. -/
def Hub.msixCtrl (h : Hub) (fn w : Nat) : Hub :=
  ((h.set (Pci.msixEn fn) (bits w 31 1)).set (Pci.msixFmask fn) (bits w 30 1)).msixFlush fn

/-- Device Control: Initiate Function Level Reset (R366, R367). -/
def Hub.devCtrl (h : Hub) (fn w : Nat) : Hub := if bitAt w 15 then (if fn = 0 then h.pfFlr else h.vfFlrStart fn) else h

/-- A double word of configuration space written by a function that is there. -/
def Hub.cfgDword (h : Hub) (fn off w : Nat) : Hub :=
  match off with
  | 0x04 => h.cfgCommand fn w
  | 0x10 => if fn = 0 then h.setBase (Pci.bar0 0) false 28 w else h
  | 0x14 => if fn = 0 then h.setBase (Pci.bar0 0) true 28 w else h
  | 0x18 => if fn = 0 then h.setBase (Pci.bar2 0) false (h.get Reg.hstInfoBar2Log2) w else h
  | 0x1C => if fn = 0 then h.setBase (Pci.bar2 0) true (h.get Reg.hstInfoBar2Log2) w else h
  | 0x44 =>
    if fn ≠ 0 then h
    else if bits w 0 2 = 3 then h.set (Pci.d3 0) 1
    else if bits w 0 2 = 0 then (h.set (Pci.d3 0) 0).upstreamOn 0
    else h
  | 0x50 => h.msixCtrl fn w
  | 0x78 => h.devCtrl fn w
  | 0x98 => h.set (Pci.ctoValue fn) (bits w 0 4)
  | 0x104 => h.set (Pci.aerUnc fn) (h.get (Pci.aerUnc fn) ^^^ (h.get (Pci.aerUnc fn) &&& w))
  | 0x108 => h.set (Pci.aerUncMask fn) w
  | 0x10C => h.set (Pci.aerUncSev fn) w
  | 0x110 => h.set (Pci.aerCor fn) (h.get (Pci.aerCor fn) ^^^ (h.get (Pci.aerCor fn) &&& w))
  | 0x114 => h.set (Pci.aerCorMask fn) w
  | 0x288 => if fn = 0 ∧ 16 ≤ bits w 8 6 ∧ bits w 8 6 ≤ 20 then h.set Reg.hstInfoBar2Log2 (20 + bits w 8 6) else h
  | 0x2A8 => if fn = 0 then h.sriovCtrl w else h
  | 0x2B0 => if fn = 0 then h.numVfsWrite (w % 2 ^ 16) else h
  | 0x2C4 => if fn = 0 then h.vfBarWrite false w else h
  | 0x2C8 => if fn = 0 then h.vfBarWrite true w else h
  | 0x2E4 => h.atsCtrl fn w
  | 0x2F4 => h.set (Pci.priEn fn) (bits w 0 1)
  | _ => h

/-- CONFIG_SPACE_WRITE (R344, R351, R365): once the endpoint no longer answers with CRS. -/
def execConfigSpaceWrite (fn : BitVec 6) (off : BitVec 12) (w : BitVec 32) (s : State) : Host.Outcome State Fault Refusal :=
  hubStep (fun h => if h.bar0Up && (decide (fn = 0) || h.vfOn fn.toNat) then h.cfgDword fn.toNat off.toNat w.toNat else h) s

end Sys2Proof.Machine
end

