-- ==== Sys2Proof/Machine/Dispatch.lean ====
section
/-! DEFINITION. The effect of each command: one arm per row of the table. -/

namespace Sys2Proof.Machine

open Sys2Proof

def exec (i : Instr) (s : State) : Host.Outcome State Fault Refusal :=
  match i with
  | .registerWrite fn off bytes w => Sys2Proof.Machine.execRegisterWrite fn off bytes w s
  | .bar0BadAccess fn off bytes write => Sys2Proof.Machine.execBar0BadAccess fn off bytes write s
  | .commit via w => Sys2Proof.Machine.execCommit via w s
  | .validateOnly via w => Sys2Proof.Machine.execValidateOnly via w s
  | .discard via => Sys2Proof.Machine.execDiscard via s
  | .breakForecast via => Sys2Proof.Machine.execBreakForecast via s
  | .forecastIdleExpiry => Sys2Proof.Machine.execForecastIdleExpiry s
  | .fsetLoad => Sys2Proof.Machine.execFsetLoad s
  | .twinPrepareReady => Sys2Proof.Machine.execTwinPrepareReady s
  | .commitApply => Sys2Proof.Machine.execCommitApply s
  | .commitDrainTimeout => Sys2Proof.Machine.execCommitDrainTimeout s
  | .commitTwinTimeout => Sys2Proof.Machine.execCommitTwinTimeout s
  | .retrainDone quad n speed => Sys2Proof.Machine.execRetrainDone quad n speed s
  | .porstNAssert => Sys2Proof.Machine.execPorstNAssert s
  | .porstNDeassert x => Sys2Proof.Machine.execPorstNDeassert x s
  | .perstNAssert => Sys2Proof.Machine.execPerstNAssert s
  | .perstNDeassert => Sys2Proof.Machine.execPerstNDeassert s
  | .bootStepComplete x => Sys2Proof.Machine.execBootStepComplete x s
  | .haltServiceStart => Sys2Proof.Machine.execHaltServiceStart s
  | .partnerSoundingTimeout => Sys2Proof.Machine.execPartnerSoundingTimeout s
  | .glbReset w => Sys2Proof.Machine.execGlbReset w s
  | .watchdogExpiry => Sys2Proof.Machine.execWatchdogExpiry s
  | .hubFatalError code inst d0 d1 => Sys2Proof.Machine.execHubFatalError code inst d0 d1 s
  | .activationComplete => Sys2Proof.Machine.execActivationComplete s
  | .launch cmd => Sys2Proof.Machine.execLaunch cmd s
  | .tileStart launch floe => Sys2Proof.Machine.execTileStart launch floe s
  | .launchComplete launch => Sys2Proof.Machine.execLaunchComplete launch s
  | .launchTimeout launch => Sys2Proof.Machine.execLaunchTimeout launch s
  | .launchAbort cmd => Sys2Proof.Machine.execLaunchAbort cmd s
  | .floeResetDone floe => Sys2Proof.Machine.execFloeResetDone floe s
  | .floeCtrlReset floe => Sys2Proof.Machine.execFloeCtrlReset floe s
  | .floeIdleGate floe => Sys2Proof.Machine.execFloeIdleGate floe s
  | .floeFreqChange floe freq => Sys2Proof.Machine.execFloeFreqChange floe freq s
  | .dmaComplete floe ch idx => Sys2Proof.Machine.execDmaComplete floe ch idx s
  | .evtWaitWake c => Sys2Proof.Machine.execEvtWaitWake c s
  | .add c f => Sys2Proof.Machine.execAdd c f s
  | .sub c f => Sys2Proof.Machine.execSub c f s
  | .and c f => Sys2Proof.Machine.execAnd c f s
  | .or c f => Sys2Proof.Machine.execOr c f s
  | .xor c f => Sys2Proof.Machine.execXor c f s
  | .sll c f => Sys2Proof.Machine.execSll c f s
  | .srl c f => Sys2Proof.Machine.execSrl c f s
  | .sra c f => Sys2Proof.Machine.execSra c f s
  | .slt c f => Sys2Proof.Machine.execSlt c f s
  | .sltu c f => Sys2Proof.Machine.execSltu c f s
  | .min c f => Sys2Proof.Machine.execMin c f s
  | .max c f => Sys2Proof.Machine.execMax c f s
  | .minu c f => Sys2Proof.Machine.execMinu c f s
  | .maxu c f => Sys2Proof.Machine.execMaxu c f s
  | .mul c f => Sys2Proof.Machine.execMul c f s
  | .mulh c f => Sys2Proof.Machine.execMulh c f s
  | .mulhu c f => Sys2Proof.Machine.execMulhu c f s
  | .div c f => Sys2Proof.Machine.execDiv c f s
  | .divu c f => Sys2Proof.Machine.execDivu c f s
  | .rem c f => Sys2Proof.Machine.execRem c f s
  | .remu c f => Sys2Proof.Machine.execRemu c f s
  | .clz c f => Sys2Proof.Machine.execClz c f s
  | .ctz c f => Sys2Proof.Machine.execCtz c f s
  | .popc c f => Sys2Proof.Machine.execPopc c f s
  | .sel c f => Sys2Proof.Machine.execSel c f s
  | .addi c f => Sys2Proof.Machine.execAddi c f s
  | .andi c f => Sys2Proof.Machine.execAndi c f s
  | .ori c f => Sys2Proof.Machine.execOri c f s
  | .xori c f => Sys2Proof.Machine.execXori c f s
  | .slti c f => Sys2Proof.Machine.execSlti c f s
  | .sltiu c f => Sys2Proof.Machine.execSltiu c f s
  | .shi c f => Sys2Proof.Machine.execShi c f s
  | .movz c f => Sys2Proof.Machine.execMovz c f s
  | .movk c f => Sys2Proof.Machine.execMovk c f s
  | .fadd c f => Sys2Proof.Machine.execFadd c f s
  | .fsub c f => Sys2Proof.Machine.execFsub c f s
  | .fmul c f => Sys2Proof.Machine.execFmul c f s
  | .fdiv c f => Sys2Proof.Machine.execFdiv c f s
  | .fsqrt c f => Sys2Proof.Machine.execFsqrt c f s
  | .fmin c f => Sys2Proof.Machine.execFmin c f s
  | .fmax c f => Sys2Proof.Machine.execFmax c f s
  | .fma c f => Sys2Proof.Machine.execFma c f s
  | .fcvtL c f => Sys2Proof.Machine.execFcvtL c f s
  | .fcvtS c f => Sys2Proof.Machine.execFcvtS c f s
  | .feq c f => Sys2Proof.Machine.execFeq c f s
  | .flt c f => Sys2Proof.Machine.execFlt c f s
  | .fle c f => Sys2Proof.Machine.execFle c f s
  | .nop c f => Sys2Proof.Machine.execNop c f s
  | .endt c f => Sys2Proof.Machine.execEndt c f s
  | .trap c f => Sys2Proof.Machine.execTrap c f s
  | .fenceI c f => Sys2Proof.Machine.execFenceI c f s
  | .csrr c f => Sys2Proof.Machine.execCsrr c f s
  | .csrw c f => Sys2Proof.Machine.execCsrw c f s
  | .csrs c f => Sys2Proof.Machine.execCsrs c f s
  | .csrc c f => Sys2Proof.Machine.execCsrc c f s
  | .ldb c f => Sys2Proof.Machine.execLdb c f s
  | .ldh c f => Sys2Proof.Machine.execLdh c f s
  | .ldw c f => Sys2Proof.Machine.execLdw c f s
  | .ldd c f => Sys2Proof.Machine.execLdd c f s
  | .ldbu c f => Sys2Proof.Machine.execLdbu c f s
  | .ldhu c f => Sys2Proof.Machine.execLdhu c f s
  | .ldwu c f => Sys2Proof.Machine.execLdwu c f s
  | .stb c f => Sys2Proof.Machine.execStb c f s
  | .sth c f => Sys2Proof.Machine.execSth c f s
  | .stw c f => Sys2Proof.Machine.execStw c f s
  | .std c f => Sys2Proof.Machine.execStd c f s
  | .vld c f => Sys2Proof.Machine.execVld c f s
  | .vst c f => Sys2Proof.Machine.execVst c f s
  | .vldx c f => Sys2Proof.Machine.execVldx c f s
  | .vstx c f => Sys2Proof.Machine.execVstx c f s
  | .amoAdd c f => Sys2Proof.Machine.execAmoAdd c f s
  | .amoAnd c f => Sys2Proof.Machine.execAmoAnd c f s
  | .amoOr c f => Sys2Proof.Machine.execAmoOr c f s
  | .amoXor c f => Sys2Proof.Machine.execAmoXor c f s
  | .amoMin c f => Sys2Proof.Machine.execAmoMin c f s
  | .amoMax c f => Sys2Proof.Machine.execAmoMax c f s
  | .amoMinu c f => Sys2Proof.Machine.execAmoMinu c f s
  | .amoMaxu c f => Sys2Proof.Machine.execAmoMaxu c f s
  | .amoSwap c f => Sys2Proof.Machine.execAmoSwap c f s
  | .amoCas c f => Sys2Proof.Machine.execAmoCas c f s
  | .beq c f => Sys2Proof.Machine.execBeq c f s
  | .bne c f => Sys2Proof.Machine.execBne c f s
  | .blt c f => Sys2Proof.Machine.execBlt c f s
  | .bge c f => Sys2Proof.Machine.execBge c f s
  | .bltu c f => Sys2Proof.Machine.execBltu c f s
  | .bgeu c f => Sys2Proof.Machine.execBgeu c f s
  | .jal c f => Sys2Proof.Machine.execJal c f s
  | .jalr c f => Sys2Proof.Machine.execJalr c f s
  | .bp c f => Sys2Proof.Machine.execBp c f s
  | .fenceLd c f => Sys2Proof.Machine.execFenceLd c f s
  | .fenceSt c f => Sys2Proof.Machine.execFenceSt c f s
  | .fenceAll c f => Sys2Proof.Machine.execFenceAll c f s
  | .bar c f => Sys2Proof.Machine.execBar c f s
  | .evtRead c f => Sys2Proof.Machine.execEvtRead c f s
  | .evtSet c f => Sys2Proof.Machine.execEvtSet c f s
  | .evtAdd c f => Sys2Proof.Machine.execEvtAdd c f s
  | .evtWait c f => Sys2Proof.Machine.execEvtWait c f s
  | .dmais c f => Sys2Proof.Machine.execDmais c f s
  | .dmast c f => Sys2Proof.Machine.execDmast c f s
  | .dmawt c f => Sys2Proof.Machine.execDmawt c f s
  | .vadd c f => Sys2Proof.Machine.execVadd c f s
  | .vsub c f => Sys2Proof.Machine.execVsub c f s
  | .vmul c f => Sys2Proof.Machine.execVmul c f s
  | .vmin c f => Sys2Proof.Machine.execVmin c f s
  | .vmax c f => Sys2Proof.Machine.execVmax c f s
  | .vabs c f => Sys2Proof.Machine.execVabs c f s
  | .vneg c f => Sys2Proof.Machine.execVneg c f s
  | .vdiv c f => Sys2Proof.Machine.execVdiv c f s
  | .vsqrt c f => Sys2Proof.Machine.execVsqrt c f s
  | .vfma c f => Sys2Proof.Machine.execVfma c f s
  | .vfms c f => Sys2Proof.Machine.execVfms c f s
  | .vfnma c f => Sys2Proof.Machine.execVfnma c f s
  | .vintAdd c f => Sys2Proof.Machine.execVintAdd c f s
  | .vintSub c f => Sys2Proof.Machine.execVintSub c f s
  | .vintMul c f => Sys2Proof.Machine.execVintMul c f s
  | .vintAnd c f => Sys2Proof.Machine.execVintAnd c f s
  | .vintOr c f => Sys2Proof.Machine.execVintOr c f s
  | .vintXor c f => Sys2Proof.Machine.execVintXor c f s
  | .vintSll c f => Sys2Proof.Machine.execVintSll c f s
  | .vintSrl c f => Sys2Proof.Machine.execVintSrl c f s
  | .vintSra c f => Sys2Proof.Machine.execVintSra c f s
  | .vintMin c f => Sys2Proof.Machine.execVintMin c f s
  | .vintMax c f => Sys2Proof.Machine.execVintMax c f s
  | .vintMinu c f => Sys2Proof.Machine.execVintMinu c f s
  | .vintMaxu c f => Sys2Proof.Machine.execVintMaxu c f s
  | .vintAdds c f => Sys2Proof.Machine.execVintAdds c f s
  | .vcmpEq c f => Sys2Proof.Machine.execVcmpEq c f s
  | .vcmpNe c f => Sys2Proof.Machine.execVcmpNe c f s
  | .vcmpLt c f => Sys2Proof.Machine.execVcmpLt c f s
  | .vcmpLe c f => Sys2Proof.Machine.execVcmpLe c f s
  | .vcmpGt c f => Sys2Proof.Machine.execVcmpGt c f s
  | .vcmpGe c f => Sys2Proof.Machine.execVcmpGe c f s
  | .vcmpUnord c f => Sys2Proof.Machine.execVcmpUnord c f s
  | .vcmpSeq c f => Sys2Proof.Machine.execVcmpSeq c f s
  | .vcmpSne c f => Sys2Proof.Machine.execVcmpSne c f s
  | .vcmpSlt c f => Sys2Proof.Machine.execVcmpSlt c f s
  | .vcmpSle c f => Sys2Proof.Machine.execVcmpSle c f s
  | .vcmpSgt c f => Sys2Proof.Machine.execVcmpSgt c f s
  | .vcmpSge c f => Sys2Proof.Machine.execVcmpSge c f s
  | .pand c f => Sys2Proof.Machine.execPand c f s
  | .por c f => Sys2Proof.Machine.execPor c f s
  | .pxor c f => Sys2Proof.Machine.execPxor c f s
  | .pandn c f => Sys2Proof.Machine.execPandn c f s
  | .pnot c f => Sys2Proof.Machine.execPnot c f s
  | .pfrom c f => Sys2Proof.Machine.execPfrom c f s
  | .pto c f => Sys2Proof.Machine.execPto c f s
  | .pfirst c f => Sys2Proof.Machine.execPfirst c f s
  | .vrcp c f => Sys2Proof.Machine.execVrcp c f s
  | .vrsqrt c f => Sys2Proof.Machine.execVrsqrt c f s
  | .vexp2 c f => Sys2Proof.Machine.execVexp2 c f s
  | .vlog2 c f => Sys2Proof.Machine.execVlog2 c f s
  | .vtanh c f => Sys2Proof.Machine.execVtanh c f s
  | .vdot c f => Sys2Proof.Machine.execVdot c f s
  | .vcvt c f => Sys2Proof.Machine.execVcvt c f s
  | .vqb c f => Sys2Proof.Machine.execVqb c f s
  | .vqbx c f => Sys2Proof.Machine.execVqbx c f s
  | .vdqb c f => Sys2Proof.Machine.execVdqb c f s
  | .vredSum c f => Sys2Proof.Machine.execVredSum c f s
  | .vredMax c f => Sys2Proof.Machine.execVredMax c f s
  | .vredMin c f => Sys2Proof.Machine.execVredMin c f s
  | .vredSumsq c f => Sys2Proof.Machine.execVredSumsq c f s
  | .vpermb c f => Sys2Proof.Machine.execVpermb c f s
  | .vbcst c f => Sys2Proof.Machine.execVbcst c f s
  | .vget c f => Sys2Proof.Machine.execVget c f s
  | .vset c f => Sys2Proof.Machine.execVset c f s
  | .vslide c f => Sys2Proof.Machine.execVslide c f s
  | .vziplo c f => Sys2Proof.Machine.execVziplo c f s
  | .vziphi c f => Sys2Proof.Machine.execVziphi c f s
  | .vmov c f => Sys2Proof.Machine.execVmov c f s
  | .dewset c f => Sys2Proof.Machine.execDewset c f s
  | .dewsetr c f => Sys2Proof.Machine.execDewsetr c f s
  | .dewclr c f => Sys2Proof.Machine.execDewclr c f s
  | .dewpointRecompute die => Sys2Proof.Machine.execDewpointRecompute die s
  | .windowClose part tag => Sys2Proof.Machine.execWindowClose part tag s
  | .migrationStart part => Sys2Proof.Machine.execMigrationStart part s
  | .migrationGroupDone part tag => Sys2Proof.Machine.execMigrationGroupDone part tag s
  | .migrationComplete part tag => Sys2Proof.Machine.execMigrationComplete part tag s
  | .haltedClear fn part tag => Sys2Proof.Machine.execHaltedClear fn part tag s
  | .dewCounterClear fn part tag => Sys2Proof.Machine.execDewCounterClear fn part tag s
  | .sliceRequest slice r par => Sys2Proof.Machine.execSliceRequest slice r par s
  | .channelRequest slice tag ecc => Sys2Proof.Machine.execChannelRequest slice tag ecc s
  | .fillReturn slice line => Sys2Proof.Machine.execFillReturn slice line s
  | .writebackAck slice line => Sys2Proof.Machine.execWritebackAck slice line s
  | .wayDisable slice way => Sys2Proof.Machine.execWayDisable slice way s
  | .seedWrite slice seed => Sys2Proof.Machine.execSeedWrite slice seed s
  | .zeroLine w => Sys2Proof.Machine.execZeroLine w s
  | .clean w => Sys2Proof.Machine.execClean w s
  | .invalidate w => Sys2Proof.Machine.execInvalidate w s
  | .cleanInvalidate w => Sys2Proof.Machine.execCleanInvalidate w s
  | .maintComplete => Sys2Proof.Machine.execMaintComplete s
  | .scrub hpa ecc => Sys2Proof.Machine.execScrub hpa ecc s
  | .stackTempRead stack temp => Sys2Proof.Machine.execStackTempRead stack temp s
  | .repairStart stack => Sys2Proof.Machine.execRepairStart stack s
  | .repairDone stack bad => Sys2Proof.Machine.execRepairDone stack bad s
  | .rowq w => Sys2Proof.Machine.execRowq w s
  | .rowqDone => Sys2Proof.Machine.execRowqDone s
  | .fillGranule half => Sys2Proof.Machine.execFillGranule half s
  | .fillComplete half => Sys2Proof.Machine.execFillComplete half s
  | .streamOpen cmd => Sys2Proof.Machine.execStreamOpen cmd s
  | .streamClose cmd => Sys2Proof.Machine.execStreamClose cmd s
  | .dbTail src n v => Sys2Proof.Machine.execDbTail src n v s
  | .dbCplhead src n v => Sys2Proof.Machine.execDbCplhead src n v s
  | .descriptorStart n host => Sys2Proof.Machine.execDescriptorStart n host s
  | .driftNop n ix => Sys2Proof.Machine.execDriftNop n ix s
  | .driftCopy n ix => Sys2Proof.Machine.execDriftCopy n ix s
  | .driftFill n ix => Sys2Proof.Machine.execDriftFill n ix s
  | .driftGather n ix => Sys2Proof.Machine.execDriftGather n ix s
  | .driftScatter n ix => Sys2Proof.Machine.execDriftScatter n ix s
  | .driftTranscode n ix => Sys2Proof.Machine.execDriftTranscode n ix s
  | .driftZero n ix => Sys2Proof.Machine.execDriftZero n ix s
  | .driftClean n ix => Sys2Proof.Machine.execDriftClean n ix s
  | .driftInvalidate n ix => Sys2Proof.Machine.execDriftInvalidate n ix s
  | .driftCleanInvalidate n ix => Sys2Proof.Machine.execDriftCleanInvalidate n ix s
  | .descriptorComplete n => Sys2Proof.Machine.execDescriptorComplete n s
  | .streamPause fn n => Sys2Proof.Machine.execStreamPause fn n s
  | .streamResume fn n => Sys2Proof.Machine.execStreamResume fn n s
  | .streamAbort fn n => Sys2Proof.Machine.execStreamAbort fn n s
  | .remoteRowRetry n ix us => Sys2Proof.Machine.execRemoteRowRetry n ix us s
  | .atsInvalidation fn page log2 => Sys2Proof.Machine.execAtsInvalidation fn page log2 s
  | .priResponse n ix ok => Sys2Proof.Machine.execPriResponse n ix ok s
  | .xltInvalidate cmd => Sys2Proof.Machine.execXltInvalidate cmd s
  | .xltInvalidateDone asid => Sys2Proof.Machine.execXltInvalidateDone asid s
  | .xltResume cmd => Sys2Proof.Machine.execXltResume cmd s
  | .walkStart die r => Sys2Proof.Machine.execWalkStart die r s
  | .tableReadReturn die asid page => Sys2Proof.Machine.execTableReadReturn die asid page s
  | .faultRecordWrite die slot => Sys2Proof.Machine.execFaultRecordWrite die slot s
  | .parkAdmit die => Sys2Proof.Machine.execParkAdmit die s
  | .fqCiWrite fn part ci => Sys2Proof.Machine.execFqCiWrite fn part ci s
  | .xltAsWrite fn asid w => Sys2Proof.Machine.execXltAsWrite fn asid w s
  | .asInvalidateDone asid => Sys2Proof.Machine.execAsInvalidateDone asid s
  | .xltGrantWrite e w => Sys2Proof.Machine.execXltGrantWrite e w s
  | .eepRead site mod hdr => Sys2Proof.Machine.execEepRead site mod hdr s
  | .eepWrite site mod hdr data => Sys2Proof.Machine.execEepWrite site mod hdr data s
  | .eepWritePartial site mod hdr data => Sys2Proof.Machine.execEepWritePartial site mod hdr data s
  | .eepAtomic site mod hdr data => Sys2Proof.Machine.execEepAtomic site mod hdr data s
  | .eepMaint site mod hdr => Sys2Proof.Machine.execEepMaint site mod hdr s
  | .eepPrefetch site mod hdr => Sys2Proof.Machine.execEepPrefetch site mod hdr s
  | .eepComplete site mod hdr data => Sys2Proof.Machine.execEepComplete site mod hdr data s
  | .eepInterrupt site mod hdr => Sys2Proof.Machine.execEepInterrupt site mod hdr s
  | .eepCleared site mod hdr => Sys2Proof.Machine.execEepCleared site mod hdr s
  | .eepErrorReport site mod hdr => Sys2Proof.Machine.execEepErrorReport site mod hdr s
  | .eepCredit site mod hdr => Sys2Proof.Machine.execEepCredit site mod hdr s
  | .siteEngDb src e v => Sys2Proof.Machine.execSiteEngDb src e v s
  | .clearedTimeout e => Sys2Proof.Machine.execClearedTimeout e s
  | .soundingStep site x => Sys2Proof.Machine.execSoundingStep site x s
  | .soundingTimeout site => Sys2Proof.Machine.execSoundingTimeout site s
  | .siteFence site => Sys2Proof.Machine.execSiteFence site s
  | .resound site => Sys2Proof.Machine.execResound site s
  | .rimeSweep site mod errIn errOut => Sys2Proof.Machine.execRimeSweep site mod errIn errOut s
  | .laneCondemn site mod toHub lane => Sys2Proof.Machine.execLaneCondemn site mod toHub lane s
  | .moduleActionDone site mod ok => Sys2Proof.Machine.execModuleActionDone site mod ok s
  | .regulatorAdmit port => Sys2Proof.Machine.execRegulatorAdmit port s
  | .start via part => Sys2Proof.Machine.execStart via part s
  | .stop via part => Sys2Proof.Machine.execStop via part s
  | .stopComplete part => Sys2Proof.Machine.execStopComplete part s
  | .stopTimeout part => Sys2Proof.Machine.execStopTimeout part s
  | .partitionReset via part => Sys2Proof.Machine.execPartitionReset via part s
  | .partitionResetComplete part => Sys2Proof.Machine.execPartitionResetComplete part s
  | .thaw via part => Sys2Proof.Machine.execThaw via part s
  | .thawComplete part => Sys2Proof.Machine.execThawComplete part s
  | .cmdNop cmd => Sys2Proof.Machine.execCmdNop cmd s
  | .diagAccess cmd host => Sys2Proof.Machine.execDiagAccess cmd host s
  | .commandFetch fn q status raw => Sys2Proof.Machine.execCommandFetch fn q status raw s
  | .sqTail fn q v => Sys2Proof.Machine.execSqTail fn q v s
  | .cqHead fn q v => Sys2Proof.Machine.execCqHead fn q v s
  | .queueEnable fn q w => Sys2Proof.Machine.execQueueEnable fn q w s
  | .queueDisable fn q w => Sys2Proof.Machine.execQueueDisable fn q w s
  | .bar2Read off len => Sys2Proof.Machine.execBar2Read off len s
  | .bar2Write off data poison => Sys2Proof.Machine.execBar2Write off data poison s
  | .hostCompletion fn tag status data => Sys2Proof.Machine.execHostCompletion fn tag status data s
  | .completionTimeout tag => Sys2Proof.Machine.execCompletionTimeout tag s
  | .busMasterEnableClear fn => Sys2Proof.Machine.execBusMasterEnableClear fn s
  | .busMasterEnableSet fn => Sys2Proof.Machine.execBusMasterEnableSet fn s
  | .msixUnmask fn entry => Sys2Proof.Machine.execMsixUnmask fn entry s
  | .powerStateChange fn d3 => Sys2Proof.Machine.execPowerStateChange fn d3 s
  | .hotReset => Sys2Proof.Machine.execHotReset s
  | .vfFlr fn => Sys2Proof.Machine.execVfFlr fn s
  | .vfFlrComplete fn => Sys2Proof.Machine.execVfFlrComplete fn s
  | .pfFlr => Sys2Proof.Machine.execPfFlr s
  | .vfEnableSet => Sys2Proof.Machine.execVfEnableSet s
  | .vfEnableClear => Sys2Proof.Machine.execVfEnableClear s
  | .numvfsWrite v => Sys2Proof.Machine.execNumvfsWrite v s
  | .mbxGo => Sys2Proof.Machine.execMbxGo s
  | .linkSak cmd host => Sys2Proof.Machine.execLinkSak cmd host s
  | .transportWrite p x => Sys2Proof.Machine.execTransportWrite p x s
  | .readReq p x => Sys2Proof.Machine.execReadReq p x s
  | .readResp p => Sys2Proof.Machine.execReadResp p s
  | .transportAtomic p x => Sys2Proof.Machine.execTransportAtomic p x s
  | .atomicResp p => Sys2Proof.Machine.execAtomicResp p s
  | .ack p ackPsn sack => Sys2Proof.Machine.execAck p ackPsn sack s
  | .nak p ackPsn code => Sys2Proof.Machine.execNak p ackPsn code s
  | .cnp p => Sys2Proof.Machine.execCnp p s
  | .pathOpen p => Sys2Proof.Machine.execPathOpen p s
  | .pathAccept p => Sys2Proof.Machine.execPathAccept p s
  | .pathClose p => Sys2Proof.Machine.execPathClose p s
  | .pacedSend link path => Sys2Proof.Machine.execPacedSend link path s
  | .ackTimer link path => Sys2Proof.Machine.execAckTimer link path s
  | .rtoExpiry link path psn => Sys2Proof.Machine.execRtoExpiry link path psn s
  | .rateRecoveryTimer link path => Sys2Proof.Machine.execRateRecoveryTimer link path s
  | .pfcFrame link prio xoff => Sys2Proof.Machine.execPfcFrame link prio xoff s
  | .pfcWatchdog link => Sys2Proof.Machine.execPfcWatchdog link s
  | .lossOfLock link => Sys2Proof.Machine.execLossOfLock link s
  | .linkUp link => Sys2Proof.Machine.execLinkUp link s
  | .quadFatal quad => Sys2Proof.Machine.execQuadFatal quad s
  | .winOpen die w => Sys2Proof.Machine.execWinOpen die w s
  | .winClose die w => Sys2Proof.Machine.execWinClose die w s
  | .winFree die w => Sys2Proof.Machine.execWinFree die w s
  | .winDrained die w => Sys2Proof.Machine.execWinDrained die w s
  | .lnkPeerWrite n word w => Sys2Proof.Machine.execLnkPeerWrite n word w s
  | .colGroupCreate cmd => Sys2Proof.Machine.execColGroupCreate cmd s
  | .colGroupDestroy cmd => Sys2Proof.Machine.execColGroupDestroy cmd s
  | .colPost cmd => Sys2Proof.Machine.execColPost cmd s
  | .colCancel cmd => Sys2Proof.Machine.execColCancel cmd s
  | .postStart g => Sys2Proof.Machine.execPostStart g s
  | .chunkSend g => Sys2Proof.Machine.execChunkSend g s
  | .colData p x => Sys2Proof.Machine.execColData p x s
  | .colCredit p x => Sys2Proof.Machine.execColCredit p x s
  | .colSquall p x => Sys2Proof.Machine.execColSquall p x s
  | .colAbort p x => Sys2Proof.Machine.execColAbort p x s
  | .stepDeadline g => Sys2Proof.Machine.execStepDeadline g s
  | .postComplete g => Sys2Proof.Machine.execPostComplete g s
  | .allotPass x => Sys2Proof.Machine.execAllotPass x s
  | .powerBrakeAssert => Sys2Proof.Machine.execPowerBrakeAssert s
  | .powerBrakeRelease => Sys2Proof.Machine.execPowerBrakeRelease s
  | .softwareBrake req => Sys2Proof.Machine.execSoftwareBrake req s
  | .dieSensorSample die temps => Sys2Proof.Machine.execDieSensorSample die temps s
  | .siteTelemetryRead site power request temp alarm => Sys2Proof.Machine.execSiteTelemetryRead site power request temp alarm s
  | .avsAck die rail => Sys2Proof.Machine.execAvsAck die rail s
  | .regulatorStatusRead die rail fault => Sys2Proof.Machine.execRegulatorStatusRead die rail fault s
  | .twinTelemetry x => Sys2Proof.Machine.execTwinTelemetry x s
  | .heartbeatLoss => Sys2Proof.Machine.execHeartbeatLoss s
  | .heartbeatRx node => Sys2Proof.Machine.execHeartbeatRx node s
  | .pumpFail k rpm => Sys2Proof.Machine.execPumpFail k rpm s
  | .almanacRead via r => Sys2Proof.Machine.execAlmanacRead via r s
  | .almanacWrite via r => Sys2Proof.Machine.execAlmanacWrite via r s
  | .almanacLock via r => Sys2Proof.Machine.execAlmanacLock via r s
  | .almanacUnlock via r => Sys2Proof.Machine.execAlmanacUnlock via r s
  | .lockReleaseAll via v => Sys2Proof.Machine.execLockReleaseAll via v s
  | .lockLapse owner => Sys2Proof.Machine.execLockLapse owner s
  | .usdoTransfer write index sub data => Sys2Proof.Machine.execUsdoTransfer write index sub data s
  | .usdoTimeout index sub => Sys2Proof.Machine.execUsdoTimeout index sub s
  | .rpdo n data => Sys2Proof.Machine.execRpdo n data s
  | .sync => Sys2Proof.Machine.execSync s
  | .tpdoEventTimer n => Sys2Proof.Machine.execTpdoEventTimer n s
  | .heartbeatProduce => Sys2Proof.Machine.execHeartbeatProduce s
  | .nmtStart => Sys2Proof.Machine.execNmtStart s
  | .nmtStop => Sys2Proof.Machine.execNmtStop s
  | .nmtEnterPreOperational => Sys2Proof.Machine.execNmtEnterPreOperational s
  | .nmtResetNode => Sys2Proof.Machine.execNmtResetNode s
  | .nmtResetCommunication => Sys2Proof.Machine.execNmtResetCommunication s
  | .slotOffset via v => Sys2Proof.Machine.execSlotOffset via v s
  | .slotData via data => Sys2Proof.Machine.execSlotData via data s
  | .stage via v => Sys2Proof.Machine.execStage via v s
  | .confirm via v => Sys2Proof.Machine.execConfirm via v s
  | .activate via v => Sys2Proof.Machine.execActivate via v s
  | .moraineRecordRead via => Sys2Proof.Machine.execMoraineRecordRead via s
  | .lcRequest via data => Sys2Proof.Machine.execLcRequest via data s
  | .lcTransitionStep => Sys2Proof.Machine.execLcTransitionStep s
  | .spdmRequest r => Sys2Proof.Machine.execSpdmRequest r s
  | .query r => Sys2Proof.Machine.execQuery r s
  | .keyProg r => Sys2Proof.Machine.execKeyProg r s
  | .kSetGo r => Sys2Proof.Machine.execKSetGo r s
  | .kSetStop r => Sys2Proof.Machine.execKSetStop r s
  | .lockInterface r => Sys2Proof.Machine.execLockInterface r s
  | .getDeviceInterfaceReport r => Sys2Proof.Machine.execGetDeviceInterfaceReport r s
  | .startInterface r => Sys2Proof.Machine.execStartInterface r s
  | .stopInterface r => Sys2Proof.Machine.execStopInterface r s
  | .getDeviceInterfaceState r => Sys2Proof.Machine.execGetDeviceInterfaceState r s
  | .bundleInstall cmd => Sys2Proof.Machine.execBundleInstall cmd s
  | .bundleInstallComplete dom => Sys2Proof.Machine.execBundleInstallComplete dom s
  | .domainRemove cmd => Sys2Proof.Machine.execDomainRemove cmd s
  | .debugEngage cmd => Sys2Proof.Machine.execDebugEngage cmd s
  | .debugRead cmd => Sys2Proof.Machine.execDebugRead cmd s
  | .debugRelease cmd => Sys2Proof.Machine.execDebugRelease cmd s
  | .morClear via upto => Sys2Proof.Machine.execMorClear via upto s
  | .bypass tdi => Sys2Proof.Machine.execBypass tdi s
  | .idcode => Sys2Proof.Machine.execIdcode s
  | .samplePreload pins tdi => Sys2Proof.Machine.execSamplePreload pins tdi s
  | .extest pins tdi => Sys2Proof.Machine.execExtest pins tdi s
  | .clamp tdi => Sys2Proof.Machine.execClamp tdi s
  | .pfFlrComplete => Sys2Proof.Machine.execPfFlrComplete s
  | .avsbusWriteUnacknowledged die rail => Sys2Proof.Machine.execAvsbusWriteUnacknowledged die rail s
  | .canBusOff => Sys2Proof.Machine.execCanBusOff s
  | .inhibitExpiry emcy n => Sys2Proof.Machine.execInhibitExpiry emcy n s
  | .supplyGroupUp => Sys2Proof.Machine.execSupplyGroupUp s
  | .supplyGroupLoss => Sys2Proof.Machine.execSupplyGroupLoss s
  | .configSpaceWrite fn off w => Sys2Proof.Machine.execConfigSpaceWrite fn off w s

end Sys2Proof.Machine
end

