-- ==== Sys2Proof/Safety.lean ====
section
/-! DEFINITION. What counts as a safe run, in the terms the statements use. -/

namespace Sys2Proof

/-- A state that no run must leave: its byte memory is in canonical form. -/
def Safe (s : Machine.State) : Prop := s.mem.wf = true

/-- A run of `n` steps that goes on: every step answers a next state. -/
def Runs : Nat → Machine.State → Machine.State → Prop
  | 0, s, t => s = t
  | n + 1, s, t => ∃ u, Machine.step s = .next u ∧ Runs n u t

end Sys2Proof
end

