-- ==== Sys2Proof/WellFormed.lean ====
section
/-! DEFINITION. Which commands can reach the hub at all: every number names a unit of the package, and every length is one that
its carrier allows. A command that is not well formed names nothing. -/

namespace Sys2Proof

/-- A core of one of the 196 floes of each die (R82: die × 256 + f); a core index has seven bits (Table 1 of 04). -/
def CoreId.wf (c : CoreId) : Bool := decide (c.floe.toNat % 256 < 196)

/-- A queue command of function 0 to 48 and a queue below 64. -/
def QCmd.wf (c : QCmd) : Bool := decide (c.fn ≤ 48) && decide (c.q < 64)

/-- A doorbell from the PF, from VF 1 to 48, or from a master of partition 0 to 23. -/
def DbSrc.wf : DbSrc → Bool
  | .pf => true
  | .vf v => decide (1 ≤ v.toNat) && decide (v.toNat ≤ 48)
  | .master p => decide (p.toNat < 24)

/-- A packet on one of 96 links, of at most 4,096 payload bytes (Table 3 of 16). -/
def LinkPkt.wf (p : LinkPkt) : Bool := decide (p.link.toNat < 96) && decide (p.data.length ≤ 4096)

/-- A command that can reach the hub. -/
def Instr.wf (i : Instr) : Bool :=
  match i with
  | .registerWrite fn _ bytes _ => decide (fn.toNat ≤ 48) && (bytes == 1 || bytes == 2 || bytes == 4 || bytes == 8)
  | .bar0BadAccess fn _ bytes _ => decide (fn.toNat ≤ 48) && (bytes == 1 || bytes == 2 || bytes == 4 || bytes == 8)
  | .commit _ _ => true
  | .validateOnly _ _ => true
  | .discard _ => true
  | .breakForecast _ => true
  | .forecastIdleExpiry => true
  | .fsetLoad => true
  | .twinPrepareReady => true
  | .commitApply => true
  | .commitDrainTimeout => true
  | .commitTwinTimeout => true
  | .retrainDone _ _ _ => true
  | .porstNAssert => true
  | .porstNDeassert _ => true
  | .perstNAssert => true
  | .perstNDeassert => true
  | .bootStepComplete _ => true
  | .haltServiceStart => true
  | .partnerSoundingTimeout => true
  | .glbReset _ => true
  | .watchdogExpiry => true
  | .hubFatalError _ _ _ _ => true
  | .activationComplete => true
  | .launch cmd => cmd.wf
  | .tileStart _ floe => decide (floe.toNat % 256 < 196)
  | .launchComplete _ => true
  | .launchTimeout _ => true
  | .launchAbort cmd => cmd.wf
  | .floeResetDone floe => decide (floe.toNat % 256 < 196)
  | .floeCtrlReset floe => decide (floe.toNat % 256 < 196)
  | .floeIdleGate floe => decide (floe.toNat % 256 < 196)
  | .floeFreqChange floe _ => decide (floe.toNat % 256 < 196)
  | .dmaComplete floe _ _ => decide (floe.toNat % 256 < 196)
  | .evtWaitWake c => c.wf
  | .add c _ => c.wf
  | .sub c _ => c.wf
  | .and c _ => c.wf
  | .or c _ => c.wf
  | .xor c _ => c.wf
  | .sll c _ => c.wf
  | .srl c _ => c.wf
  | .sra c _ => c.wf
  | .slt c _ => c.wf
  | .sltu c _ => c.wf
  | .min c _ => c.wf
  | .max c _ => c.wf
  | .minu c _ => c.wf
  | .maxu c _ => c.wf
  | .mul c _ => c.wf
  | .mulh c _ => c.wf
  | .mulhu c _ => c.wf
  | .div c _ => c.wf
  | .divu c _ => c.wf
  | .rem c _ => c.wf
  | .remu c _ => c.wf
  | .clz c _ => c.wf
  | .ctz c _ => c.wf
  | .popc c _ => c.wf
  | .sel c _ => c.wf
  | .addi c _ => c.wf
  | .andi c _ => c.wf
  | .ori c _ => c.wf
  | .xori c _ => c.wf
  | .slti c _ => c.wf
  | .sltiu c _ => c.wf
  | .shi c _ => c.wf
  | .movz c _ => c.wf
  | .movk c _ => c.wf
  | .fadd c _ => c.wf
  | .fsub c _ => c.wf
  | .fmul c _ => c.wf
  | .fdiv c _ => c.wf
  | .fsqrt c _ => c.wf
  | .fmin c _ => c.wf
  | .fmax c _ => c.wf
  | .fma c _ => c.wf
  | .fcvtL c _ => c.wf
  | .fcvtS c _ => c.wf
  | .feq c _ => c.wf
  | .flt c _ => c.wf
  | .fle c _ => c.wf
  | .nop c _ => c.wf
  | .endt c _ => c.wf
  | .trap c _ => c.wf
  | .fenceI c _ => c.wf
  | .csrr c _ => c.wf
  | .csrw c _ => c.wf
  | .csrs c _ => c.wf
  | .csrc c _ => c.wf
  | .ldb c _ => c.wf
  | .ldh c _ => c.wf
  | .ldw c _ => c.wf
  | .ldd c _ => c.wf
  | .ldbu c _ => c.wf
  | .ldhu c _ => c.wf
  | .ldwu c _ => c.wf
  | .stb c _ => c.wf
  | .sth c _ => c.wf
  | .stw c _ => c.wf
  | .std c _ => c.wf
  | .vld c _ => c.wf
  | .vst c _ => c.wf
  | .vldx c _ => c.wf
  | .vstx c _ => c.wf
  | .amoAdd c _ => c.wf
  | .amoAnd c _ => c.wf
  | .amoOr c _ => c.wf
  | .amoXor c _ => c.wf
  | .amoMin c _ => c.wf
  | .amoMax c _ => c.wf
  | .amoMinu c _ => c.wf
  | .amoMaxu c _ => c.wf
  | .amoSwap c _ => c.wf
  | .amoCas c _ => c.wf
  | .beq c _ => c.wf
  | .bne c _ => c.wf
  | .blt c _ => c.wf
  | .bge c _ => c.wf
  | .bltu c _ => c.wf
  | .bgeu c _ => c.wf
  | .jal c _ => c.wf
  | .jalr c _ => c.wf
  | .bp c _ => c.wf
  | .fenceLd c _ => c.wf
  | .fenceSt c _ => c.wf
  | .fenceAll c _ => c.wf
  | .bar c _ => c.wf
  | .evtRead c _ => c.wf
  | .evtSet c _ => c.wf
  | .evtAdd c _ => c.wf
  | .evtWait c _ => c.wf
  | .dmais c _ => c.wf
  | .dmast c _ => c.wf
  | .dmawt c _ => c.wf
  | .vadd c _ => c.wf
  | .vsub c _ => c.wf
  | .vmul c _ => c.wf
  | .vmin c _ => c.wf
  | .vmax c _ => c.wf
  | .vabs c _ => c.wf
  | .vneg c _ => c.wf
  | .vdiv c _ => c.wf
  | .vsqrt c _ => c.wf
  | .vfma c _ => c.wf
  | .vfms c _ => c.wf
  | .vfnma c _ => c.wf
  | .vintAdd c _ => c.wf
  | .vintSub c _ => c.wf
  | .vintMul c _ => c.wf
  | .vintAnd c _ => c.wf
  | .vintOr c _ => c.wf
  | .vintXor c _ => c.wf
  | .vintSll c _ => c.wf
  | .vintSrl c _ => c.wf
  | .vintSra c _ => c.wf
  | .vintMin c _ => c.wf
  | .vintMax c _ => c.wf
  | .vintMinu c _ => c.wf
  | .vintMaxu c _ => c.wf
  | .vintAdds c _ => c.wf
  | .vcmpEq c _ => c.wf
  | .vcmpNe c _ => c.wf
  | .vcmpLt c _ => c.wf
  | .vcmpLe c _ => c.wf
  | .vcmpGt c _ => c.wf
  | .vcmpGe c _ => c.wf
  | .vcmpUnord c _ => c.wf
  | .vcmpSeq c _ => c.wf
  | .vcmpSne c _ => c.wf
  | .vcmpSlt c _ => c.wf
  | .vcmpSle c _ => c.wf
  | .vcmpSgt c _ => c.wf
  | .vcmpSge c _ => c.wf
  | .pand c _ => c.wf
  | .por c _ => c.wf
  | .pxor c _ => c.wf
  | .pandn c _ => c.wf
  | .pnot c _ => c.wf
  | .pfrom c _ => c.wf
  | .pto c _ => c.wf
  | .pfirst c _ => c.wf
  | .vrcp c _ => c.wf
  | .vrsqrt c _ => c.wf
  | .vexp2 c _ => c.wf
  | .vlog2 c _ => c.wf
  | .vtanh c _ => c.wf
  | .vdot c _ => c.wf
  | .vcvt c _ => c.wf
  | .vqb c _ => c.wf
  | .vqbx c _ => c.wf
  | .vdqb c _ => c.wf
  | .vredSum c _ => c.wf
  | .vredMax c _ => c.wf
  | .vredMin c _ => c.wf
  | .vredSumsq c _ => c.wf
  | .vpermb c _ => c.wf
  | .vbcst c _ => c.wf
  | .vget c _ => c.wf
  | .vset c _ => c.wf
  | .vslide c _ => c.wf
  | .vziplo c _ => c.wf
  | .vziphi c _ => c.wf
  | .vmov c _ => c.wf
  | .dewset c _ => c.wf
  | .dewsetr c _ => c.wf
  | .dewclr c _ => c.wf
  | .dewpointRecompute _ => true
  | .windowClose part _ => decide (part.toNat < 24)
  | .migrationStart part => decide (part.toNat < 24)
  | .migrationGroupDone part _ => decide (part.toNat < 24)
  | .migrationComplete part _ => decide (part.toNat < 24)
  | .haltedClear fn part _ => decide (fn.toNat ≤ 48) && decide (part.toNat < 24)
  | .dewCounterClear fn part _ => decide (fn.toNat ≤ 48) && decide (part.toNat < 24)
  | .sliceRequest slice _ _ => decide (slice.toNat < 192)
  | .channelRequest slice _ _ => decide (slice.toNat < 192)
  | .fillReturn slice _ => decide (slice.toNat < 192)
  | .writebackAck slice _ => decide (slice.toNat < 192)
  | .wayDisable slice _ => decide (slice.toNat < 192)
  | .seedWrite slice _ => decide (slice.toNat < 192)
  | .zeroLine _ => true
  | .clean _ => true
  | .invalidate _ => true
  | .cleanInvalidate _ => true
  | .maintComplete => true
  | .scrub _ _ => true
  | .stackTempRead stack _ => decide (stack.toNat < 24)
  | .repairStart stack => decide (stack.toNat < 24)
  | .repairDone stack _ => decide (stack.toNat < 24)
  | .rowq _ => true
  | .rowqDone => true
  | .fillGranule half => decide (half.toNat < 48)
  | .fillComplete half => decide (half.toNat < 48)
  | .streamOpen cmd => cmd.wf
  | .streamClose cmd => cmd.wf
  | .dbTail src _ _ => src.wf
  | .dbCplhead src _ _ => src.wf
  | .descriptorStart _ _ => true
  | .driftNop _ _ => true
  | .driftCopy _ _ => true
  | .driftFill _ _ => true
  | .driftGather _ _ => true
  | .driftScatter _ _ => true
  | .driftTranscode _ _ => true
  | .driftZero _ _ => true
  | .driftClean _ _ => true
  | .driftInvalidate _ _ => true
  | .driftCleanInvalidate _ _ => true
  | .descriptorComplete _ => true
  | .streamPause fn _ => decide (fn.toNat ≤ 48)
  | .streamResume fn _ => decide (fn.toNat ≤ 48)
  | .streamAbort fn _ => decide (fn.toNat ≤ 48)
  | .remoteRowRetry _ _ _ => true
  | .atsInvalidation fn _ _ => decide (fn.toNat ≤ 48)
  | .priResponse _ _ _ => true
  | .xltInvalidate cmd => cmd.wf
  | .xltInvalidateDone _ => true
  | .xltResume cmd => cmd.wf
  | .walkStart _ _ => true
  | .tableReadReturn _ _ _ => true
  | .faultRecordWrite _ _ => true
  | .parkAdmit _ => true
  | .fqCiWrite fn part _ => decide (fn.toNat ≤ 48) && decide (part.toNat < 24)
  | .xltAsWrite fn _ _ => decide (fn.toNat ≤ 48)
  | .asInvalidateDone _ => true
  | .xltGrantWrite _ _ => true
  | .eepRead _ mod _ => decide (mod.toNat < 6)
  | .eepWrite _ mod _ data => decide (mod.toNat < 6) && decide (data.length ≤ 64)
  | .eepWritePartial _ mod _ data => decide (mod.toNat < 6) && decide (data.length ≤ 64)
  | .eepAtomic _ mod _ data => decide (mod.toNat < 6) && decide (data.length ≤ 64)
  | .eepMaint _ mod _ => decide (mod.toNat < 6)
  | .eepPrefetch _ mod _ => decide (mod.toNat < 6)
  | .eepComplete _ mod _ data => decide (mod.toNat < 6) && decide (data.length ≤ 64)
  | .eepInterrupt _ mod _ => decide (mod.toNat < 6)
  | .eepCleared _ mod _ => decide (mod.toNat < 6)
  | .eepErrorReport _ mod _ => decide (mod.toNat < 6)
  | .eepCredit _ mod _ => decide (mod.toNat < 6)
  | .siteEngDb src _ _ => src.wf
  | .clearedTimeout _ => true
  | .soundingStep _ _ => true
  | .soundingTimeout _ => true
  | .siteFence _ => true
  | .resound _ => true
  | .rimeSweep _ mod _ _ => decide (mod.toNat < 6)
  | .laneCondemn _ mod _ _ => decide (mod.toNat < 6)
  | .moduleActionDone _ mod _ => decide (mod.toNat < 6)
  | .regulatorAdmit _ => true
  | .start _ part => decide (part.toNat < 24)
  | .stop _ part => decide (part.toNat < 24)
  | .stopComplete part => decide (part.toNat < 24)
  | .stopTimeout part => decide (part.toNat < 24)
  | .partitionReset _ part => decide (part.toNat < 24)
  | .partitionResetComplete part => decide (part.toNat < 24)
  | .thaw _ part => decide (part.toNat < 24)
  | .thawComplete part => decide (part.toNat < 24)
  | .cmdNop cmd => cmd.wf
  | .diagAccess cmd host => cmd.wf && decide (host.length ≤ 1048576)
  | .commandFetch fn _ _ _ => decide (fn.toNat ≤ 48)
  | .sqTail fn _ _ => decide (fn.toNat ≤ 48)
  | .cqHead fn _ _ => decide (fn.toNat ≤ 48)
  | .queueEnable fn _ _ => decide (fn.toNat ≤ 48)
  | .queueDisable fn _ _ => decide (fn.toNat ≤ 48)
  | .bar2Read _ _ => true
  | .bar2Write _ data _ => decide (data.length ≤ 4096)
  | .hostCompletion fn _ _ data => decide (fn.toNat ≤ 48) && decide (data.length ≤ 4096)
  | .completionTimeout _ => true
  | .busMasterEnableClear fn => decide (fn.toNat ≤ 48)
  | .busMasterEnableSet fn => decide (fn.toNat ≤ 48)
  | .msixUnmask fn _ => decide (fn.toNat ≤ 48)
  | .powerStateChange fn _ => decide (fn.toNat ≤ 48)
  | .hotReset => true
  | .vfFlr fn => decide (fn.toNat ≤ 48)
  | .vfFlrComplete fn => decide (fn.toNat ≤ 48)
  | .pfFlr => true
  | .vfEnableSet => true
  | .vfEnableClear => true
  | .numvfsWrite _ => true
  | .mbxGo => true
  | .linkSak cmd host => cmd.wf && decide (host.length ≤ 1048576)
  | .transportWrite p _ => p.wf
  | .readReq p _ => p.wf
  | .readResp p => p.wf
  | .transportAtomic p _ => p.wf
  | .atomicResp p => p.wf
  | .ack p _ _ => p.wf
  | .nak p _ _ => p.wf
  | .cnp p => p.wf
  | .pathOpen p => p.wf
  | .pathAccept p => p.wf
  | .pathClose p => p.wf
  | .pacedSend link _ => decide (link.toNat < 96)
  | .ackTimer link _ => decide (link.toNat < 96)
  | .rtoExpiry link _ _ => decide (link.toNat < 96)
  | .rateRecoveryTimer link _ => decide (link.toNat < 96)
  | .pfcFrame link _ _ => decide (link.toNat < 96)
  | .pfcWatchdog link => decide (link.toNat < 96)
  | .lossOfLock link => decide (link.toNat < 96)
  | .linkUp link => decide (link.toNat < 96)
  | .quadFatal quad => decide (quad.toNat < 24)
  | .winOpen _ _ => true
  | .winClose _ _ => true
  | .winFree _ _ => true
  | .winDrained _ _ => true
  | .lnkPeerWrite _ _ _ => true
  | .colGroupCreate cmd => cmd.wf
  | .colGroupDestroy cmd => cmd.wf
  | .colPost cmd => cmd.wf
  | .colCancel cmd => cmd.wf
  | .postStart _ => true
  | .chunkSend _ => true
  | .colData p _ => p.wf
  | .colCredit p _ => p.wf
  | .colSquall p _ => p.wf
  | .colAbort p _ => p.wf
  | .stepDeadline _ => true
  | .postComplete _ => true
  | .allotPass _ => true
  | .powerBrakeAssert => true
  | .powerBrakeRelease => true
  | .softwareBrake _ => true
  | .dieSensorSample _ temps => decide (temps.length = 64)
  | .siteTelemetryRead _ _ _ _ _ => true
  | .avsAck _ _ => true
  | .regulatorStatusRead _ _ _ => true
  | .twinTelemetry _ => true
  | .heartbeatLoss => true
  | .heartbeatRx _ => true
  | .pumpFail _ _ => true
  | .almanacRead _ _ => true
  | .almanacWrite _ _ => true
  | .almanacLock _ _ => true
  | .almanacUnlock _ _ => true
  | .lockReleaseAll _ _ => true
  | .lockLapse _ => true
  | .usdoTransfer _ _ _ data => decide (data.length ≤ 4096)
  | .usdoTimeout _ _ => true
  | .rpdo _ data => decide (data.length ≤ 4096)
  | .sync => true
  | .tpdoEventTimer _ => true
  | .heartbeatProduce => true
  | .nmtStart => true
  | .nmtStop => true
  | .nmtEnterPreOperational => true
  | .nmtResetNode => true
  | .nmtResetCommunication => true
  | .slotOffset _ _ => true
  | .slotData _ data => decide (data.length ≤ 4096)
  | .stage _ _ => true
  | .confirm _ _ => true
  | .activate _ _ => true
  | .moraineRecordRead _ => true
  | .lcRequest _ data => decide (data.length ≤ 4096)
  | .lcTransitionStep => true
  | .spdmRequest _ => true
  | .query _ => true
  | .keyProg _ => true
  | .kSetGo _ => true
  | .kSetStop _ => true
  | .lockInterface r => (decide (1 ≤ r.vf.toNat) && decide (r.vf.toNat ≤ 48))
  | .getDeviceInterfaceReport r => (decide (1 ≤ r.vf.toNat) && decide (r.vf.toNat ≤ 48))
  | .startInterface r => (decide (1 ≤ r.vf.toNat) && decide (r.vf.toNat ≤ 48))
  | .stopInterface r => (decide (1 ≤ r.vf.toNat) && decide (r.vf.toNat ≤ 48))
  | .getDeviceInterfaceState r => (decide (1 ≤ r.vf.toNat) && decide (r.vf.toNat ≤ 48))
  | .bundleInstall cmd => cmd.wf
  | .bundleInstallComplete _ => true
  | .domainRemove cmd => cmd.wf
  | .debugEngage cmd => cmd.wf
  | .debugRead cmd => cmd.wf
  | .debugRelease cmd => cmd.wf
  | .morClear _ _ => true
  | .bypass _ => true
  | .idcode => true
  | .samplePreload _ _ => true
  | .extest _ _ => true
  | .clamp _ => true
  | .pfFlrComplete => true
  | .avsbusWriteUnacknowledged _ _ => true
  | .canBusOff => true
  | .inhibitExpiry _ _ => true
  | .supplyGroupUp => true
  | .supplyGroupLoss => true
  | .configSpaceWrite fn _ _ => decide (fn.toNat ≤ 48)

end Sys2Proof
end

