-- ==== Sys2Proof/Certificates/Slice0/Obligations.lean ====
section
/-! DEFINITION. The statements for the provers, one per group of rules of the spec, and the vocabulary they are written in.
A statement of an instruction's or command's result has as its conclusion that exec answers a next state, and says which. -/

namespace Sys2Proof.Claims

open Sys2Proof Machine

/-- The command runs to a next state of which `P` holds. -/
def Runs (i : Instr) (s : State) (P : State → Prop) : Prop := ∃ t, exec i s = .next t ∧ P t

/-- Every byte of memory reads as before. -/
def SameBytes (s t : State) : Prop := ∀ a, t.mem.byte a = s.mem.byte a

/-- Every register field but the listed ones reads as before. -/
def SameRegsBut (l : List Fld) (s t : State) : Prop :=
  ∀ g : Fld, (∀ f ∈ l, g.key ≠ f.key) → t.hub.get g = s.hub.get g

/-- Every core reads as before. -/
def SameCores (s t : State) : Prop := ∀ n, t.hub.core n = s.hub.core n

-- Fraxo cores

/-- The core exists (R82) and may issue. -/
def Ready (c : CoreId) (s : State) : Prop :=
  s.hub.floeExists c.floe.toNat = true ∧ (s.hub.core (coreNum c)).run = .ready

/-- The core of an instruction. -/
def coreOf (c : CoreId) (s : State) : Core := s.hub.core (coreNum c)

/-- The machine after the core's instruction has retired leaving its core as `y`: INSTRET counts it, and nothing of it is in
hand any more. -/
def retired (c : CoreId) (s : State) (y : Core) : State :=
  s.onHub (·.setCore (coreNum c) { y with instret := y.instret + 1, rem := [], stalled := (0, 0), paid := false })

/-- The instruction retires: the machine is as before but for the core, which is `y`. -/
def Retires (i : Instr) (c : CoreId) (s : State) (y : Core) : Prop := exec i s = .next (retired c s y)

/-- The core with `v` written to scalar register `rd` at the next instruction. -/
def wroteS (x : Core) (rd : BitVec 5) (v : Word64) : Core := (x.setS rd v).adv

/-- The core with `v` written to vector register `vd` at the next instruction. -/
def wroteV (x : Core) (vd : BitVec 5) (v : Word256) : Core := (x.setV vd.toNat v).adv

/-- The machine after the core raised an exception with its fields (R138, R140, R141), its core carrying `y`. -/
def raised (c : CoreId) (s : State) (y : Core) (w code addr trap : Nat) : State :=
  s.onHub (fun h => (h.setCore (coreNum c) y).coreExc (coreNum c) code w addr trap (bits y.fflags.toNat 0 8))

end Sys2Proof.Claims

namespace Sys2Proof.Claims

open Sys2Proof Machine

/-- The two-register integer instructions and the value each writes to rd from s[rs1] and s[rs2] (R116, Table 5 of 05). -/
def intRows : List ((CoreId → RForm → Instr) × (Word64 → Word64 → Word64)) :=
  [(Instr.add, fun a b => a + b), (Instr.sub, fun a b => a - b), (Instr.and, fun a b => a &&& b), (Instr.or, fun a b => a ||| b),
   (Instr.xor, fun a b => a ^^^ b), (Instr.sll, fun a b => a <<< (b.toNat % 64)), (Instr.srl, fun a b => a >>> (b.toNat % 64)),
   (Instr.sra, fun a b => a.sshiftRight (b.toNat % 64)),
   (Instr.slt, fun a b => if a.toInt < b.toInt then 1 else 0), (Instr.sltu, fun a b => if a.toNat < b.toNat then 1 else 0),
   (Instr.min, fun a b => if a.toInt ≤ b.toInt then a else b), (Instr.max, fun a b => if a.toInt ≤ b.toInt then b else a),
   (Instr.minu, fun a b => if a.toNat ≤ b.toNat then a else b), (Instr.maxu, fun a b => if a.toNat ≤ b.toNat then b else a),
   (Instr.mul, fun a b => a * b), (Instr.mulh, fun a b => BitVec.ofInt 64 (a.toInt * b.toInt / 2 ^ 64)),
   (Instr.mulhu, fun a b => BitVec.ofNat 64 (a.toNat * b.toNat / 2 ^ 64)),
   (Instr.div, fun a b => if b = 0 then BitVec.allOnes 64 else a.sdiv b),
   (Instr.divu, fun a b => if b = 0 then BitVec.allOnes 64 else a.udiv b),
   (Instr.rem, fun a b => if b = 0 then a else a.srem b), (Instr.remu, fun a b => if b = 0 then a else a.umod b),
   (Instr.clz, fun a _ => BitVec.ofNat 64 ((List.range 64).takeWhile (fun i => !a.getMsbD i)).length),
   (Instr.ctz, fun a _ => BitVec.ofNat 64 ((List.range 64).takeWhile (fun i => !a.getLsbD i)).length),
   (Instr.popc, fun a _ => BitVec.ofNat 64 ((List.range 64).filter (fun i => a.getLsbD i)).length)]

end Sys2Proof.Claims

/-- ADD to POPC, with X zero, retire with their value in rd, and SEL with s[rs1] or s[rs2] (R116, Table 5 of 05). -/
def Sys2Proof.Claims.IntegerInstructionsWriteTheirResult : Prop :=
  ∀ (c : Sys2Proof.CoreId) (f : Sys2Proof.RForm) (s : Sys2Proof.Machine.State), Sys2Proof.Claims.Ready c s →
    let x := Sys2Proof.Claims.coreOf c s
    (∀ e ∈ Sys2Proof.Claims.intRows, f.x = 0 →
      Sys2Proof.Claims.Retires (e.1 c f) c s (Sys2Proof.Claims.wroteS x f.rd (e.2 (x.s f.rs1) (x.s f.rs2)))) ∧
    Sys2Proof.Claims.Retires (.sel c f) c s
      (Sys2Proof.Claims.wroteS x f.rd (if x.s f.x = 0 then x.s f.rs2 else x.s f.rs1))

namespace Sys2Proof.Claims

open Sys2Proof Machine

/-- The immediate instructions and the value each writes to rd from s[rs1] and IMM16 (R116). -/
def immRows : List ((CoreId → IForm → Instr) × (Word64 → BitVec 16 → Word64)) :=
  [(Instr.addi, fun a i => a + i.signExtend 64), (Instr.andi, fun a i => a &&& i.setWidth 64),
   (Instr.ori, fun a i => a ||| i.setWidth 64), (Instr.xori, fun a i => a ^^^ i.setWidth 64),
   (Instr.slti, fun a i => if a.toInt < (i.signExtend 64).toInt then 1 else 0),
   (Instr.sltiu, fun a i => if a.toNat < (i.signExtend 64).toNat then 1 else 0)]

/-- The value of SHI by IMM[7:6] and the amount IMM[5:0] (Table 5 of 05). -/
def shiValue (a : Word64) (i : BitVec 16) : Word64 :=
  if i.toNat / 64 = 0 then a <<< (i.toNat % 64)
  else if i.toNat / 64 = 1 then a >>> (i.toNat % 64)
  else if i.toNat / 64 = 2 then a.sshiftRight (i.toNat % 64)
  else a.rotateRight (i.toNat % 64)

end Sys2Proof.Claims

/-- ADDI to SLTIU, SHI, MOVZ and MOVK retire with their value in rd; a reserved field of SHI, MOVZ or MOVK that is not zero
raises ILLEGAL, code 0x01 (R114, R115, R116, Table 5 of 05). -/
def Sys2Proof.Claims.ImmediateInstructionsWriteTheirResult : Prop :=
  ∀ (c : Sys2Proof.CoreId) (s : Sys2Proof.Machine.State), Sys2Proof.Claims.Ready c s →
    let x := Sys2Proof.Claims.coreOf c s
    (∀ e ∈ Sys2Proof.Claims.immRows, ∀ f : Sys2Proof.IForm,
      Sys2Proof.Claims.Retires (e.1 c f) c s (Sys2Proof.Claims.wroteS x f.rd (e.2 (x.s f.rs1) f.imm))) ∧
    (∀ f : Sys2Proof.IForm, f.imm.toNat < 256 →
      Sys2Proof.Claims.Retires (.shi c f) c s (Sys2Proof.Claims.wroteS x f.rd (Sys2Proof.Claims.shiValue (x.s f.rs1) f.imm))) ∧
    (∀ f : Sys2Proof.IForm, 256 ≤ f.imm.toNat →
      Sys2Proof.Machine.exec (.shi c f) s = .next (Sys2Proof.Claims.raised c s x (Sys2Proof.Machine.encI 0x08 f) 0x01 0 0)) ∧
    (∀ f : Sys2Proof.MForm, f.res = 0 →
      Sys2Proof.Claims.Retires (.movz c f) c s
        (Sys2Proof.Claims.wroteS x f.rd (f.imm.setWidth 64 <<< (16 * f.hw.toNat))) ∧
      Sys2Proof.Claims.Retires (.movk c f) c s
        (Sys2Proof.Claims.wroteS x f.rd
          ((x.s f.rd &&& ~~~(0xFFFF#64 <<< (16 * f.hw.toNat))) ||| (f.imm.setWidth 64 <<< (16 * f.hw.toNat))))) ∧
    (∀ f : Sys2Proof.MForm, f.res ≠ 0 →
      Sys2Proof.Machine.exec (.movz c f) s = .next (Sys2Proof.Claims.raised c s x (Sys2Proof.Machine.encM 0x09 f) 0x01 0 0) ∧
      Sys2Proof.Machine.exec (.movk c f) s = .next (Sys2Proof.Claims.raised c s x (Sys2Proof.Machine.encM 0x0A f) 0x01 0 0))

/-- ADD to POPC, with X zero, retire with their value in rd, and SEL with s[rs1] or s[rs2] (R116, Table 5 of 05). ADDI to SLTIU, SHI, MOVZ and
MOVK retire with their value in rd; a reserved field of SHI, MOVZ or MOVK that is not zero raises ILLEGAL, code 0x01 (R114, R115, R116, Table 5
of 05). -/
def Obligations.ScalarIntegerInstructionsWriteTheirResult : Prop :=
  Sys2Proof.Claims.IntegerInstructionsWriteTheirResult ∧ Sys2Proof.Claims.ImmediateInstructionsWriteTheirResult

namespace Sys2Proof.Claims

open Sys2Proof Machine

/-- FADD to FLE: function code, constructor, and the FP32 result and flags from the core and the fields (R123, R124). -/
def fpsRows : List (Nat × (CoreId → RForm → Instr) × (Core → RForm → Nat × FFlags)) :=
  [(0x00, Instr.fadd, fun x f => fpArith .add fp32 x.ftz x.arithRound (fps x f.rs1) (fps x f.rs2)),
   (0x01, Instr.fsub, fun x f => fpArith .sub fp32 x.ftz x.arithRound (fps x f.rs1) (fps x f.rs2)),
   (0x02, Instr.fmul, fun x f => fpArith .mul fp32 x.ftz x.arithRound (fps x f.rs1) (fps x f.rs2)),
   (0x03, Instr.fdiv, fun x f => fpArith .div fp32 x.ftz x.arithRound (fps x f.rs1) (fps x f.rs2)),
   (0x04, Instr.fsqrt, fun x f => fpSqrt fp32 x.ftz x.arithRound (fps x f.rs1)),
   (0x05, Instr.fmin, fun x f => fpMinMax false fp32 x.ftz (fps x f.rs1) (fps x f.rs2)),
   (0x06, Instr.fmax, fun x f => fpMinMax true fp32 x.ftz (fps x f.rs1) (fps x f.rs2)),
   (0x08, Instr.fma, fun x f => fpFma fp32 x.ftz x.arithRound false false (fps x f.rs1) (fps x f.rs2) (fps x f.x)),
   (0x0D, Instr.fcvtS, fun x f => fp32.enc true (valOfInt (x.s f.rs1).toInt) x.arithRound 0),
   (0x10, Instr.feq, fun x f => (b2n (fpCmp .eq fp32 x.ftz (fps x f.rs1) (fps x f.rs2)).1, (fpCmp .eq fp32 x.ftz (fps x f.rs1) (fps x f.rs2)).2)),
   (0x11, Instr.flt, fun x f => (b2n (fpCmp .lt fp32 x.ftz (fps x f.rs1) (fps x f.rs2)).1, (fpCmp .lt fp32 x.ftz (fps x f.rs1) (fps x f.rs2)).2)),
   (0x12, Instr.fle, fun x f => (b2n (fpCmp .le fp32 x.ftz (fps x f.rs1) (fps x f.rs2)).1, (fpCmp .le fp32 x.ftz (fps x f.rs1) (fps x f.rs2)).2))]

end Sys2Proof.Claims

/-- A scalar floating instruction whose flags are not enabled retires with its result in bits [31:0] of rd, zero above, and
its flags joined to FFLAGS; one that sets an enabled flag raises NUMERIC, code 0x08, with the flags and without its result
(R116, R136, R137). FCVT.L writes the rounded integer of a value inside int64, NX where it was rounded. -/
def Obligations.ScalarFloatInstructionsRoundAndFlag : Prop :=
  ∀ (c : Sys2Proof.CoreId) (f : Sys2Proof.RForm) (s : Sys2Proof.Machine.State), Sys2Proof.Claims.Ready c s →
    let x := Sys2Proof.Claims.coreOf c s
    (∀ e ∈ Sys2Proof.Claims.fpsRows,
      let r := e.2.2 x f
      (r.2.toNat &&& x.fexc = 0 →
        Sys2Proof.Claims.Retires (e.2.1 c f) c s (Sys2Proof.Claims.wroteS (x.orFlags r.2) f.rd (BitVec.ofNat 64 r.1))) ∧
      (r.2.toNat &&& x.fexc ≠ 0 →
        Sys2Proof.Machine.exec (e.2.1 c f) s
          = .next (Sys2Proof.Claims.raised c s (x.orFlags r.2) (Sys2Proof.Machine.encR 0x0B e.1 f) 0x08 0 0))) ∧
    (∀ i nx, Sys2Proof.Machine.fcvtLVal (Sys2Proof.Machine.fpIn Sys2Proof.Machine.fp32 x.ftz (Sys2Proof.Machine.fps x f.rs1)).1 x.arithRound
        = some (i, nx) → (({ nx := nx } : Sys2Proof.Machine.FFlags).toNat &&& x.fexc = 0) →
      Sys2Proof.Claims.Retires (.fcvtL c f) c s (Sys2Proof.Claims.wroteS (x.orFlags { nx := nx }) f.rd (BitVec.ofInt 64 i)))

namespace Sys2Proof.Claims

open Sys2Proof Machine

/-- The conditional branches: major opcode, constructor and condition over s[rs1] and s[rs2]. -/
def branchRows : List (Nat × (CoreId → BForm → Instr) × (Word64 → Word64 → Bool)) :=
  [(0x20, Instr.beq, fun a b => decide (a = b)), (0x21, Instr.bne, fun a b => decide (a ≠ b)),
   (0x22, Instr.blt, fun a b => decide (a.toInt < b.toInt)), (0x23, Instr.bge, fun a b => decide (b.toInt ≤ a.toInt)),
   (0x24, Instr.bltu, fun a b => decide (a.toNat < b.toNat)), (0x25, Instr.bgeu, fun a b => decide (b.toNat ≤ a.toNat))]

/-- A target that R117 refuses: not a multiple of 4, or at or beyond CODE_LEN of the core's launch. -/
def RefusedTarget (c : CoreId) (s : State) (t : Nat) : Prop := t % 4 ≠ 0 ∨ s.hub.codeLen (coreOf c s) ≤ t

/-- The machine as a conditional branch with the condition `b` leaves its counters: FLC_PERF_MISPRED counts a branch that goes
against its prediction, backward taken and forward not taken (R24). -/
def predicted (c : CoreId) (s : State) (b : Bool) (imm : BitVec 16) : State :=
  if b = imm.msb then s else s.onHub (·.wrap (Reg.flcPerfMispredCount (coreNum c / 128)) 1)

/-- What a conditional branch with condition `b` does: on to the next instruction, to PC + 4 × IMM, or FETCH, code 0x09, with the
target (R117). -/
def Branches (i : Instr) (c : CoreId) (s : State) (w : Nat) (b : Bool) (imm : BitVec 16) : Prop :=
  let x := coreOf c s
  let t := x.pc + 4 * imm.signExtend 32
  (b = false → exec i s = .next (retired c (predicted c s b imm) x.adv)) ∧
  (b = true → ¬ RefusedTarget c s t.toNat → exec i s = .next (retired c (predicted c s b imm) { x with pc := t })) ∧
  (b = true → RefusedTarget c s t.toNat → exec i s = .next (raised c s x w 0x09 t.toNat 0))

end Sys2Proof.Claims

/-- BEQ to BGEU and BP branch or not as their condition says, JAL and JALR always; JAL and JALR write PC + 4 to rd, and a refused
target raises FETCH (R24, R117, Table 5 of 05). -/
def Obligations.BranchesGoToTheirTarget : Prop :=
  ∀ (c : Sys2Proof.CoreId) (s : Sys2Proof.Machine.State), Sys2Proof.Claims.Ready c s →
    let x := Sys2Proof.Claims.coreOf c s
    (∀ e ∈ Sys2Proof.Claims.branchRows, ∀ f : Sys2Proof.BForm,
      Sys2Proof.Claims.Branches (e.2.1 c f) c s (Sys2Proof.Machine.encB e.1 f) (e.2.2 (x.s f.rs1) (x.s f.rs2)) f.imm) ∧
    (∀ f : Sys2Proof.BForm, f.rs1.toNat / 8 < 3 → f.rs2.toNat < 4 →
      let n := 8 * 2 ^ f.rs2.toNat
      let b := (x.p (f.rs1.setWidth 3)).toNat % 2 ^ n
      Sys2Proof.Claims.Branches (.bp c f) c s (Sys2Proof.Machine.encB 0x28 f)
        (if f.rs1.toNat / 8 = 0 then decide (b ≠ 0) else if f.rs1.toNat / 8 = 1 then decide (b = 2 ^ n - 1) else decide (b = 0)) f.imm) ∧
    (∀ f : Sys2Proof.JForm,
      let t := x.pc + 4 * f.imm.signExtend 32
      (¬ Sys2Proof.Claims.RefusedTarget c s t.toNat →
        Sys2Proof.Claims.Retires (.jal c f) c s { x.setS f.rd ((x.pc + 4).setWidth 64) with pc := t }) ∧
      (Sys2Proof.Claims.RefusedTarget c s t.toNat →
        Sys2Proof.Machine.exec (.jal c f) s = .next (Sys2Proof.Claims.raised c s x (Sys2Proof.Machine.encJ 0x26 f) 0x09 t.toNat 0))) ∧
    (∀ f : Sys2Proof.IForm,
      let t := x.s f.rs1 + f.imm.signExtend 64
      (¬ Sys2Proof.Claims.RefusedTarget c s t.toNat →
        Sys2Proof.Claims.Retires (.jalr c f) c s { x.setS f.rd ((x.pc + 4).setWidth 64) with pc := t.setWidth 32 }) ∧
      (Sys2Proof.Claims.RefusedTarget c s t.toNat →
        Sys2Proof.Machine.exec (.jalr c f) s = .next (Sys2Proof.Claims.raised c s x (Sys2Proof.Machine.encI 0x27 f) 0x09 t.toNat 0)))

namespace Sys2Proof.Claims

open Sys2Proof Machine

/-- The machine after a CSR instruction has read CYCLE and TIME: the model's counter of free values has advanced. -/
def readTime (s : State) : State := s.onHub (fun h => { h with fresh := h.fresh + 1 })

/-- The value of the CSR `ix` in the core of an instruction (Table 2 of 05), none where the table lists none. -/
def csrOf (c : CoreId) (s : State) (ix : Nat) : Option Word64 :=
  csrRead (s.hub.csrEnv (coreNum c) (coreOf c s)) (coreOf c s) ix

/-- The CSRs that a write leaves changed: FFLAGS (eight bits), DEWTAG (nine bits), SRSTATE (zero stores the constant of R111). -/
def csrPut (x : Core) (ix : Nat) (v : Word64) : Core :=
  if ix = 0 then { x with fflags := v &&& 0xFF }
  else if ix = 2 then { x with dewtag := v &&& 0x1FF }
  else if ix = 3 then { x with srstate := if v = 0 then 0x9E3779B97F4A7C15 else v }
  else x

/-- CSRW, CSRS and CSRC: the IMM[15:12] code, the constructor, and the new value from the old one and s[rs1]. -/
def csrRows : List (Nat × (CoreId → I12Form → Instr) × (Word64 → Word64 → Word64)) :=
  [(1, Instr.csrw, fun _ v => v), (2, Instr.csrs, fun o v => o ||| v), (3, Instr.csrc, fun o v => o &&& ~~~v)]

end Sys2Proof.Claims

/-- CSRR reads a listed CSR into rd; CSRW, CSRS and CSRC write FFLAGS, DEWTAG or SRSTATE and rd the old value, and FCTRL with a
reserved ROUND unchanged; an unlisted index and a write of a read-only CSR raise ILLEGAL; DEWSET, DEWSETR and DEWCLR set the tag
(R110, R111, Tables 2 and 5 of 05; VALID after DEWSETR is log entry 14). -/
def Obligations.ControlRegistersAreReadAndWritten : Prop :=
  ∀ (c : Sys2Proof.CoreId) (f : Sys2Proof.I12Form) (s : Sys2Proof.Machine.State), Sys2Proof.Claims.Ready c s →
    let x := Sys2Proof.Claims.coreOf c s
    let s' := Sys2Proof.Claims.readTime s
    let ix := f.imm.toNat
    (∀ v, Sys2Proof.Claims.csrOf c s ix = some v →
      Sys2Proof.Machine.exec (.csrr c f) s = .next (Sys2Proof.Claims.retired c s' (Sys2Proof.Claims.wroteS x f.rd v))) ∧
    (Sys2Proof.Claims.csrOf c s ix = none →
      Sys2Proof.Machine.exec (.csrr c f) s
        = .next (Sys2Proof.Claims.raised c s' x (Sys2Proof.Machine.encI12 0x0F 0 f) 0x01 0 0)) ∧
    (∀ e ∈ Sys2Proof.Claims.csrRows,
      (∀ v, (ix = 0 ∨ ix = 2 ∨ ix = 3) → Sys2Proof.Claims.csrOf c s ix = some v →
        Sys2Proof.Machine.exec (e.2.1 c f) s
          = .next (Sys2Proof.Claims.retired c s'
              (Sys2Proof.Claims.wroteS (Sys2Proof.Claims.csrPut x ix (e.2.2 v (x.s f.rs1))) f.rd v))) ∧
      (ix = 1 → ∃ y,
        Sys2Proof.Machine.exec (e.2.1 c f) s = .next (Sys2Proof.Claims.retired c s' (Sys2Proof.Claims.wroteS y f.rd x.fctrl)) ∧
          y = { x with fctrl := y.fctrl } ∧
          (let v := e.2.2 x.fctrl (x.s f.rs1)
           (v.toNat % 8 < 5 → y.fctrl = v &&& 0xFF0F) ∧
           (5 ≤ v.toNat % 8 → y.fctrl = (v &&& 0xFF08) ||| (x.fctrl &&& 7)))) ∧
      (4 ≤ ix →
        Sys2Proof.Machine.exec (e.2.1 c f) s
          = .next (Sys2Proof.Claims.raised c s' x (Sys2Proof.Machine.encI12 0x0F e.1 f) 0x01 0 0))) ∧
    (f.imm.toNat < 256 →
      Sys2Proof.Claims.Retires (.dewset c f) c s { x with dewtag := BitVec.ofNat 64 (f.imm.toNat + 256) }.adv ∧
      Sys2Proof.Claims.Retires (.dewsetr c f) c s { x with dewtag := BitVec.ofNat 64 ((x.s f.rs1).toNat % 256 + 256) }.adv ∧
      Sys2Proof.Claims.Retires (.dewclr c f) c s { x with dewtag := BitVec.ofNat 64 (x.dewtag.toNat % 256) }.adv)

namespace Sys2Proof.Claims

open Sys2Proof Machine

/-- The value of `n` bytes of memory at `a`, little-endian (R3). -/
def leBytesAt (m : Memory) (a n : Nat) : Nat := ((List.range n).map (fun i => (m.byte (a + i)).toNat * 256 ^ i)).sum

/-- Where `n` bytes at `va` lie for the core of an instruction (R84). -/
def placeOf (c : CoreId) (s : State) (va n : Nat) : Where :=
  s.hub.window (coreNum c) (s.hub.corePart (coreOf c s)) va n

/-- The scalar loads: major opcode, size in bytes, constructor, and the register value of what was read (R118). -/
def loadRows : List (Nat × Nat × (CoreId → IForm → Instr) × (Nat → Word64)) :=
  [(0x10, 1, Instr.ldb, fun v => (BitVec.ofNat 8 v).signExtend 64), (0x11, 2, Instr.ldh, fun v => (BitVec.ofNat 16 v).signExtend 64),
   (0x12, 4, Instr.ldw, fun v => (BitVec.ofNat 32 v).signExtend 64), (0x13, 8, Instr.ldd, fun v => BitVec.ofNat 64 v),
   (0x14, 1, Instr.ldbu, fun v => BitVec.ofNat 64 v), (0x15, 2, Instr.ldhu, fun v => BitVec.ofNat 64 v),
   (0x16, 4, Instr.ldwu, fun v => BitVec.ofNat 64 v)]

/-- The machine after an access of the core has to wait: the core is in the state `run`, its instruction in hand (R86, R384). -/
def waits (c : CoreId) (s : State) (w : Nat) (run : CoreRun) : State :=
  s.onHub (fun h => h.setCore (coreNum c) { h.core (coreNum c) with run := run, stalled := (w, (h.core (coreNum c)).stalled.2) })

end Sys2Proof.Claims

/-- A scalar load at a misaligned address raises MISALIGNED, code 0x02; at an address of the local window that names nothing WINDOW,
0x03; at poisoned bytes POISON, 0x05; elsewhere in the local window it retires with the bytes in rd, extended as R118 says; at a
translated address it retires, traps or waits as the access of R86 ends. Private memory is the first 0x4000 bytes of the window
(R84, R86, R118). -/
def Sys2Proof.Claims.ScalarLoadsReadAlignedBytes : Prop :=
  ∀ (c : Sys2Proof.CoreId) (f : Sys2Proof.IForm) (s : Sys2Proof.Machine.State), Sys2Proof.Claims.Ready c s →
    let x := Sys2Proof.Claims.coreOf c s
    let va := (x.s f.rs1 + f.imm.signExtend 64).toNat
    ∀ e ∈ Sys2Proof.Claims.loadRows,
      let n := e.2.1
      let i := e.2.2.1 c f
      let w := Sys2Proof.Machine.encI e.1 f
      let place := Sys2Proof.Claims.placeOf c s va n
      (va % n ≠ 0 → Sys2Proof.Machine.exec i s = .next (Sys2Proof.Claims.raised c s x w 0x02 va 0)) ∧
      (va % n = 0 → place = .undef → Sys2Proof.Machine.exec i s = .next (Sys2Proof.Claims.raised c s x w 0x03 va 0)) ∧
      (∀ a, va % n = 0 → place = .here a → s.mem.bad a n = true →
        Sys2Proof.Machine.exec i s = .next (Sys2Proof.Claims.raised c s x w 0x05 va 0)) ∧
      (∀ a, va % n = 0 → place = .here a → s.mem.bad a n = false →
        Sys2Proof.Claims.Retires i c s (Sys2Proof.Claims.wroteS x f.rd (e.2.2.2 (Sys2Proof.Claims.leBytesAt s.mem a n)))) ∧
      (va / 2 ^ 40 = 0xFFF → va % 2 ^ 40 + n ≤ 0x4000 →
        place = .here (Sys2Proof.Machine.privBase (Sys2Proof.Machine.coreNum c) + va % 2 ^ 40)) ∧
      (∀ s' v, va % n = 0 → place = .xlat → s.coreLoad (Sys2Proof.Machine.coreNum c) x va n = .ok s' v false →
        Sys2Proof.Machine.exec i s
          = .next (Sys2Proof.Claims.retired c s' (Sys2Proof.Claims.wroteS x f.rd (e.2.2.2 v)))) ∧
      (∀ s' run, va % n = 0 → place = .xlat → s.coreLoad (Sys2Proof.Machine.coreNum c) x va n = .stall s' run →
        Sys2Proof.Machine.exec i s = .next (Sys2Proof.Claims.waits c s' w run))

namespace Sys2Proof.Claims

open Sys2Proof Machine

/-- The scalar stores: major opcode, size in bytes, constructor. -/
def storeRows : List (Nat × Nat × (CoreId → SForm → Instr)) :=
  [(0x18, 1, Instr.stb), (0x19, 2, Instr.sth), (0x1A, 4, Instr.stw), (0x1B, 8, Instr.std)]

/-- Memory after `n` bytes were stored at `a`: byte `i` is byte `i` of the value, and every other byte reads as before. -/
def Stored (m m' : Memory) (a n : Nat) (v : Nat) : Prop :=
  (∀ i < n, m'.byte (a + i) = BitVec.ofNat 8 (v / 256 ^ i)) ∧ ∀ b, (b < a ∨ a + n ≤ b) → m'.byte b = m.byte b

end Sys2Proof.Claims

/-- A scalar store at a misaligned address raises MISALIGNED; at an address of the local window that names nothing WINDOW; elsewhere in
the local window it retires with the low bytes of s[rs2] at the address, every other byte of memory and all else unchanged; at a
translated address it retires or waits as the access of R86 ends (R84, R86, R118). -/
def Sys2Proof.Claims.ScalarStoresWriteTheirBytes : Prop :=
  ∀ (c : Sys2Proof.CoreId) (f : Sys2Proof.SForm) (s : Sys2Proof.Machine.State), Sys2Proof.Claims.Ready c s →
    let x := Sys2Proof.Claims.coreOf c s
    let va := (x.s f.rs1 + f.imm.signExtend 64).toNat
    ∀ e ∈ Sys2Proof.Claims.storeRows,
      let n := e.2.1
      let i := e.2.2 c f
      let w := Sys2Proof.Machine.encS e.1 f
      let place := Sys2Proof.Claims.placeOf c s va n
      (va % n ≠ 0 → Sys2Proof.Machine.exec i s = .next (Sys2Proof.Claims.raised c s x w 0x02 va 0)) ∧
      (va % n = 0 → place = .undef → Sys2Proof.Machine.exec i s = .next (Sys2Proof.Claims.raised c s x w 0x03 va 0)) ∧
      (∀ a, va % n = 0 → place = .here a → ∃ m',
        Sys2Proof.Machine.exec i s = .next (Sys2Proof.Claims.retired c { s with mem := m' } x.adv) ∧
          Sys2Proof.Claims.Stored s.mem m' a n (x.s f.rs2).toNat) ∧
      (∀ s' v, va % n = 0 → place = .xlat →
        s.coreStore (Sys2Proof.Machine.coreNum c) x va n ((x.s f.rs2).toNat % 2 ^ (8 * n)) = .ok s' v false →
        Sys2Proof.Machine.exec i s = .next (Sys2Proof.Claims.retired c s' x.adv)) ∧
      (∀ s' run, va % n = 0 → place = .xlat →
        s.coreStore (Sys2Proof.Machine.coreNum c) x va n ((x.s f.rs2).toNat % 2 ^ (8 * n)) = .stall s' run →
        Sys2Proof.Machine.exec i s = .next (Sys2Proof.Claims.waits c s' w run))

/-- A scalar load at a misaligned address raises MISALIGNED, code 0x02; at an address of the local window that names nothing WINDOW, 0x03; at
poisoned bytes POISON, 0x05; elsewhere in the local window it retires with the bytes in rd, extended as R118 says; at a translated address it
retires, traps or waits as the access of R86 ends. Private memory is the first 0x4000 bytes of the window (R84, R86, R118). A scalar store at a
misaligned address raises MISALIGNED; at an address of the local window that names nothing WINDOW; elsewhere in the local window it retires with
the low bytes of s[rs2] at the address, every other byte of memory and all else unchanged; at a translated address it retires or waits as the
access of R86 ends (R84, R86, R118). -/
def Obligations.ScalarLoadsAndStoresReachAlignedBytes : Prop :=
  Sys2Proof.Claims.ScalarLoadsReadAlignedBytes ∧ Sys2Proof.Claims.ScalarStoresWriteTheirBytes

namespace Sys2Proof.Claims

open Sys2Proof Machine

/-- Every active word of a vector access lies in the local window, at `at' i`, unpoisoned (for a load). -/
def WordsAt (c : CoreId) (s : State) (p : Word64) (va at' : Nat → Nat) : Prop :=
  ∀ i < 8, p.getLsbD i = true → placeOf c s (va i) 4 = .here (at' i) ∧ s.mem.bad (at' i) 4 = false

/-- The eight words of a vector register. -/
def wordOf (v : Word256) (i : Nat) : Nat := v.toNat / 2 ^ (32 * i) % 2 ^ 32

end Sys2Proof.Claims

/-- VLD reads 32 bytes at s[rs1] + 32 × sext(IMM13) in the local window word by word under its predicate: an active word of vd is the
memory's, an inactive one keeps its value; VLDX does so at its element addresses; VST stores the active words there and changes no other
byte; a misaligned VLD or VST raises MISALIGNED (R109, R118, R122). -/
def Obligations.VectorLoadsAndStoresFollowThePredicate : Prop :=
  ∀ (c : Sys2Proof.CoreId) (s : Sys2Proof.Machine.State), Sys2Proof.Claims.Ready c s →
    let x := Sys2Proof.Claims.coreOf c s
    (∀ f : Sys2Proof.VMForm,
      let va := (x.s f.rs1 + f.imm.signExtend 64 * 32).toNat
      (va % 32 ≠ 0 →
        Sys2Proof.Machine.exec (.vld c f) s = .next (Sys2Proof.Claims.raised c s x (Sys2Proof.Machine.encVM 0x1C f) 0x02 va 0) ∧
        Sys2Proof.Machine.exec (.vst c f) s = .next (Sys2Proof.Claims.raised c s x (Sys2Proof.Machine.encVM 0x1D f) 0x02 va 0)) ∧
      (∀ a, va % 32 = 0 → Sys2Proof.Claims.placeOf c s va 32 = .here a →
        (∀ i < 8, Sys2Proof.Claims.placeOf c s (va + 4 * i) 4 = .here (a + 4 * i)) → s.mem.bad a 32 = false →
        (∀ i < 8, s.mem.bad (a + 4 * i) 4 = false) →
        (∃ v, Sys2Proof.Claims.Retires (.vld c f) c s (Sys2Proof.Claims.wroteV x f.vd v) ∧
          ∀ i < 8, Sys2Proof.Claims.wordOf v i
            = if (x.p f.pg).getLsbD i then Sys2Proof.Claims.leBytesAt s.mem (a + 4 * i) 4
              else Sys2Proof.Claims.wordOf (x.v f.vd.toNat) i) ∧
        ∃ m', Sys2Proof.Machine.exec (.vst c f) s = .next (Sys2Proof.Claims.retired c { s with mem := m' } x.adv) ∧
          ∀ b, m'.byte b
            = if a ≤ b ∧ b < a + 32 ∧ (x.p f.pg).getLsbD ((b - a) / 4) then BitVec.ofNat 8 ((x.v f.vd.toNat).toNat / 256 ^ (b - a))
              else s.mem.byte b)) ∧
    (∀ f : Sys2Proof.VForm, f.fmt = 0 → ∀ at' : Nat → Nat,
      let ea (i : Nat) : Nat := ((x.s f.vb).toNat + Sys2Proof.Claims.wordOf (x.v f.va.toNat) i) % 2 ^ 64
      (∀ i < 8, (x.p f.pg).getLsbD i = true → ea i % 4 = 0) → Sys2Proof.Claims.WordsAt c s (x.p f.pg) ea at' →
      (∃ v, Sys2Proof.Claims.Retires (.vldx c f) c s (Sys2Proof.Claims.wroteV x f.vd v) ∧
        ∀ i < 8, Sys2Proof.Claims.wordOf v i
          = if (x.p f.pg).getLsbD i then Sys2Proof.Claims.leBytesAt s.mem (at' i) 4
            else Sys2Proof.Claims.wordOf (x.v f.vd.toNat) i) ∧
      ∃ m', Sys2Proof.Machine.exec (.vstx c f) s = .next (Sys2Proof.Claims.retired c { s with mem := m' } x.adv) ∧
        (∀ i < 8, (x.p f.pg).getLsbD i = true → (∀ j < 8, i < j → (x.p f.pg).getLsbD j = true → at' j ≠ at' i) →
          Sys2Proof.Claims.leBytesAt m' (at' i) 4 = Sys2Proof.Claims.wordOf (x.v f.vd.toNat) i) ∧
        ∀ b, (∀ i < 8, (x.p f.pg).getLsbD i = true → b < at' i ∨ at' i + 4 ≤ b) → m'.byte b = s.mem.byte b)

namespace Sys2Proof.Claims

open Sys2Proof Machine

/-- The atomics: function code, constructor, and the value combined from the old value, s[rs2] and the incoming s[rd], as numbers of
`w` bits (R121, Table 5 of 05). -/
def amoRows : List (Nat × (CoreId → RForm → Instr) × (Nat → Nat → Nat → Nat → Nat)) :=
  [(0, Instr.amoAdd, fun w o b _ => (o + b) % 2 ^ w), (1, Instr.amoAnd, fun _ o b _ => o &&& b), (2, Instr.amoOr, fun _ o b _ => o ||| b),
   (3, Instr.amoXor, fun _ o b _ => o ^^^ b),
   (4, Instr.amoMin, fun w o b _ => if (BitVec.ofNat w o).toInt ≤ (BitVec.ofNat w b).toInt then o else b),
   (5, Instr.amoMax, fun w o b _ => if (BitVec.ofNat w o).toInt < (BitVec.ofNat w b).toInt then b else o),
   (6, Instr.amoMinu, fun _ o b _ => min o b), (7, Instr.amoMaxu, fun _ o b _ => max o b), (8, Instr.amoSwap, fun _ _ b _ => b),
   (9, Instr.amoCas, fun _ o b d => if o = d then b else o)]

end Sys2Proof.Claims

/-- An atomic at an aligned unpoisoned address of the local window reads the 32-bit or 64-bit value, writes the combined one, returns the
old one in rd (zero-extended: log entry 25), and changes no other byte; a misaligned address raises MISALIGNED, a poisoned value POISON, and
X[4:3] not zero ILLEGAL (R115, R118, R121). -/
def Obligations.AtomicsReturnTheOldValue : Prop :=
  ∀ (c : Sys2Proof.CoreId) (f : Sys2Proof.RForm) (s : Sys2Proof.Machine.State), Sys2Proof.Claims.Ready c s →
    let x := Sys2Proof.Claims.coreOf c s
    let n := if f.x.getLsbD 2 then 8 else 4
    let va := (x.s f.rs1).toNat
    let place := Sys2Proof.Claims.placeOf c s va n
    ∀ e ∈ Sys2Proof.Claims.amoRows,
      let i := e.2.1 c f
      let w := Sys2Proof.Machine.encR 0x1F e.1 f
      (8 ≤ f.x.toNat → Sys2Proof.Machine.exec i s = .next (Sys2Proof.Claims.raised c s x w 0x01 0 0)) ∧
      (f.x.toNat < 8 → va % n ≠ 0 → Sys2Proof.Machine.exec i s = .next (Sys2Proof.Claims.raised c s x w 0x02 va 0)) ∧
      (f.x.toNat < 8 → va % n = 0 → place = .undef →
        Sys2Proof.Machine.exec i s = .next (Sys2Proof.Claims.raised c s x w 0x03 va 0)) ∧
      (∀ a, f.x.toNat < 8 → va % n = 0 → place = .here a → s.mem.bad a n = true →
        Sys2Proof.Machine.exec i s = .next (Sys2Proof.Claims.raised c s x w 0x05 va 0)) ∧
      (∀ a, f.x.toNat < 8 → va % n = 0 → place = .here a → s.mem.bad a n = false →
        let old := Sys2Proof.Claims.leBytesAt s.mem a n
        let new := e.2.2 (8 * n) old ((x.s f.rs2).toNat % 2 ^ (8 * n)) ((x.s f.rd).toNat % 2 ^ (8 * n))
        ∃ m', Sys2Proof.Machine.exec i s
            = .next (Sys2Proof.Claims.retired c { s with mem := m' } (Sys2Proof.Claims.wroteS x f.rd (BitVec.ofNat 64 old))) ∧
          Sys2Proof.Claims.Stored s.mem m' a n new)

namespace Sys2Proof.Claims

open Sys2Proof Machine

/-- The core has no posted store on its way to a remote window: every earlier store is visible (R120). -/
def StoresDone (c : CoreId) (s : State) : Prop := s.hub.storesOut (coreNum c) = false

/-- The fences: function code, constructor, and whether they wait for earlier stores. -/
def fenceRows : List (Nat × (CoreId → I14Form → Instr) × Bool) :=
  [(0, Instr.fenceLd, false), (1, Instr.fenceSt, true), (2, Instr.fenceAll, true)]

end Sys2Proof.Claims

/-- NOP and the fences, with their reserved fields zero, only go on once the stores they wait for are visible; TRAP raises TRAP, code
0x0A, with IMM[15:8]; ENDT ends the core's part of its tile and joins its FFLAGS to the launch's flags; a reserved field that is not
zero raises ILLEGAL (R115, R120, R135, Table 5 of 05). -/
def Obligations.SystemInstructionsAndFences : Prop :=
  ∀ (c : Sys2Proof.CoreId) (s : Sys2Proof.Machine.State), Sys2Proof.Claims.Ready c s →
    let x := Sys2Proof.Claims.coreOf c s
    (∀ f : Sys2Proof.I12Form,
      (f.imm = 0 → Sys2Proof.Claims.Retires (.nop c f) c s x.adv) ∧
      (f.imm.toNat % 16 = 0 →
        Sys2Proof.Machine.exec (.trap c f) s
          = .next (Sys2Proof.Claims.raised c s x (Sys2Proof.Machine.encSys 2 f) 0x0A 0 (f.imm.toNat / 16))) ∧
      (f.imm = 0 → Sys2Proof.Claims.StoresDone c s → Sys2Proof.Claims.Retires (.fenceI c f) c s x.adv) ∧
      (f.imm = 0 → Sys2Proof.Claims.StoresDone c s → s.hub.launchOf x = none →
        Sys2Proof.Claims.Retires (.endt c f) c s { x.adv with run := .ended }) ∧
      (∀ l, f.imm = 0 → Sys2Proof.Claims.StoresDone c s → s.hub.launchOf x = some l →
        Sys2Proof.Claims.Runs (.endt c f) s fun t =>
          ((Sys2Proof.Claims.coreOf c t).run = .ended ∨ (Sys2Proof.Claims.coreOf c t).run = .idle) ∧
          Sys2Proof.Claims.SameBytes s t ∧
          ∀ l', Sys2Proof.Machine.tlook t.hub.sea.launches (x.launch - 1) = some l' →
            l'.flags = l.flags ||| x.fflags.toNat % 256) ∧
      (f.imm ≠ 0 →
        Sys2Proof.Machine.exec (.nop c f) s = .next (Sys2Proof.Claims.raised c s x (Sys2Proof.Machine.encSys 0 f) 0x01 0 0) ∧
        Sys2Proof.Machine.exec (.endt c f) s = .next (Sys2Proof.Claims.raised c s x (Sys2Proof.Machine.encSys 1 f) 0x01 0 0) ∧
        Sys2Proof.Machine.exec (.fenceI c f) s = .next (Sys2Proof.Claims.raised c s x (Sys2Proof.Machine.encSys 3 f) 0x01 0 0)) ∧
      (f.imm.toNat % 16 ≠ 0 →
        Sys2Proof.Machine.exec (.trap c f) s = .next (Sys2Proof.Claims.raised c s x (Sys2Proof.Machine.encSys 2 f) 0x01 0 0))) ∧
    (∀ e ∈ Sys2Proof.Claims.fenceRows, ∀ f : Sys2Proof.I14Form,
      let w := Sys2Proof.Machine.encFence e.1 f
      (f.imm = 0 → f.rd = 0 → f.rs1 = 0 → (e.2.2 = true → Sys2Proof.Claims.StoresDone c s) →
        Sys2Proof.Claims.Retires (e.2.1 c f) c s x.adv) ∧
      (f.imm = 0 → f.rd = 0 → f.rs1 = 0 → e.2.2 = true → ¬ Sys2Proof.Claims.StoresDone c s →
        Sys2Proof.Machine.exec (e.2.1 c f) s = .next (Sys2Proof.Claims.waits c s w .remote)) ∧
      (¬ (f.imm = 0 ∧ f.rd = 0 ∧ f.rs1 = 0) →
        Sys2Proof.Machine.exec (e.2.1 c f) s = .next (Sys2Proof.Claims.raised c s x w 0x01 0 0)))

namespace Sys2Proof.Claims

open Sys2Proof Machine

/-- A barrier of the hub. -/
def barrierAt (s : State) (k : Nat) : Barrier := tget Barrier.rst s.hub.sea.barriers k

/-- A grid barrier of the hub. -/
def gridAt (s : State) (k : Nat) : Barrier := tget Barrier.rst s.hub.sea.grid k

/-- The core goes on to its next instruction in the state `r`, all its registers as before, memory and register fields unchanged, and no
other core changed but in its state. -/
def Arrived (c : CoreId) (s t : State) (r : CoreRun) : Prop :=
  (coreOf c t).run = r ∧ (coreOf c t).pc = (coreOf c s).pc + 4 ∧ (coreOf c t).sr = (coreOf c s).sr ∧ (coreOf c t).vr = (coreOf c s).vr ∧
    t.mem = s.mem ∧ t.hub.regs = s.hub.regs ∧
    ∀ n ≠ coreNum c, t.hub.core n = { s.hub.core n with run := (t.hub.core n).run }

/-- A BAR with its reserved fields zero, all of the core's stores visible, in a launch. -/
def BarAt (c : CoreId) (f : IForm) (s : State) (b : Nat) (l : Launch) : Prop :=
  f.imm.toNat = b ∧ f.rd = 0 ∧ StoresDone c s ∧ s.hub.launchOf (coreOf c s) = some l

end Sys2Proof.Claims

/-- BAR arrives at its barrier: at barriers 1-14 the arrival that makes the count of s[rs1] releases every core that arrived, and an
earlier one waits; barrier 0 releases when every core of the tile has arrived or ended, barrier 15 when every core of the launch has
arrived; a count of 0 or above 128, a count unlike the first arrival's, and barrier 15 without CO_RESIDENT raise BARRIER, code 0x06
(R98, R99, R131). -/
def Sys2Proof.Claims.BarriersReleaseOnTheLastArrival : Prop :=
  ∀ (c : Sys2Proof.CoreId) (f : Sys2Proof.IForm) (s : Sys2Proof.Machine.State) (l : Sys2Proof.Machine.Launch),
    Sys2Proof.Claims.Ready c s →
    let x := Sys2Proof.Claims.coreOf c s
    let n := (x.s f.rs1).toNat
    let core := Sys2Proof.Machine.coreNum c
    let w := Sys2Proof.Machine.encI 0x2D f
    (∀ b, 1 ≤ b → b < 15 → Sys2Proof.Claims.BarAt c f s b l →
      let k := Sys2Proof.Machine.barKey (core / 128) b 0
      let y := Sys2Proof.Claims.barrierAt s k
      let a := Sys2Proof.Machine.kadd y.arrived core
      ((n = 0 ∨ 128 < n ∨ (y.arrived ≠ [] ∧ y.count ≠ n)) →
        Sys2Proof.Machine.exec (.bar c f) s = .next (Sys2Proof.Claims.raised c s x w 0x06 0 0)) ∧
      (1 ≤ n → n ≤ 128 → (y.arrived = [] ∨ y.count = n) → a.length < n →
        Sys2Proof.Claims.Runs (.bar c f) s fun t =>
          Sys2Proof.Claims.Arrived c s t (.atBarrier b) ∧ Sys2Proof.Claims.barrierAt t k = ⟨n, a⟩) ∧
      (1 ≤ n → n ≤ 128 → (y.arrived = [] ∨ y.count = n) → n ≤ a.length →
        Sys2Proof.Claims.Runs (.bar c f) s fun t =>
          Sys2Proof.Claims.Arrived c s t .ready ∧ Sys2Proof.Claims.barrierAt t k = Sys2Proof.Machine.Barrier.rst ∧
          ∀ d ∈ a, (t.hub.core d).run = .ready)) ∧
    (Sys2Proof.Claims.BarAt c f s 0 l →
      let k := Sys2Proof.Machine.barKey (core / 128) 0 x.slot
      let a := Sys2Proof.Machine.kadd (Sys2Proof.Claims.barrierAt s k).arrived core
      let all := ∀ d ∈ Sys2Proof.Machine.slotCores (core / 128) x.slot l.tc,
        Sys2Proof.Machine.kmem a d = true ∨ (s.hub.core d).run = .ended
      (¬ all → Sys2Proof.Claims.Runs (.bar c f) s fun t =>
        Sys2Proof.Claims.Arrived c s t (.atBarrier 0) ∧ (Sys2Proof.Claims.barrierAt t k).arrived = a) ∧
      (all → Sys2Proof.Claims.Runs (.bar c f) s fun t =>
        Sys2Proof.Claims.Arrived c s t .ready ∧ Sys2Proof.Claims.barrierAt t k = Sys2Proof.Machine.Barrier.rst ∧
          ∀ d ∈ a, (t.hub.core d).run = .ready)) ∧
    (Sys2Proof.Claims.BarAt c f s 15 l →
      let a := Sys2Proof.Machine.kadd (Sys2Proof.Claims.gridAt s (x.launch - 1)).arrived core
      (l.flag 1 = false → Sys2Proof.Machine.exec (.bar c f) s = .next (Sys2Proof.Claims.raised c s x w 0x06 0 0)) ∧
      (l.flag 1 = true → a.length < l.total * l.tc → Sys2Proof.Claims.Runs (.bar c f) s fun t =>
        Sys2Proof.Claims.Arrived c s t (.atBarrier 15) ∧ (Sys2Proof.Claims.gridAt t (x.launch - 1)).arrived = a) ∧
      (l.flag 1 = true → l.total * l.tc ≤ a.length → Sys2Proof.Claims.Runs (.bar c f) s fun t =>
        Sys2Proof.Claims.Arrived c s t .ready ∧ Sys2Proof.Claims.gridAt t (x.launch - 1) = Sys2Proof.Machine.Barrier.rst ∧
          ∀ d ∈ a, (t.hub.core d).run = .ready))

/-- EVT on the counter that s[rs1] names in the local window: READ gives its value, SET stores s[rs2], ADD adds s[rs2] modulo 2^32 and
gives the old value, each changing no other byte of memory; WAIT goes on if the counter has reached s[rs2] and else leaves the core waiting
for it, and on another floe's counter raises EVENT, code 0x0C; any other address raises WINDOW (R84, R100, R132). -/
def Sys2Proof.Claims.EventCountersAreReadSetAddedAndAwaited : Prop :=
  ∀ (c : Sys2Proof.CoreId) (f : Sys2Proof.RForm) (s : Sys2Proof.Machine.State), Sys2Proof.Claims.Ready c s →
    let x := Sys2Proof.Claims.coreOf c s
    let core := Sys2Proof.Machine.coreNum c
    let va := (x.s f.rs1).toNat
    let b := (x.s f.rs2).toNat
    (s.hub.evtAt core (s.hub.corePart x) va = none →
      Sys2Proof.Machine.exec (.evtRead c f) s = .next (Sys2Proof.Claims.raised c s x (Sys2Proof.Machine.encR 0x2E 0 f) 0x03 va 0) ∧
      Sys2Proof.Machine.exec (.evtSet c f) s = .next (Sys2Proof.Claims.raised c s x (Sys2Proof.Machine.encR 0x2E 1 f) 0x03 va 0) ∧
      Sys2Proof.Machine.exec (.evtAdd c f) s = .next (Sys2Proof.Claims.raised c s x (Sys2Proof.Machine.encR 0x2E 2 f) 0x03 va 0) ∧
      Sys2Proof.Machine.exec (.evtWait c f) s = .next (Sys2Proof.Claims.raised c s x (Sys2Proof.Machine.encR 0x2E 3 f) 0x03 va 0)) ∧
    (∀ fl k, s.hub.evtAt core (s.hub.corePart x) va = some (fl, k) →
      let a := Sys2Proof.Machine.eventHpa fl k
      let old := Sys2Proof.Claims.leBytesAt s.mem a 4
      Sys2Proof.Claims.Retires (.evtRead c f) c s (Sys2Proof.Claims.wroteS x f.rd (BitVec.ofNat 64 old)) ∧
      (Sys2Proof.Claims.StoresDone c s →
        (∃ m', Sys2Proof.Machine.exec (.evtSet c f) s = .next (Sys2Proof.Claims.retired c { s with mem := m' } x.adv) ∧
          Sys2Proof.Claims.Stored s.mem m' a 4 (b % 2 ^ 32)) ∧
        ∃ m', Sys2Proof.Machine.exec (.evtAdd c f) s
            = .next (Sys2Proof.Claims.retired c { s with mem := m' } (Sys2Proof.Claims.wroteS x f.rd (BitVec.ofNat 64 old))) ∧
          Sys2Proof.Claims.Stored s.mem m' a 4 ((old + b) % 2 ^ 32)) ∧
      (fl = core / 128 →
        ((old + 2 ^ 32 - b % 2 ^ 32) % 2 ^ 32 < 2 ^ 31 → Sys2Proof.Claims.Retires (.evtWait c f) c s x.adv) ∧
        (2 ^ 31 ≤ (old + 2 ^ 32 - b % 2 ^ 32) % 2 ^ 32 →
          Sys2Proof.Claims.Retires (.evtWait c f) c s { x.adv with run := .waitEvent k (b % 2 ^ 32) })) ∧
      (fl ≠ core / 128 →
        Sys2Proof.Machine.exec (.evtWait c f) s
          = .next (Sys2Proof.Claims.raised c s x (Sys2Proof.Machine.encR 0x2E 3 f) 0x0C va 0)))

/-- BAR arrives at its barrier: at barriers 1-14 the arrival that makes the count of s[rs1] releases every core that arrived, and an earlier one
waits; barrier 0 releases when every core of the tile has arrived or ended, barrier 15 when every core of the launch has arrived; a count of 0 or
above 128, a count unlike the first arrival's, and barrier 15 without CO_RESIDENT raise BARRIER, code 0x06 (R98, R99, R131). EVT on the counter
that s[rs1] names in the local window: READ gives its value, SET stores s[rs2], ADD adds s[rs2] modulo 2^32 and gives the old value, each
changing no other byte of memory; WAIT goes on if the counter has reached s[rs2] and else leaves the core waiting for it, and on another floe's
counter raises EVENT, code 0x0C; any other address raises WINDOW (R84, R100, R132). -/
def Obligations.BarriersAndEventCounters : Prop :=
  Sys2Proof.Claims.BarriersReleaseOnTheLastArrival ∧ Sys2Proof.Claims.EventCountersAreReadSetAddedAndAwaited

namespace Sys2Proof.Claims

open Sys2Proof Machine

/-- The queue of a DMA channel of the core's floe. -/
def channelQueue (c : CoreId) (s : State) (ch : Nat) : List DmaReq := tget [] s.hub.sea.dma (16 * (coreNum c / 128) + ch)

/-- The record of a DMAIS in private memory can be read: the address is in the first 0x4000 bytes of the local window and 16-byte aligned,
the channel exists, and its 48 bytes are not poisoned (R133). -/
def DmaRecordAt (c : CoreId) (f : RForm) (s : State) : Prop :=
  let va := ((coreOf c s).s f.rs1).toNat
  va / 2 ^ 40 = 0xFFF ∧ va % 16 = 0 ∧ va % 2 ^ 40 + 48 ≤ 0x4000 ∧ ((coreOf c s).s f.rs2).toNat ≤ 15 ∧
    s.mem.bad (privBase (coreNum c) + va % 2 ^ 40) 48 = false

end Sys2Proof.Claims

/-- DMAIS with a request that passes R103 queues it on its channel, and waits while the channel holds four; a bad address or channel raises
DMA, code 0x07; DMAST writes the map of busy channels to rd; DMAWT goes on if its channel is idle and else leaves the core waiting for it
(R102, R103, R133, R134; a channel above 15 is log entry 26). -/
def Obligations.DmaRequestsQueueOnTheirChannel : Prop :=
  ∀ (c : Sys2Proof.CoreId) (f : Sys2Proof.RForm) (s : Sys2Proof.Machine.State), Sys2Proof.Claims.Ready c s →
    let x := Sys2Proof.Claims.coreOf c s
    let core := Sys2Proof.Machine.coreNum c
    let va := (x.s f.rs1).toNat
    let ch := (x.s f.rs2).toNat
    let p := s.hub.corePart x
    let q := Sys2Proof.Claims.channelQueue c s ch
    let b := s.mem.rd (Sys2Proof.Machine.privBase core + va % 2 ^ 40) 48
    (va / 2 ^ 40 ≠ 0xFFF ∨ va % 16 ≠ 0 ∨ 0x4000 < va % 2 ^ 40 + 48 ∨ 15 < ch →
      Sys2Proof.Machine.exec (.dmais c f) s = .next (Sys2Proof.Claims.raised c s x (Sys2Proof.Machine.encR 0x2F 0 f) 0x07 va 0)) ∧
    (Sys2Proof.Claims.DmaRecordAt c f s → 4 ≤ q.length →
      Sys2Proof.Machine.exec (.dmais c f) s
        = .next (Sys2Proof.Claims.waits c s (Sys2Proof.Machine.encR 0x2F 0 f) (.dmaFull ch))) ∧
    (∀ k len, Sys2Proof.Claims.DmaRecordAt c f s → q.length < 4 → Sys2Proof.Machine.dmaLen b = some (k, len) →
      Sys2Proof.Machine.dmaFields b = true → s.hub.dmaLocalOk core p b 0 (Sys2Proof.Machine.dmaF b 0x10 4) = true →
      s.hub.dmaLocalOk core p b 1 len = true → s.dmaFmtOk core x b = true →
      (∀ t, x.tag = some t → s.hub.halted p (some t) = false) → Sys2Proof.Claims.StoresDone c s →
      ∃ r : Sys2Proof.Machine.DmaReq, r.core = core ∧ r.body = b ∧ r.launch = x.launch - 1 ∧ (r.tag = none ∨ r.tag = x.tag) ∧
        Sys2Proof.Machine.exec (.dmais c f) s
          = .next (Sys2Proof.Claims.retired c
              (s.onHub (fun h => { h with
                sea := { h.sea with dma := Sys2Proof.Machine.tset [] h.sea.dma (16 * (core / 128) + ch) (q ++ [r]) } })) x.adv)) ∧
    Sys2Proof.Claims.Retires (.dmast c f) c s
      (Sys2Proof.Claims.wroteS x f.rd (BitVec.ofNat 64
        ((List.range 16).map (fun i => if Sys2Proof.Claims.channelQueue c s i = [] then 0 else 2 ^ i)).sum)) ∧
    (ch ≤ 15 → q = [] → Sys2Proof.Claims.Retires (.dmawt c f) c s x.adv) ∧
    (ch ≤ 15 → q ≠ [] → Sys2Proof.Claims.Retires (.dmawt c f) c s { x.adv with run := .waitDma ch }) ∧
    (15 < ch → Sys2Proof.Machine.exec (.dmawt c f) s = .next (Sys2Proof.Claims.raised c s x (Sys2Proof.Machine.encR 0x2F 2 f) 0x07 0 0))

namespace Sys2Proof.Claims

open Sys2Proof Machine

/-- Element `i` of a register in a format `w` bits wide (R109). -/
def elt (w : Nat) (v : Word256) (i : Nat) : Nat := v.toNat / 2 ^ (w * i) % 2 ^ w

/-- The flags of the active elements of `n`, joined (R136). -/
def joined (p : Word64) (n : Nat) (g : Nat → FFlags) : FFlags :=
  (List.range n).foldl (fun a i => if active p n i then a.or (g i) else a) FFlags.none

/-- An element-wise instruction over `n` elements of `w` bits: with no enabled flag set it retires, every active element of vd the result
of `g` on those of va, vb and vd, every inactive one as before, and the flags of the active elements in FFLAGS; with an enabled flag set it
raises NUMERIC and writes no element (R109, R136, R137). -/
def Elementwise (i : Instr) (word : Nat) (c : CoreId) (f : VForm) (s : State) (w n : Nat) (g : Nat → Nat → Nat → Nat × FFlags) : Prop :=
  let x := coreOf c s
  let old := x.v f.vd.toNat
  let p := x.p f.pg
  let r (j : Nat) : Nat × FFlags := g (elt w (x.v f.va.toNat) j) (elt w (x.v f.vb.toNat) j) (elt w old j)
  let fl := joined p n (fun j => (r j).2)
  (fl.toNat &&& x.fexc = 0 → ∃ v, Retires i c s (wroteV (x.orFlags fl) f.vd v) ∧
    ∀ j < n, elt w v j = if active p n j then (r j).1 % 2 ^ w else elt w old j) ∧
  (fl.toNat &&& x.fexc ≠ 0 → exec i s = .next (raised c s (x.orFlags fl) word 0x08 0 0))

/-- FMT 0x0-0x2: FP32, BF16, FP16 with their widths and element counts (R109). -/
def floatFmts : List (BitVec 4 × FltFmt × Nat × Nat) := [(0, fp32, 32, 8), (1, bf16, 16, 16), (2, fp16, 16, 16)]

/-- VFP and VFMA: major, function, constructor, and the result of elements of va, vb and vd (R123, R124). -/
def vfpRows : List (Nat × Nat × (CoreId → VForm → Instr) × (FltFmt → Core → Nat → Nat → Nat → Nat × FFlags)) :=
  [(0x30, 0, Instr.vadd, fun k c a b _ => fpArith .add k c.ftz c.arithRound a b),
   (0x30, 1, Instr.vsub, fun k c a b _ => fpArith .sub k c.ftz c.arithRound a b),
   (0x30, 2, Instr.vmul, fun k c a b _ => fpArith .mul k c.ftz c.arithRound a b),
   (0x30, 3, Instr.vmin, fun k c a b _ => fpMinMax false k c.ftz a b),
   (0x30, 4, Instr.vmax, fun k c a b _ => fpMinMax true k c.ftz a b),
   (0x30, 5, Instr.vabs, fun k c a _ _ =>
      let v := (fpIn k c.ftz a).1
      fpOut k c.ftz c.arithRound (if v.sign then v.neg else v) (nvIf (fpIn k c.ftz a).2)),
   (0x30, 6, Instr.vneg, fun k c a _ _ => fpOut k c.ftz c.arithRound (fpIn k c.ftz a).1.neg (nvIf (fpIn k c.ftz a).2)),
   (0x30, 7, Instr.vdiv, fun k c a b _ => fpArith .div k c.ftz c.arithRound a b),
   (0x30, 8, Instr.vsqrt, fun k c a _ _ => fpSqrt k c.ftz c.arithRound a),
   (0x31, 0, Instr.vfma, fun k c a b d => fpFma k c.ftz c.arithRound false false a b d),
   (0x31, 1, Instr.vfms, fun k c a b d => fpFma k c.ftz c.arithRound false true a b d),
   (0x31, 2, Instr.vfnma, fun k c a b d => fpFma k c.ftz c.arithRound true false a b d)]

/-- The counter of vector FMAs of the core's floe has counted one (log entry 43 for VFMS and VFNMA). -/
def countsFma (c : CoreId) (s : State) : State := s.onHub (·.wrap (Reg.flcPerfVfmaCount (coreNum c / 128)) 1)

/-- VSPEC: function, constructor, and the function (R125). -/
def vspecRows : List (Nat × (CoreId → VForm → Instr) × SpecFn) :=
  [(0, Instr.vrcp, .rcp), (1, Instr.vrsqrt, .rsqrt), (2, Instr.vexp2, .exp2), (3, Instr.vlog2, .log2), (4, Instr.vtanh, .tanh)]

/-- The BF16 result of VSPEC: the FP32 result on the widened input, rounded to nearest even (R125). -/
def specBf16 (fn : SpecFn) (ftz : Bool) (x : Nat) : Nat × FFlags :=
  let r := spec32 fn ftz (x * 2 ^ 16)
  let q := bf16.enc true (fp32.dec r.1) .rne 0
  (q.1, r.2.or q.2)

/-- VINT: function, constructor, and one element of the result from elements `w` bits wide (Table 5 of 05; the amount of a shift modulo the
width is log entry 15). -/
def vintRows : List (Nat × (CoreId → VForm → Instr) × (Nat → Nat → Nat → Nat)) :=
  [(0, Instr.vintAdd, fun w a b => (a + b) % 2 ^ w), (1, Instr.vintSub, fun w a b => (a + 2 ^ w - b) % 2 ^ w),
   (2, Instr.vintMul, fun w a b => a * b % 2 ^ w), (3, Instr.vintAnd, fun _ a b => a &&& b), (4, Instr.vintOr, fun _ a b => a ||| b),
   (5, Instr.vintXor, fun _ a b => a ^^^ b), (6, Instr.vintSll, fun w a b => a <<< (b % w) % 2 ^ w),
   (7, Instr.vintSrl, fun w a b => a >>> (b % w)),
   (8, Instr.vintSra, fun w a b => ((BitVec.ofNat w a).sshiftRight (b % w)).toNat),
   (9, Instr.vintMin, fun w a b => if (BitVec.ofNat w a).toInt ≤ (BitVec.ofNat w b).toInt then a else b),
   (10, Instr.vintMax, fun w a b => if (BitVec.ofNat w a).toInt < (BitVec.ofNat w b).toInt then b else a),
   (11, Instr.vintMinu, fun _ a b => min a b), (12, Instr.vintMaxu, fun _ a b => max a b),
   (13, Instr.vintAdds, fun w a b =>
      (BitVec.ofInt w (max (-(2 ^ (w - 1) : Nat) : Int) (min ((2 ^ (w - 1) : Nat) - 1 : Int) ((BitVec.ofNat w a).toInt + (BitVec.ofNat w b).toInt)))).toNat)]

end Sys2Proof.Claims

/-- VFP, VFMA and VSPEC on their formats give each active element its IEEE 754 or special-function result and join its flags; another
format code raises ILLEGAL (R109, R115, R123, R124, R125, R136, R137). -/
def Sys2Proof.Claims.VectorFloatInstructionsWorkByElement : Prop :=
  ∀ (c : Sys2Proof.CoreId) (f : Sys2Proof.VForm) (s : Sys2Proof.Machine.State), Sys2Proof.Claims.Ready c s →
    let x := Sys2Proof.Claims.coreOf c s
    (∀ e ∈ Sys2Proof.Claims.vfpRows, e.1 = 0x30 → ∀ k ∈ Sys2Proof.Claims.floatFmts, f.fmt = k.1 →
      Sys2Proof.Claims.Elementwise (e.2.2.1 c f) (Sys2Proof.Machine.encV e.1 e.2.1 f) c f s k.2.2.1 k.2.2.2 (e.2.2.2 k.2.1 x)) ∧
    (∀ e ∈ Sys2Proof.Claims.vfpRows, e.1 = 0x30 → 3 ≤ f.fmt.toNat →
      Sys2Proof.Machine.exec (e.2.2.1 c f) s
        = .next (Sys2Proof.Claims.raised c s x (Sys2Proof.Machine.encV e.1 e.2.1 f) 0x01 0 0)) ∧
    (∀ e ∈ Sys2Proof.Claims.vspecRows,
      let i := e.2.1 c f
      let w := Sys2Proof.Machine.encV 0x35 e.1 f
      (f.fmt = 0 → Sys2Proof.Claims.Elementwise i w c f s 32 8 (fun a _ _ => Sys2Proof.Machine.spec32 e.2.2 x.ftz a)) ∧
      (f.fmt = 1 → Sys2Proof.Claims.Elementwise i w c f s 16 16 (fun a _ _ => Sys2Proof.Claims.specBf16 e.2.2 x.ftz a)) ∧
      (2 ≤ f.fmt.toNat → Sys2Proof.Machine.exec i s = .next (Sys2Proof.Claims.raised c s x w 0x01 0 0)))

/-- VFMA (va × vb + vd), VFMS (va × vb − vd) and VFNMA (−va × vb + vd) on FMT 0x0-0x2 round each active element once, join its flags, and
count in the floe's FMA counter (R123, R136, R137, Table 5 of 05). -/
def Sys2Proof.Claims.VectorMultiplyAddsRoundOnce : Prop :=
  ∀ (c : Sys2Proof.CoreId) (f : Sys2Proof.VForm) (s : Sys2Proof.Machine.State), Sys2Proof.Claims.Ready c s →
    let x := Sys2Proof.Claims.coreOf c s
    let old := x.v f.vd.toNat
    let p := x.p f.pg
    ∀ e ∈ Sys2Proof.Claims.vfpRows, e.1 = 0x31 → ∀ k ∈ Sys2Proof.Claims.floatFmts, f.fmt = k.1 →
      let w := k.2.2.1
      let n := k.2.2.2
      let r (j : Nat) : Nat × Sys2Proof.Machine.FFlags :=
        e.2.2.2 k.2.1 x (Sys2Proof.Claims.elt w (x.v f.va.toNat) j) (Sys2Proof.Claims.elt w (x.v f.vb.toNat) j) (Sys2Proof.Claims.elt w old j)
      let fl := Sys2Proof.Claims.joined p n (fun j => (r j).2)
      (fl.toNat &&& x.fexc = 0 → ∃ v,
        Sys2Proof.Machine.exec (e.2.2.1 c f) s
          = .next (Sys2Proof.Claims.retired c (Sys2Proof.Claims.countsFma c s) (Sys2Proof.Claims.wroteV (x.orFlags fl) f.vd v)) ∧
        ∀ j < n, Sys2Proof.Claims.elt w v j
          = if Sys2Proof.Machine.active p n j then (r j).1 % 2 ^ w else Sys2Proof.Claims.elt w old j) ∧
      (fl.toNat &&& x.fexc ≠ 0 →
        Sys2Proof.Machine.exec (e.2.2.1 c f) s
          = .next (Sys2Proof.Claims.raised c (Sys2Proof.Claims.countsFma c s) (x.orFlags fl) (Sys2Proof.Machine.encV 0x31 e.2.1 f) 0x08 0 0))

/-- VINT on 8, 16, 32 and 64-bit elements gives each active element its result and sets no flag; another width code raises ILLEGAL
(R109, R115, Table 5 of 05). -/
def Sys2Proof.Claims.VectorIntegerInstructionsWorkByElement : Prop :=
  ∀ (c : Sys2Proof.CoreId) (f : Sys2Proof.VForm) (s : Sys2Proof.Machine.State), Sys2Proof.Claims.Ready c s →
    let x := Sys2Proof.Claims.coreOf c s
    ∀ e ∈ Sys2Proof.Claims.vintRows,
      (f.fmt.toNat < 4 →
        let w := 8 * 2 ^ f.fmt.toNat
        ∃ v, Sys2Proof.Claims.Retires (e.2.1 c f) c s (Sys2Proof.Claims.wroteV x f.vd v) ∧
          ∀ j < 256 / w, Sys2Proof.Claims.elt w v j
            = if Sys2Proof.Machine.active (x.p f.pg) (256 / w) j
              then e.2.2 w (Sys2Proof.Claims.elt w (x.v f.va.toNat) j) (Sys2Proof.Claims.elt w (x.v f.vb.toNat) j)
              else Sys2Proof.Claims.elt w (x.v f.vd.toNat) j) ∧
      (4 ≤ f.fmt.toNat →
        Sys2Proof.Machine.exec (e.2.1 c f) s
          = .next (Sys2Proof.Claims.raised c s x (Sys2Proof.Machine.encV 0x32 e.1 f) 0x01 0 0))

/-- VFP, VFMA and VSPEC on their formats give each active element its IEEE 754 or special-function result and join its flags; another format code
raises ILLEGAL (R109, R115, R123, R124, R125, R136, R137). VFMA (va × vb + vd), VFMS (va × vb − vd) and VFNMA (−va × vb + vd) on FMT 0x0-0x2
round each active element once, join its flags, and count in the floe's FMA counter (R123, R136, R137, Table 5 of 05). VINT on 8, 16, 32 and
64-bit elements gives each active element its result and sets no flag; another width code raises ILLEGAL (R109, R115, Table 5 of 05). -/
def Obligations.VectorArithmeticWorksByElement : Prop :=
  Sys2Proof.Claims.VectorFloatInstructionsWorkByElement ∧ Sys2Proof.Claims.VectorMultiplyAddsRoundOnce ∧ Sys2Proof.Claims.VectorIntegerInstructionsWorkByElement

namespace Sys2Proof.Claims

open Sys2Proof Machine

/-- The core with `v` written to the predicate register `pd` at the next instruction. -/
def wroteP (x : Core) (pd : BitVec 3) (v : Word64) : Core := (x.setP pd v).adv

/-- The float comparisons of VCMP: function, constructor, kind. -/
def vcmpRows : List (Nat × (CoreId → VForm → Instr) × FCmp) :=
  [(0, Instr.vcmpEq, .eq), (1, Instr.vcmpNe, .ne), (2, Instr.vcmpLt, .lt), (3, Instr.vcmpLe, .le), (4, Instr.vcmpGt, .gt),
   (5, Instr.vcmpGe, .ge), (6, Instr.vcmpUnord, .unord)]

/-- The signed comparisons of VCMP: function, constructor, condition. -/
def vcmpsRows : List (Nat × (CoreId → VForm → Instr) × (Int → Int → Bool)) :=
  [(8, Instr.vcmpSeq, fun a b => decide (a = b)), (9, Instr.vcmpSne, fun a b => decide (a ≠ b)), (10, Instr.vcmpSlt, fun a b => decide (a < b)),
   (11, Instr.vcmpSle, fun a b => decide (a ≤ b)), (12, Instr.vcmpSgt, fun a b => decide (b < a)), (13, Instr.vcmpSge, fun a b => decide (b ≤ a))]

/-- The bits of pd after a comparison over `n` elements: the result of each active element, the old bit of an inactive one, zero at and above
`n` (R125). -/
def ComparedBits (p old v : Word64) (n : Nat) (r : Nat → Bool) : Prop :=
  ∀ j < 64, v.getLsbD j = if j < n then (if active p n j then r j else old.getLsbD j) else false

/-- PAND to PNOT: function, constructor, and the result on pa and pb. -/
def predRows : List (Nat × (CoreId → PForm → Instr) × (Word64 → Word64 → Word64)) :=
  [(0, Instr.pand, fun a b => a &&& b), (1, Instr.por, fun a b => a ||| b), (2, Instr.pxor, fun a b => a ^^^ b),
   (3, Instr.pandn, fun a b => a &&& ~~~b)]

end Sys2Proof.Claims

/-- VCMP writes the comparison of each active element to its bit of pd, clears the bits at and above n and keeps the bits of inactive
elements; its flags join FFLAGS or raise NUMERIC; a format or width code that is not permitted raises ILLEGAL (R115, R123, R136, R137,
and the paragraph after R125). -/
def Sys2Proof.Claims.ComparisonsWritePredicateBits : Prop :=
  ∀ (c : Sys2Proof.CoreId) (f : Sys2Proof.VForm) (s : Sys2Proof.Machine.State), Sys2Proof.Claims.Ready c s →
    let x := Sys2Proof.Claims.coreOf c s
    let p := x.p f.pg
    let pd := f.vd.setWidth 3
    (∀ e ∈ Sys2Proof.Claims.vcmpRows,
      let i := e.2.1 c f
      let word := Sys2Proof.Machine.encV 0x33 e.1 f
      (∀ k ∈ Sys2Proof.Claims.floatFmts, f.fmt = k.1 →
        let w := k.2.2.1
        let n := k.2.2.2
        let r (j : Nat) := Sys2Proof.Machine.fpCmp e.2.2 k.2.1 x.ftz (Sys2Proof.Claims.elt w (x.v f.va.toNat) j) (Sys2Proof.Claims.elt w (x.v f.vb.toNat) j)
        let fl := Sys2Proof.Claims.joined p n (fun j => (r j).2)
        (fl.toNat &&& x.fexc = 0 → ∃ v, Sys2Proof.Claims.Retires i c s (Sys2Proof.Claims.wroteP (x.orFlags fl) pd v) ∧
          Sys2Proof.Claims.ComparedBits p (x.p pd) v n (fun j => (r j).1)) ∧
        (fl.toNat &&& x.fexc ≠ 0 → Sys2Proof.Machine.exec i s = .next (Sys2Proof.Claims.raised c s (x.orFlags fl) word 0x08 0 0))) ∧
      (3 ≤ f.fmt.toNat → Sys2Proof.Machine.exec i s = .next (Sys2Proof.Claims.raised c s x word 0x01 0 0))) ∧
    (∀ e ∈ Sys2Proof.Claims.vcmpsRows,
      (f.fmt.toNat < 4 →
        let w := 8 * 2 ^ f.fmt.toNat
        ∃ v, Sys2Proof.Claims.Retires (e.2.1 c f) c s (Sys2Proof.Claims.wroteP x pd v) ∧
          Sys2Proof.Claims.ComparedBits p (x.p pd) v (256 / w) (fun j =>
            e.2.2 (BitVec.ofNat w (Sys2Proof.Claims.elt w (x.v f.va.toNat) j)).toInt (BitVec.ofNat w (Sys2Proof.Claims.elt w (x.v f.vb.toNat) j)).toInt)) ∧
      (4 ≤ f.fmt.toNat →
        Sys2Proof.Machine.exec (e.2.1 c f) s = .next (Sys2Proof.Claims.raised c s x (Sys2Proof.Machine.encV 0x33 e.1 f) 0x01 0 0)))

/-- PAND, POR, PXOR, PANDN and PNOT combine predicates, PFROM and PTO move between s and p registers, PFIRST sets the low s[a] bits; an
operand field with reserved bits raises ILLEGAL (R108, R114, R115, Table 5 of 05). -/
def Sys2Proof.Claims.PredicateInstructionsWriteTheirResult : Prop :=
  ∀ (c : Sys2Proof.CoreId) (f : Sys2Proof.PForm) (s : Sys2Proof.Machine.State), Sys2Proof.Claims.Ready c s →
    let x := Sys2Proof.Claims.coreOf c s
    let pa := x.p (f.a.setWidth 3)
    let pb := x.p (f.b.setWidth 3)
    let pd := f.d.setWidth 3
    (f.res = 0 → f.d.toNat < 8 → f.a.toNat < 8 →
      (∀ e ∈ Sys2Proof.Claims.predRows, f.b.toNat < 8 →
        Sys2Proof.Claims.Retires (e.2.1 c f) c s (Sys2Proof.Claims.wroteP x pd (e.2.2 pa pb))) ∧
      Sys2Proof.Claims.Retires (.pnot c f) c s (Sys2Proof.Claims.wroteP x pd (~~~pa))) ∧
    (f.res = 0 → f.d.toNat < 8 →
      Sys2Proof.Claims.Retires (.pfrom c f) c s (Sys2Proof.Claims.wroteP x pd (x.s f.a)) ∧
      ∃ v, Sys2Proof.Claims.Retires (.pfirst c f) c s (Sys2Proof.Claims.wroteP x pd v) ∧
        ∀ j < 64, v.getLsbD j = decide (j < (x.s f.a).toNat)) ∧
    (f.res = 0 → f.a.toNat < 8 → Sys2Proof.Claims.Retires (.pto c f) c s (Sys2Proof.Claims.wroteS x f.d pa)) ∧
    (f.res ≠ 0 ∨ 8 ≤ f.d.toNat →
      (∀ e ∈ Sys2Proof.Claims.predRows,
        Sys2Proof.Machine.exec (e.2.1 c f) s = .next (Sys2Proof.Claims.raised c s x (Sys2Proof.Machine.encP e.1 f) 0x01 0 0)) ∧
      Sys2Proof.Machine.exec (.pnot c f) s = .next (Sys2Proof.Claims.raised c s x (Sys2Proof.Machine.encP 4 f) 0x01 0 0) ∧
      Sys2Proof.Machine.exec (.pfrom c f) s = .next (Sys2Proof.Claims.raised c s x (Sys2Proof.Machine.encP 5 f) 0x01 0 0) ∧
      Sys2Proof.Machine.exec (.pfirst c f) s = .next (Sys2Proof.Claims.raised c s x (Sys2Proof.Machine.encP 7 f) 0x01 0 0)) ∧
    (f.res ≠ 0 ∨ 8 ≤ f.a.toNat →
      Sys2Proof.Machine.exec (.pto c f) s = .next (Sys2Proof.Claims.raised c s x (Sys2Proof.Machine.encP 6 f) 0x01 0 0))

/-- VCMP writes the comparison of each active element to its bit of pd, clears the bits at and above n and keeps the bits of inactive elements;
its flags join FFLAGS or raise NUMERIC; a format or width code that is not permitted raises ILLEGAL (R115, R123, R136, R137, and the paragraph
after R125). PAND, POR, PXOR, PANDN and PNOT combine predicates, PFROM and PTO move between s and p registers, PFIRST sets the low s[a] bits; an
operand field with reserved bits raises ILLEGAL (R108, R114, R115, Table 5 of 05). -/
def Obligations.PredicatesAreComparedAndCombined : Prop :=
  Sys2Proof.Claims.ComparisonsWritePredicateBits ∧ Sys2Proof.Claims.PredicateInstructionsWriteTheirResult

namespace Sys2Proof.Claims

open Sys2Proof Machine

/-- No flag of the core is enabled to raise NUMERIC (FCTRL.FEXC_EN zero). -/
def NoTraps (x : Core) : Prop := x.fexc = 0

/-- The core after a vector instruction that set the flags `fl`, left the generator at `st` and wrote `v` to vd. -/
def wroteQ (x : Core) (fl : FFlags) (st : Word64) (vd : BitVec 5) (v : Word256) : Core :=
  (({ x.orFlags fl with srstate := st }).setV vd.toNat v).adv

/-- VRED: function, constructor, operation, and the result when no element is active (R130). -/
def vredRows : List (Nat × (CoreId → VForm → Instr) × RedOp × Nat) :=
  [(0, Instr.vredSum, .sum, 0), (1, Instr.vredMax, .max, 0xFF800000), (2, Instr.vredMin, .min, 0x7F800000), (3, Instr.vredSumsq, .sumsq, 0)]

/-- VQB and VQBX: major, constructor, whether escapes are written. -/
def vqbRows : List (Nat × (CoreId → VCForm → Instr) × Bool) := [(0x39, Instr.vqb, false), (0x3A, Instr.vqbx, true)]

end Sys2Proof.Claims

/-- VDOT leaves in each active lane j the lane's addend plus the products of elements j × g to j × g + g − 1, rounded once or saturated, and
keeps inactive lanes; FMT 0x0 and above 0xB raise ILLEGAL. VRED leaves its reduction in lane 0 and zero in the others: the canonical NaN if
an active element is a NaN, its neutral value if none is active (R115, R129, R130). -/
def Sys2Proof.Claims.DotProductsAndReductions : Prop :=
  ∀ (c : Sys2Proof.CoreId) (f : Sys2Proof.VForm) (s : Sys2Proof.Machine.State), Sys2Proof.Claims.Ready c s →
    let x := Sys2Proof.Claims.coreOf c s
    let p := x.p f.pg
    let k := f.fmt.toNat
    let w := Sys2Proof.Machine.fmtBits k
    let g := Sys2Proof.Machine.dotGroup k
    let ops (r : BitVec 5) (j : Nat) : List Nat := (List.range g).map (fun m => Sys2Proof.Claims.elt w (x.v r.toNat) (j * g + m))
    let lane (j : Nat) : Nat × Sys2Proof.Machine.FFlags :=
      match Sys2Proof.Machine.fltOf k with
      | some t => Sys2Proof.Machine.dotFloat t x.arithRound (Sys2Proof.Claims.elt 32 (x.v f.vd.toNat) j) (ops f.va j) (ops f.vb j)
      | none => Sys2Proof.Machine.dotInt k (Sys2Proof.Claims.elt 32 (x.v f.vd.toNat) j) (ops f.va j) (ops f.vb j)
    (Sys2Proof.Claims.NoTraps x → 1 ≤ k → k < 12 → ∃ v,
      Sys2Proof.Claims.Retires (.vdot c f) c s (Sys2Proof.Claims.wroteV (x.orFlags (Sys2Proof.Claims.joined p 8 (fun j => (lane j).2))) f.vd v) ∧
        ∀ j < 8, Sys2Proof.Claims.elt 32 v j
          = if Sys2Proof.Machine.active p 8 j then (lane j).1 % 2 ^ 32 else Sys2Proof.Claims.elt 32 (x.v f.vd.toNat) j) ∧
    (k = 0 ∨ 12 ≤ k →
      Sys2Proof.Machine.exec (.vdot c f) s = .next (Sys2Proof.Claims.raised c s x (Sys2Proof.Machine.encV 0x36 0 f) 0x01 0 0)) ∧
    (∀ e ∈ Sys2Proof.Claims.vredRows, Sys2Proof.Claims.NoTraps x → ∀ t ∈ Sys2Proof.Claims.floatFmts, f.fmt = t.1 →
      let n := t.2.2.2
      let act (j : Nat) : Bool := Sys2Proof.Machine.active p n j
      let a (j : Nat) : Nat := Sys2Proof.Claims.elt t.2.2.1 (x.v f.va.toNat) j
      let nan : Bool := (List.range n).any (fun j => act j && decide (t.2.1.dec (a j) = .nan))
      let a32 (j : Nat) : Nat := (Sys2Proof.Machine.fp32.enc true (t.2.1.dec (a j)) .rne 0).1
      let leaves : List (Option Nat) := (List.range n).map (fun j => if act j then some (a32 j) else if e.2.2.1 = .sum then some 0 else none)
      let writes (r : Nat × Sys2Proof.Machine.FFlags) : Prop :=
        Sys2Proof.Claims.Retires (e.2.1 c f) c s (Sys2Proof.Claims.wroteV (x.orFlags r.2) f.vd (BitVec.ofNat 256 r.1))
      (nan = true → writes (0x7FC00000, Sys2Proof.Machine.nvIf ((List.range n).any (fun j => act j && t.2.1.isSnan (a j))))) ∧
      (nan = false → e.2.2.1 ≠ .sumsq →
        let r := Sys2Proof.Machine.redTree e.2.2.1 (Nat.log2 n) leaves
        writes (r.1.getD e.2.2.2, r.2)) ∧
      (nan = false → e.2.2.1 = .sumsq →
        let l := Sys2Proof.Machine.sumsqLevel ((List.range n).map (fun j => if act j then some (t.2.1.dec (a j)) else none))
        let r := Sys2Proof.Machine.redTree .sum (Nat.log2 n - 1) l.1
        writes (r.1.getD e.2.2.2, l.2.or r.2))) ∧
    (∀ e ∈ Sys2Proof.Claims.vredRows, 3 ≤ k →
      Sys2Proof.Machine.exec (e.2.1 c f) s = .next (Sys2Proof.Claims.raised c s x (Sys2Proof.Machine.encV 0x3C e.1 f) 0x01 0 0))

/-- VCVT converts each active element between formats whose counts differ by at most eight, into or from the part that PART names, and
keeps every other element of vd; VQB and VQBX write a block's packed elements to vd and its scale word to s[X], offered to Dewpoint under a
tag, and raise PRECISION_HALT, code 0x0B, under a halted one; VDQB writes a block's values to the group at vd; what R126, R127 and R128 do
not permit raises ILLEGAL (R115, R126, R127, R128, R134, R152). -/
def Sys2Proof.Claims.ConversionAndQuantisation : Prop :=
  ∀ (c : Sys2Proof.CoreId) (f : Sys2Proof.VCForm) (s : Sys2Proof.Machine.State), Sys2Proof.Claims.Ready c s →
    let x := Sys2Proof.Claims.coreOf c s
    let p := x.p f.pg
    let sf := f.sfmt.toNat
    let df := f.dfmt.toNat
    let ns := Sys2Proof.Machine.eltCount sf
    let nd := Sys2Proof.Machine.eltCount df
    let part := f.x.toNat % 8
    let halted := s.hub.halted (s.hub.corePart x) x.tag
    let legal := sf < 12 ∧ df < 12 ∧ max ns nd ≤ 8 * min ns nd ∧ part < max ns nd / min ns nd
    (Sys2Proof.Claims.NoTraps x → legal →
      let m := min ns nd
      let from' := if nd < ns then part * nd else 0
      let to' := if ns < nd then part * ns else 0
      let mode := Sys2Proof.Machine.cvtMode x f.x
      let d := Sys2Proof.Machine.coreDraws x mode m
      ∃ fl v, Sys2Proof.Claims.Retires (.vcvt c f) c s (Sys2Proof.Claims.wroteQ x fl d.2 f.vd v) ∧
        ∀ j < nd, Sys2Proof.Claims.elt (Sys2Proof.Machine.fmtBits df) v j
          = if to' ≤ j ∧ j < to' + m ∧ Sys2Proof.Machine.active p nd j = true then
              let a := Sys2Proof.Claims.elt (Sys2Proof.Machine.fmtBits sf) (x.v f.va.toNat) (from' + (j - to'))
              if sf = df then a
              else (Sys2Proof.Machine.encodeElt df (Sys2Proof.Machine.decodeElt sf a) mode (d.1.getD (j - to') 0)).1 % 2 ^ Sys2Proof.Machine.fmtBits df
            else Sys2Proof.Claims.elt (Sys2Proof.Machine.fmtBits df) (x.v f.vd.toNat) j) ∧
    (¬ legal → Sys2Proof.Machine.exec (.vcvt c f) s
      = .next (Sys2Proof.Claims.raised c s x (Sys2Proof.Machine.encVC 0x38 f) 0x01 0 0)) ∧
    (∀ e ∈ Sys2Proof.Claims.vqbRows,
      let b := Sys2Proof.Machine.vqbBlock e.2.2 f x
      let w := Sys2Proof.Machine.encVC e.1 f
      let y := ((({ x.orFlags b.2.1 with srstate := b.2.2 }).setV f.vd.toNat
        (Sys2Proof.Machine.ofElems (Sys2Proof.Machine.fmtBits df) b.1.codes)).setS f.x (BitVec.ofNat 64 b.1.scaleWord)).adv
      let legal' := sf < 3 ∧ 3 ≤ df ∧ df < 12 ∧ f.va.toNat % (if sf = 0 then 4 else 2) = 0 ∧ (e.2.2 = true → df ≠ 3 ∧ df ≠ 4 ∧ df ≠ 8)
      (¬ legal' → Sys2Proof.Machine.exec (e.2.1 c f) s = .next (Sys2Proof.Claims.raised c s x w 0x01 0 0)) ∧
      (legal' → halted = true → Sys2Proof.Machine.exec (e.2.1 c f) s = .next (Sys2Proof.Claims.raised c s x w 0x0B 0 0)) ∧
      (legal' → halted = false → Sys2Proof.Claims.NoTraps x → x.tag = none → Sys2Proof.Claims.Retires (e.2.1 c f) c s y) ∧
      (∀ t, legal' → halted = false → Sys2Proof.Claims.NoTraps x → x.tag = some t → s.hub.corePart x < 24 →
        Sys2Proof.Machine.exec (e.2.1 c f) s
          = .next (Sys2Proof.Claims.retired c
              (s.onHub (·.dewCore (Sys2Proof.Machine.coreNum c) (s.hub.corePart x) t (Sys2Proof.Machine.vqbSource f x)
                (Sys2Proof.Machine.dequantise df b.1))) y))) ∧
    (let n := if df = 0 then 4 else 2
     let legal' := 3 ≤ sf ∧ sf < 12 ∧ df < 3 ∧ f.vd.toNat % n = 0
     (¬ legal' → Sys2Proof.Machine.exec (.vdqb c f) s
       = .next (Sys2Proof.Claims.raised c s x (Sys2Proof.Machine.encVC 0x3B f) 0x01 0 0)) ∧
     (legal' → Sys2Proof.Claims.NoTraps x →
       let w := (x.s f.x).toNat
       let b := Sys2Proof.Machine.QBlock.of (Sys2Proof.Machine.elems (Sys2Proof.Machine.fmtBits sf) 32 (x.v f.va.toNat)) (w % 256) (w / 256 % 2 ^ 28)
       let d := Sys2Proof.Machine.coreDraws x x.convRound 32
       ∃ y, Sys2Proof.Claims.Retires (.vdqb c f) c s y ∧ y.pc = x.pc + 4 ∧ y.sr = x.sr ∧ y.pr = x.pr ∧
         (∀ r, r < f.vd.toNat ∨ f.vd.toNat + n ≤ r → y.v r = x.v r) ∧
         ∀ j < 32, Sys2Proof.Machine.vgroup y f.vd.toNat n / 2 ^ (Sys2Proof.Machine.fmtBits df * j) % 2 ^ Sys2Proof.Machine.fmtBits df
           = if Sys2Proof.Machine.active p 32 j then
               (Sys2Proof.Machine.encodeElt df ((Sys2Proof.Machine.dequantise sf b).getD j .nan) x.convRound (d.1.getD j 0)).1
                 % 2 ^ Sys2Proof.Machine.fmtBits df
             else Sys2Proof.Machine.vgroup x f.vd.toNat n / 2 ^ (Sys2Proof.Machine.fmtBits df * j) % 2 ^ Sys2Proof.Machine.fmtBits df))

/-- VDOT leaves in each active lane j the lane's addend plus the products of elements j × g to j × g + g − 1, rounded once or saturated, and
keeps inactive lanes; FMT 0x0 and above 0xB raise ILLEGAL. VRED leaves its reduction in lane 0 and zero in the others: the canonical NaN if an
active element is a NaN, its neutral value if none is active (R115, R129, R130). VCVT converts each active element between formats whose counts
differ by at most eight, into or from the part that PART names, and keeps every other element of vd; VQB and VQBX write a block's packed elements
to vd and its scale word to s[X], offered to Dewpoint under a tag, and raise PRECISION_HALT, code 0x0B, under a halted one; VDQB writes a block's
values to the group at vd; what R126, R127 and R128 do not permit raises ILLEGAL (R115, R126, R127, R128, R134, R152). -/
def Obligations.NumericReductionsAndConversions : Prop :=
  Sys2Proof.Claims.DotProductsAndReductions ∧ Sys2Proof.Claims.ConversionAndQuantisation

namespace Sys2Proof.Claims

open Sys2Proof Machine

/-- The VPERM instructions that write vd: function, constructor, and element `j` of the result of `n` elements of `w` bits (Table 5 of 05 and
the paragraph after R130). -/
def permRows : List (Nat × (CoreId → VForm → Instr) × (Core → VForm → Nat → Nat → Nat → Nat)) :=
  [(1, Instr.vbcst, fun x f w _ _ => (x.s f.va).toNat % 2 ^ w),
   (4, Instr.vslide, fun x f w n j => if j + (x.s f.vb).toNat < n then elt w (x.v f.va.toNat) (j + (x.s f.vb).toNat) else 0),
   (5, Instr.vziplo, fun x f w _ j => elt w (if j % 2 = 0 then x.v f.va.toNat else x.v f.vb.toNat) (j / 2)),
   (6, Instr.vziphi, fun x f w n j => elt w (if j % 2 = 0 then x.v f.va.toNat else x.v f.vb.toNat) (n / 2 + j / 2)),
   (7, Instr.vmov, fun x f w _ j => elt w (x.v f.va.toNat) j)]

end Sys2Proof.Claims

/-- VBCST, VSLIDE, VZIPLO, VZIPHI and VMOV write each active element of vd and keep the inactive ones, VPERMB selects the bytes of va that vb
names, VGET reads an element into s[vd] and VSET writes one from s[va]; an index at or above n and a width code that is not listed raise
ILLEGAL (R109, R115, Table 5 of 05 and the paragraph after R130). -/
def Obligations.PermutationsMoveElements : Prop :=
  ∀ (c : Sys2Proof.CoreId) (f : Sys2Proof.VForm) (s : Sys2Proof.Machine.State), Sys2Proof.Claims.Ready c s →
    let x := Sys2Proof.Claims.coreOf c s
    let p := x.p f.pg
    let w := 8 * 2 ^ f.fmt.toNat
    let n := 256 / w
    let old := x.v f.vd.toNat
    let ix := (x.s f.vb).toNat
    let illegal (fn : Nat) := Sys2Proof.Claims.raised c s x (Sys2Proof.Machine.encV 0x3D fn f) 0x01 0 0
    (f.fmt.toNat < 4 →
      (∀ e ∈ Sys2Proof.Claims.permRows, ∃ v, Sys2Proof.Claims.Retires (e.2.1 c f) c s (Sys2Proof.Claims.wroteV x f.vd v) ∧
        ∀ j < n, Sys2Proof.Claims.elt w v j = if Sys2Proof.Machine.active p n j then e.2.2 x f w n j else Sys2Proof.Claims.elt w old j) ∧
      (∃ v, Sys2Proof.Claims.Retires (.vpermb c f) c s (Sys2Proof.Claims.wroteV x f.vd v) ∧
        ∀ b < 32, Sys2Proof.Claims.elt 8 v b
          = if Sys2Proof.Machine.active p n (8 * b / w) then
              Sys2Proof.Claims.elt 8 (x.v f.va.toNat) (Sys2Proof.Claims.elt 8 (x.v f.vb.toNat) b % 32)
            else Sys2Proof.Claims.elt 8 old b) ∧
      (ix < n →
        Sys2Proof.Claims.Retires (.vget c f) c s (Sys2Proof.Claims.wroteS x f.vd (BitVec.ofNat 64 (Sys2Proof.Claims.elt w (x.v f.va.toNat) ix))) ∧
        ∃ v, Sys2Proof.Claims.Retires (.vset c f) c s (Sys2Proof.Claims.wroteV x f.vd v) ∧
          ∀ j < n, Sys2Proof.Claims.elt w v j
            = if j = ix ∧ Sys2Proof.Machine.active p n j = true then (x.s f.va).toNat % 2 ^ w else Sys2Proof.Claims.elt w old j) ∧
      (n ≤ ix →
        Sys2Proof.Machine.exec (.vget c f) s = .next (illegal 2) ∧ Sys2Proof.Machine.exec (.vset c f) s = .next (illegal 3))) ∧
    (4 ≤ f.fmt.toNat →
      (∀ e ∈ Sys2Proof.Claims.permRows, Sys2Proof.Machine.exec (e.2.1 c f) s = .next (illegal e.1)) ∧
      Sys2Proof.Machine.exec (.vpermb c f) s = .next (illegal 0) ∧ Sys2Proof.Machine.exec (.vget c f) s = .next (illegal 2) ∧
      Sys2Proof.Machine.exec (.vset c f) s = .next (illegal 3))

/-- R107, R108 and what retiring leaves alone: writes to s0 and p0 are discarded, s0 reads zero and p0 all ones; a write of another
register is read back, and every other register reads as before. An instruction that retires changes its own core and nothing else:
every other core, every register field, memory and the queue are as before, and INSTRET counts it. -/
def Obligations.RegistersReadBackAndRetiringLeavesTheRestAlone : Prop :=
  ∀ (c : Sys2Proof.CoreId) (s : Sys2Proof.Machine.State) (x : Sys2Proof.Machine.Core) (r q : BitVec 5) (v : Sys2Proof.Word64) (a b : Nat) (d e : BitVec 3)
    (w : Sys2Proof.Word256),
    x.s 0 = 0 ∧ x.p 0 = BitVec.allOnes 64 ∧ x.setS 0 v = x ∧ x.setP 0 v = x
      ∧ (x.setS r v).s q = (if q = r ∧ r ≠ 0 then v else x.s q)
      ∧ (x.setP d v).p e = (if e = d ∧ d ≠ 0 then v else x.p e)
      ∧ (x.setV a w).v b = (if b = a then w else x.v b)
      ∧ (x.setS r v).vr = x.vr ∧ (x.setS r v).pr = x.pr ∧ (x.setV a w).sr = x.sr ∧ (x.setV a w).pr = x.pr ∧ (x.setP d v).sr = x.sr
      ∧ (x.setP d v).vr = x.vr
      ∧ (let t := Sys2Proof.Claims.retired c s x
         t.mem = s.mem ∧ t.pending = s.pending ∧ t.hub.regs = s.hub.regs
           ∧ (∀ n, n ≠ Sys2Proof.Machine.coreNum c → t.hub.core n = s.hub.core n)
           ∧ (Sys2Proof.Claims.coreOf c t).instret = x.instret + 1 ∧ (Sys2Proof.Claims.coreOf c t).pc = x.pc
           ∧ (Sys2Proof.Claims.coreOf c t).sr = x.sr ∧ (Sys2Proof.Claims.coreOf c t).vr = x.vr ∧ (Sys2Proof.Claims.coreOf c t).pr = x.pr
           ∧ (Sys2Proof.Claims.coreOf c t).fflags = x.fflags ∧ (Sys2Proof.Claims.coreOf c t).fctrl = x.fctrl
           ∧ { t.hub with sea := { t.hub.sea with cores := s.hub.sea.cores } } = s.hub)

/-- R95, R97, R138, R140, R141: an exception of a core that runs a tile of launch `l`. The first of the launch fixes its status, sets
FLC_EVENT.KERNEL_FAULT and writes the partition's kernel fault record, or, where that record is still VALID, keeps it and sets LOST; a
further one leaves the status and is counted. Either way the floe's domain is reset: its cores hold no tile, the cores of every other floe
and all of memory are as before. -/
def Obligations.ExceptionsFixTheStatusAndWriteTheFaultRecord : Prop :=
  ∀ (c : Sys2Proof.CoreId) (s : Sys2Proof.Machine.State) (y : Sys2Proof.Machine.Core) (w code addr trap : Nat) (l : Sys2Proof.Machine.Launch),
    y.launch ≠ 0 → Sys2Proof.Machine.tlook s.hub.sea.launches (y.launch - 1) = some l → l.part < 24 →
    (let p := l.part
     let t := Sys2Proof.Claims.raised c s y w code addr trap
     let after := Sys2Proof.Machine.tlook t.hub.sea.launches (y.launch - 1)
     t.mem = s.mem ∧ t.pending = s.pending
      ∧ (∀ m, m / 128 = c.floe.toNat → t.hub.core m = Sys2Proof.Machine.Core.rst)
      ∧ (∀ m, m / 128 ≠ c.floe.toNat → t.hub.core m = s.hub.core m)
      ∧ (s.hub.get (Sys2Proof.Machine.Reg.flcFloeStatusState c.floe.toNat) ≠ 0 →
          t.hub.get (Sys2Proof.Machine.Reg.flcFloeStatusState c.floe.toNat) = 3)
      ∧ (l.status = none →
          t.hub.get Sys2Proof.Machine.Reg.flcEventKernelFault = 1
          ∧ (∀ l', after = some l' → l'.status = some (Sys2Proof.Machine.excStatus code) ∧ l'.posted = true)
          ∧ (s.hub.get (Sys2Proof.Machine.Reg.flcKfaultValid p) = 0 →
              t.hub.get (Sys2Proof.Machine.Reg.flcKfaultValid p) = 1
              ∧ t.hub.get (Sys2Proof.Machine.Reg.flcKfaultCode p) = code % 256
              ∧ t.hub.get (Sys2Proof.Machine.Reg.flcKfaultStatus p) = Sys2Proof.Machine.excStatus code
              ∧ t.hub.get (Sys2Proof.Machine.Reg.flcKfaultFlags p) = y.fflags.toNat % 256
              ∧ t.hub.get (Sys2Proof.Machine.Reg.flcKfaultSuppressed p) = 0
              ∧ t.hub.get (Sys2Proof.Machine.Reg.flcKfaultLaunchId p) = l.id
              ∧ t.hub.get (Sys2Proof.Machine.Reg.flcKfaultFloe p) = c.floe.toNat
              ∧ t.hub.get (Sys2Proof.Machine.Reg.flcKfaultCore p) = c.core.toNat
              ∧ t.hub.get (Sys2Proof.Machine.Reg.flcKfaultTrapCode p) = trap % 256
              ∧ t.hub.get (Sys2Proof.Machine.Reg.flcKfaultInsn p) = w % 2 ^ 32
              ∧ t.hub.get (Sys2Proof.Machine.Reg.flcKfaultPc p) = y.pc.toNat
              ∧ t.hub.get (Sys2Proof.Machine.Reg.flcKfaultTile p) = y.tile % 2 ^ 32
              ∧ t.hub.get (Sys2Proof.Machine.Reg.flcKfaultAddr p) = addr % 2 ^ 64)
          ∧ (s.hub.get (Sys2Proof.Machine.Reg.flcKfaultValid p) ≠ 0 →
              t.hub.get (Sys2Proof.Machine.Reg.flcKfaultLost p) = 1
              ∧ t.hub.get (Sys2Proof.Machine.Reg.flcKfaultValid p) = s.hub.get (Sys2Proof.Machine.Reg.flcKfaultValid p)
              ∧ t.hub.get (Sys2Proof.Machine.Reg.flcKfaultCode p) = s.hub.get (Sys2Proof.Machine.Reg.flcKfaultCode p)
              ∧ t.hub.get (Sys2Proof.Machine.Reg.flcKfaultPc p) = s.hub.get (Sys2Proof.Machine.Reg.flcKfaultPc p)
              ∧ t.hub.get (Sys2Proof.Machine.Reg.flcKfaultAddr p) = s.hub.get (Sys2Proof.Machine.Reg.flcKfaultAddr p)))
      ∧ (∀ st, l.status = some st → ∀ l', after = some l' → l'.status = some st ∧ l'.suppressed = l.suppressed + 1))

namespace Sys2Proof.Claims

open Sys2Proof Machine

/-- GLB_RESET_CAUSE shows `f` and nothing else. -/
def CauseIs (f : Fld) (h : Hub) : Prop :=
  ∀ g ∈ [Reg.glbResetCausePorst, Reg.glbResetCausePerst, Reg.glbResetCauseSoft, Reg.glbResetCauseHubFatal, Reg.glbResetCauseWatchdog,
    Reg.glbResetCausePartner], h.get g = if g = f then 1 else 0

/-- Everything that no reset keeps (Table 9 of 03) stands as after power-on: partitions and keys, epoch, forecast, queues, the sea,
translation, Drift, Dewpoint, sites, links and collectives, and byte memory with the caches over it. -/
def Cleared (t : State) : Prop :=
  t.mem = Memory.rst ∧ t.hub.parts = [] ∧ t.hub.get Reg.cfgEpochEpoch = 1 ∧ t.hub.cfg = Cfg.rst ∧ t.hub.queues = [] ∧ t.hub.tags = []
    ∧ t.hub.halves = [] ∧ t.hub.sea = Sea.rst ∧ t.hub.xlt = Xlt.rst ∧ t.hub.drift = Drift.rst ∧ t.hub.dew = Dew.rst ∧ t.hub.sites = []
    ∧ t.hub.qos = [] ∧ t.hub.links = Links.rst ∧ t.hub.cols = [] ∧ t.hub.alm = Alm.rst

/-- The machine after a hub reset (R80, Table 9) of the hub `h`, shown as `cause`: boot step 1 begins, the Moraine log and the straps
stay. -/
def AfterHubReset (cause : Fld) (h : Hub) (p : List Instr) (t : State) : Prop :=
  Cleared t ∧ CauseIs cause t.hub ∧ t.pending = p ∧ t.hub.boot.step = 1 ∧ t.hub.get Reg.glbBootStatusStage = 1
    ∧ t.hub.mor = h.mor ∧ t.hub.boots = (h.boots + 1) % 2 ^ 16 ∧ t.hub.get Reg.morNextSeqSeq = h.get Reg.morNextSeqSeq % 2 ^ 32
    ∧ t.hub.boot.role = h.boot.role ∧ t.hub.boot.twinEn = h.boot.twinEn ∧ t.hub.boot.nodeId = h.boot.nodeId
    ∧ t.hub.boot.bootMode = h.boot.bootMode ∧ t.hub.perma = h.perma ∧ t.hub.flash = h.flash

/-- The reset controller runs: the machine stands neither in the reset of PORST_N nor in a halt that only PORST_N ends. -/
def CanReset (s : State) : Prop := s.hub.boot.step ≠ 0 ∧ s.hub.boot.halt = false ∧ s.hub.boot.stopped = false

end Sys2Proof.Claims

/-- R58, R69, R73, R80 (Table 9), R479, R490: each source of a reset of the hub clears and keeps what Table 9 states and shows its one
cause; PORST_N rising latches the straps; PERST_N released ends the wait of the endpoint. -/
def Obligations.ResetsClearAndKeepWhatTableNineSays : Prop :=
  ∀ (s : Sys2Proof.Machine.State) (x : Sys2Proof.Straps) (w : BitVec 32) (code inst : BitVec 16) (d0 d1 : BitVec 64),
    Sys2Proof.Claims.Runs .porstNAssert s (fun t => Sys2Proof.Claims.Cleared t ∧ t.hub.mor = [] ∧ t.hub.boot.step = 0 ∧ t.hub.boot.porst = true
      ∧ t.hub.perma = s.hub.perma ∧ t.hub.flash = s.hub.flash ∧ t.pending = s.pending)
    ∧ (s.hub.boot.porst = true → Sys2Proof.Claims.Runs (.porstNDeassert x) s (fun t =>
        Sys2Proof.Claims.Cleared t ∧ Sys2Proof.Claims.CauseIs Sys2Proof.Machine.Reg.glbResetCausePorst t.hub ∧ t.hub.boot.step = 1
          ∧ t.hub.boot.porst = false ∧ t.hub.boot.perst = !x.perstHigh ∧ t.hub.boot.role = x.role ∧ t.hub.boot.twinEn = x.twinEn
          ∧ t.hub.boot.nodeId = x.nodeId.toNat ∧ t.hub.boot.bootMode = x.bootMode.toNat ∧ t.hub.mor = []
          ∧ t.hub.perma = s.hub.perma ∧ t.hub.flash = s.hub.flash ∧ t.pending = s.pending))
    ∧ (Sys2Proof.Claims.CanReset s → (s.hub.boot.role = true ∨ s.hub.boot.twinEn = false) →
        Sys2Proof.Claims.Runs .perstNAssert s (fun t =>
          Sys2Proof.Claims.AfterHubReset Sys2Proof.Machine.Reg.glbResetCausePerst s.hub s.pending t ∧ t.hub.boot.perst = true)
        ∧ (5 ≤ s.hub.boot.step → Sys2Proof.Claims.Runs .hotReset s (fun t =>
            Sys2Proof.Claims.AfterHubReset Sys2Proof.Machine.Reg.glbResetCausePerst (s.hub.record { code := 0x0A06, cls := 0 }) s.pending t))
        ∧ (s.hub.boot.perst = true → s.hub.boot.step < 10 → Sys2Proof.Machine.exec .perstNDeassert s =
            .next (s.onHub (fun h => { h with boot := { h.boot with perst := false, crs := true } }))))
    ∧ (Sys2Proof.Claims.CanReset s → s.hub.boot.step = 10 → w.toNat % 2 = 1 → w.toNat / 2 ^ 16 = 0xE960 →
        Sys2Proof.Claims.Runs (.glbReset w) s (Sys2Proof.Claims.AfterHubReset Sys2Proof.Machine.Reg.glbResetCauseSoft s.hub s.pending))
    ∧ (w.toNat % 2 = 0 ∨ w.toNat / 2 ^ 16 ≠ 0xE960 → Sys2Proof.Machine.exec (.glbReset w) s = .next (s.wroteBy 0))
    ∧ (Sys2Proof.Claims.CanReset s → 6 ≤ s.hub.boot.step → Sys2Proof.Claims.Runs .watchdogExpiry s (fun t =>
        Sys2Proof.Claims.AfterHubReset Sys2Proof.Machine.Reg.glbResetCauseWatchdog (s.hub.record { code := 0x0E07, cls := 3 }) s.pending t
          ∧ t.hub.boot.faultN = true))
    ∧ (Sys2Proof.Claims.CanReset s → code.toNat ∈ [0x0702, 0x0703, 0x0C06] →
        Sys2Proof.Claims.Runs (.hubFatalError code inst d0 d1) s (fun t =>
          Sys2Proof.Claims.AfterHubReset Sys2Proof.Machine.Reg.glbResetCauseHubFatal
            (s.hub.record { code := code.toNat, cls := 3, inst := inst.toNat, d0 := d0.toNat, d1 := d1.toNat }) s.pending t
          ∧ t.hub.boot.faultN = true))
    ∧ (s.hub.boot.group1 = false → Sys2Proof.Machine.exec .supplyGroupUp s =
        .next (s.onHub (fun h => { h with boot := { h.boot with group1 := true } })))
    ∧ Sys2Proof.Claims.Runs .supplyGroupLoss s (fun t => Sys2Proof.Claims.Cleared t ∧ t.hub.regs = [] ∧ t.hub.mor = []
        ∧ t.hub.boot.group1 = false ∧ t.hub.perma = s.hub.perma ∧ t.hub.flash = s.hub.flash ∧ t.pending = s.pending)

namespace Sys2Proof.Claims

open Sys2Proof Machine

/-- The boot has reached step `n`, showing `stage`. -/
def BootAt (n stage : Nat) (t : State) : Prop := t.hub.boot.step = n ∧ t.hub.get Reg.glbBootStatusStage = stage

end Sys2Proof.Claims

/-- R69 (Table 8), R60, R74, R76: the boot steps end in order, each showing its stage: step 1 releases FAULT_N; End of Life and
BOOT_MODE 0b01 stop at step 2; equal HUB_ROLE straps halt at step 4; step 8 waits until no site is Sounding, step 9 for PERST_N, and leaves
the hub ready with CRS and the Halo rings off. -/
def Sys2Proof.Claims.BootStepsEndInOrder : Prop :=
  ∀ (x : Sys2Proof.BootIn) (p : Sys2Proof.Partner) (s : Sys2Proof.Machine.State),
    (s.hub.boot.step = 1 → Sys2Proof.Claims.Runs (.bootStepComplete x) s (fun t =>
      Sys2Proof.Claims.BootAt 2 0x01 t ∧ t.hub.boot.faultN = false ∧ t.mem = s.mem))
    ∧ (s.hub.boot.step = 2 → s.hub.life = 3 → Sys2Proof.Claims.Runs (.bootStepComplete x) s (Sys2Proof.Claims.BootAt 11 0x83))
    ∧ (s.hub.boot.step = 2 → s.hub.life ≠ 3 → s.hub.boot.role = true → s.hub.boot.bootMode = 1 →
        Sys2Proof.Claims.Runs (.bootStepComplete x) s (fun t =>
          Sys2Proof.Claims.BootAt 11 0x85 t ∧ t.hub.get Sys2Proof.Machine.Reg.glbBootStatusRecovery = 1))
    ∧ (s.hub.boot.step = 2 → s.hub.life ≠ 3 → s.hub.boot.role = true → s.hub.boot.bootMode = 0 → s.hub.dir.isSome = true →
        Sys2Proof.Claims.Runs (.bootStepComplete x) s (Sys2Proof.Claims.BootAt 3 0x02))
    ∧ (s.hub.boot.step = 2 → s.hub.life ≠ 3 → s.hub.boot.role = true → s.hub.boot.bootMode = 0 → s.hub.dir = none →
        Sys2Proof.Claims.Runs (.bootStepComplete x) s (fun t =>
          Sys2Proof.Claims.BootAt 11 0x82 t ∧ t.hub.get Sys2Proof.Machine.Reg.glbBootStatusRecovery = 1))
    ∧ (s.hub.boot.step = 4 → s.hub.boot.twinEn = true → x.partner = some p → p.twinEn = true → p.role = s.hub.boot.role →
        Sys2Proof.Claims.Runs (.bootStepComplete x) s (fun t =>
          Sys2Proof.Claims.BootAt 11 0x81 t ∧ t.hub.boot.halt = true ∧ t.hub.boot.faultN = true))
    ∧ (s.hub.boot.step = 4 → s.hub.boot.twinEn = false → Sys2Proof.Claims.Runs (.bootStepComplete x) s (Sys2Proof.Claims.BootAt 5 0x04))
    ∧ (s.hub.boot.step = 5 → Sys2Proof.Claims.Runs (.bootStepComplete x) s (fun t => t.hub.boot.step = 6 ∧ t.hub.boot.crs = !s.hub.boot.perst))
    ∧ (s.hub.boot.step = 8 → (∀ k < 16, s.hub.get (Sys2Proof.Machine.Reg.siteStatusState k) ≠ 1) →
        Sys2Proof.Claims.Runs (.bootStepComplete x) s (Sys2Proof.Claims.BootAt 9 0x07))
    ∧ (s.hub.boot.step = 9 → s.hub.boot.perst = false → Sys2Proof.Claims.Runs (.bootStepComplete x) s (fun t =>
        Sys2Proof.Claims.BootAt 10 0x0F t ∧ t.hub.boot.crs = false ∧ t.hub.boot.halo = false))
    ∧ (s.hub.boot.step = 9 → s.hub.boot.perst = true → Sys2Proof.Machine.exec (.bootStepComplete x) s = .next s)

/-- R74, R76, R79, R453: the halt service starts once, with the boot-up message; a secondary that does not answer within the bound is held,
and one that no primary sounds is held at stage 0x84; an activation ends with the staged security image running under a new alias key and
no session left. -/
def Sys2Proof.Claims.BootEventsActAsStated : Prop :=
  ∀ (s : Sys2Proof.Machine.State),
    (s.hub.boot.halt = true → s.hub.boot.haltSvc = false → Sys2Proof.Claims.Runs .haltServiceStart s (fun t =>
      t.hub.boot.haltSvc = true ∧ t.hub.alm.nmt = 1 ∧ t.hub.regs = s.hub.regs ∧ t.mem = s.mem ∧ t.pending = s.pending
        ∧ (s.hub.boot.nodeId ≠ 0 → t.hub.sent = .can (0x700 + s.hub.boot.nodeId) 1 0 :: s.hub.sent)))
    ∧ (s.hub.boot.step = 4 → s.hub.boot.twinEn = true → s.hub.boot.role = true →
        s.hub.get Sys2Proof.Machine.Reg.glbBootStatusPartnerHeld = 0 → Sys2Proof.Claims.Runs .partnerSoundingTimeout s (fun t =>
          t.hub.get Sys2Proof.Machine.Reg.glbBootStatusPartnerHeld = 1 ∧ t.hub.boot = s.hub.boot ∧ t.mem = s.mem))
    ∧ (s.hub.boot.step = 4 → s.hub.boot.twinEn = true → s.hub.boot.role = false → Sys2Proof.Claims.Runs .partnerSoundingTimeout s (fun t =>
        Sys2Proof.Claims.BootAt 11 0x84 t ∧ t.mem = s.mem))
    ∧ (s.hub.boot.activating = true → Sys2Proof.Claims.Runs .activationComplete s (fun t =>
        t.hub.boot.activating = false ∧ t.hub.boot.staged = [] ∧ t.hub.sec.aliasKeys = s.hub.sec.aliasKeys + 1
          ∧ Sys2Proof.Machine.tget 0 t.hub.boot.images 1 = Sys2Proof.Machine.tget 0 s.hub.boot.staged 1
          ∧ t.hub.get Sys2Proof.Machine.Reg.secStatusUpdateStaged = 0 ∧ t.hub.get Sys2Proof.Machine.Reg.secStatusReady = 1
          ∧ t.hub.parts = s.hub.parts ∧ t.hub.cfg = s.hub.cfg ∧ t.mem = s.mem ∧ t.pending = s.pending))

/-- R69 (Table 8), R60, R74, R76: the boot steps end in order, each showing its stage: step 1 releases FAULT_N; End of Life and BOOT_MODE 0b01
stop at step 2; equal HUB_ROLE straps halt at step 4; step 8 waits until no site is Sounding, step 9 for PERST_N, and leaves the hub ready with
CRS and the Halo rings off. R74, R76, R79, R453: the halt service starts once, with the boot-up message; a secondary that does not answer within
the bound is held, and one that no primary sounds is held at stage 0x84; an activation ends with the staged security image running under a new
alias key and no session left. -/
def Obligations.BootStepsAndEvents : Prop :=
  Sys2Proof.Claims.BootStepsEndInOrder ∧ Sys2Proof.Claims.BootEventsActAsStated

namespace Sys2Proof.Claims

open Sys2Proof Machine

/-- What a refused write leaves (R56, Table 14): nothing, but for one of PF MMIO its record and its event. -/
def Refused (via : Iface) (off cause : Nat) (s t : State) : Prop :=
  t.hub.cfg = s.hub.cfg ∧ t.mem = s.mem ∧ t.pending = s.pending ∧ t.hub.get Reg.cfgStatusLastCause = s.hub.get Reg.cfgStatusLastCause
    ∧ t.hub.get Reg.cfgStatusLastOk = s.hub.get Reg.cfgStatusLastOk ∧ t.hub.get Reg.cfgOwnerOwnerIf = s.hub.get Reg.cfgOwnerOwnerIf
    ∧ (via.code.toNat = 1 → t.hub.get Reg.cfgEventRefused = 1 ∧ t.hub.get Reg.cfgRefusedOffset = off
        ∧ t.hub.get Reg.cfgRefusedCause = cause ∧ t.hub.get Reg.cfgRefusedIface = s.hub.get Reg.cfgOwnerOwnerIf % 2 ^ 4)
    ∧ (via.code.toNat ≠ 1 → t = s)

/-- What a failed commit leaves (R503, R46): its cause and item, COMMIT_FAILED, and the forecast as it was. -/
def Failed (cause item : Nat) (s t : State) : Prop :=
  t.hub.cfg = s.hub.cfg ∧ t.mem = s.mem ∧ t.pending = s.pending ∧ t.hub.get Reg.cfgStatusLastOk = 0
    ∧ t.hub.get Reg.cfgStatusLastCause = cause ∧ t.hub.get Reg.cfgStatusLastItem = item ∧ t.hub.get Reg.cfgEventCommitFailed = 1
    ∧ t.hub.get Reg.cfgOwnerOwnerIf = s.hub.get Reg.cfgOwnerOwnerIf ∧ t.hub.get Reg.cfgStatusPhase = s.hub.get Reg.cfgStatusPhase
    ∧ t.hub.get Reg.cfgEpochEpoch = s.hub.get Reg.cfgEpochEpoch ∧ t.hub.get Reg.cfgEventRefused = s.hub.get Reg.cfgEventRefused

/-- The forecast is dropped and its ownership released. -/
def Dropped (s t : State) : Prop :=
  t.hub.cfg = { s.hub.cfg with staged := [] } ∧ t.hub.get Reg.cfgOwnerOwnerIf = 0 ∧ t.mem = s.mem ∧ t.pending = s.pending
    ∧ t.hub.get Reg.cfgEpochEpoch = s.hub.get Reg.cfgEpochEpoch

end Sys2Proof.Claims

/-- R39, R40, R45, R503: DISCARD by the owner and BREAK by PF MMIO empty the forecast and release it, so does IDLE_S seconds of silence, the
last two setting FORECAST_EXPIRED; a running commit refuses both with BUSY, another owner refuses DISCARD with NOT_OWNER, and without an
owner all three do nothing. -/
def Sys2Proof.Claims.ForecastsAreDroppedByOwnerBreakOrExpiry : Prop :=
  ∀ (via : Sys2Proof.Iface) (s : Sys2Proof.Machine.State),
    (let u := s.wroteVia via
     let busy := s.hub.get Sys2Proof.Machine.Reg.cfgStatusPhase ≠ 0
     let owner := s.hub.get Sys2Proof.Machine.Reg.cfgOwnerOwnerIf
     (busy → Sys2Proof.Claims.Runs (.discard via) s (Sys2Proof.Claims.Refused via 0x100010 0x05 u))
     ∧ (¬ busy → owner = 0 → Sys2Proof.Machine.exec (.discard via) s = .next u)
     ∧ (¬ busy → owner ≠ 0 → owner ≠ via.code.toNat → Sys2Proof.Claims.Runs (.discard via) s (Sys2Proof.Claims.Refused via 0x100010 0x02 u))
     ∧ (¬ busy → owner ≠ 0 → owner = via.code.toNat → Sys2Proof.Claims.Runs (.discard via) s (Sys2Proof.Claims.Dropped u))
     ∧ (via.code = 1 → busy → Sys2Proof.Claims.Runs (.breakForecast via) s (Sys2Proof.Claims.Refused via 0x100018 0x05 u))
     ∧ (via.code = 1 → ¬ busy → owner ≠ 0 → Sys2Proof.Claims.Runs (.breakForecast via) s (fun t =>
          Sys2Proof.Claims.Dropped u t ∧ t.hub.get Sys2Proof.Machine.Reg.cfgEventForecastExpired = 1))
     ∧ (via.code ≠ 1 ∨ (¬ busy ∧ owner = 0) → Sys2Proof.Machine.exec (.breakForecast via) s = .next u)
     ∧ (¬ busy → owner ≠ 0 → Sys2Proof.Claims.Runs .forecastIdleExpiry s (fun t => Sys2Proof.Claims.Dropped s t ∧ t.hub.get Sys2Proof.Machine.Reg.cfgEventForecastExpired = 1))
     ∧ (busy ∨ owner = 0 → Sys2Proof.Machine.exec .forecastIdleExpiry s = .next s))

/-- R44, R45, R47, R503: a write of CFG_COMMIT is checked in the order running, closed, foreign owner, epoch, empty, legal, and the first
check that fails refuses it or fails the commit, the forecast kept; one that passes goes into prepare, or with VALIDATE_ONLY reports OK and
changes nothing else. -/
def Obligations.CommitsAreCheckedInOrder : Prop :=
  ∀ (via : Sys2Proof.Iface) (w : BitVec 64) (s : Sys2Proof.Machine.State),
    (let u := s.wroteVia via
     let busy := s.hub.get Sys2Proof.Machine.Reg.cfgStatusPhase ≠ 0
     let closed := s.hub.whiteout = true ∨ (s.hub.life ≠ 1 ∧ s.hub.life ≠ 2)
     let owner := s.hub.get Sys2Proof.Machine.Reg.cfgOwnerOwnerIf
     let foreign := owner ≠ 0 ∧ owner ≠ via.code.toNat
     let late := w.toNat % 2 ^ 32 ≠ s.hub.get Sys2Proof.Machine.Reg.cfgEpochEpoch
     let v := s.hub.validate
     ∀ i ∈ [Sys2Proof.Instr.commit via w, Sys2Proof.Instr.validateOnly via w],
       (busy → Sys2Proof.Claims.Runs i s (Sys2Proof.Claims.Refused via 0x100010 0x05 u))
       ∧ (¬ busy → closed → Sys2Proof.Claims.Runs i s (Sys2Proof.Claims.Failed 0x09 0 u))
       ∧ (¬ busy → ¬ closed → foreign → Sys2Proof.Claims.Runs i s (Sys2Proof.Claims.Refused via 0x100010 0x02 u))
       ∧ (¬ busy → ¬ closed → ¬ foreign → late → Sys2Proof.Claims.Runs i s (Sys2Proof.Claims.Failed 0x01 0 u))
       ∧ (¬ busy → ¬ closed → ¬ foreign → ¬ late → s.hub.cfg.staged = [] → Sys2Proof.Claims.Runs i s (Sys2Proof.Claims.Failed 0x03 0 u))
       ∧ (¬ busy → ¬ closed → ¬ foreign → ¬ late → s.hub.cfg.staged ≠ [] →
           (v.1 ≠ 0 → Sys2Proof.Claims.Runs i s (Sys2Proof.Claims.Failed v.1 v.2 u))
           ∧ (v.1 = 0 → i = .validateOnly via w → Sys2Proof.Machine.exec i s = .next (u.onHub (fun h =>
               h.sets [(Sys2Proof.Machine.Reg.cfgStatusLastOk, 1), (Sys2Proof.Machine.Reg.cfgStatusLastCause, 0), (Sys2Proof.Machine.Reg.cfgStatusLastItem, 0)])))
           ∧ (v.1 = 0 → i = .commit via w → Sys2Proof.Claims.Runs i s (fun t =>
               t.hub.get Sys2Proof.Machine.Reg.cfgStatusPhase = 2 ∧ t.hub.cfg.staged = s.hub.cfg.staged ∧ t.mem = s.mem ∧ t.pending = s.pending
                 ∧ t.hub.get Sys2Proof.Machine.Reg.cfgEpochEpoch = s.hub.get Sys2Proof.Machine.Reg.cfgEpochEpoch
                 ∧ t.hub.cfg.commit = some ⟨via.code.toNat, decide (s.hub.dies = 2), s.hub.gatesOf s.hub.future⟩
                 ∧ (s.hub.dies = 2 → t.hub.sent = .bridge 1 (s.hub.get Sys2Proof.Machine.Reg.cfgEpochEpoch) :: s.hub.sent)))))

namespace Sys2Proof.Claims

open Sys2Proof Machine

/-- No RESET or THAW write of a partition waits for the commit to end (R339). -/
def NothingHeldBack (s : State) : Prop := ∀ p < 24, s.hub.get (Reg.prtCtrlThaw p) = 0 ∧ s.hub.get (Reg.prtCtrlReset p) = 0

end Sys2Proof.Claims

/-- R46: a commit that exceeds the prepare bound, or whose secondary does not answer, fails with its cause, the gates open, nothing applied
and the forecast kept. R45, R48: the secondary's ready is taken; applied, every staged value is active, the epoch counts one (from
0xFFFF_FFFF to 1), the forecast is empty and released, and COMMIT_DONE is set; the commit ends with the last gate, on which the writes that
R339 held back act. A retrained stack opens its gate at the speed it reached. -/
def Obligations.CommitsPrepareApplyOrFail : Prop :=
  ∀ (s : Sys2Proof.Machine.State) (c : Sys2Proof.Machine.Commit) (n : BitVec 5) (speed : BitVec 2),
    Sys2Proof.Machine.exec .twinPrepareReady s = .next (s.onHub (fun h =>
        { h with cfg := { h.cfg with commit := h.cfg.commit.map (fun c => { c with twinWait := false }) } }))
    ∧ (s.hub.cfg.commit = some c → Sys2Proof.Claims.NothingHeldBack s →
        (let after (cause : Nat) (t : Sys2Proof.Machine.State) : Prop :=
           t.hub.cfg = { s.hub.cfg with commit := none } ∧ t.hub.get Sys2Proof.Machine.Reg.cfgStatusPhase = 0
             ∧ t.hub.get Sys2Proof.Machine.Reg.cfgStatusLastOk = 0 ∧ t.hub.get Sys2Proof.Machine.Reg.cfgStatusLastCause = cause
             ∧ t.hub.get Sys2Proof.Machine.Reg.cfgEventCommitFailed = 1 ∧ t.hub.get Sys2Proof.Machine.Reg.cfgEpochEpoch = s.hub.get Sys2Proof.Machine.Reg.cfgEpochEpoch
             ∧ t.hub.get Sys2Proof.Machine.Reg.cfgOwnerOwnerIf = s.hub.get Sys2Proof.Machine.Reg.cfgOwnerOwnerIf ∧ t.mem = s.mem ∧ t.pending = s.pending
         Sys2Proof.Claims.Runs .commitDrainTimeout s (after 0x07)
         ∧ (c.twinWait = true → Sys2Proof.Claims.Runs .commitTwinTimeout s (after 0x08))))
    ∧ (s.hub.cfg.commit = none → Sys2Proof.Machine.exec .commitApply s = .next s ∧ Sys2Proof.Machine.exec .commitDrainTimeout s = .next s
        ∧ Sys2Proof.Machine.exec .commitTwinTimeout s = .next s)
    ∧ (s.hub.cfg.commit = some c → c.twinWait = true → Sys2Proof.Machine.exec .commitApply s = .next s)
    ∧ (s.hub.cfg.commit = some c → s.hub.drains c = false → Sys2Proof.Claims.Runs .commitApply s (fun t =>
        ∃ u : Sys2Proof.Machine.State, t = u.commitEnds.watch s
          ∧ u.hub.get Sys2Proof.Machine.Reg.cfgEpochEpoch = (if (s.applyConfig).hub.get Sys2Proof.Machine.Reg.cfgEpochEpoch = 0xFFFFFFFF then 1
              else ((s.applyConfig).hub.get Sys2Proof.Machine.Reg.cfgEpochEpoch + 1) % 2 ^ 32)
          ∧ u.hub.cfg.staged = [] ∧ u.hub.cfg.commit = none ∧ u.hub.get Sys2Proof.Machine.Reg.cfgOwnerOwnerIf = 0
          ∧ u.hub.get Sys2Proof.Machine.Reg.cfgStatusLastOk = 1 ∧ u.hub.get Sys2Proof.Machine.Reg.cfgStatusLastCause = 0 ∧ u.hub.get Sys2Proof.Machine.Reg.cfgEventCommitDone = 1
          ∧ u.hub.cfg.retrain = (s.applyConfig).hub.cfg.retrain
          ∧ (u.hub.cfg.retrain ≠ [] → u.commitEnds.hub.get Sys2Proof.Machine.Reg.cfgStatusPhase = 3)))
    ∧ (s.hub.cfg.retrain.contains (4096 + n.toNat) = false → Sys2Proof.Machine.exec (.retrainDone false n speed) s = .next s)
    ∧ (s.hub.cfg.retrain = [4096 + n.toNat] → Sys2Proof.Claims.NothingHeldBack s → Sys2Proof.Claims.Runs (.retrainDone false n speed) s (fun t =>
        t.hub.get Sys2Proof.Machine.Reg.cfgStatusPhase = 0 ∧ t.hub.cfg.retrain = [] ∧ t.mem = s.mem ∧ t.pending = s.pending
          ∧ t.hub.get (Sys2Proof.Machine.Reg.hbmStackInfoState n.toNat) = 2
          ∧ (s.hub.get (Sys2Proof.Machine.Reg.hbmStackCtrlSpeed n.toNat) < 4 →
              t.hub.get (Sys2Proof.Machine.Reg.hbmStackInfoSpeed n.toNat) = min speed.toNat (s.hub.get (Sys2Proof.Machine.Reg.hbmStackCtrlSpeed n.toNat))
              ∧ (speed.toNat < s.hub.get (Sys2Proof.Machine.Reg.hbmStackCtrlSpeed n.toNat) → t.hub.get Sys2Proof.Machine.Reg.hbmEventRetrain = 1))))

/-- R43: a load of a forecast set reports MALFORMED for an address that is not 16-byte aligned or a set that is no set, READ for bytes that
cannot be read, and otherwise applies the entries in order as writes of PF MMIO and reports the first cause and the count applied. -/
def Sys2Proof.Claims.ForecastSetsAreLoadedEntryByEntry : Prop :=
  ∀ (s : Sys2Proof.Machine.State),
    (let u := s.wroteBy 0
     let a := s.hub.get Sys2Proof.Machine.Reg.cfgFsetAddrHpa
     let reports (cause count : Nat) (u : Sys2Proof.Machine.State) : Prop := Sys2Proof.Machine.exec .fsetLoad s = .next (u.onHub (fun h =>
       h.sets [(Sys2Proof.Machine.Reg.cfgFsetLoadLoad, 0), (Sys2Proof.Machine.Reg.cfgFsetLoadResult, cause), (Sys2Proof.Machine.Reg.cfgFsetLoadCount, count), (Sys2Proof.Machine.Reg.cfgStatusLastCause, cause)]))
     let head := u.hubRead .pf a 16 false
     let n := head.v / 2 ^ 32 % 2 ^ 32
     let all := head.s.hubRead .pf a (16 + 16 * n) false
     (a % 16 ≠ 0 → reports 0x0A 0 u)
     ∧ (a % 16 = 0 → (head.st ≠ 0 ∨ head.bad ≠ 0) → reports 0x0B 0 head.s)
     ∧ (a % 16 = 0 → head.st = 0 → head.bad = 0 →
         (n = 0 ∨ 65535 < n → reports 0x0A 0 head.s)
         ∧ (0 < n → n < 65536 → (all.st ≠ 0 ∨ all.bad ≠ 0) → reports 0x0B 0 all.s)
         ∧ (0 < n → n < 65536 → all.st = 0 → all.bad = 0 →
             (all.s.hub.fsetParse all.v = none → reports 0x0A 0 all.s)
             ∧ (∀ l, all.s.hub.fsetParse all.v = some l →
                 let x := all.s.fsetApply 1 l
                 reports x.cause x.count x.s))))

/-- R39, R40, R45, R503: DISCARD by the owner and BREAK by PF MMIO empty the forecast and release it, so does IDLE_S seconds of silence, the last
two setting FORECAST_EXPIRED; a running commit refuses both with BUSY, another owner refuses DISCARD with NOT_OWNER, and without an owner all
three do nothing. R43: a load of a forecast set reports MALFORMED for an address that is not 16-byte aligned or a set that is no set, READ for
bytes that cannot be read, and otherwise applies the entries in order as writes of PF MMIO and reports the first cause and the count applied. -/
def Obligations.ForecastsAreDroppedAndLoaded : Prop :=
  Sys2Proof.Claims.ForecastsAreDroppedByOwnerBreakOrExpiry ∧ Sys2Proof.Claims.ForecastSetsAreLoadedEntryByEntry

namespace Sys2Proof.Claims

open Sys2Proof Machine

/-- The PF's BAR0 answers: configuration is complete and Memory Space Enable is 1 (R365, Table 8 of 03). -/
def BarOpen (s : State) : Prop := s.hub.boot.step = 10 ∧ s.hub.boot.stopped = false ∧ s.hub.get (Pci.mse 0) ≠ 0

/-- A 32-bit write of PF BAR0. -/
def put32 (off : Nat) (w : BitVec 32) : Instr := .registerWrite 0 (BitVec.ofNat 28 off) 4 (w.setWidth 64)

end Sys2Proof.Claims

/-- R4, R5, R6, R8 on registers of each kind: a write of an RW register puts every field but one at a reserved
encoding and nothing else; a 1 in an RW1C field clears it
and a 0 keeps it; a write of the lower half of a 64-bit register is held and changes nothing, the next one of its upper half writes both,
and a 64-bit write writes both at once; R41: a write through the forecast view is the write itself. -/
def Obligations.RegisterWritesFollowTheFieldTypes : Prop :=
  ∀ (s : Sys2Proof.Machine.State) (w lo : BitVec 32) (v : BitVec 64) (off : Nat) (d : BitVec 64),
    Sys2Proof.Claims.BarOpen s →
    Sys2Proof.Claims.Runs (Sys2Proof.Claims.put32 0x500300 w) s (fun t =>
      t.hub.get Sys2Proof.Machine.Reg.hbmRasCfgCeThresh = (if w.toNat % 256 = 0 then s.hub.get Sys2Proof.Machine.Reg.hbmRasCfgCeThresh else w.toNat % 256)
        ∧ t.hub.get Sys2Proof.Machine.Reg.hbmRasCfgCeWindowH = (if w.toNat / 2 ^ 8 % 256 = 0 then s.hub.get Sys2Proof.Machine.Reg.hbmRasCfgCeWindowH else w.toNat / 2 ^ 8 % 256)
        ∧ t.hub.get Sys2Proof.Machine.Reg.hbmRasCfgScrubH = w.toNat / 2 ^ 16 % 256 ∧ t.hub.get Sys2Proof.Machine.Reg.hbmRasCfgPprEn = w.toNat / 2 ^ 24 % 2
        ∧ Sys2Proof.Claims.SameRegsBut [Sys2Proof.Machine.Reg.hbmRasCfgCeThresh, Sys2Proof.Machine.Reg.hbmRasCfgCeWindowH, Sys2Proof.Machine.Reg.hbmRasCfgScrubH, Sys2Proof.Machine.Reg.hbmRasCfgPprEn] s t
        ∧ t.mem = s.mem ∧ t.pending = s.pending)
    ∧ Sys2Proof.Claims.Runs (Sys2Proof.Claims.put32 0x500310 w) s (fun t =>
        ∀ f ∈ [Sys2Proof.Machine.Reg.hbmEventCe, Sys2Proof.Machine.Reg.hbmEventUe, Sys2Proof.Machine.Reg.hbmEventRepaired, Sys2Proof.Machine.Reg.hbmEventRowFailed, Sys2Proof.Machine.Reg.hbmEventRepairUnavailable, Sys2Proof.Machine.Reg.hbmEventThermal,
            Sys2Proof.Machine.Reg.hbmEventRetrain],
          (w.toNat / 2 ^ f.lo % 2 = 0 → t.hub.get f = s.hub.get f)
            ∧ (w.toNat / 2 ^ f.lo % 2 = 1 → s.hub.get f = 1 → t.hub.get f = 0))
    ∧ Sys2Proof.Claims.Runs (Sys2Proof.Claims.put32 0x400020 lo) s (fun t =>
        t.hub.regs = s.hub.regs ∧ (0, 0x400020, lo.toNat) ∈ t.hub.halves ∧ t.mem = s.mem ∧ t.pending = s.pending)
    ∧ (s.hub.halves = [(0, 0x400020, lo.toNat)] → Sys2Proof.Claims.Runs (Sys2Proof.Claims.put32 0x400024 w) s (fun t =>
        t.hub.get Sys2Proof.Machine.Reg.frnMaintAddrHpa = (lo.toNat + 2 ^ 32 * w.toNat) % 2 ^ 48 ∧ t.hub.halves = []
          ∧ Sys2Proof.Claims.SameRegsBut [Sys2Proof.Machine.Reg.frnMaintAddrHpa] s t ∧ t.mem = s.mem ∧ t.pending = s.pending))
    ∧ Sys2Proof.Claims.Runs (.registerWrite 0 0x400020 8 v) s (fun t =>
        t.hub.get Sys2Proof.Machine.Reg.frnMaintAddrHpa = v.toNat % 2 ^ 48 ∧ Sys2Proof.Claims.SameRegsBut [Sys2Proof.Machine.Reg.frnMaintAddrHpa] s t ∧ t.mem = s.mem ∧ t.pending = s.pending)
    ∧ (off < 0x8000000 → off % 8 = 0 →
        Sys2Proof.Machine.exec (.registerWrite 0 (BitVec.ofNat 28 (0x8000000 + off)) 8 d) s = Sys2Proof.Machine.exec (.registerWrite 0 (BitVec.ofNat 28 off) 8 d) s)

/-- R39, R56, R502: a write of an RWF field at a new value is staged for PF MMIO, which comes to own the forecast, and the active value
stays; one by another than the owner is refused with NOT_OWNER and stages nothing. R4, R365: an access of another width or alignment is
recorded with code 0x0A01 and a read of it completes with zero; one of a function whose Memory Space Enable is 0 writes nothing. -/
def Sys2Proof.Claims.StagedAndMalformedWritesActAsStated : Prop :=
  ∀ (s : Sys2Proof.Machine.State) (w : BitVec 32) (off : BitVec 28) (bytes : BitVec 4) (write : Bool) (v : BitVec 64),
    Sys2Proof.Claims.BarOpen s → s.hub.get Sys2Proof.Machine.Reg.cfgStatusPhase = 0 → s.hub.whiteout = false → s.hub.life = 2 → w.toNat < 2 ^ 14 →
    w.toNat % 2 ^ 12 ≠ s.hub.view Sys2Proof.Machine.Reg.cfgPowerClassW →
    (s.hub.get Sys2Proof.Machine.Reg.cfgOwnerOwnerIf = 0 ∨ s.hub.get Sys2Proof.Machine.Reg.cfgOwnerOwnerIf = 1 → Sys2Proof.Claims.Runs (Sys2Proof.Claims.put32 0x100028 w) s (fun t =>
      t.hub.view Sys2Proof.Machine.Reg.cfgPowerClassW = w.toNat % 2 ^ 12 ∧ t.hub.get Sys2Proof.Machine.Reg.cfgPowerClassW = s.hub.get Sys2Proof.Machine.Reg.cfgPowerClassW
        ∧ t.hub.get Sys2Proof.Machine.Reg.cfgOwnerOwnerIf = 1 ∧ Sys2Proof.Claims.SameRegsBut [Sys2Proof.Machine.Reg.cfgOwnerOwnerIf] s t ∧ t.mem = s.mem ∧ t.pending = s.pending))
    ∧ (s.hub.get Sys2Proof.Machine.Reg.cfgOwnerOwnerIf = 4 → Sys2Proof.Claims.Runs (Sys2Proof.Claims.put32 0x100028 w) s (fun t =>
        t.hub.cfg = s.hub.cfg ∧ t.hub.get Sys2Proof.Machine.Reg.cfgEventRefused = 1 ∧ t.hub.get Sys2Proof.Machine.Reg.cfgRefusedOffset = 0x100028
          ∧ t.hub.get Sys2Proof.Machine.Reg.cfgRefusedIface = 4 ∧ t.hub.get Sys2Proof.Machine.Reg.cfgRefusedCause = 0x02 ∧ t.mem = s.mem ∧ t.pending = s.pending))
    ∧ (¬ ((bytes = 4 ∨ bytes = 8) ∧ off.toNat % bytes.toNat = 0) →
        Sys2Proof.Machine.exec (.registerWrite 0 off bytes v) s = .next (s.onHub (·.hostRec 0x0A01 0 off.toNat true))
        ∧ Sys2Proof.Machine.exec (.bar0BadAccess 0 off bytes write) s = .next (s.onHub (fun h =>
            if write then h.hostRec 0x0A01 0 off.toNat true
            else (h.hostRec 0x0A01 0 off.toNat true).send (.bar2Cpl 0 bytes.toNat 0 false))))
    ∧ (let shut := s.onHub (·.set (Sys2Proof.Machine.Pci.mse 0) 0)
       Sys2Proof.Claims.Runs (.registerWrite 0 off bytes v) shut (fun t => t.mem = s.mem ∧ t.pending = s.pending ∧ t.hub.cfg = s.hub.cfg
         ∧ t.hub.halves = s.hub.halves))

/-- R344, R351, R363, R365: configuration space of the PF once it no longer answers with CRS: the enables of Command, the completion timeout,
and the AER status and mask registers take what is written; a 1 in an AER status bit clears it; a power state of D3hot is entered. -/
def Sys2Proof.Claims.ConfigurationSpaceWritesActAsStated : Prop :=
  ∀ (s : Sys2Proof.Machine.State) (w : BitVec 32),
    Sys2Proof.Claims.BarOpen s →
    (w.toNat / 4 % 2 = 0 → Sys2Proof.Claims.Runs (.configSpaceWrite 0 0x04 w) s (fun t =>
      t.hub.get (Sys2Proof.Machine.Pci.mse 0) = w.toNat / 2 % 2 ∧ t.hub.get (Sys2Proof.Machine.Pci.bme 0) = 0 ∧ t.hub.get (Sys2Proof.Machine.Pci.perr 0) = w.toNat / 2 ^ 6 % 2
        ∧ t.hub.get (Sys2Proof.Machine.Pci.serr 0) = w.toNat / 2 ^ 8 % 2 ∧ Sys2Proof.Claims.SameRegsBut [Sys2Proof.Machine.Pci.mse 0, Sys2Proof.Machine.Pci.bme 0, Sys2Proof.Machine.Pci.perr 0, Sys2Proof.Machine.Pci.serr 0] s t
        ∧ t.mem = s.mem ∧ t.pending = s.pending))
    ∧ (∀ p ∈ [((0x98 : BitVec 12), Sys2Proof.Machine.Pci.ctoValue 0), (0x108, Sys2Proof.Machine.Pci.aerUncMask 0), (0x10C, Sys2Proof.Machine.Pci.aerUncSev 0), (0x114, Sys2Proof.Machine.Pci.aerCorMask 0)],
        Sys2Proof.Machine.exec (.configSpaceWrite 0 p.1 w) s = .next (s.onHub (·.set p.2 w.toNat)))
    ∧ (∀ p ∈ [((0x104 : BitVec 12), Sys2Proof.Machine.Pci.aerUnc 0), (0x110, Sys2Proof.Machine.Pci.aerCor 0)], Sys2Proof.Claims.Runs (.configSpaceWrite 0 p.1 w) s (fun t =>
        Sys2Proof.Claims.SameRegsBut [p.2] s t ∧ t.mem = s.mem ∧ t.pending = s.pending
          ∧ ∀ k < 32, (t.hub.get p.2).testBit k = ((s.hub.get p.2).testBit k && !w.toNat.testBit k)))
    ∧ (w.toNat % 4 = 3 → Sys2Proof.Machine.exec (.configSpaceWrite 0 0x44 w) s = .next (s.onHub (·.set (Sys2Proof.Machine.Pci.d3 0) 1)))

/-- R39, R56, R502: a write of an RWF field at a new value is staged for PF MMIO, which comes to own the forecast, and the active value stays;
one by another than the owner is refused with NOT_OWNER and stages nothing. R4, R365: an access of another width or alignment is recorded with
code 0x0A01 and a read of it completes with zero; one of a function whose Memory Space Enable is 0 writes nothing. R344, R351, R363, R365:
configuration space of the PF once it no longer answers with CRS: the enables of Command, the completion timeout, and the AER status and mask
registers take what is written; a 1 in an AER status bit clears it; a power state of D3hot is entered. -/
def Obligations.StagedMalformedAndConfigurationWrites : Prop :=
  Sys2Proof.Claims.StagedAndMalformedWritesActAsStated ∧ Sys2Proof.Claims.ConfigurationSpaceWritesActAsStated

/-- R359, Table 10 of 15: a command of an enabled queue with a free completion slot, whose function may write, completes: its record of 16
bytes carries RESULT, SQ_HEAD, QID, STATUS and CID with the phase of the pass, goes to the slot that the queue's producer count names, and
the count moves on; a record behind a full queue, or of a function that may not write, is held; a queue in reset takes none. -/
def Obligations.CompletionsAreRecordedInOrder : Prop :=
  ∀ (h : Sys2Proof.Machine.Hub) (c : Sys2Proof.QCmd) (st r : Nat),
    (let x := h.qp c.fn c.q
     let t := h.complete c st r
     let lg := h.get (Sys2Proof.Machine.Reg.qCtrlCqLog2 c.fn c.q)
     let word := r % 2 ^ 64 + 2 ^ 64 * (c.sqHead % 2 ^ 16) + 2 ^ 80 * (c.q % 256) + 2 ^ 88 * (st % 256)
       + 2 ^ 96 * (c.raw.toNat / 2 ^ 16 % 2 ^ 16) + 2 ^ 112 * (if x.c / 2 ^ lg % 2 = 0 then 1 else 0)
     (64 ≤ c.q ∨ h.get (Sys2Proof.Machine.Reg.qStatusState c.fn c.q) = 0 → t = h)
     ∧ (c.q < 64 → c.fn < 64 → h.get (Sys2Proof.Machine.Reg.qStatusState c.fn c.q) = 1 → x.held = [] →
         (h.quiet c.fn = false → h.cqFull c.fn c.q = false → h.get (Sys2Proof.Machine.Reg.qCtrlIrqEn c.fn c.q) = 0 →
            t.sent = .hostWrite c.fn (h.get (Sys2Proof.Machine.Reg.qCqBaseAddr c.fn c.q) * 4096 + 16 * (x.c % 2 ^ lg)) 16 word :: h.sent
              ∧ (t.qp c.fn c.q).c = (x.c + 1) % 2 ^ 32 ∧ (t.qp c.fn c.q).held = [] ∧ (t.qp c.fn c.q).openCmds = x.openCmds.erase c)
         ∧ (h.quiet c.fn = true ∨ h.cqFull c.fn c.q = true →
            t.sent = h.sent ∧ (t.qp c.fn c.q).c = x.c ∧ (t.qp c.fn c.q).held.length = 1 ∧ (t.qp c.fn c.q).openCmds = x.openCmds.erase c))
     ∧ t.sea = h.sea ∧ t.mor = h.mor ∧ t.drift = h.drift)

/-- R93, R358, R351, R337: a LAUNCH completes with the first failing status of Table 7, and otherwise, its descriptor read without poison
and accepted, joins the launches of its partition under a number of its own; nothing else changes. -/
def Obligations.LaunchesAreCheckedAndQueued : Prop :=
  ∀ (c : Sys2Proof.QCmd) (s : Sys2Proof.Machine.State),
    (let p := s.hub.cmdPart c
     let i := Sys2Proof.Instr.launch c
     let completes (u : Sys2Proof.Machine.State) (st : Nat) : Prop := Sys2Proof.Machine.exec i s = .next (u.onHub (·.complete c st 0))
     let named := c.fn ≠ 0 ∨ p < 24
     let shut := s.hub.whiteout = true ∨ s.hub.life = 3
     let formed := Sys2Proof.Machine.cmdHeader c true = 0 ∧ Sys2Proof.Machine.qz c 0x1A 0x40 = true ∧ Sys2Proof.Machine.qf c 0x10 8 % 64 = 0
     let read := s.translate ⟨s.hub.descFloe p / 256, ⟨0, s.hub.descFloe p, Sys2Proof.Machine.qf c 0x18 2⟩, p, p, Sys2Proof.Machine.qf c 0x10 8, .read, .command c⟩
     (¬ named → completes s 0x02)
     ∧ (named → shut → completes s 0x0D)
     ∧ (named → ¬ shut → s.hub.partState p = 4 → completes s 0x10)
     ∧ (named → ¬ shut → s.hub.partState p ≠ 4 → s.hub.partState p ≠ 2 → completes s 0x0D)
     ∧ (named → ¬ shut → s.hub.partState p = 2 → ¬ formed → completes s 0x02)
     ∧ (named → ¬ shut → s.hub.partState p = 2 → formed →
         ∀ a ∈ read.1, (let got := read.2.hubRead (.part p) a 128 true
           let l := Sys2Proof.Machine.Launch.new c p got.v
           (got.st ≠ 0 → completes got.s got.st)
           ∧ (got.st = 0 → got.bad ≠ 0 → completes got.s 0x08)
           ∧ (got.st = 0 → got.bad = 0 → got.s.hub.launchCheck l ≠ 0 → completes got.s (got.s.hub.launchCheck l))
           ∧ (got.st = 0 → got.bad = 0 → got.s.hub.launchCheck l = 0 →
               Sys2Proof.Machine.exec i s = .next (got.s.onHub (·.setLaunch got.s.hub.nextLaunch l))
                 ∧ ∀ k, Sys2Proof.Machine.tlook got.s.hub.sea.launches k ≠ none → k < got.s.hub.nextLaunch))))

/-- R89, R91, Table 6 of 04: a tile that may start takes the launch's next index in the lowest free slot of the floe: its cores start at
ENTRY_PC with the tile's coordinates, the core's index, slot, floe and launch in s2-s8, ready to issue unless the launch is CO_RESIDENT; the
other cores and, on a floe already prepared, memory are as before. -/
def Obligations.TilesStartInOrder : Prop :=
  ∀ (k : Nat) (floe : BitVec 9) (s : Sys2Proof.Machine.State) (l : Sys2Proof.Machine.Launch) (slot : Nat),
    s.hub.floeExists floe.toNat = true → Sys2Proof.Machine.tlook s.hub.sea.launches k = some l → s.hub.canStart k floe.toNat l = true →
    l.freeSlot floe.toNat = some slot → l.flag 1 = false →
    (let f := floe.toNat
     let started (u : Sys2Proof.Machine.State) (t : Sys2Proof.Machine.State) : Prop :=
       t.mem = u.mem ∧ t.pending = s.pending
       ∧ Sys2Proof.Machine.tlook t.hub.sea.launches k = some { l with
           next := l.next + 1, running := l.running ++ [(f, slot, l.next, l.tc)], prepared := Sys2Proof.Machine.kadd l.prepared f }
       ∧ t.hub.get (Sys2Proof.Machine.Reg.flcFloeStatusState f) = 2 ∧ t.hub.get (Sys2Proof.Machine.Reg.flcFloeStatusLaunchId f) = l.id
       ∧ (∀ m, m < 128 * f + slot * l.tc ∨ 128 * f + slot * l.tc + l.tc ≤ m → t.hub.core m = s.hub.core m)
       ∧ (∀ i < l.tc, (let x := t.hub.core (128 * f + slot * l.tc + i)
           x.run = .ready ∧ x.launch = k + 1 ∧ x.tile = l.next ∧ x.slot = slot ∧ x.pc = BitVec.ofNat 32 (l.f 0x0C 4)
             ∧ x.s 2 = BitVec.ofNat 64 (l.next % l.f 0x20 4) ∧ x.s 3 = BitVec.ofNat 64 (l.next / l.f 0x20 4 % l.f 0x24 4)
             ∧ x.s 4 = BitVec.ofNat 64 (l.next / (l.f 0x20 4 * l.f 0x24 4)) ∧ x.s 5 = BitVec.ofNat 64 i
             ∧ x.s 6 = BitVec.ofNat 64 slot ∧ x.s 7 = BitVec.ofNat 64 f ∧ x.s 8 = BitVec.ofNat 64 l.id
             ∧ x.fflags = 0 ∧ x.fctrl = 0 ∧ x.dewtag = 0 ∧ x.instret = 0))
     (Sys2Proof.Machine.kmem l.prepared f = true → Sys2Proof.Claims.Runs (.tileStart k floe) s (started s)))

namespace Sys2Proof.Claims

open Sys2Proof Machine

/-- The floes of `l` stand as a floe domain reset leaves them (R80, R97): no core holds a tile. -/
def FloesReset (l : List Nat) (t : State) : Prop := ∀ m, m / 128 ∈ l → t.hub.core m = Core.rst

/-- A launch that still is listed has the status fixed and its completion posted. -/
def Fixed (k st : Nat) (t : State) : Prop := ∀ l, tlook t.hub.sea.launches k = some l → l.status = some st ∧ l.posted = true

end Sys2Proof.Claims

/-- R94, R95, R96: the last tile ended, a launch completes with OK and its LAUNCH_ID, and EVENT_VA, where given, counts one; TIMEOUT_US
resets every floe that runs it and completes it with TIMEOUT, an abort command the same with ABORTED; an abort that names no launch in progress
completes with OK and does nothing more. A launch whose status is fixed, or whose tiles still run, does not complete. -/
def Obligations.LaunchesEndAsStated : Prop :=
  ∀ (k : Nat) (s : Sys2Proof.Machine.State) (l : Sys2Proof.Machine.Launch) (c : Sys2Proof.QCmd),
    (Sys2Proof.Machine.tlook s.hub.sea.launches k = some l →
     (let isOver := l.next = l.total ∧ l.running = [] ∧ s.hub.dmaOf k = false
     let done := s.hub.complete l.cmd 0 (l.id + 2 ^ 16 * l.flags)
     (l.status = none → isOver → l.f 0x30 8 = 0 → Sys2Proof.Claims.Runs (.launchComplete k) s (fun t =>
        Sys2Proof.Machine.tlook t.hub.sea.launches k = none ∧ t.hub.sent = done.sent ∧ t.hub.queues = done.queues ∧ t.hub.regs = done.regs
          ∧ t.mem = s.mem ∧ t.pending = s.pending))
     ∧ (l.status = none → isOver → l.f 0x30 8 ≠ 0 →
          (let x := s.translate (l.acc k (l.set.headD 0) (l.f 0x30 8) .write)
           (x.1 = none → Sys2Proof.Machine.exec (.launchComplete k) s = .next x.2)
           ∧ (∀ a ∈ x.1, Sys2Proof.Machine.exec (.launchComplete k) s = .next ((x.2.onHub (·.launchPost k 0)).eventAdd a))))
     ∧ (l.status ≠ none ∨ ¬ isOver → Sys2Proof.Machine.exec (.launchComplete k) s = .next s)
     ∧ (l.status = none → l.next ≠ 0 → l.f 0x2C 4 ≠ 0 → Sys2Proof.Claims.Runs (.launchTimeout k) s (fun t =>
          Sys2Proof.Claims.FloesReset l.floes t ∧ Sys2Proof.Claims.Fixed k 0x06 t ∧ t.hub.get Sys2Proof.Machine.Reg.flcEventTimeout = 1 ∧ t.mem = s.mem ∧ t.pending = s.pending
            ∧ (∀ p < 24, t.hub.get (Sys2Proof.Machine.Reg.flcKfaultValid p) = s.hub.get (Sys2Proof.Machine.Reg.flcKfaultValid p))))
     ∧ (l.status ≠ none ∨ l.next = 0 ∨ l.f 0x2C 4 = 0 → Sys2Proof.Machine.exec (.launchTimeout k) s = .next s)))
     ∧ (s.hub.cmdCheck c true = 0 → Sys2Proof.Machine.qz c 0x10 0x18 = true → Sys2Proof.Machine.qz c 0x1A 0x40 = true →
          (let named (x : Nat × Sys2Proof.Machine.Launch) : Bool :=
             decide (x.2.part = s.hub.cmdPart c) && decide (x.2.id = Sys2Proof.Machine.qf c 0x18 2) && x.2.status.isNone
           (s.hub.sea.launches.find? named = some (k, l) → Sys2Proof.Machine.tlook s.hub.sea.launches k = some l → Sys2Proof.Claims.Runs (.launchAbort c) s (fun t =>
              Sys2Proof.Claims.FloesReset l.floes t ∧ Sys2Proof.Claims.Fixed k 0x07 t ∧ t.mem = s.mem ∧ t.pending = s.pending
                ∧ (∀ p < 24, t.hub.get (Sys2Proof.Machine.Reg.flcKfaultValid p) = s.hub.get (Sys2Proof.Machine.Reg.flcKfaultValid p))))
           ∧ (s.hub.sea.launches.find? named = none → Sys2Proof.Machine.exec (.launchAbort c) s = .next (s.onHub (·.complete c 0 0)))))
     ∧ (s.hub.cmdCheck c true ≠ 0 → Sys2Proof.Machine.exec (.launchAbort c) s = .next (s.onHub (·.complete c (s.hub.cmdCheck c true) 0)))

/-- R82, R97, R100, R105, R106, FLC_FLOE_CTRL: a reset floe stands idle again, or power-gated where it belongs to no partition; RESET is
honoured on an idle floe only, else RESET_REFUSED is set; an idle floe's clock is gated; a frequency from 0.6 GHz up is taken as the rail
allows; a waiting core runs on once (value - target) mod 2^32 is below 2^31. A number that names no floe is no unit of the hub. -/
def Obligations.FloesResetGateAndWake : Prop :=
  ∀ (floe : BitVec 9) (freq : BitVec 4) (c : Sys2Proof.CoreId) (k target : Nat) (s : Sys2Proof.Machine.State),
    (let f := floe.toNat
     let state := s.hub.get (Sys2Proof.Machine.Reg.flcFloeStatusState f)
     let u := s.wroteBy 0
     (s.hub.floeExists f = true →
       (state = 3 → Sys2Proof.Machine.exec (.floeResetDone floe) s =
          .next (s.onHub (·.set (Sys2Proof.Machine.Reg.flcFloeStatusState f) (if s.hub.floeOwner f < 24 then 1 else 0))))
       ∧ (state ≠ 3 → Sys2Proof.Machine.exec (.floeResetDone floe) s = .next s)
       ∧ (state = 1 → Sys2Proof.Claims.Runs (.floeCtrlReset floe) s (fun t =>
            Sys2Proof.Claims.FloesReset [f] t ∧ t.hub.get (Sys2Proof.Machine.Reg.flcFloeStatusState f) = 3 ∧ (∀ m, m / 128 ≠ f → t.hub.core m = s.hub.core m)
              ∧ t.mem = s.mem ∧ t.pending = s.pending))
       ∧ (state ≠ 1 → Sys2Proof.Claims.Runs (.floeCtrlReset floe) s (fun t =>
            t.hub.get Sys2Proof.Machine.Reg.flcEventResetRefused = 1 ∧ Sys2Proof.Claims.SameRegsBut [Sys2Proof.Machine.Reg.flcEventResetRefused] s t ∧ t.hub.sea = s.hub.sea ∧ t.mem = s.mem
              ∧ t.pending = s.pending))
       ∧ (state = 1 → Sys2Proof.Machine.exec (.floeIdleGate floe) s =
            .next (s.onHub (fun h => { h with sea := { h.sea with gated := Sys2Proof.Machine.kadd h.sea.gated f } })))
       ∧ (freq.toNat < 6 → Sys2Proof.Machine.exec (.floeFreqChange floe freq) s = .next s)
       ∧ (6 ≤ freq.toNat → Sys2Proof.Machine.kmem s.hub.iso.railHeld (Sys2Proof.Machine.floeRail f) = false → freq.toNat ≤ s.hub.railFreq (Sys2Proof.Machine.floeRail f) →
            Sys2Proof.Machine.tget (6, []) s.hub.iso.railWait (Sys2Proof.Machine.floeRail f) = (6, []) → Sys2Proof.Claims.Runs (.floeFreqChange floe freq) s (fun t =>
              t.hub.get (Sys2Proof.Machine.Reg.flcFloeStatusFreq f) = freq.toNat ∧ t.hub.sea = s.hub.sea ∧ t.mem = s.mem ∧ t.pending = s.pending)))
     ∧ (s.hub.floeExists f = false → ∀ i ∈ [Sys2Proof.Instr.tileStart k floe, Sys2Proof.Instr.floeResetDone floe, Sys2Proof.Instr.floeIdleGate floe,
          Sys2Proof.Instr.floeFreqChange floe freq], Sys2Proof.Machine.exec i s = .fault .noSuchUnit)
     ∧ (s.hub.floeExists c.floe.toNat = true → (s.hub.core (Sys2Proof.Machine.coreNum c)).run = .waitEvent k target →
          (let met := (s.mem.counter c.floe.toNat k + 2 ^ 32 - target % 2 ^ 32) % 2 ^ 32 < 2 ^ 31
           (met → s.mem.counter c.floe.toNat k < 2 ^ 32 → Sys2Proof.Machine.exec (.evtWaitWake c) s =
              .next (s.onHub (·.setCore (Sys2Proof.Machine.coreNum c) { s.hub.core (Sys2Proof.Machine.coreNum c) with run := .ready })))
           ∧ (¬ met → s.mem.counter c.floe.toNat k < 2 ^ 32 → Sys2Proof.Machine.exec (.evtWaitWake c) s = .next s))))

/-- R101, R102, R104, R133: a floe DMA request behind an earlier one does not start while ORDERED is set; one that its port has admitted,
between private memories of its core at one format, copies its row with the poison of its source, leaves the channel, adds 1 to EVENT where
that names a counter, and lets the cores run on that waited for the channel. Of an index that the channel does not hold, nothing. -/
def Obligations.FloeDmaRequestsCopyAndComplete : Prop :=
  ∀ (floe : BitVec 9) (ch : BitVec 4) (i : BitVec 2) (s : Sys2Proof.Machine.State) (q : Sys2Proof.Machine.DmaReq) (src dst n : Nat),
    s.hub.floeExists floe.toNat = true →
    (let f := floe.toNat
     let ring := Sys2Proof.Machine.tget [] s.hub.sea.dma (16 * f + ch.toNat)
     let sent := s.mem.storeBits (Sys2Proof.Machine.privBase q.core + dst) n (s.mem.rd (Sys2Proof.Machine.privBase q.core + src) n)
       (Sys2Proof.Machine.shiftBad (0xFFF0000000000 + src) (0xFFF0000000000 + dst) n (s.mem.badBits (Sys2Proof.Machine.privBase q.core + src) n))
     let rest := ring.filter (fun r => !decide (r.id = q.id))
     let event := Sys2Proof.Machine.dmaF q.body 0x22 1
     (ring[i.toNat]? = none → Sys2Proof.Machine.exec (.dmaComplete floe ch i) s = .next s)
     ∧ (ring[i.toNat]? = some q → Sys2Proof.Machine.dmaF q.body 0x23 1 % 2 = 1 → i ≠ 0 → Sys2Proof.Machine.exec (.dmaComplete floe ch i) s = .next s)
     ∧ (ring[i.toNat]? = some q → (Sys2Proof.Machine.dmaF q.body 0x23 1 % 2 = 0 ∨ i = 0) → q.paid = true → q.wrote = false → q.tag = none →
          Sys2Proof.Machine.dmaF q.body 0 8 = 0xFFF0000000000 + src → Sys2Proof.Machine.dmaF q.body 8 8 = 0xFFF0000000000 + dst →
          Sys2Proof.Machine.dmaF q.body 0x10 4 = n → 32 ≤ n → src + n ≤ 0x4000 → dst + n ≤ 0x4000 → Sys2Proof.Machine.dmaF q.body 0x14 4 = 1 →
          Sys2Proof.Machine.dmaF q.body 0x20 1 = Sys2Proof.Machine.dmaF q.body 0x21 1 → s.hub.anyOut (.dma f ch.toNat q.id) = false →
          Sys2Proof.Claims.Runs (.dmaComplete floe ch i) s (fun t =>
            t.mem = (if event < 64 then sent.setCounter f event ((sent.counter f event + 1) % 2 ^ 32) else sent)
              ∧ Sys2Proof.Machine.tget [] t.hub.sea.dma (16 * f + ch.toNat) = rest ∧ t.pending = s.pending
              ∧ (∀ m, m / 128 = f → ((s.hub.core m).run = .dmaFull ch.toNat ∨ ((s.hub.core m).run = .waitDma ch.toNat ∧ rest = [])) →
                  (t.hub.core m).run = .ready)
              ∧ (∀ m, m / 128 ≠ f → t.hub.core m = s.hub.core m) ∧ t.hub.regs = s.hub.regs)))

/-- R171, R172, R173, R174, R181: the oldest selected block of a die's queue joins its tag's window, which counts it; a full window closes with
LAST_RMS and LAST_MAX and starts again; it crosses if either lies above its threshold, and then TRIPS counts it, DEW_LAST names the tag
and its ACTION, and ACTION 1 and above set DEW_EVENT.TRIP, HALT the tag's HALTED too. -/
def Sys2Proof.Claims.WindowsCountCloseAndTrip : Prop :=
  ∀ (s : Sys2Proof.Machine.State) (part : BitVec 5) (tag : BitVec 8) (x : Sys2Proof.Machine.DewSample) (rest : List Sys2Proof.Machine.DewSample) (a b : Nat),
    part.toNat < 24 →
    (let p := part.toNat
     let t := tag.toNat
     let win := Sys2Proof.Machine.tget Sys2Proof.Machine.DewWin.rst s.hub.dew.wins (256 * p + t)
     let size := 2 ^ s.hub.get (Sys2Proof.Machine.Reg.dewTagWindowLog2 p t)
     let full := size ≤ s.hub.get (Sys2Proof.Machine.Reg.dewStatCount p t)
     let crosses := s.hub.get (Sys2Proof.Machine.Reg.dewTagRmsTh p t) < a ∨ s.hub.get (Sys2Proof.Machine.Reg.dewTagMaxTh p t) < b
     let action := s.hub.get (Sys2Proof.Machine.Reg.dewTagAction p t)
     let closed (u : Sys2Proof.Machine.State) : Prop := u.hub.get (Sys2Proof.Machine.Reg.dewStatLastRms p t) = a ∧ u.hub.get (Sys2Proof.Machine.Reg.dewStatLastMax p t) = b
       ∧ u.hub.get (Sys2Proof.Machine.Reg.dewStatCount p t) = 0 ∧ Sys2Proof.Machine.tget Sys2Proof.Machine.DewWin.rst u.hub.dew.wins (256 * p + t) = Sys2Proof.Machine.DewWin.rst
       ∧ u.mem = s.mem ∧ u.pending = s.pending
     (s.hub.dew.q0 = [] → Sys2Proof.Machine.exec (.dewpointRecompute 0) s = .next s)
     ∧ (s.hub.dew.q1 = [] → Sys2Proof.Machine.exec (.dewpointRecompute 1) s = .next s)
     ∧ (s.hub.dew.q0 = x :: rest → x.part = p → x.tag = t → ¬ full → s.hub.get (Sys2Proof.Machine.Reg.dewStatCount p t) < 2 ^ 16 - 1 →
          Sys2Proof.Claims.Runs (.dewpointRecompute 0) s (fun u => u.hub.dew.q0 = rest
            ∧ u.hub.get (Sys2Proof.Machine.Reg.dewStatCount p t) = s.hub.get (Sys2Proof.Machine.Reg.dewStatCount p t) + 1
            ∧ Sys2Proof.Machine.tget Sys2Proof.Machine.DewWin.rst u.hub.dew.wins (256 * p + t) = win.add x.diffs
            ∧ Sys2Proof.Claims.SameRegsBut [Sys2Proof.Machine.Reg.dewStatCount p t] s u ∧ u.mem = s.mem ∧ u.pending = s.pending))
     ∧ (¬ full → Sys2Proof.Machine.exec (.windowClose part tag) s = .next s)
     ∧ (full → (match Sys2Proof.Machine.fp64.dec win.x2 with | .fin _ 0 _ => false | _ => true) = true →
          Sys2Proof.Machine.f64unit (Sys2Proof.Machine.f64sqrt (Sys2Proof.Machine.f64div win.e2 win.x2)) = some a → Sys2Proof.Machine.f64unit win.mx = some b →
          (¬ crosses → Sys2Proof.Claims.Runs (.windowClose part tag) s (fun u => closed u
            ∧ u.hub.get (Sys2Proof.Machine.Reg.dewStatTrips p t) = s.hub.get (Sys2Proof.Machine.Reg.dewStatTrips p t) ∧ u.hub.get Sys2Proof.Machine.Reg.dewEventTrip = s.hub.get Sys2Proof.Machine.Reg.dewEventTrip))
          ∧ (crosses → s.hub.get (Sys2Proof.Machine.Reg.dewTagMigrating p t) = 0 → Sys2Proof.Claims.Runs (.windowClose part tag) s (fun u => closed u
              ∧ u.hub.get (Sys2Proof.Machine.Reg.dewStatTrips p t) = min (2 ^ 32 - 1) (s.hub.get (Sys2Proof.Machine.Reg.dewStatTrips p t) + 1)
              ∧ u.hub.get Sys2Proof.Machine.Reg.dewLastPartition = p ∧ u.hub.get Sys2Proof.Machine.Reg.dewLastTag = t ∧ u.hub.get Sys2Proof.Machine.Reg.dewLastAction = action % 4
              ∧ (action ≠ 0 → u.hub.get Sys2Proof.Machine.Reg.dewEventTrip = 1)
              ∧ (action = 3 → u.hub.get (Sys2Proof.Machine.Reg.dewTagHalted p t) = 1 ∧ u.hub.get Sys2Proof.Machine.Reg.dewEventHalt = 1)))))

/-- R169, R176, R177, R178, R181: a promotion that waited the longest starts with MIGRATING 1, FRONTIER 0 and NEXT_FMT the next format of the
chain, unless four migrations of the partition run; a group rewritten moves FRONTIER on by one; at GROUPS the tag's FMT becomes NEXT_FMT,
MIGRATING ends, PROMOTED is set and the window starts again. HALTED is ended by a write of 1, CLEAR zeroes the counters. Stated for hubs
without open engine requests, which a moved FRONTIER lets run on. -/
def Sys2Proof.Claims.MigrationsRewriteGroupByGroup : Prop :=
  ∀ (s : Sys2Proof.Machine.State) (part : BitVec 5) (tag : BitVec 8) (fn : BitVec 6) (f t : Nat) (l d : List (Nat × Nat)) (u v : Sys2Proof.Machine.State),
    part.toNat < 24 → tag.toNat = t → s.hub.sites = [] →
    (let p := part.toNat
     let frontier := s.hub.get (Sys2Proof.Machine.Reg.dewTagFrontier p t)
     let groups := s.hub.get (Sys2Proof.Machine.Reg.dewTagGroups p t)
     let sf := Sys2Proof.Machine.FmtByte.ofNat (s.hub.get (Sys2Proof.Machine.Reg.dewTagFmt p t))
     let df := Sys2Proof.Machine.FmtByte.ofNat (s.hub.get (Sys2Proof.Machine.Reg.dewTagNextFmt p t))
     let va := s.hub.get (Sys2Proof.Machine.Reg.dewTagBase p t) + frontier * s.hub.get (Sys2Proof.Machine.Reg.dewTagStride p t)
     let runs := s.hub.dew.running.contains (p, t)
     let by0 := s.wroteBy 0
     (s.hub.dew.waiting.find? (fun x => decide (x.1 = p)) = some (p, t) → s.hub.migrations p < 4 →
        Sys2Proof.Machine.nextFmt (s.hub.get (Sys2Proof.Machine.Reg.dewTagFmt p t)) = some f → Sys2Proof.Claims.Runs (.migrationStart part) s (fun w =>
          w.hub.get (Sys2Proof.Machine.Reg.dewTagMigrating p t) = 1 ∧ w.hub.get (Sys2Proof.Machine.Reg.dewTagFrontier p t) = 0 ∧ w.hub.get (Sys2Proof.Machine.Reg.dewTagNextFmt p t) = f % 256
            ∧ w.hub.dew.running = s.hub.dew.running ++ [(p, t)] ∧ w.hub.dew.waiting = s.hub.dew.waiting.erase (p, t)
            ∧ Sys2Proof.Claims.SameRegsBut [Sys2Proof.Machine.Reg.dewTagMigrating p t, Sys2Proof.Machine.Reg.dewTagFrontier p t, Sys2Proof.Machine.Reg.dewTagNextFmt p t] s w ∧ w.mem = s.mem))
     ∧ (4 ≤ s.hub.migrations p → Sys2Proof.Machine.exec (.migrationStart part) s = .next s)
     ∧ (runs = true → s.hub.migStuck p t = false → frontier < groups → frontier < 2 ^ 32 - 1 →
          s.span (Sys2Proof.Machine.migAcc p t va .read) (Sys2Proof.Machine.groupSize sf) = (some l, u) → u.span (Sys2Proof.Machine.migAcc p t va .write) (Sys2Proof.Machine.groupSize df) = (some d, v) →
          Sys2Proof.Claims.Runs (.migrationGroupDone part tag) s (fun w => w.hub.get (Sys2Proof.Machine.Reg.dewTagFrontier p t) = frontier + 1
            ∧ w.hub.get (Sys2Proof.Machine.Reg.dewTagMigrating p t) = s.hub.get (Sys2Proof.Machine.Reg.dewTagMigrating p t) ∧ w.pending = s.pending))
     ∧ (runs = false → Sys2Proof.Machine.exec (.migrationGroupDone part tag) s = .next s ∧ Sys2Proof.Machine.exec (.migrationComplete part tag) s = .next s)
     ∧ (runs = true → groups ≤ frontier → Sys2Proof.Claims.Runs (.migrationComplete part tag) s (fun w =>
          w.hub.get (Sys2Proof.Machine.Reg.dewTagFmt p t) = s.hub.get (Sys2Proof.Machine.Reg.dewTagNextFmt p t) % 256 ∧ w.hub.get (Sys2Proof.Machine.Reg.dewTagMigrating p t) = 0
            ∧ w.hub.get Sys2Proof.Machine.Reg.dewEventPromoted = 1 ∧ w.hub.get (Sys2Proof.Machine.Reg.dewStatCount p t) = 0
            ∧ w.hub.dew.running = s.hub.dew.running.erase (p, t) ∧ w.mem = s.mem ∧ w.pending = s.pending))
     ∧ (s.hub.get (Sys2Proof.Machine.Reg.dewTagHalted p t) ≠ 0 → Sys2Proof.Claims.Runs (.haltedClear 0 part tag) s (fun w =>
          w.hub.get (Sys2Proof.Machine.Reg.dewTagHalted p t) = 0 ∧ w.hub.get (Sys2Proof.Machine.Reg.dewStatCount p t) = 0
            ∧ Sys2Proof.Claims.SameRegsBut [Sys2Proof.Machine.Reg.dewTagHalted p t, Sys2Proof.Machine.Reg.dewStatCount p t] s w ∧ w.mem = s.mem ∧ w.pending = s.pending))
     ∧ (s.hub.get (Sys2Proof.Machine.Reg.dewTagHalted p t) = 0 → Sys2Proof.Machine.exec (.haltedClear 0 part tag) s = .next by0)
     ∧ Sys2Proof.Claims.Runs (.dewCounterClear 0 part tag) s (fun w =>
          (∀ g ∈ [Sys2Proof.Machine.Reg.dewStatSat p t, Sys2Proof.Machine.Reg.dewStatOf p t, Sys2Proof.Machine.Reg.dewStatNv p t, Sys2Proof.Machine.Reg.dewStatEsc p t, Sys2Proof.Machine.Reg.dewStatEscovf p t, Sys2Proof.Machine.Reg.dewStatBad p t,
              Sys2Proof.Machine.Reg.dewStatTrips p t, Sys2Proof.Machine.Reg.dewStatSkipped p t], w.hub.get g = 0)
            ∧ Sys2Proof.Claims.SameRegsBut [Sys2Proof.Machine.Reg.dewStatSat p t, Sys2Proof.Machine.Reg.dewStatOf p t, Sys2Proof.Machine.Reg.dewStatNv p t, Sys2Proof.Machine.Reg.dewStatEsc p t, Sys2Proof.Machine.Reg.dewStatEscovf p t, Sys2Proof.Machine.Reg.dewStatBad p t,
                Sys2Proof.Machine.Reg.dewStatTrips p t, Sys2Proof.Machine.Reg.dewStatSkipped p t] s w ∧ w.mem = s.mem ∧ w.pending = s.pending)
     ∧ (fn ≠ 0 → s.hub.tagPart fn.toNat p = 31 → Sys2Proof.Machine.exec (.dewCounterClear fn part tag) s = .next (s.wroteBy fn.toNat)
          ∧ Sys2Proof.Machine.exec (.haltedClear fn part tag) s = .next (s.wroteBy fn.toNat)))

/-- R171, R172, R173, R174, R181: the oldest selected block of a die's queue joins its tag's window, which counts it; a full window closes with
LAST_RMS and LAST_MAX and starts again; it crosses if either lies above its threshold, and then TRIPS counts it, DEW_LAST names the tag and its
ACTION, and ACTION 1 and above set DEW_EVENT.TRIP, HALT the tag's HALTED too. R169, R176, R177, R178, R181: a promotion that waited the longest
starts with MIGRATING 1, FRONTIER 0 and NEXT_FMT the next format of the chain, unless four migrations of the partition run; a group rewritten
moves FRONTIER on by one; at GROUPS the tag's FMT becomes NEXT_FMT, MIGRATING ends, PROMOTED is set and the window starts again. HALTED is ended
by a write of 1, CLEAR zeroes the counters. Stated for hubs without open engine requests, which a moved FRONTIER lets run on. -/
def Obligations.DewpointWindowsAndMigrations : Prop :=
  Sys2Proof.Claims.WindowsCountCloseAndTrip ∧ Sys2Proof.Claims.MigrationsRewriteGroupByGroup

namespace Sys2Proof.Claims

open Sys2Proof Machine

/-- A parity check that finds nothing. -/
def noParity : ParityFind := ⟨0, false, false⟩

/-- An ECC check that finds nothing. -/
def noEcc : EccFind := ⟨0, 0, 0, false⟩

/-- Nothing is open on a line: no miss, no eviction, no request that waits. -/
def LineFree (s : State) (line : Nat) : Prop :=
  s.mem.misses.find? (fun e => decide (e.line = line)) = none ∧ s.mem.evicts.find? (fun e => decide (e.line = line)) = none
    ∧ s.mem.waiting.any (fun x => decide (x.2.line = line)) = false

/-- The bytes, marks and fill state of memory behind the slices are as before. -/
def SameBacking (s t : State) : Prop :=
  t.mem.bytes = s.mem.bytes ∧ t.mem.poison = s.mem.poison ∧ t.mem.fill = s.mem.fill ∧ t.mem.cells = s.mem.cells

end Sys2Proof.Claims

/-- R214-R217, R219: at its home slice, with nothing open on its line, a read of held valid sectors answers the line's data and counts a
hit; a write of whole sectors to a held line makes them valid and dirty with the data and poison given; a request that does not allocate is
forwarded as a miss; one to a line already being fetched joins its miss; a request of another slice's line is none of the slice's. -/
def Sys2Proof.Claims.SliceRequestsHitJoinOrMiss : Prop :=
  ∀ (slice : BitVec 8) (r : Sys2Proof.SliceReq) (s : Sys2Proof.Machine.State) (l : Sys2Proof.Machine.FirnLine) (e : Sys2Proof.Machine.MissEntry),
    s.hub.region (128 * r.line) = .stack →
    (let sl := slice.toNat
     let i := Sys2Proof.Instr.sliceRequest slice r Sys2Proof.Claims.noParity
     let here := (s.hub.home (128 * r.line)).1 = sl
     (¬ here → Sys2Proof.Machine.exec i s = .next s)
     ∧ (here → Sys2Proof.Claims.LineFree s r.line → Sys2Proof.Machine.tlook s.mem.lines r.line = some l → r.write = false → r.sectors.toNat &&& (15 - l.valid) = 0 →
          Sys2Proof.Machine.exec i s = .next (s.onHub (fun h => (h.wrap (Sys2Proof.Machine.Reg.frnPerfHitCount sl) 1).send (.slice r.tag false l.data l.poison))))
     ∧ (here → Sys2Proof.Claims.LineFree s r.line → Sys2Proof.Machine.tlook s.mem.lines r.line = some l → r.write = true →
          (∀ k < 4, Sys2Proof.Machine.bits r.mask.toNat (32 * k) 32 = 0 ∨ Sys2Proof.Machine.bits r.mask.toNat (32 * k) 32 = 2 ^ 32 - 1) → Sys2Proof.Claims.Runs i s (fun t =>
            Sys2Proof.Claims.SameBacking s t ∧ t.hub.sent = .slice r.tag true 0 0 :: s.hub.sent ∧ t.pending = s.pending
              ∧ Sys2Proof.Claims.SameRegsBut [Sys2Proof.Machine.Reg.frnPerfHitCount sl] s t
              ∧ (∀ m ∈ Sys2Proof.Machine.tlook t.mem.lines r.line, ∀ k < 4,
                  if Sys2Proof.Machine.bits r.mask.toNat (32 * k) 32 = 0 then
                    Sys2Proof.Machine.secGet m.data k = Sys2Proof.Machine.secGet l.data k ∧ m.valid.testBit k = l.valid.testBit k ∧ m.dirty.testBit k = l.dirty.testBit k
                      ∧ m.poison.testBit k = l.poison.testBit k
                  else Sys2Proof.Machine.secGet m.data k = Sys2Proof.Machine.secGet r.data.toNat k ∧ m.valid.testBit k = true ∧ m.dirty.testBit k = true
                    ∧ m.poison.testBit k = r.poison.toNat.testBit k)
              ∧ (∀ j, j ≠ r.line → Sys2Proof.Machine.tlook t.mem.lines j = Sys2Proof.Machine.tlook s.mem.lines j)))
     ∧ (here → Sys2Proof.Claims.LineFree s r.line → Sys2Proof.Machine.tlook s.mem.lines r.line = none → r.alloc = false → s.mem.missFull sl = false →
          Sys2Proof.Machine.exec i s = .next { s with
            hub := s.hub.wrap (Sys2Proof.Machine.Reg.frnPerfMissCount sl) 1,
            mem := { s.mem with misses := s.mem.misses ++
              [⟨sl, r.line, if r.write then 0 else r.sectors.toNat, none, false, [r], none⟩] } })
     ∧ (here → Sys2Proof.Machine.tlook s.mem.lines r.line = none → s.mem.evicts.find? (fun e => decide (e.line = r.line)) = none →
          s.mem.waiting.any (fun x => decide (x.2.line = r.line)) = false →
          s.mem.misses.find? (fun e => decide (e.line = r.line)) = some e →
          (e.reqs.length < 16 → Sys2Proof.Machine.exec i s = .next { s with mem := { s.mem with
            misses := s.mem.misses.map (fun x => if x = e then { x with reqs := x.reqs ++ [r] } else x) } })
          ∧ (16 ≤ e.reqs.length → Sys2Proof.Machine.exec i s = .next { s with mem := { s.mem with waiting := s.mem.waiting ++ [(sl, r)] } })))

/-- R187, R190, R217, R218, R220, R330, R332: a controller answers a forwarded read with the sectors of the stack, zero where the granule is
unfilled, and takes an uncached write into the stack if it carries the half-stack's key generation; returned data serve the request that
was forwarded, installing the line where a way was reserved; an acknowledged write-back has the victim's dirty sectors, poison marks
included, in the stack. Of no such entry, nothing. -/
def Sys2Proof.Claims.MissesAreServedAndVictimsWrittenBack : Prop :=
  ∀ (slice : BitVec 8) (line tag : Nat) (s : Sys2Proof.Machine.State) (e : Sys2Proof.Machine.MissEntry) (r : Sys2Proof.SliceReq) (v : Sys2Proof.Machine.Evict) (d p w : Nat),
    (let sl := slice.toNat
     let a := 128 * line
     let taken := s.mem.misses.find? (fun e => decide (e.slice = sl) && e.ret.isNone && decide ((e.reqs.head?.map (·.tag)) = some tag))
     let back := s.mem.misses.find? (fun e => decide (e.slice = sl) && decide (e.line = line) && e.ret.isSome)
     let open' := s.mem.evicts.find? (fun e => decide (e.slice = sl) && decide (e.line = line))
     let idle := s.mem.waiting = []
     let answer (dp : Nat × Nat) (m : Sys2Proof.Machine.Memory) : Sys2Proof.Machine.Memory :=
       { m with misses := m.misses.map (fun y => if y = e then { y with ret := some dp } else y) }
     let put (m : Sys2Proof.Machine.Memory) : Sys2Proof.Machine.State := { s with mem := m }
     let gone := { s.mem with misses := s.mem.misses.filter (fun x => !decide (x = e)) }
     (taken = none → Sys2Proof.Machine.exec (.channelRequest slice tag Sys2Proof.Claims.noEcc) s = .next s)
     ∧ (taken = some e → e.line = line → s.mem.channelFull a = false → s.hub.rowHeld a = false → e.reqs = [r] →
          s.hub.stackKind a = .usable → s.mem.poison = [] →
          (r.write = false → Sys2Proof.Machine.exec (.channelRequest slice tag Sys2Proof.Claims.noEcc) s = .next (put
             (answer (if s.mem.unfilled (Sys2Proof.Machine.halfOf a) (Sys2Proof.Machine.granOf a) then (0, 0) else s.mem.fetch line e.sectors 0 0) s.mem)))
          ∧ (r.write = true → e.way = none → Sys2Proof.Machine.exec (.channelRequest slice tag Sys2Proof.Claims.noEcc) s = .next (put
              (answer (0, 0) (if r.keyGen ≠ s.hub.keyGen (Sys2Proof.Machine.halfOf a) then s.mem
                else Sys2Proof.Machine.foldFrom 4 0 (fun k m => m.putBack line r.mask.toNat r.data.toNat r.poison.toNat k) s.mem)))))
     ∧ (back = none → Sys2Proof.Machine.exec (.fillReturn slice line) s = .next s)
     ∧ (back = some e → e.ret = some (d, p) → e.reqs = [r] → r.write = false → idle →
          (e.way = none → Sys2Proof.Machine.exec (.fillReturn slice line) s = .next ({ s with mem := gone }.onHub (·.send (.slice r.tag false d p))))
          ∧ (e.way = some w → e.invOnFill = false →
              (let l := e.fill w (s.hub.halfOwner (Sys2Proof.Machine.halfOf a)) (Sys2Proof.Machine.tlook s.mem.lines line) d p
               Sys2Proof.Machine.exec (.fillReturn slice line) s = .next ({ s with mem := { gone with lines := Sys2Proof.Machine.tput s.mem.lines line l } }.onHub
                 (·.send (.slice r.tag false l.data l.poison)))
               ∧ (Sys2Proof.Machine.tlook s.mem.lines line = none → ∀ k < 4, e.sectors.testBit k = true →
                   Sys2Proof.Machine.secGet l.data k = Sys2Proof.Machine.secGet d k ∧ l.valid.testBit k = true ∧ l.dirty.testBit k = false
                     ∧ l.poison.testBit k = p.testBit k))))
     ∧ (open' = none → Sys2Proof.Machine.exec (.writebackAck slice line) s = .next s)
     ∧ (open' = some v → v.waiting = [] → idle → Sys2Proof.Claims.Runs (.writebackAck slice line) s (fun t =>
          t.hub = s.hub ∧ t.pending = s.pending ∧ t.mem.lines = s.mem.lines
            ∧ t.mem.evicts = s.mem.evicts.filter (fun x => !decide (x = v))
            ∧ (∀ k < 4, t.mem.backSec line k =
                if v.dirty.testBit k then (Sys2Proof.Machine.secGet v.data k, v.poison.testBit k) else s.mem.backSec line k))))

/-- R214-R217, R219: at its home slice, with nothing open on its line, a read of held valid sectors answers the line's data and counts a hit; a
write of whole sectors to a held line makes them valid and dirty with the data and poison given; a request that does not allocate is forwarded as
a miss; one to a line already being fetched joins its miss; a request of another slice's line is none of the slice's. R187, R190, R217, R218,
R220, R330, R332: a controller answers a forwarded read with the sectors of the stack, zero where the granule is unfilled, and takes an uncached
write into the stack if it carries the half-stack's key generation; returned data serve the request that was forwarded, installing the line where
a way was reserved; an acknowledged write-back has the victim's dirty sectors, poison marks included, in the stack. Of no such entry, nothing. -/
def Obligations.FirnRequestsMissesAndVictims : Prop :=
  Sys2Proof.Claims.SliceRequestsHitJoinOrMiss ∧ Sys2Proof.Claims.MissesAreServedAndVictimsWrittenBack

/-- R225-R228, R218: a parity error in valid clean sectors drops the line and sets PARITY; one in a dirty sector poisons it and sets FATAL; a
way with four parity records in its window is disabled, its lines written back and dropped, with WAY_DISABLED; the seed of a slice's
replacement is loaded, 0 being reserved. -/
def Sys2Proof.Claims.ParityErrorsDropPoisonAndDisable : Prop :=
  ∀ (slice : BitVec 8) (r : Sys2Proof.SliceReq) (p : Sys2Proof.ParityFind) (s : Sys2Proof.Machine.State) (l : Sys2Proof.Machine.FirnLine) (way : BitVec 4) (seed : BitVec 16),
    (let sl := slice.toNat
     let w := way.toNat
     let bad := p.data.toNat &&& l.valid
     let disabled := s.hub.get (Sys2Proof.Machine.Reg.frnSliceStatusDisabled sl)
     (s.hub.region (128 * r.line) = .stack → (s.hub.home (128 * r.line)).1 = sl → Sys2Proof.Claims.LineFree s r.line →
        Sys2Proof.Machine.tlook s.mem.lines r.line = some l → r.alloc = false → r.write = false → s.mem.missFull sl = false →
        p.tag = false → p.unreadable = false → l.poison < 16 → l.dirty &&& l.valid = l.dirty →
        (bad ≠ 0 → bad &&& l.dirty = 0 → Sys2Proof.Claims.Runs (.sliceRequest slice r p) s (fun t =>
            Sys2Proof.Machine.tlook t.mem.lines r.line = none ∧ t.hub.get Sys2Proof.Machine.Reg.frnEventParity = 1 ∧ t.pending = s.pending))
        ∧ (bad ≠ 0 → bad &&& (15 - l.dirty) = 0 → Sys2Proof.Claims.Runs (.sliceRequest slice r p) s (fun t =>
            t.hub.get Sys2Proof.Machine.Reg.frnEventFatal = 1 ∧ t.pending = s.pending ∧ t.mem.bytes = s.mem.bytes
              ∧ ∀ m ∈ Sys2Proof.Machine.tlook t.mem.lines r.line, ∀ k < 4, bad.testBit k = true → m.poison.testBit k = true)))
     ∧ (sl < 96 * s.hub.dies → 4 ≤ (Sys2Proof.Machine.tget [] s.hub.ras.parity (sl * 16 + w)).length → disabled.testBit w = false →
          s.mem.lines.all (fun x => !(decide (x.2.slice = sl) && decide (x.2.way = w))) = true →
          Sys2Proof.Claims.Runs (.wayDisable slice way) s (fun t =>
            (t.hub.get (Sys2Proof.Machine.Reg.frnSliceStatusDisabled sl)).testBit w = true ∧ t.hub.get Sys2Proof.Machine.Reg.frnEventWayDisabled = 1
              ∧ (∀ x < 16, x ≠ w → (t.hub.get (Sys2Proof.Machine.Reg.frnSliceStatusDisabled sl)).testBit x = disabled.testBit x)
              ∧ t.mem = s.mem ∧ t.pending = s.pending))
     ∧ (96 * s.hub.dies ≤ sl ∨ (Sys2Proof.Machine.tget [] s.hub.ras.parity (sl * 16 + w)).length < 4 ∨ disabled.testBit w = true →
          Sys2Proof.Machine.exec (.wayDisable slice way) s = .next s)
     ∧ (sl < 96 * s.hub.dies → seed ≠ 0 → Sys2Proof.Claims.Runs (.seedWrite slice seed) s (fun t =>
          t.hub.get (Sys2Proof.Machine.Reg.frnSliceCtrlSeed sl) = seed.toNat ∧ Sys2Proof.Machine.tget 0xACE1 t.mem.lfsr sl = seed.toNat
            ∧ Sys2Proof.Claims.SameRegsBut [Sys2Proof.Machine.Reg.frnSliceCtrlSeed sl] s t ∧ { t.mem with lfsr := s.mem.lfsr } = s.mem ∧ t.pending = s.pending))
     ∧ (seed = 0 → Sys2Proof.Machine.exec (.seedWrite slice seed) s = .next (s.wroteBy 0)))

/-- R221, R223, R224: maintenance of a line by address from PF MMIO: CLEAN writes the dirty sectors back and keeps the line, INVALIDATE drops
it with them, CLEAN_INVALIDATE does both, ZERO_LINE leaves four dirty sectors of zeros; RESULT is OK and GO stands until the operation is
complete, which sets MAINT_DONE; a write of FRN_MAINT with GO 1 while GO reads 1 is ignored, one with GO 0 only stores its fields, and an
address that is not a line's gives INVALID_FIELD. -/
def Sys2Proof.Claims.MaintenanceCleansDropsAndZeroesLines : Prop :=
  ∀ (w : BitVec 64) (s : Sys2Proof.Machine.State) (l : Sys2Proof.Machine.FirnLine),
    (let a := s.hub.get Sys2Proof.Machine.Reg.frnMaintAddrHpa
     let line := a / 128
     let go := w.toNat.testBit 32
     let free := go = true ∧ s.hub.get Sys2Proof.Machine.Reg.frnMaintGo = 0 ∧ w.toNat.testBit 2 = false
     let usable := s.hub.region a = .stack ∧ s.hub.stackKind a = .usable ∧ s.hub.domainAt a = none
     let started (t : Sys2Proof.Machine.State) : Prop := t.hub.get Sys2Proof.Machine.Reg.frnMaintGo = 1 ∧ t.pending = s.pending
     let others (t : Sys2Proof.Machine.State) : Prop := ∀ j, j ≠ line → Sys2Proof.Machine.tlook t.mem.lines j = Sys2Proof.Machine.tlook s.mem.lines j
     let ops := [Sys2Proof.Instr.zeroLine w, Sys2Proof.Instr.clean w, Sys2Proof.Instr.invalidate w, Sys2Proof.Instr.cleanInvalidate w]
     (go = true → s.hub.get Sys2Proof.Machine.Reg.frnMaintGo ≠ 0 → ∀ i ∈ ops, Sys2Proof.Machine.exec i s = .next (s.wroteBy 0))
     ∧ (go = false → ∀ i ∈ ops, Sys2Proof.Claims.Runs i s (fun t =>
          t.hub.get Sys2Proof.Machine.Reg.frnMaintGo = s.hub.get Sys2Proof.Machine.Reg.frnMaintGo ∧ t.hub.get Sys2Proof.Machine.Reg.frnMaintSlice = w.toNat / 2 ^ 8 % 2 ^ 8
            ∧ t.hub.get Sys2Proof.Machine.Reg.frnMaintSet = w.toNat / 2 ^ 16 % 2 ^ 11 ∧ t.hub.get Sys2Proof.Machine.Reg.frnMaintWay = w.toNat / 2 ^ 28 % 2 ^ 4
            ∧ t.mem = s.mem ∧ t.pending = s.pending))
     ∧ (free → a % 128 ≠ 0 → ∀ i ∈ ops, Sys2Proof.Claims.Runs i s (fun t => started t ∧ t.hub.get Sys2Proof.Machine.Reg.frnMaintResult = 0x02 ∧ t.mem = s.mem))
     ∧ (free → a % 128 = 0 → usable → Sys2Proof.Claims.LineFree s line → Sys2Proof.Machine.tlook s.mem.lines line = some l →
          Sys2Proof.Claims.Runs (.zeroLine w) s (fun t => started t ∧ t.hub.get Sys2Proof.Machine.Reg.frnMaintResult = 0 ∧ others t ∧ Sys2Proof.Claims.SameBacking s t
            ∧ ∀ m ∈ Sys2Proof.Machine.tlook t.mem.lines line, ∀ k < 4, Sys2Proof.Machine.secGet m.data k = 0 ∧ m.valid.testBit k = true ∧ m.dirty.testBit k = true
                ∧ m.poison.testBit k = false)
          ∧ Sys2Proof.Claims.Runs (.clean w) s (fun t => started t ∧ t.hub.get Sys2Proof.Machine.Reg.frnMaintResult = 0 ∧ others t
              ∧ Sys2Proof.Machine.tlook t.mem.lines line = some { l with dirty := 0 }
              ∧ (∀ k < 4, l.dirty.testBit k = true → t.mem.backSec line k = (Sys2Proof.Machine.secGet l.data k, l.poison.testBit k)))
          ∧ Sys2Proof.Claims.Runs (.invalidate w) s (fun t => started t ∧ t.hub.get Sys2Proof.Machine.Reg.frnMaintResult = 0 ∧ others t ∧ Sys2Proof.Claims.SameBacking s t
              ∧ Sys2Proof.Machine.tlook t.mem.lines line = none)
          ∧ Sys2Proof.Claims.Runs (.cleanInvalidate w) s (fun t => started t ∧ t.hub.get Sys2Proof.Machine.Reg.frnMaintResult = 0 ∧ others t
              ∧ Sys2Proof.Machine.tlook t.mem.lines line = none
              ∧ (∀ k < 4, l.dirty.testBit k = true → t.mem.backSec line k = (Sys2Proof.Machine.secGet l.data k, l.poison.testBit k))))
     ∧ (s.hub.get Sys2Proof.Machine.Reg.frnMaintGo = 0 → Sys2Proof.Machine.exec .maintComplete s = .next s)
     ∧ (s.hub.get Sys2Proof.Machine.Reg.frnMaintGo ≠ 0 → s.hub.get Sys2Proof.Machine.Reg.frnMaintSetway = 0 → Sys2Proof.Claims.LineFree s line → Sys2Proof.Claims.Runs .maintComplete s (fun t =>
          t.hub.get Sys2Proof.Machine.Reg.frnMaintGo = 0 ∧ t.hub.get Sys2Proof.Machine.Reg.frnEventMaintDone = 1 ∧ t.hub.get Sys2Proof.Machine.Reg.frnMaintResult = s.hub.get Sys2Proof.Machine.Reg.frnMaintResult
            ∧ t.mem = s.mem ∧ t.pending = s.pending)))

/-- R225-R228, R218: a parity error in valid clean sectors drops the line and sets PARITY; one in a dirty sector poisons it and sets FATAL; a way
with four parity records in its window is disabled, its lines written back and dropped, with WAY_DISABLED; the seed of a slice's replacement is
loaded, 0 being reserved. R221, R223, R224: maintenance of a line by address from PF MMIO: CLEAN writes the dirty sectors back and keeps the
line, INVALIDATE drops it with them, CLEAN_INVALIDATE does both, ZERO_LINE leaves four dirty sectors of zeros; RESULT is OK and GO stands until
the operation is complete, which sets MAINT_DONE; a write of FRN_MAINT with GO 1 while GO reads 1 is ignored, one with GO 0 only stores its
fields, and an address that is not a line's gives INVALID_FIELD. -/
def Obligations.FirnParityAndMaintenance : Prop :=
  Sys2Proof.Claims.ParityErrorsDropPoisonAndDisable ∧ Sys2Proof.Claims.MaintenanceCleansDropsAndZeroesLines

/-- R193-R196, R330: scrub reads a line of a FULL stack: a sector that is uncorrectable is marked as poison, counted and sets HBM_EVENT.UE; one
that is correctable is counted; neither changes a byte. With SCRUB_H 0, or outside usable stack memory, there is no scrub. -/
def Sys2Proof.Claims.ScrubCorrectsCountsAndPoisons : Prop :=
  ∀ (hpa : BitVec 48) (k : Nat) (s : Sys2Proof.Machine.State),
    (let a := hpa.toNat
     let sector := a / 128 * 4 + k
     let one : BitVec 4 := BitVec.ofNat 4 (2 ^ k)
     let n := Sys2Proof.Machine.stackOf (a / 128 * 128)
     let here := s.hub.region a = .stack ∧ s.hub.stackKind a = .usable
     (s.hub.get Sys2Proof.Machine.Reg.hbmRasCfgScrubH = 0 ∨ ¬ here → ∀ e, Sys2Proof.Machine.exec (.scrub hpa e) s = .next s)
     ∧ (s.hub.get Sys2Proof.Machine.Reg.hbmRasCfgScrubH ≠ 0 → here → s.mem.unfilled (Sys2Proof.Machine.halfOf (a / 128 * 128)) (Sys2Proof.Machine.granOf (a / 128 * 128)) = true →
          ∀ e, Sys2Proof.Machine.exec (.scrub hpa e) s = .next s)
     ∧ (s.hub.get Sys2Proof.Machine.Reg.hbmRasCfgScrubH ≠ 0 → here → s.mem.unfilled (Sys2Proof.Machine.halfOf (a / 128 * 128)) (Sys2Proof.Machine.granOf (a / 128 * 128)) = false →
          k < 4 → Sys2Proof.Machine.kmem s.mem.poison sector = false →
          Sys2Proof.Claims.Runs (.scrub hpa ⟨0, one, 0, false⟩) s (fun t =>
            Sys2Proof.Machine.kmem t.mem.poison sector = true ∧ t.mem.bytes = s.mem.bytes ∧ t.mem.lines = s.mem.lines
              ∧ t.hub.get (Sys2Proof.Machine.Reg.hbmErrCountUe n) = min (2 ^ 16 - 1) (s.hub.get (Sys2Proof.Machine.Reg.hbmErrCountUe n) + 1)
              ∧ t.hub.get Sys2Proof.Machine.Reg.hbmEventUe = 1 ∧ t.pending = s.pending)
          ∧ Sys2Proof.Claims.Runs (.scrub hpa ⟨one, 0, 0, false⟩) s (fun t =>
              t.mem = s.mem ∧ t.hub.get (Sys2Proof.Machine.Reg.hbmErrCountCe n) = min (2 ^ 32 - 1) (s.hub.get (Sys2Proof.Machine.Reg.hbmErrCountCe n) + 1)
                ∧ t.pending = s.pending)))

/-- R200-R202, R204, R330, R331: the first repair queued on a stack starts with a journal record in STATE 0x7F and ends with it in 0x3F,
REPAIRING told meanwhile and the unrecoverable sectors marked as poison; a row query takes its fields and GO, and ends with GO clear and the
eight lines of the row; the background fill clears the lowest unfilled granule of a half-stack, and the last one sets PRT_EVENT.FILLED. -/
def Sys2Proof.Claims.RowsAreRepairedQueriedAndFilled : Prop :=
  ∀ (stack : BitVec 5) (bad : BitVec 32) (w : BitVec 64) (half : BitVec 6) (k g : Nat) (rest : List Nat) (s : Sys2Proof.Machine.State),
    (let n := stack.toNat
     let h := half.toNat
     (s.hub.repairs n = [] → Sys2Proof.Machine.exec (.repairStart stack) s = .next s ∧ Sys2Proof.Machine.exec (.repairDone stack bad) s = .next s)
     ∧ (s.hub.repairs n = k :: rest → Sys2Proof.Machine.kmem s.hub.ras.running n = false → Sys2Proof.Claims.Runs (.repairStart stack) s (fun t =>
          t.hub.journal = s.hub.journal ++ [⟨0x7F, n / 12, n % 12, k / 2 ^ 20, k % 2 ^ 20, s.hub.perma.unit⟩]
            ∧ Sys2Proof.Machine.kmem t.hub.ras.running n = true ∧ t.hub.get (Sys2Proof.Machine.Reg.hbmStackInfoRepairing n) = 1
            ∧ t.hub.get (Sys2Proof.Machine.Reg.hbmErrCountRepairs n) = min 255 (s.hub.get (Sys2Proof.Machine.Reg.hbmErrCountRepairs n) + 1)
            ∧ Sys2Proof.Claims.SameRegsBut [Sys2Proof.Machine.Reg.hbmStackInfoRepairing n, Sys2Proof.Machine.Reg.hbmErrCountRepairs n] s t ∧ t.mem = s.mem ∧ t.pending = s.pending))
     ∧ (s.hub.repairs n = k :: rest → Sys2Proof.Machine.kmem s.hub.ras.running n = true → Sys2Proof.Claims.Runs (.repairDone stack bad) s (fun t =>
          t.hub.get (Sys2Proof.Machine.Reg.hbmStackInfoRepairing n) = 0 ∧ t.hub.get Sys2Proof.Machine.Reg.hbmEventRepaired = 1 ∧ t.hub.repairs n = rest
            ∧ t.mem.bytes = s.mem.bytes ∧ t.mem.lines = s.mem.lines ∧ t.pending = s.pending
            ∧ (∀ j ∈ t.hub.journal, j.state = 0x7F →
                ¬ (j.die = n / 12 ∧ j.stack = n % 12 ∧ j.pc = k / 2 ^ 20 ∧ j.row = k % 2 ^ 20))
            ∧ (∀ i < 32, bad.toNat.testBit i = true →
                Sys2Proof.Machine.kmem t.mem.poison (Sys2Proof.Machine.rowHpa n (k / 2 ^ 20) (k % 2 ^ 20) (i / 4) / 32 + i % 4) = true)))
     ∧ Sys2Proof.Claims.Runs (.rowq w) s (fun t =>
          t.hub.get Sys2Proof.Machine.Reg.hbmRowqStack = w.toNat % 2 ^ 5 ∧ t.hub.get Sys2Proof.Machine.Reg.hbmRowqPc = w.toNat / 2 ^ 8 % 2 ^ 6
            ∧ t.hub.get Sys2Proof.Machine.Reg.hbmRowqRowkey = w.toNat / 2 ^ 16 % 2 ^ 20 ∧ (w.toNat.testBit 63 = true → t.hub.get Sys2Proof.Machine.Reg.hbmRowqGo = 1)
            ∧ Sys2Proof.Claims.SameRegsBut [Sys2Proof.Machine.Reg.hbmRowqStack, Sys2Proof.Machine.Reg.hbmRowqPc, Sys2Proof.Machine.Reg.hbmRowqRowkey, Sys2Proof.Machine.Reg.hbmRowqGo] s t ∧ t.mem = s.mem ∧ t.pending = s.pending)
     ∧ (s.hub.get Sys2Proof.Machine.Reg.hbmRowqGo = 0 → Sys2Proof.Machine.exec .rowqDone s = .next s)
     ∧ (s.hub.get Sys2Proof.Machine.Reg.hbmRowqGo ≠ 0 → Sys2Proof.Claims.Runs .rowqDone s (fun t =>
          t.hub.get Sys2Proof.Machine.Reg.hbmRowqGo = 0 ∧ t.mem = s.mem ∧ t.pending = s.pending
            ∧ ∀ i < 8, t.hub.get (Sys2Proof.Machine.Reg.hbmRowqLineHpa i) = (s.hub.rowResult i).1 % 2 ^ 48
                ∧ t.hub.get (Sys2Proof.Machine.Reg.hbmRowqLineMeta i) = Sys2Proof.Machine.b2n (s.hub.rowResult i).2.1
                ∧ t.hub.get (Sys2Proof.Machine.Reg.hbmRowqLineValid i) = Sys2Proof.Machine.b2n (s.hub.rowResult i).2.2))
     ∧ (h < 48 → s.hub.get (Sys2Proof.Machine.Reg.hbmStackInfoState (h / 2)) = 2 →
          Sys2Proof.Machine.findLow (s.hub.granules h) (fun g => s.mem.unfilled h g) = some g → Sys2Proof.Claims.Runs (.fillGranule half) s (fun t =>
            t.mem.unfilled h g = false ∧ (∀ j, j ≠ g → t.mem.unfilled h j = s.mem.unfilled h j) ∧ t.mem.bytes = s.mem.bytes
              ∧ t.hub = s.hub ∧ t.pending = s.pending))
     ∧ (s.hub.get (Sys2Proof.Machine.Reg.hbmStackInfoState (h / 2)) ≠ 2 → Sys2Proof.Machine.exec (.fillGranule half) s = .next s)
     ∧ ((Sys2Proof.Machine.tget Sys2Proof.Machine.HalfFill.rst s.mem.fill h).marked = true →
          s.hub.granules h ≤ (Sys2Proof.Machine.tget Sys2Proof.Machine.HalfFill.rst s.mem.fill h).filled.length → Sys2Proof.Claims.Runs (.fillComplete half) s (fun t =>
            t.hub.get Sys2Proof.Machine.Reg.prtEventFilled = 1 ∧ (∀ j, t.mem.unfilled h j = false) ∧ t.mem.bytes = s.mem.bytes ∧ t.pending = s.pending)))

/-- R193-R196, R330: scrub reads a line of a FULL stack: a sector that is uncorrectable is marked as poison, counted and sets HBM_EVENT.UE; one
that is correctable is counted; neither changes a byte. With SCRUB_H 0, or outside usable stack memory, there is no scrub. R200-R202, R204, R330,
R331: the first repair queued on a stack starts with a journal record in STATE 0x7F and ends with it in 0x3F, REPAIRING told meanwhile and the
unrecoverable sectors marked as poison; a row query takes its fields and GO, and ends with GO clear and the eight lines of the row; the
background fill clears the lowest unfilled granule of a half-stack, and the last one sets PRT_EVENT.FILLED. -/
def Obligations.ScrubRepairAndFill : Prop :=
  Sys2Proof.Claims.ScrubCorrectsCountsAndPoisons ∧ Sys2Proof.Claims.RowsAreRepairedQueriedAndFilled

namespace Sys2Proof.Claims

open Sys2Proof Machine

/-- A list of consumers as Isotherm makes one: no demand below its minimum (R415). -/
def Clamped (l : List Consumer) : Prop := ∀ c ∈ l, c.m ≤ c.d

/-- A trip (R420): pins, pumps and clocks; the trip record shows the reading unless it already held one. -/
def Tripped (s : State) (stack : Bool) (die source temp : Nat) (t : State) : Prop :=
  t.hub.boot.thermN = true ∧ t.hub.boot.faultN = true ∧ t.hub.boot.stopped = true ∧ t.hub.boot.pumpHigh = true
    ∧ t.hub.get (Reg.isoPumpDuty 0) = 100 ∧ t.hub.get (Reg.isoPumpDuty 1) = 100
    ∧ (s.hub.get Reg.isoTripValid = 0 → t.hub.get Reg.isoTripValid = 1 ∧ t.hub.get Reg.isoTripStack = b2n stack
        ∧ t.hub.get Reg.isoTripDie = die % 2 ∧ t.hub.get Reg.isoTripSource = source % 2 ^ 6 ∧ t.hub.get Reg.isoTripTempC = temp % 2 ^ 8)
    ∧ (s.hub.get Reg.isoTripValid = 1 → t.hub.get Reg.isoTripTempC = s.hub.get Reg.isoTripTempC)

end Sys2Proof.Claims

/-- R411, R412, R415: the budget in force is the smallest of the limits that apply and never below the brake minimum; the grants of a
pass lie between each consumer's minimum and demand, and their sum stays within the budget; a budget that covers every demand grants it. -/
def Sys2Proof.Claims.GrantsStayWithinTheBudget : Prop :=
  (∀ h : Sys2Proof.Machine.Hub, 100 * h.brakeMin ≤ h.budget.1
    ∧ (h.budget.2.2 = false → h.budget.1 ≤ 100 * h.classW ∧ (h.od 0x2210 1 ≠ 0 → h.budget.1 ≤ 100 * h.od 0x2210 1)
        ∧ (h.get Sys2Proof.Machine.Reg.isoStatusHbLost ≠ 0 → h.budget.1 ≤ 100 * h.od 0x2211 1)
        ∧ (∀ b ∈ h.brakes, h.budget.1 ≤ h.brakeBudget (100 * h.brakeMin) b.2))
    ∧ (h.budget.2.2 = true → h.budget.1 = 100 * h.brakeMin ∧ h.budget.2.1 = 7))
  ∧ ∀ (l : List Sys2Proof.Machine.Consumer) (b : Nat), Sys2Proof.Claims.Clamped l → (l.map (·.m)).sum ≤ b →
    10 * ((Sys2Proof.Machine.shares l b).map (·.2)).sum ≤ b
    ∧ (Sys2Proof.Machine.shares l b).map (·.1) = l.map (·.k)
    ∧ (∀ x ∈ l.zip (Sys2Proof.Machine.shares l b), x.1.m / 10 ≤ x.2.2 ∧ x.2.2 ≤ x.1.d / 10)
    ∧ ((l.map (·.d)).sum ≤ b → ∀ x ∈ l.zip (Sys2Proof.Machine.shares l b), x.2.2 = x.1.d / 10)

/-- R198, R419, R420: a reading of a stack or of a die's sensors shows; the stack takes the level of the highest threshold reached; a die or
stack at its trip temperature stops the package. R414, R416: a brake source that becomes active shows in ISO_STATUS, sets ISO_EVENT.BRAKE and
applies its row of the brake table. R421, R423, R424, R427, R429: a chiplet's alarm, an acknowledged or refused rail write, the
secondary's telemetry, a lost heartbeat and a failed pump. Stated while Isotherm runs; a package that a trip stopped runs none of it. -/
def Sys2Proof.Claims.IsothermFollowsItsReadings : Prop :=
  ∀ (s : Sys2Proof.Machine.State) (stack : BitVec 5) (temp : BitVec 8) (temps : List (BitVec 8)) (site : BitVec 4) (power request : BitVec 16)
    (k : BitVec 1) (rail : BitVec 4) (node : BitVec 7) (x : Sys2Proof.PowerIn) (f : Nat) (wait : List (Nat × Nat)),
    s.hub.isoRuns = true →
    (let n := stack.toNat
     let i := site.toNat
     let r := 16 * k.toNat + rail.toNat
     let kept (t : Sys2Proof.Machine.State) : Prop := t.mem = s.mem ∧ t.pending = s.pending
     let braked := ({ s.hub with iso := { s.hub.iso with brakePin := true } } : Sys2Proof.Machine.Hub)
     let row := braked.brakeRow braked.brakeLevel
     let silent := Sys2Proof.Machine.bits (s.hub.od 0x1016 1) 0 16 ≠ 0 ∧ s.hub.get Sys2Proof.Machine.Reg.isoStatusHbLost = 0
     (s.hub.presentStacks.contains n = true → Sys2Proof.Claims.Runs (.stackTempRead stack temp) s (fun t => kept t
        ∧ t.hub.get (Sys2Proof.Machine.Reg.hbmStackInfoTemp n) = temp.toNat
        ∧ (s.hub.get (Sys2Proof.Machine.Reg.hbmStackInfoLevel n) = 0 → t.hub.get (Sys2Proof.Machine.Reg.hbmStackInfoLevel n) =
            (if temp.toNat < 85 then 0 else if temp.toNat < 95 then 1 else if temp.toNat < 105 then 2 else 3))
        ∧ (115 ≤ temp.toNat → Sys2Proof.Claims.Tripped s true (n / 12) (n % 12) temp.toNat t)
        ∧ (temp.toNat < 115 → t.hub.boot = s.hub.boot)))
     ∧ (k.toNat < s.hub.dies → temps.length = 64 → Sys2Proof.Claims.Runs (.dieSensorSample k temps) s (fun t => kept t
          ∧ t.hub.get (Sys2Proof.Machine.Reg.isoDieHottestC k.toNat) = (Sys2Proof.Machine.hottestOf temps).1
          ∧ (125 ≤ (Sys2Proof.Machine.hottestOf temps).1 → Sys2Proof.Claims.Tripped s false k.toNat (Sys2Proof.Machine.hottestOf temps).2 (Sys2Proof.Machine.hottestOf temps).1 t)
          ∧ ((Sys2Proof.Machine.hottestOf temps).1 < 125 → t.hub.boot = s.hub.boot)))
     ∧ Sys2Proof.Claims.Runs (.allotPass x) s (fun t => kept t ∧ t.hub.boot = s.hub.boot
          ∧ t.hub.get (Sys2Proof.Machine.Reg.isoDiePower 0) = (x.diePower.getD 0 0).toNat)
     ∧ (s.hub.iso.brakePin = false → Sys2Proof.Claims.Runs .powerBrakeAssert s (fun t => kept t ∧ t.hub.iso.brakePin = true
          ∧ t.hub.get Sys2Proof.Machine.Reg.isoStatusBrakePin = 1 ∧ t.hub.get Sys2Proof.Machine.Reg.isoEventBrake = 1 ∧ t.hub.iso.ramp = none
          ∧ ((row.map (·.1)).Nodup → ∀ g ∈ row, g.1 < 2 → t.hub.get (Sys2Proof.Machine.Reg.isoDieGrant g.1) = g.2 % 2 ^ 16)))
     ∧ Sys2Proof.Claims.Runs .powerBrakeRelease s (fun t => kept t ∧ t.hub.iso.brakePin = false ∧ t.hub.get Sys2Proof.Machine.Reg.isoStatusBrakePin = 0
          ∧ t.hub.iso.classHeld = none)
     ∧ Sys2Proof.Claims.Runs (.softwareBrake true) s (fun t => kept t ∧ t.hub.get Sys2Proof.Machine.Reg.isoBrakeSwReq = 1 ∧ t.hub.get Sys2Proof.Machine.Reg.isoStatusBrakeSw = 1)
     ∧ (s.hub.od 0x2212 1 ≠ 1 → Sys2Proof.Claims.Runs (.softwareBrake false) s (fun t => kept t ∧ t.hub.get Sys2Proof.Machine.Reg.isoBrakeSwReq = 0
          ∧ t.hub.get Sys2Proof.Machine.Reg.isoStatusBrakeSw = 0))
     ∧ (s.hub.siteActive i = true → ∀ alarm : Bool, Sys2Proof.Claims.Runs (.siteTelemetryRead site power request temp alarm) s (fun t => kept t
          ∧ t.hub.get (Sys2Proof.Machine.Reg.sitePowerPower i) = power.toNat ∧ t.hub.get (Sys2Proof.Machine.Reg.sitePowerRequest i) = request.toNat
          ∧ t.hub.get (Sys2Proof.Machine.Reg.sitePowerTemp i) = temp.toNat
          ∧ (alarm = true → t.hub.get Sys2Proof.Machine.Reg.isoStatusChipletAlarm = 1 ∧ t.hub.get (Sys2Proof.Machine.Reg.sitePowerGrant i) = 10 * s.hub.idleW i % 2 ^ 16)
          ∧ (alarm = false → Sys2Proof.Machine.kmem t.hub.iso.alarms i = false)))
     ∧ (Sys2Proof.Machine.tlook s.hub.iso.railWait r = some (f, wait) → Sys2Proof.Claims.Runs (.avsAck k rail) s (fun t => kept t
          ∧ Sys2Proof.Machine.tlook t.hub.iso.railWait r = none ∧ t.hub.railFreq r = f
          ∧ ((wait.map (·.1)).Nodup → ∀ y ∈ wait, t.hub.get (Sys2Proof.Machine.Reg.flcFloeStatusFreq y.1) = min y.2 f % 2 ^ 4)))
     ∧ (Sys2Proof.Machine.tlook s.hub.iso.railWait r = none → Sys2Proof.Claims.Runs (.avsAck k rail) s (fun t => kept t ∧ t.hub.regs = s.hub.regs
          ∧ t.hub.iso = s.hub.iso))
     ∧ (rail.toNat < 13 → k.toNat < s.hub.dies → Sys2Proof.Claims.Runs (.avsbusWriteUnacknowledged k rail) s (fun t => kept t
          ∧ Sys2Proof.Machine.kmem t.hub.iso.railHeld r = true ∧ Sys2Proof.Machine.tlook t.hub.iso.railWait r = none ∧ t.hub.get Sys2Proof.Machine.Reg.isoStatusRailFail = 1
          ∧ t.hub.get Sys2Proof.Machine.Reg.isoEventRailFail = 1))
     ∧ Sys2Proof.Claims.Runs (.regulatorStatusRead k rail false) s (fun t => kept t ∧ t.hub.regs = s.hub.regs ∧ t.hub.iso = s.hub.iso)
     ∧ (rail.toNat < 13 → Sys2Proof.Claims.Runs (.regulatorStatusRead k rail true) s (fun t => kept t ∧ t.hub.iso = s.hub.iso
          ∧ t.hub.mor = (s.hub.powerRec 0x0B06 k.toNat 0 0).mor))
     ∧ (s.hub.dies = 2 → Sys2Proof.Claims.Runs (.twinTelemetry x) s (fun t => kept t ∧ t.hub.iso.twin = some x ∧ t.hub.regs = s.hub.regs))
     ∧ (silent → Sys2Proof.Claims.Runs .heartbeatLoss s (fun t => kept t ∧ t.hub.get Sys2Proof.Machine.Reg.isoStatusHbLost = 1 ∧ t.hub.get Sys2Proof.Machine.Reg.isoEventHbLost = 1
          ∧ t.hub.iso.hbBack = false))
     ∧ (¬ silent → Sys2Proof.Claims.Runs .heartbeatLoss s (fun t => kept t ∧ t.hub.regs = s.hub.regs ∧ t.hub.iso = s.hub.iso))
     ∧ (s.hub.get Sys2Proof.Machine.Reg.isoStatusHbLost ≠ 0 → Sys2Proof.Machine.bits (s.hub.od 0x1016 1) 16 8 = node.toNat → Sys2Proof.Claims.Runs (.heartbeatRx node) s (fun t => kept t
          ∧ t.hub.iso.hbBack = true ∧ t.hub.regs = s.hub.regs))
     ∧ (request.toNat < 10 * s.hub.get Sys2Proof.Machine.Reg.isoPumpCfgTachMin → s.hub.get (Sys2Proof.Machine.Reg.isoPumpDuty k.toNat) ≠ 0 →
          s.hub.get (Sys2Proof.Machine.Reg.isoPumpFail k.toNat) = 0 → Sys2Proof.Claims.Runs (.pumpFail k request) s (fun t => kept t
            ∧ t.hub.get (Sys2Proof.Machine.Reg.isoPumpFail k.toNat) = 1 ∧ t.hub.get Sys2Proof.Machine.Reg.isoEventPumpFail = 1
            ∧ t.hub.get (Sys2Proof.Machine.Reg.isoPumpDuty (1 - k.toNat)) = 100 ∧ t.hub.get (Sys2Proof.Machine.Reg.isoPumpRpm k.toNat) = request.toNat)))

/-- R411, R412, R415: the budget in force is the smallest of the limits that apply and never below the brake minimum; the grants of a pass lie
between each consumer's minimum and demand, and their sum stays within the budget; a budget that covers every demand grants it. R198, R419, R420:
a reading of a stack or of a die's sensors shows; the stack takes the level of the highest threshold reached; a die or stack at its trip
temperature stops the package. R414, R416: a brake source that becomes active shows in ISO_STATUS, sets ISO_EVENT.BRAKE and applies its row of
the brake table. R421, R423, R424, R427, R429: a chiplet's alarm, an acknowledged or refused rail write, the secondary's telemetry, a lost
heartbeat and a failed pump. Stated while Isotherm runs; a package that a trip stopped runs none of it. -/
def Obligations.PowerGrantsAndIsotherm : Prop :=
  Sys2Proof.Claims.GrantsStayWithinTheBudget ∧ Sys2Proof.Claims.IsothermFollowsItsReadings

namespace Sys2Proof.Claims

open Sys2Proof Machine

/-- `n` bytes at `a` lie in floe memory, within one 128-byte line. -/
def InFloe (h : Hub) (a n : Nat) : Prop :=
  (match h.region a with | .floeMem _ _ => true | _ => false) = true ∧ a % 128 + n ≤ 128

/-- Descriptor `d` of stream `k` is in flight, has done nothing yet, no access of it waits, and its port lets it go. -/
def Doing (s : State) (k : Nat) (d : Desc) (op : Nat) : Prop :=
  s.hub.desc k d.index = some d ∧ d.ended = none ∧ d.op = op ∧ d.wrote = false ∧ d.retry = [] ∧ s.hub.rowStuck k d.index = false
    ∧ s.hub.anyOut (.row k d.index) = false
    ∧ (d.paid = true ∨ (s.hub.get (Reg.qosPortRegEn (s.hub.streamPort k)) = 0 ∧ (s.hub.qosPort (s.hub.streamPort k)).held = []))

/-- Descriptor `d` of stream `k` ended with a status and a DETAIL; no other descriptor and no other stream changed. -/
def EndsDesc (s t : State) (k : Nat) (d : Desc) (st detail : Nat) : Prop :=
  (t.hub.desc k d.index).map (fun e => (e.ended, e.raw)) = some (some (st, detail), d.raw)
    ∧ (∀ j, j ≠ d.index → t.hub.desc k j = s.hub.desc k j) ∧ (∀ m, m ≠ k → t.hub.stream m = s.hub.stream m) ∧ t.pending = s.pending

/-- R234 names the source of a doorbell of stream `k`. -/
def Honoured (src : DbSrc) (s : State) (k : Nat) : Prop :=
  match src with
  | .pf => True
  | .vf f => s.hub.get (Reg.drfStreamStatusState k) ≠ 0 ∧ (s.hub.stream k).fn = f.toNat
  | .master p => s.hub.get (Reg.drfStreamStatusState k) ≠ 0 ∧ s.hub.streamPart k = p.toNat ∧ p.toNat < 24

/-- Register fields that the rows of a descriptor with destination `a` count in: INFLIGHT, DRF_PERF, the port's class (R326). -/
def rowRegs (h : Hub) (k a : Nat) : List Fld :=
  let c := h.get (Reg.qosPortClass (h.streamPort k))
  let i := limitIx (h.streamPart k)
  [Reg.drfStreamStatusInflight k, Reg.drfPerfRdCount i, Reg.drfPerfWrCount i, Reg.qosCntWr (h.target a).1 c (h.target a).2,
    Reg.qosCntWr (h.streamPort k / 512) c 45]

end Sys2Proof.Claims

/-- R230, R231, R359: STREAM_OPEN of the PF takes the lowest CLOSED stream for its parameter block and answers its number; it is refused in
Whiteout and End of Life, with its owner at DRF_PART_LIMIT.MAX, with no stream free, and for a malformed block. STREAM_CLOSE checks in order
and frees the issuer's stream in IDLE, PAUSED or ERROR. -/
def Sys2Proof.Claims.StreamsAreOpenedAndClosed : Prop :=
  ∀ (cmd : Sys2Proof.QCmd) (s : Sys2Proof.Machine.State) (d a n : Nat),
    (let die := Sys2Proof.Machine.qf cmd 0x18 1
     let opens := cmd.fn = 0 ∧ Sys2Proof.Machine.qf cmd 1 1 < 4 ∧ Sys2Proof.Machine.qz cmd 5 0x10 = true ∧ Sys2Proof.Machine.qf cmd 4 1 = 0xFF ∧ Sys2Proof.Machine.qz cmd 0x19 0x40 = true
       ∧ (die = 0 ∨ die = 0xFF ∨ (die = 1 ∧ s.hub.dies = 2))
     let running := s.hub.whiteout = false ∧ s.hub.life ≠ 3
     let block := Sys2Proof.Machine.qf cmd 0x10 8 = a ∧ Sys2Proof.Claims.InFloe s.hub a 64 ∧ s.mem.rd a 64 = d ∧ s.mem.badBits a 64 = 0
     let room := s.hub.get (Sys2Proof.Machine.Reg.drfPartLimitOpen 24) < s.hub.get (Sys2Proof.Machine.Reg.drfPartLimitMax 24)
     let k := Sys2Proof.Machine.qf cmd 0x18 2
     let st := s.hub.get (Sys2Proof.Machine.Reg.drfStreamStatusState k)
     let closes := s.hub.cmdCheck cmd false = 0 ∧ Sys2Proof.Machine.qz cmd 0x10 0x18 = true ∧ Sys2Proof.Machine.qz cmd 0x1A 0x40 = true ∧ k ≤ 32767
     let mine := closes ∧ st ≠ 0 ∧ (s.hub.stream k).fn = cmd.fn
     (opens → ¬ running → Sys2Proof.Machine.exec (.streamOpen cmd) s = .next (s.done cmd 0x0D 0))
     ∧ (opens → running → block → Sys2Proof.Machine.paramOk d true = true → room → s.hub.freeStream die = some n →
          Sys2Proof.Machine.exec (.streamOpen cmd) s = .next ((s.onHub (·.openStream n 0 31 d)).done cmd 0 n))
     ∧ (opens → running → block → Sys2Proof.Machine.paramOk d true = false → Sys2Proof.Machine.exec (.streamOpen cmd) s = .next (s.done cmd 0x02 0))
     ∧ (opens → running → block → Sys2Proof.Machine.paramOk d true = true → (¬ room ∨ s.hub.freeStream die = none) →
          Sys2Proof.Machine.exec (.streamOpen cmd) s = .next (s.done cmd 0x03 0))
     ∧ (s.hub.freeStream die = some n → s.hub.get (Sys2Proof.Machine.Reg.drfStreamStatusState n) = 0 ∧ n < 32768
          ∧ ∀ j < n, (die = 1 → s.hub.dies = 2 → 16384 ≤ j) → s.hub.get (Sys2Proof.Machine.Reg.drfStreamStatusState j) ≠ 0)
     ∧ (n < 32768 → s.hub.get (Sys2Proof.Machine.Reg.drfPartLimitOpen 24) < 0x8000 →
          (let h := s.hub.openStream n 0 31 d
           h.get (Sys2Proof.Machine.Reg.drfStreamStatusState n) = 1 ∧ h.get (Sys2Proof.Machine.Reg.drfStreamStatusPartition n) = 31
             ∧ h.get (Sys2Proof.Machine.Reg.drfStreamStatusHostChannel n) = Sys2Proof.Machine.bits d 80 1 ∧ h.get (Sys2Proof.Machine.Reg.drfStreamStatusHead n) = 0
             ∧ h.get (Sys2Proof.Machine.Reg.drfPartLimitOpen 24) = s.hub.get (Sys2Proof.Machine.Reg.drfPartLimitOpen 24) + 1
             ∧ (h.stream n).param = d ∧ (h.stream n).fn = 0 ∧ (h.stream n).tail = 0 ∧ (h.stream n).inflight = []
             ∧ ∀ m, m ≠ n → h.stream m = s.hub.stream m))
     ∧ (s.hub.cmdCheck cmd false = 0 → 32767 < k → Sys2Proof.Machine.exec (.streamClose cmd) s = .next (s.done cmd 0x02 0))
     ∧ (closes → (st = 0 ∨ (s.hub.stream k).fn ≠ cmd.fn) → Sys2Proof.Machine.exec (.streamClose cmd) s = .next (s.done cmd 0x04 0))
     ∧ (mine → st = 1 ∨ st = 4 ∨ st = 5 → Sys2Proof.Machine.exec (.streamClose cmd) s = .next ((s.onHub (·.streamClosed k)).done cmd 0 0))
     ∧ (mine → st ≠ 1 → st ≠ 4 → st ≠ 5 → Sys2Proof.Machine.exec (.streamClose cmd) s = .next (s.done cmd 0x0D 0))
     ∧ (k ≤ 32767 → st ≠ 0 → s.hub.get (Sys2Proof.Machine.Reg.drfStreamStatusPartition k) = 31 →
          (let h := s.hub.streamClosed k
           h.get (Sys2Proof.Machine.Reg.drfStreamStatusState k) = 0 ∧ h.stream k = Sys2Proof.Machine.Stream.rst
             ∧ h.get (Sys2Proof.Machine.Reg.drfPartLimitOpen 24) = s.hub.get (Sys2Proof.Machine.Reg.drfPartLimitOpen 24) - 1 ∧ ∀ m, m ≠ k → h.stream m = s.hub.stream m)))

/-- R233-R235, R247: a doorbell from a source that R234 does not name is ignored and counted; a tail that would pass the ring or fall back is
ignored with DB_ERR; any other sets TAIL, and a stream with descriptors to start runs. DRF_DB_CPLHEAD tells what was consumed. PAUSE reads
PAUSING until nothing is in flight, then PAUSED; RESUME goes on from PAUSED or ERROR at HEAD; ABORT ends what is in flight ABORTED and
discards what is posted. -/
def Sys2Proof.Claims.DoorbellsAndControlsMoveStreams : Prop :=
  ∀ (src : Sys2Proof.DbSrc) (n : BitVec 15) (v : BitVec 32) (fn : BitVec 6) (s : Sys2Proof.Machine.State),
    (let k := n.toNat
     let x := s.hub.stream k
     let st := s.hub.get (Sys2Proof.Machine.Reg.drfStreamStatusState k)
     let head := s.hub.get (Sys2Proof.Machine.Reg.drfStreamStatusHead k)
     let honoured := Sys2Proof.Claims.Honoured src s k
     let bad := 2 ^ x.f 0x08 1 < (v.toNat + 2 ^ 32 - head) % 2 ^ 32 ∨ 2 ^ 31 ≤ (v.toNat + 2 ^ 32 - x.tail) % 2 ^ 32
     let heard := s.hub.srcMute src = false
     let rejected (t : Sys2Proof.Machine.State) : Prop := t.hub.get Sys2Proof.Machine.Reg.drfDbRejectCount = min (s.hub.get Sys2Proof.Machine.Reg.drfDbRejectCount + 1) 0xFFFFFFFF
       ∧ t.hub.get Sys2Proof.Machine.Reg.drfEventDbReject = 1 ∧ Sys2Proof.Claims.SameRegsBut [Sys2Proof.Machine.Reg.drfDbRejectCount, Sys2Proof.Machine.Reg.drfEventDbReject] s t ∧ t.mem = s.mem
       ∧ t.hub.drift = s.hub.drift ∧ t.pending = s.pending
     let others (t : Sys2Proof.Machine.State) : Prop := (∀ m, m ≠ k → t.hub.stream m = s.hub.stream m) ∧ t.mem = s.mem ∧ t.pending = s.pending
     let statusRegs := [Sys2Proof.Machine.Reg.drfStreamStatusState k, Sys2Proof.Machine.Reg.drfStreamStatusInflight k, Sys2Proof.Machine.Reg.drfStreamCtrlResume k]
     let may := st ≠ 0 ∧ s.hub.vfMute fn.toNat = false ∧ (fn = 0 ∨ x.fn = fn.toNat)
     let active := s.hub.streamPart k = 31 ∨ s.hub.partState (s.hub.streamPart k) = 2
     let running := st = 1 ∨ st = 2
     (heard → ¬ honoured → Sys2Proof.Claims.Runs (.dbTail src n v) s rejected ∧ Sys2Proof.Claims.Runs (.dbCplhead src n v) s rejected)
     ∧ (heard → honoured → st ≠ 0 → bad → Sys2Proof.Claims.Runs (.dbTail src n v) s (fun t => t.hub.get (Sys2Proof.Machine.Reg.drfStreamStatusDbErr k) = 1
          ∧ t.hub.get Sys2Proof.Machine.Reg.drfEventDbErr = 1 ∧ Sys2Proof.Claims.SameRegsBut [Sys2Proof.Machine.Reg.drfStreamStatusDbErr k, Sys2Proof.Machine.Reg.drfEventDbErr] s t ∧ t.hub.stream k = x ∧ others t))
     ∧ (heard → honoured → running → ¬ bad → x.stop = none → Sys2Proof.Claims.Runs (.dbTail src n v) s (fun t =>
          t.hub.stream k = { x with tail := v.toNat } ∧ others t ∧ Sys2Proof.Claims.SameRegsBut statusRegs s t
            ∧ (head ≠ v.toNat → t.hub.get (Sys2Proof.Machine.Reg.drfStreamStatusState k) = 2)
            ∧ (head = v.toNat → x.inflight = [] → x.held = [] → t.hub.get (Sys2Proof.Machine.Reg.drfStreamStatusState k) = 1)))
     ∧ (heard → honoured → st ≠ 0 → x.held = [] → Sys2Proof.Claims.Runs (.dbCplhead src n v) s (fun t =>
          (t.hub.stream k).cplHead = v.toNat ∧ (t.hub.stream k).tail = x.tail ∧ (t.hub.stream k).c = x.c ∧ others t))
     ∧ (may → running → x.stop = none → Sys2Proof.Claims.Runs (.streamPause fn n) s (fun t => others t ∧ t.hub.stream k = x
          ∧ (x.inflight = [] → t.hub.get (Sys2Proof.Machine.Reg.drfStreamStatusState k) = 4 ∧ t.hub.get (Sys2Proof.Machine.Reg.drfStreamCtrlPause k) = 0)
          ∧ (x.inflight ≠ [] → t.hub.get (Sys2Proof.Machine.Reg.drfStreamStatusState k) = 3 ∧ t.hub.get (Sys2Proof.Machine.Reg.drfStreamCtrlPause k) = 1)
          ∧ Sys2Proof.Claims.SameRegsBut [Sys2Proof.Machine.Reg.drfStreamStatusState k, Sys2Proof.Machine.Reg.drfStreamCtrlPause k] s t))
     ∧ (may → ¬ running → Sys2Proof.Machine.exec (.streamPause fn n) s = .next (s.wroteBy fn.toNat))
     ∧ (may → active → st = 4 ∨ st = 5 → Sys2Proof.Claims.Runs (.streamResume fn n) s (fun t => others t
          ∧ t.hub.stream k = { x with stop := none, paused := false } ∧ t.hub.get (Sys2Proof.Machine.Reg.drfStreamCtrlResume k) = 0
          ∧ t.hub.get (Sys2Proof.Machine.Reg.drfStreamStatusState k) = (if x.inflight = [] ∧ x.held = [] ∧ head = x.tail then 1 else 2)
          ∧ Sys2Proof.Claims.SameRegsBut statusRegs s t))
     ∧ (may → st ≠ 4 → st ≠ 5 → Sys2Proof.Machine.exec (.streamResume fn n) s = .next (s.wroteBy fn.toNat))
     ∧ (may → st ≠ 6 → Sys2Proof.Claims.Runs (.streamAbort fn n) s (fun t => others t
          ∧ (x.inflight = [] → x.held = [] → t.hub.get (Sys2Proof.Machine.Reg.drfStreamStatusState k) = 1 ∧ t.hub.get (Sys2Proof.Machine.Reg.drfStreamStatusHead k) = x.tail % 2 ^ 32
              ∧ t.hub.get (Sys2Proof.Machine.Reg.drfStreamCtrlAbort k) = 0)
          ∧ (x.inflight ≠ [] → t.hub.get (Sys2Proof.Machine.Reg.drfStreamStatusState k) = 6 ∧ t.hub.get (Sys2Proof.Machine.Reg.drfStreamCtrlAbort k) = 1
              ∧ (t.hub.stream k).inflight.map (·.ended) = x.inflight.map (fun d => some (d.ended.getD (0x07, 0))))))
     ∧ (¬ may → Sys2Proof.Machine.exec (.streamPause fn n) s = .next (s.wroteBy fn.toNat) ∧ Sys2Proof.Machine.exec (.streamResume fn n) s = .next (s.wroteBy fn.toNat)
          ∧ Sys2Proof.Machine.exec (.streamAbort fn n) s = .next (s.wroteBy fn.toNat)))

/-- R230, R231, R359: STREAM_OPEN of the PF takes the lowest CLOSED stream for its parameter block and answers its number; it is refused in
Whiteout and End of Life, with its owner at DRF_PART_LIMIT.MAX, with no stream free, and for a malformed block. STREAM_CLOSE checks in order and
frees the issuer's stream in IDLE, PAUSED or ERROR. R233-R235, R247: a doorbell from a source that R234 does not name is ignored and counted; a
tail that would pass the ring or fall back is ignored with DB_ERR; any other sets TAIL, and a stream with descriptors to start runs.
DRF_DB_CPLHEAD tells what was consumed. PAUSE reads PAUSING until nothing is in flight, then PAUSED; RESUME goes on from PAUSED or ERROR at HEAD;
ABORT ends what is in flight ABORTED and discards what is posted. -/
def Obligations.StreamsAreOpenedMovedAndClosed : Prop :=
  Sys2Proof.Claims.StreamsAreOpenedAndClosed ∧ Sys2Proof.Claims.DoorbellsAndControlsMoveStreams

/-- R233, R236-R240, R242, R244, R245: the descriptor at HEAD of a PF stream is read from its ring and checked as it starts, an EVENT_VA that
reaches no counter and a malformed descriptor ending it at once, a poisoned one POISONED with its address; FENCE waits for all before it. A
descriptor of one row then moves it: COPY with its source's poison, FILL with the 8 bytes repeated, GATHER and SCATTER at the address their
index gives, TRANSCODE converted under its rounding from a line of stack memory; ZERO, CLEAN, INVALIDATE and CLEAN_INVALIDATE act on a line of
stack memory, and end INVALID_FIELD elsewhere but in a scratchpad. An operation row that names a descriptor of another kind does nothing. -/
def Obligations.DescriptorsStartAndMoveTheirRows : Prop :=
  ∀ (n : BitVec 15) (ix : BitVec 32) (host : BitVec 512) (s : Sys2Proof.Machine.State) (d : Sys2Proof.Machine.Desc) (l : Sys2Proof.Machine.FirnLine),
    s.hub.streamPart n.toNat = 31 →
    (let k := n.toNat
     let x := s.hub.stream k
     let head := s.hub.get (Sys2Proof.Machine.Reg.drfStreamStatusHead k)
     let a := x.f 0 8 + 64 * (head % 2 ^ x.f 8 1)
     let onHost := (x.f 0x0A 2).testBit 1
     let starts := s.hub.mayStart k = true ∧ s.hub.rowStuck k head = false ∧ s.hub.desc k head = none
     let raw := if onHost then host.toNat else s.mem.rd a 64
     let new := Sys2Proof.Machine.Desc.new head raw true
     let reachable := if onHost then s.hub.quiet x.fn = false else Sys2Proof.Claims.InFloe s.hub a 64 ∧ s.mem.badBits a 64 = 0
     let counter := (match s.hub.region (new.f 0x28 8) with | .event _ _ => decide (new.f 0x28 8 % 4 = 0) | _ => false) = true
     let checks := new.check ((x.f 0x0A 2).testBit 0) (decide (x.f 9 1 ≠ 0))
     let status := if checks = 0 ∧ new.flag 2 = true ∧ ¬ counter then 0x02 else checks
     let started (t : Sys2Proof.Machine.State) : Prop := t.hub.get (Sys2Proof.Machine.Reg.drfStreamStatusHead k) = (head + 1) % 2 ^ 32 ∧ t.mem = s.mem ∧ t.pending = s.pending
       ∧ ∀ j, j ≠ head → t.hub.desc k j = s.hub.desc k j
     let src := d.f 8 8
     let dst := d.f 0x10 8
     let len := d.rowBytes
     let oneRow := d.rows = 1 ∧ 0 < len ∧ d.index = ix.toNat ∧ d.mode 5 = false ∧ d.mode 6 = false
     let index := s.mem.rd (d.f 0x30 8) 4
     let indexed := d.f 0x38 1 = 0 ∧ d.f 0x30 8 % 4 = 0 ∧ Sys2Proof.Claims.InFloe s.hub (d.f 0x30 8) 4 ∧ s.mem.badBits (d.f 0x30 8) 4 = 0
     let moved (a b : Nat) (t : Sys2Proof.Machine.State) : Prop :=
       t.mem = s.mem.storeBits b len (s.mem.rd a len) (Sys2Proof.Machine.shiftBad a b len (s.mem.badBits a len))
         ∧ (if s.mem.badBits a len = 0 then Sys2Proof.Claims.EndsDesc s t k d 0 len else Sys2Proof.Claims.EndsDesc s t k d 0x08 a) ∧ Sys2Proof.Claims.SameRegsBut (Sys2Proof.Claims.rowRegs s.hub k b) s t
     let usable (a : Nat) := s.hub.region a = .stack ∧ s.hub.stackKind a = .usable ∧ s.hub.domainAt a = none ∧ Sys2Proof.Claims.LineFree s (a / 128)
       ∧ Sys2Proof.Machine.tlook s.mem.lines (a / 128) = some l
     let others (t : Sys2Proof.Machine.State) : Prop := ∀ j, j ≠ dst / 128 → Sys2Proof.Machine.tlook t.mem.lines j = Sys2Proof.Machine.tlook s.mem.lines j
     let maint := oneRow ∧ len = 128 ∧ dst % 128 = 0
     let onLine := maint ∧ usable dst ∧ s.hub.devRefuse k [(dst, 128)] = 0
     let ops (P : Nat → Sys2Proof.Instr → Prop) : Prop :=
       P 6 (.driftZero n ix) ∧ P 7 (.driftClean n ix) ∧ P 8 (.driftInvalidate n ix) ∧ P 9 (.driftCleanInvalidate n ix)
     let all (P : Nat → Sys2Proof.Instr → Prop) : Prop :=
       P 0 (.driftNop n ix) ∧ P 1 (.driftCopy n ix) ∧ P 2 (.driftFill n ix) ∧ P 3 (.driftGather n ix) ∧ P 4 (.driftScatter n ix)
         ∧ P 5 (.driftTranscode n ix) ∧ ops P
     (¬ (s.hub.mayStart k = true ∧ s.hub.rowStuck k head = false) → Sys2Proof.Machine.exec (.descriptorStart n host) s = .next s)
     ∧ (starts → reachable → new.flag 0 = true → x.inflight ≠ [] → Sys2Proof.Machine.exec (.descriptorStart n host) s = .next s)
     ∧ (starts → reachable → (new.flag 0 = false ∨ x.inflight = []) → Sys2Proof.Claims.Runs (.descriptorStart n host) s (fun t => started t
          ∧ (status = 0 → t.hub.desc k head = some { new with event := if new.flag 2 then some (new.f 0x28 8) else none })
          ∧ (status ≠ 0 → (t.hub.desc k head).map (fun e => (e.ended, e.raw)) = some (some (status, new.f 8 8), raw))))
     ∧ (starts → onHost = false → Sys2Proof.Claims.InFloe s.hub a 64 → s.mem.badBits a 64 ≠ 0 → Sys2Proof.Claims.Runs (.descriptorStart n host) s (fun t => started t
          ∧ (t.hub.desc k head).map (fun e => (e.ended, e.known, e.event)) = some (some (0x08, a), false, none)))
     ∧ (9 < d.op → d.check true true = 0x01)
     ∧ (d.op ≤ 9 → ((d.op = 1 ∧ d.sf ≠ d.df) ∨ (d.op = 5 ∧ d.sf = d.df) ∨ (d.mode 5 = true ∧ d.op ∉ [1, 3, 4, 5]) ∨ 32 ≤ d.f 1 1
          ∨ (d.op ≠ 0 ∧ (len = 0 ∨ d.rows = 0 ∨ 16777216 < len ∨ 16777216 < d.rows)) ∨ (d.op = 0 ∧ dst ≠ 0)
          ∨ (6 ≤ d.op ∧ (len % 128 ≠ 0 ∨ dst % 128 ≠ 0 ∨ d.f 0x24 4 % 128 ≠ 0))) → d.check true true = 0x02)
     ∧ (d.op ≤ 9 → d.flag 1 = true → d.check true false = 0x02) ∧ (d.op ≤ 9 → d.mode 5 = true ∨ d.mode 6 = true → d.check false true = 0x02)
     ∧ all (fun op i => s.hub.desc k ix.toNat = none ∨ s.hub.desc k ix.toNat = some d ∧ (d.ended ≠ none ∨ d.op ≠ op) → Sys2Proof.Machine.exec i s = .next s)
     ∧ (d.index = ix.toNat → Sys2Proof.Claims.Doing s k d 0 → Sys2Proof.Claims.Runs (.driftNop n ix) s (fun t => Sys2Proof.Claims.EndsDesc s t k d 0 0 ∧ t.mem = s.mem
          ∧ Sys2Proof.Claims.SameRegsBut [Sys2Proof.Machine.Reg.drfStreamStatusInflight k] s t))
     ∧ (oneRow → Sys2Proof.Claims.Doing s k d 1 → d.sf = d.df → Sys2Proof.Claims.InFloe s.hub src len → Sys2Proof.Claims.InFloe s.hub dst len → Sys2Proof.Claims.Runs (.driftCopy n ix) s (moved src dst))
     ∧ (oneRow → Sys2Proof.Claims.Doing s k d 2 → d.sf = d.df → Sys2Proof.Claims.InFloe s.hub dst len → Sys2Proof.Claims.Runs (.driftFill n ix) s (fun t => Sys2Proof.Claims.EndsDesc s t k d 0 len
          ∧ (∀ i < len, t.mem.byte (dst + i) = BitVec.ofNat 8 (Sys2Proof.Machine.bits src (8 * (i % 8)) 8))
          ∧ (∀ a, a < dst ∨ dst + len ≤ a → t.mem.byte a = s.mem.byte a) ∧ t.mem.lines = s.mem.lines
          ∧ Sys2Proof.Claims.SameRegsBut (Sys2Proof.Claims.rowRegs s.hub k dst) s t))
     ∧ (oneRow → Sys2Proof.Claims.Doing s k d 3 → d.sf = d.df → indexed → Sys2Proof.Claims.InFloe s.hub (src + index * d.f 0x20 4) len → Sys2Proof.Claims.InFloe s.hub dst len →
          Sys2Proof.Claims.Runs (.driftGather n ix) s (moved (src + index * d.f 0x20 4) dst))
     ∧ (oneRow → Sys2Proof.Claims.Doing s k d 4 → d.sf = d.df → indexed → Sys2Proof.Claims.InFloe s.hub src len → Sys2Proof.Claims.InFloe s.hub (dst + index * d.f 0x24 4) len →
          Sys2Proof.Claims.Runs (.driftScatter n ix) s (moved src (dst + index * d.f 0x24 4)))
     ∧ (oneRow → Sys2Proof.Claims.Doing s k d 5 → d.sf ≠ d.df → d.whole = true → usable src → src % 128 + len ≤ 128 → s.hub.devRefuse k [(src, len)] = 0 →
          l.valid = 15 → l.poison = 0 → 0 < d.dstBytes → Sys2Proof.Claims.InFloe s.hub dst d.dstBytes → Sys2Proof.Claims.Runs (.driftTranscode n ix) s (fun t =>
            t.mem = s.mem.storeBits dst d.dstBytes
                (Sys2Proof.Machine.convertRow (.ofNat d.sf) (.ofNat d.df) (Sys2Proof.Machine.bits l.data (8 * (src % 128)) (8 * len)) d.elems src dst true d.round).out 0
              ∧ Sys2Proof.Claims.EndsDesc s t k d 0 d.dstBytes))
     ∧ ops (fun op i => maint → Sys2Proof.Claims.Doing s k d op → Sys2Proof.Claims.InFloe s.hub dst 128 → Sys2Proof.Claims.Runs i s (fun t => Sys2Proof.Claims.EndsDesc s t k d 0x02 dst ∧ t.mem = s.mem))
     ∧ (onLine → (Sys2Proof.Claims.Doing s k d 6 → Sys2Proof.Claims.Runs (.driftZero n ix) s (fun t => Sys2Proof.Claims.EndsDesc s t k d 0 128 ∧ others t ∧ Sys2Proof.Claims.SameBacking s t
            ∧ ∀ m ∈ Sys2Proof.Machine.tlook t.mem.lines (dst / 128), ∀ i < 4, Sys2Proof.Machine.secGet m.data i = 0 ∧ m.valid.testBit i = true ∧ m.dirty.testBit i = true
                ∧ m.poison.testBit i = false))
          ∧ (Sys2Proof.Claims.Doing s k d 7 → Sys2Proof.Claims.Runs (.driftClean n ix) s (fun t => Sys2Proof.Claims.EndsDesc s t k d 0 128 ∧ others t
              ∧ Sys2Proof.Machine.tlook t.mem.lines (dst / 128) = some { l with dirty := 0 }
              ∧ ∀ i < 4, l.dirty.testBit i = true → t.mem.backSec (dst / 128) i = (Sys2Proof.Machine.secGet l.data i, l.poison.testBit i)))
          ∧ (Sys2Proof.Claims.Doing s k d 8 → Sys2Proof.Claims.Runs (.driftInvalidate n ix) s (fun t => Sys2Proof.Claims.EndsDesc s t k d 0 128 ∧ others t ∧ Sys2Proof.Claims.SameBacking s t
              ∧ Sys2Proof.Machine.tlook t.mem.lines (dst / 128) = none))
          ∧ (Sys2Proof.Claims.Doing s k d 9 → Sys2Proof.Claims.Runs (.driftCleanInvalidate n ix) s (fun t => Sys2Proof.Claims.EndsDesc s t k d 0 128 ∧ others t
              ∧ Sys2Proof.Machine.tlook t.mem.lines (dst / 128) = none
              ∧ ∀ i < 4, l.dirty.testBit i = true → t.mem.backSec (dst / 128) i = (Sys2Proof.Machine.secGet l.data i, l.poison.testBit i)))))

/-- R235, R243, R245: the oldest descriptor in flight is reported once it has ended: with COMPLETE or a status other than OK, and a ring with
room, its 16-byte record (Table 4) is written and the count of records goes up; with no room it is held; then its event is added and its
interrupt raised. A status that stops the stream puts it in ERROR once nothing is in flight, with LAST_STATUS and DRF_EVENT.STREAM_ERROR.
R246: a row answered WINDOW_CLOSING goes out again until RETRY_MS. R249: an invalidation drops the translations it overlaps, and completes at
once where no request of the function is open; a page response lets the access go on, or ends its descriptor TRANSLATION_FAULT. -/
def Obligations.DescriptorsAreReportedInRingOrder : Prop :=
  ∀ (n : BitVec 15) (ix us : BitVec 32) (s : Sys2Proof.Machine.State) (d : Sys2Proof.Machine.Desc) (rest : List Sys2Proof.Machine.Desc) (st det a fl c : Nat)
    (q : Sys2Proof.Machine.OutReq) (fn : BitVec 6) (page : BitVec 52) (log2 : BitVec 6),
    (let k := n.toNat
     let x := s.hub.stream k
     let oldest := x.inflight = d :: rest ∧ (∀ e ∈ rest, e.index ≠ d.index) ∧ x.held = [] ∧ x.stop = none ∧ d.ended = some (st, det)
     let ring := x.f 9 1 ≠ 0
     let records := ring ∧ (st ≠ 0 ∨ (d.known = true ∧ d.flag 1 = true))
     let noIrq := d.known = false ∨ d.flag 3 = false
     let added (m : Sys2Proof.Machine.Memory) : Sys2Proof.Machine.Memory := if d.event = some a then m.setCounter fl c ((m.counter fl c + 1) % 2 ^ 32) else m
     let event := d.event = none ∨ (d.event = some a ∧ s.hub.region a = .event fl c)
     let slot := x.f 0x10 8 + 16 * (x.c % 2 ^ x.f 9 1)
     let full := 2 ^ x.f 9 1 ≤ (x.c + 2 ^ 32 - x.cplHead) % 2 ^ 32
     let running := s.hub.get (Sys2Proof.Machine.Reg.drfStreamStatusState k) = 2
     let state (t : Sys2Proof.Machine.State) : Prop := t.pending = s.pending ∧ (t.hub.stream k).inflight = rest
       ∧ ((t.hub.stream k).held = [] → rest = [] → st ≠ 0 → x.stopsAt d = true → t.hub.get (Sys2Proof.Machine.Reg.drfStreamStatusState k) = 5
            ∧ t.hub.get (Sys2Proof.Machine.Reg.drfStreamStatusLastStatus k) = st % 2 ^ 8 ∧ t.hub.get Sys2Proof.Machine.Reg.drfEventStreamError = 1)
     let mine := s.hub.desc k ix.toNat
     let overlaps (e : Sys2Proof.Machine.AtsEntry) : Prop := e.fn = fn.toNat ∧ e.page / 2 ^ max e.log2 log2.toNat = page.toNat / 2 ^ max e.log2 log2.toNat
     let waits := ((k, ix.toNat) ∈ s.hub.drift.pri)
     (x.inflight = d :: rest → d.ended = none → Sys2Proof.Machine.exec (.descriptorComplete n) s = .next s)
     ∧ (oldest → running → noIrq → event → ¬ records → Sys2Proof.Claims.Runs (.descriptorComplete n) s (fun t => state t ∧ t.mem = added s.mem
          ∧ (t.hub.stream k).c = x.c))
     ∧ (oldest → running → noIrq → event → records → full → Sys2Proof.Claims.Runs (.descriptorComplete n) s (fun t => state t ∧ t.mem = s.mem
          ∧ (t.hub.stream k).c = x.c ∧ (t.hub.stream k).held.map (fun r => (r.index, r.status, r.detail)) = [(d.index, st, det)]))
     ∧ (oldest → running → noIrq → event → records → ¬ full → s.hub.streamPart k = 31 → (x.f 0x0A 2).testBit 1 = false →
          Sys2Proof.Claims.InFloe s.hub slot 16 → Sys2Proof.Claims.Runs (.descriptorComplete n) s (fun t => state t ∧ (t.hub.stream k).held = []
            ∧ (t.hub.stream k).c = (x.c + 1) % 2 ^ 32
            ∧ t.mem.rd slot 4 = d.index % 2 ^ 32 ∧ t.mem.rd (slot + 4) 2 = (if d.known then d.f 6 2 else 0)
            ∧ t.mem.rd (slot + 6) 1 = st % 2 ^ 8
            ∧ t.mem.rd (slot + 7) 1 = (if (x.c / 2 ^ x.f 9 1) % 2 = 0 then 1 else 0) + (if d.retried then 2 else 0)
            ∧ t.mem.rd (slot + 8) 8 = det % 2 ^ 64
            ∧ (d.event = some a → t.mem.counter fl c = (s.mem.counter fl c + 1) % 2 ^ 32)))
     ∧ (mine = none ∨ (mine = some d ∧ d.retry = []) → Sys2Proof.Machine.exec (.remoteRowRetry n ix us) s = .next s)
     ∧ (mine = some d → d.index = ix.toNat → d.ended = none → d.retry = q :: [] → x.f 0x0E 2 * 1000 < us.toNat →
          Sys2Proof.Claims.Runs (.remoteRowRetry n ix us) s (fun t => Sys2Proof.Claims.EndsDesc s t k d 0x0B q.place ∧ t.mem = s.mem))
     ∧ (mine = some d → d.index = ix.toNat → d.ended = none → d.retry = q :: [] → us.toNat ≤ x.f 0x0E 2 * 1000 →
          Sys2Proof.Claims.Runs (.remoteRowRetry n ix us) s (fun t => t.mem = s.mem ∧ t.pending = s.pending
            ∧ (t.hub.desc k ix.toNat).map (fun e => (e.retried, e.retry, e.raw)) = some (true, [], d.raw)))
     ∧ Sys2Proof.Claims.Runs (.atsInvalidation fn page log2) s (fun t => t.mem = s.mem ∧ t.pending = s.pending ∧ t.hub.regs = s.hub.regs
          ∧ (∀ e ∈ t.hub.drift.ats, e ∈ s.hub.drift.ats ∧ ¬ overlaps e) ∧ (∀ e ∈ s.hub.drift.ats, ¬ overlaps e → e ∈ t.hub.drift.ats)
          ∧ (s.hub.hostOpen fn.toNat = false → Sys2Proof.Machine.Sent.ats fn.toNat (page.toNat * 4096) 1 ∈ t.hub.sent)
          ∧ (s.hub.hostOpen fn.toNat = true → t.hub.drift.inv = s.hub.drift.inv ++ [(fn.toNat, page.toNat, log2.toNat)]))
     ∧ (¬ waits → ∀ ok : Bool, Sys2Proof.Machine.exec (.priResponse n ix ok) s = .next s)
     ∧ (waits → Sys2Proof.Claims.Runs (.priResponse n ix true) s (fun t => t.mem = s.mem ∧ t.pending = s.pending ∧ t.hub.regs = s.hub.regs
          ∧ (∀ p, p ∈ t.hub.drift.pri ↔ p ∈ s.hub.drift.pri ∧ p ≠ (k, ix.toNat)) ∧ ∀ m, t.hub.stream m = s.hub.stream m))
     ∧ (waits → mine = some d → d.index = ix.toNat → d.ended = none → Sys2Proof.Claims.Runs (.priResponse n ix false) s (fun t =>
          Sys2Proof.Claims.EndsDesc s t k d 0x05 (d.f 8 8) ∧ t.mem = s.mem)))

namespace Sys2Proof.Claims

open Sys2Proof Machine

/-- A line of stack memory that the access map lets through, held whole and sound in Firn with nothing open on it, for address `a`. -/
def HeldLine (s : State) (a : Nat) (l : FirnLine) : Prop :=
  s.hub.region a = .stack ∧ s.hub.stackKind a = .usable ∧ s.hub.domainAt a = none ∧ LineFree s (a / 128)
    ∧ tlook s.mem.lines (a / 128) = some l ∧ l.valid = 15 ∧ l.poison < 16

/-- An access opens a fault of its own in slot `k` of its die and parks under it (R267, R268); the faulting page leaves the port's TLBs
(R260). -/
def OpensFault (s t : State) (x : XAcc) (k cause level entry ea : Nat) : Prop :=
  (t.hub.xlt.faults.map (fun f => (f.die, f.slot, f.part, f.asid, f.page)) =
      s.hub.xlt.faults.map (fun f => (f.die, f.slot, f.part, f.asid, f.page)) ++ [(x.die, k, x.part, x.asid, x.va / 65536)])
    ∧ (t.hub.xlt.faults.getLast?.map (fun f => (f.cause, f.level, f.master, f.va, f.entry, f.entryHpa, f.parked, f.written)) =
      some (cause, level, x.master, x.va, entry, ea, 1, false))
    ∧ t.hub.xlt.parked = s.hub.xlt.parked ++ [⟨x.die, k, x.master, x.va, x.acc, x.who⟩]
    ∧ (∀ e ∈ t.hub.xlt.tlbs, e ∈ s.hub.xlt.tlbs ∧ ¬ ((e.tlb = x.utlb ∨ e.tlb = x.stlb) ∧ e.covers x.asid x.va = true))
    ∧ t.pending = s.pending

/-- The access may open a fault in slot `k`: it joins none, and there is room. -/
def MayOpen (h : Hub) (x : XAcc) (k : Nat) : Prop := h.faultFor x = none ∧ h.parkedIn x.die < 512 ∧ h.faultSlot x.die = some k

end Sys2Proof.Claims

/-- R253-R258: what an entry means to a walk: not present, malformed, a pointer to the next table, a leaf that lacks a right or whose span is
not the partition's, or a translation. R253, R260, R261, R265, R267, R268: a miss joins the walk in flight on its page, or takes a free
walker and starts at the deepest table that the walk cache names; a walk's table read goes on a level, installs its leaf in the TLBs of the
port, or opens a fault; an address that is not the partition's faults FOREIGN with nothing read, a poisoned entry TABLE_POISON; a walk that an
invalidation covers starts again. -/
def Obligations.WalksFollowThePageTables : Prop :=
  ∀ (die : BitVec 1) (r : Sys2Proof.XltReq) (asid : BitVec 12) (page : BitVec 36) (s : Sys2Proof.Machine.State) (x : Sys2Proof.Machine.XAcc) (w : Sys2Proof.Machine.Walk) (l : Sys2Proof.Machine.FirnLine)
    (e ea p va level need k next out1 size rights cause : Nat),
    (let judged := s.hub.judge p va level need e ea
     let lo := 16 + 9 * level
     let leaf := e.testBit 1
     let cont := e.testBit 5
     let bad := Sys2Proof.Machine.bits e 6 6 ≠ 0 ∨ Sys2Proof.Machine.bits e 56 8 ≠ 0 ∨ (leaf = true ∧ level = 3) ∨ (leaf = false ∧ level = 0) ∨ (leaf = true ∧ cont = true ∧ level = 2)
       ∨ (leaf = true ∧ Sys2Proof.Machine.bits e 12 (lo - 12) ≠ 0) ∨ (leaf = false ∧ Sys2Proof.Machine.bits e 2 4 ≠ 0)
       ∨ (leaf = true ∧ cont = true ∧ Sys2Proof.Machine.bits e lo 4 ≠ Sys2Proof.Machine.bits va lo 4)
     let log2 := if cont then lo + 4 else lo
     let out := Sys2Proof.Machine.bits e lo (48 - lo) * 2 ^ lo
     let base := out - out % 2 ^ log2
     let lacks := (Sys2Proof.Machine.bits e 2 3 &&& need) ≠ need
     let owned := s.hub.spanOk p level base log2 = true
     let i := Sys2Proof.Instr.walkStart die r
     let idle := s.hub.portHeld x = false ∧ s.hub.faultFor x = none
     let miss := idle ∧ ¬ (x.va < 2 ^ 52 ∧ ((s.hub.tlbGet x.utlb x.asid x.va).isSome ∨ (s.hub.tlbGet x.stlb x.asid x.va).isSome))
     let free := s.hub.walksOf x.die < 64 ∧ s.hub.portWalks x.die x.master.local' < 8
     let hubOnly (t : Sys2Proof.Machine.State) : Prop := t.mem = s.mem ∧ t.pending = s.pending
     let start := s.hub.walkFrom x.die x.asid x.va
     let back := s.hub.xlt.walks.find? (fun w => decide (w.die = die.toNat) && decide (w.asid = asid.toNat) && decide (Sys2Proof.Machine.pageOf w.va = page.toNat))
     let j := Sys2Proof.Instr.tableReadReturn die asid page
     let part := s.hub.get (Sys2Proof.Machine.Reg.xltAsPartition w.asid)
     let at' := w.table + 8 * Sys2Proof.Machine.bits w.va (16 + 9 * w.level) 9
     let entry := Sys2Proof.Machine.bits l.data (8 * (at' % 128)) 64
     let y := w.access
     let alone := w.joined = [] ∧ w.who = .walk ∧ s.hub.portHeld y = false
     let reads := back = some w ∧ w.stale = false ∧ alone ∧ s.hub.tableOk part at' = true ∧ Sys2Proof.Claims.HeldLine s at' l ∧ at' % 8 = 0
     let sound := l.poison.testBit (at' % 128 / 32) = false
     let meaning := s.hub.judge part w.va w.level w.acc.rights entry at'
     let others (t : Sys2Proof.Machine.State) : Prop := t.pending = s.pending ∧ t.mem = s.mem
     let gone (t : Sys2Proof.Machine.State) : Prop := t.hub.xlt.walks = s.hub.xlt.walks.erase w
     (e.testBit 0 = false → judged = .fault 0x01 level e ea)
     ∧ (e.testBit 0 = true → bad → judged = .fault 0x03 level e ea)
     ∧ (e.testBit 0 = true → ¬ bad → leaf = false → judged = .table (Sys2Proof.Machine.bits e 12 36 * 4096))
     ∧ (e.testBit 0 = true → ¬ bad → leaf = true → lacks → judged = .fault 0x02 level e ea)
     ∧ (e.testBit 0 = true → ¬ bad → leaf = true → ¬ lacks → ¬ owned → judged = .fault 0x04 level e ea)
     ∧ (e.testBit 0 = true → ¬ bad → leaf = true → ¬ lacks → owned → judged = .leaf base log2 (Sys2Proof.Machine.bits e 2 3) e)
     ∧ (s.hub.walkAcc die.toNat r = none → Sys2Proof.Machine.exec i s = .next s)
     ∧ (s.hub.walkAcc die.toNat r = some x → x.asid = r.asid.toNat ∧ x.va = r.va.toNat ∧ x.die = die.toNat ∧ x.who = .walk
          ∧ (miss → s.hub.walkFor x = some w → Sys2Proof.Claims.Runs i s (fun t => hubOnly t
              ∧ t.hub.xlt.walks = s.hub.xlt.walks.map (fun v => if v = w then { v with joined := v.joined ++ [(x.master, x.va, x.acc, x.who)] } else v)
              ∧ Sys2Proof.Claims.SameRegsBut [Sys2Proof.Machine.Reg.xltPerfStlbMissCount x.die] s t))
          ∧ (miss → s.hub.walkFor x = none → free → x.va < 2 ^ 52 → s.hub.get (Sys2Proof.Machine.Reg.xltAsValid x.asid) = 1 → Sys2Proof.Claims.Runs i s (fun t => hubOnly t
              ∧ t.hub.xlt.walks = s.hub.xlt.walks ++ [⟨x.die, x.master.local', x.asid, x.part, x.va, x.acc, start.1, start.2, false, x.master, [], .walk⟩]
              ∧ Sys2Proof.Claims.SameRegsBut [Sys2Proof.Machine.Reg.xltPerfStlbMissCount x.die, Sys2Proof.Machine.Reg.xltPerfWalksCount x.die] s t))
          ∧ (miss → s.hub.walkFor x = none → ¬ free → Sys2Proof.Machine.exec i s = .next s)
          ∧ (miss → s.hub.walkFor x = none → free → 2 ^ 52 ≤ x.va → Sys2Proof.Claims.MayOpen s.hub x k → Sys2Proof.Claims.Runs i s (fun t => hubOnly t
              ∧ Sys2Proof.Claims.OpensFault s t x k 0x06 3 0 0))
          ∧ (miss → s.hub.walkFor x = none → free → x.va < 2 ^ 52 → s.hub.get (Sys2Proof.Machine.Reg.xltAsValid x.asid) = 0 → Sys2Proof.Claims.MayOpen s.hub x k →
              Sys2Proof.Claims.Runs i s (fun t => hubOnly t ∧ Sys2Proof.Claims.OpensFault s t x k 0x05 3 0 0))
          ∧ (s.hub.portHeld x = false → ∀ f ∈ s.hub.faultFor x, s.hub.parkedIn x.die < 512 → Sys2Proof.Claims.Runs i s (fun t => hubOnly t
              ∧ t.hub.xlt.parked = s.hub.xlt.parked ++ [⟨x.die, f.slot, x.master, x.va, x.acc, x.who⟩] ∧ t.hub.regs = s.hub.regs
              ∧ t.hub.xlt.faults.length = s.hub.xlt.faults.length)))
     ∧ (back = none → Sys2Proof.Machine.exec j s = .next s)
     ∧ (reads → sound → meaning = .table next → Sys2Proof.Claims.Runs j s (fun t => others t
          ∧ t.hub.xlt.walks = s.hub.xlt.walks.map (fun v => if v = w then { v with level := v.level - 1, table := next, stale := false } else v)
          ∧ t.hub.xlt.tlbs = s.hub.xlt.tlbs ∧ t.hub.xlt.faults = s.hub.xlt.faults))
     ∧ (reads → sound → meaning = .leaf out1 size rights entry → s.hub.faultFor y = none →
          Sys2Proof.Claims.Runs j s (fun t => others t ∧ gone t ∧ t.hub.xlt.faults = s.hub.xlt.faults ∧ t.hub.xlt.parked = s.hub.xlt.parked
            ∧ (∀ tlb ∈ [y.utlb, y.stlb], (t.hub.tlbGet tlb w.asid w.va).map (fun v => (v.out, v.log2, v.rights)) = some (out1, size, rights))))
     ∧ (reads → sound → meaning = .fault cause w.level entry at' → Sys2Proof.Claims.MayOpen s.hub y k → Sys2Proof.Claims.Runs j s (fun t => others t ∧ gone t
          ∧ Sys2Proof.Claims.OpensFault s t y k cause w.level entry at'))
     ∧ (reads → ¬ sound → Sys2Proof.Claims.MayOpen s.hub y k → Sys2Proof.Claims.Runs j s (fun t => others t ∧ gone t ∧ Sys2Proof.Claims.OpensFault s t y k 0x07 w.level 0 at'
          ∧ t.hub.get Sys2Proof.Machine.Reg.xltEventTablePoison = 1))
     ∧ (back = some w → w.stale = false → alone → s.hub.tableOk part at' = false → Sys2Proof.Claims.MayOpen s.hub y k → Sys2Proof.Claims.Runs j s (fun t => others t ∧ gone t
          ∧ Sys2Proof.Claims.OpensFault s t y k 0x04 w.level 0 0))
     ∧ (back = some w → w.stale = true → s.hub.get (Sys2Proof.Machine.Reg.xltAsValid w.asid) = 1 → Sys2Proof.Claims.Runs j s (fun t => others t
          ∧ t.hub.xlt.walks = s.hub.xlt.walks.map (fun v => if v = w then { v with
              level := (s.hub.walkFrom w.die w.asid w.va).1, table := (s.hub.walkFrom w.die w.asid w.va).2, stale := false } else v)
          ∧ t.hub.xlt.tlbs = s.hub.xlt.tlbs ∧ Sys2Proof.Claims.SameRegsBut [Sys2Proof.Machine.Reg.xltPerfWalksCount w.die] s t)))

/-- R269-R272: a fault's record is written once to its partition's queue, in the order in which faults opened, where Table 10 puts each field;
a full or disabled queue leaves it pending with OVF_SEEN; CI takes what the driver reports; a held access enters a freed park slot and opens
its fault. R273, R274: XLT_RESUME closes the fault that it names, once its record is written: RETRY walks again, REFUSE ends a descriptor
TRANSLATION_FAULT; any other FAULT_ID answers FAULT_UNKNOWN. -/
def Sys2Proof.Claims.FaultsAreRecordedAndAnswered : Prop :=
  ∀ (die : BitVec 1) (slot : BitVec 9) (fn : BitVec 6) (q : BitVec 5) (ci : BitVec 32) (cmd : Sys2Proof.QCmd) (s : Sys2Proof.Machine.State) (f : Sys2Proof.Machine.Fault11)
    (l : Sys2Proof.Machine.FirnLine) (a : Sys2Proof.Machine.HeldAcc) (v : Sys2Proof.Machine.Parked) (k n ix : Nat) (d : Sys2Proof.Machine.Desc) (tlb : Sys2Proof.Machine.TlbEntry),
    (let p := f.part
     let here := s.hub.xlt.faults.find? (fun f => decide (f.die = die.toNat) && decide (f.slot = slot.toNat))
     let turn := here = some f ∧ f.written = false ∧ f.pendingRec = false ∧ p < 24
       ∧ s.hub.xlt.faults.find? (fun y => decide (y.part = f.part) && !y.written && !y.pendingRec) = some f
     let pi := s.hub.get (Sys2Proof.Machine.Reg.xltFqPiCount p)
     let lg := s.hub.get (Sys2Proof.Machine.Reg.xltFqCtrlLog2 p)
     let room := s.hub.get (Sys2Proof.Machine.Reg.xltFqCtrlEnable p) = 1 ∧ (pi + 2 ^ 32 - s.hub.get (Sys2Proof.Machine.Reg.xltFqCiCount p)) % 2 ^ 32 ≠ 2 ^ lg
     let at' := s.hub.get (Sys2Proof.Machine.Reg.xltFqBaseHpa p) + 64 * (pi % 2 ^ lg)
     let no := s.hub.fqNext p = none
     let kept (t : Sys2Proof.Machine.State) : Prop := t.pending = s.pending ∧ t.hub.xlt.parked = s.hub.xlt.parked
     let ending (w pend : Bool) (t : Sys2Proof.Machine.State) : Prop :=
       t.hub.xlt.faults = s.hub.xlt.faults.map (fun y => if y.die = f.die ∧ y.slot = f.slot then { y with written := w, pendingRec := pend } else y)
     let part := s.hub.tagPart fn.toNat q.toNat
     let x := a.access
     let head := s.hub.xlt.held = [a] ∧ a.die = die.toNat
     let answers := s.hub.cmdCheck cmd false = 0 ∧ Sys2Proof.Machine.qf cmd 0x14 1 < 2 ∧ Sys2Proof.Machine.qz cmd 0x15 0x40 = true
     let named := s.hub.xlt.faults.find? (fun f => decide (f.id = Sys2Proof.Machine.qf cmd 0x10 4) && f.written && (decide (cmd.fn = 0) || decide (f.part = s.hub.vfOwner cmd.fn)))
     let mine := s.hub.xlt.parked.filter (fun a => decide (a.die = f.die) && decide (a.slot = f.slot))
     let closed (t : Sys2Proof.Machine.State) : Prop := t.mem = s.mem ∧ t.pending = s.pending
       ∧ t.hub.xlt.faults = s.hub.xlt.faults.filter (fun y => !(decide (y.die = f.die) && decide (y.slot = f.slot)))
       ∧ t.hub.xlt.parked = s.hub.xlt.parked.filter (fun a => !(decide (a.die = f.die) && decide (a.slot = f.slot)))
     let z := f.access v
     (here = none ∨ (here = some f ∧ (f.written = true ∨ f.pendingRec = true)) → Sys2Proof.Machine.exec (.faultRecordWrite die slot) s = .next s)
     ∧ (turn → room → no → Sys2Proof.Claims.HeldLine s at' l → at' % 64 = 0 → Sys2Proof.Claims.Runs (.faultRecordWrite die slot) s (fun t => kept t ∧ ending true false t
          ∧ t.hub.get (Sys2Proof.Machine.Reg.xltFqPiCount p) = (pi + 1) % 2 ^ 32 ∧ t.hub.get Sys2Proof.Machine.Reg.xltEventFault = 1
          ∧ (∀ m ∈ Sys2Proof.Machine.tlook t.mem.lines (at' / 128),
              let b (o n : Nat) : Nat := Sys2Proof.Machine.bits m.data (8 * (at' % 128 + o)) (8 * n)
              b 0 1 = f.cause % 2 ^ 8 ∧ b 1 1 = ((if pi / 2 ^ lg % 2 = 0 then 1 else 0) + 2 * f.flags + 16 * f.die) % 2 ^ 8
                ∧ b 2 2 = f.asid % 2 ^ 16 ∧ b 4 1 = f.level % 2 ^ 8 ∧ b 5 1 = f.master.kind % 2 ^ 8 ∧ b 6 2 = f.master.port % 2 ^ 16
                ∧ b 8 8 = f.va % 2 ^ 64 ∧ b 0x10 8 = f.entry % 2 ^ 64 ∧ b 0x18 8 = f.entryHpa % 2 ^ 64 ∧ b 0x20 8 = f.engines % 2 ^ 64
                ∧ b 0x28 2 = f.parked % 2 ^ 16 ∧ b 0x2C 4 = (f.slot + 2 ^ 9 * f.die + 2 ^ 10 * f.gen) % 2 ^ 32
                ∧ b 0x30 8 = Sys2Proof.Config.timeNs s.hub.fresh % 2 ^ 64 ∧ b 0x38 4 = f.master.context % 2 ^ 32)
          ∧ (∀ i, i ≠ at' / 128 → Sys2Proof.Machine.tlook t.mem.lines i = Sys2Proof.Machine.tlook s.mem.lines i) ∧ Sys2Proof.Claims.SameBacking s t))
     ∧ (turn → ¬ room → Sys2Proof.Claims.Runs (.faultRecordWrite die slot) s (fun t => kept t ∧ ending false true t ∧ t.mem = s.mem
          ∧ t.hub.get (Sys2Proof.Machine.Reg.xltFqStatusOvfSeen p) = 1 ∧ t.hub.get Sys2Proof.Machine.Reg.xltEventOverflow = 1 ∧ t.hub.get (Sys2Proof.Machine.Reg.xltFqPiCount p) = pi))
     ∧ (part < 24 → s.hub.fqNext part = none → Sys2Proof.Machine.exec (.fqCiWrite fn q ci) s =
          .next ((s.wroteBy fn.toNat).onHub (·.set (Sys2Proof.Machine.Reg.xltFqCiCount part) ci.toNat)))
     ∧ (24 ≤ part → Sys2Proof.Machine.exec (.fqCiWrite fn q ci) s = .next (s.wroteBy fn.toNat))
     ∧ (512 ≤ s.hub.parkedIn die.toNat ∨ s.hub.xlt.held.find? (fun a => decide (a.die = die.toNat)) = none →
          Sys2Proof.Machine.exec (.parkAdmit die) s = .next s)
     ∧ (head → Sys2Proof.Claims.MayOpen s.hub x k → Sys2Proof.Claims.Runs (.parkAdmit die) s (fun t => t.mem = s.mem ∧ t.hub.xlt.held = []
          ∧ Sys2Proof.Claims.OpensFault s t x k a.cause a.level a.entry a.entryHpa))
     ∧ (answers → named = none → Sys2Proof.Machine.exec (.xltResume cmd) s = .next (s.done cmd 0x20 0))
     ∧ (s.hub.cmdCheck cmd false = 0 → ¬ (Sys2Proof.Machine.qf cmd 0x14 1 < 2 ∧ Sys2Proof.Machine.qz cmd 0x15 0x40 = true) → Sys2Proof.Machine.exec (.xltResume cmd) s = .next (s.done cmd 0x02 0))
     ∧ (answers → named = some f → mine = [v] → Sys2Proof.Machine.qf cmd 0x14 1 = 0 → v.who = .walk → z.va < 2 ^ 52 → s.hub.portHeld z = false →
          s.hub.xlt.faults = [f] → f.die = v.die → s.hub.tlbGet z.utlb z.asid z.va = some tlb → tlb.rights = 7 →
          Sys2Proof.Claims.Runs (.xltResume cmd) s closed)
     ∧ (answers → named = some f → mine = [v] → Sys2Proof.Machine.qf cmd 0x14 1 = 1 → v.who = .stream n ix → s.hub.desc n ix = some d → d.ended = none →
          (s.hub.stream n).held = [] → Sys2Proof.Claims.Runs (.xltResume cmd) s (fun t => closed t
            ∧ (t.hub.desc n ix).map (·.ended) = some (some (0x05, 0)) ∧ ∀ m, m ≠ n → t.hub.stream m = s.hub.stream m)))

/-- R264-R266, R252: XLT_INVALIDATE removes every TLB entry in its scope, and every walk-cache entry unless LEAF_ONLY, and makes the walks in
scope go again; it completes once none of those is open; another partition's ASID is RIGHTS. Clearing XLT_AS.VALID invalidates the address
space and sets BUSY until that is done; ROOT and PARTITION change only while VALID and BUSY are 0. A slot of XLT_GRANT that changes and
becomes valid is taken only if its ASID is of the engine's partition. -/
def Sys2Proof.Claims.InvalidationsAndAddressSpaceWrites : Prop :=
  ∀ (cmd : Sys2Proof.QCmd) (asid : BitVec 12) (e : BitVec 7) (w : BitVec 64) (s : Sys2Proof.Machine.State) (i : Sys2Proof.Machine.Inval),
    (let k := Sys2Proof.Machine.qf cmd 0x10 2
     let scope := Sys2Proof.Machine.qf cmd 0x12 1
     let lo := Sys2Proof.Machine.qf cmd 0x18 8
     let len := Sys2Proof.Machine.qf cmd 0x20 8
     let ok := s.hub.cmdCheck cmd false = 0 ∧ Sys2Proof.Machine.invalOk cmd = true
     let own := cmd.fn = 0 ∨ s.hub.get (Sys2Proof.Machine.Reg.xltAsPartition k) = s.hub.vfOwner cmd.fn
     let hit (a va n : Nat) : Prop := (if scope = 2 then s.hub.get (Sys2Proof.Machine.Reg.xltAsPartition a) = s.hub.get (Sys2Proof.Machine.Reg.xltAsPartition k) else a = k)
       ∧ (scope ≠ 0 ∨ 2 ^ 30 < len ∨ (va < lo + len ∧ lo < va + n))
     let kept (t : Sys2Proof.Machine.State) : Prop := t.mem = s.mem ∧ t.pending = s.pending
     let n := asid.toNat
     let word := w.toNat
     let part := if n < 24 then s.hub.get (Sys2Proof.Machine.Reg.xltAsPartition n) else Sys2Proof.Machine.bits word 56 5
     let legal := Sys2Proof.Machine.bits word 56 5 < 24 ∨ Sys2Proof.Machine.bits word 56 5 = 31 ∨ n < 24
     let root := Sys2Proof.Machine.bits word 12 36
     let valid := s.hub.get (Sys2Proof.Machine.Reg.xltAsValid n) = 1
     let same := root = s.hub.get (Sys2Proof.Machine.Reg.xltAsRoot n) ∧ part = s.hub.get (Sys2Proof.Machine.Reg.xltAsPartition n)
     let busy := s.hub.get (Sys2Proof.Machine.Reg.xltAsBusy n) = 1
     let asRegs := [Sys2Proof.Machine.Reg.xltAsRoot n, Sys2Proof.Machine.Reg.xltAsPartition n, Sys2Proof.Machine.Reg.xltAsValid n, Sys2Proof.Machine.Reg.xltAsBusy n, Sys2Proof.Machine.Reg.xltEventAsRefused]
     let clearing := s.hub.xlt.invals.find? (fun i => i.cmd.isNone && decide (i.asid = n))
     let waiting := s.hub.xlt.invals.find? (fun i => i.cmd.isSome && decide (i.asid = n))
     let owner := s.hub.engOwner e.toNat
     let exists' := s.hub.dies = 2 ∨ e.toNat < 64
     (s.hub.cmdCheck cmd false = 0 → Sys2Proof.Machine.invalOk cmd = false → Sys2Proof.Machine.exec (.xltInvalidate cmd) s = .next (s.done cmd 0x02 0))
     ∧ (ok → ¬ own → Sys2Proof.Machine.exec (.xltInvalidate cmd) s = .next (s.done cmd 0x04 0))
     ∧ (ok → own → Sys2Proof.Claims.Runs (.xltInvalidate cmd) s (fun t => kept t ∧ t.hub.regs = s.hub.regs
          ∧ (∀ y ∈ t.hub.xlt.tlbs, y ∈ s.hub.xlt.tlbs ∧ ¬ hit y.asid y.va (2 ^ y.log2)) ∧ (∀ y ∈ s.hub.xlt.tlbs, ¬ hit y.asid y.va (2 ^ y.log2) → y ∈ t.hub.xlt.tlbs)
          ∧ (Sys2Proof.Machine.qf cmd 0x13 1 = 1 → t.hub.xlt.wcache = s.hub.xlt.wcache)
          ∧ (Sys2Proof.Machine.qf cmd 0x13 1 = 0 → ∀ y ∈ t.hub.xlt.wcache, ¬ hit y.asid (y.vaHigh * 2 ^ (25 + 9 * y.level)) (2 ^ (25 + 9 * y.level)))
          ∧ t.hub.xlt.walks.length = s.hub.xlt.walks.length
          ∧ (∀ y ∈ t.hub.xlt.walks, hit y.asid (y.va - y.va % 65536) 65536 → y.stale = true)
          ∧ t.hub.xlt.faults = s.hub.xlt.faults ∧ t.hub.xlt.invals = s.hub.xlt.invals ++ [⟨some cmd, k, scope⟩]))
     ∧ (waiting = none ∨ (waiting = some i ∧ s.hub.staleIn i = true) → Sys2Proof.Machine.exec (.xltInvalidateDone asid) s = .next s)
     ∧ (waiting = some i → s.hub.staleIn i = false → i.cmd = some cmd → Sys2Proof.Machine.exec (.xltInvalidateDone asid) s =
          .next ((s.onHub (fun h => { h with xlt := { h.xlt with invals := h.xlt.invals.erase i } })).done cmd 0 0))
     ∧ (legal → ¬ valid → ¬ busy → Sys2Proof.Claims.Runs (.xltAsWrite 0 asid w) s (fun t => kept t ∧ t.hub.get (Sys2Proof.Machine.Reg.xltAsRoot n) = root
          ∧ t.hub.get (Sys2Proof.Machine.Reg.xltAsPartition n) = part ∧ t.hub.get (Sys2Proof.Machine.Reg.xltAsValid n) = word % 2 ∧ Sys2Proof.Claims.SameRegsBut asRegs s t ∧ t.hub.xlt = s.hub.xlt))
     ∧ (legal → valid ∨ busy → ¬ same → Sys2Proof.Claims.Runs (.xltAsWrite 0 asid w) s (fun t => kept t
          ∧ t.hub.get (Sys2Proof.Machine.Reg.xltAsRoot n) = s.hub.get (Sys2Proof.Machine.Reg.xltAsRoot n) ∧ t.hub.get (Sys2Proof.Machine.Reg.xltAsPartition n) = s.hub.get (Sys2Proof.Machine.Reg.xltAsPartition n)
          ∧ t.hub.get (Sys2Proof.Machine.Reg.xltAsValid n) = word % 2 ∧ t.hub.get Sys2Proof.Machine.Reg.xltEventAsRefused = 1 ∧ Sys2Proof.Claims.SameRegsBut asRegs s t))
     ∧ (legal → valid → same → word % 2 = 0 → Sys2Proof.Claims.Runs (.xltAsWrite 0 asid w) s (fun t => kept t ∧ t.hub.get (Sys2Proof.Machine.Reg.xltAsValid n) = 0
          ∧ t.hub.get (Sys2Proof.Machine.Reg.xltAsBusy n) = 1 ∧ (∀ y ∈ t.hub.xlt.tlbs, y.asid ≠ n) ∧ (∀ y ∈ t.hub.xlt.wcache, y.asid ≠ n)
          ∧ (∀ y ∈ t.hub.xlt.walks, y.asid = n → y.stale = true) ∧ Sys2Proof.Claims.SameRegsBut asRegs s t))
     ∧ (clearing = none ∨ (clearing = some i ∧ s.hub.staleIn i = true) → Sys2Proof.Machine.exec (.asInvalidateDone asid) s = .next s)
     ∧ (clearing = some i → s.hub.staleIn i = false → Sys2Proof.Claims.Runs (.asInvalidateDone asid) s (fun t => kept t ∧ t.hub.get (Sys2Proof.Machine.Reg.xltAsBusy n) = 0
          ∧ Sys2Proof.Claims.SameRegsBut [Sys2Proof.Machine.Reg.xltAsBusy n] s t ∧ t.hub.xlt.invals = s.hub.xlt.invals.erase i))
     ∧ (¬ exists' → Sys2Proof.Machine.exec (.xltGrantWrite e w) s = .next (s.wroteBy 0))
     ∧ (exists' → Sys2Proof.Claims.Runs (.xltGrantWrite e w) s (fun t => kept t
          ∧ Sys2Proof.Claims.SameRegsBut (Sys2Proof.Machine.Reg.xltEventAsRefused :: [0, 1, 2, 3].flatMap (fun k => [(Sys2Proof.Machine.grantSlot e.toNat k).1, (Sys2Proof.Machine.grantSlot e.toNat k).2])) s t
          ∧ ∀ k < 4,
              let f := Sys2Proof.Machine.grantSlot e.toNat k
              let a := Sys2Proof.Machine.bits word (16 * k) 12
              let v := Sys2Proof.Machine.bits word (16 * k + 12) 1
              let judged := v = 1 ∧ (a ≠ s.hub.get f.1 ∨ s.hub.get f.2 ≠ 1)
              (judged ∧ ¬ (owner < 24 ∧ s.hub.get (Sys2Proof.Machine.Reg.xltAsPartition a) = owner) →
                t.hub.get f.1 = s.hub.get f.1 ∧ t.hub.get f.2 = s.hub.get f.2 ∧ t.hub.get Sys2Proof.Machine.Reg.xltEventAsRefused = 1)
              ∧ (¬ judged ∨ (owner < 24 ∧ s.hub.get (Sys2Proof.Machine.Reg.xltAsPartition a) = owner) → t.hub.get f.1 = a ∧ t.hub.get f.2 = v))))

/-- R269-R272: a fault's record is written once to its partition's queue, in the order in which faults opened, where Table 10 puts each field; a
full or disabled queue leaves it pending with OVF_SEEN; CI takes what the driver reports; a held access enters a freed park slot and opens its
fault. R273, R274: XLT_RESUME closes the fault that it names, once its record is written: RETRY walks again, REFUSE ends a descriptor
TRANSLATION_FAULT; any other FAULT_ID answers FAULT_UNKNOWN. R264-R266, R252: XLT_INVALIDATE removes every TLB entry in its scope, and every
walk-cache entry unless LEAF_ONLY, and makes the walks in scope go again; it completes once none of those is open; another partition's ASID is
RIGHTS. Clearing XLT_AS.VALID invalidates the address space and sets BUSY until that is done; ROOT and PARTITION change only while VALID and BUSY
are 0. A slot of XLT_GRANT that changes and becomes valid is taken only if its ASID is of the engine's partition. -/
def Obligations.TranslationFaultsAndInvalidations : Prop :=
  Sys2Proof.Claims.FaultsAreRecordedAndAnswered ∧ Sys2Proof.Claims.InvalidationsAndAddressSpaceWrites

namespace Sys2Proof.Claims

open Sys2Proof Machine

/-- The access translates by the micro-TLB of its port, to HPA `a`. -/
def Hits (s : State) (x : XAcc) (e : TlbEntry) (a : Nat) : Prop :=
  s.hub.portHeld x = false ∧ s.hub.faultFor x = none ∧ x.va < 2 ^ 52 ∧ s.hub.tlbGet x.utlb x.asid x.va = some e
    ∧ (e.rights &&& x.acc.rights) = x.acc.rights ∧ a = e.out + x.va % 2 ^ e.log2

/-- Nothing waits at a site for credits or for writes. -/
def SiteCalm (x : Site) : Prop := x.evts = [] ∧ x.rspq = [] ∧ x.clrq = [] ∧ x.dbs = []

/-- A site was fenced (R305, R306). -/
def Fenced (t : State) (k cause : Nat) : Prop :=
  t.hub.get (Reg.siteStatusState k) = 4 ∧ t.hub.get (Reg.siteStatusCause k) = cause ∧ t.hub.get (Reg.siteStatusActive k) = 0
    ∧ t.hub.get (Reg.siteStatusRawGbs k) = 0 ∧ t.hub.get (Reg.sitePowerGrant k) = 0 ∧ t.hub.get Reg.siteEventFenced = 1

end Sys2Proof.Claims

/-- R284-R290, R252, R121: a request of an engine is refused in the order of R289 (no partition, clearing, thawing, not active; malformed;
ungranted ASID) and answered with that status; a protocol error fences the site with cause 7; a passing request, translated to floe memory,
is answered in one response with its data or its old value, and its write is done: READ delivers, WRITE stores, WRITE_PARTIAL merges enabled
bytes, ATOMIC leaves its result, MAINT and PREFETCH pass an uncached address. The engine's WRITES counts the write class. -/
def Obligations.EngineRequestsAreCheckedAndAnswered : Prop :=
  ∀ (site : BitVec 4) (mod : BitVec 3) (hdr : BitVec 128) (data : List (BitVec 512)) (s : Sys2Proof.Machine.State) (e : Sys2Proof.Machine.TlbEntry) (a : Nat),
    (let k := site.toNat
     let eng := Sys2Proof.Machine.hdrEng hdr
     let g := 8 * k + eng
     let rtag := Sys2Proof.Machine.hdrRtag hdr
     let op := Sys2Proof.Machine.hdrOp hdr
     let x := s.hub.site k
     let q := s.hub.reqOpen g rtag mod.toNat (Sys2Proof.Machine.reqFlits hdr) hdr data
     let up := s.hub.siteUp k = true ∧ s.hub.moduleUp k mod.toNat = true
     let error := s.hub.reqError g rtag (Sys2Proof.Machine.reqFlits hdr) hdr data = true
     let each (P : Nat → Sys2Proof.Instr → Prop) : Prop :=
       (data = [] → P 1 (.eepRead site mod hdr)) ∧ P 2 (.eepWrite site mod hdr data) ∧ P 3 (.eepWritePartial site mod hdr data)
         ∧ P 4 (.eepAtomic site mod hdr data) ∧ (data = [] → P 5 (.eepMaint site mod hdr)) ∧ (data = [] → P 6 (.eepPrefetch site mod hdr))
     let refused := (q.2.engCheck q.1).1
     let p := s.hub.engOwner g
     let va := Sys2Proof.Machine.reqVa hdr
     let n := Sys2Proof.Machine.reqLen hdr
     let access (k : Sys2Proof.Machine.AccKind) : Sys2Proof.Machine.XAcc := ⟨g / 64, ⟨1, g, 0⟩, p, Sys2Proof.Machine.hf hdr 28 12, va, k, .engine g rtag⟩
     let credit := Sys2Proof.Claims.SiteCalm x ∧ 0 < x.rspH ∧ 2 ≤ x.rspD
     let admitted := s.hub.get (Sys2Proof.Machine.Reg.qosPortRegEn (Sys2Proof.Machine.engPort g)) = 0 ∧ (s.hub.qosPort (Sys2Proof.Machine.engPort g)).held = []
     let passes := up ∧ ¬ error ∧ refused = 0 ∧ credit ∧ admitted ∧ s.hub.anyOut (.engine g rtag) = false
     let same := Sys2Proof.Machine.reqDfmt hdr = Sys2Proof.Machine.reqSfmt hdr
     let answered (kind st c d bad : Nat) (t : Sys2Proof.Machine.State) : Prop := t.pending = s.pending
       ∧ t.hub.sent.head? = some (.eep k kind eng rtag st c d bad) ∧ (t.hub.site k).open' = x.open' ∧ (t.hub.site k).reqH = x.reqH
       ∧ (t.hub.site k).reqD = x.reqD ∧ (t.hub.site k).rspH = x.rspH - 1
       ∧ t.hub.get (Sys2Proof.Machine.Reg.siteEngStatusWrites g) = (s.hub.get (Sys2Proof.Machine.Reg.siteEngStatusWrites g) + (if 2 ≤ op ∧ op ≤ 5 then 1 else 0)) % 2 ^ 32
     let w := if (Sys2Proof.Machine.reqDfmt hdr).testBit 4 then 8 else 4
     let d := Sys2Proof.Machine.flitNat data
     (each (fun _ i => ¬ up → Sys2Proof.Machine.exec i s = .next s))
     ∧ (each (fun o i => up → op = o → error → Sys2Proof.Machine.exec i s = .next (s.onHub (·.fence k 7))))
     ∧ (each (fun o i => up → op = o → ¬ error → refused ≠ 0 → credit → Sys2Proof.Claims.Runs i s (fun t => t.mem = s.mem
          ∧ answered (if o = 1 then 0x81 else if o = 4 then 0x83 else 0x82) refused (if o = 1 then 1 else 0) 0 0 t)))
     ∧ (24 ≤ p → s.hub.engState g = 0x30)
     ∧ (p < 24 → s.hub.get (Sys2Proof.Machine.Reg.siteEngStatusState g) = 3 → s.hub.engState g = 0x31)
     ∧ (p < 24 → s.hub.get (Sys2Proof.Machine.Reg.siteEngStatusState g) ≠ 3 → s.hub.engState g =
          (if s.hub.partState p = 4 then 0x10 else if s.hub.partState p = 2 ∨ s.hub.partState p = 3 then 0 else 0x0D))
     ∧ (q.2.engState g ≠ 0 → refused = q.2.engState g)
     ∧ (q.2.engState g = 0 → Sys2Proof.Machine.wellFormed q.1 (q.2.get (Sys2Proof.Machine.Reg.siteStatusMinor k)) = false → refused = 0x02)
     ∧ (refused = 0 → q.2.granted g (Sys2Proof.Machine.hf hdr 28 12) = true)
     ∧ (passes → op = 1 → data = [] → same → n ≤ 128 → Sys2Proof.Claims.Hits s (access .read) e a → Sys2Proof.Claims.InFloe s.hub a n → Sys2Proof.Claims.Runs (.eepRead site mod hdr) s (fun t =>
          t.mem = s.mem ∧ answered 0x81 0 (1 + 16 * (n / 32 - 1)) (s.mem.rd a n) (Sys2Proof.Machine.shiftBad va 0 n (s.mem.badBits a n)) t))
     ∧ (passes → op = 2 → same → Sys2Proof.Claims.Hits s (access .write) e a → Sys2Proof.Claims.InFloe s.hub a n → Sys2Proof.Claims.Runs (.eepWrite site mod hdr data) s (fun t =>
          t.mem = s.mem.storeBits a n (d % 2 ^ (8 * n)) 0 ∧ answered 0x82 0 0 0 0 t))
     ∧ (passes → op = 3 → Sys2Proof.Claims.Hits s (access .write) e a → Sys2Proof.Claims.InFloe s.hub a 32 → Sys2Proof.Claims.Runs (.eepWritePartial site mod hdr data) s (fun t =>
          (∀ i < 32, t.mem.byte (a + i) = (if d.testBit (256 + i) then BitVec.ofNat 8 (Sys2Proof.Machine.bits d (8 * i) 8) else s.mem.byte (a + i)))
            ∧ (∀ b, b < a ∨ a + 32 ≤ b → t.mem.byte b = s.mem.byte b) ∧ answered 0x82 0 0 0 0 t))
     ∧ (passes → op = 4 → Sys2Proof.Claims.Hits s (access .atomic) e a → Sys2Proof.Claims.InFloe s.hub a w → Sys2Proof.Claims.Runs (.eepAtomic site mod hdr data) s (fun t =>
          (s.mem.badBits a w = 0 → t.mem = s.mem.storeBits a w
              (Sys2Proof.Machine.amoVal (Sys2Proof.Machine.reqDfmt hdr % 16) (8 * w) (s.mem.rd a w) (Sys2Proof.Machine.bits d 0 (8 * w)) (Sys2Proof.Machine.bits d 64 (8 * w))) 0
              ∧ answered 0x83 0 1 (s.mem.rd a w) 0 t)
          ∧ (s.mem.badBits a w ≠ 0 → t.mem = s.mem ∧ answered 0x83 0x08 1 0 0 t)))
     ∧ (passes → op = 5 → data = [] → n = 128 → Sys2Proof.Claims.Hits s (access .write) e a → Sys2Proof.Claims.InFloe s.hub a 128 → Sys2Proof.Claims.Runs (.eepMaint site mod hdr) s (fun t =>
          t.mem = (if Sys2Proof.Machine.reqDfmt hdr % 4 = 0 then s.mem.storeBits a 128 0 0 else s.mem) ∧ answered 0x82 0 0 0 0 t))
     ∧ (passes → op = 6 → data = [] → n ≤ 128 → Sys2Proof.Claims.Hits s (access .read) e a → Sys2Proof.Claims.InFloe s.hub a n → Sys2Proof.Claims.Runs (.eepPrefetch site mod hdr) s (fun t =>
          t.mem = s.mem ∧ answered 0x82 0 0 0 0 t)))

/-- R281, R290-R294, R299, R307: an event of an engine is applied once the writes before it are visible, else it waits: RECORD writes its 16
bytes, EVENT adds 1 to a counter, DRIFT rings the partition's stream, INTERRUPT raises its MSI-X entry; one that names what the engine may
not reach sets CPL_ERR and changes no memory. CLEARED ends clearing; a fatal ERROR_REPORT makes the engine LOST; CREDIT gives credits back, and
more than were granted fence the site with cause 7. A doorbell that R294 honours is sent in order while credits last, and waits otherwise; an
engine that does not clear in time fences its site with cause 8. -/
def Obligations.EngineEventsAndDoorbellsActInOrder : Prop :=
  ∀ (site : BitVec 4) (mod : BitVec 3) (hdr : BitVec 128) (data : List (BitVec 512)) (src : Sys2Proof.DbSrc) (eng : BitVec 7) (v : BitVec 64)
    (s : Sys2Proof.Machine.State) (e : Sys2Proof.Machine.TlbEntry) (a fl c : Nat),
    (let k := site.toNat
     let g := 8 * k + Sys2Proof.Machine.hdrEng hdr
     let op := Sys2Proof.Machine.hdrOp hdr
     let x := s.hub.site k
     let up := s.hub.siteUp k = true ∧ s.hub.moduleUp k mod.toNat = true
     let kind := Sys2Proof.Machine.hf hdr 11 2
     let flits := if op = 0xE1 ∧ kind = 1 then 1 else 0
     let shaped := 0 < x.evtH ∧ flits ≤ x.evtD ∧ data.length = flits ∧ (op = 0xE1 → kind ≠ 0 ∧ (kind = 3 → 2 ≤ s.hub.get (Sys2Proof.Machine.Reg.siteStatusMinor k)))
     let w := Sys2Proof.Machine.hf hdr 32 32
     let ev : Sys2Proof.Machine.EngEvt := ⟨g, 0, hdr, data⟩
     let arrives := up ∧ shaped ∧ x.evts = []
     let ready := (s.hub.get (Sys2Proof.Machine.Reg.siteEngStatusWrites g) + 2 ^ 32 - w) % 2 ^ 32 < 2 ^ 31 ∧ x.open' = [] ∧ s.hub.evtStuck ev = false
     let p := s.hub.engOwner g
     let va := Sys2Proof.Machine.hf hdr 64 52
     let access : Sys2Proof.Machine.XAcc := ⟨g / 64, ⟨1, g, 0⟩, p, Sys2Proof.Machine.hf hdr 16 12, va, .write, .engine g 4096⟩
     let legal := p < 24 ∧ s.hub.granted g (Sys2Proof.Machine.hf hdr 16 12) = true ∧ (kind = 1 → va % 16 = 0)
     let complete := Sys2Proof.Instr.eepComplete site mod hdr data
     let done (t : Sys2Proof.Machine.State) : Prop := t.pending = s.pending ∧ (t.hub.site k).evts = [] ∧ (t.hub.site k).evtH = x.evtH
       ∧ (t.hub.site k).evtD = x.evtD ∧ Sys2Proof.Machine.Sent.eep k 0xF0 0 4 1 0 0 0 ∈ t.hub.sent
     let n := Sys2Proof.Machine.hf hdr 64 15
     let tail := Sys2Proof.Machine.hf hdr 96 32
     let y := s.hub.stream n
     let head := s.hub.get (Sys2Proof.Machine.Reg.drfStreamStatusHead n)
     let fits := (tail + 2 ^ 32 - head) % 2 ^ 32 ≤ 2 ^ y.f 0x08 1 ∧ (tail + 2 ^ 32 - y.tail) % 2 ^ 32 < 2 ^ 31
     let fn := s.hub.get (Sys2Proof.Machine.Reg.siteEngCtrlVf g)
     let irq := s.hub.get (Sys2Proof.Machine.Reg.siteEngCtrlIrqBase g) + Sys2Proof.Machine.hf hdr 16 4
     let severe := Sys2Proof.Machine.hf hdr 16 1 = 1
     let cls := Sys2Proof.Machine.hf hdr 8 3
     let units := Sys2Proof.Machine.hf hdr 16 16
     let granted := x.credits.toNat
     let at' := eng.toNat / 8
     let z := s.hub.site at'
     let state := s.hub.get (Sys2Proof.Machine.Reg.siteEngStatusState eng.toNat)
     let heard := s.hub.srcMute src = false
     let honoured := s.hub.engDbHonoured src eng.toNat = true
     let mine := z.dbs.filter (fun d => decide (d.1 = eng.toNat))
     (¬ up → Sys2Proof.Machine.exec complete s = .next s ∧ Sys2Proof.Machine.exec (.eepInterrupt site mod hdr) s = .next s ∧ Sys2Proof.Machine.exec (.eepCleared site mod hdr) s = .next s
        ∧ Sys2Proof.Machine.exec (.eepErrorReport site mod hdr) s = .next s ∧ Sys2Proof.Machine.exec (.eepCredit site mod hdr) s = .next s)
     ∧ (up → op = 0xE1 → ¬ shaped → Sys2Proof.Machine.exec complete s = .next (s.onHub (·.fence k 7)))
     ∧ (arrives → op = 0xE1 → (w + 2 ^ 32 - s.hub.get (Sys2Proof.Machine.Reg.siteEngStatusWrites g) - 1) % 2 ^ 32 < 2 ^ 31 → Sys2Proof.Claims.Runs complete s (fun t =>
          t.mem = s.mem ∧ t.pending = s.pending ∧ (t.hub.site k).evts = [ev] ∧ t.hub.regs = s.hub.regs))
     ∧ (arrives → ready → op = 0xE1 → kind = 1 → legal → Sys2Proof.Claims.Hits s access e a → Sys2Proof.Claims.InFloe s.hub a 16 → Sys2Proof.Claims.Runs complete s (fun t => done t
          ∧ t.mem = s.mem.storeBits a 16 (Sys2Proof.Machine.flitNat data % 2 ^ 128) 0))
     ∧ (arrives → ready → op = 0xE1 → kind = 2 → legal → Sys2Proof.Claims.Hits s access e a → s.hub.region a = .event fl c → Sys2Proof.Claims.Runs complete s (fun t => done t
          ∧ t.mem = s.mem.setCounter fl c ((s.mem.counter fl c + 1) % 2 ^ 32)))
     ∧ (arrives → ready → op = 0xE1 → kind ≠ 3 → kind ≠ 0 → ¬ legal → Sys2Proof.Claims.Runs complete s (fun t => done t ∧ t.mem = s.mem
          ∧ t.hub.get (Sys2Proof.Machine.Reg.siteEngStatusCplErr g) = 1 ∧ t.hub.get Sys2Proof.Machine.Reg.siteEventCplErr = 1))
     ∧ (arrives → ready → op = 0xE1 → kind = 3 → p < 24 → s.hub.streamPart n = p → s.hub.get (Sys2Proof.Machine.Reg.drfStreamStatusState n) = 2 → y.stop = none → fits →
          Sys2Proof.Claims.Runs complete s (fun t => done t ∧ t.mem = s.mem ∧ t.hub.stream n = { y with tail := tail }))
     ∧ (arrives → ready → op = 0xE1 → kind = 3 → (24 ≤ p ∨ s.hub.streamPart n ≠ p ∨ s.hub.get (Sys2Proof.Machine.Reg.drfStreamStatusState n) = 0) → Sys2Proof.Claims.Runs complete s (fun t =>
          done t ∧ t.mem = s.mem ∧ t.hub.get (Sys2Proof.Machine.Reg.siteEngStatusCplErr g) = 1 ∧ t.hub.drift = s.hub.drift))
     ∧ (arrives → ready → op = 0xE2 → data = [] → Sys2Proof.Claims.Runs (.eepInterrupt site mod hdr) s (fun t => done t ∧ t.mem = s.mem
          ∧ (Sys2Proof.Machine.msixSize fn ≤ irq → t.hub.get (Sys2Proof.Machine.Reg.siteEngStatusCplErr g) = 1)
          ∧ (irq < Sys2Proof.Machine.msixSize fn → s.hub.msixHeld fn irq = false → (fn = 0 ∨ s.hub.partState (s.hub.vfOwner fn) ≠ 4) →
              Sys2Proof.Machine.Sent.msix fn irq (s.hub.get (Sys2Proof.Machine.Reg.msixAddr fn irq)) (s.hub.get (Sys2Proof.Machine.Reg.msixData fn irq)) ∈ t.hub.sent)
          ∧ (irq < Sys2Proof.Machine.msixSize fn → s.hub.msixHeld fn irq = true → (fn = 0 ∨ s.hub.partState (s.hub.vfOwner fn) ≠ 4) →
              Sys2Proof.Machine.kmem t.hub.pba (fn * 4096 + irq) = true)))
     ∧ (up → op = 0xE4 → x.evtH = 0 → Sys2Proof.Machine.exec (.eepCleared site mod hdr) s = .next (s.onHub (·.fence k 7)))
     ∧ (up → op = 0xE4 → 0 < x.evtH → Sys2Proof.Claims.SiteCalm x → Sys2Proof.Claims.Runs (.eepCleared site mod hdr) s (fun t => t.mem = s.mem ∧ t.pending = s.pending
          ∧ t.hub.get (Sys2Proof.Machine.Reg.siteEngStatusWrites g) = 0
          ∧ t.hub.get (Sys2Proof.Machine.Reg.siteEngStatusState g) = (if s.hub.get (Sys2Proof.Machine.Reg.siteEngStatusState g) = 3 then (if p < 24 then 2 else 1)
              else s.hub.get (Sys2Proof.Machine.Reg.siteEngStatusState g))))
     ∧ (up → op = 0xE5 → x.evtH = 0 → Sys2Proof.Machine.exec (.eepErrorReport site mod hdr) s = .next (s.onHub (·.fence k 7)))
     ∧ (up → op = 0xE5 → 0 < x.evtH → ¬ severe → Sys2Proof.Machine.exec (.eepErrorReport site mod hdr) s = .next (s.onHub (fun h => (h.sendCredit k 4 1).record
          { code := 0x0609, cls := 0, part := p, inst := k, die := k / 8, d0 := 2 ^ 14 * g, d1 := Sys2Proof.Machine.hf hdr 32 16 })))
     ∧ (up → op = 0xE5 → 0 < x.evtH → severe → Sys2Proof.Claims.Runs (.eepErrorReport site mod hdr) s (fun t => t.mem = s.mem ∧ t.pending = s.pending
          ∧ t.hub.get (Sys2Proof.Machine.Reg.siteEngStatusState g) = 4 ∧ t.hub.get (Sys2Proof.Machine.Reg.siteEngCtrlPartition g) = 31 ∧ t.hub.get Sys2Proof.Machine.Reg.siteEventEngineLost = 1))
     ∧ (up → op = 0xF0 → ((cls < 2 ∧ units ≠ 0) ∨ 5 < cls ∨ (cls = 2 ∧ Sys2Proof.Machine.bits granted 0 16 < x.rspH + units) ∨ (cls = 3 ∧ Sys2Proof.Machine.bits granted 16 16 < x.rspD + units)
          ∨ (cls = 4 ∧ Sys2Proof.Machine.bits granted 32 16 < x.cvtH + units) ∨ (cls = 5 ∧ Sys2Proof.Machine.bits granted 48 16 < x.cvtD + units)) →
          Sys2Proof.Machine.exec (.eepCredit site mod hdr) s = .next (s.onHub (·.fence k 7)))
     ∧ (up → op = 0xF0 → cls = 2 → x.rspH + units ≤ Sys2Proof.Machine.bits granted 0 16 → Sys2Proof.Claims.SiteCalm x → Sys2Proof.Claims.Runs (.eepCredit site mod hdr) s (fun t => t.mem = s.mem
          ∧ t.pending = s.pending ∧ t.hub.site k = { x with rspH := x.rspH + units } ∧ t.hub.regs = s.hub.regs))
     ∧ (up → op = 0xF0 → cls = 4 → x.cvtH + units ≤ Sys2Proof.Machine.bits granted 32 16 → Sys2Proof.Claims.SiteCalm x → Sys2Proof.Claims.Runs (.eepCredit site mod hdr) s (fun t => t.mem = s.mem
          ∧ t.pending = s.pending ∧ t.hub.site k = { x with cvtH := x.cvtH + units } ∧ t.hub.regs = s.hub.regs))
     ∧ (heard → ¬ honoured → Sys2Proof.Claims.Runs (.siteEngDb src eng v) s (fun t => t.mem = s.mem ∧ t.pending = s.pending ∧ t.hub.get Sys2Proof.Machine.Reg.siteEventDbReject = 1
          ∧ Sys2Proof.Claims.SameRegsBut [Sys2Proof.Machine.Reg.siteEventDbReject] s t ∧ t.hub.sites = s.hub.sites))
     ∧ (heard → honoured → state ≠ 2 → state ≠ 3 → Sys2Proof.Machine.exec (.siteEngDb src eng v) s = .next (s.wroteSrc src))
     ∧ (heard → honoured → state = 2 ∨ state = 3 → mine.length < 16 → z.cvtH = 0 → z.rspq = [] → Sys2Proof.Claims.Runs (.siteEngDb src eng v) s (fun t => t.mem = s.mem
          ∧ t.pending = s.pending ∧ (t.hub.site at').dbs = z.dbs ++ [(eng.toNat, v.toNat)]
          ∧ t.hub.get (Sys2Proof.Machine.Reg.siteEngStatusDbWait eng.toNat) = mine.length + 1 ∧ Sys2Proof.Claims.SameRegsBut [Sys2Proof.Machine.Reg.siteEngStatusDbWait eng.toNat] s t))
     ∧ (heard → honoured → state = 2 → s.hub.dbOpen eng.toNat = true → Sys2Proof.Claims.SiteCalm z → 0 < z.cvtH → Sys2Proof.Claims.Runs (.siteEngDb src eng v) s (fun t => t.mem = s.mem
          ∧ t.pending = s.pending ∧ t.hub.sent = .eep at' 0xC1 (eng.toNat % 8) v.toNat 0 0 0 0 :: s.hub.sent
          ∧ t.hub.site at' = { z with cvtH := z.cvtH - 1 } ∧ t.hub.get (Sys2Proof.Machine.Reg.siteEngStatusDbWait eng.toNat) = 0))
     ∧ (state ≠ 3 → Sys2Proof.Machine.exec (.clearedTimeout eng) s = .next s)
     ∧ (state = 3 → s.hub.get (Sys2Proof.Machine.Reg.siteStatusState at') ≠ 0 → s.hub.get (Sys2Proof.Machine.Reg.siteStatusState at') ≠ 4 → Sys2Proof.Claims.Runs (.clearedTimeout eng) s (fun t =>
          t.mem = s.mem ∧ t.pending = s.pending ∧ Sys2Proof.Claims.Fenced t at' 8)))

/-- R296, R297, R302-R306, R308-R310, R413: Sounding goes step by step from reset of the chiplet through its descriptor, contract, attestation
and training to an ACTIVE site with its engines and credits, and what fails fences the site with its cause; a fence clears what the site was
given; RESOUND starts again where no partition holds an engine and the cause permits it. Rime counts parity errors per lane; a condemned lane
stalls its module until it is remapped, degraded to half width or retired, and the last module gone fences the site with cause 5. -/
def Obligations.SitesSoundFenceAndDegrade : Prop :=
  ∀ (site : BitVec 4) (x : Sys2Proof.SoundIn) (mod : BitVec 3) (errIn errOut : BitVec 68) (toHub : Bool) (lane : BitVec 7) (s : Sys2Proof.Machine.State) (act lk : Nat),
    (let k := site.toNat
     let y := s.hub.site k
     let st := s.hub.get (Sys2Proof.Machine.Reg.siteStatusState k)
     let sounding := st = 1
     let kept (t : Sys2Proof.Machine.State) : Prop := t.mem = s.mem ∧ t.pending = s.pending
     let moves (n : Nat) : Prop := Sys2Proof.Claims.Runs (.soundingStep site x) s (fun t => kept t ∧ (t.hub.site k).step = n ∧ t.hub.get (Sys2Proof.Machine.Reg.siteStatusState k) = 1)
     let d := y.desc.toNat
     let cause := s.hub.soundCause k
     let fences (i : Sys2Proof.Instr) (c : Nat) : Prop := Sys2Proof.Claims.Runs i s (fun t => kept t ∧ Sys2Proof.Claims.Fenced t k c)
     let required := s.hub.spdmRequired k = true
     let offered := s.hub.spdmOffered k = true
     let fit := s.hub.pdModules k
     let n := Sys2Proof.Machine.sdf d 6 1
     let m := mod.toNat
     let l := lane.toNat
     let key := Sys2Proof.Machine.laneKey m toHub l
     let carries := s.hub.siteActive k = true ∧ m < 6 ∧ s.hub.get (Sys2Proof.Machine.Reg.siteModuleState k m) < 2 ∧ s.hub.get (Sys2Proof.Machine.Reg.siteModuleStalled k m) = 0
     let errors := (Sys2Proof.Machine.ones 68 errIn.toNat).length + (Sys2Proof.Machine.ones 68 errOut.toNat).length
     let condemns := carries ∧ l < 68 ∧ Sys2Proof.Machine.kmem y.condemned key = false ∧ s.hub.get Sys2Proof.Machine.Reg.siteRimeCfgLaneTh ≤ (Sys2Proof.Machine.tget [] y.laneErr key).length
     let running := y.actions = [(m, act, lk)] ∧ m < 6 ∧ st ≠ 0
     let done (ok : Bool) := Sys2Proof.Instr.moduleActionDone site mod ok
     let others := ∃ i < 6, i ≠ m ∧ s.hub.get (Sys2Proof.Machine.Reg.siteModuleState k i) < 2
     (¬ sounding → Sys2Proof.Machine.exec (.soundingStep site x) s = .next s ∧ Sys2Proof.Machine.exec (.soundingTimeout site) s = .next s)
     ∧ (sounding → y.step = 1 → moves 2) ∧ (sounding → y.step = 2 → moves 3)
     ∧ (sounding → y.step = 3 → Sys2Proof.Machine.sdf x.desc.toNat 0 4 = 0x44434845 → moves 4
          ∧ Sys2Proof.Claims.Runs (.soundingStep site x) s (fun t => (t.hub.site k).desc = x.desc ∧ (t.hub.site k).credits = x.credits))
     ∧ (sounding → y.step = 3 → Sys2Proof.Machine.sdf x.desc.toNat 0 4 ≠ 0x44434845 → fences (.soundingStep site x) 3)
     ∧ (sounding → y.step = 4 → cause ≠ 0 → fences (.soundingStep site x) cause)
     ∧ (sounding → y.step = 4 → cause = 0 → moves 5 ∧ Sys2Proof.Claims.Runs (.soundingStep site x) s (fun t =>
          t.hub.get (Sys2Proof.Machine.Reg.siteStatusMinor k) = s.hub.soundMinor d % 2 ^ 8 ∧ (t.hub.site k).fixedMinor = s.hub.soundMinor d + 1))
     ∧ (Sys2Proof.Machine.sdf d 4 1 ≠ 1 → cause = 1)
     ∧ (Sys2Proof.Machine.sdf d 4 1 = 1 → (s.hub.soundMinor d < s.hub.pdMinMinor k ∨ n ≠ s.hub.pdEngines k ∨ Sys2Proof.Machine.chipDescOk d = false ∨ Sys2Proof.Machine.creditsOk y.credits.toNat = false)
          → cause = 2)
     ∧ (cause = 0 → s.hub.brakeMin + Sys2Proof.Machine.sdf d 0x14 2 ≤ s.hub.pdBudget)
     ∧ (sounding → y.step = 5 → x.spdmOk = true → required ∨ offered → moves 6 ∧ Sys2Proof.Claims.Runs (.soundingStep site x) s (fun t =>
          (t.hub.site k).chain = x.chainDigest ∧ (t.hub.site k).meas = x.measDigest))
     ∧ (sounding → y.step = 5 → x.spdmOk = false → required → fences (.soundingStep site x) 6)
     ∧ (sounding → y.step = 5 → x.spdmOk = false → ¬ required → moves 6) ∧ (sounding → y.step = 5 → ¬ required → ¬ offered → moves 6)
     ∧ (sounding → y.step = 6 → fit &&& x.trained.toNat = 0 → fences (.soundingStep site x) 4)
     ∧ (sounding → y.step = 6 → fit &&& x.trained.toNat ≠ 0 → moves 7 ∧ Sys2Proof.Claims.Runs (.soundingStep site x) s (fun t => ∀ i < 6,
          t.hub.get (Sys2Proof.Machine.Reg.siteModuleState k i) = (if !Sys2Proof.Machine.bitAt fit i then 3 else if Sys2Proof.Machine.bitAt x.trained.toNat i then 0 else 2)))
     ∧ (sounding → y.step = 7 → n ≤ 8 → Sys2Proof.Claims.Runs (.soundingStep site x) s (fun t => kept t ∧ t.hub.get (Sys2Proof.Machine.Reg.siteStatusState k) = s.hub.siteLive k
          ∧ t.hub.get (Sys2Proof.Machine.Reg.siteStatusEngines k) = n ∧ (∀ i < n, t.hub.get (Sys2Proof.Machine.Reg.siteEngStatusState (8 * k + i)) = 1)
          ∧ (t.hub.site k).reqH = 256 ∧ (t.hub.site k).reqD = 1024 ∧ (t.hub.site k).rspH = Sys2Proof.Machine.bits y.credits.toNat 0 16
          ∧ (t.hub.site k).cvtH = Sys2Proof.Machine.bits y.credits.toNat 32 16 ∧ t.hub.get (Sys2Proof.Machine.Reg.sitePowerGrant k) = 10 * s.hub.idleW k % 2 ^ 16))
     ∧ (sounding → y.step ≤ 4 → fences (.soundingTimeout site) 3) ∧ (sounding → y.step = 5 → required → fences (.soundingTimeout site) 6)
     ∧ (sounding → y.step = 5 → ¬ required → Sys2Proof.Claims.Runs (.soundingTimeout site) s (fun t => kept t ∧ (t.hub.site k).step = 6))
     ∧ (sounding → 6 ≤ y.step → fences (.soundingTimeout site) 4)
     ∧ (st ≠ 0 → st ≠ 4 → fences (.siteFence site) 9) ∧ (st = 0 ∨ st = 4 → Sys2Proof.Machine.exec (.siteFence site) s = .next (s.wroteBy 0))
     ∧ (st = 0 ∨ st = 1 → Sys2Proof.Machine.exec (.resound site) s = .next (s.wroteBy 0))
     ∧ (2 ≤ st → s.hub.sitePartitions k = [] → s.hub.get (Sys2Proof.Machine.Reg.siteStatusCause k) ∉ [1, 2, 11] → Sys2Proof.Claims.Runs (.resound site) s (fun t => kept t
          ∧ t.hub.get (Sys2Proof.Machine.Reg.siteStatusState k) = 1 ∧ (t.hub.site k).step = 1 ∧ (t.hub.site k).srst = true ∧ t.hub.get (Sys2Proof.Machine.Reg.siteStatusCause k) = 0
          ∧ t.hub.get (Sys2Proof.Machine.Reg.sitePowerGrant k) = 100 ∧ (t.hub.site k).fixedMinor = y.fixedMinor))
     ∧ (2 ≤ st → (s.hub.sitePartitions k ≠ [] ∨ s.hub.get (Sys2Proof.Machine.Reg.siteStatusCause k) ∈ [1, 2, 11]) → Sys2Proof.Claims.Runs (.resound site) s (fun t => kept t
          ∧ t.hub.get Sys2Proof.Machine.Reg.siteEventResoundRefused = 1 ∧ Sys2Proof.Claims.SameRegsBut [Sys2Proof.Machine.Reg.siteEventResoundRefused] s t))
     ∧ (¬ carries → Sys2Proof.Machine.exec (.rimeSweep site mod errIn errOut) s = .next s)
     ∧ (carries → Sys2Proof.Claims.Runs (.rimeSweep site mod errIn errOut) s (fun t => kept t ∧ Sys2Proof.Claims.SameRegsBut [Sys2Proof.Machine.Reg.siteModuleParity k m] s t
          ∧ t.hub.get (Sys2Proof.Machine.Reg.siteModuleParity k m) = min (s.hub.get (Sys2Proof.Machine.Reg.siteModuleParity k m) + errors) (2 ^ (Sys2Proof.Machine.Reg.siteModuleParity k m).len - 1)
          ∧ (∀ i < 68, errIn.getLsbD i = true → Sys2Proof.Machine.tget [] (t.hub.site k).laneErr (Sys2Proof.Machine.laneKey m true i) ≠ [])))
     ∧ (¬ condemns → Sys2Proof.Machine.exec (.laneCondemn site mod toHub lane) s = .next s)
     ∧ (condemns → Sys2Proof.Claims.Runs (.laneCondemn site mod toHub lane) s (fun t => kept t ∧ Sys2Proof.Machine.kmem (t.hub.site k).condemned key = true
          ∧ (s.hub.laneUsed k m toHub l = true → t.hub.get (Sys2Proof.Machine.Reg.siteModuleStalled k m) = 1 ∧ (t.hub.site k).actions.length = y.actions.length + 1)
          ∧ (s.hub.laneUsed k m toHub l = false → t.hub.regs = s.hub.regs)))
     ∧ (y.actions.find? (fun a => decide (a.1 = m)) = none → ∀ ok : Bool, Sys2Proof.Machine.exec (done ok) s = .next s)
     ∧ (running → others → Sys2Proof.Claims.Runs (done false) s (fun t => kept t ∧ t.hub.get (Sys2Proof.Machine.Reg.siteModuleStalled k m) = 0 ∧ t.hub.get (Sys2Proof.Machine.Reg.siteModuleState k m) = 2
          ∧ t.hub.get Sys2Proof.Machine.Reg.siteEventRetired = 1 ∧ t.hub.get (Sys2Proof.Machine.Reg.siteStatusState k) = 3))
     ∧ (running → ¬ others → st ≠ 4 → fences (done false) 5)
     ∧ (running → act = 1 → Sys2Proof.Claims.Runs (done true) s (fun t => kept t ∧ t.hub.get (Sys2Proof.Machine.Reg.siteModuleStalled k m) = 0 ∧ t.hub.get (Sys2Proof.Machine.Reg.siteModuleState k m) = 1
          ∧ t.hub.get Sys2Proof.Machine.Reg.siteEventDegraded = 1 ∧ t.hub.get (Sys2Proof.Machine.Reg.siteStatusState k) = 3)))

/-- R322, R323: the oldest request held at a port goes on when its bucket holds a token, or its regulator is off. R485: MOR_CLEAR from PF MMIO
empties the slots up to UPTO. R500, R501: the TAP runs whenever supply group 1 is in regulation: BYPASS shifts TDI through one bit, IDCODE
gives the identity, SAMPLE/PRELOAD captures the pins, EXTEST and CLAMP drive them while PORST_N is low, and are BYPASS otherwise. -/
def Obligations.RegulatorsReleaseAndTheTapScans : Prop :=
  ∀ (port : BitVec 10) (via : Sys2Proof.Iface) (upto : BitVec 32) (tdi pins : BitVec 64) (s : Sys2Proof.Machine.State) (n ix b : Nat) (rest : List Sys2Proof.Machine.HeldReq) (d : Sys2Proof.Machine.Desc),
    (let q := s.hub.qosPort port.toNat
     let on := s.hub.get (Sys2Proof.Machine.Reg.qosPortRegEn port.toNat) = 1
     let tokens := (s.hub.refill port.toNat).1
     let kept (t : Sys2Proof.Machine.State) : Prop := t.mem = s.mem ∧ t.pending = s.pending
     let released (t : Sys2Proof.Machine.State) : Prop := (t.hub.qosPort port.toNat).held = rest
       ∧ (t.hub.desc n ix).map (fun e => (e.paid, e.raw)) = some (true, d.raw) ∧ kept t
     let scans (i : Sys2Proof.Instr) (out : Nat) (cells : BitVec 64) (drives : Bool) : Prop :=
       Sys2Proof.Machine.exec i s = .next (s.onHub (fun h => ({ h with tap := ⟨cells, drives⟩ }).send (.scan out)))
     let bypass := 2 * tdi.toNat % 2 ^ 64
     let cells := s.hub.tap.cells
     (q.held = [] → Sys2Proof.Machine.exec (.regulatorAdmit port) s = .next s)
     ∧ (q.held = .row n ix b :: rest → s.hub.desc n ix = some d → ¬ on → Sys2Proof.Claims.Runs (.regulatorAdmit port) s released)
     ∧ (q.held = .row n ix b :: rest → s.hub.desc n ix = some d → on → 0 < tokens → Sys2Proof.Claims.Runs (.regulatorAdmit port) s (fun t => released t
          ∧ (t.hub.qosPort port.toNat).tokens = some (tokens - 512 * (b : Int))))
     ∧ (q.held = .row n ix b :: rest → on → tokens ≤ 0 → Sys2Proof.Claims.Runs (.regulatorAdmit port) s (fun t => kept t
          ∧ (t.hub.qosPort port.toNat).held = q.held ∧ t.hub.drift = s.hub.drift))
     ∧ (via.code = 1 → s.hub.bar0Up = true → Sys2Proof.Claims.Runs (.morClear via upto) s (fun t => kept t ∧ t.hub.regs = s.hub.regs
          ∧ t.hub.mor = s.hub.mor.filter (fun r => decide (2 ^ 31 ≤ (upto.toNat + 2 ^ 32 - r.2.seq) % 2 ^ 32))))
     ∧ (via.code ≠ 1 → Sys2Proof.Machine.exec (.morClear via upto) s = .next s)
     ∧ (s.hub.boot.group1 = false → Sys2Proof.Machine.exec (.bypass tdi) s = .next s ∧ Sys2Proof.Machine.exec .idcode s = .next s ∧ Sys2Proof.Machine.exec (.samplePreload pins tdi) s = .next s
          ∧ Sys2Proof.Machine.exec (.extest pins tdi) s = .next s ∧ Sys2Proof.Machine.exec (.clamp tdi) s = .next s)
     ∧ (s.hub.boot.group1 = true → scans (.bypass tdi) bypass cells false
          ∧ scans .idcode (s.hub.perma.rev / 16 % 16 * 2 ^ 28 + 0xE960 * 2 ^ 12 + 0x4F3 * 2 + 1) cells false
          ∧ scans (.samplePreload pins tdi) pins.toNat tdi false)
     ∧ (s.hub.boot.group1 = true → s.hub.boot.porst = true → scans (.extest pins tdi) pins.toNat tdi true ∧ scans (.clamp tdi) bypass cells true)
     ∧ (s.hub.boot.group1 = true → s.hub.boot.porst = false → scans (.extest pins tdi) bypass cells false ∧ scans (.clamp tdi) bypass cells false))

/-- R329, R330, R333-R337, R339, Tables 4-6 of 14: START makes a STOPPED partition ACTIVE, STOP an ACTIVE one STOPPING with its streams paused,
which becomes STOPPED once nothing of it is in flight, or ACTIVE again when STOP_MS expires. RESET and THAW end its launches ABORTED, close its
streams, reset its floes, zero its floe memory and counters and clear its engines; Thaw also takes new keys, drops dirty lines and leaves every
granule unfilled, and ends in STOPPED, or NONE where the partition is being deleted. During a commit they wait; in any other state they are
refused, which PRT_EVENT.REFUSED shows for PF MMIO. Partition reset is stated where nothing waits in Firn. -/
def Obligations.PartitionsStartStopResetAndThaw : Prop :=
  ∀ (via : Sys2Proof.Iface) (part : BitVec 5) (s : Sys2Proof.Machine.State) (k : Nat) (l : Sys2Proof.Machine.Launch),
    (let p := part.toNat
     let st := s.hub.partState p
     let pf := via.code = 1
     let kept (t : Sys2Proof.Machine.State) : Prop := t.mem = s.mem ∧ t.pending = s.pending
     let is (n : Nat) (t : Sys2Proof.Machine.State) : Prop := t.hub.get (Sys2Proof.Machine.Reg.prtStatusState p) = n
     let streams := s.hub.partStreams p
     let resting (n : Nat) : Prop := (s.hub.stream n).inflight = [] ∧ (s.hub.stream n).stop = none
     let mayReset := st = 1 ∨ st = 2 ∨ st = 3 ∨ st = 6
     let free := s.hub.get Sys2Proof.Machine.Reg.cfgStatusPhase < 2
     let refusals (P : Sys2Proof.Instr → Prop → Prop) : Prop := P (.start via part) (st ≠ 1) ∧ P (.stop via part) (st ≠ 2)
       ∧ P (.partitionReset via part) (¬ mayReset) ∧ P (.thaw via part) (¬ (mayReset ∨ st = 5))
     let calm := s.mem.lines = [] ∧ s.mem.misses = [] ∧ s.mem.evicts = [] ∧ s.mem.waiting = []
     let scrubbed (t : Sys2Proof.Machine.State) : Prop := t.pending = s.pending
       ∧ (∀ f ∈ s.hub.floesOf p, (∀ i < 0x100000, t.mem.byte (Sys2Proof.Machine.floeHpa f + i) = 0) ∧ (∀ c < 64, t.mem.counter f c = 0)
            ∧ Sys2Proof.Claims.FloesReset [f] t)
       ∧ (∀ n ∈ streams, t.hub.get (Sys2Proof.Machine.Reg.drfStreamStatusState n) = 0)
       ∧ (∀ e ∈ s.hub.enginesOf p, s.hub.get (Sys2Proof.Machine.Reg.siteEngStatusState e) = 2 → t.hub.get (Sys2Proof.Machine.Reg.siteEngStatusState e) = 3)
       ∧ (Sys2Proof.Machine.tlook s.hub.sea.launches k = some l → l.part = p → l.status = none → Sys2Proof.Claims.Fixed k 0x07 t)
       ∧ (∀ f ∈ t.hub.xlt.faults, f.part ≠ p)
     let cleared := s.hub.allClear p = true
     let deleting := (Sys2Proof.Machine.tget Sys2Proof.Machine.PartSt.rst s.hub.parts p).deleting = true
     p < 24 →
     refusals (fun i wrong => wrong → (pf → Sys2Proof.Claims.Runs i s (fun t => kept t ∧ t.hub.get Sys2Proof.Machine.Reg.prtEventRefused = 1 ∧ is st t))
          ∧ (¬ pf → Sys2Proof.Claims.Runs i s (fun t => kept t ∧ t.hub.regs = s.hub.regs)))
     ∧ (st = 1 → Sys2Proof.Claims.Runs (.start via part) s (fun t => kept t ∧ is 2 t ∧ t.hub.get (Sys2Proof.Machine.Reg.prtCtrlStart p) = 0
          ∧ ∀ n ∈ streams, resting n → (s.hub.stream n).paused = true → s.hub.get (Sys2Proof.Machine.Reg.drfStreamStatusState n) = 4 →
              t.hub.get (Sys2Proof.Machine.Reg.drfStreamStatusState n) = (if (s.hub.stream n).held = [] ∧ s.hub.get (Sys2Proof.Machine.Reg.drfStreamStatusHead n) = (s.hub.stream n).tail
                then 1 else 2)))
     ∧ (st = 2 → Sys2Proof.Claims.Runs (.stop via part) s (fun t => kept t ∧ is 3 t ∧ t.hub.get (Sys2Proof.Machine.Reg.prtCtrlStop p) = 1
          ∧ ∀ n ∈ streams, resting n → s.hub.get (Sys2Proof.Machine.Reg.drfStreamStatusState n) = 1 ∨ s.hub.get (Sys2Proof.Machine.Reg.drfStreamStatusState n) = 2 →
              t.hub.get (Sys2Proof.Machine.Reg.drfStreamStatusState n) = 4))
     ∧ (st ≠ 3 ∨ s.hub.drained p = false → Sys2Proof.Machine.exec (.stopComplete part) s = .next s)
     ∧ (st = 3 → s.hub.drained p = true → Sys2Proof.Claims.Runs (.stopComplete part) s (fun t => kept t ∧ is 1 t
          ∧ Sys2Proof.Claims.SameRegsBut [Sys2Proof.Machine.Reg.prtStatusState p, Sys2Proof.Machine.Reg.prtCtrlStop p] s t ∧ t.hub.get (Sys2Proof.Machine.Reg.prtCtrlStop p) = 0))
     ∧ (s.hub.drained p = true → (∀ n ∈ streams, (s.hub.stream n).inflight = []) ∧ ∀ x ∈ s.hub.sea.launches, x.2.part ≠ p)
     ∧ (st ≠ 3 → Sys2Proof.Machine.exec (.stopTimeout part) s = .next s)
     ∧ (st = 3 → Sys2Proof.Claims.Runs (.stopTimeout part) s (fun t => kept t ∧ is 2 t ∧ t.hub.get (Sys2Proof.Machine.Reg.prtCtrlStop p) = 0 ∧ t.hub.get Sys2Proof.Machine.Reg.prtEventStopTimeout = 1))
     ∧ (mayReset → ¬ free → Sys2Proof.Claims.Runs (.partitionReset via part) s (fun t => kept t ∧ is st t ∧ t.hub.get (Sys2Proof.Machine.Reg.prtCtrlReset p) = 1
          ∧ Sys2Proof.Claims.SameRegsBut [Sys2Proof.Machine.Reg.prtCtrlReset p] s t))
     ∧ (mayReset → free → calm → Sys2Proof.Claims.Runs (.partitionReset via part) s (fun t => scrubbed t ∧ is 5 t ∧ t.hub.get (Sys2Proof.Machine.Reg.prtCtrlReset p) = 1
          ∧ t.hub.ras.keyGens = s.hub.ras.keyGens))
     ∧ (mayReset ∨ st = 5 → ¬ free → Sys2Proof.Claims.Runs (.thaw via part) s (fun t => kept t ∧ is st t ∧ t.hub.get (Sys2Proof.Machine.Reg.prtCtrlThaw p) = 1
          ∧ Sys2Proof.Claims.SameRegsBut [Sys2Proof.Machine.Reg.prtCtrlThaw p] s t))
     ∧ (mayReset ∨ st = 5 → free → Sys2Proof.Claims.Runs (.thaw via part) s (fun t => scrubbed t ∧ is 4 t ∧ t.hub.get (Sys2Proof.Machine.Reg.prtCtrlThaw p) = 1
          ∧ t.hub.get (Sys2Proof.Machine.Reg.prtStatusKeyGen p) = (s.hub.get (Sys2Proof.Machine.Reg.prtStatusKeyGen p) + 1) % 2 ^ 16
          ∧ (∀ k ∈ s.hub.halvesOf p, s.hub.keyGen k < t.hub.keyGen k ∧ (∀ g < 2 ^ 19, t.mem.unfilled k g = true)
              ∧ ∀ i < 2 ^ 35, t.mem.byte (Sys2Proof.Machine.halfBase k + i) = 0)
          ∧ (∀ sl ∈ s.hub.slicesOf p, (∀ x ∈ t.mem.lines, x.2.slice ≠ sl) ∧ ∀ i < 0x400000, t.mem.byte (Sys2Proof.Machine.scratchBase sl + i) = 0)))
     ∧ (st ≠ 5 ∨ ¬ cleared → Sys2Proof.Machine.exec (.partitionResetComplete part) s = .next s)
     ∧ (st = 5 → cleared → Sys2Proof.Claims.Runs (.partitionResetComplete part) s (fun t => kept t ∧ is 1 t ∧ t.hub.get (Sys2Proof.Machine.Reg.prtCtrlReset p) = 0
          ∧ ∀ v ∈ s.hub.vfsOf p, ∀ q < 64, t.hub.get (Sys2Proof.Machine.Reg.qStatusState v q) = 0))
     ∧ (st ≠ 4 ∨ ¬ cleared → Sys2Proof.Machine.exec (.thawComplete part) s = .next s)
     ∧ (st = 4 → cleared → Sys2Proof.Claims.Runs (.thawComplete part) s (fun t => kept t ∧ is (if deleting then 0 else 1) t ∧ t.hub.get (Sys2Proof.Machine.Reg.prtCtrlThaw p) = 0
          ∧ t.hub.get Sys2Proof.Machine.Reg.prtEventThawed = 1 ∧ (∀ v ∈ s.hub.vfsOf p, ∀ q < 64, t.hub.get (Sys2Proof.Machine.Reg.qStatusState v q) = 0))))

/-- R354-R360, R197: a queue fetches its commands in order while it runs and nothing of it is held; a fetch that fails stops it in STATE 3 with
QUEUE_ERR, and an unknown opcode completes INVALID_OPCODE. A completion posts its 16-byte record, or holds it while the ring is full. Tails and
heads out of range set DB_ERR. ENABLE starts an idle queue; ENABLE 0 drains a running one. DIAG_ACCESS moves the raw cells of a DIAG stack. -/
def Obligations.QueuesFetchCompleteAndStop : Prop :=
  ∀ (fn q : BitVec 6) (status : BitVec 8) (raw : BitVec 512) (v w : BitVec 32) (cmd : Sys2Proof.QCmd) (host : List (BitVec 8)) (s : Sys2Proof.Machine.State) (st res : Nat),
    (let f := fn.toNat
     let k := q.toNat
     let x := s.hub.qp f k
     let state := s.hub.get (Sys2Proof.Machine.Reg.qStatusState f k)
     let head := s.hub.get (Sys2Proof.Machine.Reg.qStatusSqHead f k)
     let lg := s.hub.get (Sys2Proof.Machine.Reg.qCtrlSqLog2 f k)
     let may := s.hub.mayFetch f k raw.toNat = true
     let n := (head + 1) % 2 ^ 32
     let c : Sys2Proof.QCmd := ⟨f, k, n, raw⟩
     let taken (h : Sys2Proof.Machine.Hub) : Sys2Proof.Machine.Hub := (h.set (Sys2Proof.Machine.Reg.qStatusSqHead f k) n).setQp f k { x with openCmds := x.openCmds ++ [c] }
     let kept (t : Sys2Proof.Machine.State) : Prop := t.mem = s.mem ∧ t.pending = s.pending
     let heard := s.hub.vfMute f = false
     let y := s.hub.qp cmd.fn cmd.q
     let clog := s.hub.get (Sys2Proof.Machine.Reg.qCtrlCqLog2 cmd.fn cmd.q)
     let full := 2 ^ clog ≤ (y.c + 2 ^ 32 - y.cqHead) % 2 ^ 32
     let posting := cmd.q < 64 ∧ s.hub.get (Sys2Proof.Machine.Reg.qStatusState cmd.fn cmd.q) = 1 ∧ y.held = [] ∧ s.hub.quiet cmd.fn = false
     let slot := s.hub.get (Sys2Proof.Machine.Reg.qCqBaseAddr cmd.fn cmd.q) * 4096 + 16 * (y.c % 2 ^ clog)
     let record := res % 2 ^ 64 + 2 ^ 64 * (cmd.sqHead % 2 ^ 16) + 2 ^ 80 * cmd.q + 2 ^ 88 * (st % 2 ^ 8) + 2 ^ 96 * Sys2Proof.Machine.qf cmd 2 2
       + 2 ^ 112 * (if (y.c / 2 ^ clog) % 2 = 0 then 1 else 0)
     let done := s.done cmd st res
     let bad := 2 ^ lg < (v.toNat + 2 ^ 32 - head) % 2 ^ 32 ∨ 2 ^ 31 ≤ (v.toNat + 2 ^ 32 - x.tail) % 2 ^ 32
     let word := w.toNat
     let vector := Sys2Proof.Machine.bits word 16 11
     let size (a : Nat) (old : Nat) : Nat := if 6 ≤ a ∧ a ≤ 16 then a else old
     let diag := s.hub.diagCheck cmd
     let a := Sys2Proof.Machine.qf cmd 0x10 8
     let len := Sys2Proof.Machine.qf cmd 0x20 4
     (state ≠ 1 ∨ head = x.tail ∨ x.held ≠ [] ∨ s.hub.quiet f = true ∨ s.hub.fetching f k = true → ¬ may)
     ∧ (¬ may → Sys2Proof.Machine.exec (.commandFetch fn q status raw) s = .next s)
     ∧ (may → status = 0 → Sys2Proof.Machine.bits raw.toNat 0 8 ∈ Sys2Proof.Machine.opcodes → Sys2Proof.Machine.exec (.commandFetch fn q status raw) s = .next (s.onHub taken))
     ∧ (may → status = 0 → Sys2Proof.Machine.bits raw.toNat 0 8 ∉ Sys2Proof.Machine.opcodes → Sys2Proof.Machine.exec (.commandFetch fn q status raw) s = .next ((s.onHub taken).done c 0x01 0))
     ∧ (may → status = 0x06 ∨ status = 0x07 ∨ status = 0x08 → Sys2Proof.Claims.Runs (.commandFetch fn q status raw) s (fun t => kept t
          ∧ t.hub.get (Sys2Proof.Machine.Reg.qStatusState f k) = 3 ∧ t.hub.get (Sys2Proof.Machine.Reg.qStatusErr f k) = status.toNat ∧ t.hub.get Sys2Proof.Machine.Reg.hstEventQueueErr = 1
          ∧ t.hub.get (Sys2Proof.Machine.Reg.qStatusSqHead f k) = head))
     ∧ (may → status ∉ [0, 0x06, 0x07, 0x08] → ∀ tag ∈ s.hub.freeTag, Sys2Proof.Claims.Runs (.commandFetch fn q status raw) s (fun t => kept t ∧ t.hub.regs = s.hub.regs
          ∧ t.hub.sent = .hostRead f tag (s.hub.get (Sys2Proof.Machine.Reg.qSqBaseAddr f k) * 4096 + 64 * (head % 2 ^ lg)) 64 :: s.hub.sent
          ∧ t.hub.fetching f k = true))
     ∧ (posting → ¬ full → Sys2Proof.Machine.Sent.hostWrite cmd.fn slot 16 record ∈ done.hub.sent ∧ (done.hub.qp cmd.fn cmd.q).c = (y.c + 1) % 2 ^ 32
          ∧ (done.hub.qp cmd.fn cmd.q).openCmds = y.openCmds.erase cmd ∧ (done.hub.qp cmd.fn cmd.q).held = [] ∧ done.mem = s.mem)
     ∧ (posting → full → done.hub.sent = s.hub.sent ∧ (done.hub.qp cmd.fn cmd.q).c = y.c ∧ done.hub.get (Sys2Proof.Machine.Reg.qStatusHeld cmd.fn cmd.q) = 1
          ∧ (done.hub.qp cmd.fn cmd.q).held.map (fun r => (r.status, r.result)) = [(st, res)])
     ∧ (Sys2Proof.Machine.exec (.cmdNop cmd) s = .next (s.done cmd (if s.hub.cmdCheck cmd false ≠ 0 then s.hub.cmdCheck cmd false
          else if Sys2Proof.Machine.qf cmd 0x10 0x30 = 0 then 0 else 0x02) 0))
     ∧ (heard → state = 1 → bad → Sys2Proof.Claims.Runs (.sqTail fn q v) s (fun t => kept t ∧ t.hub.get (Sys2Proof.Machine.Reg.qStatusDbErr f k) = 1 ∧ t.hub.qp f k = x
          ∧ Sys2Proof.Claims.SameRegsBut [Sys2Proof.Machine.Reg.qStatusDbErr f k] s t))
     ∧ (heard → state = 1 → ¬ bad → Sys2Proof.Claims.Runs (.sqTail fn q v) s (fun t => kept t ∧ t.hub.qp f k = { x with tail := v.toNat } ∧ t.hub.regs = s.hub.regs))
     ∧ (¬ heard ∨ state ≠ 1 → Sys2Proof.Machine.exec (.sqTail fn q v) s = .next (s.wroteBy f))
     ∧ (heard → state = 1 → x.held = [] → Sys2Proof.Claims.Runs (.cqHead fn q v) s (fun t => kept t ∧ t.hub.qp f k = { x with cqHead := v.toNat }
          ∧ Sys2Proof.Claims.SameRegsBut [Sys2Proof.Machine.Reg.qStatusHeld f k] s t ∧ t.hub.sent = s.hub.sent))
     ∧ (¬ heard ∨ state = 0 → Sys2Proof.Machine.exec (.cqHead fn q v) s = .next (s.wroteBy f))
     ∧ (heard → state = 0 → word % 2 = 1 → Sys2Proof.Claims.Runs (.queueEnable fn q w) s (fun t => kept t ∧ t.hub.get (Sys2Proof.Machine.Reg.qStatusState f k) = 1
          ∧ t.hub.get (Sys2Proof.Machine.Reg.qCtrlEnable f k) = 1 ∧ t.hub.get (Sys2Proof.Machine.Reg.qStatusSqHead f k) = 0 ∧ t.hub.qp f k = Sys2Proof.Machine.QPair.rst
          ∧ t.hub.get (Sys2Proof.Machine.Reg.qCtrlSqLog2 f k) = size (Sys2Proof.Machine.bits word 1 5) lg
          ∧ t.hub.get (Sys2Proof.Machine.Reg.qCtrlCqLog2 f k) = size (Sys2Proof.Machine.bits word 6 5) (s.hub.get (Sys2Proof.Machine.Reg.qCtrlCqLog2 f k))
          ∧ t.hub.get (Sys2Proof.Machine.Reg.qCtrlIrqEn f k) = Sys2Proof.Machine.bits word 11 1
          ∧ t.hub.get (Sys2Proof.Machine.Reg.qCtrlVector f k) = (if f ≠ 0 ∧ 255 < vector then s.hub.get (Sys2Proof.Machine.Reg.qCtrlVector f k) else vector)))
     ∧ (heard → state ≠ 0 → Sys2Proof.Claims.Runs (.queueEnable fn q w) s (fun t => kept t ∧ Sys2Proof.Claims.SameRegsBut [Sys2Proof.Machine.Reg.qCtrlIrqEn f k, Sys2Proof.Machine.Reg.qCtrlVector f k] s t
          ∧ t.hub.qp f k = x))
     ∧ (¬ heard → Sys2Proof.Machine.exec (.queueEnable fn q w) s = .next (s.wroteBy f) ∧ Sys2Proof.Machine.exec (.queueDisable fn q w) s = .next (s.wroteBy f))
     ∧ (heard → state = 1 ∨ state = 3 → Sys2Proof.Claims.Runs (.queueDisable fn q w) s (fun t => kept t ∧ t.hub.get (Sys2Proof.Machine.Reg.qCtrlEnable f k) = 0
          ∧ t.hub.get (Sys2Proof.Machine.Reg.qStatusState f k) = (if x.openCmds = [] ∧ x.held = [] then 0 else 2) ∧ t.hub.qp f k = x))
     ∧ (diag ≠ 0 → Sys2Proof.Machine.exec (.diagAccess cmd host) s = .next (s.done cmd diag 0))
     ∧ (cmd.fn ≠ 0 → diag = 0x04) ∧ (cmd.fn = 0 → s.hub.cmdCheck cmd false = 0 → (a % 32 ≠ 0 ∨ len % 32 ≠ 0 ∨ 2 ^ 20 < len) → diag = 0x02)
     ∧ (diag = 0 → s.hub.quiet 0 = false → Sys2Proof.Machine.qf cmd 0x24 1 = 0 → Sys2Proof.Machine.exec (.diagAccess cmd host) s =
          .next ((s.onHub (·.send (.hostWrite 0 (Sys2Proof.Machine.qf cmd 0x18 8) len (s.mem.cellsRd a len)))).done cmd 0 len))
     ∧ (diag = 0 → s.hub.quiet 0 = false → Sys2Proof.Machine.qf cmd 0x24 1 = 1 → host.length = len → Sys2Proof.Machine.exec (.diagAccess cmd host) s =
          .next (({ s with mem := s.mem.cellsWr a host } : Sys2Proof.Machine.State).done cmd 0 len)))

/-- R343, R348-R351, R353, R361-R367, R54: a BAR2 access goes through its window to floe memory or a counter, or is refused with its cause, the
first refusal kept in HST_ATT_ERR. A completion reaches the request that holds its tag, unless the function was reset since; one that never
comes times out. Bus Master Enable and D3hot hold back what a function sends. A Function Level Reset ends the function's launches, streams and
engines, and completes once its engines have cleared; VF Enable cleared does so to every VF. -/
def Obligations.HostAccessesCompletionsAndFunctionResets : Prop :=
  ∀ (off : BitVec 40) (len : BitVec 13) (data : List (BitVec 8)) (fn : BitVec 6) (tag : BitVec 14) (status : BitVec 8) (entry : BitVec 11)
    (v : BitVec 16) (s : Sys2Proof.Machine.State) (e : Sys2Proof.Machine.TagEntry) (n ix : Nat) (d : Sys2Proof.Machine.Desc) (fl c k : Nat) (l : Sys2Proof.Machine.Launch),
    (let o := off.toNat
     let win := o / 2 ^ 26
     let a := s.hub.get (Sys2Proof.Machine.Reg.hstAttHpa win) * 2 ^ 26 + o % 2 ^ 26
     let mse := s.hub.get (Sys2Proof.Machine.Pci.mse 0) = 1
     let passes := s.hub.get (Sys2Proof.Machine.Reg.qosPortRegEn Sys2Proof.Machine.hostPort) = 0 ∧ (s.hub.qosPort Sys2Proof.Machine.hostPort).held = []
     let kept (t : Sys2Proof.Machine.State) : Prop := t.mem = s.mem ∧ t.pending = s.pending
     let rc := s.hub.bar2Cause o false
     let wc := s.hub.bar2Cause o true
     let first := s.hub.get Sys2Proof.Machine.Reg.hstAttErrCause = 0
     let refused (cause : Nat) (t : Sys2Proof.Machine.State) : Prop := kept t ∧ t.hub.get Sys2Proof.Machine.Reg.hstEventAttErr = 1
       ∧ (first → t.hub.get Sys2Proof.Machine.Reg.hstAttErrCause = cause ∧ t.hub.get Sys2Proof.Machine.Reg.hstAttErrOffset = o)
       ∧ (¬ first → t.hub.get Sys2Proof.Machine.Reg.hstAttErrCause = s.hub.get Sys2Proof.Machine.Reg.hstAttErrCause ∧ t.hub.get Sys2Proof.Machine.Reg.hstAttErrOffset = s.hub.get Sys2Proof.Machine.Reg.hstAttErrOffset)
     let byTag := s.hub.tags.find? (fun t => decide (t.tag = tag.toNat))
     let left (t : Sys2Proof.Machine.State) : Prop := kept t ∧ t.hub.tags = s.hub.tags.filter (fun x => !decide (x.tag = e.tag))
     let fresh := e.epoch = Sys2Proof.Machine.tget 0 s.hub.epochs e.fn
     let f := fn.toNat
     let row := s.hub.desc n ix = some d ∧ d.ended = none
     let muted := s.hub.vfMute f = true ∨ Sys2Proof.Machine.msixSize f ≤ entry.toNat ∨ s.hub.get (Sys2Proof.Machine.Reg.msixMask f entry.toNat) = 0
     let quiesced (g : Nat) (t : Sys2Proof.Machine.State) : Prop := t.pending = s.pending ∧ t.mem = s.mem ∧ t.hub.get (Sys2Proof.Machine.Pci.flr g) = 1
       ∧ Sys2Proof.Machine.tget 0 t.hub.epochs g = Sys2Proof.Machine.tget 0 s.hub.epochs g + 1
       ∧ (Sys2Proof.Machine.tlook s.hub.sea.launches k = some l → l.cmd.fn = g → l.status = none → Sys2Proof.Claims.Fixed k 0x07 t)
       ∧ (∀ m ∈ s.hub.drift.streams, m.2.fn = g → t.hub.get (Sys2Proof.Machine.Reg.drfStreamStatusState m.1) = 0)
     let reset (g : Nat) (t : Sys2Proof.Machine.State) : Prop := t.hub.get (Sys2Proof.Machine.Pci.flr g) = 0 ∧ t.hub.get (Sys2Proof.Machine.Pci.bme g) = 0 ∧ t.hub.get (Sys2Proof.Machine.Pci.msixEn g) = 0
       ∧ (∀ q < 64, t.hub.get (Sys2Proof.Machine.Reg.qStatusState g q) = 0) ∧ kept t
     let vfs := (List.range 49).filter (fun v => s.hub.vfOn v)
     let total := s.hub.totalVfs
     let enabled := s.hub.get Sys2Proof.Machine.Pci.vfEnable = 1
     let cleared := s.hub.get (Sys2Proof.Machine.Pci.flr 0) = 1 ∧ ∀ v < 49, s.hub.fnClear v = true
     (¬ mse → Sys2Proof.Claims.Runs (.bar2Read off len) s (fun t => kept t ∧ t.hub.sent.head? = some (.bar2Cpl 1 0 0 false))
        ∧ Sys2Proof.Claims.Runs (.bar2Write off data false) s kept)
     ∧ (mse → rc ≠ 0 → Sys2Proof.Claims.Runs (.bar2Read off len) s (fun t => refused rc t
          ∧ t.hub.sent.head? = some (.bar2Cpl (if rc < 4 then 1 else 4) 0 0 false)))
     ∧ (mse → wc ≠ 0 → Sys2Proof.Claims.Runs (.bar2Write off data false) s (refused wc))
     ∧ (s.hub.get (Sys2Proof.Machine.Reg.hstAttV win) = 0 → rc = 1 ∧ wc = 1)
     ∧ (rc = 0 → wc ≠ 0 → s.hub.get (Sys2Proof.Machine.Reg.hstAttWe win) = 0 ∧ wc = 2)
     ∧ (rc = 0 → s.hub.region a = .stack → s.hub.halfOwner (Sys2Proof.Machine.halfOf a) = s.hub.get (Sys2Proof.Machine.Reg.hstAttKeyPartition win))
     ∧ (mse → rc = 0 → passes → Sys2Proof.Claims.InFloe s.hub a len.toNat → Sys2Proof.Claims.Runs (.bar2Read off len) s (fun t => kept t
          ∧ t.hub.sent.head? = some (.bar2Cpl 0 len.toNat (s.mem.rd a len.toNat) (decide (s.mem.badBits a len.toNat ≠ 0)))))
     ∧ (mse → wc = 0 → passes → Sys2Proof.Claims.InFloe s.hub a data.length → data.length = 32 → a % 32 = 0 → ∀ poison : Bool, Sys2Proof.Claims.Runs (.bar2Write off data poison) s (fun t =>
          t.pending = s.pending ∧ t.mem = s.mem.storeBits a 32 (Sys2Proof.Machine.leNat data) (if poison then 1 else 0)
            ∧ (poison = true → t.hub.get Sys2Proof.Machine.Reg.hstEventPoisonRx = 1)))
     ∧ (mse → wc = 0 → passes → s.hub.region a = .event fl c → data.length = 4 → a % 4 = 0 → Sys2Proof.Claims.Runs (.bar2Write off data false) s (fun t =>
          t.pending = s.pending ∧ t.mem = s.mem.setCounter fl c ((s.mem.counter fl c + Sys2Proof.Machine.leNat data) % 2 ^ 32)))
     ∧ (byTag = none → Sys2Proof.Claims.Runs (.hostCompletion fn tag status data) s (fun t => kept t ∧ (t.hub.get (Sys2Proof.Machine.Pci.aerUnc f)).testBit 16 = true)
          ∧ Sys2Proof.Machine.exec (.completionTimeout tag) s = .next s)
     ∧ (byTag = some e → ¬ fresh → status ≠ 0x08 → Sys2Proof.Claims.Runs (.hostCompletion fn tag status data) s (fun t => left t ∧ t.hub.regs = s.hub.regs
          ∧ ∀ m, t.hub.stream m = s.hub.stream m) ∧ Sys2Proof.Claims.Runs (.completionTimeout tag) s (fun t => left t ∧ t.hub.regs = s.hub.regs))
     ∧ (byTag = some e → fresh → e.who = .stream n ix → row → status = 0 → Sys2Proof.Claims.Runs (.hostCompletion fn tag status data) s (fun t => left t
          ∧ (t.hub.desc n ix).map (fun d => (d.got, d.ended)) = some (d.got ++ [(e.key, Sys2Proof.Machine.leNat data, false)], none)))
     ∧ (byTag = some e → fresh → e.who = .stream n ix → row → status ≠ 0 → status ≠ 0x08 → Sys2Proof.Claims.Runs (.hostCompletion fn tag status data) s (fun t => left t
          ∧ (t.hub.desc n ix).map (·.ended) = some (some (0x07, e.key % 2 ^ 64))))
     ∧ (byTag = some e → fresh → e.who = .stream n ix → row → Sys2Proof.Claims.Runs (.completionTimeout tag) s (fun t => left t
          ∧ (t.hub.desc n ix).map (·.ended) = some (some (0x06, e.key % 2 ^ 64)) ∧ t.hub.get Sys2Proof.Machine.Reg.hstEventCto = 1
          ∧ t.hub.get Sys2Proof.Machine.Reg.hstCtoCountCount = min (s.hub.get Sys2Proof.Machine.Reg.hstCtoCountCount + 1) (2 ^ Sys2Proof.Machine.Reg.hstCtoCountCount.len - 1)
          ∧ (t.hub.get (Sys2Proof.Machine.Pci.aerUnc e.fn)).testBit 14 = true))
     ∧ (Sys2Proof.Machine.exec (.busMasterEnableClear fn) s = .next (s.onHub (·.set (Sys2Proof.Machine.Pci.bme f) 0)))
     ∧ (s.hub.pba = [] → (∀ q < 64, (s.hub.qp f q).held = []) → Sys2Proof.Claims.Runs (.busMasterEnableSet fn) s (fun t => kept t ∧ t.hub.get (Sys2Proof.Machine.Pci.bme f) = 1
          ∧ t.hub.sent = s.hub.sent) ∧ Sys2Proof.Claims.Runs (.powerStateChange fn false) s (fun t => kept t ∧ t.hub.get (Sys2Proof.Machine.Pci.d3 f) = 0 ∧ t.hub.sent = s.hub.sent))
     ∧ (Sys2Proof.Machine.exec (.powerStateChange fn true) s = .next (s.onHub (·.set (Sys2Proof.Machine.Pci.d3 f) 1)))
     ∧ (muted → Sys2Proof.Machine.exec (.msixUnmask fn entry) s = .next (s.wroteBy f))
     ∧ (¬ muted → (f = 0 ∨ s.hub.get (Sys2Proof.Machine.Reg.secTdispState f) = 0) → Sys2Proof.Claims.Runs (.msixUnmask fn entry) s (fun t => kept t
          ∧ t.hub.get (Sys2Proof.Machine.Reg.msixMask f entry.toNat) = 0 ∧ Sys2Proof.Claims.SameRegsBut [Sys2Proof.Machine.Reg.msixMask f entry.toNat] s t
          ∧ (Sys2Proof.Machine.kmem s.hub.pba (f * 4096 + entry.toNat) = true → s.hub.quiet f = false → s.hub.get (Sys2Proof.Machine.Pci.msixFmask f) = 0 → s.hub.get (Sys2Proof.Machine.Pci.msixEn f) = 1 →
              s.hub.partState (s.hub.vfOwner f) ≠ 4 →
              t.hub.sent = .msix f entry.toNat (s.hub.get (Sys2Proof.Machine.Reg.msixAddr f entry.toNat)) (s.hub.get (Sys2Proof.Machine.Reg.msixData f entry.toNat)) :: s.hub.sent)))
     ∧ (s.hub.vfOn f = true → s.hub.get (Sys2Proof.Machine.Pci.flr f) = 0 → Sys2Proof.Claims.Runs (.vfFlr fn) s (fun t => quiesced f t ∧ t.hub.get (Sys2Proof.Machine.Reg.secTdispState f) = 0))
     ∧ (s.hub.vfOn f = false ∨ s.hub.get (Sys2Proof.Machine.Pci.flr f) = 1 → Sys2Proof.Machine.exec (.vfFlr fn) s = .next s)
     ∧ (f ≠ 0 → s.hub.get (Sys2Proof.Machine.Pci.flr f) = 1 → s.hub.fnClear f = true → Sys2Proof.Claims.Runs (.vfFlrComplete fn) s (reset f))
     ∧ (f = 0 ∨ s.hub.get (Sys2Proof.Machine.Pci.flr f) = 0 ∨ s.hub.fnClear f = false → Sys2Proof.Machine.exec (.vfFlrComplete fn) s = .next s)
     ∧ (¬ enabled → Sys2Proof.Machine.exec .vfEnableClear s = .next s)
     ∧ (enabled → Sys2Proof.Claims.Runs .vfEnableClear s (fun t => t.mem = s.mem ∧ t.pending = s.pending ∧ t.hub.get Sys2Proof.Machine.Pci.vfEnable = 0 ∧ t.hub.get Sys2Proof.Machine.Reg.cfgModeSriov = 0
          ∧ ∀ v ∈ vfs, s.hub.vfOwner v < 24 → t.hub.get (Sys2Proof.Machine.Pci.flr v) = 1))
     ∧ (total = 0 → Sys2Proof.Machine.exec .vfEnableSet s = .next s)
     ∧ (total ≠ 0 → Sys2Proof.Claims.Runs .vfEnableSet s (fun t => kept t ∧ t.hub.get Sys2Proof.Machine.Pci.vfEnable = 1 ∧ t.hub.get Sys2Proof.Machine.Reg.cfgModeSriov = 1
          ∧ Sys2Proof.Claims.SameRegsBut [Sys2Proof.Machine.Pci.vfEnable, Sys2Proof.Machine.Reg.cfgModeSriov] s t))
     ∧ (enabled ∨ total < v.toNat → Sys2Proof.Machine.exec (.numvfsWrite v) s = .next s)
     ∧ (¬ enabled → v.toNat ≤ total → Sys2Proof.Claims.Runs (.numvfsWrite v) s (fun t => kept t ∧ t.hub.get Sys2Proof.Machine.Pci.numVfs = v.toNat ∧ Sys2Proof.Claims.SameRegsBut [Sys2Proof.Machine.Pci.numVfs] s t))
     ∧ (s.hub.get (Sys2Proof.Machine.Pci.flr 0) = 1 → Sys2Proof.Machine.exec .pfFlr s = .next s)
     ∧ (s.hub.get (Sys2Proof.Machine.Pci.flr 0) = 0 → ¬ enabled → Sys2Proof.Claims.Runs .pfFlr s (quiesced 0))
     ∧ (¬ cleared → Sys2Proof.Machine.exec .pfFlrComplete s = .next s)
     ∧ (cleared → Sys2Proof.Claims.Runs .pfFlrComplete s (reset 0)))

namespace Sys2Proof.Claims

open Sys2Proof Machine

/-- The answers sent to Almanac requests, newest first. -/
def answers (s : State) : List Sent := s.hub.sent.filter (fun x => match x with | .almanac _ _ _ => true | _ => false)

/-- The STATUS of an answer. -/
def statusOf : Sent → Option Nat
  | .almanac _ st _ => some st
  | _ => none

/-- One answer goes out on an interface: STATUS, and the value read or the abort code. Memory and the waiting commands stay. -/
def Told (via st v : Nat) (s t : State) : Prop := answers t = .almanac via st v :: answers s ∧ t.mem = s.mem ∧ t.pending = s.pending

/-- A counter of 0x2B00. -/
def count (s : State) (k : Nat) : Nat := tget 0 s.hub.alm.counts k

/-- A refused access has no effect: registers, entries, locks and the flash stay (R445). -/
def Untouched (s t : State) : Prop :=
  t.hub.regs = s.hub.regs ∧ t.hub.alm.od = s.hub.alm.od ∧ t.hub.alm.locks = s.hub.alm.locks ∧ t.hub.flash = s.hub.flash ∧ t.hub.boot = s.hub.boot

end Sys2Proof.Claims

/-- R431, R434, R445, R446, R438: a request is answered with the entry's value, or with the STATUS and abort code of Table 7 and no effect; a
written entry reads back; an index locked by one interface is refused to the others, and at most sixteen are locked. An interface that
is not served stays silent. Every request is counted. -/
def Obligations.AlmanacRequestsAreServedAndRefused : Prop :=
  ∀ (via owner : Sys2Proof.Iface) (r : Sys2Proof.AlmReq) (v8 : BitVec 8) (s : Sys2Proof.Machine.State) (o : Sys2Proof.Machine.OdObj),
    (let c := via.code.toNat
     let ix := r.index.toNat
     let sub := r.sub.toNat
     let lvl := s.hub.odLevel c
     let served := s.hub.odServed c = true
     let usdo := s.hub.odServed 5 = true
     let req := c = 2 ∨ c = 3 ∨ c = 4
     let kind := if c = 2 then 7 else 6
     let look := Sys2Proof.Machine.odLook ix sub
     let read := Sys2Proof.Instr.almanacRead via r
     let write := Sys2Proof.Instr.almanacWrite via r
     let locked := s.hub.lockOf ix
     let can := served ∧ lvl.writes 0x2101 = true ∧ (s.hub.lockOf 0x2101 = 0 ∨ s.hub.lockOf 0x2101 = c)
     let counted (t : Sys2Proof.Machine.State) : Prop := Sys2Proof.Claims.count t kind = (Sys2Proof.Claims.count s kind + 1) % 2 ^ 64
     let refused (st ab : Nat) (t : Sys2Proof.Machine.State) : Prop := Sys2Proof.Claims.Told c st ab s t ∧ Sys2Proof.Claims.Untouched s t ∧ counted t
     let value := (s.onHub (·.countReq c)).odValue c r.staged ix sub
     let locks := s.hub.alm.locks
     let known := Sys2Proof.Machine.odLook ix 0 ≠ .noIndex
     (¬ req → Sys2Proof.Machine.exec read s = .next s ∧ Sys2Proof.Machine.exec write s = .next s ∧ Sys2Proof.Machine.exec (.almanacLock via r) s = .next s ∧ Sys2Proof.Machine.exec (.almanacUnlock via r) s = .next s)
     ∧ (¬ served → Sys2Proof.Machine.exec read s = .next s ∧ Sys2Proof.Machine.exec write s = .next s ∧ Sys2Proof.Machine.exec (.almanacLock via r) s = .next s
          ∧ Sys2Proof.Machine.exec (.almanacUnlock via r) s = .next s ∧ Sys2Proof.Machine.exec (.lockReleaseAll via v8) s = .next s)
     ∧ (lvl = .silent → ¬ served) ∧ (c = 5 → s.hub.alm.nmt = 3 → ¬ served)
     ∧ (req → served → look = .noIndex → Sys2Proof.Claims.Runs read s (refused 0x02 0x06020000) ∧ Sys2Proof.Claims.Runs write s (refused 0x02 0x06020000))
     ∧ (req → served → look = .noSub → Sys2Proof.Claims.Runs read s (refused 0x02 0x06090011) ∧ Sys2Proof.Claims.Runs write s (refused 0x02 0x06090011))
     ∧ (req → served → look = .found o → o.acc = .wo → Sys2Proof.Claims.Runs read s (refused 0x04 0x06010001))
     ∧ (req → served → look = .found o → o.acc = .ro → Sys2Proof.Claims.Runs write s (refused 0x04 0x06010002))
     ∧ (req → served → look = .found o → o.acc ≠ .ro → o.size ≠ none → o.size ≠ some r.data.length → Sys2Proof.Claims.Runs write s (refused 0x02 0x06070010))
     ∧ (req → served → look = .found o → o.acc ≠ .wo → lvl.reads ix = false → Sys2Proof.Claims.Runs read s (refused 0x0D 0x08000022))
     ∧ (req → served → look = .found o → o.acc ≠ .wo → lvl.reads ix = true → ix ≠ 0x2A01 → Sys2Proof.Claims.Runs read s (fun t =>
          Sys2Proof.Claims.Told c 0 (Sys2Proof.Machine.leNat (Sys2Proof.Machine.leBytes (o.size.getD 0) value)) s t ∧ Sys2Proof.Claims.Untouched s t ∧ counted t))
     ∧ (ix = 0x1018 → sub = 1 → value = 0x1F3C) ∧ (ix = 0x2100 → sub = 1 → value = s.hub.get Sys2Proof.Machine.Reg.cfgEpochEpoch)
     ∧ (ix = 0x2000 → sub = 7 → value = s.hub.get Sys2Proof.Machine.Reg.cfgModeLifecycle) ∧ (ix = 0x1001 → value = s.hub.errorReg)
     ∧ (req → served → look = .found o → o.acc ≠ .ro → o.size = some r.data.length → s.odCheck c ix sub (Sys2Proof.Machine.leNat r.data) = .ok →
          locked ≠ 0 → locked ≠ c → Sys2Proof.Claims.Runs write s (fun t => refused 0x04 0x08000021 t ∧ Sys2Proof.Claims.count t 8 = (Sys2Proof.Claims.count s 8 + 1) % 2 ^ 64))
     ∧ (req → served → look = .found o → o.acc ≠ .ro → o.size = some r.data.length → s.odCheck c ix sub (Sys2Proof.Machine.leNat r.data) = .ok →
          locked = 0 ∨ locked = c → lvl.writes ix = false → Sys2Proof.Claims.Runs write s (refused 0x0D 0x08000022))
     ∧ (req → served → ix ∈ [0x1005, 0x1014, 0x1015, 0x1017] → sub = 0 → look = .found o → o.size = some r.data.length → locked = 0 ∨ locked = c →
          lvl.writes ix = true → Sys2Proof.Claims.Runs write s (fun t => Sys2Proof.Claims.Told c 0 0 s t ∧ counted t ∧ t.hub.od ix 0 = Sys2Proof.Machine.leNat r.data ∧ t.hub.regs = s.hub.regs
          ∧ t.hub.alm.locks = locks ∧ ∀ k, k ≠ ix * 256 → Sys2Proof.Machine.tlook t.hub.alm.od k = Sys2Proof.Machine.tlook s.hub.alm.od k))
     ∧ (req → served → ix = 0x2001 → sub = 1 → r.data.length = 2 → Sys2Proof.Machine.leNat r.data ≠ 500 → Sys2Proof.Machine.leNat r.data ≠ 1000 → Sys2Proof.Claims.Runs write s (refused 0x02 0x06090030))
     ∧ (req → can → known → ix ≠ 0x2100 → locked = 0 → s.hub.inRpdo ix = false → locks.length < 16 → Sys2Proof.Claims.Runs (.almanacLock via r) s (fun t =>
          Sys2Proof.Claims.Told c 0 0 s t ∧ t.hub.alm.locks = locks ++ [(ix, c)] ∧ t.hub.regs = s.hub.regs))
     ∧ (req → can → known → ix ≠ 0x2100 → locked = c → Sys2Proof.Claims.Runs (.almanacLock via r) s (fun t => Sys2Proof.Claims.Told c 0 0 s t ∧ Sys2Proof.Claims.Untouched s t))
     ∧ (req → can → known → ix ≠ 0x2100 → locked = 0 → s.hub.inRpdo ix = false → 16 ≤ locks.length → Sys2Proof.Claims.Runs (.almanacLock via r) s (refused 0x03 0x08000000))
     ∧ (req → can → known → ix ≠ 0x2100 → locked ≠ c → locked ≠ 0 ∨ s.hub.inRpdo ix = true → Sys2Proof.Claims.Runs (.almanacLock via r) s (fun t =>
          refused 0x04 0x08000021 t ∧ Sys2Proof.Claims.count t 8 = (Sys2Proof.Claims.count s 8 + 1) % 2 ^ 64))
     ∧ (req → can → locked = 0 ∨ locked = c → Sys2Proof.Claims.Runs (.almanacUnlock via r) s (fun t => Sys2Proof.Claims.Told c 0 0 s t ∧ t.hub.lockOf ix = 0
          ∧ t.hub.alm.locks = locks.filter (fun l => !decide (l.1 = ix)) ∧ t.hub.regs = s.hub.regs))
     ∧ (req → can → locked ≠ 0 → locked ≠ c → Sys2Proof.Claims.Runs (.almanacUnlock via r) s (fun t =>
          refused 0x04 0x08000021 t ∧ Sys2Proof.Claims.count t 8 = (Sys2Proof.Claims.count s 8 + 1) % 2 ^ 64))
     ∧ (c = 2 → can → v8 = 1 → Sys2Proof.Claims.Runs (.lockReleaseAll via v8) s (fun t => Sys2Proof.Claims.Told c 0 0 s t ∧ t.hub.alm.locks = [] ∧ t.hub.regs = s.hub.regs))
     ∧ (req → c ≠ 2 → can → v8 = 1 → Sys2Proof.Claims.Runs (.lockReleaseAll via v8) s (fun t => Sys2Proof.Claims.Untouched s t ∧ (Sys2Proof.Claims.answers t).head?.bind Sys2Proof.Claims.statusOf = some 0x04
          ∧ (Sys2Proof.Claims.answers t).tail = Sys2Proof.Claims.answers s))
     ∧ (req → served → v8 ≠ 1 → Sys2Proof.Claims.Runs (.lockReleaseAll via v8) s (refused 0x02 0x06090030))
     ∧ (Sys2Proof.Claims.Runs (.lockLapse owner) s (fun t => t.hub.alm.locks = locks.filter (fun l => !decide (l.2 = owner.code.toNat))
          ∧ t.hub.regs = s.hub.regs ∧ t.hub.alm.od = s.hub.alm.od ∧ t.hub.sent = s.hub.sent ∧ t.mem = s.mem ∧ t.pending = s.pending))
     ∧ (¬ usdo → Sys2Proof.Machine.exec (.usdoTransfer true r.index r.sub r.data) s = .next s ∧ Sys2Proof.Machine.exec (.usdoTransfer false r.index r.sub r.data) s = .next s
          ∧ Sys2Proof.Machine.exec (.usdoTimeout r.index r.sub) s = .next s)
     ∧ (usdo → look = .found o → o.acc ≠ .wo → ix ≠ 0x2A01 → (s.hub.odLevel 5).reads ix = true → Sys2Proof.Claims.Runs (.usdoTransfer false r.index r.sub r.data) s (fun t =>
          Sys2Proof.Claims.Told 5 0 (Sys2Proof.Machine.leNat (Sys2Proof.Machine.leBytes (o.size.getD 0) ((s.onHub (·.countReq 5)).odValue 5 false ix sub))) s t ∧ Sys2Proof.Claims.Untouched s t
          ∧ Sys2Proof.Claims.count t 2 = (Sys2Proof.Claims.count s 2 + 1) % 2 ^ 64 ∧ Sys2Proof.Claims.count t 3 = Sys2Proof.Claims.count s 3))
     ∧ (usdo → look = .found o → o.acc = .ro → Sys2Proof.Claims.Runs (.usdoTransfer true r.index r.sub r.data) s (fun t =>
          Sys2Proof.Claims.Told 5 0x04 0x06010002 s t ∧ Sys2Proof.Claims.Untouched s t ∧ Sys2Proof.Claims.count t 2 = (Sys2Proof.Claims.count s 2 + 1) % 2 ^ 64 ∧ Sys2Proof.Claims.count t 3 = (Sys2Proof.Claims.count s 3 + 1) % 2 ^ 64))
     ∧ (usdo → look ≠ .noIndex → Sys2Proof.Claims.Runs (.usdoTimeout r.index r.sub) s (fun t => Sys2Proof.Claims.Told 5 0x06 0x05040000 s t ∧ Sys2Proof.Claims.Untouched s t
          ∧ Sys2Proof.Claims.count t 3 = (Sys2Proof.Claims.count s 3 + 1) % 2 ^ 64)))

/-- R436, R79, R444, R471, R486: SLOT_OFFSET and SLOT_DATA fill the spare slot and lock the update objects; STAGE marks a verified slot TRIAL and
ACTIVE, CONFIRM makes the running one GOOD, ACTIVATE restarts the security core. A read of the log gives the next record and moves the
interface's cursor. The mailbox answers in MBX_RSP, sets DONE and raises entry 14. A transition request is refused, or programs the intents. -/
def Obligations.UpdateObjectsLogAndMailbox : Prop :=
  ∀ (via : Sys2Proof.Iface) (off : BitVec 32) (data : List (BitVec 8)) (v : BitVec 8) (s : Sys2Proof.Machine.State) (d : Sys2Proof.Machine.Dir) (imgs : Sys2Proof.Machine.Tab Nat) (rec : Sys2Proof.Machine.MorRec),
    (let c := via.code.toNat
     let lvl := s.hub.odLevel c
     let served := s.hub.odServed c = true
     let lock := s.hub.lockOf 0x2010
     let may := served ∧ lvl.writes 0x2010 = true ∧ (lock = 0 ∨ lock = c) ∧ c ≠ 0
     let room := lock = c ∨ s.hub.alm.locks.length < 16
     let at' := s.hub.alm.slotOff
     let spare := s.hub.spareSlot d
     let fits := at' + data.length ≤ d.slotLen
     let kept (t : Sys2Proof.Machine.State) : Prop := t.mem = s.mem ∧ t.pending = s.pending
     let result (st ab : Nat) (t : Sys2Proof.Machine.State) : Prop := Sys2Proof.Claims.Told c st ab s t ∧ t.hub.alm.updResult = st ∧ t.hub.regs = s.hub.regs ∧ t.hub.flash = s.hub.flash
     let recovery := s.hub.get Sys2Proof.Machine.Reg.glbBootStatusRecovery = 1
     let trial := s.hub.get Sys2Proof.Machine.Reg.glbBootStatusTrial = 1
     let busy := s.hub.boot.activating = true ∨ s.hub.sec.installs ≠ [] ∨ s.hub.boot.lc ≠ none
     let cursor := Sys2Proof.Machine.tget 1 s.hub.cursors c
     let log := s.hub.morFrom cursor
     let a := s.hub.alm
     let s' := s.wroteBy 0
     let mailed := s.hub.odServed 2 = true
     let byte (k : Nat) : Nat := (Sys2Proof.Machine.tget 0 a.mbxReq k).toNat
     let word (k n : Nat) : Nat := Sys2Proof.Machine.leNat (a.req k n)
     let rsp (t : Sys2Proof.Machine.State) (k n : Nat) : Nat := Sys2Proof.Machine.leNat ((List.range n).map (fun i => Sys2Proof.Machine.tget 0 t.hub.alm.mbxRsp (k + i)))
     let answered (st ab len : Nat) (t : Sys2Proof.Machine.State) : Prop := t.hub.get Sys2Proof.Machine.Reg.mbxStatusDone = 1 ∧ rsp t 0 1 = byte 0 ∧ rsp t 1 1 = st ∧ rsp t 2 5 = word 2 5
       ∧ rsp t 7 1 = 0 ∧ rsp t 8 4 = len ∧ rsp t 0xC 4 = ab ∧ Sys2Proof.Claims.count t 7 = (Sys2Proof.Claims.count s 7 + 1) % 2 ^ 64 ∧ kept t
     let plain := word 1 1 ≤ 1 ∧ byte 7 = 0 ∧ word 0xC 4 = 0 ∧ word 8 4 ≤ 4080
     let code := Sys2Proof.Machine.odLook (word 4 2) (byte 6)
     let u := Sys2Proof.Machine.bunF data 8 8
     let f := Sys2Proof.Machine.bunF data 6 1
     let g := Sys2Proof.Machine.bunF data 7 1
     let quiet := (List.range 24).any s.hub.partExists = false ∧ s.hub.cfg.staged = [] ∧ s.hub.whiteout = false ∧ s.hub.life ≠ 3 ∧ ¬ busy
     let wellFormed := Sys2Proof.Machine.bunF data 0 4 = 0x434C4845 ∧ Sys2Proof.Machine.bunF data 4 2 = 1 ∧ Sys2Proof.Machine.bunF data 0x10 48 = 0 ∧ u ≠ 0 ∧ Sys2Proof.Machine.bunF data 0x41 15 = 0
       ∧ Sys2Proof.Machine.bunF data 0xB0 16 = 0 ∧ Sys2Proof.Machine.lifeRow f g = true
     let asks := served ∧ lvl.writes 0x2910 = true ∧ s.hub.lockOf 0x2910 = 0 ∧ data.length = 192
     (¬ served → Sys2Proof.Machine.exec (.slotOffset via off) s = .next s ∧ Sys2Proof.Machine.exec (.slotData via data) s = .next s ∧ Sys2Proof.Machine.exec (.stage via v) s = .next s
        ∧ Sys2Proof.Machine.exec (.confirm via v) s = .next s ∧ Sys2Proof.Machine.exec (.activate via v) s = .next s ∧ Sys2Proof.Machine.exec (.moraineRecordRead via) s = .next s
        ∧ Sys2Proof.Machine.exec (.lcRequest via data) s = .next s)
     ∧ (may → room → Sys2Proof.Claims.Runs (.slotOffset via off) s (fun t => Sys2Proof.Claims.Told c 0 0 s t ∧ t.hub.alm.slotOff = off.toNat ∧ t.hub.lockOf 0x2010 = c
          ∧ t.hub.regs = s.hub.regs ∧ t.hub.flash = s.hub.flash))
     ∧ (may → ¬ room → Sys2Proof.Claims.Runs (.slotOffset via off) s (fun t => Sys2Proof.Claims.Told c 0x03 0x08000000 s t ∧ Sys2Proof.Claims.Untouched s t ∧ t.hub.alm.slotOff = at'))
     ∧ (may → room → data.length ≤ 4080 → s.hub.dir = some d → fits → Sys2Proof.Claims.Runs (.slotData via data) s (fun t => Sys2Proof.Claims.Told c 0 0 s t
          ∧ t.hub.alm.slotOff = at' + data.length ∧ t.hub.lockOf 0x2010 = c ∧ t.hub.regs = s.hub.regs
          ∧ (∀ k < data.length, Sys2Proof.Machine.tget 0xFF t.hub.flash (d.base spare + at' + k) = data.getD k 0)
          ∧ ∀ x, x < d.base spare + at' ∨ d.base spare + at' + data.length ≤ x → Sys2Proof.Machine.tget 0xFF t.hub.flash x = Sys2Proof.Machine.tget 0xFF s.hub.flash x))
     ∧ (may → room → data.length ≤ 4080 → s.hub.dir = some d → ¬ fits → Sys2Proof.Claims.Runs (.slotData via data) s (fun t => Sys2Proof.Claims.Told c 0x02 0x06090030 s t
          ∧ Sys2Proof.Claims.Untouched s t ∧ t.hub.alm.slotOff = at'))
     ∧ (served → 4080 < data.length → Sys2Proof.Claims.Runs (.slotData via data) s (fun t => Sys2Proof.Claims.Told c 0x02 0x06070010 s t ∧ Sys2Proof.Claims.Untouched s t))
     ∧ (served → v = 0 ∨ 7 < v.toNat → Sys2Proof.Claims.Runs (.stage via v) s (fun t => Sys2Proof.Claims.Told c 0x02 0x06090030 s t ∧ Sys2Proof.Claims.Untouched s t))
     ∧ (may → 1 ≤ v.toNat → v.toNat ≤ 7 → s.hub.dir = some d → s.hub.slotImages d spare = some imgs → Sys2Proof.Claims.Runs (.stage via v) s (fun t => Sys2Proof.Claims.Told c 0 0 s t
          ∧ t.hub.alm.updResult = 0 ∧ t.hub.get Sys2Proof.Machine.Reg.secStatusUpdateStaged = 1 ∧ t.hub.boot.staged = imgs ∧ Sys2Proof.Claims.SameRegsBut [Sys2Proof.Machine.Reg.secStatusUpdateStaged] s t
          ∧ t.hub.flash = (s.hub.writeDir { d.setSt spare 2 with active := spare, tries := v.toNat }).2.flash))
     ∧ (may → 1 ≤ v.toNat → v.toNat ≤ 7 → s.hub.dir = some d → s.hub.slotImages d spare = none → Sys2Proof.Claims.Runs (.stage via v) s (fun t =>
          t.hub.alm.updResult = 0x0E ∧ t.hub.regs = s.hub.regs ∧ t.hub.flash = s.hub.flash ∧ kept t))
     ∧ (served → v ≠ 1 → Sys2Proof.Claims.Runs (.confirm via v) s (fun t => Sys2Proof.Claims.Told c 0x02 0x06090030 s t ∧ Sys2Proof.Claims.Untouched s t)
          ∧ Sys2Proof.Claims.Runs (.activate via v) s (fun t => Sys2Proof.Claims.Told c 0x02 0x06090030 s t ∧ Sys2Proof.Claims.Untouched s t))
     ∧ (may → v = 1 → s.hub.dir = some d → ¬ recovery → trial → Sys2Proof.Claims.Runs (.confirm via v) s (fun t => Sys2Proof.Claims.Told c 0 0 s t ∧ t.hub.alm.updResult = 0
          ∧ t.hub.get Sys2Proof.Machine.Reg.glbBootStatusTrial = 0 ∧ Sys2Proof.Claims.SameRegsBut [Sys2Proof.Machine.Reg.glbBootStatusTrial] s t
          ∧ t.hub.flash = (s.hub.writeDir (d.setSt (s.hub.get Sys2Proof.Machine.Reg.glbBootStatusSlot) 1)).2.flash))
     ∧ (may → v = 1 → recovery ∨ ¬ trial → Sys2Proof.Claims.Runs (.confirm via v) s (result 0x0D 0x08000022))
     ∧ (may → v = 1 → busy → Sys2Proof.Claims.Runs (.activate via v) s (result 0x0D 0x08000022))
     ∧ (may → v = 1 → ¬ busy → s.hub.activateOk = false → Sys2Proof.Claims.Runs (.activate via v) s (fun t => t.hub.alm.updResult = 0x0E ∧ t.hub.regs = s.hub.regs
          ∧ t.hub.boot = s.hub.boot ∧ kept t))
     ∧ (may → v = 1 → ¬ busy → s.hub.activateOk = true → Sys2Proof.Claims.Runs (.activate via v) s (fun t => Sys2Proof.Claims.Told c 0 0 s t ∧ t.hub.boot.activating = true
          ∧ t.hub.get Sys2Proof.Machine.Reg.secStatusReady = 0 ∧ t.hub.sec.sessions = []))
     ∧ (served → lvl.reads 0x2A01 = true → log = none → Sys2Proof.Claims.Runs (.moraineRecordRead via) s (fun t => Sys2Proof.Claims.Told c 0x02 0x06090030 s t ∧ Sys2Proof.Claims.Untouched s t))
     ∧ (served → lvl.reads 0x2A01 = true → log = some rec → Sys2Proof.Claims.Runs (.moraineRecordRead via) s (fun t => Sys2Proof.Claims.Told c 0 (Sys2Proof.Machine.leNat rec.bytes) s t ∧ Sys2Proof.Claims.Untouched s t
          ∧ Sys2Proof.Machine.tget 1 t.hub.cursors c = (rec.seq + 1) % 2 ^ 32 ∧ t.hub.mor = s.hub.mor))
     ∧ (log = some rec → rec ∈ s.hub.mor.map (·.2))
     ∧ (¬ mailed → Sys2Proof.Machine.exec .mbxGo s = .next s')
     ∧ (mailed → (byte 0 = 0 ∨ 4 < byte 0 ∨ 1 < byte 1 ∨ byte 7 ≠ 0 ∨ word 0xC 4 ≠ 0) → Sys2Proof.Claims.Runs .mbxGo s (fun t => answered 0x02 0x06090030 0 t
          ∧ Sys2Proof.Claims.SameRegsBut [Sys2Proof.Machine.Reg.mbxStatusDone] s t))
     ∧ (mailed → plain → byte 0 = 1 → code = .noIndex → Sys2Proof.Claims.Runs .mbxGo s (answered 0x02 0x06020000 0))
     ∧ (mailed → plain → byte 0 = 2 → code = .found ⟨some (word 8 4), .ro⟩ → Sys2Proof.Claims.Runs .mbxGo s (answered 0x04 0x06010002 0))
     ∧ (mailed → plain → byte 0 = 1 → word 4 2 = 0x1018 → byte 6 = 1 → (s.hub.odLevel 2).reads 0x1018 = true → Sys2Proof.Claims.Runs .mbxGo s (fun t => answered 0 0 4 t
          ∧ rsp t 0x10 4 = 0x1F3C ∧ (s.hub.get Sys2Proof.Machine.Reg.mbxStatusIrqEn = 0 → s.hub.pdoRun = false → t.hub.sent = s.hub.sent)))
     ∧ (mailed → plain → byte 0 = 3 → word 4 2 = 0x2400 → s.hub.lockOf 0x2400 = 0 → s.hub.inRpdo 0x2400 = false → a.locks.length < 16 →
          (s.hub.odLevel 2).writes 0x2101 = true → s.hub.lockOf 0x2101 = 0 → Sys2Proof.Claims.Runs .mbxGo s (fun t => answered 0 0 0 t ∧ t.hub.alm.locks = a.locks ++ [(0x2400, 2)]))
     ∧ (served → data.length ≠ 192 → Sys2Proof.Claims.Runs (.lcRequest via data) s (fun t => Sys2Proof.Claims.Told c 0x02 0x06070010 s t ∧ Sys2Proof.Claims.Untouched s t ∧ t.hub.perma = s.hub.perma))
     ∧ (asks → ¬ quiet → Sys2Proof.Claims.Runs (.lcRequest via data) s (fun t => Sys2Proof.Claims.Told c 0x0D 0x08000022 s t ∧ Sys2Proof.Claims.Untouched s t ∧ t.hub.perma = s.hub.perma))
     ∧ (asks → quiet → ¬ wellFormed → Sys2Proof.Claims.Runs (.lcRequest via data) s (fun t => Sys2Proof.Claims.Told c 0x02 0x06090030 s t ∧ Sys2Proof.Claims.Untouched s t ∧ t.hub.perma = s.hub.perma))
     ∧ (asks → quiet → wellFormed → u = s.hub.perma.unit → f ≠ s.hub.life → Sys2Proof.Claims.Runs (.lcRequest via data) s (fun t => Sys2Proof.Claims.Told c 0x0D 0x08000022 s t
          ∧ t.hub.perma = s.hub.perma ∧ t.hub.boot.lc = none))
     ∧ (asks → quiet → wellFormed → u = s.hub.perma.unit → f = s.hub.life → s.hub.lifeSigned f g data = true → s.hub.lifeReady f = true →
          Sys2Proof.Claims.Runs (.lcRequest via data) s (fun t => Sys2Proof.Claims.Told c 0 0 s t ∧ t.hub.boot.lc = some (if g = 3 then 2 else 3, g)
            ∧ t.hub.perma.intents = s.hub.perma.intents.map (fun w => BitVec.ofNat 32 (w.toNat ||| Sys2Proof.Machine.lifeCode g)) ∧ t.hub.perma.copies = s.hub.perma.copies)))

/-- R438, R440, R441, R442, R439, R425, R426: an RPDO outside Operational or of another length is dropped and counted; an event-driven one takes
effect at once and a synchronous one at the next SYNC, which also sends the TPDOs whose count it completes. Timers send what they hold. NMT
moves the node between its states; its resets restore 0x1000-0x1FFF, take the rates of 0x2001 and repeat the boot-up message. -/
def Obligations.CanServicesActAsStated : Prop :=
  ∀ (n : BitVec 3) (data : List (BitVec 8)) (s : Sys2Proof.Machine.State) (cm : Nat × Nat) (tl : List (Nat × Nat)),
    (let k := n.toNat
     let h := s.hub
     let a := h.alm
     let deaf := h.canUp = false ∨ h.boot.stopped = true ∨ h.boot.halt = true ∨ (h.od (0x1400 + k) 1).testBit 31 = true
     let bits := ((h.mapped (0x1600 + k)).map (·.2)).sum
     let kept (t : Sys2Proof.Machine.State) : Prop := t.mem = s.mem ∧ t.pending = s.pending
     let still (t : Sys2Proof.Machine.State) : Prop := kept t ∧ t.hub.regs = h.regs
     let one := h.mapped (0x1600 + k) = [(0x221001, 16)]
     let free := (h.lockOf 0x2210 = 0 ∨ h.lockOf 0x2210 = 5) ∧ (h.odLevel 5).writes 0x2210 = true
     let limit (t : Sys2Proof.Machine.State) : Prop := t.hub.od 0x2210 1 = Sys2Proof.Machine.leNat data ∧ Sys2Proof.Claims.count t 4 = (Sys2Proof.Claims.count s 4 + 1) % 2 ^ 64 ∧ Sys2Proof.Claims.count t 5 = Sys2Proof.Claims.count s 5 ∧ kept t
     let runs := h.pdoRun = true ∧ h.boot.stopped = false
     let vals := h.tpdoVals k
     let message := Sys2Proof.Machine.Sent.can (h.od (0x1800 + k) 1 % 2 ^ 11) (((vals.map (·.1)).sum + 7) / 8) (Sys2Proof.Machine.pdoData vals)
     let on := h.tpdoOn k = true ∧ h.boot.stopped = false
     let type := h.od (0x1800 + k) 2
     let due := Sys2Proof.Machine.tget 0 a.syncs k + 1
     let beats := h.canUp = true ∧ h.boot.stopped = false ∧ h.od 0x1017 0 ≠ 0
     let live := h.canUp = true ∧ h.boot.halt = false ∧ h.boot.stopped = false
     let code := if a.nmt = 2 then 0x05 else if a.nmt = 3 then 0x04 else 0x7F
     let nmt (x : Nat) : Sys2Proof.Machine.State := s.onHub (fun h => { h with alm := { h.alm with nmt := x } })
     let renewed (t : Sys2Proof.Machine.State) : Prop := still t ∧ t.hub.alm.nmt = 1 ∧ t.hub.sent = .can (0x700 + h.boot.nodeId) 1 0 :: h.sent
       ∧ t.hub.alm.rate = h.od 0x2001 1 ∧ t.hub.alm.dataRate = h.od 0x2001 2
       ∧ (∀ i : BitVec 12, ∀ j : BitVec 8, t.hub.od (0x1000 + i.toNat) j.toNat = Sys2Proof.Machine.odDefault h.boot.nodeId ((0x1000 + i.toNat) * 256 + j.toNat))
       ∧ (∀ i : BitVec 16, ∀ j : BitVec 8, 0x2000 ≤ i.toNat → t.hub.od i.toNat j.toNat = h.od i.toNat j.toNat)
     (deaf → Sys2Proof.Machine.exec (.rpdo n data) s = .next s)
     ∧ (¬ deaf → (h.pdoRun = false ∨ bits ≠ 8 * data.length) → Sys2Proof.Machine.exec (.rpdo n data) s = .next (s.onHub (·.almCount 5)))
     ∧ (h.pdoRun = true → a.nmt = 2)
     ∧ (¬ deaf → runs → bits = 8 * data.length → h.od (0x1400 + k) 2 ≠ 0xFE → Sys2Proof.Claims.Runs (.rpdo n data) s (fun t => still t
          ∧ Sys2Proof.Machine.tlook t.hub.alm.rpdoWait k = some data ∧ t.hub.alm.od = a.od ∧ t.hub.sent = h.sent))
     ∧ (¬ deaf → runs → one → data.length = 2 → free → h.od (0x1400 + k) 2 = 0xFE → Sys2Proof.Claims.Runs (.rpdo n data) s limit)
     ∧ (¬ deaf → runs → one → data.length = 2 → h.lockOf 0x2210 ≠ 0 → h.lockOf 0x2210 ≠ 5 → h.od (0x1400 + k) 2 = 0xFE → Sys2Proof.Claims.Runs (.rpdo n data) s (fun t =>
          still t ∧ t.hub.alm.od = a.od ∧ Sys2Proof.Claims.count t 5 = (Sys2Proof.Claims.count s 5 + 1) % 2 ^ 64))
     ∧ (¬ runs → Sys2Proof.Machine.exec .sync s = .next s)
     ∧ (runs → a.rpdoWait = [(k, data)] → one → data.length = 2 → free → Sys2Proof.Claims.Runs .sync s (fun t => limit t ∧ t.hub.alm.rpdoWait = []))
     ∧ (runs → a.rpdoWait = [] → on → 1 ≤ type → type ≤ 0xF0 → type ≤ due → Sys2Proof.Claims.Runs .sync s (fun t => still t ∧ message ∈ t.hub.sent
          ∧ Sys2Proof.Machine.tget 0 t.hub.alm.syncs k = 0))
     ∧ (runs → a.rpdoWait = [] → on → 1 ≤ type → type ≤ 0xF0 → due < type → Sys2Proof.Claims.Runs .sync s (fun t => still t ∧ Sys2Proof.Machine.tget 0 t.hub.alm.syncs k = due))
     ∧ (on → type = 0xFE → h.od (0x1800 + k) 5 ≠ 0 → Sys2Proof.Claims.Runs (.tpdoEventTimer n) s (fun t => still t ∧ t.hub.sent = message :: h.sent ∧ t.hub.alm.od = a.od))
     ∧ (¬ on ∨ type ≠ 0xFE ∨ h.od (0x1800 + k) 5 = 0 → Sys2Proof.Machine.exec (.tpdoEventTimer n) s = .next s)
     ∧ (a.emcyQ = [] → Sys2Proof.Claims.Runs (.inhibitExpiry true n) s (fun t => still t ∧ t.hub.sent = h.sent ∧ t.hub.alm.emcyInhibit = false))
     ∧ (a.emcyQ = cm :: tl → h.canUp = true → a.nmt ≠ 3 → h.boot.stopped = false → Sys2Proof.Claims.Runs (.inhibitExpiry true n) s (fun t => still t
          ∧ t.hub.sent = .emcy cm.1 cm.2 :: h.sent ∧ t.hub.alm.emcyQ = tl ∧ (t.hub.alm.emcyInhibit = true ↔ h.od 0x1015 0 ≠ 0)))
     ∧ (k ∈ a.pdoHeld → on → Sys2Proof.Claims.Runs (.inhibitExpiry false n) s (fun t => still t ∧ t.hub.sent = message :: h.sent))
     ∧ (k ∉ a.pdoHeld → Sys2Proof.Claims.Runs (.inhibitExpiry false n) s (fun t => still t ∧ t.hub.sent = h.sent ∧ t.hub.alm.pdoInhibit = Sys2Proof.Machine.kdel a.pdoInhibit k))
     ∧ (beats → Sys2Proof.Machine.exec .heartbeatProduce s = .next (s.onHub (·.send (.can (0x700 + h.boot.nodeId) 1 code))))
     ∧ (¬ beats → Sys2Proof.Machine.exec .heartbeatProduce s = .next s)
     ∧ (live → a.nmt ≠ 2 → Sys2Proof.Claims.Runs .nmtStart s (fun t => still t ∧ t.hub.alm.nmt = 2 ∧ t.hub.alm.od = a.od))
     ∧ (live → a.nmt ≠ 2 → (h.od (0x1800 + k) 1).testBit 31 = false → vals ≠ [] → type = 0xFE → k ∉ a.pdoInhibit → Sys2Proof.Claims.Runs .nmtStart s (fun t =>
          message ∈ t.hub.sent))
     ∧ (¬ live ∨ a.nmt = 2 → Sys2Proof.Claims.Runs .nmtStart s (fun t => still t ∧ t.hub.alm.nmt = a.nmt))
     ∧ (live → Sys2Proof.Machine.exec .nmtStop s = .next (nmt 3) ∧ Sys2Proof.Machine.exec .nmtEnterPreOperational s = .next (nmt 1))
     ∧ (live → Sys2Proof.Claims.Runs .nmtResetNode s (fun t => renewed t ∧ t.hub.alm.locks = a.locks))
     ∧ (live → Sys2Proof.Claims.Runs .nmtResetCommunication s (fun t => renewed t ∧ t.hub.alm.locks = a.locks.filter (fun l => !decide (l.2 = 5))))
     ∧ (¬ live → Sys2Proof.Machine.exec .nmtStop s = .next s ∧ Sys2Proof.Machine.exec .nmtEnterPreOperational s = .next s ∧ Sys2Proof.Machine.exec .nmtResetNode s = .next s
          ∧ Sys2Proof.Machine.exec .nmtResetCommunication s = .next s)
     ∧ (h.canUp = true → h.boot.stopped = false → h.mor = [] → Sys2Proof.Claims.Runs .canBusOff s (fun t => kept t
          ∧ t.hub.mor.map (fun x => (x.2.code, x.2.inst, x.2.cls)) = [(0x0F01, 5, 0)] ∧ t.hub.alm.nmt = a.nmt ∧ t.hub.alm.od = a.od))
     ∧ (h.canUp = false ∨ h.boot.stopped = true → Sys2Proof.Machine.exec .canBusOff s = .next s))

/-- R373, R375, R337, R376, R378-R381, R386-R388: a frame is dropped on a link that is not UP or has no owner, and counted while the owner thaws,
on a bad frame and on a MACsec failure. A request in its turn passes the checks of its window in order or is answered NAK; admitted, it is
applied once and acknowledged or answered. Duplicates change nothing; early requests wait. Responses, ACK, NAK and CNP act on their path. -/
def Obligations.PacketsAreCheckedAppliedAndAnswered : Prop :=
  ∀ (p : Sys2Proof.LinkPkt) (x : Sys2Proof.ReqExt) (code : BitVec 8) (ackPsn : BitVec 24) (sack : BitVec 128) (s : Sys2Proof.Machine.State) (q : Sys2Proof.Machine.LPath) (ty : Nat) (r : Sys2Proof.Machine.OutReq) (n ix : Nat)
    (d : Sys2Proof.Machine.Desc) (v : List (BitVec 8)),
    (let l := p.link.toNat
     let die := l / 48
     let w := x.window.toNat
     let psn := p.psn.toNat
     let o := s.hub.linkOwner l
     let up := s.hub.get (Sys2Proof.Machine.Reg.lnkStatusState l) = 2 ∧ o ≠ 31
     let awake := up ∧ s.hub.partState o ≠ 4
     let good := awake ∧ p.check = 0
     let all (P : Sys2Proof.Instr → Prop) : Prop := P (.transportWrite p x) ∧ P (.readReq p x) ∧ P (.transportAtomic p x) ∧ P (.readResp p) ∧ P (.atomicResp p)
       ∧ P (.ack p ackPsn sack) ∧ P (.nak p ackPsn code) ∧ P (.cnp p)
     let kept (t : Sys2Proof.Machine.State) : Prop := t.mem = s.mem ∧ t.pending = s.pending
     let counted (f : Sys2Proof.Machine.Fld) (t : Sys2Proof.Machine.State) : Prop := t.hub.get f = (s.hub.get f + 1) % 2 ^ f.len
     let frames := Sys2Proof.Machine.Reg.lnkCntRxFrames l
     let req : Sys2Proof.Instr := if ty = 1 then .transportWrite p x else if ty = 2 then .readReq p x else .transportAtomic p x
     let kind := ty = 1 ∨ ty = 2 ∨ ty = 4
     let onPath := good ∧ s.hub.rxPath p = some q ∧ p.ce = false
     let inTurn := onPath ∧ q.reorder = [] ∧ psn = q.rxPsn ∧ s.hub.links.held = [] ∧ s.hub.pathsOf l = [q] ∧ Sys2Proof.Machine.kmem s.hub.links.xoff l = false
     let sends := s.hub.maySend l = true ∧ Sys2Proof.Machine.kmem s.hub.links.paused (8 * l + s.hub.get Sys2Proof.Machine.Reg.lnkCfgDataPcp) = false
       ∧ Sys2Proof.Machine.kmem s.hub.links.paused (8 * l + s.hub.get Sys2Proof.Machine.Reg.lnkCfgCtrlPcp) = false ∧ s.hub.txSak l = none
     let wire (k a b d : Nat) (t : Sys2Proof.Machine.State) : Prop := sends → .frame l q.num k a b q.peerNum d ∈ t.hub.sent
     let next (t : Sys2Proof.Machine.State) : Prop := t.hub.path l q.num = some { q with rxPsn := (q.rxPsn + 1) % 2 ^ 24 }
     let state := s.hub.get (Sys2Proof.Machine.Reg.winWttState die w)
     let owner := s.hub.get (Sys2Proof.Machine.Reg.winWttPartition die w)
     let rights := s.hub.get (Sys2Proof.Machine.Reg.winWttRights die w)
     let gen := s.hub.get (Sys2Proof.Machine.Reg.winWttGen die w)
     let a := s.hub.get (Sys2Proof.Machine.Reg.winWttBase die w) + x.offset.toNat
     let m := if ty = 1 then p.data.length else if ty = 2 then x.rlen.toNat else if x.detail.toNat.testBit 4 then 8 else 4
     let check := s.hub.winCheck ty p x
     let own := state ≠ 0 ∧ o = owner
     let keyed := s.hub.get (Sys2Proof.Machine.Reg.winWttWkey die w) = x.wkey.toNat ∧ (ty = 1 → rights.testBit 1 = true) ∧ (ty = 2 → rights.testBit 0 = true)
       ∧ (ty = 4 → rights % 8 = 7)
     let inside := x.offset.toNat + m ≤ 2 ^ s.hub.get (Sys2Proof.Machine.Reg.winWttSizeLog2 die w)
     let stopped := s.hub.partState owner = 5 ∨ s.hub.partState owner = 6
     let port := Sys2Proof.Machine.quadPort (l / 4)
     let passes := s.hub.get (Sys2Proof.Machine.Reg.qosPortRegEn port) = 0 ∧ (s.hub.qosPort port).held = []
     let runs := inTurn ∧ check = 0 ∧ passes ∧ Sys2Proof.Claims.InFloe s.hub a m ∧ a % m = 0
     let drain := Sys2Proof.Machine.Reg.winWttDrain die w
     let asks := p.flags.toNat.testBit 0 = true
     let poison := p.flags.toNat.testBit 1 = true
     let stored := s.mem.storeBits a 32 (Sys2Proof.Machine.leNat p.data) (if p.flags.toNat.testBit 1 then 1 else 0)
     let last := (q.rxPsn + 2 ^ 24 - 1) % 2 ^ 24
     let ahead := (psn + 2 ^ 24 - q.rxPsn) % 2 ^ 24
     let old := s.mem.rd a m
     let fn := x.detail.toNat % 16
     let new := Sys2Proof.Machine.amoVal fn (8 * m) old (Sys2Proof.Machine.leNat (p.data.take 8)) (Sys2Proof.Machine.leNat ((p.data.drop 8).take 8))
     let row := s.hub.desc n ix = some d ∧ d.ended = none
     let waits (k : Nat) := onPath ∧ q.out = [r] ∧ r.psn = k ∧ r.who = .row n ix ∧ row
     let gone (t : Sys2Proof.Machine.State) : Prop := kept t ∧ t.hub.path l q.num = some { q with out := [] }
     let upTo := (ackPsn.toNat + 2 ^ 24 - r.psn) % 2 ^ 24 < 2 ^ 23
     let bit := (r.psn + 2 ^ 24 - (ackPsn.toNat + 1) % 2 ^ 24) % 2 ^ 24
     (¬ up → all (fun i => Sys2Proof.Machine.exec i s = .next s))
     ∧ (up → s.hub.partState o = 4 → all (fun i => Sys2Proof.Claims.Runs i s (fun t => kept t ∧ Sys2Proof.Claims.SameRegsBut [Sys2Proof.Machine.Reg.prtStatusThawDrop o] s t ∧ t.hub.links = s.hub.links
          ∧ t.hub.get (Sys2Proof.Machine.Reg.prtStatusThawDrop o) = min (s.hub.get (Sys2Proof.Machine.Reg.prtStatusThawDrop o) + 1) (2 ^ (Sys2Proof.Machine.Reg.prtStatusThawDrop o).len - 1))))
     ∧ (awake → p.check = 1 → all (fun i => Sys2Proof.Claims.Runs i s (fun t => kept t ∧ Sys2Proof.Claims.SameRegsBut [Sys2Proof.Machine.Reg.lnkCntRxDrop l] s t ∧ t.hub.links = s.hub.links
          ∧ counted (Sys2Proof.Machine.Reg.lnkCntRxDrop l) t)))
     ∧ (awake → p.check = 2 → all (fun i => Sys2Proof.Claims.Runs i s (fun t => kept t ∧ t.hub.links.paths = s.hub.links.paths ∧ counted (Sys2Proof.Machine.Reg.lnkCntMacsecFail l) t
          ∧ (Sys2Proof.Machine.tget 0 s.hub.links.macRec l = 0 → t.hub.get Sys2Proof.Machine.Reg.lnkEventMacsecFail = 1))))
     ∧ (good → s.hub.rxPath p = none → Sys2Proof.Machine.kmem s.hub.links.xoff l = false → s.hub.rxUse l ≤ 786432 → all (fun i => Sys2Proof.Claims.Runs i s (fun t => kept t
          ∧ Sys2Proof.Claims.SameRegsBut [frames] s t ∧ counted frames t ∧ t.hub.links = s.hub.links ∧ t.hub.sent = s.hub.sent)))
     ∧ (kind → ¬ own → check = 0x41) ∧ (own → gen ≠ x.gen.toNat → check = 0x0C) ∧ (own → gen = x.gen.toNat → state ≠ 1 → check = 0x0B)
     ∧ (kind → o = owner → gen = x.gen.toNat → state = 1 → ¬ keyed → check = 0x41)
     ∧ (kind → o = owner → gen = x.gen.toNat → state = 1 → keyed → ¬ inside → check = 0x42)
     ∧ (kind → o = owner → gen = x.gen.toNat → state = 1 → keyed → inside → stopped → check = 0x0A)
     ∧ (kind → o = owner → gen = x.gen.toNat → state = 1 → keyed → inside → ¬ stopped → (ty = 4 → fn ≤ 9) → check = 0)
     ∧ (kind → inTurn → check ≠ 0 → Sys2Proof.Claims.Runs req s (fun t => kept t ∧ next t ∧ wire 0x7 psn check 0 t ∧ t.hub.get drain = s.hub.get drain))
     ∧ (ty = 1 → runs → p.data.length = 32 → ¬ asks → q.unacked.length < 15 → Sys2Proof.Claims.Runs req s (fun t => t.mem = stored ∧ t.pending = s.pending
          ∧ t.hub.path l q.num = some { q with rxPsn := (q.rxPsn + 1) % 2 ^ 24, unacked := q.unacked ++ [die * 4096 + w] }
          ∧ (s.hub.get drain + 1 < 2 ^ drain.len → t.hub.get drain = s.hub.get drain + 1) ∧ t.hub.sent = s.hub.sent))
     ∧ (ty = 1 → runs → p.data.length = 32 → asks → q.unacked = [] → Sys2Proof.Claims.Runs req s (fun t => t.mem = stored ∧ t.pending = s.pending ∧ next t
          ∧ (s.hub.get drain + 1 < 2 ^ drain.len → t.hub.get drain = s.hub.get drain) ∧ wire 0x6 psn 0 0 t))
     ∧ (ty = 2 → runs → 0 < m → s.mem.badBits a m = 0 → ¬ asks → q.unacked = [] → Sys2Proof.Claims.Runs req s (fun t => kept t ∧ wire 0x3 psn (2 ^ 8 * m) old t
          ∧ t.hub.path l q.num = some { q with rxPsn := (q.rxPsn + 1) % 2 ^ 24, unacked := [8192] }
          ∧ (s.hub.get drain + 1 < 2 ^ drain.len → t.hub.get drain = s.hub.get drain)))
     ∧ (ty = 4 → runs → s.mem.badBits a m = 0 → Sys2Proof.Claims.Runs req s (fun t => t.mem = s.mem.storeBits a m new 0 ∧ t.pending = s.pending
          ∧ wire 0x5 psn (2 ^ 8 * m) old t ∧ (t.hub.path l q.num).map (fun y => (y.rxPsn, y.atomics)) =
            some ((q.rxPsn + 1) % 2 ^ 24, ((psn, Sys2Proof.Machine.leBytes m old) :: q.atomics).take 128)))
     ∧ (ty = 1 → onPath → s.hub.links.held = [] → q.reorder = [] → psn = last → Sys2Proof.Claims.Runs req s (fun t => kept t ∧ wire 0x6 psn 0 0 t
          ∧ t.hub.path l q.num = some { q with unacked := [] }))
     ∧ (ty = 4 → onPath → s.hub.links.held = [] → psn = last → q.atomics.find? (fun y => decide (y.1 = psn)) = some (psn, v) → Sys2Proof.Claims.Runs req s (fun t => kept t
          ∧ wire 0x5 psn (2 ^ 8 * v.length) (Sys2Proof.Machine.leNat v) t ∧ t.hub.path l q.num = some q))
     ∧ (kind → onPath → q.reorder = [] → 0 < ahead → ahead ≤ 128 → Sys2Proof.Claims.Runs req s (fun t => kept t
          ∧ t.hub.path l q.num = some { q with reorder := [.mem ty p x] }))
     ∧ (kind → onPath → 128 < ahead → ahead < 2 ^ 23 → Sys2Proof.Claims.Runs req s (fun t => kept t ∧ t.hub.path l q.num = some q))
     ∧ (good → s.hub.rxPath p = some q → p.ce = true → Sys2Proof.Machine.tget 0 s.hub.links.cnpAt (65536 * l + q.num) = 0 → Sys2Proof.Claims.Runs (.transportWrite p x) s (fun t =>
          counted (Sys2Proof.Machine.Reg.lnkCntCeRx l) t ∧ wire 0x8 0 0 0 t))
     ∧ (waits psn → r.type = 2 → Sys2Proof.Claims.Runs (.readResp p) s (fun t => gone t
          ∧ (t.hub.desc n ix).map (fun e => (e.got, e.ended)) = some (d.got ++ [(r.place, Sys2Proof.Machine.leNat p.data, p.flags.toNat.testBit 1)], none)))
     ∧ (waits psn → r.type ≠ 2 → Sys2Proof.Claims.Runs (.readResp p) s (fun t => kept t ∧ t.hub.path l q.num = some q ∧ t.hub.desc n ix = some d))
     ∧ (waits psn → r.type = 4 → Sys2Proof.Claims.Runs (.atomicResp p) s gone)
     ∧ (waits r.psn → upTo → r.type ≠ 2 → r.type ≠ 4 → Sys2Proof.Claims.Runs (.ack p ackPsn sack) s (fun t => gone t ∧ t.hub.desc n ix = some d))
     ∧ (waits r.psn → ¬ upTo ∨ r.type = 2 → Sys2Proof.Claims.Runs (.ack p ackPsn sack) s (fun t => kept t ∧ t.hub.path l q.num =
          some { q with out := [{ r with held := r.held || (decide (bit < 128) && sack.toNat.testBit bit) }] } ∧ t.hub.desc n ix = some d))
     ∧ (waits ackPsn.toNat → code ≠ 0x0B → Sys2Proof.Claims.Runs (.nak p ackPsn code) s (fun t => gone t
          ∧ (t.hub.desc n ix).map (·.ended) = some (some (code.toNat, r.place))))
     ∧ (waits ackPsn.toNat → code = 0x0B → Sys2Proof.Claims.Runs (.nak p ackPsn code) s (fun t => gone t
          ∧ (t.hub.desc n ix).map (fun e => (e.retry, e.ended)) = some (d.retry ++ [r], none)))
     ∧ (onPath → Sys2Proof.Claims.Runs (.cnp p) s (fun t => kept t ∧ counted (Sys2Proof.Machine.Reg.lnkCntCnpRx l) t ∧ (let al := 15 * q.alpha / 16 + 1 / 16
          t.hub.path l q.num = some { q with alpha := al, rate := max (1 / 10) (q.rate * (1 - al / 2)) }))))

/-- R374, R375, R377, R379, R381, R382, R393, R80: a path opens at both ends by PATH_OPEN and PATH_ACCEPT, sends its requests in PSN order as its rate
allows, sends one again that is not answered, and after RETRIES fails; its requests then end PEER_UNREACHABLE. A link that loses lock, or
stays paused too long, or whose quad fails, goes down and trains again. -/
def Obligations.PathsOpenSendResendAndClose : Prop :=
  ∀ (p : Sys2Proof.LinkPkt) (link : BitVec 7) (path : BitVec 16) (psn : BitVec 24) (prio : BitVec 3) (quad : BitVec 5) (peer : BitVec 12) (word : BitVec 64)
    (cmd : Sys2Proof.QCmd) (host : List (BitVec 8)) (s : Sys2Proof.Machine.State) (q : Sys2Proof.Machine.LPath) (r : Sys2Proof.Machine.OutReq) (tl : List Sys2Proof.Machine.OutReq) (n ix k : Nat) (d : Sys2Proof.Machine.Desc),
    (let l := p.link.toNat
     let good := s.hub.get (Sys2Proof.Machine.Reg.lnkStatusState l) = 2 ∧ s.hub.linkOwner l ≠ 31 ∧ s.hub.partState (s.hub.linkOwner l) ≠ 4 ∧ p.check = 0
       ∧ Sys2Proof.Machine.kmem s.hub.links.xoff l = false ∧ s.hub.rxUse l ≤ 786432
     let kept (t : Sys2Proof.Machine.State) : Prop := t.mem = s.mem ∧ t.pending = s.pending
     let calm := ∀ j < 16, (s.hub.site j).open' = [] ∧ (s.hub.site j).evts = []
     let sends (l : Nat) := s.hub.maySend l = true ∧ s.hub.txSak l = none ∧ (∀ e < 8, Sys2Proof.Machine.kmem s.hub.links.paused (8 * l + e) = false)
     let opened (l n : Nat) (t : Sys2Proof.Machine.State) : Prop := (t.hub.path l n).map (fun y => (y.ip, y.peerNum, y.rxPsn, y.isOpen)) =
       some (p.ip, p.srcPath.toNat, p.psn.toNat, true)
     let newcomer := s.hub.links.paths.all (fun y => decide (y.link ≠ l) || decide (y.ip ≠ p.ip)) = true ∧ n < 1024 ∧ s.hub.path l n = none
       ∧ ∀ j < n, s.hub.path l j ≠ none
     let known := s.hub.pathsOf l = [q] ∧ q.ip = p.ip
     let quiet := s.hub.links.waiting = []
     let row := s.hub.desc n ix = some d ∧ d.ended = none ∧ r.who = .row n ix
     let ended (st : Nat) (t : Sys2Proof.Machine.State) : Prop := (t.hub.desc n ix).map (·.ended) = some (some (st, r.place))
     let i := link.toNat
     let g := path.toNat
     let here := s.hub.path i g = some q
     let out (r : Sys2Proof.Machine.OutReq) (seq : Nat) (again : Nat) (t : Sys2Proof.Machine.State) : Prop := sends i → .frame i g r.type seq (2 * Sys2Proof.Machine.b2n r.poison + 4 * again + 2 ^ 8 * r.data.length)
       (q.peerNum + 2 ^ 16 * r.ext) (Sys2Proof.Machine.leNat r.data) ∈ t.hub.sent
     let tries := s.hub.get Sys2Proof.Machine.Reg.lnkCfgRetries
     let failed (t : Sys2Proof.Machine.State) : Prop := kept t ∧ t.hub.path i g = none ∧ t.hub.get Sys2Proof.Machine.Reg.lnkEventPathFailed = 1
     let up := s.hub.get (Sys2Proof.Machine.Reg.lnkStatusState i) = 2
     let data := s.hub.get Sys2Proof.Machine.Reg.lnkCfgDataPcp
     let key := 8 * i + prio.toNat
     let wentDown (i : Nat) (t : Sys2Proof.Machine.State) : Prop := kept t ∧ t.hub.get (Sys2Proof.Machine.Reg.lnkStatusState i) = 1 ∧ t.hub.pathsOf i = [] ∧ t.hub.get (Sys2Proof.Machine.Reg.lnkStatusPaused i) = 0
       ∧ t.hub.get Sys2Proof.Machine.Reg.lnkEventLinkDown = 1 ∧ t.hub.get (Sys2Proof.Machine.Reg.lnkStatusDowns i) = min (s.hub.get (Sys2Proof.Machine.Reg.lnkStatusDowns i) + 1) (2 ^ (Sys2Proof.Machine.Reg.lnkStatusDowns i).len - 1)
     let u := quad.toNat
     let e := peer.toNat
     let valid := s.hub.get (Sys2Proof.Machine.Reg.lnkPeerV e) = 1
     let ip := s.hub.get (Sys2Proof.Machine.Reg.lnkPeerIp e)
     let w := word.toNat
     let ks := Sys2Proof.Machine.qf cmd 0x10 1
     let dir := Sys2Proof.Machine.qf cmd 0x11 1
     let fits := Sys2Proof.Machine.qf cmd 1 1 < 4 ∧ Sys2Proof.Machine.qz cmd 5 0x10 = true ∧ Sys2Proof.Machine.qf cmd 4 1 = 0xFF ∧ ks < 48 * s.hub.dies ∧ dir < 2 ∧ Sys2Proof.Machine.qf cmd 0x12 1 < 4 ∧ Sys2Proof.Machine.qf cmd 0x13 1 < 2
       ∧ Sys2Proof.Machine.qz cmd 0x14 0x18 = true ∧ Sys2Proof.Machine.qz cmd 0x28 0x40 = true ∧ (Sys2Proof.Machine.qf cmd 0x13 1 = 1 ∨ Sys2Proof.Machine.qf cmd 0x20 8 < 2 ^ 32)
     (good → calm → newcomer → Sys2Proof.Claims.Runs (.pathOpen p) s (fun t => kept t ∧ opened l n t ∧ (t.hub.path l n).map (fun y => (y.rate, y.alpha, y.out.length)) = some (50, 1, 0)
          ∧ t.hub.get (Sys2Proof.Machine.Reg.lnkStatusPaths l) = (((s.hub.pathsOf l).filter (·.isOpen)).length + 1) % 2 ^ (Sys2Proof.Machine.Reg.lnkStatusPaths l).len
          ∧ (sends l → ∃ v < 2 ^ 24, .frame l n 0xA v 0 p.srcPath.toNat 0 ∈ t.hub.sent)))
     ∧ (good → calm → known → q.isOpen = true → q.peerNum = p.srcPath.toNat → q.out = [] → Sys2Proof.Claims.Runs (.pathOpen p) s (fun t => kept t ∧ t.hub.pathsOf l = [q]
          ∧ (sends l → .frame l q.num 0xA q.txPsn 0 q.peerNum 0 ∈ t.hub.sent)))
     ∧ (good → calm → known → q.isOpen = true → q.num = 0 → q.peerNum ≠ p.srcPath.toNat → q.out = [r] → q.queued = [] → quiet → row → r.type ≠ 0 →
          Sys2Proof.Claims.Runs (.pathOpen p) s (fun t => kept t ∧ opened l 0 t ∧ ended 0x0A t))
     ∧ (good → s.hub.path l p.dstPath.toNat = some q → q.ip = p.ip → q.isOpen = false → Sys2Proof.Claims.Runs (.pathAccept p) s (fun t => kept t ∧ opened l p.dstPath.toNat t
          ∧ (t.hub.path l p.dstPath.toNat).map (fun y => (y.queued, y.out, y.txPsn)) = some (q.queued, q.out, q.txPsn)))
     ∧ (good → s.hub.rxPath p = some q → q.isOpen = true → Sys2Proof.Claims.Runs (.pathAccept p) s (fun t => kept t ∧ t.hub.links = s.hub.links
          ∧ Sys2Proof.Claims.SameRegsBut [Sys2Proof.Machine.Reg.lnkCntRxFrames l] s t))
     ∧ (good → calm → s.hub.rxPath p = some q → q.unacked = [] → q.out = [r] → q.queued = [] → quiet → row → Sys2Proof.Claims.Runs (.pathClose p) s (fun t => kept t
          ∧ t.hub.path l q.num = none ∧ ended 0x0A t))
     ∧ (good → calm → s.hub.rxPath p = none → Sys2Proof.Claims.Runs (.pathClose p) s (fun t => kept t ∧ t.hub.links = s.hub.links ∧ Sys2Proof.Claims.SameRegsBut [Sys2Proof.Machine.Reg.lnkCntRxFrames l] s t))
     ∧ (here → q.queued = r :: tl → r.col = none → r.resends = 0 → s.hub.maySendReq q r = true → Sys2Proof.Claims.Runs (.pacedSend link path) s (fun t => kept t
          ∧ t.hub.path i g = some { q with queued := tl, out := q.out ++ [{ r with psn := q.txPsn }], txPsn := (q.txPsn + 1) % 2 ^ 24 }
          ∧ out r q.txPsn 0 t))
     ∧ (here → s.hub.maySendReq q r = true → q.isOpen = true ∧ q.out.length < 128)
     ∧ (s.hub.path i g = none ∨ (here ∧ (q.queued = [] ∨ (q.queued = r :: tl ∧ s.hub.maySendReq q r = false))) → Sys2Proof.Machine.exec (.pacedSend link path) s = .next s)
     ∧ (s.hub.path i g = none ∨ (here ∧ q.unacked = []) → Sys2Proof.Machine.exec (.ackTimer link path) s = .next s)
     ∧ (here → q.unacked = [k] → k < 8192 → s.hub.links.held = [] → q.reorder = [] → 0 < s.hub.get (Sys2Proof.Machine.Reg.winWttDrain (k / 4096) (k % 4096)) →
          Sys2Proof.Claims.Runs (.ackTimer link path) s (fun t => kept t ∧ t.hub.path i g = some { q with unacked := [] }
            ∧ t.hub.get (Sys2Proof.Machine.Reg.winWttDrain (k / 4096) (k % 4096)) = s.hub.get (Sys2Proof.Machine.Reg.winWttDrain (k / 4096) (k % 4096)) - 1
            ∧ (sends i → .frame i g 0x6 ((q.rxPsn + 2 ^ 24 - 1) % 2 ^ 24) 0 q.peerNum 0 ∈ t.hub.sent)))
     ∧ (calm → here → q.isOpen = true → q.out = [r] → r.psn = psn.toNat → r.held = false → r.col = none → r.resends < tries → Sys2Proof.Claims.Runs (.rtoExpiry link path psn) s (fun t =>
          kept t ∧ t.hub.path i g = some { q with out := [{ r with resends := r.resends + 1 }] } ∧ out r r.psn 1 t
            ∧ t.hub.get (Sys2Proof.Machine.Reg.lnkCntRetx i) = (s.hub.get (Sys2Proof.Machine.Reg.lnkCntRetx i) + 1) % 2 ^ (Sys2Proof.Machine.Reg.lnkCntRetx i).len))
     ∧ (calm → here → q.isOpen = true → q.out = [r] → r.psn = psn.toNat → r.held = false → tries ≤ r.resends → q.queued = [] → q.unacked = [] → quiet → row →
          Sys2Proof.Claims.Runs (.rtoExpiry link path psn) s (fun t => failed t ∧ ended 0x0A t))
     ∧ (calm → here → q.isOpen = true → q.out = [r] → r.psn ≠ psn.toNat ∨ r.held = true → Sys2Proof.Claims.Runs (.rtoExpiry link path psn) s (fun t => kept t
          ∧ t.hub.links = s.hub.links ∧ t.hub.regs = s.hub.regs))
     ∧ (calm → here → q.isOpen = false → q.openTries < tries → Sys2Proof.Claims.Runs (.rtoExpiry link path psn) s (fun t => kept t
          ∧ t.hub.path i g = some { q with openTries := q.openTries + 1 } ∧ (sends i → .frame i g 0x9 q.txPsn 4 0xFFFF 0 ∈ t.hub.sent)))
     ∧ (calm → here → q.isOpen = false → tries ≤ q.openTries → q.out = [] → q.queued = [] → quiet → Sys2Proof.Claims.Runs (.rtoExpiry link path psn) s failed)
     ∧ (here → Sys2Proof.Claims.Runs (.rateRecoveryTimer link path) s (fun t => kept t ∧ t.hub.regs = s.hub.regs
          ∧ t.hub.path i g = some { q with alpha := 15 * q.alpha / 16, rate := min 50 (q.rate + 1 / 2) }))
     ∧ (s.hub.path i g = none → Sys2Proof.Machine.exec (.rateRecoveryTimer link path) s = .next s)
     ∧ (¬ up → Sys2Proof.Machine.exec (.pfcFrame link prio true) s = .next s ∧ Sys2Proof.Machine.exec (.pfcFrame link prio false) s = .next s)
     ∧ (up → Sys2Proof.Claims.Runs (.pfcFrame link prio true) s (fun t => kept t ∧ Sys2Proof.Machine.kmem t.hub.links.paused key = true ∧ t.hub.sent = s.hub.sent
          ∧ t.hub.get (Sys2Proof.Machine.Reg.lnkStatusPaused i) = (if prio.toNat = data then 1 else s.hub.get (Sys2Proof.Machine.Reg.lnkStatusPaused i))
          ∧ Sys2Proof.Claims.SameRegsBut [Sys2Proof.Machine.Reg.lnkStatusPaused i] s t))
     ∧ (up → s.hub.links.txHeld = [] → Sys2Proof.Claims.Runs (.pfcFrame link prio false) s (fun t => kept t ∧ Sys2Proof.Machine.kmem t.hub.links.paused key = false
          ∧ t.hub.get (Sys2Proof.Machine.Reg.lnkStatusPaused i) = (if prio.toNat = data then 0 else s.hub.get (Sys2Proof.Machine.Reg.lnkStatusPaused i)) ∧ t.hub.sent = s.hub.sent))
     ∧ (up → s.hub.links.txHeld = [(i, prio.toNat, .frame i g 7 1 2 3 4)] → prio.toNat = s.hub.get Sys2Proof.Machine.Reg.lnkCfgCtrlPcp → s.hub.maySend i = true → s.hub.txSak i = none →
          Sys2Proof.Claims.Runs (.pfcFrame link prio false) s (fun t => kept t ∧ t.hub.sent = .frame i g 7 1 2 3 4 :: s.hub.sent ∧ t.hub.links.txHeld = []))
     ∧ (up → Sys2Proof.Machine.kmem s.hub.links.paused (8 * i + data) = true → Sys2Proof.Claims.Runs (.pfcWatchdog link) s (wentDown i))
     ∧ (calm → ¬ up ∨ Sys2Proof.Machine.kmem s.hub.links.paused (8 * i + data) = false → Sys2Proof.Claims.Runs (.pfcWatchdog link) s (fun t => kept t ∧ t.hub.links = s.hub.links
          ∧ t.hub.regs = s.hub.regs))
     ∧ (up → Sys2Proof.Claims.Runs (.lossOfLock link) s (wentDown i))
     ∧ (up → calm → s.hub.pathsOf i = [q] → q.out = [r] → q.queued = [] → quiet → row → Sys2Proof.Claims.Runs (.lossOfLock link) s (ended 0x40))
     ∧ (calm → ¬ up → Sys2Proof.Claims.Runs (.lossOfLock link) s (fun t => kept t ∧ t.hub.links = s.hub.links ∧ t.hub.regs = s.hub.regs))
     ∧ (s.hub.get (Sys2Proof.Machine.Reg.lnkStatusState i) = 1 → Sys2Proof.Claims.Runs (.linkUp link) s (fun t => kept t ∧ t.hub.get (Sys2Proof.Machine.Reg.lnkStatusState i) = 2 ∧ t.hub.get Sys2Proof.Machine.Reg.lnkEventLinkUp = 1
          ∧ Sys2Proof.Claims.SameRegsBut [Sys2Proof.Machine.Reg.lnkStatusState i, Sys2Proof.Machine.Reg.lnkEventLinkUp] s t))
     ∧ (s.hub.get (Sys2Proof.Machine.Reg.lnkStatusState i) ≠ 1 → Sys2Proof.Machine.exec (.linkUp link) s = .next s)
     ∧ (u < 12 * s.hub.dies → Sys2Proof.Claims.Runs (.quadFatal quad) s (fun t => kept t ∧ ∀ j < 4, t.hub.get (Sys2Proof.Machine.Reg.lnkStatusMacsecReady (4 * u + j)) = 0
          ∧ (t.hub.links.saks.all (fun k => decide (k.link ≠ 4 * u + j))) = true ∧ (s.hub.get (Sys2Proof.Machine.Reg.lnkStatusState (4 * u + j)) ≠ 0 →
            t.hub.get (Sys2Proof.Machine.Reg.lnkStatusState (4 * u + j)) = 1 ∧ t.hub.pathsOf (4 * u + j) = [])))
     ∧ (calm → 12 * s.hub.dies ≤ u → Sys2Proof.Claims.Runs (.quadFatal quad) s (fun t => kept t ∧ t.hub.links = s.hub.links ∧ t.hub.regs = s.hub.regs))
     ∧ (calm → ¬ valid → Sys2Proof.Claims.Runs (.lnkPeerWrite peer 0 word) s (fun t => kept t ∧ t.hub.get (Sys2Proof.Machine.Reg.lnkPeerIp e) = ip / 2 ^ 64 * 2 ^ 64 + w
          ∧ Sys2Proof.Claims.SameRegsBut [Sys2Proof.Machine.Reg.lnkPeerIp e] s t) ∧ Sys2Proof.Claims.Runs (.lnkPeerWrite peer 1 word) s (fun t => kept t
          ∧ t.hub.get (Sys2Proof.Machine.Reg.lnkPeerIp e) = w * 2 ^ 64 + ip % 2 ^ 64 ∧ Sys2Proof.Claims.SameRegsBut [Sys2Proof.Machine.Reg.lnkPeerIp e] s t))
     ∧ (calm → ¬ valid → Sys2Proof.Claims.Runs (.lnkPeerWrite peer 2 word) s (fun t => kept t ∧ t.hub.get (Sys2Proof.Machine.Reg.lnkPeerV e) = Sys2Proof.Machine.bits w 1 1
          ∧ t.hub.get (Sys2Proof.Machine.Reg.lnkPeerIpv4 e) = Sys2Proof.Machine.bits w 0 1 ∧ t.hub.get (Sys2Proof.Machine.Reg.lnkPeerPartition e) = Sys2Proof.Machine.bits w 2 5
          ∧ Sys2Proof.Claims.SameRegsBut [Sys2Proof.Machine.Reg.lnkPeerV e, Sys2Proof.Machine.Reg.lnkPeerIpv4 e, Sys2Proof.Machine.Reg.lnkPeerPartition e] s t))
     ∧ (calm → valid → Sys2Proof.Claims.Runs (.lnkPeerWrite peer 0 word) s (fun t => kept t ∧ t.hub.regs = s.hub.regs) ∧ Sys2Proof.Claims.Runs (.lnkPeerWrite peer 1 word) s (fun t => kept t
          ∧ t.hub.regs = s.hub.regs))
     ∧ (calm → valid → w.testBit 1 = true → Sys2Proof.Claims.Runs (.lnkPeerWrite peer 2 word) s (fun t => kept t ∧ t.hub.regs = s.hub.regs ∧ t.hub.links = s.hub.links))
     ∧ (valid → w.testBit 1 = false → i < 96 → here → q.peer = some e → Sys2Proof.Claims.Runs (.lnkPeerWrite peer 2 word) s (fun t => kept t
          ∧ t.hub.get (Sys2Proof.Machine.Reg.lnkPeerV e) = 0 ∧ t.hub.path i g = none))
     ∧ (Sys2Proof.Machine.exec (.lnkPeerWrite peer 3 word) s = .next (s.wroteBy 0).pumpAll)
     ∧ (cmd.fn ≠ 0 → Sys2Proof.Machine.exec (.linkSak cmd host) s = .next (s.done cmd 0x04 0))
     ∧ (cmd.fn = 0 → ¬ fits → Sys2Proof.Machine.exec (.linkSak cmd host) s = .next (s.done cmd 0x02 0))
     ∧ (cmd.fn = 0 → fits → s.hub.quiet 0 = false → host.length ≠ 48 → Sys2Proof.Machine.exec (.linkSak cmd host) s = .next (s.done cmd 0x06 0))
     ∧ (cmd.fn = 0 → fits → s.hub.quiet 0 = false → host.length = 48 → Sys2Proof.Claims.Runs (.linkSak cmd host) s (fun t => kept t
          ∧ .hostWrite 0 (Sys2Proof.Machine.qf cmd 0x18 8) 48 0 ∈ t.hub.sent ∧ t.hub.links.saks.head? = some ⟨ks, dir, Sys2Proof.Machine.qf cmd 0x12 1, Sys2Proof.Machine.qf cmd 0x13 1, host, Sys2Proof.Machine.qf cmd 0x20 8⟩
          ∧ (s.hub.links.saks.any (fun y => decide (y.link = ks) && decide (y.dir = 1 - dir)) = true → t.hub.get (Sys2Proof.Machine.Reg.lnkStatusMacsecReady ks) = 1))))

/-- R385, R389, R390: OPEN of a FREE or CLOSED window whose range its partition owns makes it OPEN under the next GEN; CLOSE drains an OPEN one, which is
CLOSED once nothing admitted is unanswered; FREE frees a CLOSED one. Every other control sets WR_ERR, an unowned range OPEN_ERR, and changes
nothing else of the entry. -/
def Obligations.WindowsOpenDrainAndFree : Prop :=
  ∀ (die : BitVec 1) (w : BitVec 12) (s : Sys2Proof.Machine.State),
    (let d := die.toNat
     let n := w.toNat
     let st := s.hub.get (Sys2Proof.Machine.Reg.winWttState d n)
     let lg := s.hub.get (Sys2Proof.Machine.Reg.winWttSizeLog2 d n)
     let base := s.hub.get (Sys2Proof.Machine.Reg.winWttBase d n)
     let p := s.hub.get (Sys2Proof.Machine.Reg.winWttPartition d n)
     let owned := s.hub.winOwned d n = true
     let there := d < s.hub.dies
     let kept (t : Sys2Proof.Machine.State) : Prop := t.mem = s.mem ∧ t.pending = s.pending
     let entry (t : Sys2Proof.Machine.State) (st gen : Nat) : Prop := t.hub.get (Sys2Proof.Machine.Reg.winWttState d n) = st ∧ t.hub.get (Sys2Proof.Machine.Reg.winWttGen d n) = gen
       ∧ t.hub.get (Sys2Proof.Machine.Reg.winWttBase d n) = base ∧ t.hub.get (Sys2Proof.Machine.Reg.winWttDrain d n) = s.hub.get (Sys2Proof.Machine.Reg.winWttDrain d n)
     let gen := s.hub.get (Sys2Proof.Machine.Reg.winWttGen d n)
     let refused (t : Sys2Proof.Machine.State) : Prop := kept t ∧ entry t st gen ∧ t.hub.get (Sys2Proof.Machine.Reg.winWttWrErr d n) = 1 ∧ t.hub.get Sys2Proof.Machine.Reg.lnkEventWinErr = 1
     (owned → p < 24 ∧ 16 ≤ lg ∧ lg ≤ 36 ∧ base % 2 ^ lg = 0)
     ∧ (owned → s.hub.region base = .stack → s.hub.halfOwner (Sys2Proof.Machine.halfOf base) = p ∧ s.hub.halfOwner (Sys2Proof.Machine.halfOf (base + 2 ^ lg - 1)) = p)
     ∧ (s.hub.region base = .window 0 0 → ¬ owned)
     ∧ (there → st = 0 ∨ st = 3 → owned → Sys2Proof.Claims.Runs (.winOpen die w) s (fun t => kept t ∧ entry t 1 ((gen + 1) % 2 ^ (Sys2Proof.Machine.Reg.winWttGen d n).len)
          ∧ Sys2Proof.Claims.SameRegsBut [Sys2Proof.Machine.Reg.winWttGen d n, Sys2Proof.Machine.Reg.winWttState d n] s t))
     ∧ (there → st = 0 ∨ st = 3 → ¬ owned → Sys2Proof.Claims.Runs (.winOpen die w) s (fun t => kept t ∧ entry t st gen ∧ t.hub.get (Sys2Proof.Machine.Reg.winWttOpenErr d n) = 1
          ∧ t.hub.get Sys2Proof.Machine.Reg.lnkEventWinErr = 1))
     ∧ (there → st = 1 ∨ st = 2 → Sys2Proof.Claims.Runs (.winOpen die w) s refused)
     ∧ (there → st = 1 → Sys2Proof.Claims.Runs (.winClose die w) s (fun t => kept t ∧ entry t 2 gen ∧ Sys2Proof.Claims.SameRegsBut [Sys2Proof.Machine.Reg.winWttState d n] s t))
     ∧ (there → st ≠ 1 → Sys2Proof.Claims.Runs (.winClose die w) s refused)
     ∧ (there → st = 3 → Sys2Proof.Claims.Runs (.winFree die w) s (fun t => kept t ∧ entry t 0 gen ∧ Sys2Proof.Claims.SameRegsBut [Sys2Proof.Machine.Reg.winWttState d n] s t))
     ∧ (there → st ≠ 3 → Sys2Proof.Claims.Runs (.winFree die w) s refused)
     ∧ (¬ there → Sys2Proof.Machine.exec (.winOpen die w) s = .next (s.wroteBy 0) ∧ Sys2Proof.Machine.exec (.winClose die w) s = .next (s.wroteBy 0)
          ∧ Sys2Proof.Machine.exec (.winFree die w) s = .next (s.wroteBy 0))
     ∧ (st = 2 → s.hub.get (Sys2Proof.Machine.Reg.winWttDrain d n) = 0 → Sys2Proof.Claims.Runs (.winDrained die w) s (fun t => kept t ∧ entry t 3 gen ∧ t.hub.get Sys2Proof.Machine.Reg.lnkEventWinDrained = 1
          ∧ Sys2Proof.Claims.SameRegsBut [Sys2Proof.Machine.Reg.winWttState d n, Sys2Proof.Machine.Reg.lnkEventWinDrained] s t))
     ∧ (st ≠ 2 ∨ s.hub.get (Sys2Proof.Machine.Reg.winWttDrain d n) ≠ 0 → Sys2Proof.Machine.exec (.winDrained die w) s = .next s))

namespace Sys2Proof.Claims

open Sys2Proof Machine

/-- The running collective of a group ended with a status and an origin (R398, R408, R409): its group is READY. -/
def Ended (g st origin : Nat) (c : ColGroup) (r : ColRun) (s t : State) : Prop :=
  t.hub.group g = some { c with run := none, chunks := c.chunks.filter (fun k => !decide (k.seq = r.seq)), paid := false, got := [] }
    ∧ t.hub.get (Reg.colGroupStatusState g) = 1 ∧ t.hub.get (Reg.colGroupStatusLastStatus g) = st
    ∧ t.hub.get (Reg.colGroupStatusLastOrigin g) = origin ∧ t.hub.get Reg.colEventAborted = 1 ∧ t.mem = s.mem ∧ t.pending = s.pending
    ∧ (t.hub.qp r.cmd.fn r.cmd.q).openCmds = (if 64 ≤ r.cmd.q ∨ s.hub.get (Reg.qStatusState r.cmd.fn r.cmd.q) = 0 then (s.hub.qp r.cmd.fn r.cmd.q).openCmds
        else (s.hub.qp r.cmd.fn r.cmd.q).openCmds.erase r.cmd)

/-- A packet of a group toward a rank, as it waits on a path (R402). -/
def packet (g : Nat) (c : ColGroup) (rank type step seq chunk arg part : Nat) (data : List Byte) : OutReq :=
  ⟨type, 0, 0, 0, 0, 0, 0, data, false, .collective g, seq, some ⟨BitVec.ofNat 32 c.gkey, BitVec.ofNat 8 (c.peers.getD rank (0xFFFF, 0)).2, BitVec.ofNat 8 step,
    BitVec.ofNat 12 c.rank, BitVec.ofNat 32 seq, BitVec.ofNat 32 chunk, BitVec.ofNat 32 arg, BitVec.ofNat 32 part⟩, 0, 0, false⟩

/-- The partition of a group has one UP link, whose one path leads to the peer of a rank. -/
def Reaches (h : Hub) (c : ColGroup) (q : LPath) (rank : Nat) : Prop :=
  (h.linksOf c.part).filter (fun l => h.linkUpNow l) = [q.link] ∧ h.pathsOf q.link = [q] ∧ q.peer ≠ none
    ∧ q.ip = BitVec.ofNat 128 (h.get (Reg.lnkPeerIp (c.peers.getD rank (0xFFFF, 0)).1))

end Sys2Proof.Claims

/-- R395, R397, R398, R404, R407: a group is made from its descriptor, checked whole; a command that names no group of its partition ends GROUP_UNKNOWN.
Posts are checked, queue on their group and run one at a time, each under the next SEQ with SLOTS credits; a post completes once it has
nothing left to do. COL_CANCEL and a missed deadline end it and tell every other member. -/
def Obligations.GroupsArePostedToAndEnded : Prop :=
  ∀ (cmd : Sys2Proof.QCmd) (gb : BitVec 6) (s : Sys2Proof.Machine.State) (a x : Nat) (c : Sys2Proof.Machine.ColGroup) (r : Sys2Proof.Machine.ColRun) (post : Sys2Proof.QCmd) (tl : List Sys2Proof.QCmd) (q : Sys2Proof.Machine.LPath),
    (let g := Sys2Proof.Machine.qf cmd 0x10 1
     let k := gb.toNat
     let check := s.hub.cmdCheck cmd true
     let p := s.hub.cmdPart cmd
     let kept (t : Sys2Proof.Machine.State) : Prop := t.mem = s.mem ∧ t.pending = s.pending
     let ends (i : Sys2Proof.Instr) (st : Nat) : Prop := Sys2Proof.Machine.exec i s = .next (s.done cmd st 0)
     let makes := check = 0 ∧ Sys2Proof.Machine.qz cmd 0x11 0x18 = true ∧ Sys2Proof.Machine.qz cmd 0x20 0x40 = true ∧ g < 64 ∧ s.hub.group g = none ∧ cmd.fn = 0
     let n := Sys2Proof.Machine.bits x 32 16
     let block := Sys2Proof.Machine.qf cmd 0x18 8 = a ∧ a % 128 = 0 ∧ n ≤ 8 ∧ Sys2Proof.Claims.InFloe s.hub a (64 + 8 * n) ∧ s.mem.rd a (64 + 8 * n) = x ∧ s.mem.badBits a (64 + 8 * n) = 0
     let good := s.hub.groupHead p x = true ∧ ((List.range n).all (fun i => s.hub.groupPeer p x (Sys2Proof.Machine.bits x 48 16) i)) = true
     let mine := check = 0 ∧ s.hub.group g = some c ∧ c.part = p
     let idle := Sys2Proof.Machine.qz cmd 0x11 0x40 = true
     let fits := Sys2Proof.Machine.postOk c.members cmd = true ∧ 4 ≤ c.chunkBytes / Sys2Proof.Machine.slotBytes cmd
     let may := s.hub.storeOk c.part (Sys2Proof.Machine.qf cmd 0x16 1) = true ∧ s.hub.storeOk c.part (Sys2Proof.Machine.qf cmd 0x15 1) = true
     let here := s.hub.group k = some c
     let seq := (s.hub.get (Sys2Proof.Machine.Reg.colGroupStatusSeq k) + 1) % 2 ^ 32
     let slots := c.chunkBytes / Sys2Proof.Machine.slotBytes post
     let unheld := c.chunks = []
     let isOver := s.hub.colOver k c r = true
     let told (g : Nat) (st : Nat) (t : Sys2Proof.Machine.State) : Prop := c.members = 2 → c.rank < 2 → Sys2Proof.Claims.Reaches s.hub c q (1 - c.rank) →
       (t.hub.path q.link q.num).map (·.queued) = some (q.queued ++ [Sys2Proof.Claims.packet g c (1 - c.rank) 0xF 0 r.seq 0 (st + 2 ^ 8 * c.rank) 0 []])
     (check ≠ 0 → ends (.colGroupCreate cmd) check ∧ ends (.colGroupDestroy cmd) check ∧ ends (.colPost cmd) check ∧ ends (.colCancel cmd) check)
     ∧ (check = 0 → 64 ≤ g ∨ s.hub.group g ≠ none → ends (.colGroupCreate cmd) 0x02)
     ∧ (makes → block → n < 2 → ends (.colGroupCreate cmd) 0x02)
     ∧ (makes → block → 2 ≤ n → ¬ good → ends (.colGroupCreate cmd) 0x02)
     ∧ (makes → block → 2 ≤ n → good → Sys2Proof.Claims.Runs (.colGroupCreate cmd) s (fun t => kept t ∧ t.hub.group g = some (Sys2Proof.Machine.ColGroup.make p x)
          ∧ t.hub.get (Sys2Proof.Machine.Reg.colGroupStatusState g) = 1 ∧ t.hub.get (Sys2Proof.Machine.Reg.colGroupStatusPartition g) = p ∧ t.hub.get (Sys2Proof.Machine.Reg.colGroupStatusMembers g) = n
          ∧ t.hub.get (Sys2Proof.Machine.Reg.colGroupStatusRank g) = Sys2Proof.Machine.bits x 48 16))
     ∧ (good → 2 ≤ n ∧ n ≤ 4096 ∧ Sys2Proof.Machine.bits x 48 16 < n ∧ Sys2Proof.Machine.bits x 128 64 % 4096 = 0 ∧ 0 < Sys2Proof.Machine.bits x 192 32)
     ∧ (check = 0 → idle → s.hub.group g = none ∨ (s.hub.group g = some c ∧ c.part ≠ p) → ends (.colGroupDestroy cmd) 0x46 ∧ ends (.colPost cmd) 0x46
          ∧ ends (.colCancel cmd) 0x46)
     ∧ (mine → idle → (c.run ≠ none ∨ c.posts ≠ []) → ends (.colGroupDestroy cmd) 0x0D)
     ∧ (mine → idle → c.run = none → c.posts = [] → Sys2Proof.Claims.Runs (.colGroupDestroy cmd) s (fun t => kept t ∧ t.hub.group g = none
          ∧ t.hub.get (Sys2Proof.Machine.Reg.colGroupStatusState g) = 0 ∧ t.hub.get (Sys2Proof.Machine.Reg.colGroupStatusSeq g) = 0))
     ∧ (mine → ¬ fits → ends (.colPost cmd) 0x02) ∧ (mine → fits → ¬ may → ends (.colPost cmd) 0x04)
     ∧ (mine → fits → may → Sys2Proof.Machine.exec (.colPost cmd) s = .next (s.onHub (·.setGroup g { c with posts := c.posts ++ [cmd] })))
     ∧ (Sys2Proof.Machine.postOk c.members cmd = true → Sys2Proof.Machine.qf cmd 0x11 1 ≤ 4 ∧ 1 ≤ Sys2Proof.Machine.qf cmd 0x2C 4 ∧ 2 * Sys2Proof.Machine.qf cmd 0x2C 4 ≤ Sys2Proof.Machine.qf cmd 0x30 4 ∧ 1 ≤ Sys2Proof.Machine.qf cmd 0x37 1
          ∧ Sys2Proof.Machine.qf cmd 0x37 1 ≤ 64 ∧ Sys2Proof.Machine.qf cmd 0x28 4 % (1024 * c.members) = 0)
     ∧ (s.hub.group k = none ∨ (here ∧ (c.run ≠ none ∨ c.posts = [])) → Sys2Proof.Machine.exec (.postStart gb) s = .next s)
     ∧ (here → c.run = none → c.posts = post :: tl → unheld → Sys2Proof.Machine.colOp post ≠ 3 → 0 < Sys2Proof.Machine.colChunks c.members post → 1 < c.members → Sys2Proof.Claims.Runs (.postStart gb) s (fun t => kept t
          ∧ t.hub.group k = some { c with posts := tl, run := some ⟨post, seq, 1, [], [], 0, false, [], false, false⟩, credits := slots, paid := false, got := [] }
          ∧ t.hub.get (Sys2Proof.Machine.Reg.colGroupStatusState k) = 2 ∧ t.hub.get (Sys2Proof.Machine.Reg.colGroupStatusSeq k) = seq ∧ t.hub.get (Sys2Proof.Machine.Reg.colGroupStatusExtUsedUs k) = 0))
     ∧ (here → c.run = some r → isOver → Sys2Proof.Claims.Runs (.postComplete gb) s (fun t => kept t
          ∧ t.hub.group k = some { c with run := none, chunks := c.chunks.filter (fun y => !decide (y.seq = r.seq)) }
          ∧ t.hub.get (Sys2Proof.Machine.Reg.colGroupStatusState k) = 1 ∧ t.hub.get (Sys2Proof.Machine.Reg.colGroupStatusLastStatus k) = 0))
     ∧ (s.hub.group k = none ∨ (here ∧ (c.run = none ∨ (c.run = some r ∧ ¬ isOver))) → Sys2Proof.Machine.exec (.postComplete gb) s = .next s)
     ∧ (mine → idle → c.run = none → ends (.colCancel cmd) 0)
     ∧ (mine → idle → c.run = some r → Sys2Proof.Claims.Runs (.colCancel cmd) s (fun t => t.hub.get (Sys2Proof.Machine.Reg.colGroupStatusLastStatus g) = 0x07
          ∧ (t.hub.group g).map (·.run) = some none ∧ t.hub.get (Sys2Proof.Machine.Reg.colGroupStatusState g) = 1 ∧ kept t ∧ told g 0x07 t))
     ∧ (here → c.run = some r → r.step ≤ Sys2Proof.Machine.colSteps c.members r.cmd → Sys2Proof.Claims.Runs (.stepDeadline gb) s (fun t => Sys2Proof.Claims.Ended k 0x44 c.rank c r s t ∧ told k 0x44 t))
     ∧ (s.hub.group k = none ∨ (here ∧ (c.run = none ∨ (c.run = some r ∧ Sys2Proof.Machine.colSteps c.members r.cmd < r.step))) → Sys2Proof.Machine.exec (.stepDeadline gb) s = .next s))

/-- R396, R399, R402, R403, R406, R408: a member sends a chunk while it holds a credit: a token of its own, or one received, from its slot. A part that
arrives for the running post lands in a slot, one of a later post waits, one of an earlier post only returns its credit, one of no group of the
link's partition is answered MISMATCH. Credits come back; notices extend the step; an abort is adopted and passed on. -/
def Obligations.CollectivePacketsActOnTheirGroup : Prop :=
  ∀ (p : Sys2Proof.LinkPkt) (x : Sys2Proof.ColExt) (gb : BitVec 6) (s : Sys2Proof.Machine.State) (c : Sys2Proof.Machine.ColGroup) (r : Sys2Proof.Machine.ColRun) (q : Sys2Proof.Machine.LPath) (y : Sys2Proof.Machine.ColChunk) (t' : Nat),
    (let k := gb.toNat
     let here := s.hub.group k = some c ∧ c.run = some r
     let n := c.members
     let op := Sys2Proof.Machine.colOp r.cmd
     let kept (t : Sys2Proof.Machine.State) : Prop := t.mem = s.mem ∧ t.pending = s.pending
     let group (t : Sys2Proof.Machine.State) := t.hub.group k
     let stuck := s.hub.colStuck k = true
     let queued (t : Sys2Proof.Machine.State) := (t.hub.path q.link q.num).map (·.queued)
     let oneLink := (s.hub.linksOf c.part).filter (fun l => s.hub.linkUpNow l)
     let spent (t : Sys2Proof.Machine.State) (step : Nat) : Prop := (group t).map (fun c => (c.credits, c.run.map (fun r => Sys2Proof.Machine.tget 0 r.sent step))) =
       some (c.credits - 1, some (Sys2Proof.Machine.tget 0 r.sent step + 1))
     let l := p.link.toNat
     let good := s.hub.get (Sys2Proof.Machine.Reg.lnkStatusState l) = 2 ∧ s.hub.linkOwner l ≠ 31 ∧ s.hub.partState (s.hub.linkOwner l) ≠ 4 ∧ p.check = 0
     let port := Sys2Proof.Machine.quadPort (l / 4)
     let inTurn := good ∧ s.hub.rxPath p = some q ∧ p.ce = false ∧ q.reorder = [] ∧ p.psn.toNat = q.rxPsn ∧ s.hub.links.held = [] ∧ s.hub.pathsOf l = [q]
       ∧ Sys2Proof.Machine.kmem s.hub.links.xoff l = false ∧ s.hub.get (Sys2Proof.Machine.Reg.qosPortRegEn port) = 0 ∧ (s.hub.qosPort port).held = []
     let ours := x.dstGroup.toNat = k ∧ c.part = s.hub.linkOwner l ∧ c.gkey % 2 ^ 32 = x.gkey.toNat
     let seq := x.seq.toNat
     let running := inTurn ∧ here ∧ ours ∧ seq = r.seq
     let moved (t : Sys2Proof.Machine.State) : Prop := t.pending = s.pending ∧ (t.hub.path l q.num).map (·.rxPsn) = some ((q.rxPsn + 1) % 2 ^ 24)
     let step := r.step + (x.step.toNat + 256 - r.step % 256) % 256
     let nb := Sys2Proof.Machine.colBytes n r.cmd (Sys2Proof.Machine.colWireF r.cmd) x.chunk.toNat
     let slot := c.chunkHpa
     let scratch := (match s.hub.region (slot + x.part.toNat) with | .scratch _ _ => true | _ => false) = true ∧ (slot + x.part.toNat) % 128 + 32 ≤ 128
       ∧ s.hub.get (Sys2Proof.Machine.Reg.colGroupStatusSlots k) ≠ 0
     let above := (seq + 2 ^ 32 - r.seq) % 2 ^ 32
     let later := 0 < above ∧ above < 2 ^ 31
     let arg := x.arg.toNat
     let used := min 50000 (r.extUsed + arg)
     let passed := Sys2Proof.Machine.colSteps n r.cmd < r.step
     (s.hub.group k = none ∨ (s.hub.group k = some c ∧ c.run = none) ∨ (here ∧ (c.credits = 0 ∨ stuck)) → Sys2Proof.Machine.exec (.chunkSend gb) s = .next s)
     ∧ (here → 0 < c.credits → ¬ stuck → c.nextStage r = none → c.nextForward r = none → Sys2Proof.Machine.exec (.chunkSend gb) s = .next s)
     ∧ (here → 0 < c.credits → ¬ stuck → (c.nextStage r ≠ none ∨ c.nextForward r ≠ none) → oneLink = [] → Sys2Proof.Claims.Runs (.chunkSend gb) s (Sys2Proof.Claims.Ended k 0x0A c.rank c r s))
     ∧ (here → 0 < c.credits → ¬ stuck → op = 4 → 2 ≤ n → Sys2Proof.Machine.tget 0 r.sent 1 = 0 → c.nextForward r = none → Sys2Proof.Claims.Reaches s.hub c q ((c.rank + 1) % n) →
          Sys2Proof.Claims.Runs (.chunkSend gb) s (fun t => kept t ∧ spent t 1 ∧ queued t = some (q.queued ++ [Sys2Proof.Claims.packet k c ((c.rank + 1) % n) 0xC 1 r.seq 0 0 0 []])))
     ∧ (here → 0 < c.credits → ¬ stuck → c.nextStage r = none → c.nextForward r = some (t', y) → Sys2Proof.Claims.Reaches s.hub c q ((c.rank + 1) % n) →
          Sys2Proof.Claims.Reaches s.hub c q ((c.rank + n - 1) % n) →
          (let m := Sys2Proof.Machine.colBytes n r.cmd (Sys2Proof.Machine.colWireF r.cmd) y.chunk
           let a := c.chunkHpa + y.slot * Sys2Proof.Machine.slotBytes r.cmd
           0 < m → m ≤ 4096 → (match s.hub.region a, s.hub.region (a + m - 1) with | .scratch u _, .scratch v _ => decide (u = v) | _, _ => false) = true →
             s.mem.badBits a m = 0 → Sys2Proof.Claims.Runs (.chunkSend gb) s (fun t => kept t ∧ spent t t' ∧ (group t).map (·.chunks) = some (c.chunks.filter (fun z => !z.is y))
               ∧ queued t = some (q.queued ++ [Sys2Proof.Claims.packet k c ((c.rank + 1) % n) 0xC (t' % 256) r.seq y.chunk 0 0 (Sys2Proof.Machine.leBytes m (s.mem.rd a m)),
                   Sys2Proof.Claims.packet k c ((c.rank + n - 1) % n) 0xD (y.step % 256) y.seq y.chunk 1 0 []]))))
     ∧ (inTurn → s.hub.group x.dstGroup.toNat = none ∨ (s.hub.group k = some c ∧ x.dstGroup.toNat = k ∧ ¬ ours) → Sys2Proof.Claims.Runs (.colData p x) s (fun t => kept t ∧ moved t
          ∧ t.hub.cols = s.hub.cols ∧ t.hub.get Sys2Proof.Machine.Reg.colEventMismatch = 1 ∧ (s.hub.maySend l = true → s.hub.txSak l = none →
            Sys2Proof.Machine.kmem s.hub.links.paused (8 * l + s.hub.get Sys2Proof.Machine.Reg.lnkCfgCtrlPcp) = false → .frame l q.num 0x7 q.rxPsn 0x45 q.peerNum 0 ∈ t.hub.sent)))
     ∧ (running → p.flags.toNat.testBit 1 = false → c.chunks = [] → op ≠ 4 → p.data.length = 32 → 32 < nb → x.part.toNat + 32 ≤ nb → scratch → ¬ stuck → step = r.step → r.step = 1 →
          Sys2Proof.Machine.recvSeg n c.rank r.cmd 1 ≠ none → Sys2Proof.Machine.tget 0 r.got 1 = 0 → Sys2Proof.Claims.Runs (.colData p x) s (fun t => moved t
            ∧ t.mem = s.mem.storeBits (slot + x.part.toNat) 32 (Sys2Proof.Machine.leNat p.data) 0
            ∧ (group t).map (·.chunks) = some [⟨seq, step, x.chunk.toNat, 0, [(x.part.toNat, 32)], [], false⟩]))
     ∧ (running → op = 4 → n = 2 → c.chunks = [] → p.data = [] → x.chunk = 0 → x.part = 0 → r.step = 1 → x.step = 1 → Sys2Proof.Machine.tget 0 r.got 1 = 0 → Sys2Proof.Machine.tget 0 r.got 2 = 0 →
          s.hub.get (Sys2Proof.Machine.Reg.colGroupStatusSlots k) ≠ 0 → ¬ stuck → s.hub.colHot r = false → Sys2Proof.Claims.Runs (.colData p x) s (fun t => kept t ∧ moved t
            ∧ (group t).map (fun c => (c.run.map (fun r => (r.step, Sys2Proof.Machine.tget 0 r.got 1)), c.chunks.map (·.ready))) = some (some (2, 1), [true])))
     ∧ (inTurn → here → ours → later → c.chunks = [] → x.step ≠ 0 → Sys2Proof.Claims.Runs (.colData p x) s (fun t => kept t ∧ moved t
          ∧ (group t).map (·.chunks) = some [⟨seq, x.step.toNat, x.chunk.toNat, 0, [], [(x.part.toNat, p.data, p.flags.toNat.testBit 1)], false⟩]))
     ∧ (inTurn → here → ours → seq ≠ r.seq → ¬ later → x.part ≠ 0 → Sys2Proof.Claims.Runs (.colData p x) s (fun t => kept t ∧ moved t ∧ t.hub.cols = s.hub.cols))
     ∧ (running → Sys2Proof.Claims.Runs (.colCredit p x) s (fun t => kept t ∧ moved t
          ∧ group t = some { c with credits := min (s.hub.get (Sys2Proof.Machine.Reg.colGroupStatusSlots k)) (c.credits + arg) }))
     ∧ (running → r.extStep = false → r.extUsed < 50000 → ¬ passed → Sys2Proof.Claims.Runs (.colSquall p x) s (fun t => kept t ∧ moved t
          ∧ group t = some { c with run := some { r with extUsed := used, extStep := true } } ∧ t.hub.get Sys2Proof.Machine.Reg.colEventSquallRx = 1
          ∧ t.hub.get (Sys2Proof.Machine.Reg.colGroupStatusExtUsedUs k) = used % 2 ^ (Sys2Proof.Machine.Reg.colGroupStatusExtUsedUs k).len
          ∧ t.hub.get (Sys2Proof.Machine.Reg.colGroupStatusSquallsRx k) = min (s.hub.get (Sys2Proof.Machine.Reg.colGroupStatusSquallsRx k) + 1) (2 ^ (Sys2Proof.Machine.Reg.colGroupStatusSquallsRx k).len - 1)))
     ∧ (running → r.extStep = true ∨ 50000 ≤ r.extUsed ∨ passed → Sys2Proof.Claims.Runs (.colSquall p x) s (fun t => kept t ∧ moved t ∧ t.hub.cols = s.hub.cols))
     ∧ (running → Sys2Proof.Claims.Runs (.colAbort p x) s (fun t => moved t ∧ Sys2Proof.Claims.Ended k (arg % 256) (arg / 256 % 4096) c r s t))
     ∧ (inTurn → here → ¬ ours ∨ seq ≠ r.seq → x.dstGroup.toNat = k → Sys2Proof.Claims.Runs (.colCredit p x) s (fun t => kept t ∧ moved t ∧ t.hub.cols = s.hub.cols)
          ∧ Sys2Proof.Claims.Runs (.colAbort p x) s (fun t => kept t ∧ moved t ∧ t.hub.cols = s.hub.cols)))

/-- R451-R457: an SPDM request is answered while the responder is up: in a session that is open, by its code; sessions take the lowest free identifier,
at most eight at once, and SEC_STATUS counts them. IDE keys are taken from the stream's own session while it does not run; a key set starts
and stops it. A TDISP message for a VF of a partition moves its interface between its states. Message codes are those of log entry 33. -/
def Obligations.SessionsKeysAndInterfaces : Prop :=
  ∀ (r : Sys2Proof.SpdmReq) (i : Sys2Proof.IdeReq) (d : Sys2Proof.TdispReq) (s : Sys2Proof.Machine.State) (id v blk : Nat),
    (let h := s.hub
     let gives (k a b : Nat) : Sys2Proof.Machine.State := s.onHub (·.send (.spdm k a b))
     let error (code data : Nat) := gives 0x7F code data
     let kept (t : Sys2Proof.Machine.State) : Prop := t.mem = s.mem ∧ t.pending = s.pending
     let answered (k a b : Nat) (t : Sys2Proof.Machine.State) : Prop := kept t ∧ t.hub.sent = .spdm k a b :: h.sent
     let tr := r.transport.toNat
     let activating := h.boot.activating = true
     let up := ¬ activating ∧ h.get Sys2Proof.Machine.Reg.secStatusReady = 1 ∧ h.life ≠ 3
     let talks := up ∧ (tr ≠ 0 ∨ h.boot.step = 10)
     let ss := r.session.toNat
     let inSession := ss ≠ 0 ∧ ss ∈ h.sec.sessions
     let known := talks ∧ (ss = 0 ∨ ss ∈ h.sec.sessions)
     let certs := h.hasCerts = true
     let c := r.code.toNat
     let run := Sys2Proof.Instr.spdmRequest r
     let sessions (l : List Nat) (t : Sys2Proof.Machine.State) : Prop := t.hub.sec.sessions = l ∧ t.hub.get Sys2Proof.Machine.Reg.secStatusSessions = l.length % 2 ^ Sys2Proof.Machine.Reg.secStatusSessions.len
       ∧ Sys2Proof.Claims.SameRegsBut [Sys2Proof.Machine.Reg.secStatusSessions] s t
     let four (P : Sys2Proof.Instr → Prop) : Prop := P (.query i) ∧ P (.keyProg i) ∧ P (.kSetGo i) ∧ P (.kSetStop i)
     let five (P : Sys2Proof.Instr → Prop) : Prop := P (.lockInterface d) ∧ P (.getDeviceInterfaceReport d) ∧ P (.startInterface d) ∧ P (.stopInterface d)
       ∧ P (.getDeviceInterfaceState d)
     let is := i.session.toNat
     let st := i.stream.toNat
     let cur := Sys2Proof.Machine.tget 0 h.sec.ideSess st
     let own := cur = is ∨ (cur ∉ h.sec.sessions ∧ (h.sec.ideSess.all (fun x => decide (x.1 = st) || decide (x.2 ≠ is))) = true)
     let taken := up ∧ is ∈ h.sec.sessions ∧ st ≤ 8 ∧ i.sub.toNat ≠ 3 ∧ own
     let goes (k : Nat) := Sys2Proof.Machine.kmem h.sec.ideGo (2 * st + k) = true
     let set := Sys2Proof.Machine.b2n i.keySet
     let going := h.streamGo st = true
     let key := st * 16 + set * 8 + Sys2Proof.Machine.b2n i.rxTx * 4 + i.sub.toNat
     let ses (t : Sys2Proof.Machine.State) : Prop := kept t ∧ Sys2Proof.Machine.tget 0 t.hub.sec.ideSess st = is
     let f := d.vf.toNat
     let p := h.vfOwner f
     let td := h.get (Sys2Proof.Machine.Reg.secTdispState f)
     let speaks := up ∧ d.session.toNat ∈ h.sec.sessions
     let bound := speaks ∧ h.vfOn f = true ∧ p ≠ 31
     let wrong := gives 0x207F 0x0004 f
     (activating → Sys2Proof.Machine.exec run s = .next (error 0x42 (15 + 2 ^ 16 * 12)) ∧ four (fun x => Sys2Proof.Machine.exec x s = .next (error 0x42 (15 + 2 ^ 16 * 12)))
        ∧ five (fun x => Sys2Proof.Machine.exec x s = .next (error 0x42 (15 + 2 ^ 16 * 12))))
     ∧ (¬ activating → ¬ talks → Sys2Proof.Machine.exec run s = .next s)
     ∧ (talks → ss ≠ 0 → ss ∉ h.sec.sessions → Sys2Proof.Machine.exec run s = .next (error 0x02 0))
     ∧ (known → c = 0x84 → Sys2Proof.Machine.exec run s = .next (gives 0x04 0 0x13)) ∧ (known → c = 0x81 → Sys2Proof.Machine.exec run s = .next (gives 0x01 (if h.hasCerts then 3 else 0) 0))
     ∧ (known → c = 0xE1 → Sys2Proof.Machine.exec run s = .next (gives 0x61 0 0x262F6))
     ∧ (known → c = 0x83 → r.p1 = 0 → r.ok = true → certs → Sys2Proof.Machine.exec run s = .next (gives 0x03 0 h.sec.aliasKeys))
     ∧ (known → c = 0xE0 → r.ok = true → (r.p1.toNat.testBit 0 = false ∨ r.slot = 0) → r.p2 = 0 → Sys2Proof.Machine.exec run s = .next (gives 0x60 0 50))
     ∧ (known → c = 0xE0 → r.ok = true → (r.p1.toNat.testBit 0 = false ∨ r.slot = 0) → r.p2 ≠ 0 → r.p2 ≠ 0xFF → h.measBlock r.p2.toNat = some blk →
          Sys2Proof.Machine.exec run s = .next (gives 0x60 r.p2.toNat blk))
     ∧ (known → c = 0xE0 → r.ok = true → r.p1.toNat.testBit 0 = true → r.slot ≠ 0 → Sys2Proof.Machine.exec run s = .next (error 0x07 0xE0))
     ∧ (h.measBlock 9 = some blk → Sys2Proof.Machine.bits blk 16 8 = h.life % 256 ∧ Sys2Proof.Machine.bits blk 24 8 = h.get Sys2Proof.Machine.Reg.cfgModeWhiteout % 256)
     ∧ (known → c = 0xE4 → r.ok = true → certs → h.sec.sessions.length < 8 → id < 16 → 0 < id → id ∉ h.sec.sessions → (∀ j < id, 0 < j → j ∈ h.sec.sessions) →
          Sys2Proof.Claims.Runs run s (fun t => answered 0x64 id 0 t ∧ sessions (h.sec.sessions ++ [id]) t))
     ∧ (known → c = 0xE4 → r.ok = true → certs → 8 ≤ h.sec.sessions.length → Sys2Proof.Machine.exec run s = .next (error 0x0A 0))
     ∧ (known → c = 0xE4 → (r.ok = false ∨ ¬ certs) → Sys2Proof.Machine.exec run s = .next (error 0x01 0))
     ∧ (talks → inSession → c = 0xEC → Sys2Proof.Claims.Runs run s (fun t => answered 0x6C ss 0 t ∧ sessions (h.sec.sessions.erase ss) t))
     ∧ (talks → inSession → c = 0xE5 → r.ok = false → Sys2Proof.Claims.Runs run s (fun t => answered 0x7F 0x06 0 t ∧ sessions (h.sec.sessions.erase ss) t))
     ∧ (talks → inSession → c = 0xE8 → Sys2Proof.Machine.exec run s = .next (gives 0x68 ss 0))
     ∧ (talks → ss = 0 → c ∈ [0xE5, 0xE8, 0xE9, 0xEC, 0xFE] → Sys2Proof.Machine.exec run s = .next (error 0x0B 0))
     ∧ (known → c ∉ [0x81, 0x82, 0x83, 0x84, 0x85, 0x86, 0xE0, 0xE1, 0xE3, 0xE4, 0xE5, 0xE8, 0xE9, 0xEC, 0xFE] → Sys2Proof.Machine.exec run s = .next (error 0x07 c))
     ∧ (¬ activating → ¬ up → four (fun x => Sys2Proof.Machine.exec x s = .next s) ∧ five (fun x => Sys2Proof.Machine.exec x s = .next s))
     ∧ (up → is ∉ h.sec.sessions → four (fun x => Sys2Proof.Machine.exec x s = .next (error (if is = 0 then 0x0B else 0x02) 0)))
     ∧ (up → is ∈ h.sec.sessions → (8 < st ∨ i.sub.toNat = 3 ∨ ¬ own) → four (fun x => Sys2Proof.Claims.Runs x s (fun t => kept t ∧ t.hub.sec = h.sec ∧ t.hub.regs = h.regs)))
     ∧ (taken → Sys2Proof.Claims.Runs (.query i) s (fun t => ses t ∧ answered 0x1001 st (2 ^ 8 * Sys2Proof.Machine.b2n (h.streamGo st)) t ∧ t.hub.sec.ideGo = h.sec.ideGo))
     ∧ (taken → ¬ going → Sys2Proof.Claims.Runs (.keyProg i) s (fun t => ses t ∧ answered 0x1003 st 0 t ∧ Sys2Proof.Machine.tlook t.hub.sec.ideKeys key = some i.key.toNat
          ∧ ∀ j, j ≠ key → Sys2Proof.Machine.tlook t.hub.sec.ideKeys j = Sys2Proof.Machine.tlook h.sec.ideKeys j))
     ∧ (taken → going → Sys2Proof.Claims.Runs (.keyProg i) s (fun t => ses t ∧ t.hub.sec.ideKeys = h.sec.ideKeys))
     ∧ (taken → Sys2Proof.Claims.Runs (.kSetGo i) s (fun t => ses t ∧ answered 0x1006 st 0 t ∧ t.hub.streamGo st = true
          ∧ (∀ k < 2, Sys2Proof.Machine.kmem t.hub.sec.ideGo (2 * st + k) = decide (k = set)) ∧ t.hub.regs = h.regs))
     ∧ (taken → goes set → st < 8 → ¬ goes (1 - set) → 1 ≤ v → v ≤ 48 → h.get (Sys2Proof.Machine.Reg.secTdispBound v) = 1 → h.get (Sys2Proof.Machine.Reg.secTdispStream v) = st → (h.get (Sys2Proof.Machine.Reg.secTdispState v) = 1
          ∨ h.get (Sys2Proof.Machine.Reg.secTdispState v) = 2) → Sys2Proof.Claims.Runs (.kSetStop i) s (fun t => ses t ∧ t.hub.streamGo st = false ∧ t.hub.get (Sys2Proof.Machine.Reg.secTdispState v) = 3
          ∧ t.hub.get Sys2Proof.Machine.Reg.secEventTdispError = 1 ∧ ∀ q < 64, h.get (Sys2Proof.Machine.Reg.qStatusState v q) ≠ 0 → t.hub.get (Sys2Proof.Machine.Reg.qStatusState v q) = 3))
     ∧ (taken → ¬ goes set → Sys2Proof.Claims.Runs (.kSetStop i) s (fun t => ses t ∧ answered 0x1006 st 0 t ∧ t.hub.regs = h.regs ∧ Sys2Proof.Machine.kmem t.hub.sec.ideGo (2 * st + set) = false))
     ∧ (up → d.session.toNat ∉ h.sec.sessions → five (fun x => Sys2Proof.Machine.exec x s = .next (error (if d.session = 0 then 0x0B else 0x02) 0)))
     ∧ (speaks → (h.vfOn f = false ∨ p = 31) → five (fun x => Sys2Proof.Machine.exec x s = .next (gives 0x207F 0x0101 f)))
     ∧ (bound → td = 0 → (h.partState p = 1 ∨ h.partState p = 2) → (h.get Sys2Proof.Machine.Reg.secObservedMap).testBit p = false → d.stream.toNat < 8 →
          Sys2Proof.Claims.Runs (.lockInterface d) s (fun t => answered 0x2003 f 0 t ∧ t.hub.get (Sys2Proof.Machine.Reg.secTdispState f) = 1 ∧ t.hub.get (Sys2Proof.Machine.Reg.secTdispBound f) = 1
            ∧ t.hub.get (Sys2Proof.Machine.Reg.secTdispStream f) = d.stream.toNat ∧ Sys2Proof.Claims.SameRegsBut [Sys2Proof.Machine.Reg.secTdispState f, Sys2Proof.Machine.Reg.secTdispBound f, Sys2Proof.Machine.Reg.secTdispStream f] s t))
     ∧ (bound → (td ≠ 0 ∨ (h.partState p ≠ 1 ∧ h.partState p ≠ 2) ∨ (h.get Sys2Proof.Machine.Reg.secObservedMap).testBit p = true) → Sys2Proof.Machine.exec (.lockInterface d) s = .next wrong)
     ∧ (bound → td = 1 ∨ td = 2 → Sys2Proof.Machine.exec (.getDeviceInterfaceReport d) s = .next (gives 0x2004 (f + 2 ^ 8 * p + 2 ^ 16 * h.get (Sys2Proof.Machine.Pci.bar0 f)) (h.partBlock p)))
     ∧ (bound → td ≠ 1 → td ≠ 2 → Sys2Proof.Machine.exec (.getDeviceInterfaceReport d) s = .next wrong)
     ∧ (bound → td = 1 → Sys2Proof.Claims.Runs (.startInterface d) s (fun t => answered 0x2006 f 0 t ∧ t.hub.get (Sys2Proof.Machine.Reg.secTdispState f) = 2
          ∧ Sys2Proof.Claims.SameRegsBut [Sys2Proof.Machine.Reg.secTdispState f] s t))
     ∧ (bound → td ≠ 1 → Sys2Proof.Machine.exec (.startInterface d) s = .next wrong)
     ∧ (bound → Sys2Proof.Claims.Runs (.stopInterface d) s (fun t => answered 0x2007 f 0 t ∧ t.hub.get (Sys2Proof.Machine.Reg.secTdispState f) = 0 ∧ t.hub.get (Sys2Proof.Machine.Reg.secTdispBound f) = 0
          ∧ ∀ q < 64, h.get (Sys2Proof.Machine.Reg.qStatusState f q) ≠ 0 → t.hub.get (Sys2Proof.Machine.Reg.qStatusState f q) = 3))
     ∧ (bound → Sys2Proof.Machine.exec (.getDeviceInterfaceState d) s = .next (gives 0x2005 f td)))

/-- R463, R465-R467, R472: installs of a partition run one at a time: header, range, conflict and key are checked in order, then a free domain is taken;
it is READY once every chunk is written, or goes with its granules on the first that fails. DOMAIN_REMOVE frees a READY domain, whose bytes
read zero. Debug needs its partition engaged and reads no domain. A transition wipes, programs the copies, and resets the hub. -/
def Obligations.DomainsDebugAndTransitions : Prop :=
  ∀ (cmd : Sys2Proof.QCmd) (dom : BitVec 6) (s : Sys2Proof.Machine.State) (x : Sys2Proof.Machine.Install) (hdr ck e : List (BitVec 8)) (u : BitVec 8) (d st k t' : Nat) (s1 s2 : Sys2Proof.Machine.State),
    (let h := s.hub
     let check := h.installCheck cmd
     let p := h.cmdPart cmd
     let fresh := h.sec.installs = []
     let kept (t : Sys2Proof.Machine.State) : Prop := t.mem = s.mem ∧ t.pending = s.pending
     let fails (st : Nat) : Prop := Sys2Proof.Machine.exec (.bundleInstall cmd) s = .next (s.onHub (fun h =>
       (h.complete cmd st 0).record { code := 0x0C01, cls := 0, part := p, inst := 0, d0 := st }))
     let s0 : Sys2Proof.Machine.State := s.onHub (fun h => { h with sec := { h.sec with installs := [⟨64, cmd, p, [], [], 0⟩] } })
     let asks := check = 0 ∧ fresh ∧ s0.cmdBytes cmd (Sys2Proof.Machine.qf cmd 0x10 8) 256 = .ok hdr s0
     let dest := Sys2Proof.Machine.qf cmd 0x18 8
     let len := Sys2Proof.Machine.bunF hdr 0x20 8
     let good := Sys2Proof.Machine.bundleOk hdr = true ∧ h.destOk p dest len = true
     let clear := s.destTaken p dest len = false
     let free := d < 64 ∧ h.get (Sys2Proof.Machine.Reg.secDomainState d) = 0 ∧ ∀ j < d, h.get (Sys2Proof.Machine.Reg.secDomainState j) ≠ 0
     let dm := dom.toNat
     let entry := h.sec.installs = [x] ∧ x.dom = dm
     let left := h.get (Sys2Proof.Machine.Reg.secDomainGranules dm) - h.get (Sys2Proof.Machine.Reg.secDomainDone dm)
     let rd := Sys2Proof.Machine.qf cmd 0x10 1
     let rbase := h.get (Sys2Proof.Machine.Reg.secDomainBase rd)
     let rlen := 65536 * h.get (Sys2Proof.Machine.Reg.secDomainGranules rd)
     let removes := h.cmdCheck cmd true = 0 ∧ Sys2Proof.Machine.qz cmd 0x11 0x40 = true ∧ rd < 64
     let q := Sys2Proof.Machine.qf cmd 4 1
     let dbg (a : Nat) := cmd.fn = 0 ∧ h.cmdCheck cmd true = 0 ∧ Sys2Proof.Machine.qz cmd a 0x40 = true ∧ h.partExists q = true
     let from' := Sys2Proof.Machine.qf cmd 0x10 8
     let n := Sys2Proof.Machine.qf cmd 0x20 4
     let engaged := (h.get Sys2Proof.Machine.Reg.secDebugMap).testBit q = true
     let reads := dbg 0x24 ∧ from' % 32 = 0 ∧ n % 32 = 0 ∧ n ≤ 2 ^ 20
     let may := ((List.range (n / 32)).all (fun i => h.debugMay q (from' + 32 * i))) = true
     let lc := h.boot.lc = some (k, t')
     (check ≠ 0 → fresh → fails check)
     ∧ (h.cmdCheck cmd true = 0 → Sys2Proof.Machine.qz cmd 0x20 0x40 = true → dest % 65536 = 0 → h.partExists p = false → check = 0x0D)
     ∧ (h.cmdCheck cmd true = 0 → dest % 65536 ≠ 0 → check = 0x02)
     ∧ (asks → ¬ good → Sys2Proof.Claims.Runs (.bundleInstall cmd) s (fun t => kept t ∧ t.hub.sec.installs = [] ∧ t.hub.get Sys2Proof.Machine.Reg.secStatusDomains = h.get Sys2Proof.Machine.Reg.secStatusDomains))
     ∧ (asks → good → clear → (∀ j < 64, h.get (Sys2Proof.Machine.Reg.secDomainState j) ≠ 0) → Sys2Proof.Claims.Runs (.bundleInstall cmd) s (fun t => kept t ∧ t.hub.sec.installs = []))
     ∧ (asks → good → clear → free → Sys2Proof.Machine.State.findUnit 18 s0 cmd from' 0 (Sys2Proof.Machine.bunF hdr 0x18 4) = .ok (u :: e) s0 →
          Sys2Proof.Config.unwrapKey h.perma.sealing h.perma.unit (Sys2Proof.Config.sha384 hdr) (Sys2Proof.Machine.bunB hdr 0x30 96) ((u :: e).drop 8) = some ck →
          Sys2Proof.Claims.Runs (.bundleInstall cmd) s (fun t => kept t ∧ t.hub.get (Sys2Proof.Machine.Reg.secDomainState d) = 1 ∧ t.hub.get (Sys2Proof.Machine.Reg.secDomainPartition d) = p
            ∧ t.hub.get (Sys2Proof.Machine.Reg.secDomainBase d) = dest ∧ t.hub.get (Sys2Proof.Machine.Reg.secDomainDone d) = 0 ∧ t.hub.get (Sys2Proof.Machine.Reg.secDomainGranules d) = len / 65536
            ∧ t.hub.sec.installs = [⟨d, cmd, p, hdr, ck, Sys2Proof.Config.sha384 hdr⟩]))
     ∧ (Sys2Proof.Machine.bundleOk hdr = true → 65536 ≤ len ∧ len % 65536 = 0 ∧ 1 ≤ Sys2Proof.Machine.bunF hdr 0x18 4)
     ∧ (h.destOk p dest len = true → dest % 65536 = 0 ∧ h.halfOwner (Sys2Proof.Machine.halfOf dest) = p)
     ∧ (h.get (Sys2Proof.Machine.Reg.secDomainState dm) ≠ 1 → Sys2Proof.Machine.exec (.bundleInstallComplete dom) s = .next s)
     ∧ (h.get (Sys2Proof.Machine.Reg.secDomainState dm) = 1 → entry → Sys2Proof.Machine.State.chunks left s x = .done s1 → Sys2Proof.Claims.Runs (.bundleInstallComplete dom) s (fun t => t.mem = s1.mem
          ∧ t.hub.get (Sys2Proof.Machine.Reg.secDomainState dm) = 2 ∧ t.hub.get Sys2Proof.Machine.Reg.secEventDomain = 1 ∧ (s1.hub.sec.installs = [x] → t.hub.sec.installs = [])))
     ∧ (h.get (Sys2Proof.Machine.Reg.secDomainState dm) = 1 → entry → Sys2Proof.Machine.State.chunks left s x = .fail st s2 → s2.hub.get (Sys2Proof.Machine.Reg.secDomainState dm) = 1 → s2.hub.sec.installs = [x] → st ≠ 0 →
          Sys2Proof.Claims.Runs (.bundleInstallComplete dom) s (fun t => t.hub.get (Sys2Proof.Machine.Reg.secDomainState dm) = 0 ∧ t.hub.sec.installs = []
            ∧ t.hub.get Sys2Proof.Machine.Reg.secStatusDomains = (s2.hub.get Sys2Proof.Machine.Reg.secStatusDomains - 1)))
     ∧ (h.get (Sys2Proof.Machine.Reg.secDomainState dm) = 1 → entry → Sys2Proof.Machine.State.chunks left s x = .wait s2 → Sys2Proof.Machine.exec (.bundleInstallComplete dom) s = .next s2)
     ∧ (removes → h.get (Sys2Proof.Machine.Reg.secDomainState rd) = 0 → Sys2Proof.Machine.exec (.domainRemove cmd) s = .next (s.done cmd 0x02 0))
     ∧ (removes → h.get (Sys2Proof.Machine.Reg.secDomainState rd) ≠ 0 → h.get (Sys2Proof.Machine.Reg.secDomainPartition rd) ≠ p → Sys2Proof.Machine.exec (.domainRemove cmd) s = .next (s.done cmd 0x04 0))
     ∧ (removes → h.get (Sys2Proof.Machine.Reg.secDomainState rd) = 1 → h.get (Sys2Proof.Machine.Reg.secDomainPartition rd) = p → Sys2Proof.Machine.exec (.domainRemove cmd) s = .next (s.done cmd 0x0D 0))
     ∧ (removes → h.get (Sys2Proof.Machine.Reg.secDomainState rd) = 2 → h.get (Sys2Proof.Machine.Reg.secDomainPartition rd) = p → Sys2Proof.Claims.Runs (.domainRemove cmd) s (fun t => t.pending = s.pending
          ∧ t.hub.get (Sys2Proof.Machine.Reg.secDomainState rd) = 0 ∧ t.hub.get Sys2Proof.Machine.Reg.secEventDomain = 1 ∧ t.hub.get Sys2Proof.Machine.Reg.secStatusDomains = h.get Sys2Proof.Machine.Reg.secStatusDomains - 1
          ∧ (∀ a, rbase ≤ a → a < rbase + rlen → t.mem.byte a = 0) ∧ ∀ a, a < rbase ∨ rbase + rlen ≤ a → t.mem.byte a = s.mem.byte a))
     ∧ (cmd.fn ≠ 0 → Sys2Proof.Machine.exec (.debugEngage cmd) s = .next (s.done cmd 0x04 0) ∧ Sys2Proof.Machine.exec (.debugRelease cmd) s = .next (s.done cmd 0x04 0)
          ∧ Sys2Proof.Machine.exec (.debugRead cmd) s = .next (s.done cmd 0x04 0))
     ∧ (dbg 0x10 → Sys2Proof.Claims.Runs (.debugEngage cmd) s (fun t => kept t ∧ (t.hub.get Sys2Proof.Machine.Reg.secDebugMap).testBit q = true ∧ (t.hub.get Sys2Proof.Machine.Reg.secObservedMap).testBit q = true
          ∧ t.hub.get Sys2Proof.Machine.Reg.secEventObserved = 1 ∧ ∀ v ∈ h.vfsOf q, (h.get (Sys2Proof.Machine.Reg.secTdispState v) = 1 ∨ h.get (Sys2Proof.Machine.Reg.secTdispState v) = 2) → t.hub.get (Sys2Proof.Machine.Reg.secTdispState v) = 3))
     ∧ (dbg 0x10 → Sys2Proof.Claims.Runs (.debugRelease cmd) s (fun t => kept t ∧ (t.hub.get Sys2Proof.Machine.Reg.secDebugMap).testBit q = false
          ∧ t.hub.get Sys2Proof.Machine.Reg.secObservedMap = h.get Sys2Proof.Machine.Reg.secObservedMap))
     ∧ (cmd.fn = 0 → h.cmdCheck cmd true = 0 → Sys2Proof.Machine.qz cmd 0x10 0x40 = true → h.partExists q = false → Sys2Proof.Machine.exec (.debugEngage cmd) s = .next (s.done cmd 0x0D 0)
          ∧ Sys2Proof.Machine.exec (.debugRelease cmd) s = .next (s.done cmd 0x0D 0))
     ∧ (reads → ¬ engaged → Sys2Proof.Machine.exec (.debugRead cmd) s = .next (s.done cmd 0x0D 0))
     ∧ (reads → engaged → ¬ may → Sys2Proof.Machine.exec (.debugRead cmd) s = .next (s.done cmd 0x04 0))
     ∧ (reads → engaged → may → h.quiet 0 = false → n ≤ 128 → Sys2Proof.Claims.InFloe h from' n → s.mem.badBits from' n = 0 → Sys2Proof.Machine.exec (.debugRead cmd) s =
          .next ((s.onHub (·.send (.hostWrite 0 (Sys2Proof.Machine.qf cmd 0x18 8) n (s.mem.rd from' n)))).done cmd 0 n))
     ∧ (h.region from' = .stack → h.debugMay q from' = true → h.domainAt from' = none ∧ h.halfOwner (Sys2Proof.Machine.halfOf from') = q)
     ∧ (h.boot.lc = none → Sys2Proof.Machine.exec .lcTransitionStep s = .next s)
     ∧ (lc → k = 2 → Sys2Proof.Claims.Runs .lcTransitionStep s (fun t => kept t ∧ t.hub.boot.lc = some (3, t') ∧ t.hub.perma.owner0 = 2 ^ 384 - 1
          ∧ t.hub.perma.owner1 = 2 ^ 384 - 1 ∧ t.hub.perma.sealing = 2 ^ 256 - 1 ∧ t.hub.regs = h.regs))
     ∧ (lc → k = 3 → Sys2Proof.Claims.Runs .lcTransitionStep s (fun t => kept t ∧ t.hub.boot.lc = some (4, t') ∧ t.hub.regs = h.regs
          ∧ t.hub.perma.copies = h.perma.copies.map (Sys2Proof.Machine.programCopy (Sys2Proof.Machine.lifeCode t')) ∧ t.hub.perma.intents = h.perma.intents))
     ∧ (lc → k ≠ 2 → k ≠ 3 → Sys2Proof.Claims.CanReset s → Sys2Proof.Claims.Runs .lcTransitionStep s (fun t => Sys2Proof.Claims.AfterHubReset Sys2Proof.Machine.Reg.glbResetCauseSoft h s.pending t ∧ t.hub.boot.lc = none)))

/-- The block's step: it takes the command at the front of the queue and runs it on the machine with the queue's rest; on an empty queue it idles,
which is the model's choice (log entry 10). -/
def Obligations.AStepRunsTheCommandAtTheFront : Prop :=
  ∀ (c : Sys2Proof.Instr) (s : Sys2Proof.Machine.State), Sys2Proof.Machine.step { s with pending := c :: s.pending } = Sys2Proof.Machine.exec c s ∧ (s.pending = [] → Sys2Proof.Machine.step s = .next s)

/-- The byte memory, the cells of DIAG stacks, the lines of Firn and the poison marks keep their one canonical form over every step, whatever the
command and the state (the form is the model's: log entry 5 says what an unlisted byte reads as). -/
def Obligations.EveryStepKeepsTheMemoryCanonical : Prop :=
  ∀ s t : Sys2Proof.Machine.State, Sys2Proof.Safe s → Sys2Proof.Machine.step s = .next t → Sys2Proof.Safe t

/-- R48, R57, R58, R69, R481 and the reset column of the register tables: right after a cold reset the queue is empty, memory lists nothing and is
canonical, boot step 1 runs, nothing else has begun, and registers hold the values their chapters give. -/
def Obligations.ResetLeavesTheStatedValues : Prop :=
  Sys2Proof.Safe Sys2Proof.Machine.State.reset ∧ Sys2Proof.Machine.State.reset.pending = [] ∧ Sys2Proof.Machine.State.reset.mem.bytes = [] ∧ Sys2Proof.Machine.State.reset.mem.lines = [] ∧ Sys2Proof.Machine.State.reset.mem.poison = []
    ∧ (let h := Sys2Proof.Machine.State.reset.hub
       h.get Sys2Proof.Machine.Reg.glbBootStatusStage = 1 ∧ h.get Sys2Proof.Machine.Reg.glbResetCausePorst = 1 ∧ h.get Sys2Proof.Machine.Reg.cfgEpochEpoch = 1 ∧ h.get Sys2Proof.Machine.Reg.cfgOwnerOwnerIf = 0 ∧ h.cfg.staged = []
         ∧ h.get Sys2Proof.Machine.Reg.cfgExpiryIdleS = 60 ∧ h.get Sys2Proof.Machine.Reg.glbIdVendor = 0x1F3C ∧ h.get Sys2Proof.Machine.Reg.glbIdDevice = 0xE960 ∧ h.get Sys2Proof.Machine.Reg.flcInfoCores = 128
         ∧ h.get Sys2Proof.Machine.Reg.frnInfoSlices = 96 ∧ h.get Sys2Proof.Machine.Reg.frnInfoWays = 16 ∧ h.get Sys2Proof.Machine.Reg.frnInfoSets = 2048 ∧ h.get Sys2Proof.Machine.Reg.drfInfoStreams = 32768
         ∧ h.get Sys2Proof.Machine.Reg.xltInfoAsids = 4096 ∧ h.get Sys2Proof.Machine.Reg.qInfoQueues = 64 ∧ h.get Sys2Proof.Machine.Reg.hstInfoWindows = 1024 ∧ h.get Sys2Proof.Machine.Reg.prtStopStopMs = 1000
         ∧ h.get Sys2Proof.Machine.Reg.lnkCfgUdpPort = 59744 ∧ h.get Sys2Proof.Machine.Reg.lnkCfgRtoUs = 100 ∧ h.get Sys2Proof.Machine.Reg.lnkCfgRetries = 7 ∧ h.get Sys2Proof.Machine.Reg.lnkCfgDataPcp = 3 ∧ h.get Sys2Proof.Machine.Reg.lnkCfgCtrlPcp = 6
         ∧ h.get Sys2Proof.Machine.Reg.isoThermCfgThrottleC = 100 ∧ h.get Sys2Proof.Machine.Reg.isoThermCfgCritC = 110 ∧ h.get Sys2Proof.Machine.Reg.morInfoSlots = 4096 ∧ h.get Sys2Proof.Machine.Reg.morNextSeqSeq = 1 ∧ h.mor = []
         ∧ (∀ p, p < 24 → h.get (Sys2Proof.Machine.Reg.prtStatusState p) = 0) ∧ (∀ q, q < 64 → h.get (Sys2Proof.Machine.Reg.qStatusState 0 q) = 0) ∧ h.sea = Sys2Proof.Machine.Sea.rst ∧ h.links = Sys2Proof.Machine.Links.rst
         ∧ h.alm = Sys2Proof.Machine.Alm.rst ∧ h.sec = Sys2Proof.Machine.Sec.rst ∧ h.tags = [] ∧ h.pba = [])
end

