-- ==== Sys2Proof/Laws/Tab.lean ====
section
/-! SUPPORT. Reading a table after a change: at the key changed, and at every other key; the canonical form is kept. -/

namespace Sys2Proof.Machine

variable {α : Type}

@[simp] theorem tlook_nil (k : Nat) : tlook ([] : Tab α) k = none := rfl

@[simp] theorem tlook_terase_same (t : Tab α) (k : Nat) : tlook (terase t k) k = none := by
  induction t with
  | nil => rfl
  | cons p t ih =>
    obtain ⟨a, v⟩ := p
    by_cases h : a = k <;> simp [terase, tlook, h, ih]

theorem tlook_terase_ne (t : Tab α) {k j : Nat} (h : j ≠ k) : tlook (terase t k) j = tlook t j := by
  induction t with
  | nil => rfl
  | cons p t ih =>
    obtain ⟨a, v⟩ := p
    by_cases ha : a = k
    · have : a ≠ j := fun e => h (e ▸ ha)
      simp [terase, ha, ih, tlook]
      intro e; exact absurd e.symm h
    · simp [terase, ha, tlook, ih]

theorem tlook_tins_same (t : Tab α) (k : Nat) (v : α) (h : tlook t k = none) : tlook (tins t k v) k = some v := by
  induction t with
  | nil => simp [tins, tlook]
  | cons p t ih =>
    obtain ⟨a, w⟩ := p
    by_cases ha : a = k
    · simp [tlook, ha] at h
    · simp only [tlook, ha, if_false] at h
      by_cases hl : k < a
      · simp [tins, hl, tlook]
      · simp [tins, hl, tlook, ha, ih h]

theorem tlook_tins_ne (t : Tab α) {k j : Nat} (v : α) (h : j ≠ k) : tlook (tins t k v) j = tlook t j := by
  induction t with
  | nil => simp [tins, tlook, Ne.symm h]
  | cons p t ih =>
    obtain ⟨a, w⟩ := p
    by_cases hl : k < a
    · simp [tins, hl, tlook, Ne.symm h]
    · simp [tins, hl, tlook, ih]

@[simp] theorem tlook_tput_same (t : Tab α) (k : Nat) (v : α) : tlook (tput t k v) k = some v :=
  tlook_tins_same _ _ _ (tlook_terase_same t k)

theorem tlook_tput_ne (t : Tab α) {k j : Nat} (v : α) (h : j ≠ k) : tlook (tput t k v) j = tlook t j := by
  rw [tput, tlook_tins_ne _ _ h, tlook_terase_ne _ h]

@[simp] theorem tget_tset_same [DecidableEq α] (d : α) (t : Tab α) (k : Nat) (v : α) : tget d (tset d t k v) k = v := by
  by_cases h : v = d <;> simp [tget, tset, h]

theorem tget_tset_ne [DecidableEq α] (d e : α) (t : Tab α) {k j : Nat} (v : α) (h : j ≠ k) : tget e (tset d t k v) j = tget e t j := by
  by_cases hv : v = d <;> simp [tget, tset, hv, tlook_terase_ne _ h, tlook_tput_ne _ _ h]

theorem tget_tset [DecidableEq α] (d : α) (t : Tab α) (k j : Nat) (v : α) : tget d (tset d t k v) j = if j = k then v else tget d t j := by
  by_cases h : j = k
  · subst h; simp
  · simp [h, tget_tset_ne d d t v h]

-- The canonical form

theorem tsorted_tail {p : Nat × α} {t : Tab α} (h : tsorted (p :: t) = true) : tsorted t = true := by
  obtain ⟨a, v⟩ := p
  cases t with
  | nil => rfl
  | cons q t => obtain ⟨b, w⟩ := q; simp [tsorted] at h; exact h.2

/-- Every key of a rising table lies above the first. -/
theorem tsorted_head {k : Nat} {v : α} {t : Tab α} (h : tsorted ((k, v) :: t) = true) : ∀ p ∈ t, k < p.1 := by
  induction t generalizing k v with
  | nil => simp
  | cons q t ih =>
    obtain ⟨b, w⟩ := q
    simp [tsorted] at h
    intro p hp
    rcases List.mem_cons.1 hp with rfl | hp
    · exact h.1
    · exact Nat.lt_trans h.1 (ih h.2 p hp)

theorem tsorted_cons {k : Nat} {v : α} {t : Tab α} (h : ∀ p ∈ t, k < p.1) (ht : tsorted t = true) : tsorted ((k, v) :: t) = true := by
  cases t with
  | nil => rfl
  | cons q t => obtain ⟨b, w⟩ := q; simp [tsorted, ht]; exact h (b, w) (by simp)

theorem mem_terase {t : Tab α} {k : Nat} {p : Nat × α} (h : p ∈ terase t k) : p ∈ t ∧ p.1 ≠ k := by
  induction t with
  | nil => simp [terase] at h
  | cons q t ih =>
    obtain ⟨a, v⟩ := q
    by_cases ha : a = k
    · simp [terase, ha] at h; have := ih h; exact ⟨by simp [this.1], this.2⟩
    · simp [terase, ha] at h
      rcases h with rfl | h
      · exact ⟨by simp, ha⟩
      · have := ih h; exact ⟨by simp [this.1], this.2⟩

theorem mem_tins {t : Tab α} {k : Nat} {v : α} {p : Nat × α} (h : p ∈ tins t k v) : p = (k, v) ∨ p ∈ t := by
  induction t with
  | nil => simpa [tins] using h
  | cons q t ih =>
    obtain ⟨a, w⟩ := q
    by_cases hl : k < a
    · simpa [tins, hl] using h
    · simp [tins, hl] at h
      rcases h with rfl | h
      · simp
      · rcases ih h with h | h <;> simp [h]

theorem tsorted_terase {t : Tab α} (k : Nat) (h : tsorted t = true) : tsorted (terase t k) = true := by
  induction t with
  | nil => rfl
  | cons q t ih =>
    obtain ⟨a, v⟩ := q
    by_cases ha : a = k
    · simp [terase, ha, ih (tsorted_tail h)]
    · simp only [terase, ha, if_false]
      exact tsorted_cons (fun p hp => tsorted_head h p (mem_terase hp).1) (ih (tsorted_tail h))

theorem tsorted_tins {t : Tab α} {k : Nat} (v : α) (h : tsorted t = true) (hk : ∀ p ∈ t, p.1 ≠ k) : tsorted (tins t k v) = true := by
  induction t with
  | nil => rfl
  | cons q t ih =>
    obtain ⟨a, w⟩ := q
    have ha : a ≠ k := hk (a, w) (by simp)
    by_cases hl : k < a
    · simp [tins, hl, tsorted, h]
    · simp only [tins, hl, if_false]
      refine tsorted_cons (fun p hp => ?_) (ih (tsorted_tail h) (fun p hp => hk p (by simp [hp])))
      rcases mem_tins hp with rfl | hp
      · omega
      · exact tsorted_head h p hp

theorem tsorted_tput {t : Tab α} (k : Nat) (v : α) (h : tsorted t = true) : tsorted (tput t k v) = true :=
  tsorted_tins v (tsorted_terase k h) (fun _ hp => (mem_terase hp).2)

theorem tsorted_tset [DecidableEq α] (d : α) {t : Tab α} (k : Nat) (v : α) (h : tsorted t = true) : tsorted (tset d t k v) = true := by
  unfold tset; split
  · exact tsorted_terase k h
  · exact tsorted_tput k v h

theorem tcanon_tset [DecidableEq α] {d : α} {t : Tab α} (k : Nat) (v : α) (h : tcanon d t = true) : tcanon d (tset d t k v) = true := by
  simp only [tcanon, Bool.and_eq_true, List.all_eq_true, decide_eq_true_eq] at h ⊢
  refine ⟨tsorted_tset d k v h.1, fun p hp => ?_⟩
  unfold tset at hp; split at hp
  · exact h.2 p (mem_terase hp).1
  · rcases mem_tins hp with rfl | hp
    · assumption
    · exact h.2 p (mem_terase hp).1

theorem tcanon_terase [DecidableEq α] {d : α} {t : Tab α} (k : Nat) (h : tcanon d t = true) : tcanon d (terase t k) = true := by
  simp only [tcanon, Bool.and_eq_true, List.all_eq_true, decide_eq_true_eq] at h ⊢
  exact ⟨tsorted_terase k h.1, fun p hp => h.2 p (mem_terase hp).1⟩

theorem tsorted_filter {t : Tab α} (f : Nat × α → Bool) (h : tsorted t = true) : tsorted (t.filter f) = true := by
  induction t with
  | nil => rfl
  | cons q t ih =>
    obtain ⟨a, v⟩ := q
    have ih := ih (tsorted_tail h)
    by_cases hq : f (a, v) = true
    · rw [List.filter_cons_of_pos hq]
      exact tsorted_cons (fun p hp => tsorted_head h p (List.mem_filter.1 hp).1) ih
    · rw [List.filter_cons_of_neg hq]; exact ih

theorem tcanon_filter [DecidableEq α] {d : α} {t : Tab α} (f : Nat × α → Bool) (h : tcanon d t = true) : tcanon d (t.filter f) = true := by
  simp only [tcanon, Bool.and_eq_true, List.all_eq_true, decide_eq_true_eq] at h ⊢
  exact ⟨tsorted_filter f h.1, fun p hp => h.2 p (List.mem_filter.1 hp).1⟩

-- Sets of keys

/-- A set of keys as a table. -/
theorem kset_kdel {l : List Nat} (k : Nat) (h : tsorted (l.map (fun x => (x, ()))) = true) :
    tsorted ((kdel l k).map (fun x => (x, ()))) = true := by
  have : (kdel l k).map (fun x => (x, ())) = (l.map (fun x => (x, ()))).filter (fun p => decide (p.1 ≠ k)) := by
    simp [kdel, List.filter_map, Function.comp_def]
  rw [this]; exact tsorted_filter _ h

theorem kins_map (l : List Nat) (k : Nat) : (kins l k).map (fun x => (x, ())) = tins (l.map (fun x => (x, ()))) k () := by
  induction l with
  | nil => rfl
  | cons x t ih => by_cases h : k < x <;> simp [kins, tins, h, ih]

theorem kset_kadd {l : List Nat} (k : Nat) (h : tsorted (l.map (fun x => (x, ()))) = true) :
    tsorted ((kadd l k).map (fun x => (x, ()))) = true := by
  rw [kadd, kins_map]
  refine tsorted_tins () (kset_kdel k h) (fun p hp => ?_)
  simp [kdel] at hp
  obtain ⟨x, hx, rfl⟩ := hp
  exact hx.2

end Sys2Proof.Machine
end

