-- ==== Sys2Proof/Laws/Memory.lean ====
section
/-! SUPPORT. Reading bytes after a write, and that every operation on memory keeps its canonical form. -/

namespace Sys2Proof.Machine

-- Reading after a write

@[simp] theorem byte_wrByte_same (m : Memory) (a : Nat) (b : Byte) : (m.wrByte a b).byte a = b := tget_tset_same 0 m.bytes a b

theorem byte_wrByte_ne (m : Memory) {a c : Nat} (b : Byte) (h : c ≠ a) : (m.wrByte a b).byte c = m.byte c :=
  tget_tset_ne 0 0 m.bytes b h

/-- A write leaves every byte outside its range as it was. -/
theorem byte_wr_out (m : Memory) (a n v c : Nat) (h : c < a ∨ a + n ≤ c) : (m.wr a n v).byte c = m.byte c := by
  induction n generalizing m a v with
  | zero => rfl
  | succ n ih =>
    rw [Memory.wr, ih _ _ _ (by omega), byte_wrByte_ne _ _ (by omega)]

/-- A write puts byte `i` of its value at byte `i` of its range. -/
theorem byte_wr_in (m : Memory) (a n v i : Nat) (h : i < n) : (m.wr a n v).byte (a + i) = BitVec.ofNat 8 (v / 256 ^ i) := by
  induction n generalizing m a v i with
  | zero => omega
  | succ n ih =>
    rw [Memory.wr]
    cases i with
    | zero => rw [byte_wr_out _ _ _ _ _ (by omega)]; simp
    | succ i =>
      have := ih (m.wrByte a (BitVec.ofNat 8 v)) (a + 1) (v / 256) i (by omega)
      rw [show a + (i + 1) = a + 1 + i by omega, this, Nat.div_div_eq_div_mul, Nat.pow_succ, Nat.mul_comm]

/-- Reading depends on the bytes of the range alone. -/
theorem rd_congr {m m' : Memory} (a n : Nat) (h : ∀ i, i < n → m'.byte (a + i) = m.byte (a + i)) : m'.rd a n = m.rd a n := by
  induction n generalizing a with
  | zero => rfl
  | succ n ih =>
    rw [Memory.rd, Memory.rd, show m'.byte a = m.byte a from h 0 (by omega)]
    rw [ih (a + 1) (fun i hi => by rw [show a + 1 + i = a + (i + 1) by omega]; exact h _ (by omega))]

/-- What was written is read back. -/
theorem rd_wr_same (m : Memory) (a n v : Nat) : (m.wr a n v).rd a n = v % 256 ^ n := by
  induction n generalizing m a v with
  | zero => simp [Memory.rd, Nat.mod_one]
  | succ n ih =>
    rw [Memory.rd]
    have h0 := byte_wr_in m a (n + 1) v 0 (by omega)
    simp only [Nat.add_zero, Nat.pow_zero, Nat.div_one] at h0
    rw [h0, Memory.wr, ih, BitVec.toNat_ofNat, Nat.pow_succ (n := 256), Nat.mul_comm (256 ^ n), Nat.mod_mul]

/-- A write apart from the bytes read leaves what is read. -/
theorem rd_wr_out (m : Memory) (a n v c k : Nat) (h : c + k ≤ a ∨ a + n ≤ c) : (m.wr a n v).rd c k = m.rd c k :=
  rd_congr c k (fun i hi => byte_wr_out m a n v (c + i) (by omega))

@[simp] theorem byte_mark (m : Memory) (k c : Nat) (b : Bool) : (m.mark k b).byte c = m.byte c := rfl

/-- A fold of steps that each keep something keeps it. -/
theorem foldFrom_keeps {α : Type} (P : α → Prop) (f : Nat → α → α) (hf : ∀ i x, P x → P (f i x)) :
    ∀ (n i : Nat) (x : α), P x → P (foldFrom n i f x) := by
  intro n
  induction n with
  | zero => intro i x h; exact h
  | succ n ih => intro i x h; exact ih _ _ (hf i x h)

theorem foldl_keeps {α β : Type} (P : α → Prop) (f : α → β → α) (hf : ∀ x b, P x → P (f x b)) :
    ∀ (l : List β) (x : α), P x → P (l.foldl f x) := by
  intro l
  induction l with
  | nil => intro x h; exact h
  | cons b l ih => intro x h; exact ih _ (hf x b h)

/-- A store with poison bits lands the bytes of a write. -/
theorem byte_storeBits (m : Memory) (a n v bad c : Nat) : (m.storeBits a n v bad).byte c = (m.wr a n v).byte c := by
  unfold Memory.storeBits
  exact foldFrom_keeps (fun x : Memory => x.byte c = (m.wr a n v).byte c) _ (fun i x h => by
    dsimp only; split <;> (try split) <;> simpa using h) _ _ _ rfl

-- The canonical form

theorem wf_iff (m : Memory) : m.wf = true ↔
    tcanon 0 m.bytes = true ∧ tsorted m.cells = true ∧ tsorted m.lines = true ∧ tsorted (m.poison.map (fun k => (k, ()))) = true := by
  simp [Memory.wf, and_assoc]

/-- Memory right after reset has the form. -/
theorem wf_rst : Memory.rst.wf = true := rfl

/-- The form depends on the bytes, the cells, the lines and the marks alone. -/
theorem wf_same {m m' : Memory} (hb : m'.bytes = m.bytes) (hc : m'.cells = m.cells) (hl : m'.lines = m.lines) (hp : m'.poison = m.poison)
    (h : m.wf = true) : m'.wf = true := by
  simpa [Memory.wf, hb, hc, hl, hp] using h

theorem wf_wrByte {m : Memory} (a : Nat) (b : Byte) (h : m.wf = true) : (m.wrByte a b).wf = true := by
  rw [wf_iff] at *; exact ⟨tcanon_tset a b h.1, h.2⟩

theorem wf_wr {m : Memory} (a n v : Nat) (h : m.wf = true) : (m.wr a n v).wf = true := by
  induction n generalizing m a v with
  | zero => exact h
  | succ n ih => exact ih _ _ (wf_wrByte _ _ h)

theorem wf_wrList {m : Memory} (a : Nat) (l : List Byte) (h : m.wf = true) : (m.wrList a l).wf = true := by
  induction l generalizing m a with
  | nil => exact h
  | cons b t ih => exact ih _ (wf_wrByte _ _ h)

theorem wf_mark {m : Memory} (k : Nat) (b : Bool) (h : m.wf = true) : (m.mark k b).wf = true := by
  rw [wf_iff] at *
  refine ⟨h.1, h.2.1, h.2.2.1, ?_⟩
  cases b
  · exact kset_kdel k h.2.2.2
  · exact kset_kadd k h.2.2.2

theorem wf_store {m : Memory} (a n v : Nat) (h : m.wf = true) : (m.store a n v).wf = true :=
  foldl_keeps (fun x : Memory => x.wf = true) _ (fun _ k hx => wf_mark k false hx) _ _ (wf_wr a n v h)

theorem wf_storeBad {m : Memory} (a n v : Nat) (h : m.wf = true) : (m.storeBad a n v).wf = true :=
  foldl_keeps (fun x : Memory => x.wf = true) _ (fun _ k hx => wf_mark k true hx) _ _ (wf_wr a n v h)

theorem wf_storeBits {m : Memory} (a n v bad : Nat) (h : m.wf = true) : (m.storeBits a n v bad).wf = true := by
  unfold Memory.storeBits
  exact foldFrom_keeps (fun x : Memory => x.wf = true) _ (fun i x hx => by
    dsimp only; split
    · exact wf_mark _ _ hx
    · split
      · exact wf_mark _ _ hx
      · exact hx) _ _ _ (wf_wr a n v h)

theorem wf_zero {m : Memory} (a n : Nat) (h : m.wf = true) : (m.zero a n).wf = true := by
  rw [wf_iff] at *
  refine ⟨tcanon_filter _ h.1, h.2.1, h.2.2.1, ?_⟩
  have e : (m.zero a n).poison.map (fun k => (k, ())) = (m.poison.map (fun k => (k, ()))).filter
      (fun p => !(decide (a ≤ 32 * p.1) && decide (32 * p.1 < a + n))) := by
    simp [Memory.zero, List.filter_map, Function.comp_def]
  rw [e]; exact tsorted_filter _ h.2.2.2

theorem wf_dropLines {m : Memory} (p : Nat → FirnLine → Bool) (h : m.wf = true) : (m.dropLines p).wf = true := by
  rw [wf_iff] at *; exact ⟨h.1, h.2.1, tsorted_filter _ h.2.2.1, h.2.2.2⟩

theorem wf_fillGran {m : Memory} (k g : Nat) (h : m.wf = true) : (m.fillGran k g).wf = true := by
  unfold Memory.fillGran; dsimp only; split
  · exact wf_same rfl rfl rfl rfl h
  · exact h

theorem wf_unfillHalf {m : Memory} (k : Nat) (h : m.wf = true) : (m.unfillHalf k).wf = true :=
  wf_same (m := m.zero (halfBase k) (2 ^ 35)) rfl rfl rfl rfl (wf_zero _ _ h)

theorem wf_backPut {m : Memory} (line k v : Nat) (b : Bool) (h : m.wf = true) : (m.backPut line k v b).wf = true :=
  wf_mark _ _ (wf_wr _ _ _ (wf_fillGran _ _ h))

theorem wf_writeBack {m : Memory} (line d p v : Nat) (h : m.wf = true) : (m.writeBack line d p v).wf = true :=
  foldFrom_keeps (fun x : Memory => x.wf = true) _ (fun i x hx => by
    split
    · exact wf_backPut _ _ _ _ hx
    · exact hx) _ _ _ h

theorem wf_putBack {m : Memory} (line bm d p k : Nat) (h : m.wf = true) : (m.putBack line bm d p k).wf = true := by
  unfold Memory.putBack; dsimp only; split
  · exact h
  · split <;> exact wf_backPut _ _ _ _ h

theorem wf_closeEvicts {m : Memory} (line : Nat) (h : m.wf = true) : (m.closeEvicts line).wf = true := by
  unfold Memory.closeEvicts
  refine wf_same rfl rfl rfl rfl (foldl_keeps (fun x : Memory => x.wf = true) _ (fun x e hx => ?_) _ _ h)
  exact wf_writeBack _ _ _ _ hx

theorem wf_lines_put {m : Memory} (line : Nat) (l : FirnLine) (h : m.wf = true) : ({ m with lines := tput m.lines line l } : Memory).wf = true := by
  rw [wf_iff] at *; exact ⟨h.1, h.2.1, tsorted_tput line l h.2.2.1, h.2.2.2⟩

theorem wf_lines_erase {m : Memory} (line : Nat) (h : m.wf = true) : ({ m with lines := terase m.lines line } : Memory).wf = true := by
  rw [wf_iff] at *; exact ⟨h.1, h.2.1, tsorted_terase line h.2.2.1, h.2.2.2⟩

theorem wf_cells_put {m : Memory} (a : Nat) (b : Byte) (h : m.wf = true) : ({ m with cells := tput m.cells a b } : Memory).wf = true := by
  rw [wf_iff] at *; exact ⟨h.1, tsorted_tput a b h.2.1, h.2.2⟩

theorem wf_cells_filter {m : Memory} (f : Nat × Byte → Bool) (h : m.wf = true) : ({ m with cells := m.cells.filter f } : Memory).wf = true := by
  rw [wf_iff] at *; exact ⟨h.1, tsorted_filter f h.2.1, h.2.2⟩

theorem wf_cellsWr {m : Memory} (a : Nat) (l : List Byte) (h : m.wf = true) : (m.cellsWr a l).wf = true := by
  induction l generalizing m a with
  | nil => exact h
  | cons b t ih => exact ih _ (wf_cells_put a b h)

theorem wf_setCounter {m : Memory} (f k v : Nat) (h : m.wf = true) : (m.setCounter f k v).wf = true := wf_wr _ _ _ h

theorem wf_addWords {m : Memory} (f a n v : Nat) (h : m.wf = true) : (m.addWords f a n v).wf = true := by
  induction f generalizing m a n v with
  | zero => exact h
  | succ f ih =>
    rw [Memory.addWords]; split
    · exact h
    · exact ih _ _ _ (wf_wr _ _ _ h)

theorem wf_dropReqs {m : Memory} (p : Nat → Nat → Bool) (h : m.wf = true) : (m.dropReqs p).wf = true := wf_same rfl rfl rfl rfl h

theorem wf_flagMiss {m : Memory} (line : Nat) (h : m.wf = true) : (m.flagMiss line).wf = true := wf_same rfl rfl rfl rfl h

-- What the operations over the whole machine do to its memory

@[simp] theorem onHub_mem (s : State) (f : Hub → Hub) : (s.onHub f).mem = s.mem := rfl

@[simp] theorem onHub_pending (s : State) (f : Hub → Hub) : (s.onHub f).pending = s.pending := rfl

/-- Putting a line keeps the form. -/
theorem wf_putLine {s : State} (line : Nat) (l : FirnLine) (h : s.mem.wf = true) : (s.putLine line l).mem.wf = true := wf_lines_put line l h

/-- Dropping a line keeps the form. -/
theorem wf_lineDrop {s : State} (line : Nat) (h : s.mem.wf = true) : (s.lineDrop line).mem.wf = true := wf_lines_erase line h

/-- Cleaning a line keeps the form. -/
theorem wf_lineClean {s : State} (line : Nat) (h : s.mem.wf = true) : (s.lineClean line).mem.wf = true := by
  unfold State.lineClean; split
  · exact h
  · exact wf_putLine _ _ (wf_writeBack _ _ _ _ h)

end Sys2Proof.Machine
end

