-- ==== Sys2Proof/Laws/Firn.lean ====
section
/-! SUPPORT. Every operation of Firn, of an access at an HPA and of an event counter keeps the canonical form of memory. -/

namespace Sys2Proof.Machine

theorem wf_pickWay {s t : State} {sl set w : Nat} (e : s.pickWay sl set = some (w, t)) (h : s.mem.wf = true) : t.mem.wf = true := by
  unfold State.pickWay at e
  split at e
  · cases e
  · split at e
    · cases e; exact h
    · cases e; exact wf_same rfl rfl rfl rfl h

theorem wf_evictNow {s : State} (sl set w : Nat) (h : s.mem.wf = true) : (s.evictNow sl set w).mem.wf = true := by
  unfold State.evictNow; split
  · exact h
  · exact wf_lines_erase _ (wf_writeBack _ _ _ _ h)

theorem wf_claimWay {s t : State} {line sl w : Nat} (e : s.claimWay line = some (sl, w, t)) (h : s.mem.wf = true) : t.mem.wf = true := by
  unfold State.claimWay at e
  split at e
  · dsimp only at e
    split at e
    · cases e
    · next hp => cases e; exact wf_evictNow _ _ _ (wf_pickWay hp h)
  · cases e

@[simp] theorem firnCount_mem (s : State) (line : Nat) (hit : Bool) : (s.firnCount line hit).mem = s.mem := rfl

theorem wf_lineRead {s : State} (line mask : Nat) (alloc : Bool) (h : s.mem.wf = true) : (s.lineRead line mask alloc).2.2.mem.wf = true := by
  unfold State.lineRead; split
  · dsimp only; split
    · exact h
    · exact wf_putLine _ _ h
  · split
    · exact h
    · next e =>
      split at e
      · exact wf_putLine _ _ (wf_claimWay e h)
      · cases e

theorem wf_lineWrite {s : State} (line bm d p : Nat) (alloc : Bool) (h : s.mem.wf = true) : (s.lineWrite line bm d p alloc).mem.wf = true := by
  unfold State.lineWrite; split
  · exact wf_putLine _ _ h
  · split
    · exact foldFrom_keeps (fun x : Memory => x.wf = true) _ (fun i x hx => wf_putBack _ _ _ _ _ hx) _ _ _ h
    · next e =>
      split at e
      · refine wf_putLine _ _ ?_
        split
        · rw [firnCount_mem]; exact wf_claimWay e h
        · exact wf_claimWay e h
      · cases e

theorem wf_lineZero {s : State} (line : Nat) (h : s.mem.wf = true) : (s.lineZero line).mem.wf = true := wf_lineWrite _ _ _ _ _ h

theorem wf_applyReq {s : State} (r : SliceReq) (h : s.mem.wf = true) : (s.applyReq r).mem.wf = true := by
  unfold State.applyReq; split
  · exact wf_lineWrite _ _ _ _ _ h
  · exact wf_lineRead _ _ _ h

theorem wf_applyAll {s : State} (l : List SliceReq) (h : s.mem.wf = true) : (s.applyAll l).mem.wf = true := by
  induction l generalizing s with
  | nil => exact h
  | cons r t ih => exact ih (wf_applyReq r h)

theorem wf_settle {s : State} (line : Nat) (h : s.mem.wf = true) : (s.settle line).mem.wf = true :=
  wf_applyAll _ (wf_same rfl rfl rfl rfl (wf_closeEvicts line h))

theorem wf_stackRead {s : State} (a n : Nat) (alloc : Bool) (h : s.mem.wf = true) : (s.stackRead a n alloc).s.mem.wf = true :=
  wf_lineRead _ _ _ (wf_settle _ h)

theorem wf_stackWrite {s : State} (a n v bad : Nat) (alloc : Bool) (h : s.mem.wf = true) : (s.stackWrite a n v bad alloc).mem.wf = true :=
  wf_lineWrite _ _ _ _ _ (wf_settle _ h)

theorem wf_readPiece {s : State} (o : Org) (a n : Nat) (alloc : Bool) (h : s.mem.wf = true) : (s.readPiece o a n alloc).s.mem.wf = true := by
  unfold State.readPiece
  repeat' split
  all_goals first | exact h | exact wf_stackRead _ _ _ h

theorem wf_writePiece {s : State} (o : Org) (a n v bad : Nat) (alloc : Bool) (h : s.mem.wf = true) :
    (s.writePiece o a n v bad alloc).s.mem.wf = true := by
  unfold State.writePiece
  repeat' split
  all_goals try dsimp only [onHub_mem]
  all_goals first
    | with_reducible exact h
    | with_reducible exact wf_stackWrite _ _ _ _ _ h
    | with_reducible exact wf_storeBits _ _ _ _ h
    | with_reducible exact wf_wr _ _ _ h

theorem wf_readLoop (f : Nat) {s : State} (o : Org) (a n : Nat) (alloc : Bool) (h : s.mem.wf = true) :
    (State.readLoop f s o a n alloc).s.mem.wf = true := by
  induction f generalizing s a n with
  | zero => exact h
  | succ f ih =>
    rw [State.readLoop]; split
    · exact h
    · exact ih _ _ (wf_readPiece o a _ alloc h)

/-- A read at an HPA keeps the form. -/
theorem wf_hubRead {s : State} (o : Org) (a n : Nat) (alloc : Bool) (h : s.mem.wf = true) : (s.hubRead o a n alloc).s.mem.wf = true :=
  wf_readLoop _ _ _ _ _ h

theorem wf_writeLoop (f : Nat) {s : State} (o : Org) (a n v bad : Nat) (alloc : Bool) (h : s.mem.wf = true) :
    (State.writeLoop f s o a n v bad alloc).s.mem.wf = true := by
  induction f generalizing s a n v bad with
  | zero => exact h
  | succ f ih =>
    rw [State.writeLoop]; split
    · exact h
    · exact ih _ _ _ _ (wf_writePiece o a _ _ _ alloc h)

/-- A write at an HPA keeps the form. -/
theorem wf_hubWrite {s : State} (o : Org) (a n v bad : Nat) (alloc : Bool) (h : s.mem.wf = true) :
    (s.hubWrite o a n v bad alloc).s.mem.wf = true := wf_writeLoop _ _ _ _ _ _ _ h

theorem wf_lineMaint {s : State} (op line : Nat) (h : s.mem.wf = true) : (s.lineMaint op line).mem.wf = true := by
  have h := wf_settle line h
  unfold State.lineMaint; dsimp only
  split
  · exact wf_lineZero _ h
  · split
    · exact wf_lineClean _ h
    · split
      · exact wf_lineDrop _ h
      · exact wf_lineDrop _ (wf_lineClean _ h)

theorem wf_maintAt {s : State} (o : Org) (op a : Nat) (h : s.mem.wf = true) : (s.maintAt o op a).s.mem.wf = true := by
  unfold State.maintAt
  repeat' split
  all_goals try dsimp only [onHub_mem]
  all_goals first
    | with_reducible exact h
    | with_reducible exact wf_lineMaint _ _ h
    | with_reducible exact wf_writePiece _ _ _ _ _ _ h

theorem wf_eventAdd {s : State} (a : Nat) (h : s.mem.wf = true) : (s.eventAdd a).mem.wf = true := by
  unfold State.eventAdd; split
  · exact wf_setCounter _ _ _ h
  · exact h

theorem wf_flushLines {s : State} (p : Nat → FirnLine → Bool) (h : s.mem.wf = true) : (s.flushLines p).mem.wf = true :=
  foldl_keeps (fun x : State => x.mem.wf = true) _ (fun _ _ hx => wf_lineDrop _ (wf_lineClean _ hx)) _ _ h

end Sys2Proof.Machine
end

