-- ==== Sys2Proof/Laws/Sea.lean ====
section
/-! SUPPORT. What an instruction of a core that may issue answers, by what its meaning over the core says. -/

namespace Sys2Proof.Machine

variable {c : CoreId} {w : Nat} {body : Nat → Core → State → Iss} {g : Core → CoreRes} {s s' : State} {y : Core} {code addr trap : Nat}

/-- A core of a floe that the hub does not have stops the machine. -/
theorem issue_fault (h : s.hub.floeExists c.floe.toNat = false) : issue c w body s = .fault .noSuchUnit := by simp [issue, h]

/-- A core that may not issue runs nothing. -/
theorem issue_idle (h : s.hub.floeExists c.floe.toNat = true) (hr : (s.hub.core (coreNum c)).run ≠ .ready) : issue c w body s = .next s := by
  simp [issue, h, hr]

/-- The instruction retires: INSTRET counts it, and nothing of it is in hand any more. -/
theorem issue_done (h : s.hub.floeExists c.floe.toNat = true) (hr : (s.hub.core (coreNum c)).run = .ready)
    (hb : body (coreNum c) (s.hub.core (coreNum c)) s = .done s' y) :
    issue c w body s = .next (s'.onHub (·.setCore (coreNum c) { y with instret := y.instret + 1, rem := [], stalled := (0, 0), paid := false })) := by
  simp [issue, h, hr, hb]

/-- The instruction raises an exception. -/
theorem issue_exc (h : s.hub.floeExists c.floe.toNat = true) (hr : (s.hub.core (coreNum c)).run = .ready)
    (hb : body (coreNum c) (s.hub.core (coreNum c)) s = .exc s' y code addr trap) :
    issue c w body s = .next (s'.onHub (fun h => (h.setCore (coreNum c) y).coreExc (coreNum c) code w addr trap (bits y.fflags.toNat 0 8))) := by
  simp [issue, h, hr, hb]

/-- An instruction over the core alone that retires. -/
theorem issue_pure_ok (h : s.hub.floeExists c.floe.toNat = true) (hr : (s.hub.core (coreNum c)).run = .ready)
    (hg : g (s.hub.core (coreNum c)) = .ok y) :
    issue c w (pureIss g) s = .next (s.onHub (·.setCore (coreNum c) { y with instret := y.instret + 1, rem := [], stalled := (0, 0), paid := false })) :=
  issue_done h hr (by simp [pureIss, hg])

/-- An instruction over the core alone that raises an exception. -/
theorem issue_pure_exc (h : s.hub.floeExists c.floe.toNat = true) (hr : (s.hub.core (coreNum c)).run = .ready)
    (hg : g (s.hub.core (coreNum c)) = .exc code addr y) :
    issue c w (pureIss g) s = .next (s.onHub (fun h => (h.setCore (coreNum c) y).coreExc (coreNum c) code w addr 0 (bits y.fflags.toNat 0 8))) :=
  issue_exc h hr (by simp [pureIss, hg])

/-- An instruction keeps what its meaning over the core keeps of memory. -/
theorem issue_mem {t : State} (P : Memory → Prop) (h : P s.mem) (e : issue c w body s = .next t)
    (hd : ∀ s' x, body (coreNum c) (s.hub.core (coreNum c)) s = .done s' x → P s'.mem)
    (hx : ∀ s' x a b d, body (coreNum c) (s.hub.core (coreNum c)) s = .exc s' x a b d → P s'.mem)
    (hs : ∀ s' r, body (coreNum c) (s.hub.core (coreNum c)) s = .stall s' r → P s'.mem) : P t.mem := by
  unfold issue at e; dsimp only at e
  split at e
  · cases e
  · split at e
    · cases e; exact h
    · split at e
      · next hb => have k := hd _ _ hb; cases e; exact k
      · next hb => have k := hx _ _ _ _ _ hb; cases e; exact k
      · next hb => have k := hs _ _ hb; cases e; exact k

/-- The step takes the command at the front of the queue. -/
theorem step_cons (i : Instr) (q : List Instr) : step { s with pending := i :: q } = exec i { s with pending := q } := rfl

end Sys2Proof.Machine
end

