-- ==== Sys2Proof/Laws/State.lean ====
section
/-! SUPPORT. One lemma per field per update: what each named update of the hub writes, and that it leaves every other field. -/

namespace Sys2Proof.Machine

-- Registers

theorem Hub.get_set_same (h : Hub) (f : Fld) (v : Nat) : (h.set f v).get f = v % 2 ^ f.len := by
  simp [Hub.get, Hub.set]

theorem Hub.get_set_ne (h : Hub) {f g : Fld} (v : Nat) (hk : g.key ≠ f.key) : (h.set f v).get g = h.get g := by
  simp [Hub.get, Hub.set, tget_tset_ne _ _ _ _ hk]

theorem Hub.get_sets_ne (l : List (Fld × Nat)) (h : Hub) (g : Fld) (hk : ∀ p ∈ l, g.key ≠ p.1.key) : (h.sets l).get g = h.get g := by
  induction l generalizing h with
  | nil => rfl
  | cons p t ih =>
    obtain ⟨f, v⟩ := p
    rw [Hub.sets, ih _ (fun p hp => hk p (by simp [hp])), Hub.get_set_ne _ _ (hk (f, v) (by simp))]

theorem Hub.get_of_regs_eq {h k : Hub} (f : Fld) (e : h.regs = k.regs) : h.get f = k.get f := by simp [Hub.get, e]

@[simp] theorem Hub.count_eq (h : Hub) (f : Fld) (k : Nat) : h.count f k = h.set f (satAdd f.len (h.get f) k) := rfl
@[simp] theorem Hub.wrap_eq (h : Hub) (f : Fld) (k : Nat) : h.wrap f k = h.set f (h.get f + k) := rfl

-- The machine

@[simp] theorem State.onHub_hub (s : State) (f : Hub → Hub) : (s.onHub f).hub = f s.hub := rfl
@[simp] theorem State.onHub_mem (s : State) (f : Hub → Hub) : (s.onHub f).mem = s.mem := rfl
@[simp] theorem State.onHub_pending (s : State) (f : Hub → Hub) : (s.onHub f).pending = s.pending := rfl
@[simp] theorem State.wroteBy_mem (s : State) (fn : Nat) : (s.wroteBy fn).mem = s.mem := rfl
@[simp] theorem State.wroteBy_pending (s : State) (fn : Nat) : (s.wroteBy fn).pending = s.pending := rfl
@[simp] theorem State.wroteVia_mem (s : State) (via : Iface) : (s.wroteVia via).mem = s.mem := by
  unfold State.wroteVia; split <;> rfl
@[simp] theorem State.wroteVia_pending (s : State) (via : Iface) : (s.wroteVia via).pending = s.pending := by
  unfold State.wroteVia; split <;> rfl
@[simp] theorem State.wroteSrc_mem (s : State) (src : DbSrc) : (s.wroteSrc src).mem = s.mem := by cases src <;> rfl
@[simp] theorem State.wroteSrc_pending (s : State) (src : DbSrc) : (s.wroteSrc src).pending = s.pending := by cases src <;> rfl

-- Units read back

@[simp] theorem Hub.core_setCore_same (h : Hub) (c : Nat) (x : Core) : (h.setCore c x).core c = x := by
  simp [Hub.core, Hub.setCore]
theorem Hub.core_setCore_ne (h : Hub) {c d : Nat} (x : Core) (hd : d ≠ c) : (h.setCore c x).core d = h.core d := by
  simp [Hub.core, Hub.setCore, tget_tset_ne _ _ _ _ hd]
@[simp] theorem Hub.site_setSite_same (h : Hub) (s : Nat) (x : Site) : (h.setSite s x).site s = x := by
  simp [Hub.site, Hub.setSite]
theorem Hub.site_setSite_ne (h : Hub) {s r : Nat} (x : Site) (hr : r ≠ s) : (h.setSite s x).site r = h.site r := by
  simp [Hub.site, Hub.setSite, tget_tset_ne _ _ _ _ hr]
@[simp] theorem Hub.qp_setQp_same (h : Hub) (fn q : Nat) (x : QPair) : (h.setQp fn q x).qp fn q = x := by
  simp [Hub.qp, Hub.setQp]
@[simp] theorem Hub.stream_setStream_same (h : Hub) (n : Nat) (x : Stream) : (h.setStream n x).stream n = x := by
  simp [Hub.stream, Hub.setStream]
@[simp] theorem Hub.group_setGroup_same (h : Hub) (g : Nat) (c : ColGroup) : (h.setGroup g c).group g = some c := by
  simp [Hub.group, Hub.setGroup]

-- Fields that an update leaves

@[simp] theorem Hub.set_halves (h : Hub) (f : Fld) (v : Nat) : (h.set f v).halves = h.halves := rfl
@[simp] theorem Hub.set_fresh (h : Hub) (f : Fld) (v : Nat) : (h.set f v).fresh = h.fresh := rfl
@[simp] theorem Hub.set_sent (h : Hub) (f : Fld) (v : Nat) : (h.set f v).sent = h.sent := rfl
@[simp] theorem Hub.set_mor (h : Hub) (f : Fld) (v : Nat) : (h.set f v).mor = h.mor := rfl
@[simp] theorem Hub.set_boots (h : Hub) (f : Fld) (v : Nat) : (h.set f v).boots = h.boots := rfl
@[simp] theorem Hub.set_cursors (h : Hub) (f : Fld) (v : Nat) : (h.set f v).cursors = h.cursors := rfl
@[simp] theorem Hub.set_pba (h : Hub) (f : Fld) (v : Nat) : (h.set f v).pba = h.pba := rfl
@[simp] theorem Hub.set_queues (h : Hub) (f : Fld) (v : Nat) : (h.set f v).queues = h.queues := rfl
@[simp] theorem Hub.set_epochs (h : Hub) (f : Fld) (v : Nat) : (h.set f v).epochs = h.epochs := rfl
@[simp] theorem Hub.set_tags (h : Hub) (f : Fld) (v : Nat) : (h.set f v).tags = h.tags := rfl
@[simp] theorem Hub.set_sea (h : Hub) (f : Fld) (v : Nat) : (h.set f v).sea = h.sea := rfl
@[simp] theorem Hub.set_xlt (h : Hub) (f : Fld) (v : Nat) : (h.set f v).xlt = h.xlt := rfl
@[simp] theorem Hub.set_drift (h : Hub) (f : Fld) (v : Nat) : (h.set f v).drift = h.drift := rfl
@[simp] theorem Hub.set_dew (h : Hub) (f : Fld) (v : Nat) : (h.set f v).dew = h.dew := rfl
@[simp] theorem Hub.set_sites (h : Hub) (f : Fld) (v : Nat) : (h.set f v).sites = h.sites := rfl
@[simp] theorem Hub.set_qos (h : Hub) (f : Fld) (v : Nat) : (h.set f v).qos = h.qos := rfl
@[simp] theorem Hub.set_parts (h : Hub) (f : Fld) (v : Nat) : (h.set f v).parts = h.parts := rfl
@[simp] theorem Hub.set_ras (h : Hub) (f : Fld) (v : Nat) : (h.set f v).ras = h.ras := rfl
@[simp] theorem Hub.set_journal (h : Hub) (f : Fld) (v : Nat) : (h.set f v).journal = h.journal := rfl
@[simp] theorem Hub.set_links (h : Hub) (f : Fld) (v : Nat) : (h.set f v).links = h.links := rfl
@[simp] theorem Hub.set_cols (h : Hub) (f : Fld) (v : Nat) : (h.set f v).cols = h.cols := rfl
@[simp] theorem Hub.set_perma (h : Hub) (f : Fld) (v : Nat) : (h.set f v).perma = h.perma := rfl
@[simp] theorem Hub.set_flash (h : Hub) (f : Fld) (v : Nat) : (h.set f v).flash = h.flash := rfl
@[simp] theorem Hub.set_boot (h : Hub) (f : Fld) (v : Nat) : (h.set f v).boot = h.boot := rfl
@[simp] theorem Hub.set_cfg (h : Hub) (f : Fld) (v : Nat) : (h.set f v).cfg = h.cfg := rfl
@[simp] theorem Hub.set_iso (h : Hub) (f : Fld) (v : Nat) : (h.set f v).iso = h.iso := rfl
@[simp] theorem Hub.set_alm (h : Hub) (f : Fld) (v : Nat) : (h.set f v).alm = h.alm := rfl
@[simp] theorem Hub.set_sec (h : Hub) (f : Fld) (v : Nat) : (h.set f v).sec = h.sec := rfl
@[simp] theorem Hub.set_tap (h : Hub) (f : Fld) (v : Nat) : (h.set f v).tap = h.tap := rfl

@[simp] theorem Hub.send_regs (h : Hub) (m : Sent) : (h.send m).regs = h.regs := rfl
@[simp] theorem Hub.send_halves (h : Hub) (m : Sent) : (h.send m).halves = h.halves := rfl
@[simp] theorem Hub.send_fresh (h : Hub) (m : Sent) : (h.send m).fresh = h.fresh := rfl
@[simp] theorem Hub.send_mor (h : Hub) (m : Sent) : (h.send m).mor = h.mor := rfl
@[simp] theorem Hub.send_boots (h : Hub) (m : Sent) : (h.send m).boots = h.boots := rfl
@[simp] theorem Hub.send_cursors (h : Hub) (m : Sent) : (h.send m).cursors = h.cursors := rfl
@[simp] theorem Hub.send_pba (h : Hub) (m : Sent) : (h.send m).pba = h.pba := rfl
@[simp] theorem Hub.send_queues (h : Hub) (m : Sent) : (h.send m).queues = h.queues := rfl
@[simp] theorem Hub.send_epochs (h : Hub) (m : Sent) : (h.send m).epochs = h.epochs := rfl
@[simp] theorem Hub.send_tags (h : Hub) (m : Sent) : (h.send m).tags = h.tags := rfl
@[simp] theorem Hub.send_sea (h : Hub) (m : Sent) : (h.send m).sea = h.sea := rfl
@[simp] theorem Hub.send_xlt (h : Hub) (m : Sent) : (h.send m).xlt = h.xlt := rfl
@[simp] theorem Hub.send_drift (h : Hub) (m : Sent) : (h.send m).drift = h.drift := rfl
@[simp] theorem Hub.send_dew (h : Hub) (m : Sent) : (h.send m).dew = h.dew := rfl
@[simp] theorem Hub.send_sites (h : Hub) (m : Sent) : (h.send m).sites = h.sites := rfl
@[simp] theorem Hub.send_qos (h : Hub) (m : Sent) : (h.send m).qos = h.qos := rfl
@[simp] theorem Hub.send_parts (h : Hub) (m : Sent) : (h.send m).parts = h.parts := rfl
@[simp] theorem Hub.send_ras (h : Hub) (m : Sent) : (h.send m).ras = h.ras := rfl
@[simp] theorem Hub.send_journal (h : Hub) (m : Sent) : (h.send m).journal = h.journal := rfl
@[simp] theorem Hub.send_links (h : Hub) (m : Sent) : (h.send m).links = h.links := rfl
@[simp] theorem Hub.send_cols (h : Hub) (m : Sent) : (h.send m).cols = h.cols := rfl
@[simp] theorem Hub.send_perma (h : Hub) (m : Sent) : (h.send m).perma = h.perma := rfl
@[simp] theorem Hub.send_flash (h : Hub) (m : Sent) : (h.send m).flash = h.flash := rfl
@[simp] theorem Hub.send_boot (h : Hub) (m : Sent) : (h.send m).boot = h.boot := rfl
@[simp] theorem Hub.send_cfg (h : Hub) (m : Sent) : (h.send m).cfg = h.cfg := rfl
@[simp] theorem Hub.send_iso (h : Hub) (m : Sent) : (h.send m).iso = h.iso := rfl
@[simp] theorem Hub.send_alm (h : Hub) (m : Sent) : (h.send m).alm = h.alm := rfl
@[simp] theorem Hub.send_sec (h : Hub) (m : Sent) : (h.send m).sec = h.sec := rfl
@[simp] theorem Hub.send_tap (h : Hub) (m : Sent) : (h.send m).tap = h.tap := rfl

@[simp] theorem Hub.setOd_regs (h : Hub) (ix sub v : Nat) : (h.setOd ix sub v).regs = h.regs := rfl
@[simp] theorem Hub.setOd_halves (h : Hub) (ix sub v : Nat) : (h.setOd ix sub v).halves = h.halves := rfl
@[simp] theorem Hub.setOd_fresh (h : Hub) (ix sub v : Nat) : (h.setOd ix sub v).fresh = h.fresh := rfl
@[simp] theorem Hub.setOd_sent (h : Hub) (ix sub v : Nat) : (h.setOd ix sub v).sent = h.sent := rfl
@[simp] theorem Hub.setOd_mor (h : Hub) (ix sub v : Nat) : (h.setOd ix sub v).mor = h.mor := rfl
@[simp] theorem Hub.setOd_boots (h : Hub) (ix sub v : Nat) : (h.setOd ix sub v).boots = h.boots := rfl
@[simp] theorem Hub.setOd_cursors (h : Hub) (ix sub v : Nat) : (h.setOd ix sub v).cursors = h.cursors := rfl
@[simp] theorem Hub.setOd_pba (h : Hub) (ix sub v : Nat) : (h.setOd ix sub v).pba = h.pba := rfl
@[simp] theorem Hub.setOd_queues (h : Hub) (ix sub v : Nat) : (h.setOd ix sub v).queues = h.queues := rfl
@[simp] theorem Hub.setOd_epochs (h : Hub) (ix sub v : Nat) : (h.setOd ix sub v).epochs = h.epochs := rfl
@[simp] theorem Hub.setOd_tags (h : Hub) (ix sub v : Nat) : (h.setOd ix sub v).tags = h.tags := rfl
@[simp] theorem Hub.setOd_sea (h : Hub) (ix sub v : Nat) : (h.setOd ix sub v).sea = h.sea := rfl
@[simp] theorem Hub.setOd_xlt (h : Hub) (ix sub v : Nat) : (h.setOd ix sub v).xlt = h.xlt := rfl
@[simp] theorem Hub.setOd_drift (h : Hub) (ix sub v : Nat) : (h.setOd ix sub v).drift = h.drift := rfl
@[simp] theorem Hub.setOd_dew (h : Hub) (ix sub v : Nat) : (h.setOd ix sub v).dew = h.dew := rfl
@[simp] theorem Hub.setOd_sites (h : Hub) (ix sub v : Nat) : (h.setOd ix sub v).sites = h.sites := rfl
@[simp] theorem Hub.setOd_qos (h : Hub) (ix sub v : Nat) : (h.setOd ix sub v).qos = h.qos := rfl
@[simp] theorem Hub.setOd_parts (h : Hub) (ix sub v : Nat) : (h.setOd ix sub v).parts = h.parts := rfl
@[simp] theorem Hub.setOd_ras (h : Hub) (ix sub v : Nat) : (h.setOd ix sub v).ras = h.ras := rfl
@[simp] theorem Hub.setOd_journal (h : Hub) (ix sub v : Nat) : (h.setOd ix sub v).journal = h.journal := rfl
@[simp] theorem Hub.setOd_links (h : Hub) (ix sub v : Nat) : (h.setOd ix sub v).links = h.links := rfl
@[simp] theorem Hub.setOd_cols (h : Hub) (ix sub v : Nat) : (h.setOd ix sub v).cols = h.cols := rfl
@[simp] theorem Hub.setOd_perma (h : Hub) (ix sub v : Nat) : (h.setOd ix sub v).perma = h.perma := rfl
@[simp] theorem Hub.setOd_flash (h : Hub) (ix sub v : Nat) : (h.setOd ix sub v).flash = h.flash := rfl
@[simp] theorem Hub.setOd_boot (h : Hub) (ix sub v : Nat) : (h.setOd ix sub v).boot = h.boot := rfl
@[simp] theorem Hub.setOd_cfg (h : Hub) (ix sub v : Nat) : (h.setOd ix sub v).cfg = h.cfg := rfl
@[simp] theorem Hub.setOd_iso (h : Hub) (ix sub v : Nat) : (h.setOd ix sub v).iso = h.iso := rfl
@[simp] theorem Hub.setOd_sec (h : Hub) (ix sub v : Nat) : (h.setOd ix sub v).sec = h.sec := rfl
@[simp] theorem Hub.setOd_tap (h : Hub) (ix sub v : Nat) : (h.setOd ix sub v).tap = h.tap := rfl

@[simp] theorem Hub.almCount_regs (h : Hub) (sub : Nat) : (h.almCount sub).regs = h.regs := rfl
@[simp] theorem Hub.almCount_halves (h : Hub) (sub : Nat) : (h.almCount sub).halves = h.halves := rfl
@[simp] theorem Hub.almCount_fresh (h : Hub) (sub : Nat) : (h.almCount sub).fresh = h.fresh := rfl
@[simp] theorem Hub.almCount_sent (h : Hub) (sub : Nat) : (h.almCount sub).sent = h.sent := rfl
@[simp] theorem Hub.almCount_mor (h : Hub) (sub : Nat) : (h.almCount sub).mor = h.mor := rfl
@[simp] theorem Hub.almCount_boots (h : Hub) (sub : Nat) : (h.almCount sub).boots = h.boots := rfl
@[simp] theorem Hub.almCount_cursors (h : Hub) (sub : Nat) : (h.almCount sub).cursors = h.cursors := rfl
@[simp] theorem Hub.almCount_pba (h : Hub) (sub : Nat) : (h.almCount sub).pba = h.pba := rfl
@[simp] theorem Hub.almCount_queues (h : Hub) (sub : Nat) : (h.almCount sub).queues = h.queues := rfl
@[simp] theorem Hub.almCount_epochs (h : Hub) (sub : Nat) : (h.almCount sub).epochs = h.epochs := rfl
@[simp] theorem Hub.almCount_tags (h : Hub) (sub : Nat) : (h.almCount sub).tags = h.tags := rfl
@[simp] theorem Hub.almCount_sea (h : Hub) (sub : Nat) : (h.almCount sub).sea = h.sea := rfl
@[simp] theorem Hub.almCount_xlt (h : Hub) (sub : Nat) : (h.almCount sub).xlt = h.xlt := rfl
@[simp] theorem Hub.almCount_drift (h : Hub) (sub : Nat) : (h.almCount sub).drift = h.drift := rfl
@[simp] theorem Hub.almCount_dew (h : Hub) (sub : Nat) : (h.almCount sub).dew = h.dew := rfl
@[simp] theorem Hub.almCount_sites (h : Hub) (sub : Nat) : (h.almCount sub).sites = h.sites := rfl
@[simp] theorem Hub.almCount_qos (h : Hub) (sub : Nat) : (h.almCount sub).qos = h.qos := rfl
@[simp] theorem Hub.almCount_parts (h : Hub) (sub : Nat) : (h.almCount sub).parts = h.parts := rfl
@[simp] theorem Hub.almCount_ras (h : Hub) (sub : Nat) : (h.almCount sub).ras = h.ras := rfl
@[simp] theorem Hub.almCount_journal (h : Hub) (sub : Nat) : (h.almCount sub).journal = h.journal := rfl
@[simp] theorem Hub.almCount_links (h : Hub) (sub : Nat) : (h.almCount sub).links = h.links := rfl
@[simp] theorem Hub.almCount_cols (h : Hub) (sub : Nat) : (h.almCount sub).cols = h.cols := rfl
@[simp] theorem Hub.almCount_perma (h : Hub) (sub : Nat) : (h.almCount sub).perma = h.perma := rfl
@[simp] theorem Hub.almCount_flash (h : Hub) (sub : Nat) : (h.almCount sub).flash = h.flash := rfl
@[simp] theorem Hub.almCount_boot (h : Hub) (sub : Nat) : (h.almCount sub).boot = h.boot := rfl
@[simp] theorem Hub.almCount_cfg (h : Hub) (sub : Nat) : (h.almCount sub).cfg = h.cfg := rfl
@[simp] theorem Hub.almCount_iso (h : Hub) (sub : Nat) : (h.almCount sub).iso = h.iso := rfl
@[simp] theorem Hub.almCount_sec (h : Hub) (sub : Nat) : (h.almCount sub).sec = h.sec := rfl
@[simp] theorem Hub.almCount_tap (h : Hub) (sub : Nat) : (h.almCount sub).tap = h.tap := rfl

@[simp] theorem Hub.setQp_regs (h : Hub) (fn q : Nat) (x : QPair) : (h.setQp fn q x).regs = h.regs := rfl
@[simp] theorem Hub.setQp_halves (h : Hub) (fn q : Nat) (x : QPair) : (h.setQp fn q x).halves = h.halves := rfl
@[simp] theorem Hub.setQp_fresh (h : Hub) (fn q : Nat) (x : QPair) : (h.setQp fn q x).fresh = h.fresh := rfl
@[simp] theorem Hub.setQp_sent (h : Hub) (fn q : Nat) (x : QPair) : (h.setQp fn q x).sent = h.sent := rfl
@[simp] theorem Hub.setQp_mor (h : Hub) (fn q : Nat) (x : QPair) : (h.setQp fn q x).mor = h.mor := rfl
@[simp] theorem Hub.setQp_boots (h : Hub) (fn q : Nat) (x : QPair) : (h.setQp fn q x).boots = h.boots := rfl
@[simp] theorem Hub.setQp_cursors (h : Hub) (fn q : Nat) (x : QPair) : (h.setQp fn q x).cursors = h.cursors := rfl
@[simp] theorem Hub.setQp_pba (h : Hub) (fn q : Nat) (x : QPair) : (h.setQp fn q x).pba = h.pba := rfl
@[simp] theorem Hub.setQp_epochs (h : Hub) (fn q : Nat) (x : QPair) : (h.setQp fn q x).epochs = h.epochs := rfl
@[simp] theorem Hub.setQp_tags (h : Hub) (fn q : Nat) (x : QPair) : (h.setQp fn q x).tags = h.tags := rfl
@[simp] theorem Hub.setQp_sea (h : Hub) (fn q : Nat) (x : QPair) : (h.setQp fn q x).sea = h.sea := rfl
@[simp] theorem Hub.setQp_xlt (h : Hub) (fn q : Nat) (x : QPair) : (h.setQp fn q x).xlt = h.xlt := rfl
@[simp] theorem Hub.setQp_drift (h : Hub) (fn q : Nat) (x : QPair) : (h.setQp fn q x).drift = h.drift := rfl
@[simp] theorem Hub.setQp_dew (h : Hub) (fn q : Nat) (x : QPair) : (h.setQp fn q x).dew = h.dew := rfl
@[simp] theorem Hub.setQp_sites (h : Hub) (fn q : Nat) (x : QPair) : (h.setQp fn q x).sites = h.sites := rfl
@[simp] theorem Hub.setQp_qos (h : Hub) (fn q : Nat) (x : QPair) : (h.setQp fn q x).qos = h.qos := rfl
@[simp] theorem Hub.setQp_parts (h : Hub) (fn q : Nat) (x : QPair) : (h.setQp fn q x).parts = h.parts := rfl
@[simp] theorem Hub.setQp_ras (h : Hub) (fn q : Nat) (x : QPair) : (h.setQp fn q x).ras = h.ras := rfl
@[simp] theorem Hub.setQp_journal (h : Hub) (fn q : Nat) (x : QPair) : (h.setQp fn q x).journal = h.journal := rfl
@[simp] theorem Hub.setQp_links (h : Hub) (fn q : Nat) (x : QPair) : (h.setQp fn q x).links = h.links := rfl
@[simp] theorem Hub.setQp_cols (h : Hub) (fn q : Nat) (x : QPair) : (h.setQp fn q x).cols = h.cols := rfl
@[simp] theorem Hub.setQp_perma (h : Hub) (fn q : Nat) (x : QPair) : (h.setQp fn q x).perma = h.perma := rfl
@[simp] theorem Hub.setQp_flash (h : Hub) (fn q : Nat) (x : QPair) : (h.setQp fn q x).flash = h.flash := rfl
@[simp] theorem Hub.setQp_boot (h : Hub) (fn q : Nat) (x : QPair) : (h.setQp fn q x).boot = h.boot := rfl
@[simp] theorem Hub.setQp_cfg (h : Hub) (fn q : Nat) (x : QPair) : (h.setQp fn q x).cfg = h.cfg := rfl
@[simp] theorem Hub.setQp_iso (h : Hub) (fn q : Nat) (x : QPair) : (h.setQp fn q x).iso = h.iso := rfl
@[simp] theorem Hub.setQp_alm (h : Hub) (fn q : Nat) (x : QPair) : (h.setQp fn q x).alm = h.alm := rfl
@[simp] theorem Hub.setQp_sec (h : Hub) (fn q : Nat) (x : QPair) : (h.setQp fn q x).sec = h.sec := rfl
@[simp] theorem Hub.setQp_tap (h : Hub) (fn q : Nat) (x : QPair) : (h.setQp fn q x).tap = h.tap := rfl

@[simp] theorem Hub.setSite_regs (h : Hub) (s : Nat) (x : Site) : (h.setSite s x).regs = h.regs := rfl
@[simp] theorem Hub.setSite_halves (h : Hub) (s : Nat) (x : Site) : (h.setSite s x).halves = h.halves := rfl
@[simp] theorem Hub.setSite_fresh (h : Hub) (s : Nat) (x : Site) : (h.setSite s x).fresh = h.fresh := rfl
@[simp] theorem Hub.setSite_sent (h : Hub) (s : Nat) (x : Site) : (h.setSite s x).sent = h.sent := rfl
@[simp] theorem Hub.setSite_mor (h : Hub) (s : Nat) (x : Site) : (h.setSite s x).mor = h.mor := rfl
@[simp] theorem Hub.setSite_boots (h : Hub) (s : Nat) (x : Site) : (h.setSite s x).boots = h.boots := rfl
@[simp] theorem Hub.setSite_cursors (h : Hub) (s : Nat) (x : Site) : (h.setSite s x).cursors = h.cursors := rfl
@[simp] theorem Hub.setSite_pba (h : Hub) (s : Nat) (x : Site) : (h.setSite s x).pba = h.pba := rfl
@[simp] theorem Hub.setSite_queues (h : Hub) (s : Nat) (x : Site) : (h.setSite s x).queues = h.queues := rfl
@[simp] theorem Hub.setSite_epochs (h : Hub) (s : Nat) (x : Site) : (h.setSite s x).epochs = h.epochs := rfl
@[simp] theorem Hub.setSite_tags (h : Hub) (s : Nat) (x : Site) : (h.setSite s x).tags = h.tags := rfl
@[simp] theorem Hub.setSite_sea (h : Hub) (s : Nat) (x : Site) : (h.setSite s x).sea = h.sea := rfl
@[simp] theorem Hub.setSite_xlt (h : Hub) (s : Nat) (x : Site) : (h.setSite s x).xlt = h.xlt := rfl
@[simp] theorem Hub.setSite_drift (h : Hub) (s : Nat) (x : Site) : (h.setSite s x).drift = h.drift := rfl
@[simp] theorem Hub.setSite_dew (h : Hub) (s : Nat) (x : Site) : (h.setSite s x).dew = h.dew := rfl
@[simp] theorem Hub.setSite_qos (h : Hub) (s : Nat) (x : Site) : (h.setSite s x).qos = h.qos := rfl
@[simp] theorem Hub.setSite_parts (h : Hub) (s : Nat) (x : Site) : (h.setSite s x).parts = h.parts := rfl
@[simp] theorem Hub.setSite_ras (h : Hub) (s : Nat) (x : Site) : (h.setSite s x).ras = h.ras := rfl
@[simp] theorem Hub.setSite_journal (h : Hub) (s : Nat) (x : Site) : (h.setSite s x).journal = h.journal := rfl
@[simp] theorem Hub.setSite_links (h : Hub) (s : Nat) (x : Site) : (h.setSite s x).links = h.links := rfl
@[simp] theorem Hub.setSite_cols (h : Hub) (s : Nat) (x : Site) : (h.setSite s x).cols = h.cols := rfl
@[simp] theorem Hub.setSite_perma (h : Hub) (s : Nat) (x : Site) : (h.setSite s x).perma = h.perma := rfl
@[simp] theorem Hub.setSite_flash (h : Hub) (s : Nat) (x : Site) : (h.setSite s x).flash = h.flash := rfl
@[simp] theorem Hub.setSite_boot (h : Hub) (s : Nat) (x : Site) : (h.setSite s x).boot = h.boot := rfl
@[simp] theorem Hub.setSite_cfg (h : Hub) (s : Nat) (x : Site) : (h.setSite s x).cfg = h.cfg := rfl
@[simp] theorem Hub.setSite_iso (h : Hub) (s : Nat) (x : Site) : (h.setSite s x).iso = h.iso := rfl
@[simp] theorem Hub.setSite_alm (h : Hub) (s : Nat) (x : Site) : (h.setSite s x).alm = h.alm := rfl
@[simp] theorem Hub.setSite_sec (h : Hub) (s : Nat) (x : Site) : (h.setSite s x).sec = h.sec := rfl
@[simp] theorem Hub.setSite_tap (h : Hub) (s : Nat) (x : Site) : (h.setSite s x).tap = h.tap := rfl

@[simp] theorem Hub.setCore_regs (h : Hub) (c : Nat) (x : Core) : (h.setCore c x).regs = h.regs := rfl
@[simp] theorem Hub.setCore_halves (h : Hub) (c : Nat) (x : Core) : (h.setCore c x).halves = h.halves := rfl
@[simp] theorem Hub.setCore_fresh (h : Hub) (c : Nat) (x : Core) : (h.setCore c x).fresh = h.fresh := rfl
@[simp] theorem Hub.setCore_sent (h : Hub) (c : Nat) (x : Core) : (h.setCore c x).sent = h.sent := rfl
@[simp] theorem Hub.setCore_mor (h : Hub) (c : Nat) (x : Core) : (h.setCore c x).mor = h.mor := rfl
@[simp] theorem Hub.setCore_boots (h : Hub) (c : Nat) (x : Core) : (h.setCore c x).boots = h.boots := rfl
@[simp] theorem Hub.setCore_cursors (h : Hub) (c : Nat) (x : Core) : (h.setCore c x).cursors = h.cursors := rfl
@[simp] theorem Hub.setCore_pba (h : Hub) (c : Nat) (x : Core) : (h.setCore c x).pba = h.pba := rfl
@[simp] theorem Hub.setCore_queues (h : Hub) (c : Nat) (x : Core) : (h.setCore c x).queues = h.queues := rfl
@[simp] theorem Hub.setCore_epochs (h : Hub) (c : Nat) (x : Core) : (h.setCore c x).epochs = h.epochs := rfl
@[simp] theorem Hub.setCore_tags (h : Hub) (c : Nat) (x : Core) : (h.setCore c x).tags = h.tags := rfl
@[simp] theorem Hub.setCore_xlt (h : Hub) (c : Nat) (x : Core) : (h.setCore c x).xlt = h.xlt := rfl
@[simp] theorem Hub.setCore_drift (h : Hub) (c : Nat) (x : Core) : (h.setCore c x).drift = h.drift := rfl
@[simp] theorem Hub.setCore_dew (h : Hub) (c : Nat) (x : Core) : (h.setCore c x).dew = h.dew := rfl
@[simp] theorem Hub.setCore_sites (h : Hub) (c : Nat) (x : Core) : (h.setCore c x).sites = h.sites := rfl
@[simp] theorem Hub.setCore_qos (h : Hub) (c : Nat) (x : Core) : (h.setCore c x).qos = h.qos := rfl
@[simp] theorem Hub.setCore_parts (h : Hub) (c : Nat) (x : Core) : (h.setCore c x).parts = h.parts := rfl
@[simp] theorem Hub.setCore_ras (h : Hub) (c : Nat) (x : Core) : (h.setCore c x).ras = h.ras := rfl
@[simp] theorem Hub.setCore_journal (h : Hub) (c : Nat) (x : Core) : (h.setCore c x).journal = h.journal := rfl
@[simp] theorem Hub.setCore_links (h : Hub) (c : Nat) (x : Core) : (h.setCore c x).links = h.links := rfl
@[simp] theorem Hub.setCore_cols (h : Hub) (c : Nat) (x : Core) : (h.setCore c x).cols = h.cols := rfl
@[simp] theorem Hub.setCore_perma (h : Hub) (c : Nat) (x : Core) : (h.setCore c x).perma = h.perma := rfl
@[simp] theorem Hub.setCore_flash (h : Hub) (c : Nat) (x : Core) : (h.setCore c x).flash = h.flash := rfl
@[simp] theorem Hub.setCore_boot (h : Hub) (c : Nat) (x : Core) : (h.setCore c x).boot = h.boot := rfl
@[simp] theorem Hub.setCore_cfg (h : Hub) (c : Nat) (x : Core) : (h.setCore c x).cfg = h.cfg := rfl
@[simp] theorem Hub.setCore_iso (h : Hub) (c : Nat) (x : Core) : (h.setCore c x).iso = h.iso := rfl
@[simp] theorem Hub.setCore_alm (h : Hub) (c : Nat) (x : Core) : (h.setCore c x).alm = h.alm := rfl
@[simp] theorem Hub.setCore_sec (h : Hub) (c : Nat) (x : Core) : (h.setCore c x).sec = h.sec := rfl
@[simp] theorem Hub.setCore_tap (h : Hub) (c : Nat) (x : Core) : (h.setCore c x).tap = h.tap := rfl

@[simp] theorem Hub.setLaunch_regs (h : Hub) (k : Nat) (l : Launch) : (h.setLaunch k l).regs = h.regs := rfl
@[simp] theorem Hub.setLaunch_halves (h : Hub) (k : Nat) (l : Launch) : (h.setLaunch k l).halves = h.halves := rfl
@[simp] theorem Hub.setLaunch_fresh (h : Hub) (k : Nat) (l : Launch) : (h.setLaunch k l).fresh = h.fresh := rfl
@[simp] theorem Hub.setLaunch_sent (h : Hub) (k : Nat) (l : Launch) : (h.setLaunch k l).sent = h.sent := rfl
@[simp] theorem Hub.setLaunch_mor (h : Hub) (k : Nat) (l : Launch) : (h.setLaunch k l).mor = h.mor := rfl
@[simp] theorem Hub.setLaunch_boots (h : Hub) (k : Nat) (l : Launch) : (h.setLaunch k l).boots = h.boots := rfl
@[simp] theorem Hub.setLaunch_cursors (h : Hub) (k : Nat) (l : Launch) : (h.setLaunch k l).cursors = h.cursors := rfl
@[simp] theorem Hub.setLaunch_pba (h : Hub) (k : Nat) (l : Launch) : (h.setLaunch k l).pba = h.pba := rfl
@[simp] theorem Hub.setLaunch_queues (h : Hub) (k : Nat) (l : Launch) : (h.setLaunch k l).queues = h.queues := rfl
@[simp] theorem Hub.setLaunch_epochs (h : Hub) (k : Nat) (l : Launch) : (h.setLaunch k l).epochs = h.epochs := rfl
@[simp] theorem Hub.setLaunch_tags (h : Hub) (k : Nat) (l : Launch) : (h.setLaunch k l).tags = h.tags := rfl
@[simp] theorem Hub.setLaunch_xlt (h : Hub) (k : Nat) (l : Launch) : (h.setLaunch k l).xlt = h.xlt := rfl
@[simp] theorem Hub.setLaunch_drift (h : Hub) (k : Nat) (l : Launch) : (h.setLaunch k l).drift = h.drift := rfl
@[simp] theorem Hub.setLaunch_dew (h : Hub) (k : Nat) (l : Launch) : (h.setLaunch k l).dew = h.dew := rfl
@[simp] theorem Hub.setLaunch_sites (h : Hub) (k : Nat) (l : Launch) : (h.setLaunch k l).sites = h.sites := rfl
@[simp] theorem Hub.setLaunch_qos (h : Hub) (k : Nat) (l : Launch) : (h.setLaunch k l).qos = h.qos := rfl
@[simp] theorem Hub.setLaunch_parts (h : Hub) (k : Nat) (l : Launch) : (h.setLaunch k l).parts = h.parts := rfl
@[simp] theorem Hub.setLaunch_ras (h : Hub) (k : Nat) (l : Launch) : (h.setLaunch k l).ras = h.ras := rfl
@[simp] theorem Hub.setLaunch_journal (h : Hub) (k : Nat) (l : Launch) : (h.setLaunch k l).journal = h.journal := rfl
@[simp] theorem Hub.setLaunch_links (h : Hub) (k : Nat) (l : Launch) : (h.setLaunch k l).links = h.links := rfl
@[simp] theorem Hub.setLaunch_cols (h : Hub) (k : Nat) (l : Launch) : (h.setLaunch k l).cols = h.cols := rfl
@[simp] theorem Hub.setLaunch_perma (h : Hub) (k : Nat) (l : Launch) : (h.setLaunch k l).perma = h.perma := rfl
@[simp] theorem Hub.setLaunch_flash (h : Hub) (k : Nat) (l : Launch) : (h.setLaunch k l).flash = h.flash := rfl
@[simp] theorem Hub.setLaunch_boot (h : Hub) (k : Nat) (l : Launch) : (h.setLaunch k l).boot = h.boot := rfl
@[simp] theorem Hub.setLaunch_cfg (h : Hub) (k : Nat) (l : Launch) : (h.setLaunch k l).cfg = h.cfg := rfl
@[simp] theorem Hub.setLaunch_iso (h : Hub) (k : Nat) (l : Launch) : (h.setLaunch k l).iso = h.iso := rfl
@[simp] theorem Hub.setLaunch_alm (h : Hub) (k : Nat) (l : Launch) : (h.setLaunch k l).alm = h.alm := rfl
@[simp] theorem Hub.setLaunch_sec (h : Hub) (k : Nat) (l : Launch) : (h.setLaunch k l).sec = h.sec := rfl
@[simp] theorem Hub.setLaunch_tap (h : Hub) (k : Nat) (l : Launch) : (h.setLaunch k l).tap = h.tap := rfl

@[simp] theorem Hub.setStream_halves (h : Hub) (n : Nat) (x : Stream) : (h.setStream n x).halves = h.halves := rfl
@[simp] theorem Hub.setStream_fresh (h : Hub) (n : Nat) (x : Stream) : (h.setStream n x).fresh = h.fresh := rfl
@[simp] theorem Hub.setStream_sent (h : Hub) (n : Nat) (x : Stream) : (h.setStream n x).sent = h.sent := rfl
@[simp] theorem Hub.setStream_mor (h : Hub) (n : Nat) (x : Stream) : (h.setStream n x).mor = h.mor := rfl
@[simp] theorem Hub.setStream_boots (h : Hub) (n : Nat) (x : Stream) : (h.setStream n x).boots = h.boots := rfl
@[simp] theorem Hub.setStream_cursors (h : Hub) (n : Nat) (x : Stream) : (h.setStream n x).cursors = h.cursors := rfl
@[simp] theorem Hub.setStream_pba (h : Hub) (n : Nat) (x : Stream) : (h.setStream n x).pba = h.pba := rfl
@[simp] theorem Hub.setStream_queues (h : Hub) (n : Nat) (x : Stream) : (h.setStream n x).queues = h.queues := rfl
@[simp] theorem Hub.setStream_epochs (h : Hub) (n : Nat) (x : Stream) : (h.setStream n x).epochs = h.epochs := rfl
@[simp] theorem Hub.setStream_tags (h : Hub) (n : Nat) (x : Stream) : (h.setStream n x).tags = h.tags := rfl
@[simp] theorem Hub.setStream_sea (h : Hub) (n : Nat) (x : Stream) : (h.setStream n x).sea = h.sea := rfl
@[simp] theorem Hub.setStream_xlt (h : Hub) (n : Nat) (x : Stream) : (h.setStream n x).xlt = h.xlt := rfl
@[simp] theorem Hub.setStream_dew (h : Hub) (n : Nat) (x : Stream) : (h.setStream n x).dew = h.dew := rfl
@[simp] theorem Hub.setStream_sites (h : Hub) (n : Nat) (x : Stream) : (h.setStream n x).sites = h.sites := rfl
@[simp] theorem Hub.setStream_qos (h : Hub) (n : Nat) (x : Stream) : (h.setStream n x).qos = h.qos := rfl
@[simp] theorem Hub.setStream_parts (h : Hub) (n : Nat) (x : Stream) : (h.setStream n x).parts = h.parts := rfl
@[simp] theorem Hub.setStream_ras (h : Hub) (n : Nat) (x : Stream) : (h.setStream n x).ras = h.ras := rfl
@[simp] theorem Hub.setStream_journal (h : Hub) (n : Nat) (x : Stream) : (h.setStream n x).journal = h.journal := rfl
@[simp] theorem Hub.setStream_links (h : Hub) (n : Nat) (x : Stream) : (h.setStream n x).links = h.links := rfl
@[simp] theorem Hub.setStream_cols (h : Hub) (n : Nat) (x : Stream) : (h.setStream n x).cols = h.cols := rfl
@[simp] theorem Hub.setStream_perma (h : Hub) (n : Nat) (x : Stream) : (h.setStream n x).perma = h.perma := rfl
@[simp] theorem Hub.setStream_flash (h : Hub) (n : Nat) (x : Stream) : (h.setStream n x).flash = h.flash := rfl
@[simp] theorem Hub.setStream_boot (h : Hub) (n : Nat) (x : Stream) : (h.setStream n x).boot = h.boot := rfl
@[simp] theorem Hub.setStream_cfg (h : Hub) (n : Nat) (x : Stream) : (h.setStream n x).cfg = h.cfg := rfl
@[simp] theorem Hub.setStream_iso (h : Hub) (n : Nat) (x : Stream) : (h.setStream n x).iso = h.iso := rfl
@[simp] theorem Hub.setStream_alm (h : Hub) (n : Nat) (x : Stream) : (h.setStream n x).alm = h.alm := rfl
@[simp] theorem Hub.setStream_sec (h : Hub) (n : Nat) (x : Stream) : (h.setStream n x).sec = h.sec := rfl
@[simp] theorem Hub.setStream_tap (h : Hub) (n : Nat) (x : Stream) : (h.setStream n x).tap = h.tap := rfl

@[simp] theorem Hub.setGroup_regs (h : Hub) (g : Nat) (c : ColGroup) : (h.setGroup g c).regs = h.regs := rfl
@[simp] theorem Hub.setGroup_halves (h : Hub) (g : Nat) (c : ColGroup) : (h.setGroup g c).halves = h.halves := rfl
@[simp] theorem Hub.setGroup_fresh (h : Hub) (g : Nat) (c : ColGroup) : (h.setGroup g c).fresh = h.fresh := rfl
@[simp] theorem Hub.setGroup_sent (h : Hub) (g : Nat) (c : ColGroup) : (h.setGroup g c).sent = h.sent := rfl
@[simp] theorem Hub.setGroup_mor (h : Hub) (g : Nat) (c : ColGroup) : (h.setGroup g c).mor = h.mor := rfl
@[simp] theorem Hub.setGroup_boots (h : Hub) (g : Nat) (c : ColGroup) : (h.setGroup g c).boots = h.boots := rfl
@[simp] theorem Hub.setGroup_cursors (h : Hub) (g : Nat) (c : ColGroup) : (h.setGroup g c).cursors = h.cursors := rfl
@[simp] theorem Hub.setGroup_pba (h : Hub) (g : Nat) (c : ColGroup) : (h.setGroup g c).pba = h.pba := rfl
@[simp] theorem Hub.setGroup_queues (h : Hub) (g : Nat) (c : ColGroup) : (h.setGroup g c).queues = h.queues := rfl
@[simp] theorem Hub.setGroup_epochs (h : Hub) (g : Nat) (c : ColGroup) : (h.setGroup g c).epochs = h.epochs := rfl
@[simp] theorem Hub.setGroup_tags (h : Hub) (g : Nat) (c : ColGroup) : (h.setGroup g c).tags = h.tags := rfl
@[simp] theorem Hub.setGroup_sea (h : Hub) (g : Nat) (c : ColGroup) : (h.setGroup g c).sea = h.sea := rfl
@[simp] theorem Hub.setGroup_xlt (h : Hub) (g : Nat) (c : ColGroup) : (h.setGroup g c).xlt = h.xlt := rfl
@[simp] theorem Hub.setGroup_drift (h : Hub) (g : Nat) (c : ColGroup) : (h.setGroup g c).drift = h.drift := rfl
@[simp] theorem Hub.setGroup_dew (h : Hub) (g : Nat) (c : ColGroup) : (h.setGroup g c).dew = h.dew := rfl
@[simp] theorem Hub.setGroup_sites (h : Hub) (g : Nat) (c : ColGroup) : (h.setGroup g c).sites = h.sites := rfl
@[simp] theorem Hub.setGroup_qos (h : Hub) (g : Nat) (c : ColGroup) : (h.setGroup g c).qos = h.qos := rfl
@[simp] theorem Hub.setGroup_parts (h : Hub) (g : Nat) (c : ColGroup) : (h.setGroup g c).parts = h.parts := rfl
@[simp] theorem Hub.setGroup_ras (h : Hub) (g : Nat) (c : ColGroup) : (h.setGroup g c).ras = h.ras := rfl
@[simp] theorem Hub.setGroup_journal (h : Hub) (g : Nat) (c : ColGroup) : (h.setGroup g c).journal = h.journal := rfl
@[simp] theorem Hub.setGroup_links (h : Hub) (g : Nat) (c : ColGroup) : (h.setGroup g c).links = h.links := rfl
@[simp] theorem Hub.setGroup_perma (h : Hub) (g : Nat) (c : ColGroup) : (h.setGroup g c).perma = h.perma := rfl
@[simp] theorem Hub.setGroup_flash (h : Hub) (g : Nat) (c : ColGroup) : (h.setGroup g c).flash = h.flash := rfl
@[simp] theorem Hub.setGroup_boot (h : Hub) (g : Nat) (c : ColGroup) : (h.setGroup g c).boot = h.boot := rfl
@[simp] theorem Hub.setGroup_cfg (h : Hub) (g : Nat) (c : ColGroup) : (h.setGroup g c).cfg = h.cfg := rfl
@[simp] theorem Hub.setGroup_iso (h : Hub) (g : Nat) (c : ColGroup) : (h.setGroup g c).iso = h.iso := rfl
@[simp] theorem Hub.setGroup_alm (h : Hub) (g : Nat) (c : ColGroup) : (h.setGroup g c).alm = h.alm := rfl
@[simp] theorem Hub.setGroup_sec (h : Hub) (g : Nat) (c : ColGroup) : (h.setGroup g c).sec = h.sec := rfl
@[simp] theorem Hub.setGroup_tap (h : Hub) (g : Nat) (c : ColGroup) : (h.setGroup g c).tap = h.tap := rfl

@[simp] theorem Hub.setQosPort_regs (h : Hub) (n : Nat) (x : QosPort) : (h.setQosPort n x).regs = h.regs := rfl
@[simp] theorem Hub.setQosPort_halves (h : Hub) (n : Nat) (x : QosPort) : (h.setQosPort n x).halves = h.halves := rfl
@[simp] theorem Hub.setQosPort_fresh (h : Hub) (n : Nat) (x : QosPort) : (h.setQosPort n x).fresh = h.fresh := rfl
@[simp] theorem Hub.setQosPort_sent (h : Hub) (n : Nat) (x : QosPort) : (h.setQosPort n x).sent = h.sent := rfl
@[simp] theorem Hub.setQosPort_mor (h : Hub) (n : Nat) (x : QosPort) : (h.setQosPort n x).mor = h.mor := rfl
@[simp] theorem Hub.setQosPort_boots (h : Hub) (n : Nat) (x : QosPort) : (h.setQosPort n x).boots = h.boots := rfl
@[simp] theorem Hub.setQosPort_cursors (h : Hub) (n : Nat) (x : QosPort) : (h.setQosPort n x).cursors = h.cursors := rfl
@[simp] theorem Hub.setQosPort_pba (h : Hub) (n : Nat) (x : QosPort) : (h.setQosPort n x).pba = h.pba := rfl
@[simp] theorem Hub.setQosPort_queues (h : Hub) (n : Nat) (x : QosPort) : (h.setQosPort n x).queues = h.queues := rfl
@[simp] theorem Hub.setQosPort_epochs (h : Hub) (n : Nat) (x : QosPort) : (h.setQosPort n x).epochs = h.epochs := rfl
@[simp] theorem Hub.setQosPort_tags (h : Hub) (n : Nat) (x : QosPort) : (h.setQosPort n x).tags = h.tags := rfl
@[simp] theorem Hub.setQosPort_sea (h : Hub) (n : Nat) (x : QosPort) : (h.setQosPort n x).sea = h.sea := rfl
@[simp] theorem Hub.setQosPort_xlt (h : Hub) (n : Nat) (x : QosPort) : (h.setQosPort n x).xlt = h.xlt := rfl
@[simp] theorem Hub.setQosPort_drift (h : Hub) (n : Nat) (x : QosPort) : (h.setQosPort n x).drift = h.drift := rfl
@[simp] theorem Hub.setQosPort_dew (h : Hub) (n : Nat) (x : QosPort) : (h.setQosPort n x).dew = h.dew := rfl
@[simp] theorem Hub.setQosPort_sites (h : Hub) (n : Nat) (x : QosPort) : (h.setQosPort n x).sites = h.sites := rfl
@[simp] theorem Hub.setQosPort_parts (h : Hub) (n : Nat) (x : QosPort) : (h.setQosPort n x).parts = h.parts := rfl
@[simp] theorem Hub.setQosPort_ras (h : Hub) (n : Nat) (x : QosPort) : (h.setQosPort n x).ras = h.ras := rfl
@[simp] theorem Hub.setQosPort_journal (h : Hub) (n : Nat) (x : QosPort) : (h.setQosPort n x).journal = h.journal := rfl
@[simp] theorem Hub.setQosPort_links (h : Hub) (n : Nat) (x : QosPort) : (h.setQosPort n x).links = h.links := rfl
@[simp] theorem Hub.setQosPort_cols (h : Hub) (n : Nat) (x : QosPort) : (h.setQosPort n x).cols = h.cols := rfl
@[simp] theorem Hub.setQosPort_perma (h : Hub) (n : Nat) (x : QosPort) : (h.setQosPort n x).perma = h.perma := rfl
@[simp] theorem Hub.setQosPort_flash (h : Hub) (n : Nat) (x : QosPort) : (h.setQosPort n x).flash = h.flash := rfl
@[simp] theorem Hub.setQosPort_boot (h : Hub) (n : Nat) (x : QosPort) : (h.setQosPort n x).boot = h.boot := rfl
@[simp] theorem Hub.setQosPort_cfg (h : Hub) (n : Nat) (x : QosPort) : (h.setQosPort n x).cfg = h.cfg := rfl
@[simp] theorem Hub.setQosPort_iso (h : Hub) (n : Nat) (x : QosPort) : (h.setQosPort n x).iso = h.iso := rfl
@[simp] theorem Hub.setQosPort_alm (h : Hub) (n : Nat) (x : QosPort) : (h.setQosPort n x).alm = h.alm := rfl
@[simp] theorem Hub.setQosPort_sec (h : Hub) (n : Nat) (x : QosPort) : (h.setQosPort n x).sec = h.sec := rfl
@[simp] theorem Hub.setQosPort_tap (h : Hub) (n : Nat) (x : QosPort) : (h.setQosPort n x).tap = h.tap := rfl

@[simp] theorem Hub.setPath_regs (h : Hub) (p : LPath) : (h.setPath p).regs = h.regs := rfl
@[simp] theorem Hub.setPath_halves (h : Hub) (p : LPath) : (h.setPath p).halves = h.halves := rfl
@[simp] theorem Hub.setPath_fresh (h : Hub) (p : LPath) : (h.setPath p).fresh = h.fresh := rfl
@[simp] theorem Hub.setPath_sent (h : Hub) (p : LPath) : (h.setPath p).sent = h.sent := rfl
@[simp] theorem Hub.setPath_mor (h : Hub) (p : LPath) : (h.setPath p).mor = h.mor := rfl
@[simp] theorem Hub.setPath_boots (h : Hub) (p : LPath) : (h.setPath p).boots = h.boots := rfl
@[simp] theorem Hub.setPath_cursors (h : Hub) (p : LPath) : (h.setPath p).cursors = h.cursors := rfl
@[simp] theorem Hub.setPath_pba (h : Hub) (p : LPath) : (h.setPath p).pba = h.pba := rfl
@[simp] theorem Hub.setPath_queues (h : Hub) (p : LPath) : (h.setPath p).queues = h.queues := rfl
@[simp] theorem Hub.setPath_epochs (h : Hub) (p : LPath) : (h.setPath p).epochs = h.epochs := rfl
@[simp] theorem Hub.setPath_tags (h : Hub) (p : LPath) : (h.setPath p).tags = h.tags := rfl
@[simp] theorem Hub.setPath_sea (h : Hub) (p : LPath) : (h.setPath p).sea = h.sea := rfl
@[simp] theorem Hub.setPath_xlt (h : Hub) (p : LPath) : (h.setPath p).xlt = h.xlt := rfl
@[simp] theorem Hub.setPath_drift (h : Hub) (p : LPath) : (h.setPath p).drift = h.drift := rfl
@[simp] theorem Hub.setPath_dew (h : Hub) (p : LPath) : (h.setPath p).dew = h.dew := rfl
@[simp] theorem Hub.setPath_sites (h : Hub) (p : LPath) : (h.setPath p).sites = h.sites := rfl
@[simp] theorem Hub.setPath_qos (h : Hub) (p : LPath) : (h.setPath p).qos = h.qos := rfl
@[simp] theorem Hub.setPath_parts (h : Hub) (p : LPath) : (h.setPath p).parts = h.parts := rfl
@[simp] theorem Hub.setPath_ras (h : Hub) (p : LPath) : (h.setPath p).ras = h.ras := rfl
@[simp] theorem Hub.setPath_journal (h : Hub) (p : LPath) : (h.setPath p).journal = h.journal := rfl
@[simp] theorem Hub.setPath_cols (h : Hub) (p : LPath) : (h.setPath p).cols = h.cols := rfl
@[simp] theorem Hub.setPath_perma (h : Hub) (p : LPath) : (h.setPath p).perma = h.perma := rfl
@[simp] theorem Hub.setPath_flash (h : Hub) (p : LPath) : (h.setPath p).flash = h.flash := rfl
@[simp] theorem Hub.setPath_boot (h : Hub) (p : LPath) : (h.setPath p).boot = h.boot := rfl
@[simp] theorem Hub.setPath_cfg (h : Hub) (p : LPath) : (h.setPath p).cfg = h.cfg := rfl
@[simp] theorem Hub.setPath_iso (h : Hub) (p : LPath) : (h.setPath p).iso = h.iso := rfl
@[simp] theorem Hub.setPath_alm (h : Hub) (p : LPath) : (h.setPath p).alm = h.alm := rfl
@[simp] theorem Hub.setPath_sec (h : Hub) (p : LPath) : (h.setPath p).sec = h.sec := rfl
@[simp] theorem Hub.setPath_tap (h : Hub) (p : LPath) : (h.setPath p).tap = h.tap := rfl

@[simp] theorem Hub.flashWrite_regs (h : Hub) (a : Nat) (l : List Byte) : (h.flashWrite a l).regs = h.regs := rfl
@[simp] theorem Hub.flashWrite_halves (h : Hub) (a : Nat) (l : List Byte) : (h.flashWrite a l).halves = h.halves := rfl
@[simp] theorem Hub.flashWrite_fresh (h : Hub) (a : Nat) (l : List Byte) : (h.flashWrite a l).fresh = h.fresh := rfl
@[simp] theorem Hub.flashWrite_sent (h : Hub) (a : Nat) (l : List Byte) : (h.flashWrite a l).sent = h.sent := rfl
@[simp] theorem Hub.flashWrite_mor (h : Hub) (a : Nat) (l : List Byte) : (h.flashWrite a l).mor = h.mor := rfl
@[simp] theorem Hub.flashWrite_boots (h : Hub) (a : Nat) (l : List Byte) : (h.flashWrite a l).boots = h.boots := rfl
@[simp] theorem Hub.flashWrite_cursors (h : Hub) (a : Nat) (l : List Byte) : (h.flashWrite a l).cursors = h.cursors := rfl
@[simp] theorem Hub.flashWrite_pba (h : Hub) (a : Nat) (l : List Byte) : (h.flashWrite a l).pba = h.pba := rfl
@[simp] theorem Hub.flashWrite_queues (h : Hub) (a : Nat) (l : List Byte) : (h.flashWrite a l).queues = h.queues := rfl
@[simp] theorem Hub.flashWrite_epochs (h : Hub) (a : Nat) (l : List Byte) : (h.flashWrite a l).epochs = h.epochs := rfl
@[simp] theorem Hub.flashWrite_tags (h : Hub) (a : Nat) (l : List Byte) : (h.flashWrite a l).tags = h.tags := rfl
@[simp] theorem Hub.flashWrite_sea (h : Hub) (a : Nat) (l : List Byte) : (h.flashWrite a l).sea = h.sea := rfl
@[simp] theorem Hub.flashWrite_xlt (h : Hub) (a : Nat) (l : List Byte) : (h.flashWrite a l).xlt = h.xlt := rfl
@[simp] theorem Hub.flashWrite_drift (h : Hub) (a : Nat) (l : List Byte) : (h.flashWrite a l).drift = h.drift := rfl
@[simp] theorem Hub.flashWrite_dew (h : Hub) (a : Nat) (l : List Byte) : (h.flashWrite a l).dew = h.dew := rfl
@[simp] theorem Hub.flashWrite_sites (h : Hub) (a : Nat) (l : List Byte) : (h.flashWrite a l).sites = h.sites := rfl
@[simp] theorem Hub.flashWrite_qos (h : Hub) (a : Nat) (l : List Byte) : (h.flashWrite a l).qos = h.qos := rfl
@[simp] theorem Hub.flashWrite_parts (h : Hub) (a : Nat) (l : List Byte) : (h.flashWrite a l).parts = h.parts := rfl
@[simp] theorem Hub.flashWrite_ras (h : Hub) (a : Nat) (l : List Byte) : (h.flashWrite a l).ras = h.ras := rfl
@[simp] theorem Hub.flashWrite_journal (h : Hub) (a : Nat) (l : List Byte) : (h.flashWrite a l).journal = h.journal := rfl
@[simp] theorem Hub.flashWrite_links (h : Hub) (a : Nat) (l : List Byte) : (h.flashWrite a l).links = h.links := rfl
@[simp] theorem Hub.flashWrite_cols (h : Hub) (a : Nat) (l : List Byte) : (h.flashWrite a l).cols = h.cols := rfl
@[simp] theorem Hub.flashWrite_perma (h : Hub) (a : Nat) (l : List Byte) : (h.flashWrite a l).perma = h.perma := rfl
@[simp] theorem Hub.flashWrite_boot (h : Hub) (a : Nat) (l : List Byte) : (h.flashWrite a l).boot = h.boot := rfl
@[simp] theorem Hub.flashWrite_cfg (h : Hub) (a : Nat) (l : List Byte) : (h.flashWrite a l).cfg = h.cfg := rfl
@[simp] theorem Hub.flashWrite_iso (h : Hub) (a : Nat) (l : List Byte) : (h.flashWrite a l).iso = h.iso := rfl
@[simp] theorem Hub.flashWrite_alm (h : Hub) (a : Nat) (l : List Byte) : (h.flashWrite a l).alm = h.alm := rfl
@[simp] theorem Hub.flashWrite_sec (h : Hub) (a : Nat) (l : List Byte) : (h.flashWrite a l).sec = h.sec := rfl
@[simp] theorem Hub.flashWrite_tap (h : Hub) (a : Nat) (l : List Byte) : (h.flashWrite a l).tap = h.tap := rfl

end Sys2Proof.Machine
end

