-- ==== Sys2Proof/Tests/Slice0.lean ====
section
/-! SUPPORT. Tests: an ill-formed command for each check of WellFormed; for every statement that has hypotheses, states and operands that
meet them (witness_…); and a few single steps with results worked out by hand from the spec (test_…). -/

namespace Sys2Proof.Tests
set_option Elab.async false

open Sys2Proof Machine Claims

-- The table gives no row a word: no word spells a command

theorem test_no_word_spells_a_command : decodeTableWord 0 0 = none ∧ decodeTableWord 32 0xFFFFFFFF = none := by decide

-- Cores

/-- Core 3 of floe 0. -/
def cid : CoreId := ⟨0, 3⟩

/-- The machine after reset with core 3 as given. -/
def core3 (x : Core) : State := State.reset.onHub (·.setCore 3 x)

/-- Core 3 ready at offset 0x100 with `a` in s1 and `b` in s2. -/
def mk (a b : Word64) : State :=
  core3 { Core.rst with run := .ready, sr := [(1, a), (2, b)].filter (fun (p : Nat × Word64) => p.2 ≠ 0), pc := 0x100, launch := 1 }

/-- The same in a launch whose code holds 0x400 bytes. -/
def mkl (a b : Word64) : State := (mk a b).onHub (·.setLaunch 0 ⟨⟨0, 0, 0, 0⟩, 3, 0x400 * 2 ^ 64, 0, 0, [], [], none, false, 0, 0⟩)

theorem witness_scalar_integer :
    Ready cid (mk 7 2) ∧ (⟨5, 1, 2, 0⟩ : RForm).x = 0 ∧ (⟨5, 1, 255⟩ : IForm).imm.toNat < 256 ∧ 256 ≤ (⟨5, 1, 256⟩ : IForm).imm.toNat
      ∧ (⟨4, 3, 0, 9⟩ : MForm).res = 0 ∧ (⟨4, 3, 1, 9⟩ : MForm).res ≠ 0 := by
  unfold Ready; decide +kernel

/-- Worked by hand from R116: 2^63 − 1 plus 1 wraps to −2^63, and −7 divided by 2 truncates to −3. -/
theorem test_add_wraps_and_div_truncates :
    exec (.add cid ⟨5, 1, 2, 0⟩) (mk 0x7FFFFFFFFFFFFFFF 1) = .next (retired cid (mk 0x7FFFFFFFFFFFFFFF 1)
        (wroteS (coreOf cid (mk 0x7FFFFFFFFFFFFFFF 1)) 5 0x8000000000000000))
      ∧ exec (.div cid ⟨5, 1, 2, 0⟩) (mk (-7) 2) = .next (retired cid (mk (-7) 2) (wroteS (coreOf cid (mk (-7) 2)) 5 (-3))) := by
  constructor <;> rfl

/-- Core 3 with FCTRL as given: 1.0 in s1 and 0.0 in s2. -/
def mkf (fc : Word64) : State := (mk 0x3F800000 0).onHub (fun h => h.setCore 3 { h.core 3 with fctrl := fc })

theorem witness_scalar_float :
    Ready cid (mkf 0) ∧ Ready cid (mkf 0xFF00)
      ∧ (let x := coreOf cid (mkf 0); (fpArith .div fp32 x.ftz x.arithRound (fps x 1) (fps x 2)).2.toNat &&& x.fexc = 0)
      ∧ (let x := coreOf cid (mkf 0xFF00); (fpArith .div fp32 x.ftz x.arithRound (fps x 1) (fps x 2)).2.toNat &&& x.fexc ≠ 0)
      ∧ (let x := coreOf cid (mkf 0); fcvtLVal (fpIn fp32 x.ftz (fps x 1)).1 x.arithRound = some (1, false)
          ∧ (({ nx := false } : FFlags).toNat &&& x.fexc) = 0) := by
  unfold Ready; decide +kernel

/-- Offsets 0 to 0x3FC lie in the code; 0x400 does not. -/
theorem witness_branches :
    Ready cid (mkl 1 1) ∧ (let x := coreOf cid (mkl 1 1)
      x.pc = 0x100 ∧ ¬ RefusedTarget cid (mkl 1 1) (x.pc + 4 * (0xBF : BitVec 16).signExtend 32).toNat
        ∧ RefusedTarget cid (mkl 1 1) (x.pc + 4 * (0xC0 : BitVec 16).signExtend 32).toNat
        ∧ (∀ e ∈ branchRows, e.2.2 (x.s 1) (x.s 2) = decide (e.1 = 0x20 ∨ e.1 = 0x23 ∨ e.1 = 0x25)))
      ∧ (⟨10, 3, 0⟩ : BForm).rs1.toNat / 8 < 3 ∧ (⟨10, 3, 0⟩ : BForm).rs2.toNat < 4
      ∧ ¬ RefusedTarget cid (mkl 0x3FC 1) (coreOf cid (mkl 0x3FC 1)).pc.toNat
      ∧ RefusedTarget cid (mkl 0x3FE 1) ((coreOf cid (mkl 0x3FE 1)).s 1).toNat := by
  unfold Ready RefusedTarget; decide +kernel

theorem witness_control_registers :
    Ready cid (mk 5 0) ∧ (csrOf cid (mk 5 0) 0 = some 0 ∧ csrOf cid (mk 5 0) 2 = some 0 ∧ csrOf cid (mk 5 0) 3 ≠ none ∧ csrOf cid (mk 5 0) 0xFFF = none)
      ∧ (⟨5, 1, 1⟩ : I12Form).imm.toNat = 1 ∧ 4 ≤ (⟨5, 1, 4⟩ : I12Form).imm.toNat ∧ (⟨5, 1, 255⟩ : I12Form).imm.toNat < 256
      ∧ ((1 : Word64) ||| (coreOf cid (mk 5 0)).fctrl).toNat % 8 < 5 ∧ 5 ≤ ((5 : Word64) ||| (coreOf cid (mk 5 0)).fctrl).toNat % 8 := by
  unfold Ready; decide +kernel

/-- Core 3 with an address in s1, and some sectors poisoned. -/
def mm (a b : Word64) (bad : List Nat) : State := { mk a b with mem := { (Memory.rst.wr (privBase 3) 8 0xF1F2838485868788) with poison := bad } }

/-- The last eight bytes of private memory, one past them, a poisoned sector, a misaligned address, and a translated one whose walk waits. -/
theorem witness_scalar_loads_and_stores :
    Ready cid (mm 0xFFF0000003FF8 5 []) ∧ placeOf cid (mm 0xFFF0000003FF8 5 []) 0xFFF0000003FF8 8 = .here (privBase 3 + 0x3FF8)
      ∧ (mm 0xFFF0000003FF8 5 []).mem.bad (privBase 3 + 0x3FF8) 8 = false
      ∧ placeOf cid (mm 0xFFF0000004000 5 []) 0xFFF0000004000 8 = .undef
      ∧ (mm 0xFFF0000000000 5 [privBase 3 / 32]).mem.bad (privBase 3) 8 = true
      ∧ 0xFFF0000000001 % 2 ≠ 0 ∧ (0xFFF0000000000 / 2 ^ 40 = 0xFFF ∧ 0xFFF0000003FF8 % 2 ^ 40 + 8 ≤ 0x4000)
      ∧ placeOf cid (mm 0x1000 5 []) 0x1000 8 = .xlat := by
  unfold Ready; decide +kernel

/-- Core 3 with predicate `p`, an index vector in v4 and data in v5, its private memory in reach of s1. -/
def sv (a p : Word64) (ix : Word256) : State :=
  (mm a 0 []).onHub (fun h => h.setCore 3 { h.core 3 with pr := if p = 0 then [] else [(2, p)], vr := [(4, ix), (5, 7)].filter (fun (q : Nat × Word256) => q.2 ≠ 0) })

theorem witness_vector_memory :
    Ready cid (sv 0xFFF0000000000 0xFF 0) ∧ 0xFFF0000000004 % 32 ≠ 0
      ∧ (let s := sv 0xFFF0000000000 0xFF 0
         placeOf cid s 0xFFF0000003FE0 32 = .here (privBase 3 + 0x3FE0)
           ∧ (∀ i < 8, placeOf cid s (0xFFF0000003FE0 + 4 * i) 4 = .here (privBase 3 + 0x3FE0 + 4 * i))
           ∧ s.mem.bad (privBase 3 + 0x3FE0) 32 = false ∧ (∀ i < 8, s.mem.bad (privBase 3 + 0x3FE0 + 4 * i) 4 = false))
      ∧ (let s := sv 0xFFF0000000000 0xFF 0x0000000400000008000000000000000C00000010000000000000002000000024
         let x := coreOf cid s
         let ea (i : Nat) : Nat := ((x.s 1).toNat + wordOf (x.v 4) i) % 2 ^ 64
         (∀ i < 8, (x.p 2).getLsbD i = true → ea i % 4 = 0)
           ∧ (∀ i < 8, (x.p 2).getLsbD i = true → placeOf cid s (ea i) 4 = .here (privBase 3 + wordOf (x.v 4) i)
               ∧ s.mem.bad (privBase 3 + wordOf (x.v 4) i) 4 = false)) := by
  unfold Ready; decide +kernel

theorem witness_atomics :
    Ready cid (mm 0xFFF0000000000 5 []) ∧ 8 ≤ (⟨4, 1, 2, 8⟩ : RForm).x.toNat ∧ (⟨4, 1, 2, 7⟩ : RForm).x.toNat < 8
      ∧ 0xFFF0000000004 % 8 ≠ 0 ∧ placeOf cid (mm 0xFFF0000004000 5 []) 0xFFF0000004000 8 = .undef
      ∧ placeOf cid (mm 0xFFF0000000000 5 []) 0xFFF0000000000 8 = .here (privBase 3)
      ∧ (mm 0xFFF0000000000 5 [privBase 3 / 32]).mem.bad (privBase 3) 8 = true ∧ (mm 0xFFF0000000000 5 []).mem.bad (privBase 3) 8 = false := by
  unfold Ready; decide +kernel

-- Launches, barriers, counters, DMA

/-- A descriptor of two cores a tile, a grid of 1 × 2 × 1 tiles, CO_RESIDENT or not. -/
def desc (co : Bool) : Nat := 6 * 2 ^ (8 * 0x1C) + 2 ^ (8 * 0x20) + 2 * 2 ^ (8 * 0x24) + 2 ^ (8 * 0x28) + (if co then 2 * 2 ^ (8 * 0x1A) else 0)

/-- Core 3 in slot 1 of that launch, with barriers and grid barriers as given; core 2 waits at a barrier. -/
def mkb (n : Word64) (arr grid : List (Nat × Barrier)) (co : Bool) : State := (mk n 0).onHub (fun h =>
  let h : Hub := h.setLaunch 0 ⟨⟨0, 0, 0, 0⟩, 3, desc co, 2, 0, [(0, 0, 0, 2)], [], none, false, 0, 0⟩
  let h : Hub := h.setCore 3 { h.core 3 with slot := 1 }
  let h : Hub := h.setCore 2 { h.core 3 with run := .atBarrier 1 }
  { h with sea := { h.sea with barriers := arr, grid := grid } })

/-- Core 3 has a posted store on its way to a remote window. -/
def storing : State := (mk 0 0).onHub (fun h =>
  { h with links := { h.links with waiting := [(0, 0, ⟨0, 0, 0, 0, 0, 0, 0, [], false, .coreStore 3 0 0, 0, none, 0, 0, false⟩)] } })

theorem witness_system_and_fences :
    Ready cid (mk 1 2) ∧ StoresDone cid (mk 1 2) ∧ (mk 1 2).hub.launchOf (coreOf cid (mk 1 2)) = none
      ∧ StoresDone cid (mkb 0 [] [] true) ∧ ((mkb 0 [] [] true).hub.launchOf (coreOf cid (mkb 0 [] [] true))).isSome = true
      ∧ (⟨0, 0, 0xFF0⟩ : I12Form).imm.toNat % 16 = 0 ∧ (⟨0, 0, 1⟩ : I12Form).imm.toNat % 16 ≠ 0
      ∧ Ready cid storing ∧ ¬ StoresDone cid storing
      ∧ (⟨0, 0, 0⟩ : I14Form).imm = 0 ∧ (⟨0, 1, 0⟩ : I14Form).rs1 ≠ 0 := by
  unfold Ready StoresDone; decide +kernel

/-- Barriers 1 and 14, counts 1, 128, 0 and 129, and a count unlike the first arrival's; barrier 0 with and without the last core; the grid
barrier with three of four cores, all four, and without CO_RESIDENT. -/
theorem witness_barriers :
    (∀ b ∈ [1, 14], ∃ l, BarAt cid ⟨0, 1, BitVec.ofNat 16 b⟩ (mkb 128 [] [] true) b l) ∧ Ready cid (mkb 128 [] [] true)
      ∧ ((coreOf cid (mkb 0 [] [] true)).s 1).toNat = 0 ∧ 128 < ((coreOf cid (mkb 129 [] [] true)).s 1).toNat
      ∧ (let y := barrierAt (mkb 2 [(3, ⟨3, [2]⟩)] [] true) (barKey 0 3 0); y.arrived ≠ [] ∧ y.count ≠ 2)
      ∧ (kadd (barrierAt (mkb 128 [] [] true) (barKey 0 3 0)).arrived 3).length < 128
      ∧ 1 ≤ (kadd (barrierAt (mkb 1 [] [] true) (barKey 0 3 0)).arrived 3).length
      ∧ (slotCores 0 1 2).all (fun d => kmem (kadd (barrierAt (mkb 0 [] [] true) (barKey 0 0 1)).arrived 3) d
          || decide (((mkb 0 [] [] true).hub.core d).run = .ended)) = false
      ∧ (slotCores 0 1 2).all (fun d => kmem (kadd (barrierAt (mkb 0 [(17, ⟨0, [2]⟩)] [] true) (barKey 0 0 1)).arrived 3) d
          || decide (((mkb 0 [(17, ⟨0, [2]⟩)] [] true).hub.core d).run = .ended)) = true
      ∧ (kadd (gridAt (mkb 0 [] [(0, ⟨0, [2]⟩)] true) 0).arrived 3).length < 4
      ∧ 4 ≤ (kadd (gridAt (mkb 0 [] [(0, ⟨0, [0, 1, 2]⟩)] true) 0).arrived 3).length
      ∧ ((mkb 0 [] [] false).hub.launchOf (coreOf cid (mkb 0 [] [] false))).map (·.flag 1) = some false
      ∧ ((mkb 0 [] [] true).hub.launchOf (coreOf cid (mkb 0 [] [] true))).map (·.flag 1) = some true := by
  refine ⟨?_, ?_⟩
  · intro b hb
    refine ⟨⟨⟨0, 0, 0, 0⟩, 3, desc true, 2, 0, [(0, 0, 0, 2)], [], none, false, 0, 0⟩, ?_⟩
    fin_cases hb <;> (unfold BarAt StoresDone; decide +kernel)
  · unfold Ready; decide +kernel

/-- Own and another floe's counter, a counter that has reached its target and one that has not, and an address of no counter. -/
theorem witness_event_counters :
    Ready cid (mk 0xFFF0200000000 1) ∧ (mk 0xFFF0000000000 1).hub.evtAt 3 ((mk 0 1).hub.corePart (coreOf cid (mk 0 1))) 0xFFF0000000000 = none
      ∧ (mk 0 1).hub.evtAt 3 ((mk 0 1).hub.corePart (coreOf cid (mk 0 1))) 0xFFF02000000FC = some (0, 63)
      ∧ StoresDone cid (mk 0 1) ∧ (let s := (mkl 0 1).onHub (·.sets [(Reg.prtCfgExist 3, 1), (Reg.prtFloesMap 3 0, 4)])
         s.hub.evtAt 3 (s.hub.corePart (coreOf cid s)) 0xFFF100C800204 = some (2, 1))
      ∧ (leBytesAt (mk 0 0).mem (eventHpa 0 0) 4 + 2 ^ 32 - 0 % 2 ^ 32) % 2 ^ 32 < 2 ^ 31
      ∧ 2 ^ 31 ≤ (leBytesAt (mk 0 1).mem (eventHpa 0 0) 4 + 2 ^ 32 - 1 % 2 ^ 32) % 2 ^ 32 := by
  unfold Ready StoresDone; decide +kernel

/-- A floe DMA record: addresses, length, rows, strides, formats, event, ORDERED (Table 9 of 04). -/
def recd (src dst len rows stride sf df : Nat) : Nat :=
  src + dst * 2 ^ 64 + len * 2 ^ 128 + rows * 2 ^ 160 + stride * 2 ^ 192 + stride * 2 ^ 224 + sf * 2 ^ 256 + df * 2 ^ 264 + 255 * 2 ^ 272

/-- Core 3 with a record at offset 0x3FD0 of private memory and `n` requests on channel 15. -/
def mkd (b n : Nat) : State :=
  let s := mk 0xFFF0000003FD0 15
  { hub := { s.hub with sea := { s.hub.sea with dma := if n = 0 then [] else [(15, (List.range n).map (fun k => ⟨3, 0, none, k, [], false, 0, false⟩))] } }
    mem := Memory.rst.wr (privBase 3 + 0x3FD0) 48 b, pending := [] }

/-- A record at the last place, with an empty channel, one with three requests and a full one; a channel above 15; a bad address. -/
theorem witness_floe_dma_instructions :
    (let b := recd 0xFFF0000001000 0xFFF0000002000 0x40 2 0x40 0 0
     Ready cid (mkd b 3) ∧ DmaRecordAt cid ⟨5, 1, 2, 0⟩ (mkd b 3) ∧ (channelQueue cid (mkd b 3) 15).length < 4 ∧ 4 ≤ (channelQueue cid (mkd b 4) 15).length
       ∧ channelQueue cid (mkd b 0) 15 = [] ∧ dmaLen ((mkd b 3).mem.rd (privBase 3 + 0xFFF0000003FD0 % 2 ^ 40) 48) = some (0, 0x40)
       ∧ dmaFields b = true ∧ (mkd b 3).hub.dmaLocalOk 3 31 b 0 (dmaF b 0x10 4) = true ∧ (mkd b 3).hub.dmaLocalOk 3 31 b 1 0x40 = true
       ∧ (mkd b 3).dmaFmtOk 3 (coreOf cid (mkd b 3)) b = true ∧ (coreOf cid (mkd b 3)).tag = none ∧ StoresDone cid (mkd b 3)
       ∧ 0x4000 < 0xFFF0000003FE0 % 2 ^ 40 + 48 ∧ 15 < ((coreOf cid (mk 0 16)).s 2).toNat) := by
  unfold Ready DmaRecordAt StoresDone; decide +kernel

-- Vectors

/-- Core 3 with three vectors, a predicate and FCTRL. -/
def mkv (a b d : Word256) (p fc : Word64) : State := core3 { Core.rst with
  run := .ready, sr := [(1, 1), (2, 31)], vr := [(4, a), (5, b), (6, d)].filter (fun (q : Nat × Word256) => q.2 ≠ 0)
  pr := if p = 0 then [] else [(2, p)], fctrl := fc, pc := 0x40, srstate := 0x1234567, launch := 1 }

def fm (k : BitVec 4) : VForm := ⟨6, 4, 5, 2, k⟩

/-- Eight lanes of 1.0 divided by 0.0 set DZ: FCTRL 0 lets it pass and 0xFF00 traps it. -/
theorem witness_vector_float_and_integer :
    Ready cid (mkv 0x3F800000 0 0 0xFF 0) ∧ Ready cid (mkv 0x3F800000 0 0 0xFF 0xFF00) ∧ (fm 0).fmt = 0 ∧ (fm 1).fmt = 1 ∧ 3 ≤ (fm 3).fmt.toNat
      ∧ (fm 3).fmt.toNat < 4 ∧ 4 ≤ (fm 4).fmt.toNat
      ∧ (let x := coreOf cid (mkv 0x3F800000 0 0 0xFF 0)
         (joined (x.p 2) 8 (fun j => (fpArith .div fp32 x.ftz x.arithRound (elt 32 (x.v 4) j) (elt 32 (x.v 5) j)).2)).toNat &&& x.fexc = 0)
      ∧ (let x := coreOf cid (mkv 0x3F800000 0 0 0xFF 0xFF00)
         (joined (x.p 2) 8 (fun j => (fpArith .div fp32 x.ftz x.arithRound (elt 32 (x.v 4) j) (elt 32 (x.v 5) j)).2)).toNat &&& x.fexc ≠ 0)
      ∧ (let x := coreOf cid (mkv 0x7F800000 0 0 0xFF 0xFF00)
         (joined (x.p 2) 8 (fun j => (fpFma fp32 x.ftz x.arithRound false false (elt 32 (x.v 4) j) (elt 32 (x.v 5) j) (elt 32 (x.v 6) j)).2)).toNat
           &&& x.fexc ≠ 0) := by
  unfold Ready; decide +kernel

theorem witness_comparisons_and_predicates :
    Ready cid (mkv 0x7F800001 0 0 0xFF 0xFF00)
      ∧ (let x := coreOf cid (mkv 0x7F800001 0 0 0xFF 0xFF00)
         (joined (x.p 2) 8 (fun j => (fpCmp .eq fp32 x.ftz (elt 32 (x.v 4) j) (elt 32 (x.v 5) j)).2)).toNat &&& x.fexc ≠ 0)
      ∧ (let x := coreOf cid (mkv 0x7FC00000 0 0 0xFF 0xFF00)
         (joined (x.p 2) 8 (fun j => (fpCmp .unord fp32 x.ftz (elt 32 (x.v 4) j) (elt 32 (x.v 5) j)).2)).toNat &&& x.fexc = 0)
      ∧ (let f : PForm := ⟨7, 7, 7, 0⟩; f.res = 0 ∧ f.d.toNat < 8 ∧ f.a.toNat < 8 ∧ f.b.toNat < 8)
      ∧ (⟨8, 7, 7, 0⟩ : PForm).res = 0 ∧ 8 ≤ (⟨8, 7, 7, 0⟩ : PForm).d.toNat ∧ 8 ≤ (⟨7, 8, 7, 0⟩ : PForm).a.toNat ∧ (⟨7, 7, 7, 1⟩ : PForm).res ≠ 0 := by
  unfold Ready; decide +kernel

/-- FMT 1 and 11 for VDOT, 0 and 12 refused; a NaN among the active elements and none; squares and other reductions. -/
theorem witness_reductions :
    Ready cid (mkv 0x7FC00000 0 0 0xFF 0) ∧ NoTraps (coreOf cid (mkv 0x7FC00000 0 0 0xFF 0)) ∧ 1 ≤ (fm 1).fmt.toNat ∧ (fm 11).fmt.toNat < 12
      ∧ (fm 0).fmt.toNat = 0 ∧ 12 ≤ (fm 12).fmt.toNat
      ∧ (let x := coreOf cid (mkv 0x7FC00000 0 0 0xFF 0)
         (List.range 8).any (fun j => active (x.p 2) 8 j && decide (fp32.dec (elt 32 (x.v 4) j) = .nan)) = true)
      ∧ (let x := coreOf cid (mkv 0x3F800000 0 0 0xFF 0)
         (List.range 8).any (fun j => active (x.p 2) 8 j && decide (fp32.dec (elt 32 (x.v 4) j) = .nan)) = false)
      ∧ (vredRows.any (fun e => decide (e.2.2.1 = .sumsq)) = true) ∧ (vredRows.any (fun e => decide (e.2.2.1 ≠ .sumsq)) = true) := by
  unfold Ready NoTraps; decide +kernel

/-- Core 3 in a launch of partition 3 with DEWTAG as given, that tag halted or not. -/
def mkq (tag : Word64) (halted : Nat) : State := (mkl 0 0).onHub (fun h =>
  (h.set (Reg.dewTagHalted 3 5) halted).setCore 3 { h.core 3 with dewtag := tag })

/-- FP32 to FP4 in the last part, FP32 to itself, a part too many; VQB from v4 of FP32 to FP4, under no tag, a tag, a halted tag; VDQB. -/
theorem witness_conversions :
    Ready cid (mkq 0 0) ∧ NoTraps (coreOf cid (mkq 0 0))
      ∧ (0 < 12 ∧ 11 < 12 ∧ max (eltCount 0) (eltCount 7) ≤ 8 * min (eltCount 0) (eltCount 7)
          ∧ 7 < max (eltCount 0) (eltCount 7) / min (eltCount 0) (eltCount 7)) ∧ ¬ (1 < max (eltCount 0) (eltCount 0) / min (eltCount 0) (eltCount 0))
      ∧ (0 < 3 ∧ 3 ≤ 5 ∧ 5 < 12 ∧ (⟨6, 4, 7, 2, 5, 0⟩ : VCForm).va.toNat % 4 = 0)
      ∧ (coreOf cid (mkq 0 0)).tag = none ∧ (coreOf cid (mkq 0x105 0)).tag = some 5
      ∧ (mkq 0x105 0).hub.corePart (coreOf cid (mkq 0x105 0)) < 24
      ∧ (mkq 0x105 0).hub.halted ((mkq 0x105 0).hub.corePart (coreOf cid (mkq 0x105 0))) (some 5) = false
      ∧ (mkq 0x105 1).hub.halted ((mkq 0x105 1).hub.corePart (coreOf cid (mkq 0x105 1))) (some 5) = true
      ∧ (3 ≤ 11 ∧ 11 < 12 ∧ 2 < 3 ∧ (⟨6, 4, 7, 2, 2, 11⟩ : VCForm).vd.toNat % 2 = 0) := by
  unfold Ready NoTraps; decide +kernel

/-- Element 31 of 32 bytes exists and element 32 does not. -/
theorem witness_permutations :
    Ready cid (mkv 1 2 3 0xFF 0) ∧ (fm 0).fmt.toNat < 4 ∧ 4 ≤ (fm 4).fmt.toNat
      ∧ (let s := mkv 1 2 3 0xFF 0; ((coreOf cid s).s 2).toNat < 256 / (8 * 2 ^ 0) ∧ ¬ ((coreOf cid s).s 2).toNat < 256 / (8 * 2 ^ 1)) := by
  unfold Ready; decide +kernel

-- Exceptions, resets, boot

/-- Launch 6 of partition 23, its status as given, and that partition's fault record VALID or not. -/
def mkx (st : Option Nat) (valid : Nat) : State := State.reset.onHub (fun h =>
  (h.sets [(Reg.flcKfaultValid 23, valid), (Reg.flcFloeStatusState 0, 2)]).setLaunch 6 ⟨⟨0, 2, 5, 0⟩, 23, 0, 1, 0, [(0, 0, 3, 5)], [0, 1], st, false, 0x11, 3⟩)

theorem witness_exceptions :
    ({ Core.rst with launch := 7 } : Core).launch ≠ 0 ∧ (tlook (mkx none 0).hub.sea.launches 6).map (·.status) = some none
      ∧ (tlook (mkx (some 7) 0).hub.sea.launches 6).map (·.status) = some (some 7) ∧ (tlook (mkx none 0).hub.sea.launches 6).map (·.part) = some 23
      ∧ (mkx none 0).hub.get (Reg.flcKfaultValid 23) = 0 ∧ (mkx none 1).hub.get (Reg.flcKfaultValid 23) ≠ 0
      ∧ (mkx none 0).hub.get (Reg.flcFloeStatusState 0) ≠ 0 := by
  decide +kernel

/-- The hub at a boot step. -/
def atStep (n : Nat) (f : Boot → Boot) : State := State.reset.onHub (fun h => { h with boot := f { h.boot with step := n } })

theorem witness_resets :
    CanReset (atStep 10 id) ∧ CanReset (atStep 5 id) ∧ CanReset (atStep 6 id) ∧ (atStep 10 id).hub.boot.twinEn = false
      ∧ (atStep 0 (fun b => { b with porst := true })).hub.boot.porst = true ∧ (atStep 9 (fun b => { b with perst := true })).hub.boot.perst = true
      ∧ (0xE9600001 : BitVec 32).toNat % 2 = 1 ∧ (0xE9600001 : BitVec 32).toNat / 2 ^ 16 = 0xE960 ∧ (0xE9610001 : BitVec 32).toNat / 2 ^ 16 ≠ 0xE960
      ∧ (0x0C06 : BitVec 16).toNat ∈ [0x0702, 0x0703, 0x0C06] ∧ (atStep 1 (fun b => { b with group1 := false })).hub.boot.group1 = false := by
  unfold CanReset; decide +kernel

/-- The hub at a boot step, in a life-cycle state. -/
def inLife (l n : Nat) (f : Boot → Boot) : State := (atStep n f).onHub (·.set Reg.cfgModeLifecycle l)

theorem witness_boot_steps :
    State.reset.hub.boot.step = 1 ∧ (inLife 3 2 id).hub.life = 3 ∧ (inLife 1 2 id).hub.life ≠ 3
      ∧ (let s := inLife 1 2 (fun b => { b with role := true, bootMode := 1 }); s.hub.boot.role = true ∧ s.hub.boot.bootMode = 1)
      ∧ (let s := inLife 1 2 (fun b => { b with role := true, bootMode := 0 }); s.hub.boot.bootMode = 0 ∧ s.hub.dir = none)
      ∧ (let s := atStep 4 (fun b => { b with twinEn := true, role := true }); s.hub.boot.twinEn = true ∧ s.hub.boot.role = true
          ∧ s.hub.get Reg.glbBootStatusPartnerHeld = 0 ∧ (⟨true, true, 0xC0, 3, 1, 7⟩ : Partner).twinEn = true)
      ∧ (∀ k < 16, (atStep 8 id).hub.get (Reg.siteStatusState k) ≠ 1) ∧ (atStep 9 (fun b => { b with perst := false })).hub.boot.perst = false
      ∧ (atStep 9 (fun b => { b with perst := true })).hub.boot.perst = true
      ∧ (let s := atStep 11 (fun b => { b with halt := true, nodeId := 5 }); s.hub.boot.halt = true ∧ s.hub.boot.haltSvc = false ∧ s.hub.boot.nodeId ≠ 0)
      ∧ (atStep 4 (fun b => { b with twinEn := true, role := false })).hub.boot.role = false ∧ (atStep 10 (fun b => { b with activating := true })).hub.boot.activating = true := by
  decide +kernel

-- Configuration

/-- The hub after boot, operational, the PF's BAR0 open, with register values and further state as given. -/
def up (l : List (Fld × Nat)) (f : Hub → Hub) : State := State.reset.onHub (fun h =>
  f (({ h with boot := { h.boot with step := 10 } } : Hub).sets ([(Reg.cfgModeLifecycle, 2), (Reg.cfgModeWhiteout, 0), (Pci.mse 0, 1), (Pci.bme 0, 1)] ++ l)))

/-- A forecast staged for `ow` while the commit phase is `ph`, POWER_CLASS at 1000 W on a board of 3000 W. -/
def forecast (ph ow w : Nat) : State := up [(Reg.cfgStatusPhase, ph), (Reg.cfgOwnerOwnerIf, ow), (Reg.cfgEpochEpoch, 7)] (fun h =>
  { h with boot := { h.boot with pd := 3000 * 2 ^ (8 * 0x16) + 2 ^ (8 * 0x14) }, cfg := { h.cfg with staged := if w = 0 then [] else [(Reg.cfgPowerClassW.key, w)] } })

/-- Idle and busy; no owner, PF MMIO (1), another interface (4); an epoch of 7 against 7 and 8; an empty, a legal and an illegal forecast;
Whiteout and a life-cycle state without configuration. -/
theorem witness_forecasts_and_commits :
    (forecast 2 1 0).hub.get Reg.cfgStatusPhase ≠ 0 ∧ (forecast 0 0 0).hub.get Reg.cfgStatusPhase = 0 ∧ (forecast 0 0 0).hub.get Reg.cfgOwnerOwnerIf = 0
      ∧ (forecast 0 4 0).hub.get Reg.cfgOwnerOwnerIf = 4 ∧ (forecast 0 1 0).hub.get Reg.cfgOwnerOwnerIf = (⟨1⟩ : Iface).code.toNat
      ∧ (forecast 0 1 0).hub.whiteout = false ∧ (forecast 0 1 0).hub.life = 2
      ∧ (up [(Reg.cfgModeWhiteout, 1)] id).hub.whiteout = true ∧ (up [(Reg.cfgModeLifecycle, 3)] id).hub.life = 3
      ∧ (8 : BitVec 64).toNat % 2 ^ 32 ≠ (forecast 0 1 0).hub.get Reg.cfgEpochEpoch ∧ (7 : BitVec 64).toNat % 2 ^ 32 = (forecast 0 1 0).hub.get Reg.cfgEpochEpoch
      ∧ (forecast 0 1 0).hub.cfg.staged = [] ∧ (forecast 0 1 1000).hub.cfg.staged ≠ [] := by
  decide +kernel

theorem witness_commit_validation :
    (forecast 0 1 1000).hub.validate.1 = 0 ∧ (forecast 0 1 4001).hub.validate.1 ≠ 0 := by decide +kernel

/-- A commit in prepare, at the epoch whose successor is 1, that waits for its secondary or not, or for a stack to retrain. -/
def committing (w : Bool) (rt : List Nat) : State := up [(Reg.cfgStatusPhase, 2), (Reg.cfgEpochEpoch, 0xFFFFFFFF), (Reg.hbmStackCtrlSpeed 2, 3)] (fun h =>
  { h with cfg := { h.cfg with commit := some ⟨1, w, [4096]⟩, retrain := rt } })

theorem witness_commit_phases :
    (committing true []).hub.cfg.commit = some ⟨1, true, [4096]⟩ ∧ NothingHeldBack (committing true [])
      ∧ (forecast 0 1 0).hub.cfg.commit = none ∧ (committing false []).hub.cfg.commit = some ⟨1, false, [4096]⟩
      ∧ (committing false []).hub.drains ⟨1, false, [4096]⟩ = false
      ∧ (committing false [4098]).hub.cfg.retrain.contains (4096 + 3) = false ∧ (committing false [4096 + 2]).hub.cfg.retrain = [4096 + 2]
      ∧ NothingHeldBack (committing false [4098]) ∧ (committing false [4098]).hub.get (Reg.hbmStackCtrlSpeed 2) < 4 := by
  unfold NothingHeldBack; decide +kernel

/-- A forecast set at `a` with the bytes `v`; its floe memory readable by the PF. -/
def fset (a v : Nat) : State := { up [(Reg.cfgFsetAddrHpa, a)] id with mem := Memory.rst.wr 0x300000000000 48 v }

/-- A misaligned address, one that is no memory, a set of no entry, one of one entry, and bytes that are no set. -/
theorem witness_forecast_sets :
    (fset 0x300000000008 0).hub.get Reg.cfgFsetAddrHpa % 16 ≠ 0 ∧ (fset 0x300000000000 0).hub.get Reg.cfgFsetAddrHpa % 16 = 0
      ∧ (((fset 0xF00000000000 0).wroteBy 0).hubRead .pf 0xF00000000000 16 false).st ≠ 0
      ∧ (let r := ((fset 0x300000000000 0x54534546).wroteBy 0).hubRead .pf 0x300000000000 16 false
         r.st = 0 ∧ r.bad = 0 ∧ r.v / 2 ^ 32 % 2 ^ 32 = 0)
      ∧ (let r := ((fset 0x300000000000 (0x54534546 + 2 ^ 32)).wroteBy 0).hubRead .pf 0x300000000000 16 false
         r.st = 0 ∧ r.bad = 0 ∧ r.v / 2 ^ 32 % 2 ^ 32 = 1
           ∧ (let all := r.s.hubRead .pf 0x300000000000 32 false
              all.st = 0 ∧ all.bad = 0 ∧ all.s.hub.fsetParse (all.v - 1) = none)) := by
  decide +kernel

theorem witness_register_writes :
    BarOpen (up [] id) ∧ (up [(Reg.hbmEventCe, 1)] id).hub.get Reg.hbmEventCe = 1 ∧ (1 : BitVec 32).toNat / 2 ^ Reg.hbmEventCe.lo % 2 = 1
      ∧ (up [] (fun h => { h with halves := [(0, 0x400020, 5)] })).hub.halves = [(0, 0x400020, 5)]
      ∧ (up [] id).hub.get Reg.cfgStatusPhase = 0 ∧ (2000 : BitVec 32).toNat % 2 ^ 12 ≠ (up [] id).hub.view Reg.cfgPowerClassW
      ∧ (2000 : BitVec 32).toNat < 2 ^ 14 ∧ (up [] id).hub.get Reg.cfgOwnerOwnerIf = 0 ∧ (up [(Reg.cfgOwnerOwnerIf, 4)] id).hub.get Reg.cfgOwnerOwnerIf = 4
      ∧ ¬ (((4 : BitVec 4) = 4 ∨ (4 : BitVec 4) = 8) ∧ (2 : BitVec 28).toNat % (4 : BitVec 4).toNat = 0)
      ∧ (3 : BitVec 32).toNat / 4 % 2 = 0 ∧ (3 : BitVec 32).toNat % 4 = 3 := by
  unfold BarOpen; decide +kernel

-- Queues, launches, tiles

/-- An enabled queue with room, with Bus Master Enable of its function set or clear, and a held record or none. -/
def queue (fn q bm : Nat) (c : Nat) (held : Bool) : Hub :=
  (Hub.rst.sets [(Reg.qStatusState fn q, 1), (Reg.qCtrlCqLog2 fn q, 4), (Pci.bme fn, bm)]).setQp fn q
    { QPair.rst with c := c, held := if held then [⟨0, 0, 0, 0, 0, false⟩] else [] }

/-- Queue 63 of VF 48; ring slots 15 and 16 ahead of the host. -/
theorem witness_completions :
    (queue 48 63 1 15 false).get (Reg.qStatusState 48 63) = 1 ∧ ((queue 48 63 1 15 false).qp 48 63).held = []
      ∧ (queue 48 63 1 15 false).quiet 48 = false ∧ (queue 48 63 1 0 false).cqFull 48 63 = false ∧ (queue 48 63 1 16 false).cqFull 48 63 = true
      ∧ (queue 48 63 0 0 false).quiet 48 = true ∧ (queue 48 63 1 0 false).get (Reg.qCtrlIrqEn 48 63) = 0 ∧ Hub.rst.get (Reg.qStatusState 48 63) = 0 := by
  decide +kernel

/-- A LAUNCH command of VF 1 with its descriptor at `va`. -/
def launchOf (va : Nat) : QCmd := ⟨1, 2, 0, BitVec.ofNat 512 (0x10 + 2 ^ 128 * va + 2 ^ 192 * 0x55)⟩

/-- A descriptor of one tile of 64 cores on floe 3, and with a floe that the partition does not own. -/
def launchDesc (fl : Nat) : Nat :=
  0x1000 + 2 ^ 64 * 4096 + 2 ^ 96 * 0x40 + 2 ^ (8 * 0x1C) + 2 ^ (8 * 0x20) + 2 ^ (8 * 0x24) + 2 ^ (8 * 0x28) + 2 ^ (8 * 0x40 + fl)

/-- Partition 5 in a state, with VF 1 and floe 3; its address space 0x55 maps page 0 to floe memory 3, where the descriptor lies. -/
def launching (st v : Nat) (poisoned : List Nat) : State :=
  { up [(Reg.prtStatusState 5, st), (Reg.prtCfgExist 5, 1), (Reg.prtVfsMap 5, 1), (Reg.prtFloesMap 5 0, 8)] (fun h =>
      { h with xlt := { h.xlt with tlbs := [⟨3, 0x55, 0, 16, floeHpa 3, 7, 0, 0, 0⟩, ⟨3, 5, 0, 16, floeHpa 3, 7, 0, 0, 0⟩] } }) with
    mem := { (Memory.rst.wr (floeHpa 3) 128 v) with poison := poisoned } }

theorem witness_launches :
    (launching 2 0 []).hub.cmdPart (launchOf 0) = 5 ∧ (launching 2 0 []).hub.partState 5 = 2 ∧ (launching 4 0 []).hub.partState 5 = 4
      ∧ (launching 1 0 []).hub.partState 5 = 1 ∧ (launching 2 0 []).hub.whiteout = false ∧ (launching 2 0 []).hub.life = 2
      ∧ cmdHeader (launchOf 0) true = 0 ∧ qz (launchOf 0) 0x1A 0x40 = true ∧ qf (launchOf 0) 0x10 8 % 64 = 0 ∧ qf (launchOf 1) 0x10 8 % 64 ≠ 0
      ∧ ¬ ((⟨0, 2, 0, 0xFF00000010⟩ : QCmd).fn ≠ 0 ∨ (launching 2 0 []).hub.cmdPart ⟨0, 2, 0, 0xFF00000010⟩ < 24) := by
  decide +kernel

theorem witness_launch_descriptors :
    (let read (s : State) := s.translate ⟨s.hub.descFloe 5 / 256, ⟨0, s.hub.descFloe 5, 0x55⟩, 5, 5, 0, .read, .command (launchOf 0)⟩
     (let r := read (launching 2 (launchDesc 3) []); r.1 = some (floeHpa 3)
       ∧ (let g := r.2.hubRead (.part 5) (floeHpa 3) 128 true
          g.st = 0 ∧ g.bad = 0 ∧ g.s.hub.launchCheck (Launch.new (launchOf 0) 5 g.v) = 0))
     ∧ (let r := read (launching 2 (launchDesc 4) [])
        let g := r.2.hubRead (.part 5) (floeHpa 3) 128 true
        g.st = 0 ∧ g.bad = 0 ∧ g.s.hub.launchCheck (Launch.new (launchOf 0) 5 g.v) ≠ 0)
     ∧ (let r := read (launching 2 (launchDesc 3) [floeHpa 3 / 32]); (r.2.hubRead (.part 5) (floeHpa 3) 128 true).bad ≠ 0)) := by
  decide +kernel

/-- A launch of partition 5 on floe 3, dealt up to tile `nx` of six. -/
def dealt (nx : Nat) : Launch :=
  ⟨⟨1, 2, 3, 0⟩, 5, 0x1000 + 2 ^ 64 * 4096 + 2 ^ 96 * 0x40 + 2 ^ (8 * 0x1C) + 2 ^ (8 * 0x20) * 3 + 2 ^ (8 * 0x24) * 2 + 2 ^ (8 * 0x28) + 2 ^ (8 * 0x40 + 3),
    nx, 0, [], [3], none, false, 0, 0⟩

theorem witness_tiles :
    (let s := up [(Reg.prtStatusState 5, 2), (Reg.flcFloeStatusState 3, 1)] (·.setLaunch 7 (dealt 5))
     s.hub.floeExists 3 = true ∧ tlook s.hub.sea.launches 7 = some (dealt 5) ∧ s.hub.canStart 7 3 (dealt 5) = true ∧ (dealt 5).freeSlot 3 = some 0
       ∧ (dealt 5).flag 1 = false ∧ kmem (dealt 5).prepared 3 = true) := by
  decide +kernel

/-- A launch whose tiles have ended and one whose tiles run, with an event or none, with a timeout, with its status fixed. -/
def launched (nx : Nat) (run : List (Nat × Nat × Nat × Nat)) (st : Option Nat) (ev : Nat) : Launch :=
  ⟨⟨1, 2, 3, BitVec.ofNat 512 (2 ^ 192 * 0x55)⟩, 5, (dealt 0).desc + 2 ^ (8 * 0x2C) * 9 + 2 ^ (8 * 0x30) * ev, nx, 0, run, [3], st, false, 0, 0⟩

theorem witness_launch_ends :
    (let ends (l : Launch) : Prop := l.next = l.total ∧ l.running = [] ∧ State.reset.hub.dmaOf 7 = false
     ends (launched 6 [] none 0) ∧ (launched 6 [] none 0).f 0x30 8 = 0 ∧ ends (launched 6 [] none 0x1000) ∧ (launched 6 [] none 0x1000).f 0x30 8 ≠ 0
       ∧ ¬ ends (launched 6 [(3, 0, 5, 64)] none 0) ∧ (launched 6 [] (some 7) 0).status ≠ none
       ∧ (launched 1 [] none 0).next ≠ 0 ∧ (launched 1 [] none 0).f 0x2C 4 ≠ 0 ∧ (dealt 1).f 0x2C 4 = 0)
      ∧ (let s := (launching 2 0 []).onHub (·.setLaunch 7 (launched 6 [] none 0))
         let c : QCmd := ⟨1, 2, 0, BitVec.ofNat 512 (0x11 + 2 ^ 192 * 0x55)⟩
         let named (c : QCmd) (x : Nat × Launch) : Bool := decide (x.2.part = s.hub.cmdPart c) && decide (x.2.id = qf c 0x18 2) && x.2.status.isNone
         s.hub.cmdCheck c true = 0 ∧ qz c 0x10 0x18 = true ∧ qz c 0x1A 0x40 = true
           ∧ s.hub.sea.launches.find? (named c) = some (7, launched 6 [] none 0) ∧ tlook s.hub.sea.launches 7 = some (launched 6 [] none 0)
           ∧ s.hub.sea.launches.find? (named ⟨1, 2, 0, BitVec.ofNat 512 (0x11 + 2 ^ 192 * 0x56)⟩) = none
           ∧ s.hub.cmdCheck ⟨2, 2, 0, BitVec.ofNat 512 0x11⟩ true ≠ 0) := by
  decide +kernel

/-- Floes 3 idle, running and in reset; floe 255 that no die has; core 3 of floe 3 waiting for a counter at and below its target. -/
theorem witness_floes :
    (let s := up [(Reg.flcFloeStatusState 3, 3)] id; s.hub.floeExists 3 = true ∧ s.hub.get (Reg.flcFloeStatusState 3) = 3)
      ∧ (up [(Reg.flcFloeStatusState 3, 1)] id).hub.get (Reg.flcFloeStatusState 3) = 1 ∧ State.reset.hub.floeExists 255 = false
      ∧ State.reset.hub.floeExists 195 = true ∧ State.reset.hub.floeExists 196 = false
      ∧ (let s := up [] id; kmem s.hub.iso.railHeld (floeRail 3) = false ∧ 6 ≤ s.hub.railFreq (floeRail 3) ∧ tget (6, []) s.hub.iso.railWait (floeRail 3) = (6, []))
      ∧ (let s := up [] (·.setCore 387 { Core.rst with run := .waitEvent 2 0x100 })
         let at' (v : Nat) : State := { s with mem := s.mem.setCounter 3 2 v }
         (s.hub.core 387).run = .waitEvent 2 0x100
           ∧ ((at' 0x100).mem.counter 3 2 + 2 ^ 32 - 0x100 % 2 ^ 32) % 2 ^ 32 < 2 ^ 31 ∧ (at' 0x100).mem.counter 3 2 < 2 ^ 32
           ∧ ¬ ((at' 0xFF).mem.counter 3 2 + 2 ^ 32 - 0x100 % 2 ^ 32) % 2 ^ 32 < 2 ^ 31) := by
  decide +kernel

/-- A request of one row from the first to the last 64 bytes of private memory, behind another one or alone, ORDERED or not. -/
def dmaReq (ord : Nat) : DmaReq :=
  ⟨387, recd 0xFFF0000000000 0xFFF0000003FC0 64 1 0 0x11 0x11 - 255 * 2 ^ 272 + 63 * 2 ^ 272 + ord * 2 ^ 280, none, 1, [], false, 3, true⟩

theorem witness_floe_dma :
    (let s (ring : List DmaReq) := up [] (fun h => { h with sea := { h.sea with dma := tset [] h.sea.dma (16 * 3 + 3) ring } })
     let q := dmaReq 0
     (tget [] (s []).hub.sea.dma 51)[0]? = none ∧ (tget [] (s [q]).hub.sea.dma 51)[0]? = some q
       ∧ (tget [] (s [q, dmaReq 1]).hub.sea.dma 51)[1]? = some (dmaReq 1) ∧ dmaF (dmaReq 1).body 0x23 1 % 2 = 1
       ∧ dmaF q.body 0x23 1 % 2 = 0 ∧ q.paid = true ∧ q.wrote = false ∧ q.tag = none ∧ dmaF q.body 0 8 = 0xFFF0000000000 + 0
       ∧ dmaF q.body 8 8 = 0xFFF0000000000 + 0x3FC0 ∧ dmaF q.body 0x10 4 = 64 ∧ dmaF q.body 0x14 4 = 1
       ∧ dmaF q.body 0x20 1 = dmaF q.body 0x21 1 ∧ dmaF q.body 0x22 1 = 63 ∧ (s [q]).hub.anyOut (.dma 3 3 1) = false) := by
  decide +kernel

-- Dewpoint, Firn, stack memory, Isotherm

/-- One block of tag 7 of partition 5. -/
def sample : DewSample := { part := 5, tag := 7, src := 1, inst := 3, xs := [.fin false 3 0, .fin true 5 1], qs := [.fin false 4 0, .fin true 5 1] }

/-- The tag with `c` blocks counted of a window of 1,024, thresholds and ACTION as given, a migration running or waiting. -/
def dewing (c th act : Nat) (running : List (Nat × Nat)) : State := up [(Reg.dewTagWindowLog2 5 7, 10), (Reg.dewStatCount 5 7, c), (Reg.dewTagAction 5 7, act), (Reg.dewTagRmsTh 5 7, th),
    (Reg.dewTagMaxTh 5 7, th), (Reg.dewTagGroups 5 7, 1024), (Reg.dewTagFrontier 5 7, c), (Reg.dewTagFmt 5 7, 0x2A), (Reg.dewTagNextFmt 5 7, 0x27), (Reg.dewTagHalted 5 7, 1)]
  (fun h => { h with dew := { h.dew with q0 := [sample], wins := [(256 * 5 + 7, DewWin.rst.add sample.diffs)], running := running, waiting := [(4, 1), (5, 7)] } })

/-- Windows of 1,023 and 1,024 blocks; thresholds that are crossed and 0xFFFF, which never is. -/
theorem witness_dewpoint_windows :
    (dewing 1023 0 3 []).hub.dew.q0 = [sample] ∧ (dewing 1023 0 3 []).hub.dew.q1 = [] ∧ (up [] id).hub.dew.q0 = []
      ∧ ¬ 2 ^ (dewing 1023 0 3 []).hub.get (Reg.dewTagWindowLog2 5 7) ≤ (dewing 1023 0 3 []).hub.get (Reg.dewStatCount 5 7)
      ∧ 2 ^ (dewing 1024 0 3 []).hub.get (Reg.dewTagWindowLog2 5 7) ≤ (dewing 1024 0 3 []).hub.get (Reg.dewStatCount 5 7)
      ∧ (let w := tget DewWin.rst (dewing 1024 0 3 []).hub.dew.wins (256 * 5 + 7)
         (match fp64.dec w.x2 with | .fin _ 0 _ => false | _ => true) = true
           ∧ ((f64unit (f64sqrt (f64div w.e2 w.x2))).any (fun a => decide (0 < a ∧ a < 0xFFFF))) = true
           ∧ ((f64unit w.mx).any (fun b => decide (0 < b ∧ b < 0xFFFF))) = true)
      ∧ (dewing 1024 0 3 []).hub.get (Reg.dewTagRmsTh 5 7) = 0 ∧ (dewing 1024 0xFFFF 0 []).hub.get (Reg.dewTagRmsTh 5 7) = 0xFFFF
      ∧ (dewing 1024 0 3 []).hub.get (Reg.dewTagMigrating 5 7) = 0 := by
  decide +kernel

/-- Group 1,023 of 1,024 and the end; none and four migrations of the partition; a HALTED tag. -/
theorem witness_migrations :
    (dewing 1023 0 0 []).hub.sites = [] ∧ (dewing 1023 0 0 []).hub.dew.waiting.find? (fun x => decide (x.1 = 5)) = some (5, 7)
      ∧ (dewing 1023 0 0 []).hub.migrations 5 < 4 ∧ 4 ≤ (dewing 1023 0 0 [(5, 1), (5, 2), (5, 3), (5, 4)]).hub.migrations 5
      ∧ (nextFmt 0x2A).isSome = true ∧ (dewing 1023 0 0 [(5, 7)]).hub.dew.running.contains (5, 7) = true
      ∧ (dewing 1023 0 0 [(5, 7)]).hub.migStuck 5 7 = false ∧ (dewing 1023 0 0 [(5, 7)]).hub.get (Reg.dewTagFrontier 5 7) < 1024
      ∧ 1024 ≤ (dewing 1024 0 0 [(5, 7)]).hub.get (Reg.dewTagFrontier 5 7) ∧ (dewing 1023 0 0 []).hub.dew.running.contains (5, 7) = false
      ∧ (dewing 1023 0 0 []).hub.get (Reg.dewTagHalted 5 7) ≠ 0 := by
  decide +kernel

/-- The two accesses of a group: its pages translate for the migration's port. -/
theorem witness_migration_group :
    (let s := (dewing 1023 0 0 [(5, 7)]).onHub (fun h => (h.sets [(Reg.dewTagBase 5 7, 0), (Reg.dewTagStride 5 7, 0)]))
     let e (x : XAcc) : TlbEntry := ⟨x.utlb, x.asid, 0, 16, floeHpa 3, 7, 0, 0, 0⟩
     let s := s.onHub (fun h => { h with xlt := { h.xlt with tlbs := [e (migAcc 5 7 0 .read), e (migAcc 5 7 0 .write)] } })
     let r := s.span (migAcc 5 7 0 .read) (groupSize (FmtByte.ofNat 0x2A))
     r.1.isSome = true ∧ (r.2.span (migAcc 5 7 0 .write) (groupSize (FmtByte.ofNat 0x27))).1.isSome = true) := by
  decide +kernel

/-- A line of stack 0, which is FULL, its 128 bytes, and the line as Firn may hold it. -/
def line0 : Nat := 37
def dat : Nat := 0x123456789ABCDEF0FEDCBA987654321000FF00FF00FF00FF55AA55AA55AA55AA
def stackHub : Hub := Hub.rst.sets [(Reg.hbmStackInfoDensity 0, 2), (Reg.hbmStackInfoState 0, 2), (Reg.frnMaintAddrHpa, 128 * line0)]
def home0 : Nat := (stackHub.home (128 * line0)).1
def held (valid dirty : Nat) : FirnLine := ⟨home0, 3, 2, 31, valid, dirty, 0, dat⟩
def req (write alloc : Bool) : SliceReq := ⟨line0, write, 15, 2 ^ 32 - 1, BitVec.ofNat 1024 (dat * 7), 0, alloc, 0, 9⟩

/-- That memory with lines, misses and evictions as given. -/
def firn (lines : Tab FirnLine) (misses : List MissEntry) (evicts : List Evict) : State :=
  ⟨stackHub, { (Memory.rst.wr (128 * line0) 128 dat) with lines := lines, misses := misses, evicts := evicts }, []⟩

/-- A miss of the line with `n` requests, a way reserved or not, its data returned or not. -/
def miss (n : Nat) (way : Option Nat) (ret : Option (Nat × Nat)) : MissEntry :=
  ⟨home0, line0, 15, way, false, List.replicate n (req false true), ret⟩

/-- The home of the line is drawn by the hash of the address: slice 77 is not it. A hit, a write of one whole sector, a miss with room
for one more request, and one that is full. -/
theorem witness_slice_requests :
    stackHub.region (128 * line0) = .stack ∧ home0 ≠ 77 ∧ home0 < 96
      ∧ LineFree (firn [(line0, held 15 2)] [] []) line0 ∧ tlook (firn [(line0, held 15 2)] [] []).mem.lines line0 = some (held 15 2)
      ∧ (req false false).sectors.toNat &&& (15 - (held 15 2).valid) = 0 ∧ (req false false).write = false ∧ (req true false).write = true
      ∧ (∀ k < 4, bits (req true false).mask.toNat (32 * k) 32 = 0 ∨ bits (req true false).mask.toNat (32 * k) 32 = 2 ^ 32 - 1)
      ∧ LineFree (firn [] [] []) line0 ∧ tlook (firn [] [] []).mem.lines line0 = none ∧ (req false false).alloc = false
      ∧ (firn [] [] []).mem.missFull home0 = false
      ∧ (firn [] [miss 15 none none] []).mem.misses.find? (fun e => decide (e.line = line0)) = some (miss 15 none none)
      ∧ (miss 15 none none).reqs.length < 16 ∧ 16 ≤ (miss 16 none none).reqs.length := by
  unfold LineFree; decide +kernel

theorem witness_misses_and_victims :
    (let m := (firn [] [miss 1 none none] []).mem
     m.misses.find? (fun e => decide (e.slice = home0) && e.ret.isNone && decide ((e.reqs.head?.map (·.tag)) = some 9)) = some (miss 1 none none)
       ∧ m.channelFull (128 * line0) = false ∧ stackHub.rowHeld (128 * line0) = false ∧ stackHub.stackKind (128 * line0) = .usable ∧ m.poison = []
       ∧ (miss 1 none none).reqs = [req false true] ∧ m.waiting = [])
      ∧ (firn [] [] []).mem.misses = [] ∧ (firn [] [] []).mem.evicts = []
      ∧ (let m := (firn [] [miss 1 (some 2) (some (dat, 6))] []).mem
         m.misses.find? (fun e => decide (e.slice = home0) && decide (e.line = line0) && e.ret.isSome) = some (miss 1 (some 2) (some (dat, 6)))
           ∧ (miss 1 (some 2) (some (dat, 6))).invOnFill = false)
      ∧ (miss 1 none (some (dat, 6))).way = none
      ∧ (let v : Evict := ⟨home0, line0, 3, 2, 15, 5, 5, dat, []⟩
         (firn [] [] [v]).mem.evicts.find? (fun e => decide (e.slice = home0) && decide (e.line = line0)) = some v ∧ v.waiting = []) := by
  decide +kernel

/-- A parity error in a clean sector and in the dirty one; a way with four records, the third way; seeds 1 and 0. -/
theorem witness_parity_errors :
    (let l := held 15 2
     (1 : BitVec 4).toNat &&& l.valid ≠ 0 ∧ (1 : BitVec 4).toNat &&& l.valid &&& l.dirty = 0 ∧ (2 : BitVec 4).toNat &&& l.valid ≠ 0
       ∧ (2 : BitVec 4).toNat &&& l.valid &&& (15 - l.dirty) = 0 ∧ l.poison < 16 ∧ l.dirty &&& l.valid = l.dirty)
      ∧ (let h : Hub := { stackHub with ras := { stackHub.ras with parity := [(2, [1, 2, 3, 4])] } }
         0 < 96 * h.dies ∧ 4 ≤ (tget [] h.ras.parity (0 * 16 + 2)).length ∧ (h.get (Reg.frnSliceStatusDisabled 0)).testBit 2 = false
           ∧ (tget [] h.ras.parity (0 * 16 + 3)).length < 4)
      ∧ (firn [] [] []).mem.lines.all (fun x => !(decide (x.2.slice = 0) && decide (x.2.way = 2))) = true
      ∧ 96 * stackHub.dies ≤ 96 ∧ (stackHub.set (Reg.frnSliceStatusDisabled 0) 4).get (Reg.frnSliceStatusDisabled 0) = 4 := by
  decide +kernel

theorem witness_maintenance :
    (let go : BitVec 64 := 0x100000000
     go.toNat.testBit 32 = true ∧ go.toNat.testBit 2 = false ∧ (4 : BitVec 64).toNat.testBit 32 = false
       ∧ stackHub.get Reg.frnMaintGo = 0 ∧ (stackHub.set Reg.frnMaintGo 1).get Reg.frnMaintGo ≠ 0
       ∧ stackHub.get Reg.frnMaintAddrHpa % 128 = 0 ∧ (stackHub.set Reg.frnMaintAddrHpa 5).get Reg.frnMaintAddrHpa % 128 ≠ 0
       ∧ stackHub.region (128 * line0) = .stack ∧ stackHub.stackKind (128 * line0) = .usable ∧ stackHub.domainAt (128 * line0) = none
       ∧ LineFree (firn [(line0, held 15 2)] [] []) line0 ∧ stackHub.get Reg.frnMaintSetway = 0) := by
  unfold LineFree; decide +kernel

/-- Stack 0 FULL with scrub on and off; a granule filled and one that is not; the last sector of the line. -/
theorem witness_scrub :
    (stackHub.set Reg.hbmRasCfgScrubH 0).get Reg.hbmRasCfgScrubH = 0 ∧ (stackHub.set Reg.hbmRasCfgScrubH 24).get Reg.hbmRasCfgScrubH ≠ 0
      ∧ stackHub.stackKind (128 * line0) = .usable ∧ stackHub.stackKind (2 ^ 40 * 3) ≠ .usable
      ∧ (Memory.rst.unfillHalf 0).unfilled 0 0 = true ∧ Memory.rst.unfilled 0 0 = false ∧ kmem (firn [] [] []).mem.poison (4 * line0 + 3) = false := by
  decide +kernel

/-- Repairs queued and running on stack 3; a row query; a half-stack with one granule left, and with none. -/
theorem witness_repair_and_fill :
    (let h : Hub := { stackHub with ras := { stackHub.ras with repairs := [(3, [0x12345, 7])], running := [3] } }
     stackHub.repairs 3 = [] ∧ h.repairs 3 = 0x12345 :: [7] ∧ kmem stackHub.ras.running 3 = false ∧ kmem h.ras.running 3 = true)
      ∧ stackHub.get Reg.hbmRowqGo = 0 ∧ (stackHub.set Reg.hbmRowqGo 1).get Reg.hbmRowqGo ≠ 0 ∧ (0x8000000000000000 : BitVec 64).toNat.testBit 63 = true
      ∧ stackHub.get (Reg.hbmStackInfoState (0 / 2)) = 2 ∧ stackHub.get (Reg.hbmStackInfoState (47 / 2)) ≠ 2
      ∧ findLow (stackHub.granules 0) (fun g => ((Memory.rst.unfillHalf 0).fillGran 0 0).unfilled 0 g) = some 1
      ∧ (let h0 := Hub.rst
         h0.granules 0 = 0 ∧ (tget HalfFill.rst (Memory.rst.unfillHalf 0).fill 0).marked = true
           ∧ h0.granules 0 ≤ (tget HalfFill.rst (Memory.rst.unfillHalf 0).fill 0).filled.length) := by
  decide +kernel

/-- Consumers whose minima sum to 349, at that budget and at one that covers every demand. -/
theorem witness_grants :
    (let l : List Consumer := [⟨0, 260, 450⟩, ⟨1, 12, 13⟩, ⟨2, 0, 99⟩, ⟨5, 77, 77⟩]
     Clamped l ∧ (l.map (·.m)).sum ≤ 349 ∧ (l.map (·.d)).sum ≤ 639) := by
  unfold Clamped; decide

/-- The control domain after boot with Isotherm running. -/
def iso (l : List (Fld × Nat)) (f : Iso → Iso) : State := up ([(Reg.cfgPowerClassW, 900), (Reg.siteStatusState 3, 2), (Reg.cfgPowerBrakeLevel, 3)] ++ l) (fun h =>
  let h : Hub := h.setOd 0x1016 1 0x050064
  { h with boot := { h.boot with pd := 3000 * 2 ^ (8 * 0x16) + 2 ^ (8 * 0x14) + 0xFFF * 2 ^ (8 * (64 + 2)) + 0xFFF * 2 ^ (8 * (64 + 512 + 2)) },
           iso := f { h.iso with table := [(0, 100), (1, 200)] } })

/-- A stack that is present, 115 °C and one degree less, 125 °C for a die; the brake pin up and down; an active site; a rail that waits and one
that does not; the heartbeat silent and heard; a pump below its limit. -/
theorem witness_isotherm :
    (iso [] id).hub.isoRuns = true ∧ (iso [] id).hub.presentStacks.contains 3 = true ∧ (iso [] id).hub.get (Reg.hbmStackInfoLevel 3) = 0
      ∧ (0 : BitVec 1).toNat < (iso [] id).hub.dies ∧ (hottestOf (List.replicate 64 125)).1 = 125 ∧ (hottestOf (List.replicate 64 124)).1 < 125
      ∧ (iso [] id).hub.iso.brakePin = false ∧ (iso [] id).hub.od 0x2212 1 ≠ 1 ∧ (iso [] id).hub.siteActive 3 = true
      ∧ tlook (iso [] (fun i => { i with railWait := [(3, (9, [(90, 8), (91, 12)]))] })).hub.iso.railWait 3 = some (9, [(90, 8), (91, 12)])
      ∧ tlook (iso [] id).hub.iso.railWait 3 = none ∧ (3 : BitVec 4).toNat < 13
      ∧ bits ((iso [] id).hub.od 0x1016 1) 0 16 ≠ 0 ∧ (iso [] id).hub.get Reg.isoStatusHbLost = 0
      ∧ (iso [(Reg.isoStatusHbLost, 1)] id).hub.get Reg.isoStatusHbLost ≠ 0 ∧ bits ((iso [] id).hub.od 0x1016 1) 16 8 = (5 : BitVec 7).toNat
      ∧ (iso [(Reg.glbRevTwin, 1)] id).hub.dies = 2 ∧ (iso [(Reg.isoPumpCfgTachMin, 100), (Reg.isoPumpDuty 0, 50)] id).hub.get (Reg.isoPumpDuty 0) ≠ 0
      ∧ (999 : BitVec 16).toNat < 10 * (iso [(Reg.isoPumpCfgTachMin, 100)] id).hub.get Reg.isoPumpCfgTachMin ∧ (iso [] id).hub.get (Reg.isoPumpFail 0) = 0 := by
  decide +kernel

-- Drift streams and descriptors

/-- Floe memory 0. -/
def F0 : Nat := 0x300000000000

/-- Stream 3 of the PF with a ring of 64 entries, running or in state `st`, HEAD and TAIL, descriptors in flight. -/
def streaming (st head tail : Nat) (infl : List Desc) (param : Nat) : State :=
  { up [(Reg.drfStreamStatusState 3, st), (Reg.drfStreamStatusHead 3, head), (Reg.drfStreamStatusPartition 3, 31), (Reg.hbmStackInfoState 0, 1), (Reg.hbmStackInfoDensity 0, 2)]
      (·.setStream 3 ⟨0, 0x300000100000 + 2 ^ 64 * 6 + 2 ^ 104 * 0xFF + 2 ^ 112 * 5 + 2 ^ 128 * 0x300000101000 + param, tail, 0, 0, infl, [], false, none⟩) with
    mem := (Memory.rst.wr F0 128 dat).wr (F0 + 0x400) 4 3 }

/-- A STREAM_OPEN of the PF whose parameter block is `v` in floe memory. -/
def opening (v opened : Nat) (life : Nat) : State :=
  { up [(Reg.cfgModeLifecycle, life), (Reg.drfPartLimitOpen 24, opened), (Reg.drfPartLimitMax 24, 5), (Reg.drfStreamStatusState 0, 1)] id with mem := Memory.rst.wr (F0 + 0x100) 64 v }
def openCmd : QCmd := ⟨0, 3, 1, BitVec.ofNat 512 (1 + 2 ^ 16 * 77 + 2 ^ 32 * 0xFF + 2 ^ 128 * (F0 + 0x100) + 2 ^ 192 * 0xFF)⟩
def closeCmd (k : Nat) : QCmd := ⟨0, 3, 1, BitVec.ofNat 512 (2 + 2 ^ 16 * 77 + 2 ^ 32 * 0xFF + 2 ^ 192 * k)⟩
def block : Nat := 0x300000100000 + 2 ^ 64 * 8 + 2 ^ 72 * 6 + 2 ^ 80 * 3 + 2 ^ 96 + 2 ^ 104 * 0xFF + 2 ^ 112 * 5 + 2 ^ 128 * 0x300000101000

/-- Room for one more stream and none; End of Life; a good block and a bad one; streams 32767 and 32768. -/
theorem witness_streams_open_and_close :
    (openCmd.fn = 0 ∧ qf openCmd 1 1 < 4 ∧ qz openCmd 5 0x10 = true ∧ qf openCmd 4 1 = 0xFF ∧ qz openCmd 0x19 0x40 = true ∧ qf openCmd 0x18 1 = 0xFF)
      ∧ (let s := opening block 4 2
         s.hub.whiteout = false ∧ s.hub.life ≠ 3 ∧ qf openCmd 0x10 8 = F0 + 0x100 ∧ InFloe s.hub (F0 + 0x100) 64 ∧ s.mem.rd (F0 + 0x100) 64 = block
           ∧ s.mem.badBits (F0 + 0x100) 64 = 0 ∧ s.hub.get (Reg.drfPartLimitOpen 24) < s.hub.get (Reg.drfPartLimitMax 24) ∧ s.hub.freeStream 0xFF = some 1)
      ∧ (opening block 4 3).hub.life = 3 ∧ ¬ (opening block 5 2).hub.get (Reg.drfPartLimitOpen 24) < (opening block 5 2).hub.get (Reg.drfPartLimitMax 24)
      ∧ paramOk block true = true ∧ paramOk (block - 2 ^ 112 * 5) true = false
      ∧ (let s := streaming 4 8 8 [] 0
         s.hub.cmdCheck (closeCmd 3) false = 0 ∧ qz (closeCmd 3) 0x10 0x18 = true ∧ qz (closeCmd 3) 0x1A 0x40 = true ∧ qf (closeCmd 32767) 0x18 2 ≤ 32767
           ∧ 32767 < qf (closeCmd 32768) 0x18 2 ∧ s.hub.get (Reg.drfStreamStatusState 3) = 4 ∧ (s.hub.stream 3).fn = (closeCmd 3).fn
           ∧ s.hub.get (Reg.drfStreamStatusState 4) = 0 ∧ s.hub.get (Reg.drfStreamStatusPartition 3) = 31)
      ∧ (streaming 2 8 8 [] 0).hub.get (Reg.drfStreamStatusState 3) = 2 := by
  unfold InFloe; decide +kernel

/-- HEAD 8, TAIL 8: tails 8, 72 (a full ring), 73 and 7; a source that R234 does not name; the states of R235. -/
theorem witness_doorbells_and_controls :
    (let s := streaming 2 8 8 [] 0
     let bad (v : Nat) : Prop := 2 ^ (s.hub.stream 3).f 0x08 1 < (v + 2 ^ 32 - 8) % 2 ^ 32 ∨ 2 ^ 31 ≤ (v + 2 ^ 32 - (s.hub.stream 3).tail) % 2 ^ 32
     Honoured .pf s 3 ∧ s.hub.srcMute .pf = false ∧ s.hub.srcMute (.vf 5) = false ∧ ¬ Honoured (.vf 5) s 3 ∧ bad 73 ∧ bad 7 ∧ ¬ bad 72 ∧ ¬ bad 8
       ∧ (s.hub.stream 3).stop = none ∧ (s.hub.stream 3).held = [] ∧ (s.hub.stream 3).inflight = []
       ∧ s.hub.get (Reg.drfStreamStatusState 3) = 2 ∧ s.hub.vfMute 0 = false ∧ (s.hub.stream 3).fn = 0 ∧ s.hub.streamPart 3 = 31)
      ∧ (streaming 4 8 8 [] 0).hub.get (Reg.drfStreamStatusState 3) = 4 ∧ (streaming 6 8 8 [] 0).hub.get (Reg.drfStreamStatusState 3) = 6
      ∧ ((streaming 2 8 8 [Desc.new 7 5 true] 0).hub.stream 3).inflight ≠ [] := by
  unfold Honoured; decide +kernel

/-- A descriptor: opcode, flags, formats, source, destination, row bytes, rows, event, index address. -/
def descOf (op fl sf df src dst rb rows ev iv : Nat) : Nat :=
  op + 2 ^ 8 * fl + 2 ^ 16 * sf + 2 ^ 24 * df + 2 ^ 64 * src + 2 ^ 128 * dst + 2 ^ 192 * rb + 2 ^ 224 * rows + 2 ^ 256 * 0x40 + 2 ^ 288 * 0x20 + 2 ^ 320 * ev + 2 ^ 384 * iv

/-- Stream 3 with the descriptor at HEAD 20 of its ring in floe memory 1, or in the host's memory. -/
def starting (raw : Nat) (infl : List Desc) (onHost : Bool) (poison : List Nat) : State :=
  let s := streaming 2 20 30 infl (if onHost then 2 ^ 81 else 0)
  { s with mem := { (s.mem.wr (0x300000100000 + 64 * 20) 64 raw) with poison := poison } }

theorem witness_descriptor_starts :
    (let raw := descOf 2 4 0 0 5 F0 32 1 (eventHpa 0 1) 0
     let s := starting raw [] false []
     s.hub.streamPart 3 = 31 ∧ s.hub.mayStart 3 = true ∧ s.hub.rowStuck 3 20 = false ∧ s.hub.desc 3 20 = none
       ∧ (s.hub.stream 3).f 0 8 + 64 * (20 % 2 ^ (s.hub.stream 3).f 8 1) = 0x300000100000 + 64 * 20
       ∧ InFloe s.hub (0x300000100000 + 64 * 20) 64 ∧ s.mem.badBits (0x300000100000 + 64 * 20) 64 = 0 ∧ s.mem.rd (0x300000100000 + 64 * 20) 64 = raw
       ∧ (Desc.new 20 raw true).check true false = 0 ∧ (Desc.new 20 raw true).flag 2 = true ∧ (Desc.new 20 raw true).flag 0 = false
       ∧ (match s.hub.region ((Desc.new 20 raw true).f 0x28 8) with | .event _ _ => true | _ => false) = true)
      ∧ (starting 0 [] false [(0x300000100000 + 64 * 20) / 32]).mem.badBits (0x300000100000 + 64 * 20) 64 ≠ 0
      ∧ (starting 0 [] true []).hub.quiet 0 = false ∧ (streaming 1 20 20 [] 0).hub.mayStart 3 = false
      ∧ (Desc.new 20 (descOf 0 1 0 0 0 0 0 0 0 0) true).flag 0 = true ∧ ((starting 0 [Desc.new 19 5 true] false []).hub.stream 3).inflight ≠ []
      ∧ 9 < (Desc.new 7 10 true).op ∧ (Desc.new 7 (descOf 1 0 0 1 0 0 32 1 0 0) true).sf ≠ (Desc.new 7 (descOf 1 0 0 1 0 0 32 1 0 0) true).df
      ∧ (Desc.new 7 (descOf 1 2 0 0 0 0 32 1 0 0) true).flag 1 = true ∧ (Desc.new 7 (2 ^ 45) true).mode 5 = true := by
  unfold InFloe; decide +kernel

/-- A descriptor in flight of stream 3, its port open. -/
def doing (raw : Nat) : State := streaming 2 20 30 [{ Desc.new 7 raw true with paid := true }] 0

/-- One row of 60 bytes that ends a line (COPY and FILL), one indexed by the word 3 (GATHER and SCATTER), a NOP. -/
theorem witness_descriptor_rows :
    (∀ op ∈ [1, 2], let d : Desc := { Desc.new 7 (descOf op 0 1 1 F0 (F0 + 0x344) 60 1 0 0) true with paid := true }
      Doing (doing (descOf op 0 1 1 F0 (F0 + 0x344) 60 1 0 0)) 3 d op ∧ d.rows = 1 ∧ 0 < d.rowBytes ∧ d.index = 7 ∧ d.mode 5 = false ∧ d.mode 6 = false ∧ d.sf = d.df)
      ∧ InFloe (doing 0).hub F0 60 ∧ InFloe (doing 0).hub (F0 + 0x344) 60
      ∧ (∀ op ∈ [3, 4], let d : Desc := { Desc.new 7 (descOf op 0 1 1 F0 (F0 + 0x300) 32 1 0 (F0 + 0x400)) true with paid := true }
          Doing (doing (descOf op 0 1 1 F0 (F0 + 0x300) 32 1 0 (F0 + 0x400))) 3 d op ∧ d.f 0x38 1 = 0 ∧ d.f 0x30 8 % 4 = 0 ∧ InFloe (doing 0).hub (d.f 0x30 8) 4
            ∧ (doing 0).mem.badBits (d.f 0x30 8) 4 = 0 ∧ (doing 0).mem.rd (d.f 0x30 8) 4 = 3 ∧ InFloe (doing 0).hub (F0 + 3 * d.f 0x20 4) 32)
      ∧ Doing (doing 0) 3 { Desc.new 7 0 true with paid := true } 0 ∧ (doing 0).hub.desc 3 8 = none := by
  unfold Doing InFloe; decide +kernel

/-- TRANSCODE of half a line of BF16 to another format, and the four operations on a line of stack memory that Firn holds. -/
theorem witness_descriptor_lines :
    (let l : FirnLine := ⟨0, 0, 1, 31, 15, 5, 0, dat⟩
     let s (raw : Nat) : State := { doing raw with mem := { (doing raw).mem with lines := [(2, l)] } }
     (let raw := descOf 5 0 1 2 256 (F0 + 0x300) 64 1 0 0
      let d : Desc := { Desc.new 7 raw true with paid := true }
      Doing (s raw) 3 d 5 ∧ d.sf ≠ d.df ∧ d.whole = true ∧ (s raw).hub.devRefuse 3 [(256, 64)] = 0 ∧ 0 < d.dstBytes ∧ InFloe (s raw).hub (F0 + 0x300) d.dstBytes)
     ∧ (s 0).hub.region 256 = .stack ∧ (s 0).hub.stackKind 256 = .usable ∧ (s 0).hub.domainAt 256 = none ∧ LineFree (s 0) 2
     ∧ tlook (s 0).mem.lines 2 = some l ∧ l.valid = 15 ∧ l.poison = 0
     ∧ (∀ op ∈ [6, 7, 8, 9], let d : Desc := { Desc.new 7 (descOf op 0 0 0 9 256 128 1 0 0) true with paid := true }
          Doing (s (descOf op 0 0 0 9 256 128 1 0 0)) 3 d op ∧ d.rows = 1 ∧ d.rowBytes = 128 ∧ d.f 0x10 8 % 128 = 0
            ∧ (s (descOf op 0 0 0 9 256 128 1 0 0)).hub.devRefuse 3 [(256, 128)] = 0)
     ∧ InFloe (s 0).hub (F0 + 0x280) 128) := by
  unfold Doing InFloe LineFree; decide +kernel

/-- The oldest descriptor of stream 3 ended with a status, with COMPLETE and an event or without, before a ring of 64 records with `c` written. -/
def reporting (st fl c cpl : Nat) (retry : List OutReq) : Stream :=
  ⟨0, 0x300000100000 + 2 ^ 64 * 6 + 2 ^ 72 * 6 + 2 ^ 104 * 0xFF + 2 ^ 112 + 2 ^ 128 * 0x300000101000, 30, c, cpl,
    [⟨7, fl * 256, if fl = 0 then none else some (eventHpa 3 1), if retry = [] then some (st, 4096) else none, false, retry, true, false, false, [], false⟩], [], false, none⟩
def reportingS (st fl c cpl : Nat) (retry : List OutReq) : State :=
  up [(Reg.drfStreamStatusState 3, 2), (Reg.drfStreamStatusPartition 3, 31)] (fun h => { h.setStream 3 (reporting st fl c cpl retry) with drift := { (h.setStream 3 (reporting st fl c cpl retry)).drift with pri := [(3, 7)] } })
def lateReq : OutReq := ⟨1, 0, 0, 0, 0, 5, 0, [], false, .row 3 7, 0x400000001000, none, 0, 0, false⟩

/-- 63 and 64 records ahead of the consumer; status OK with and without COMPLETE; RETRY_MS 1 at 1,000 and 1,001 µs; a page request that waits. -/
theorem witness_descriptor_reports :
    (let s := reportingS 0 2 63 0 []
     let x := s.hub.stream 3
     (∃ d, x.inflight = [d] ∧ d.ended = some (0, 4096) ∧ d.known = true ∧ d.flag 1 = true ∧ d.flag 3 = false ∧ d.event = some (eventHpa 3 1))
       ∧ x.held = [] ∧ x.stop = none ∧ x.f 9 1 ≠ 0 ∧ s.hub.get (Reg.drfStreamStatusState 3) = 2 ∧ s.hub.region (eventHpa 3 1) = .event 3 1
       ∧ ¬ 2 ^ x.f 9 1 ≤ (x.c + 2 ^ 32 - x.cplHead) % 2 ^ 32 ∧ InFloe s.hub (x.f 0x10 8 + 16 * (x.c % 2 ^ x.f 9 1)) 16 ∧ s.hub.streamPart 3 = 31
       ∧ (x.f 0x0A 2).testBit 1 = false)
      ∧ (let x := (reportingS 9 2 64 0 []).hub.stream 3; 2 ^ x.f 9 1 ≤ (x.c + 2 ^ 32 - x.cplHead) % 2 ^ 32)
      ∧ (let s := reportingS 0 0 5 5 [lateReq]
         (∃ d, s.hub.desc 3 7 = some d ∧ d.ended = none ∧ d.retry = lateReq :: []) ∧ (s.hub.stream 3).f 0x0E 2 * 1000 < 1001 ∧ 1000 ≤ (s.hub.stream 3).f 0x0E 2 * 1000
           ∧ s.hub.desc 3 9 = none ∧ (3, 7) ∈ s.hub.drift.pri ∧ (3, 8) ∉ s.hub.drift.pri ∧ s.hub.hostOpen 5 = false) := by
  unfold InFloe
  refine ⟨⟨⟨_, rfl, rfl, rfl, by decide +kernel, by decide +kernel, rfl⟩, by decide +kernel⟩, by decide +kernel, ⟨⟨_, rfl, rfl, rfl⟩, by decide +kernel⟩⟩

/-! ### Walks, faults, invalidations -/

/-- Partition 2 with half 1, its ASID 2 with a root; the units of Chapter 11 as `f` leaves them. -/
def walker (extra : List (Fld × Nat)) (f : Xlt → Xlt) : State :=
  up ([(Reg.prtStatusState 2, 2), (Reg.prtCfgExist 2, 1), (Reg.prtHalvesMap 2, 1), (Reg.prtVfsMap 2, 3), (Reg.hbmStackInfoState 0, 1), (Reg.hbmStackInfoDensity 0, 2),
    (Reg.xltAsRoot 2, 0x10), (Reg.xltAsPartition 2, 2), (Reg.xltAsValid 2, 1)] ++ extra) (fun h => { h with xlt := f h.xlt })

/-- Which clause of WalksFollowThePageTables on `judge` an entry falls under, its hypotheses tried in the order in which they are written. -/
def entryClass (va level need e : Nat) : Nat :=
  let lo := 16 + 9 * level
  let leaf := e.testBit 1
  let cont := e.testBit 5
  let log2 := if cont then lo + 4 else lo
  let out := bits e lo (48 - lo) * 2 ^ lo
  if e.testBit 0 = false then 0
  else if bits e 6 6 ≠ 0 ∨ bits e 56 8 ≠ 0 ∨ (leaf = true ∧ level = 3) ∨ (leaf = false ∧ level = 0) ∨ (leaf = true ∧ cont = true ∧ level = 2)
      ∨ (leaf = true ∧ bits e 12 (lo - 12) ≠ 0) ∨ (leaf = false ∧ bits e 2 4 ≠ 0) ∨ (leaf = true ∧ cont = true ∧ bits e lo 4 ≠ bits va lo 4) then 1
  else if leaf = false then 2
  else if (bits e 2 3 &&& need) ≠ need then 3
  else if (walker [] id).hub.spanOk 2 level (out - out % 2 ^ log2) log2 = false then 4
  else 5

/-- Every clause of an entry's meaning has an entry; each way to be malformed has one. -/
theorem witness_entries :
    (entryClass 0x50000 0 2 0 = 0)
      ∧ (∀ p ∈ [(0, 0x30043), (0, 0x10000000003000F), (3, 0x2003), (0, 0x20001), (2, 0x1000023), (0, 0x3100F), (1, 0x20005), (0, 0x3002F)], entryClass 0x50000 p.1 2 p.2 = 1)
      ∧ entryClass 0x50000 1 2 0x20001 = 2 ∧ entryClass 0x50000 0 2 0x30007 = 3 ∧ entryClass 0x50000 0 2 0x90000000000F = 4
      ∧ entryClass 0x50000 0 2 0x3000F = 5 ∧ entryClass 0x50000 0 2 0x5003F = 5 := by decide +kernel

def acc2 (va : Nat) : XAcc := ⟨0, ⟨2, 2, 0x55⟩, 2, 2, va, .write, .walk⟩
def walkOf (va level table : Nat) (stale : Bool) : Walk := ⟨0, 262, 2, 2, va, .write, level, table, stale, ⟨2, 2, 0x55⟩, [], .walk⟩
def faultOf (va slot : Nat) (w p : Bool) : Fault11 := ⟨0, slot, 7, 2, 2, va / 65536, 1, 0, ⟨2, 2, 0x55⟩, va, 0x77, 0x10008, 2, 5, 3, w, p⟩
def reqOf (asid : BitVec 12) (va : BitVec 64) : XltReq := ⟨2, 2, 0x55, asid, va, 1⟩

/-- A miss that joins a walk, one that takes a walker, one that finds 8 at its port, one past 52 bits, one whose ASID is not valid, one whose fault is open; no access. -/
theorem witness_walk_starts :
    (walker [] id).hub.walkAcc 0 (reqOf 2 0x12340050) = some (acc2 0x12340050) ∧ (walker [] id).hub.walkAcc 0 ⟨2, 2, 0x55, 2, 0x12340050, 7⟩ = none
      ∧ (∀ s ∈ [walker [] (fun x => { x with walks := [walkOf 0x12340000 1 0x10000 false] }), walker [] id, walker [(Reg.xltAsValid 2, 0)] id,
            walker [] (fun x => { x with walks := (List.range 8).map (fun i => walkOf (0x77770000 + 65536 * i) 1 0x10000 false) })],
          ∀ va ∈ [0x12340050, 0x10000012340050],
            let x := acc2 va
            s.hub.portHeld x = false ∧ s.hub.faultFor x = none ∧ ¬ (x.va < 2 ^ 52 ∧ ((s.hub.tlbGet x.utlb x.asid x.va).isSome ∨ (s.hub.tlbGet x.stlb x.asid x.va).isSome)))
      ∧ (walker [] (fun x => { x with walks := [walkOf 0x12340000 1 0x10000 false] })).hub.walkFor (acc2 0x12340050) = some (walkOf 0x12340000 1 0x10000 false)
      ∧ (let h := (walker [] id).hub; h.walkFor (acc2 0x12340050) = none ∧ h.walksOf 0 < 64 ∧ h.portWalks 0 (acc2 0).master.local' < 8 ∧ h.get (Reg.xltAsValid 2) = 1
          ∧ h.walkFor (acc2 0x10000012340050) = none ∧ 2 ^ 52 ≤ (acc2 0x10000012340050).va ∧ Claims.MayOpen h (acc2 0x10000012340050) 0)
      ∧ (let h := (walker [] (fun x => { x with walks := (List.range 8).map (fun i => walkOf (0x77770000 + 65536 * i) 1 0x10000 false) })).hub
         h.walkFor (acc2 0x12340050) = none ∧ ¬ h.portWalks 0 (acc2 0).master.local' < 8)
      ∧ (let h := (walker [(Reg.xltAsValid 2, 0)] id).hub; h.walkFor (acc2 0x12340050) = none ∧ h.get (Reg.xltAsValid 2) = 0 ∧ Claims.MayOpen h (acc2 0x12340050) 0)
      ∧ (let h := (walker [] (fun x => { x with faults := [faultOf 0x12340000 0 false false] })).hub
         h.portHeld (acc2 0x12340050) = false ∧ h.faultFor (acc2 0x12340050) = some (faultOf 0x12340000 0 false false) ∧ h.parkedIn 0 < 512) := by
  unfold Claims.MayOpen; decide +kernel

/-- A walk at `level` whose table lies at 0x10000 (or elsewhere), the entry `e` where it reads next, with poison or not. -/
def reading (level table : Nat) (e poison : Nat) (stale : Bool) : State :=
  let s := walker [] (fun x => { x with walks := [walkOf 0x12340000 level table stale] })
  let a := table + 8 * bits 0x12340000 (16 + 9 * level) 9
  { s with mem := { s.mem with lines := [(a / 128, ⟨0, 0, 1, 2, 15, 0, poison, e * 2 ^ (8 * (a % 128))⟩)] } }

/-- A read that goes on, one that ends in a leaf, one that faults, a poisoned one, one outside the partition, one of a stale walk, none. -/
theorem witness_table_reads :
    (∀ p ∈ [(1, 0x20001, 0), (0, 0x234000F, 0), (0, 0, 0), (0, 0x234000F, 15)],
        let s := reading p.1 0x10000 p.2.1 p.2.2 false
        let w := walkOf 0x12340000 p.1 0x10000 false
        let a := 0x10000 + 8 * bits 0x12340000 (16 + 9 * p.1) 9
        s.hub.xlt.walks.find? (fun w => decide (w.die = 0) && decide (w.asid = 2) && decide (pageOf w.va = 0x1234)) = some w
          ∧ w.stale = false ∧ w.joined = [] ∧ w.who = .walk ∧ s.hub.portHeld w.access = false ∧ s.hub.tableOk (s.hub.get (Reg.xltAsPartition w.asid)) a = true ∧ a % 8 = 0
          ∧ s.hub.region a = .stack ∧ s.hub.stackKind a = .usable ∧ s.hub.domainAt a = none ∧ Claims.LineFree s (a / 128)
          ∧ tlook s.mem.lines (a / 128) = some ⟨0, 0, 1, 2, 15, 0, p.2.2, p.2.1 * 2 ^ (8 * (a % 128))⟩
          ∧ bits (p.2.1 * 2 ^ (8 * (a % 128))) (8 * (a % 128)) 64 = p.2.1 ∧ s.hub.faultFor w.access = none ∧ Claims.MayOpen s.hub w.access 0)
      ∧ (let j (level e : Nat) := (walker [] id).hub.judge 2 0x12340000 level 2 e (0x10000 + 8 * bits 0x12340000 (16 + 9 * level) 9)
         j 1 0x20001 = .table 0x20000 ∧ j 0 0x234000F = .leaf 0x2340000 16 3 0x234000F ∧ j 0 0 = .fault 1 0 0 (0x10000 + 8 * 0x34))
      ∧ (walker [] id).hub.tableOk 2 (0x900000000 + 8 * 0x34) = false
      ∧ (reading 0 0x900000000 0 0 false).hub.xlt.walks.find? (fun w => decide (w.die = 0) && decide (w.asid = 2) && decide (pageOf w.va = 0x1234)) = some (walkOf 0x12340000 0 0x900000000 false)
      ∧ Claims.MayOpen (reading 0 0x900000000 0 0 false).hub (walkOf 0x12340000 0 0x900000000 false).access 0
      ∧ (reading 0 0x10000 0 0 true).hub.xlt.walks.find? (fun w => decide (w.die = 0) && decide (w.asid = 2) && decide (pageOf w.va = 0x1234)) = some (walkOf 0x12340000 0 0x10000 true)
      ∧ (reading 0 0x10000 0 0 true).hub.get (Reg.xltAsValid 2) = 1
      ∧ (walker [] id).hub.xlt.walks.find? (fun w => decide (w.die = 0) && decide (w.asid = 2) && decide (pageOf w.va = 0x1234)) = none := by
  unfold Claims.MayOpen Claims.LineFree; decide +kernel

/-- Partition 2's queue of 64 records at 0x20000 with PI and CI; faults, parked and held accesses and TLB entries as given; stream 3 with one descriptor. -/
def faulted (en pi ci : Nat) (fs : List Fault11) (ps : List Parked) (hs : List HeldAcc) (tl : List TlbEntry) : State :=
  let s := walker [(Reg.qStatusState 0 3, 1), (Reg.qCtrlCqLog2 0 3, 6), (Reg.qStatusState 1 3, 1), (Reg.qCtrlCqLog2 1 3, 6), (Reg.drfStreamStatusState 3, 2), (Reg.drfStreamStatusPartition 3, 2), (Reg.xltFqCtrlEnable 2, en),
    (Reg.xltFqCtrlLog2 2, 6), (Reg.xltFqBaseHpa 2, 0x20000), (Reg.xltFqPiCount 2, pi), (Reg.xltFqCiCount 2, ci)] (fun x => { x with faults := fs, parked := ps, held := hs, tlbs := tl })
  { s with hub := s.hub.setStream 3 ⟨5, 0x300000100000 + 2 ^ 64 * 6, 9, 0, 0, [⟨7, 1, none, none, false, [], true, false, false, [], false⟩], [], false, none⟩,
           mem := { s.mem with lines := [((0x20000 + 64 * (pi % 64)) / 128, ⟨0, 0, 1, 2, 15, 1, 0, 0xABCDEF⟩)] } }
def cmd3 (fn raw : Nat) : QCmd := ⟨fn, 3, 1, BitVec.ofNat 512 raw⟩
def resume (id act res fn : Nat) : QCmd := cmd3 fn (4 + 2 ^ 16 * 77 + (if fn = 0 then 2 ^ 32 * 0xFF else 0) + 2 ^ 128 * id + 2 ^ 160 * act + 2 ^ 168 * res)
def heldOf : HeldAcc := ⟨0, 2, 2, ⟨2, 2, 0x55⟩, 0x777000, .write, 2, 1, 0xF, 0x888, .walk⟩

/-- A record written with 63 before it, a queue full at 64 and one disabled, a fault already written or pending; CI of a partition and of none; a held access. -/
theorem witness_fault_records :
    (let f := faultOf 0x12340000 0 false false
     let s := faulted 1 104 41 [f] [] [] []
     s.hub.xlt.faults.find? (fun f => decide (f.die = 0) && decide (f.slot = 0)) = some f ∧ f.part < 24
       ∧ s.hub.xlt.faults.find? (fun y => decide (y.part = f.part) && !y.written && !y.pendingRec) = some f
       ∧ s.hub.get (Reg.xltFqCtrlEnable 2) = 1 ∧ (s.hub.get (Reg.xltFqPiCount 2) + 2 ^ 32 - s.hub.get (Reg.xltFqCiCount 2)) % 2 ^ 32 ≠ 2 ^ s.hub.get (Reg.xltFqCtrlLog2 2)
       ∧ s.hub.fqNext 2 = none ∧ (let a := s.hub.get (Reg.xltFqBaseHpa 2) + 64 * (s.hub.get (Reg.xltFqPiCount 2) % 2 ^ s.hub.get (Reg.xltFqCtrlLog2 2))
          a % 64 = 0 ∧ Claims.HeldLine s a ⟨0, 0, 1, 2, 15, 1, 0, 0xABCDEF⟩)
       ∧ s.hub.tagPart 1 2 = 2 ∧ 24 ≤ s.hub.tagPart 9 2
       ∧ (let h := (faulted 1 105 41 [f] [] [] []).hub; (h.get (Reg.xltFqPiCount 2) + 2 ^ 32 - h.get (Reg.xltFqCiCount 2)) % 2 ^ 32 = 2 ^ h.get (Reg.xltFqCtrlLog2 2))
       ∧ (faulted 0 3 3 [f] [] [] []).hub.get (Reg.xltFqCtrlEnable 2) = 0 ∧ (faultOf 0x12340000 0 true false).written = true ∧ (faultOf 0x12340000 0 false true).pendingRec = true)
      ∧ (let s := faulted 1 3 3 [] [] [heldOf] []
         s.hub.xlt.held = [heldOf] ∧ heldOf.die = 0 ∧ Claims.MayOpen s.hub heldOf.access 0)
      ∧ (faulted 1 3 3 [] [] [] []).hub.xlt.held.find? (fun a => decide (a.die = 0)) = none := by
  unfold Claims.HeldLine Claims.LineFree Claims.MayOpen; decide +kernel

/-- XLT_RESUME: RETRY of a walk that now hits, REFUSE of a descriptor, no such fault, an action of 2, a reserved bit. -/
theorem witness_resume :
    (let f := faultOf 0x12340000 0 true false
     let v : Parked := ⟨0, 0, ⟨2, 2, 0x55⟩, 0x12340050, .write, .walk⟩
     let e : TlbEntry := ⟨262, 2, 0x12340000, 16, 0x5670000, 7, 0, 5, 6⟩
     let s := faulted 1 4 3 [f] [v] [] [e]
     let c := resume f.id 0 0 1
     s.hub.cmdCheck c false = 0 ∧ qf c 0x14 1 < 2 ∧ qz c 0x15 0x40 = true
       ∧ s.hub.xlt.faults.find? (fun f => decide (f.id = qf c 0x10 4) && f.written && (decide (c.fn = 0) || decide (f.part = s.hub.vfOwner c.fn))) = some f
       ∧ s.hub.xlt.parked.filter (fun a => decide (a.die = f.die) && decide (a.slot = f.slot)) = [v] ∧ qf c 0x14 1 = 0 ∧ (f.access v).va < 2 ^ 52
       ∧ s.hub.portHeld (f.access v) = false ∧ s.hub.xlt.faults = [f] ∧ f.die = v.die ∧ s.hub.tlbGet (f.access v).utlb (f.access v).asid (f.access v).va = some e ∧ e.rights = 7)
      ∧ (let f := faultOf 0x12340000 0 true false
         let v : Parked := ⟨0, 0, ⟨2, 2, 0x55⟩, 0x12340050, .write, .stream 3 7⟩
         let s := faulted 1 4 3 [f] [v] [] []
         let c := resume f.id 1 0 0
         s.hub.cmdCheck c false = 0 ∧ qf c 0x14 1 = 1 ∧ qz c 0x15 0x40 = true
           ∧ s.hub.xlt.faults.find? (fun f => decide (f.id = qf c 0x10 4) && f.written && (decide (c.fn = 0) || decide (f.part = s.hub.vfOwner c.fn))) = some f
           ∧ s.hub.xlt.parked.filter (fun a => decide (a.die = f.die) && decide (a.slot = f.slot)) = [v] ∧ (s.hub.stream 3).held = []
           ∧ (∃ d, s.hub.desc 3 7 = some d ∧ d.ended = none)
           ∧ s.hub.xlt.faults.find? (fun y => decide (y.id = qf (resume 9 0 0 0) 0x10 4) && y.written) = none ∧ s.hub.cmdCheck (resume 9 0 0 0) false = 0
           ∧ s.hub.cmdCheck (resume 9 2 0 0) false = 0 ∧ ¬ qf (resume 9 2 0 0) 0x14 1 < 2 ∧ s.hub.cmdCheck (resume 9 1 1 0) false = 0 ∧ qz (resume 9 1 1 0) 0x15 0x40 = false) :=
  ⟨by decide +kernel, by decide +kernel, by decide +kernel, by decide +kernel, by decide +kernel, by decide +kernel, by decide +kernel, ⟨_, rfl, rfl⟩,
    by decide +kernel, by decide +kernel, by decide +kernel, by decide +kernel, by decide +kernel, by decide +kernel⟩

def inval (fn asid scope fl va len res : Nat) : QCmd :=
  cmd3 fn (5 + 2 ^ 16 * 77 + (if fn = 0 then 2 ^ 32 * 0xFF else 0) + 2 ^ 128 * asid + 2 ^ 144 * scope + 2 ^ 152 * fl + 2 ^ 192 * va + 2 ^ 256 * len + 2 ^ 320 * res)
/-- ASID 2 with VALID and BUSY as given and an invalidation that covers it, waiting for a stale walk or not; engine 17 of partition 2. -/
def covering (v b : Nat) (stale : Bool) (c : Option QCmd) : State :=
  walker [(Reg.xltAsValid 2, v), (Reg.xltAsBusy 2, b), (Reg.xltAsPartition 31, 4), (Reg.qStatusState 0 3, 1), (Reg.qCtrlCqLog2 0 3, 6), (Reg.qStatusState 1 3, 1), (Reg.qCtrlCqLog2 1 3, 6), (Reg.siteEngCtrlPartition 17, 2)] (fun x => { x with
    tlbs := [⟨262, 2, 0x10000, 16, 0x5670000, 7, 0, 5, 6⟩, ⟨262, 31, 0x10000, 16, 0x5670000, 7, 0, 5, 6⟩], wcache := [⟨0, 2, 0, 0, 0x18000⟩], walks := [walkOf 0x10050 0 5 stale], invals := [⟨c, 2, 1⟩] })

/-- An invalidation by address, one malformed, one of another partition's ASID; done or not; ASID writes while free, while VALID and while BUSY; an engine of a die that is not there. -/
theorem witness_invalidations :
    (let s := covering 1 0 false none
     (∀ c ∈ [inval 0 2 0 0 0x10000 0x10000 0, inval 1 2 2 1 0 0 0], s.hub.cmdCheck c false = 0 ∧ invalOk c = true ∧ (c.fn = 0 ∨ s.hub.get (Reg.xltAsPartition (qf c 0x10 2)) = s.hub.vfOwner c.fn))
       ∧ s.hub.cmdCheck (inval 0 2 0 0 0 0 3) false = 0 ∧ invalOk (inval 0 2 0 0 0 0 3) = false
       ∧ s.hub.cmdCheck (inval 1 31 1 0 0 0 0) false = 0 ∧ invalOk (inval 1 31 1 0 0 0 0) = true ∧ s.hub.get (Reg.xltAsPartition 31) ≠ s.hub.vfOwner 1)
      ∧ (let c := inval 0 2 1 0 0 0 0
         let waiting (s : State) := s.hub.xlt.invals.find? (fun i => i.cmd.isSome && decide (i.asid = 2))
         waiting (covering 1 0 false none) = none ∧ waiting (covering 1 0 false (some c)) = some ⟨some c, 2, 1⟩ ∧ (covering 1 0 false (some c)).hub.staleIn ⟨some c, 2, 1⟩ = false
           ∧ (covering 1 0 true (some c)).hub.staleIn ⟨some c, 2, 1⟩ = true)
      ∧ (let clearing (s : State) := s.hub.xlt.invals.find? (fun i => i.cmd.isNone && decide (i.asid = 2))
         clearing (covering 0 1 false none) = some ⟨none, 2, 1⟩ ∧ (covering 0 1 false none).hub.staleIn ⟨none, 2, 1⟩ = false ∧ (covering 0 1 true none).hub.staleIn ⟨none, 2, 1⟩ = true
           ∧ (∀ p ∈ [(0, 0), (1, 0), (0, 1)], (covering p.1 p.2 false none).hub.get (Reg.xltAsValid 2) = p.1 ∧ (covering p.1 p.2 false none).hub.get (Reg.xltAsBusy 2) = p.2)
           ∧ bits 0x0200000000010000 12 36 = (covering 1 0 false none).hub.get (Reg.xltAsRoot 2) ∧ 0x0200000000010000 % 2 = 0
           ∧ bits 0x0200000000005001 12 36 ≠ (covering 1 0 false none).hub.get (Reg.xltAsRoot 2))
      ∧ (let h := (covering 1 0 false none).hub
         h.engOwner 17 = 2 ∧ h.get (Reg.xltAsPartition 2) = 2 ∧ h.get (Reg.xltAsPartition 31) ≠ 2 ∧ h.dies = 1
           ∧ (walker [(Reg.glbRevTwin, 1)] id).hub.dies = 2) := by
  decide +kernel

/-! ### Engines, sites, regulators, the TAP -/

/-- Credits left at site 2, of which a CREDIT may give 60, 248, 14 and 14 back. -/
def creditSite : Site :=
  { Site.rst with reqH := 5, reqD := 9, evtH := 3, evtD := 3, rspH := 4, rspD := 8, cvtH := 2, cvtD := 2, credits := BitVec.ofNat 64 (64 + 2 ^ 16 * 256 + 2 ^ 32 * 16 + 2 ^ 48 * 16) }
def tlb17 (out : Nat) : TlbEntry := ⟨196 + 17, 30, 0x12340000, 16, out, 7, 0, 5, 6⟩
/-- Site 2 ACTIVE with module 0, its engine 1 (engine 17) of partition 2 with ASID 30 granted and one page translated to `out`. -/
def engine (extra : List (Fld × Nat)) (x : Site) (out : Nat) : State :=
  walker ([(Reg.xltAsPartition 30, 2), (Reg.xltAsValid 30, 1), (Reg.xltGrantAsid1 17, 30), (Reg.xltGrantV1 17, 1), (Reg.siteStatusState 2, 2), (Reg.siteModuleState 2 0, 0),
    (Reg.siteStatusMinor 2, 3), (Reg.siteStatusEngines 2, 4), (Reg.siteEngStatusState 17, 2), (Reg.siteEngCtrlPartition 17, 2), (Reg.siteEngStatusWrites 17, 0xFFFFFFFF),
    (Reg.siteEngDescDesc 17, 4096 * 2 ^ 32 + (2 ^ 128 - 1) * 2 ^ 64), (Reg.drfStreamStatusState 3, 2), (Reg.drfStreamStatusPartition 3, 2), (Reg.drfStreamStatusHead 3, 8)] ++ extra)
    (fun z => { z with tlbs := [tlb17 out] })
  |>.onHub (fun h => (h.setSite 2 x).setStream 3 ⟨1, 0x300000100000 + 2 ^ 64 * 6, 9, 0, 0, [], [], true, none⟩)
def reqHdr (op asid df sf va n : Nat) : BitVec 128 :=
  BitVec.ofNat 128 (op + 2 ^ 8 * 1 + 2 ^ 16 * 0x155 + 2 ^ 28 * asid + 2 ^ 40 * df + 2 ^ 48 * sf + 2 ^ 64 * va + 2 ^ 116 * (n / 32 - 1))
def flit (v : Nat) : BitVec 512 := BitVec.ofNat 512 v
def reqState (s : State) (hdr : BitVec 128) (data : List (BitVec 512)) := s.hub.reqOpen 17 (hdrRtag hdr) 0 (reqFlits hdr) hdr data

/-- One request of each kind that passes every check and hits the TLB. -/
theorem witness_engine_requests :
    (let s := engine [] creditSite F0
     ∀ p ∈ [(1, 0, 128, AccKind.read, 0, 128, []), (2, 1, 128, .write, 0, 128, [flit 7, flit 9]), (3, 1, 32, .write, 32, 32, [flit (2 ^ 256 + 5)]), (4, 0x10, 32, .atomic, 8, 8, [flit 7]),
          (4, 0, 32, .atomic, 0, 4, [flit 7]), (5, 0, 128, .write, 0, 128, []), (6, 1, 64, .read, 0, 64, [])],
        let hdr := reqHdr p.1 30 p.2.1 (if 4 ≤ p.1 then 0 else p.2.1) (0x12340200 + p.2.2.2.2.1) p.2.2.1
        let data : List (BitVec 512) := p.2.2.2.2.2.2
        let q := reqState s hdr data
        let x : XAcc := ⟨0, ⟨1, 17, 0⟩, s.hub.engOwner 17, hf hdr 28 12, reqVa hdr, p.2.2.2.1, .engine 17 0x155⟩
        s.hub.reqError 17 (hdrRtag hdr) (reqFlits hdr) hdr data = false ∧ (q.2.engCheck q.1).1 = 0 ∧ (p.1 = 1 ∨ p.1 = 2 → reqDfmt hdr = reqSfmt hdr) ∧ reqLen hdr = p.2.2.1
          ∧ Claims.Hits s x (tlb17 F0) (F0 + 0x200 + p.2.2.2.2.1) ∧ Claims.InFloe s.hub (F0 + 0x200 + p.2.2.2.2.1) p.2.2.2.2.2.1)
      ∧ (let s := engine [] creditSite F0
         s.hub.siteUp 2 = true ∧ s.hub.moduleUp 2 0 = true ∧ Claims.SiteCalm (s.hub.site 2) ∧ 0 < (s.hub.site 2).rspH ∧ 2 ≤ (s.hub.site 2).rspD
           ∧ s.hub.get (Reg.qosPortRegEn (engPort 17)) = 0 ∧ (s.hub.qosPort (engPort 17)).held = [] ∧ s.hub.anyOut (.engine 17 0x155) = false) := by
  unfold Claims.Hits Claims.InFloe Claims.SiteCalm; decide +kernel

/-- What R289 refuses: each state of the engine and of its partition, an ungranted ASID, a length that no READ has; a site that is not up; a flit too many. -/
theorem witness_engine_refusals :
    (∀ p ∈ [([(Reg.siteEngCtrlPartition 17, 31)], 0x30), ([(Reg.siteEngStatusState 17, 3)], 0x31), ([(Reg.prtStatusState 2, 4)], 0x10), ([(Reg.prtStatusState 2, 1)], 0x0D), ([(Reg.prtStatusState 2, 3)], 0), ([], 0)],
        let s := engine p.1 creditSite F0
        let q := reqState s (reqHdr 1 30 1 1 0x12340200 64) []
        s.hub.engState 17 = p.2 ∧ q.2.engState 17 = p.2 ∧ (q.2.engCheck q.1).1 = p.2)
      ∧ (let s := engine [] creditSite F0
         let q := reqState s (reqHdr 1 30 1 1 0x12340203 64) []
         q.2.engState 17 = 0 ∧ wellFormed q.1 (q.2.get (Reg.siteStatusMinor 2)) = false)
      ∧ (let s := engine [(Reg.xltGrantV1 17, 0)] creditSite F0
         let q := reqState s (reqHdr 1 30 1 1 0x12340200 64) []
         (q.2.engCheck q.1).1 ≠ 0 ∧ s.hub.reqError 17 0x155 (reqFlits (reqHdr 1 30 1 1 0x12340200 64)) (reqHdr 1 30 1 1 0x12340200 64) [] = false)
      ∧ (engine [(Reg.siteStatusState 2, 4)] creditSite F0).hub.siteUp 2 = false
      ∧ (let hdr := reqHdr 1 30 1 1 0x12340200 64; (engine [] creditSite F0).hub.reqError 17 (hdrRtag hdr) (reqFlits hdr) hdr [flit 1] = true)
      ∧ ((engine [] creditSite F0).mem.mark (F0 / 32 + 0x10) true).badBits (F0 + 0x200) 8 ≠ 0 := by
  decide +kernel

def eventHdr (op kind asid va w : Nat) : BitVec 128 := BitVec.ofNat 128 (op + 2 ^ 8 * 1 + 2 ^ 11 * kind + 2 ^ 16 * asid + 2 ^ 32 * w + 2 ^ 64 * va)

/-- Events of kinds 1 to 3 on what the engine may reach and on what it may not; one whose writes are not visible yet; a stream that is another's. -/
theorem witness_engine_completions :
    (let s := engine [] creditSite F0
     s.hub.siteUp 2 = true ∧ s.hub.moduleUp 2 0 = true ∧ (s.hub.site 2).evts = [] ∧ (s.hub.site 2).open' = [] ∧ 0 < (s.hub.site 2).evtH ∧ 1 ≤ (s.hub.site 2).evtD ∧ 2 ≤ s.hub.get (Reg.siteStatusMinor 2)
       ∧ (∀ w ∈ [0xFFFFFFFF, 0x80000000], (s.hub.get (Reg.siteEngStatusWrites 17) + 2 ^ 32 - w) % 2 ^ 32 < 2 ^ 31) ∧ s.hub.get (Reg.siteEngStatusWrites 17) = 0xFFFFFFFF
       ∧ (∀ w ∈ [0, 0x7FFFFFFE], (w + 2 ^ 32 - s.hub.get (Reg.siteEngStatusWrites 17) - 1) % 2 ^ 32 < 2 ^ 31)
       ∧ s.hub.evtStuck ⟨17, 0, eventHdr 0xE1 1 30 0x12340200 0xFFFFFFFF, [flit 5]⟩ = false ∧ hf (eventHdr 0xE1 1 30 0x12340200 0xFFFFFFFF) 11 2 = 1
       ∧ hdrOp (eventHdr 0xE1 1 30 0x12340200 0xFFFFFFFF) = 0xE1 ∧ hf (eventHdr 0xE1 1 30 0x12340200 0xFFFFFFFF) 32 32 = 0xFFFFFFFF
       ∧ s.hub.engOwner 17 < 24 ∧ s.hub.granted 17 30 = true ∧ s.hub.granted 17 31 = false ∧ 0x12340200 % 16 = 0 ∧ 0x12340208 % 16 ≠ 0
       ∧ Claims.Hits s ⟨0, ⟨1, 17, 0⟩, 2, 30, 0x12340200, .write, .engine 17 4096⟩ (tlb17 F0) (F0 + 0x200) ∧ Claims.InFloe s.hub (F0 + 0x200) 16
       ∧ s.hub.streamPart 3 = s.hub.engOwner 17 ∧ s.hub.get (Reg.drfStreamStatusState 3) = 2 ∧ (s.hub.stream 3).stop = none
       ∧ (∀ tail ∈ [9, 72], (tail + 2 ^ 32 - s.hub.get (Reg.drfStreamStatusHead 3)) % 2 ^ 32 ≤ 2 ^ (s.hub.stream 3).f 0x08 1 ∧ (tail + 2 ^ 32 - (s.hub.stream 3).tail) % 2 ^ 32 < 2 ^ 31)
       ∧ s.hub.streamPart 4 ≠ s.hub.engOwner 17)
      ∧ (let s := engine [] creditSite (F0 + 0xC800000)
         Claims.Hits s ⟨0, ⟨1, 17, 0⟩, 2, 30, 0x12340304, .write, .engine 17 4096⟩ (tlb17 (F0 + 0xC800000)) (F0 + 0xC800304)
           ∧ s.hub.region (F0 + 0xC800304) = .event 3 1)
      ∧ (engine [] { creditSite with evtH := 0 } F0).hub.site 2 = { creditSite with evtH := 0 } ∧ (engine [(Reg.siteStatusMinor 2, 1)] creditSite F0).hub.get (Reg.siteStatusMinor 2) < 2
      ∧ 24 ≤ (engine [(Reg.siteEngCtrlPartition 17, 31)] creditSite F0).hub.engOwner 17 := by
  unfold Claims.Hits Claims.InFloe
  decide +kernel

/-- Interrupts at the last entry and past it, held and not; CLEARED and errors of each severity; CREDIT at its limit and past it; an unknown class. -/
theorem witness_engine_notices :
    (let s := engine [(Reg.siteEngCtrlIrqBase 17, 253), (Reg.siteEngCtrlVf 17, 1), (Pci.msixEn 1, 1)] creditSite F0
     s.hub.get (Reg.siteEngCtrlVf 17) = 1 ∧ s.hub.partState (s.hub.vfOwner 1) ≠ 4
       ∧ s.hub.get (Reg.siteEngCtrlIrqBase 17) + 2 < msixSize 1 ∧ msixSize 1 ≤ s.hub.get (Reg.siteEngCtrlIrqBase 17) + 3)
      ∧ (engine [(Pci.msixEn 0, 1), (Reg.msixMask 0 3, 0)] creditSite F0).hub.msixHeld 0 3 = false
      ∧ (engine [] creditSite F0).hub.msixHeld 0 3 = true ∧ hf (eventHdr 0xE2 0 3 0 0xFFFFFFFF) 16 4 = 3
      ∧ hdrOp (eventHdr 0xE4 0 0 0 0) = 0xE4 ∧ Claims.SiteCalm creditSite ∧ (∀ st ∈ [2, 3], (engine [(Reg.siteEngStatusState 17, st)] creditSite F0).hub.get (Reg.siteEngStatusState 17) = st)
      ∧ hdrOp (eventHdr 0xE5 0 1 0 0) = 0xE5 ∧ hf (eventHdr 0xE5 0 1 0 0) 16 1 = 1 ∧ hf (eventHdr 0xE5 0 0 0 7) 16 1 = 0
      ∧ (∀ p ∈ [(2, 60), (4, 14)], let hdr := BitVec.ofNat 128 (0xF0 + 2 ^ 8 * p.1 + 2 ^ 16 * p.2)
          hdrOp hdr = 0xF0 ∧ hf hdr 8 3 = p.1 ∧ hf hdr 16 16 = p.2 ∧ bits creditSite.credits.toNat (16 * (p.1 - 2)) 16 = (if p.1 = 2 then creditSite.rspH else creditSite.cvtH) + p.2)
      ∧ (bits creditSite.credits.toNat 0 16 < creditSite.rspH + 61 ∧ bits creditSite.credits.toNat 16 16 < creditSite.rspD + 249
          ∧ bits creditSite.credits.toNat 32 16 < creditSite.cvtH + 15 ∧ bits creditSite.credits.toNat 48 16 < creditSite.cvtD + 15) := by
  unfold Claims.SiteCalm; decide +kernel

/-- Doorbells of the host and of a sequencer to an engine OPEN, clearing and not assigned; with and without credits; 16 waiting; from a VF that holds it not. -/
theorem witness_engine_doorbells :
    (∀ st ∈ [0, 1, 2, 3, 4], let h := (engine [(Reg.siteEngStatusState 17, st)] creditSite F0).hub; h.srcMute .pf = false ∧ h.engDbHonoured .pf 17 = true ∧ h.get (Reg.siteEngStatusState 17) = st)
      ∧ (let h := (engine [] creditSite F0).hub; h.dbOpen 17 = true ∧ Claims.SiteCalm (h.site 2) ∧ 0 < (h.site 2).cvtH ∧ h.srcMute (.vf 3) = false ∧ h.engDbHonoured (.vf 3) 17 = false)
      ∧ (∀ n ∈ [0, 15], let h := (engine [] { creditSite with cvtH := 0, dbs := (List.range n).map (fun i => (17, i)) } F0).hub
          ((h.site 2).dbs.filter (fun d => decide (d.1 = 17))).length < 16 ∧ (h.site 2).cvtH = 0 ∧ (h.site 2).rspq = [])
      ∧ (∀ st ∈ [1, 3], (engine [(Reg.siteStatusState 2, st)] creditSite F0).hub.get (Reg.siteStatusState 2) ≠ 0 ∧ (engine [(Reg.siteStatusState 2, st)] creditSite F0).hub.get (Reg.siteStatusState 2) ≠ 4) := by
  unfold Claims.SiteCalm; decide +kernel

/-- A chiplet's descriptor: major and minor, `n` engines, idle watts, SPDM offered. -/
def chip (major minor n idle spdm : Nat) : Nat :=
  0x44434845 + 2 ^ 32 * major + 2 ^ 40 * minor + 2 ^ 48 * n + 2 ^ 56 * 5 + 2 ^ 144 * 100 + 2 ^ 160 * idle + 2 ^ 176 * spdm
    + ((List.range n).map fun i => 2 ^ (8 * (0x40 + 0x80 * i)) * (i + 2 ^ 32 * 16 + 2 ^ 64 * 0x4003)).sum
def fullCredits : Nat := 64 + 2 ^ 16 * 256 + 2 ^ 32 * 16 + 2 ^ 48 * 9
/-- Site 2 at a step of Sounding, its descriptor stored; the package gives it 2 engines, modules 0 and 1 and 1000 W, SPDM by `fl`. -/
def sounded (st step cause d c : Nat) (fl : Nat) (extra : List (Fld × Nat)) : State :=
  (up ([(Reg.siteInfoMaxMinor, 3), (Reg.siteStatusState 2, st), (Reg.siteStatusCause 2, cause), (Reg.siteStatusEngines 2, 2), (Reg.siteModuleState 2 0, 0), (Reg.siteModuleState 2 1, 1), (Reg.siteModuleState 2 2, 3),
      (Reg.siteModuleState 2 3, 3), (Reg.siteModuleState 2 4, 3), (Reg.siteModuleState 2 5, 3), (Reg.siteRimeCfgLaneTh, 2)] ++ extra)
    (fun h => h.setSite 2 { Site.rst with step := step, desc := BitVec.ofNat 8704 d, credits := BitVec.ofNat 64 c, laneErr := [(laneKey 0 true 3, [1, 2]), (laneKey 0 false 3, [1])], actions := if c = 5 then [(0, 1, 3)] else if c = 6 then [(0, 2, 3)] else [] })).onHub (fun h => { h with
    boot := { h.boot with pd := (2 + 2 ^ 8 * 1 + 2 ^ 32 * 3 + 2 ^ 40 * fl) * 2 ^ (8 * pdSite 2) + (if fl = 4 then 10 else 1000) * 2 ^ (8 * 0x16) + 2 ^ (8 * 0x14) } })

/-- Every step of Sounding, with what fails it: no signature, a major of 2, a minor of 0, 3 engines, SPDM required and failed, no module trained. -/
theorem witness_sounding :
    (∀ p ∈ [(1, 0), (0, 1), (0, 2), (1, 4), (1, 5), (1, 6), (1, 7), (2, 0), (3, 0), (4, 0)], (sounded p.1 p.2 0 (chip 1 3 2 30 1) fullCredits 0 []).hub.get (Reg.siteStatusState 2) = p.1
        ∧ ((sounded p.1 p.2 0 (chip 1 3 2 30 1) fullCredits 0 []).hub.site 2).step = p.2)
      ∧ sdf (chip 1 3 2 30 1) 0 4 = 0x44434845 ∧ sdf 0 0 4 ≠ 0x44434845
      ∧ (sounded 1 4 0 (chip 1 3 2 30 1) fullCredits 0 []).hub.soundCause 2 = 0
      ∧ sdf (chip 2 3 2 30 1) 4 1 ≠ 1 ∧ sdf (chip 1 3 2 30 1) 4 1 = 1
      ∧ (let h (d c : Nat) := (sounded 1 4 0 d c 0 []).hub
         (h (chip 1 0 2 30 1) fullCredits).soundMinor (chip 1 0 2 30 1) < (h (chip 1 0 2 30 1) fullCredits).pdMinMinor 2 ∧ 3 ≠ (h (chip 1 3 3 30 1) fullCredits).pdEngines 2
           ∧ chipDescOk (chip 1 3 2 30 1 + 2 ^ (8 * 0x40)) = false ∧ creditsOk ((h (chip 1 3 2 30 1) 3).site 2).credits.toNat = false)
      ∧ (∀ fl ∈ [0, 1], (sounded 1 5 0 (chip 1 3 2 30 1) fullCredits fl []).hub.spdmRequired 2 = decide (fl = 1)) ∧ (sounded 1 5 0 (chip 1 3 2 30 1) fullCredits 0 []).hub.spdmOffered 2 = true
      ∧ (sounded 1 5 0 (chip 1 3 2 30 0) fullCredits 0 []).hub.spdmOffered 2 = false
      ∧ (sounded 1 6 0 (chip 1 3 2 30 1) fullCredits 0 []).hub.pdModules 2 &&& 4 = 0 ∧ (sounded 1 6 0 (chip 1 3 2 30 1) fullCredits 0 []).hub.pdModules 2 &&& 2 ≠ 0 ∧ sdf (chip 1 3 2 30 1) 6 1 ≤ 8
      ∧ (∀ c ∈ [3, 4, 5, 7], let h := (sounded 4 0 c (chip 1 3 2 30 1) fullCredits 0 []).hub; h.sitePartitions 2 = [] ∧ h.get (Reg.siteStatusCause 2) ∉ [1, 2, 11])
      ∧ (∀ c ∈ [1, 2, 11], (sounded 4 0 c (chip 1 3 2 30 1) fullCredits 0 []).hub.get (Reg.siteStatusCause 2) ∈ [1, 2, 11])
      ∧ (sounded 2 0 0 (chip 1 3 2 30 1) fullCredits 0 [(Reg.prtCfgExist 3, 1), (Reg.siteEngCtrlPartition 17, 3)]).hub.sitePartitions 2 ≠ [] := by
  decide +kernel

/-- A module that carries and one that does not; a lane at its threshold and one below; a remap and a degrade that run, with another module and without. -/
theorem witness_lanes :
    (let s := sounded 2 0 0 (chip 1 3 2 30 1) fullCredits 0 []
     let carries (s : State) (m : Nat) : Prop := s.hub.siteActive 2 = true ∧ m < 6 ∧ s.hub.get (Reg.siteModuleState 2 m) < 2 ∧ s.hub.get (Reg.siteModuleStalled 2 m) = 0
     carries s 0 ∧ carries s 1 ∧ ¬ carries s 2 ∧ s.hub.get Reg.siteRimeCfgLaneTh ≤ (tget [] (s.hub.site 2).laneErr (laneKey 0 true 3)).length
       ∧ kmem (s.hub.site 2).condemned (laneKey 0 true 3) = false ∧ ¬ s.hub.get Reg.siteRimeCfgLaneTh ≤ (tget [] (s.hub.site 2).laneErr (laneKey 0 false 3)).length
       ∧ s.hub.laneUsed 2 0 true 3 = true ∧ (s.hub.site 2).actions.find? (fun a => decide (a.1 = 0)) = none)
      ∧ (sounded 2 0 0 (chip 1 3 2 30 1) fullCredits 0 [(Reg.siteModuleState 2 0, 1)]).hub.laneUsed 2 0 true 40 = false
      ∧ (∀ c ∈ [5, 6], ∀ o ∈ [0, 2], let h := (sounded 2 0 0 (chip 1 3 2 30 1) c 0 [(Reg.siteModuleState 2 1, o)]).hub
          (h.site 2).actions = [(0, c - 4, 3)] ∧ h.get (Reg.siteStatusState 2) = 2 ∧ ((∃ i < 6, i ≠ 0 ∧ h.get (Reg.siteModuleState 2 i) < 2) ↔ o = 0)) := by
  decide +kernel

/-- Port 284 with the request of a descriptor held and its bucket as given, at a rate of 0. -/
def regulated (on : Nat) (tokens : Option Int) (g1 po : Bool) : State :=
  up [(Reg.qosPortRegEn 284, on), (Reg.qosPortRate 284, 0), (Reg.drfStreamStatusState 3, 2), (Reg.drfStreamStatusPartition 3, 31)] (fun h =>
    { (h.setStream 3 ⟨0, 0, 9, 0, 0, [⟨7, 1, none, none, false, [], true, false, false, [], false⟩], [], false, none⟩).setQosPort 284 ⟨tokens, 0, [.row 3 7 100]⟩ with
      boot := { h.boot with group1 := g1, porst := po } })

/-- At a rate of 0 the bucket keeps what it has, whatever the time: one token is enough, none is not. -/
theorem witness_tokens :
    0 < ((regulated 1 (some 1) true false).hub.refill 284).1 ∧ ((regulated 1 (some 0) true false).hub.refill 284).1 ≤ 0 := by
  have tokens (k : Int) (hk : k = 0 ∨ k = 1) (hr : (regulated 1 (some k) true false).hub.now.2.get (Reg.qosPortRate 284) = 0)
      (hb : (regulated 1 (some k) true false).hub.now.2.bucket 284 = 2 ^ 25) (hp : ((regulated 1 (some k) true false).hub.now.2.qosPort 284).tokens = some k) :
      ((regulated 1 (some k) true false).hub.refill 284).1 = k := by
    unfold Hub.refill
    rcases hk with rfl | rfl <;> simp [hr, hb, hp]
  rw [tokens 1 (.inr rfl) (by decide +kernel) (by decide +kernel) (by decide +kernel), tokens 0 (.inl rfl) (by decide +kernel) (by decide +kernel) (by decide +kernel)]
  decide

/-- The held request and its regulator on and off, a port with none; MOR through PF MMIO and another interface; the TAP with group 1 down, and PORST_N low and high. -/
theorem witness_regulators :
    (∀ on ∈ [0, 1], let h := (regulated on none true false).hub
        (h.qosPort 284).held = [.row 3 7 100] ∧ h.desc 3 7 = some ⟨7, 1, none, none, false, [], true, false, false, [], false⟩ ∧ h.get (Reg.qosPortRegEn 284) = on)
      ∧ ((regulated 0 none true false).hub.qosPort 283).held = []
      ∧ (∀ g ∈ [true, false], ∀ p ∈ [true, false], (regulated 0 none g p).hub.boot.group1 = g ∧ (regulated 0 none g p).hub.boot.porst = p)
      ∧ (regulated 0 none true false).hub.bar0Up = true ∧ Iface.code ⟨1⟩ = 1 ∧ Iface.code ⟨2⟩ ≠ 1 := by
  decide +kernel

/-! ### Partitions, queues, host accesses, function resets -/

/-- Partition 2 in state `st` in commit phase `ph`, with VFs 1 and 3, floe 3, slice 2, halves 0 and 1, engine 17 in state `eng` and stream 3 in state `ss`. -/
def partition (st ph eng ss : Nat) (busy deleting : Bool) : State :=
  up [(Reg.cfgStatusPhase, ph), (Reg.prtStatusState 2, st), (Reg.prtCfgExist 2, 1), (Reg.prtHalvesMap 2, 3), (Reg.prtSlicesMap 2 0, 4), (Reg.prtFloesMap 2 0, 8), (Reg.prtVfsMap 2, 5),
    (Reg.prtStatusKeyGen 2, 0xFFFF), (Reg.siteStatusState 2, 2), (Reg.siteEngStatusState 17, eng), (Reg.siteEngCtrlPartition 17, 2), (Reg.drfStreamStatusState 3, ss),
    (Reg.drfStreamStatusPartition 3, 2), (Reg.drfStreamStatusHead 3, 9), (Reg.qStatusState 1 3, 1), (Reg.flcFloeStatusState 3, 2)] (fun h =>
    { (h.setStream 3 ⟨1, 0x300000100000 + 2 ^ 64 * 6, 9, 0, 0, if busy then [⟨7, 1, none, none, false, [], true, false, false, [], false⟩] else [], [], !busy, none⟩) with
      sea := { h.sea with launches := if busy then [(7, ⟨⟨0, 64, 0, BitVec.ofNat 512 0⟩, 2, 0, 0, 0, [(3, 0, 0, 1)], [3], none, false, 0, 0⟩)] else [] }
      parts := tset PartSt.rst h.parts 2 ⟨deleting, if busy then [17] else []⟩ })

/-- Each state of a partition that a command takes and refuses, through PF MMIO and a queue, in COMMIT and before it; drained and busy; cleared and clearing. -/
theorem witness_partitions :
    (∀ st ∈ [0, 1, 2, 3, 4, 5, 6], ∀ ph ∈ [0, 1, 3], (partition st ph 2 1 true false).hub.partState 2 = st ∧ ((partition st ph 2 1 true false).hub.get Reg.cfgStatusPhase < 2 ↔ ph ≠ 3))
      ∧ Iface.code ⟨1⟩ = 1 ∧ Iface.code ⟨4⟩ ≠ 1 ∧ (2 : BitVec 5).toNat < 24
      ∧ (let s := partition 1 0 2 4 false false
         s.hub.partStreams 2 = [3] ∧ (s.hub.stream 3).inflight = [] ∧ (s.hub.stream 3).stop = none ∧ (s.hub.stream 3).paused = true ∧ s.hub.get (Reg.drfStreamStatusState 3) = 4)
      ∧ (∀ ss ∈ [1, 2], (partition 2 0 2 ss false false).hub.partStreams 2 = [3] ∧ (partition 2 0 2 ss false false).hub.get (Reg.drfStreamStatusState 3) = ss)
      ∧ (partition 3 0 2 4 false false).hub.drained 2 = true ∧ (partition 3 0 2 4 true false).hub.drained 2 = false
      ∧ (let s := partition 2 0 2 2 true false
         s.mem.lines = [] ∧ s.mem.misses = [] ∧ s.mem.evicts = [] ∧ s.mem.waiting = [] ∧ s.hub.floesOf 2 = [3] ∧ s.hub.enginesOf 2 = [17] ∧ s.hub.get (Reg.siteEngStatusState 17) = 2
           ∧ s.hub.halvesOf 2 = [0, 1] ∧ s.hub.slicesOf 2 = [2] ∧ s.hub.vfsOf 2 = [1, 3]
           ∧ tlook s.hub.sea.launches 7 = some ⟨⟨0, 64, 0, BitVec.ofNat 512 0⟩, 2, 0, 0, 0, [(3, 0, 0, 1)], [3], none, false, 0, 0⟩)
      ∧ (∀ st ∈ [4, 5], (partition st 0 2 0 false false).hub.allClear 2 = true ∧ (partition st 0 3 0 true false).hub.allClear 2 = false)
      ∧ (∀ d ∈ [true, false], (tget PartSt.rst (partition 4 0 2 0 false d).hub.parts 2).deleting = d) := by
  decide +kernel

/-- Queue `k` of function `f` in a state, with 64 submission and 128 completion slots, HEAD, TAIL, the completions written and read; a raw stack in DIAG. -/
def queued (f k st head tail c cqHead : Nat) (held busy : Bool) (extra : List (Fld × Nat)) : State :=
  up ([(Reg.qStatusState f k, st), (Reg.qStatusSqHead f k, head), (Reg.qCtrlSqLog2 f k, 6), (Reg.qCtrlCqLog2 f k, 7), (Reg.qSqBaseAddr f k, 5), (Reg.qCqBaseAddr f k, 9), (Reg.qCtrlEnable f k, 1),
    (Reg.prtStatusState 2, 1), (Reg.prtCfgExist 2, 1), (Reg.prtVfsMap 2, 5), (Pci.bme 1, 1), (Reg.hbmStackInfoState 0, 5), (Reg.hbmStackInfoDensity 0, 2)] ++ extra) (fun h =>
    h.setQp f k ⟨tail, c, cqHead, if held then [⟨0, 3, k, 0, 4, false⟩] else [], if busy then [⟨f, k, head, BitVec.ofNat 512 0⟩] else []⟩)
def diagCmd (fn a len dir : Nat) : QCmd := ⟨fn, 3, 9, BitVec.ofNat 512 (0x0B + 2 ^ 16 * 7 + 2 ^ 32 * 0xFF + 2 ^ 128 * a + 2 ^ 192 * 0x7000 + 2 ^ 256 * len + 2 ^ 288 * dir)⟩

/-- A command fetched at the last index, an unknown opcode, each reason not to fetch; a completion with 127 and with 128 ahead; tails 64 and 65 ahead. -/
theorem witness_queues :
    (let s := queued 1 3 1 (2 ^ 32 - 1) 3 0 0 false false []
     s.hub.mayFetch 1 3 (0x01 + 2 ^ 16 * 9) = true ∧ bits (0x01 + 2 ^ 16 * 9) 0 8 ∈ opcodes ∧ bits (0x77 + 2 ^ 16 * 9) 0 8 ∉ opcodes ∧ s.hub.mayFetch 1 3 (0x77 + 2 ^ 16 * 9) = true
       ∧ s.hub.freeTag.isSome = true ∧ s.hub.vfMute 1 = false ∧ (s.hub.qp 1 3).held = []
       ∧ ¬ (2 ^ 6 < (63 + 2 ^ 32 - s.hub.get (Reg.qStatusSqHead 1 3)) % 2 ^ 32 ∨ 2 ^ 31 ≤ (63 + 2 ^ 32 - (s.hub.qp 1 3).tail) % 2 ^ 32)
       ∧ 2 ^ 6 < (64 + 2 ^ 32 - s.hub.get (Reg.qStatusSqHead 1 3)) % 2 ^ 32)
      ∧ (queued 1 3 0 5 6 0 0 false false []).hub.get (Reg.qStatusState 1 3) ≠ 1 ∧ (queued 1 3 1 5 5 0 0 false false []).hub.get (Reg.qStatusSqHead 1 3) = ((queued 1 3 1 5 5 0 0 false false []).hub.qp 1 3).tail
      ∧ ((queued 1 3 1 5 6 0 0 true false []).hub.qp 1 3).held ≠ [] ∧ (queued 1 3 1 5 6 0 0 false false [(Pci.bme 1, 0)]).hub.quiet 1 = true
      ∧ (queued 1 3 1 5 6 0 0 false false [(Pci.flr 1, 1)]).hub.vfMute 1 = true
      ∧ (∀ c ∈ [127, 128], let s := queued 1 3 1 5 6 c 0 false true []
          s.hub.get (Reg.qStatusState 1 3) = 1 ∧ (s.hub.qp 1 3).held = [] ∧ s.hub.quiet 1 = false ∧ (2 ^ s.hub.get (Reg.qCtrlCqLog2 1 3) ≤ ((s.hub.qp 1 3).c + 2 ^ 32 - (s.hub.qp 1 3).cqHead) % 2 ^ 32 ↔ c = 128))
      ∧ (∀ st ∈ [0, 1, 2, 3], (queued 1 3 st 5 6 0 0 false true []).hub.get (Reg.qStatusState 1 3) = st) ∧ (1 : Nat) % 2 = 1 := by
  decide +kernel

/-- DIAG_ACCESS of 64 bytes each way, from a VF, and with an address that is no multiple of 32 and a length past 1 MiB. -/
theorem witness_diag_access :
    (let s := queued 0 3 1 5 6 0 0 false false [(Reg.cfgModeLifecycle, 1)]
     (∀ dir ∈ [0, 1], s.hub.diagCheck (diagCmd 0 64 64 dir) = 0 ∧ qf (diagCmd 0 64 64 dir) 0x24 1 = dir) ∧ s.hub.quiet 0 = false
       ∧ (∀ c ∈ [diagCmd 0 65 64 0, diagCmd 0 64 65 0, diagCmd 0 64 (2 ^ 20 + 32) 0], s.hub.cmdCheck c false = 0 ∧ s.hub.diagCheck c ≠ 0))
      ∧ (diagCmd 1 64 64 0).fn ≠ 0 := by
  decide +kernel

/-- A window onto `hpa`, two requests of VF 1 with the host, one of them from before its reset, and the function resets of VF 1. -/
def hosted (w hpa : Nat) (extra : List (Fld × Nat)) (tags : List TagEntry) : State :=
  up ([(Reg.hstAttV w, 1), (Reg.hstAttWe w, 1), (Reg.hstAttHpa w, hpa), (Reg.hstAttKeyPartition w, 2), (Reg.prtStatusState 2, 1), (Reg.prtCfgExist 2, 1), (Reg.prtHalvesMap 2, 3),
      (Reg.prtVfsMap 2, 5), (Pci.bme 1, 1), (Reg.hbmStackInfoState 0, 1), (Reg.hbmStackInfoDensity 0, 2), (Reg.msixMask 1 5, 1), (Reg.msixMask 1 255, 1), (Pci.msixEn 1, 1), (Pci.msixEn 0, 1),
      (Reg.qStatusState 1 3, 1), (Reg.drfStreamStatusState 3, 1), (Reg.drfStreamStatusPartition 3, 2), (Reg.qosPortRegEn hostPort, 0)] ++ extra) (fun h =>
    { (h.setStream 3 ⟨1, 0x300000100000 + 2 ^ 64 * 6, 9, 0, 0, [⟨7, 1, none, none, false, [], true, false, false, [], false⟩], [], false, none⟩) with tags := tags, epochs := [(1, 4)] })

/-- Windows onto floe memory, a counter and stack memory; one not valid, one read only; Memory Space Enable clear. -/
theorem witness_windows_of_bar2 :
    (let s := hosted 3 (F0 / 2 ^ 26) [] []
     let o := 3 * 2 ^ 26 + 64
     s.hub.get (Pci.mse 0) = 1 ∧ s.hub.bar2Cause o false = 0 ∧ s.hub.bar2Cause o true = 0 ∧ s.hub.get (Reg.qosPortRegEn hostPort) = 0 ∧ (s.hub.qosPort hostPort).held = []
       ∧ Claims.InFloe s.hub (s.hub.get (Reg.hstAttHpa 3) * 2 ^ 26 + o % 2 ^ 26) 32 ∧ (s.hub.get (Reg.hstAttHpa 3) * 2 ^ 26 + o % 2 ^ 26) % 32 = 0)
      ∧ (let s := hosted 1023 ((F0 + 0xC800000) / 2 ^ 26) [] []
         let o := 1023 * 2 ^ 26 + (F0 + 0xC800000 + 20) % 2 ^ 26
         s.hub.bar2Cause o true = 0 ∧ s.hub.region (s.hub.get (Reg.hstAttHpa 1023) * 2 ^ 26 + o % 2 ^ 26) = .event 0 5)
      ∧ (let s := hosted 0 0 [] []; s.hub.bar2Cause 64 false = 0 ∧ s.hub.region (s.hub.get (Reg.hstAttHpa 0) * 2 ^ 26 + 64) = .stack)
      ∧ (let s := hosted 0 0 [(Reg.hstAttV 0, 0)] []; s.hub.get (Reg.hstAttV 0) = 0 ∧ s.hub.bar2Cause 64 false ≠ 0 ∧ s.hub.bar2Cause 64 true ≠ 0 ∧ s.hub.get Reg.hstAttErrCause = 0)
      ∧ (let s := hosted 0 0 [(Reg.hstAttWe 0, 0), (Reg.hstAttErrCause, 2)] []; s.hub.bar2Cause 64 false = 0 ∧ s.hub.bar2Cause 64 true ≠ 0 ∧ s.hub.get Reg.hstAttErrCause ≠ 0)
      ∧ (hosted 0 0 [(Pci.mse 0, 0)] []).hub.get (Pci.mse 0) = 0 := by
  unfold Claims.InFloe; decide +kernel

/-- A tag of now, one of before the reset, none; MSI-X entries masked, past the table and of a reset VF; the resets of functions, cleared and not; VF enable. -/
theorem witness_completions_and_resets :
    (let old : TagEntry := ⟨16383, 1, 3, .stream 3 7, 0x1000⟩
     let now : TagEntry := ⟨0, 1, 4, .stream 3 7, 0x1000⟩
     let s := hosted 0 0 [] [old, now]
     s.hub.tags.find? (fun t => decide (t.tag = 16383)) = some old ∧ s.hub.tags.find? (fun t => decide (t.tag = 0)) = some now ∧ s.hub.tags.find? (fun t => decide (t.tag = 5)) = none
       ∧ old.epoch ≠ tget 0 s.hub.epochs old.fn ∧ now.epoch = tget 0 s.hub.epochs now.fn ∧ s.hub.desc 3 7 = some ⟨7, 1, none, none, false, [], true, false, false, [], false⟩)
      ∧ (let h := (hosted 0 0 [] []).hub
         h.pba = [] ∧ (∀ q < 64, (h.qp 1 q).held = []) ∧ h.vfMute 1 = false ∧ (∀ e ∈ [5, 255], e < msixSize 1 ∧ h.get (Reg.msixMask 1 e) = 1) ∧ msixSize 1 ≤ 256
           ∧ h.get (Reg.secTdispState 1) = 0 ∧ h.quiet 1 = false ∧ h.get (Pci.msixFmask 1) = 0 ∧ h.get (Pci.msixEn 1) = 1 ∧ h.partState (h.vfOwner 1) ≠ 4 ∧ kmem [4096 + 5] (1 * 4096 + 5) = true)
      ∧ (let h := (hosted 0 0 [(Pci.vfEnable, 1), (Pci.numVfs, 3)] []).hub; h.vfOn 1 = true ∧ h.get (Pci.flr 1) = 0 ∧ h.get Pci.vfEnable = 1 ∧ h.vfOwner 1 < 24)
      ∧ (let h := (hosted 0 0 [(Pci.flr 1, 1), (Pci.flr 0, 1)] []).hub; h.get (Pci.flr 1) = 1 ∧ h.get (Pci.flr 0) = 1 ∧ (∀ v < 49, h.fnClear v = true) ∧ h.get Pci.vfEnable = 0)
      ∧ (hosted 0 0 [] []).hub.totalVfs = 48 ∧ (hosted 0 0 [(Reg.cfgModeWhiteout, 1)] []).hub.totalVfs = 0
      ∧ (let h : Hub := { (hosted 0 0 [(Pci.flr 1, 1), (Reg.siteStatusState 2, 2), (Reg.siteEngStatusState 17, 3)] []).hub with parts := [(33, ⟨false, [17]⟩)] }
         h.get (Pci.flr 1) = 1 ∧ h.fnClear 1 = false) := by
  decide +kernel

/-! ### The Almanac, update, CAN -/

/-- The block at boot step `step` with the Almanac's NMT state, locks, entries and mailbox request; a directory in flash, two records in the log. -/
def almanac (step nmt : Nat) (locks : List (Nat × Nat)) (od : List (Nat × Nat)) (mbx : List (BitVec 8)) (extra : List (Fld × Nat)) : State :=
  (up ((Reg.isoBudgetSource, 1) :: extra) (fun h => (h.writeDir ⟨1, 9, 1, 1, 2, 3, 0x10000, 0x20000, 0x10000, 0x3000, 0x4000, 0, 0x40000, 0x10000⟩).2)).onHub (fun h => { h with
    boot := { h.boot with step := step, nodeId := 5, perst := false, crs := false }, perma := { h.perma with unit := 77 }
    alm := { h.alm with nmt := nmt, locks := locks, od := od, slotOff := 100, mbxReq := (mbx.zipIdx).foldl (fun t x => tset 0 t x.2 x.1) [] }
    cursors := [(3, 4), (5, 10)], mor := [(4, ⟨4, 0x801, 0, 0, 0, 0, 0, 0, 0, 0, 0, 0⟩), (5, ⟨9, 0x802, 0, 0, 0, 0, 0, 0, 0, 0, 0, 0⟩)] })
def sixteen : List (Nat × Nat) := (List.range 16).map (fun i => (0x2300 + i, 3))

/-- Served, silent and stopped interfaces; entries of every kind, and what Table 7 refuses of each. -/
theorem witness_almanac_requests :
    (∀ c ∈ [2, 3, 4], (almanac 10 0 [] [] [] []).hub.odServed c = true) ∧ (almanac 10 1 [] [] [] []).hub.odServed 5 = true ∧ (almanac 5 0 [] [] [] []).hub.odServed 3 = false
      ∧ (almanac 5 0 [] [] [] []).hub.odLevel 3 = .silent ∧ (almanac 10 3 [] [] [] []).hub.odServed 5 = false
      ∧ odLook 0x6000 0 = .noIndex ∧ odLook 0x1018 9 = .noSub ∧ odLook 0x2101 1 = .found ⟨some 2, .wo⟩ ∧ odLook 0x1018 1 = .found ⟨some 4, .ro⟩ ∧ odLook 0x1017 0 = .found ⟨some 2, .rw⟩
      ∧ (let h := (almanac 11 0 [] [] [] [(Reg.glbBootStatusRecovery, 1)]).hub; h.odServed 2 = true ∧ (h.odLevel 2).reads 0x1018 = false)
      ∧ ((almanac 10 0 [] [] [] []).hub.odLevel 3).reads 0x1018 = true
      ∧ (∀ via ∈ [0, 3], let s := almanac 10 0 (if via = 0 then [] else [(0x1017, 2)]) [] [] []
          s.odCheck 3 0x1017 0 (leNat [0x10, 0x27]) = .ok ∧ (s.hub.lockOf 0x1017 = if via = 0 then 0 else 2) ∧ (s.hub.odLevel 3).writes 0x1017 = true)
      ∧ (let s := almanac 8 0 [] [] [] []
         s.hub.odServed 3 = true ∧ odLook 0x2101 3 = .found ⟨some 2, .rw⟩ ∧ s.odCheck 3 0x2101 3 (leNat [1, 0]) = .ok ∧ s.hub.lockOf 0x2101 = 0 ∧ (s.hub.odLevel 3).writes 0x2101 = false)
      ∧ (∀ ix ∈ [0x1005, 0x1014, 0x1015, 0x1017], ∃ n ∈ [2, 4], odLook ix 0 = .found ⟨some n, .rw⟩) ∧ leNat [(3 : BitVec 8), 0] ≠ 500 ∧ leNat [(3 : BitVec 8), 0] ≠ 1000 := by
  decide +kernel

/-- Locks: free, its own, another's, one in a mapped RPDO, the sixteenth and a seventeenth; the unlock of each; all of one interface. -/
theorem witness_almanac_locks :
    (∀ locks ∈ [[], [(0x2400, 3)], [(0x2400, 2)], sixteen.drop 1, sixteen], let h := (almanac 10 0 locks [] [] []).hub
        h.odServed 3 = true ∧ (h.odLevel 3).writes 0x2101 = true ∧ h.lockOf 0x2101 = 0 ∧ odLook 0x2400 0 ≠ .noIndex ∧ h.inRpdo 0x2400 = false
          ∧ (h.lockOf 0x2400 = if locks = [(0x2400, 3)] then 3 else if locks = [(0x2400, 2)] then 2 else 0) ∧ (h.alm.locks.length < 16 ↔ locks ≠ sixteen))
      ∧ (almanac 10 0 [] [(0x1400 * 256 + 1, 0x201), (0x1600 * 256, 1), (0x1600 * 256 + 1, 0x22100110)] [] []).hub.inRpdo 0x2210 = true ∧ odLook 0x2210 0 ≠ .noIndex
      ∧ (almanac 10 0 [] [] [] []).hub.odServed 2 = true ∧ (∀ i ∈ [(2 : BitVec 4), 3, 4, 5], Iface.code ⟨i⟩ = i) := by
  decide +kernel

/-- USDO transfers and timeouts: served and not, a value read, a read-only one written, an index that is there. -/
theorem witness_usdo :
    (almanac 10 1 [] [] [] []).hub.odServed 5 = true ∧ (almanac 10 3 [] [] [] []).hub.odServed 5 = false ∧ ((almanac 10 1 [] [] [] []).hub.odLevel 5).reads 0x1017 = true
      ∧ odLook 0x1017 0 = .found ⟨some 2, .rw⟩ ∧ odLook 0x1018 1 = .found ⟨some 4, .ro⟩ ∧ odLook 0x1018 1 ≠ .noIndex := by
  decide +kernel

/-- The spare slot written up to its last byte and one past it; its object locked, free and no more locks; the slot's images absent; TRIAL, recovery and a busy core. -/
theorem witness_update :
    (∀ c ∈ [2, 3], let h := (almanac 10 0 [(0x2010, 3)] [] [] []).hub
        h.odServed c = true ∧ (h.odLevel c).writes 0x2010 = true ∧ h.lockOf 0x2010 = 3)
      ∧ (let h := (almanac 10 0 sixteen [] [] []).hub; h.lockOf 0x2010 = 0 ∧ ¬ h.alm.locks.length < 16)
      ∧ (let h := (almanac 10 0 [] [] [] []).hub
         h.lockOf 0x2010 = 0 ∧ h.alm.locks.length < 16 ∧ (∃ d, h.dir = some d ∧ h.alm.slotOff + 4080 ≤ d.slotLen ∧ 0x10000 - 10 + 10 ≤ d.slotLen ∧ ¬ 0x10000 - 10 + 11 ≤ d.slotLen
           ∧ h.slotImages d (h.spareSlot d) = none) ∧ h.activateOk = false)
      ∧ (let h := (almanac 10 0 [] [] [] [(Reg.glbBootStatusTrial, 1), (Reg.glbBootStatusSlot, 1)]).hub
         h.get Reg.glbBootStatusRecovery ≠ 1 ∧ h.get Reg.glbBootStatusTrial = 1 ∧ h.dir.isSome = true ∧ h.boot.activating = false ∧ h.sec.installs = [] ∧ h.boot.lc = none)
      ∧ (almanac 11 0 [] [] [] [(Reg.glbBootStatusRecovery, 1)]).hub.get Reg.glbBootStatusRecovery = 1 ∧ (almanac 10 0 [] [] [] []).hub.get Reg.glbBootStatusTrial ≠ 1
      ∧ ((almanac 10 0 [] [] [] []).onHub (fun h => { h with boot := { h.boot with activating := true } })).hub.boot.activating = true := by
  refine ⟨by decide +kernel, by decide +kernel, ⟨by decide +kernel, by decide +kernel, ⟨⟨0, 10, 1, 1, 2, 3, 0x10000, 0x20000, 0x10000, 0x3000, 0x4000, 0, 0x40000, 0x10000⟩, by decide +kernel⟩,
    by decide +kernel⟩, by decide +kernel⟩

/-- A slot stages wherever its images verify: with SLOT_DATA's lock held, whatever the directory `d` and the images are. -/
theorem witness_stage (d : Dir) (imgs : Tab Nat) (hd : (almanac 10 0 [] [] [] []).hub.dir = some d)
    (hi : (almanac 10 0 [] [] [] []).hub.slotImages d ((almanac 10 0 [] [] [] []).hub.spareSlot d) = some imgs) :
    ∃ s : State, s.hub.odServed 3 = true ∧ (s.hub.odLevel 3).writes 0x2010 = true ∧ s.hub.lockOf 0x2010 = 0 ∧ s.hub.dir = some d ∧ s.hub.slotImages d (s.hub.spareSlot d) = some imgs :=
  ⟨_, by decide +kernel, by decide +kernel, by decide +kernel, hd, hi⟩

/-- A cursor with a record at it, and one past the last; the mailbox not served. -/
theorem witness_log :
    (let h := (almanac 10 1 [] [] [] []).hub
     h.odServed 3 = true ∧ (h.odLevel 3).reads 0x2A01 = true ∧ h.morFrom (tget 1 h.cursors 3) = some ⟨4, 0x801, 0, 0, 0, 0, 0, 0, 0, 0, 0, 0⟩ ∧ h.odServed 5 = true
       ∧ (h.odLevel 5).reads 0x2A01 = true ∧ h.morFrom (tget 1 h.cursors 5) = none)
      ∧ (almanac 5 0 [] [] [] []).hub.odServed 2 = false := by
  decide +kernel

/-- A mailbox message: OP, FLAGS, tag 0x55AA, index, sub, byte 7, length, abort, data. -/
def mail (op fl ix sub b7 len z : Nat) (d : List (BitVec 8)) : List (BitVec 8) :=
  leBytes 1 op ++ leBytes 1 fl ++ leBytes 2 0x55AA ++ leBytes 2 ix ++ leBytes 1 sub ++ leBytes 1 b7 ++ leBytes 4 len ++ leBytes 4 z ++ d

/-- Messages with each field out of range, and the four that the mailbox's clauses speak of. -/
theorem witness_mailbox :
    (let req (m : List (BitVec 8)) := (almanac 10 0 [] [] m []).hub.alm
     let byte (m : List (BitVec 8)) (k : Nat) : Nat := (tget 0 (req m).mbxReq k).toNat
     let word (m : List (BitVec 8)) (k n : Nat) : Nat := leNat ((req m).req k n)
     let plain (m : List (BitVec 8)) : Prop := word m 1 1 ≤ 1 ∧ byte m 7 = 0 ∧ word m 0xC 4 = 0 ∧ word m 8 4 ≤ 4080
     (∀ m ∈ [mail 0 0 0x1018 1 0 0 0 [], mail 5 0 0x1018 1 0 0 0 [], mail 1 2 0x1018 1 0 0 0 [], mail 1 0 0x1018 1 1 0 0 [], mail 1 0 0x1018 1 0 0 1 []],
         byte m 0 = 0 ∨ 4 < byte m 0 ∨ 1 < byte m 1 ∨ byte m 7 ≠ 0 ∨ word m 0xC 4 ≠ 0)
       ∧ (let m := mail 1 1 0x6000 1 0 4080 0 []; plain m ∧ byte m 0 = 1 ∧ odLook (word m 4 2) (byte m 6) = .noIndex)
       ∧ (let m := mail 2 0 0x1018 1 0 4 0 [1, 2, 3, 4]; plain m ∧ byte m 0 = 2 ∧ odLook (word m 4 2) (byte m 6) = .found ⟨some (word m 8 4), .ro⟩)
       ∧ (let m := mail 1 0 0x1018 1 0 0 0 []; plain m ∧ byte m 0 = 1 ∧ word m 4 2 = 0x1018 ∧ byte m 6 = 1)
       ∧ (let m := mail 3 0 0x2400 0 0 0 0 []; plain m ∧ byte m 0 = 3 ∧ word m 4 2 = 0x2400)
       ∧ (let h := (almanac 10 0 [] [] [] []).hub
          h.odServed 2 = true ∧ (h.odLevel 2).reads 0x1018 = true ∧ h.lockOf 0x2400 = 0 ∧ h.inRpdo 0x2400 = false ∧ h.alm.locks.length < 16 ∧ (h.odLevel 2).writes 0x2101 = true
            ∧ h.lockOf 0x2101 = 0 ∧ h.get Reg.mbxStatusIrqEn = 0 ∧ h.pdoRun = false)) := by
  decide +kernel

/-- A transition request from `f` to `g` for unit `u`. -/
def transition (u f g : Nat) : List (BitVec 8) :=
  leBytes 4 0x434C4845 ++ leBytes 2 1 ++ leBytes 1 f ++ leBytes 1 g ++ leBytes 8 u ++ leBytes 48 0 ++ leBytes 1 0x80 ++ leBytes 15 0 ++ leBytes 96 5 ++ leBytes 16 0

/-- A request in form, one from another state, one to a state that no row has, one while a partition exists; 192 bytes and not. Where its signature verifies, it is accepted. -/
theorem witness_transition_requests (signed : Config.sigOk 0 ((transition 77 2 3).take 64) (bunB (transition 77 2 3) 0x50 96) = true) :
    (let h := (almanac 10 0 [] [] [] []).hub
     h.odServed 3 = true ∧ (h.odLevel 3).writes 0x2910 = true ∧ h.lockOf 0x2910 = 0 ∧ (transition 77 2 3).length = 192 ∧ (List.range 24).any h.partExists = false ∧ h.cfg.staged = []
       ∧ h.whiteout = false ∧ h.life = 2 ∧ h.boot.activating = false ∧ h.sec.installs = [] ∧ h.boot.lc = none ∧ h.perma.unit = 77 ∧ h.lifeReady 2 = true
       ∧ (∀ p ∈ [(2, 3), (1, 2)], let d := transition 77 p.1 p.2
           bunF d 0 4 = 0x434C4845 ∧ bunF d 4 2 = 1 ∧ bunF d 0x10 48 = 0 ∧ bunF d 8 8 = 77 ∧ bunF d 0x41 15 = 0 ∧ bunF d 0xB0 16 = 0 ∧ lifeRow (bunF d 6 1) (bunF d 7 1) = true)
       ∧ lifeRow 2 0 = false ∧ bunF (transition 77 2 3) 6 1 = 2 ∧ bunF (transition 77 1 2) 6 1 ≠ 2)
      ∧ (List.range 24).any (almanac 10 0 [] [] [] [(Reg.prtCfgExist 3, 1)]).hub.partExists = true
      ∧ (almanac 10 0 [] [] [] []).hub.lifeSigned 2 3 (transition 77 2 3) = true := by
  refine ⟨by decide +kernel, by decide +kernel, ?_⟩
  have hk : (almanac 10 0 [] [] [] []).hub.lifeKey 2 3 (bunF (transition 77 2 3) 0x40 1) = some 0 := by decide +kernel
  rw [Hub.lifeSigned, hk]
  exact signed

/-- CAN: a node Operational with RPDO 0 mapped to 0x2210:1 and TPDO 0 on. -/
def can (step nmt : Nat) (locks od : List (Nat × Nat)) (f : Alm → Alm) : State := (almanac step nmt locks od [] []).onHub (fun h => { h with alm := f h.alm, mor := [] })
def pdos (rtype ttype timer : Nat) : List (Nat × Nat) :=
  [(0x1017 * 256, 5), (0x1400 * 256 + 1, 0x201), (0x1400 * 256 + 2, rtype), (0x1600 * 256 + 1, 0x22100110), (0x1600 * 256 + 2, 0), (0x1800 * 256 + 1, 0x181), (0x1800 * 256 + 2, ttype),
    (0x1800 * 256 + 5, timer), (0x1A00 * 256, 1), (0x1A00 * 256 + 1, 0x22130110)]

/-- An RPDO that takes effect at once, at the next SYNC, of another length, while its index is locked; a node that is deaf, and one not Operational. -/
theorem witness_rpdo :
    (∀ t ∈ [0xFE, 1], let h := (can 10 2 [] (pdos t 0xFE 0) (fun a => a)).hub
        h.canUp = true ∧ h.boot.stopped = false ∧ h.boot.halt = false ∧ (h.od 0x1400 1).testBit 31 = false ∧ h.pdoRun = true ∧ h.mapped 0x1600 = [(0x221001, 16)]
          ∧ h.lockOf 0x2210 = 0 ∧ (h.odLevel 5).writes 0x2210 = true ∧ h.od 0x1400 2 = t)
      ∧ (can 10 2 [(0x2210, 2)] (pdos 0xFE 0xFE 0) (fun a => a)).hub.lockOf 0x2210 = 2 ∧ (can 10 0 [] [] (fun a => a)).hub.canUp = false
      ∧ (let h := (can 10 1 [] [] (fun a => a)).hub; h.pdoRun = false ∧ h.canUp = true ∧ (h.od 0x1400 1).testBit 31 = false)
      ∧ (can 10 2 [] [] (fun a => { a with rpdoWait := [(0, [7, 0])] })).hub.alm.rpdoWait = [(0, [7, 0])] := by
  decide +kernel

/-- A TPDO whose count a SYNC completes and one whose count it does not; timers; emergencies that wait; heartbeats; NMT commands to a node that hears them and to one that does not. -/
theorem witness_can :
    (∀ p ∈ [(0, 0xF0), (239, 0xF0), (0, 1)], let h := (can 10 2 [] (pdos 0xFE p.2 0) (fun a => { a with syncs := if p.1 = 0 then [] else [(0, p.1)] })).hub
        h.pdoRun = true ∧ h.alm.rpdoWait = [] ∧ h.tpdoOn 0 = true ∧ h.od 0x1800 2 = p.2 ∧ (p.2 ≤ tget 0 h.alm.syncs 0 + 1 ↔ p ≠ (0, 0xF0)))
      ∧ (let h := (can 10 2 [] (pdos 0xFE 0xFE 9) (fun a => { a with pdoHeld := [0], emcyQ := [(3, 4)] })).hub
         h.tpdoOn 0 = true ∧ h.boot.stopped = false ∧ h.od 0x1800 2 = 0xFE ∧ h.od 0x1800 5 ≠ 0 ∧ 0 ∈ h.alm.pdoHeld ∧ h.alm.emcyQ = [(3, 4)] ∧ h.canUp = true ∧ h.alm.nmt ≠ 3 ∧ h.mor = [])
      ∧ (let h := (can 10 1 [] (pdos 0xFE 0xFE 0) (fun a => a)).hub
         h.tpdoOn 0 = false ∧ h.alm.emcyQ = [] ∧ 0 ∉ h.alm.pdoHeld ∧ h.od 0x1017 0 ≠ 0 ∧ h.boot.halt = false ∧ h.alm.nmt ≠ 2 ∧ (h.od 0x1800 1).testBit 31 = false ∧ h.tpdoVals 0 ≠ []
           ∧ h.od 0x1800 2 = 0xFE ∧ 0 ∉ h.alm.pdoInhibit ∧ h.canUp = true)
      ∧ (can 10 2 [] [(0x1017 * 256, 0)] (fun a => a)).hub.od 0x1017 0 = 0 ∧ (can 10 0 [] [] (fun a => a)).hub.canUp = false := by
  decide +kernel

/-! ### Links and windows -/

def pathOf (isOpen : Bool) (num rx : Nat) (out queued : List OutReq) (unacked : List Nat) (atomics : List (Nat × List (BitVec 8))) (tries : Nat) : LPath :=
  { LPath.fresh 5 num 77 false (some 9) 1000 with isOpen := isOpen, rxPsn := rx, peerNum := 44, out := out, queued := queued, unacked := unacked, atomics := atomics, openTries := tries }
def sent (type psn resends : Nat) (held : Bool) : OutReq := ⟨type, 3, 1, 0, 7, 64, 32, [1, 2, 3], true, .row 3 7, 0x5555, none, psn, resends, held⟩
/-- Link 5 UP in partition 2 with the given paths; window 12 of partition 2 open at floe 0 under GEN 3 and WKEY 99; descriptor 7 of stream 3. -/
def linked (paths : List LPath) (extra : List (Fld × Nat)) (f : Links → Links) : State :=
  up ([(Reg.lnkStatusState 5, 2), (Reg.prtStatusState 2, 2), (Reg.prtCfgExist 2, 1), (Reg.prtHalvesMap 2, 3), (Reg.prtFloesMap 2 0, 1), (Reg.prtLinksLoMap 2, 0xF0), (Reg.drfStreamStatusState 3, 1),
      (Reg.drfStreamStatusPartition 3, 2), (Reg.winWttState 0 12, 1), (Reg.winWttPartition 0 12, 2), (Reg.winWttGen 0 12, 3), (Reg.winWttWkey 0 12, 99), (Reg.winWttRights 0 12, 7),
      (Reg.winWttSizeLog2 0 12, 16), (Reg.winWttBase 0 12, 0x300000000000), (Reg.winWttDrain 0 12, 2), (Reg.lnkPeerV 9, 1), (Reg.lnkPeerIp 9, 77)] ++ extra) (fun h =>
    { (h.setStream 3 ⟨1, 0x300000100000 + 2 ^ 64 * 6, 9, 0, 0, [⟨7, 1, none, none, false, [], true, false, false, [], false⟩], [], false, none⟩) with links := f { h.links with paths := paths } })
def pkt (check : Nat) (ce : Bool) (flags src dst psn : Nat) (data : List (BitVec 8)) : LinkPkt :=
  ⟨5, 77, false, BitVec.ofNat 2 check, ce, BitVec.ofNat 8 flags, BitVec.ofNat 16 src, BitVec.ofNat 16 dst, BitVec.ofNat 24 psn, data⟩
def ext12 (gen wkey off rlen detail : Nat) : ReqExt := ⟨12, BitVec.ofNat 8 gen, BitVec.ofNat 8 detail, BitVec.ofNat 32 wkey, BitVec.ofNat 36 off, BitVec.ofNat 32 rlen⟩

/-- Frames that a link drops, each for its reason, and one whose path it knows. -/
theorem witness_frames :
    (let q := pathOf true 3 500 [] [] [] [] 0
     let s := linked [q] [] (fun l => l)
     s.hub.get (Reg.lnkStatusState 5) = 2 ∧ s.hub.linkOwner 5 = 2 ∧ s.hub.partState 2 = 2 ∧ (∀ c ∈ [0, 1, 2], (pkt c false 0 44 3 500 []).check.toNat = c) ∧ tget 0 s.hub.links.macRec 5 = 0
       ∧ s.hub.rxPath (pkt 0 false 0 44 4 500 []) = none ∧ s.hub.rxPath (pkt 0 false 0 44 3 500 []) = some q ∧ kmem s.hub.links.xoff 5 = false ∧ s.hub.rxUse 5 ≤ 786432
       ∧ (pkt 0 true 0 44 3 500 []).ce = true ∧ tget 0 s.hub.links.cnpAt (65536 * 5 + 3) = 0)
      ∧ (linked [] [(Reg.lnkStatusState 5, 1)] (fun l => l)).hub.get (Reg.lnkStatusState 5) ≠ 2 ∧ (linked [] [(Reg.prtLinksLoMap 2, 0)] (fun l => l)).hub.linkOwner 5 = 31
      ∧ (linked [] [(Reg.prtStatusState 2, 4)] (fun l => l)).hub.partState 2 = 4 := by
  decide +kernel

/-- Each check of a window, passed by what comes before it, with its status, on WRITE, READ and ATOMIC; at the last byte inside and one past it. -/
theorem witness_window_checks :
    (∀ ty ∈ [1, 2, 4], ∀ p ∈ [([(Reg.winWttPartition 0 12, 4)], 3, 99, 64, 0x41), ([], 4, 99, 64, 0x0C), ([(Reg.winWttState 0 12, 2)], 3, 99, 64, 0x0B), ([], 3, 98, 64, 0x41),
          ([(Reg.winWttRights 0 12, 0)], 3, 99, 64, 0x41), ([], 3, 99, 65536 - 31, 0x42), ([(Reg.prtStatusState 2, 5)], 3, 99, 64, 0x0A), ([], 3, 99, 65536 - 32, 0)],
        let x := ext12 p.2.1 p.2.2.1 (if ty = 4 ∧ p.2.2.2.1 = 65536 - 31 then 65536 - 7 else p.2.2.2.1) 32 16
        (linked [] p.1 (fun l => l)).hub.winCheck ty (pkt 0 false 0 44 3 500 (List.replicate 32 7)) x = p.2.2.2.2)
      ∧ (∀ x ∈ [ext12 3 99 64 32 16, ext12 3 99 (65536 - 32) 32 0x12], let h := (linked [] [] (fun l => l)).hub
          h.get (Reg.winWttWkey 0 12) = x.wkey.toNat ∧ (h.get (Reg.winWttRights 0 12)).testBit 1 = true ∧ (h.get (Reg.winWttRights 0 12)).testBit 0 = true ∧ h.get (Reg.winWttRights 0 12) % 8 = 7
            ∧ x.offset.toNat + 32 ≤ 2 ^ h.get (Reg.winWttSizeLog2 0 12) ∧ x.detail.toNat % 16 ≤ 9) := by
  decide +kernel

/-- Packets in turn that run: a WRITE with and without an acknowledgement asked, a READ, an ATOMIC; a duplicate of each; one early by 1, by 128 and by 129. -/
theorem witness_packets :
    (let p (psn flags : Nat) : LinkPkt := pkt 0 false flags 44 3 psn (List.replicate 32 7)
     (∀ un ∈ [[], [3], List.replicate 14 4], let q := pathOf true 3 (2 ^ 24 - 1) [] [] un [] 0
        let s := linked [q] [] (fun l => l)
        s.hub.rxPath (p (2 ^ 24 - 1) 0) = some q ∧ (p (2 ^ 24 - 1) 0).ce = false ∧ q.reorder = [] ∧ (p (2 ^ 24 - 1) 0).psn.toNat = q.rxPsn ∧ s.hub.links.held = [] ∧ s.hub.pathsOf 5 = [q]
          ∧ kmem s.hub.links.xoff 5 = false ∧ s.hub.maySend 5 = true ∧ kmem s.hub.links.paused (8 * 5 + s.hub.get Reg.lnkCfgDataPcp) = false
          ∧ kmem s.hub.links.paused (8 * 5 + s.hub.get Reg.lnkCfgCtrlPcp) = false ∧ s.hub.txSak 5 = none ∧ q.unacked.length < 15
          ∧ s.hub.get (Reg.qosPortRegEn (quadPort 1)) = 0 ∧ (s.hub.qosPort (quadPort 1)).held = [] ∧ s.hub.get (Reg.winWttDrain 0 12) + 1 < 2 ^ (Reg.winWttDrain 0 12).len
          ∧ (∀ d ∈ [(32, 0), (8, 16), (4, 0)], Claims.InFloe s.hub (s.hub.get (Reg.winWttBase 0 12) + (ext12 3 99 64 32 d.2).offset.toNat) d.1 ∧ (s.hub.get (Reg.winWttBase 0 12) + 64) % d.1 = 0
              ∧ s.mem.badBits (s.hub.get (Reg.winWttBase 0 12) + 64) d.1 = 0)
          ∧ (∀ ty ∈ [1, 2, 4], s.hub.winCheck ty (p (2 ^ 24 - 1) 0) (ext12 3 99 64 32 16) = 0))
       ∧ (p 0 1).flags.toNat.testBit 0 = true ∧ (p 0 2).flags.toNat.testBit 0 = false ∧ (p 0 2).flags.toNat.testBit 1 = true
       ∧ (let q := pathOf true 3 0 [] [] [] [(2 ^ 24 - 1, [1, 2, 3, 4])] 0
          (p (2 ^ 24 - 1) 0).psn.toNat = (q.rxPsn + 2 ^ 24 - 1) % 2 ^ 24 ∧ q.atomics.find? (fun y => decide (y.1 = 2 ^ 24 - 1)) = some (2 ^ 24 - 1, [1, 2, 3, 4]))
       ∧ (∀ a ∈ [1, 128], let q := pathOf true 3 500 [] [] [] [] 0
            0 < ((p (500 + a) 0).psn.toNat + 2 ^ 24 - q.rxPsn) % 2 ^ 24 ∧ ((p (500 + a) 0).psn.toNat + 2 ^ 24 - q.rxPsn) % 2 ^ 24 ≤ 128)
       ∧ (∀ a ∈ [129, 2 ^ 23 - 1], 128 < ((p (500 + a) 0).psn.toNat + 2 ^ 24 - 500) % 2 ^ 24 ∧ ((p (500 + a) 0).psn.toNat + 2 ^ 24 - 500) % 2 ^ 24 < 2 ^ 23)) := by
  unfold Claims.InFloe; decide +kernel

/-- A request of a descriptor that waits for its answer: each type, its PSN acknowledged, one before and one after; the NAKs 0x41 and 0x0B. -/
theorem witness_answers :
    (∀ ty ∈ [1, 2, 4], let r := sent ty 500 0 false
        let q := pathOf true 3 9 [r] [] [] [] 0
        let s := linked [q] [] (fun l => l)
        s.hub.rxPath (pkt 0 false 0 44 3 500 []) = some q ∧ q.out = [r] ∧ r.psn = 500 ∧ r.type = ty ∧ (∃ d, s.hub.desc 3 7 = some d ∧ d.ended = none) ∧ r.who = .row 3 7)
      ∧ (500 + 2 ^ 24 - 500) % 2 ^ 24 < 2 ^ 23 ∧ ¬ (499 + 2 ^ 24 - 500) % 2 ^ 24 < 2 ^ 23 ∧ (0x41 : BitVec 8) ≠ 0x0B := by
  refine ⟨fun ty h => ?_, by decide, by decide, by decide⟩
  simp only [List.mem_cons, List.not_mem_nil, or_false] at h
  rcases h with rfl | rfl | rfl <;> exact ⟨by decide +kernel, rfl, rfl, rfl, ⟨_, rfl, rfl⟩, rfl⟩

/-- PATH_OPEN of a newcomer, of the same peer again and of one restarted; PATH_ACCEPT awaited and repeated; PATH_CLOSE known and unknown. -/
theorem witness_path_handshakes :
    (let calm (s : State) : Prop := ∀ j < 16, (s.hub.site j).open' = [] ∧ (s.hub.site j).evts = []
     let r := sent 1 500 0 false
     let open0 := pathOf true 0 500 [r] [] [] [] 0
     (let s := linked [] [] (fun l => l)
      calm s ∧ s.hub.links.paths.all (fun y => decide (y.link ≠ 5) || decide (y.ip ≠ 77)) = true ∧ s.hub.path 5 0 = none ∧ s.hub.maySend 5 = true ∧ s.hub.txSak 5 = none
        ∧ (∀ e < 8, kmem s.hub.links.paused (8 * 5 + e) = false) ∧ s.hub.rxPath (pkt 0 false 0 44 3 500 []) = none)
       ∧ (let q := pathOf true 3 500 [] [] [] [] 0
          let s := linked [q] [] (fun l => l)
          s.hub.pathsOf 5 = [q] ∧ q.ip = 77 ∧ q.isOpen = true ∧ q.peerNum = (pkt 0 false 0 44 3 500 []).srcPath.toNat ∧ q.out = [] ∧ s.hub.rxPath (pkt 0 false 0 44 3 500 []) = some q)
       ∧ (let s := linked [open0] [] (fun l => l)
          s.hub.pathsOf 5 = [open0] ∧ open0.num = 0 ∧ open0.peerNum ≠ (pkt 0 false 0 45 0 500 []).srcPath.toNat ∧ open0.out = [r] ∧ open0.queued = [] ∧ s.hub.links.waiting = [] ∧ r.type ≠ 0
            ∧ r.who = .row 3 7 ∧ s.hub.desc 3 7 = some ⟨7, 1, none, none, false, [], true, false, false, [], false⟩ ∧ s.hub.rxPath (pkt 0 false 0 44 0 500 []) = some open0 ∧ open0.unacked = [])
       ∧ (let q := pathOf false 3 500 [] [] [] [] 0
          (linked [q] [] (fun l => l)).hub.path 5 (pkt 0 false 0 44 3 500 []).dstPath.toNat = some q ∧ q.isOpen = false)) := by
  decide +kernel

/-- A request that may go and one behind a closed path; an acknowledgement due; timeouts before and at RETRIES, of an open path and an opening one; an unknown path. -/
theorem witness_path_timers :
    (let r := sent 2 0 0 false
     (let q := pathOf true 3 500 [] [r] [] [] 0
      let s := linked [q] [] (fun l => l)
      s.hub.path 5 3 = some q ∧ q.queued = [r] ∧ r.col = none ∧ r.resends = 0 ∧ s.hub.maySendReq q r = true ∧ s.hub.path 5 4 = none)
       ∧ (let q := pathOf false 3 500 [] [r] [] [] 0; (linked [q] [] (fun l => l)).hub.maySendReq q r = false)
       ∧ (let q := pathOf true 3 500 [] [] [12] [] 0
          let s := linked [q] [] (fun l => l)
          s.hub.path 5 3 = some q ∧ q.unacked = [12] ∧ s.hub.links.held = [] ∧ q.reorder = [] ∧ 0 < s.hub.get (Reg.winWttDrain (12 / 4096) (12 % 4096)))
       ∧ (∀ k ∈ [0, 6, 7], let q := pathOf true 3 500 [sent 2 500 k false] [] [] [] 0
            let s := linked [q] [(Reg.lnkCfgRetries, 7)] (fun l => l)
            s.hub.path 5 3 = some q ∧ (sent 2 500 k false).psn = 500 ∧ (k < s.hub.get Reg.lnkCfgRetries ↔ k ≠ 7) ∧ q.queued = [] ∧ q.unacked = [] ∧ s.hub.links.waiting = [])
       ∧ (sent 2 500 0 true).held = true ∧ (sent 2 500 0 false).psn ≠ 499
       ∧ (∀ k ∈ [0, 7], let q := pathOf false 3 500 [] [] [] [] k
            (linked [q] [(Reg.lnkCfgRetries, 7)] (fun l => l)).hub.path 5 3 = some q ∧ (q.openTries < (linked [q] [(Reg.lnkCfgRetries, 7)] (fun l => l)).hub.get Reg.lnkCfgRetries ↔ k = 0))) := by
  decide +kernel

def sakCmd (fn link dir an sub : Nat) : QCmd :=
  ⟨fn, 3, 9, BitVec.ofNat 512 (0x50 + 2 ^ 16 * 7 + 2 ^ 32 * 0xFF + 2 ^ 128 * link + 2 ^ 136 * dir + 2 ^ 144 * an + 2 ^ 152 * sub + 2 ^ 192 * 0x8000 + 2 ^ 256 * 99)⟩

/-- The form of LINK_SAK on one die, as PathsOpenSendResendAndClose writes it. -/
def sakFits (c : QCmd) : Prop :=
  qf c 1 1 < 4 ∧ qz c 5 0x10 = true ∧ qf c 4 1 = 0xFF ∧ qf c 0x10 1 < 48 ∧ qf c 0x11 1 < 2 ∧ qf c 0x12 1 < 4 ∧ qf c 0x13 1 < 2 ∧ qz c 0x14 0x18 = true ∧ qz c 0x28 0x40 = true
    ∧ (qf c 0x13 1 = 1 ∨ qf c 0x20 8 < 2 ^ 32)

/-- PFC of the data class and of the control class with a frame held; a paused link; its states; a quad that is there; peers free and taken. -/
theorem witness_link_events :
    (let s := linked [pathOf true 3 500 [sent 1 500 0 false] [] [] [] 0] [] (fun l => { l with txHeld := [(5, 6, .frame 5 0 7 1 2 3 4)], paused := [8 * 5 + 3, 46] })
     s.hub.links.txHeld = [(5, 6, .frame 5 0 7 1 2 3 4)] ∧ s.hub.get Reg.lnkCfgCtrlPcp = 6 ∧ s.hub.get Reg.lnkCfgDataPcp = 3 ∧ kmem s.hub.links.paused (8 * 5 + s.hub.get Reg.lnkCfgDataPcp) = true
       ∧ s.hub.maySend 5 = true ∧ s.hub.txSak 5 = none ∧ s.hub.pathsOf 5 = [pathOf true 3 500 [sent 1 500 0 false] [] [] [] 0])
      ∧ (∀ st ∈ [0, 1, 2], (linked [] [(Reg.lnkStatusState 5, st)] (fun l => l)).hub.get (Reg.lnkStatusState 5) = st)
      ∧ (let s := linked [] [] (fun l => l)
         s.hub.dies = 1 ∧ s.hub.links.txHeld = [] ∧ kmem s.hub.links.paused (8 * 5 + s.hub.get Reg.lnkCfgDataPcp) = false ∧ s.hub.get (Reg.lnkPeerV 9) = 1 ∧ s.hub.get (Reg.lnkPeerV 8) ≠ 1
           ∧ (0x15 : BitVec 64).toNat.testBit 1 = false ∧ (0x17 : BitVec 64).toNat.testBit 1 = true ∧ (pathOf true 3 500 [] [] [] [] 0).peer = some 9 ∧ s.hub.quiet 0 = false) := by
  decide +kernel

/-- LINK_SAK in form at its highest link and association number, and past each; from a VF; the other direction's key in place. -/
theorem witness_link_sak :
    sakFits (sakCmd 0 47 1 3 1) ∧ ¬ sakFits (sakCmd 0 48 1 3 1) ∧ ¬ sakFits (sakCmd 0 5 2 3 1) ∧ ¬ sakFits (sakCmd 0 5 1 4 1) ∧ (sakCmd 1 5 1 1 0).fn ≠ 0
      ∧ (linked [] [] (fun l => { l with saks := [⟨5, 0, 1, 1, [], 3⟩] })).hub.links.saks.any (fun y => decide (y.link = 5) && decide (y.dir = 1 - 1)) = true := by
  unfold sakFits; decide +kernel

/-- A window whose range its partition owns, in floe memory and in stack memory, in each state, drained and not; one too small, one not aligned, one in a window; a die that is not there. -/
theorem witness_windows :
    (let win (st lg base drain p : Nat) : Hub := (linked [] [(Reg.winWttState 0 13, st), (Reg.winWttPartition 0 13, p), (Reg.winWttGen 0 13, 255), (Reg.winWttSizeLog2 0 13, lg), (Reg.winWttBase 0 13, base),
        (Reg.winWttDrain 0 13, drain)] (fun l => l)).hub
     (∀ st ∈ [0, 1, 2, 3], (win st 16 0x10000 0 2).winOwned 0 13 = true ∧ (win st 16 0x10000 0 2).get (Reg.winWttState 0 13) = st ∧ (win st 16 0x10000 0 2).dies = 1)
       ∧ (win 0 20 0x300000000000 0 2).winOwned 0 13 = true ∧ (win 0 36 0 0 2).winOwned 0 13 = true ∧ (win 0 16 0x10000 0 2).region 0x10000 = .stack
       ∧ (win 0 15 0x10000 0 2).winOwned 0 13 = false ∧ (win 0 37 0 0 2).winOwned 0 13 = false ∧ (win 0 16 0x8000 0 2).winOwned 0 13 = false ∧ (win 0 16 0x10000 0 31).winOwned 0 13 = false
       ∧ (∀ d ∈ [0, 3], (win 2 16 0x10000 d 2).get (Reg.winWttDrain 0 13) = d) ∧ (win 0 16 0x400000000000 0 2).region 0x400000000000 = .window 0 0) := by
  decide +kernel

/-! ### Groups and collective packets -/

def postCmd (part g op len slack cg wf : Nat) : QCmd :=
  ⟨0, 3, 9, BitVec.ofNat 512 (0x52 + 2 ^ 16 * 7 + 2 ^ 32 * part + 2 ^ 128 * g + 2 ^ 136 * op + 2 ^ 168 * wf + 2 ^ 192 * 0x8000 + 2 ^ 256 * 0x9000 + 2 ^ 320 * len + 2 ^ 352 * 5 + 2 ^ 384 * slack + 2 ^ 440 * cg)⟩
def groupCmd (fn part g a : Nat) : QCmd := ⟨fn, 3, 9, BitVec.ofNat 512 (0x50 + 2 ^ 16 * 7 + 2 ^ 32 * part + 2 ^ 128 * g + 2 ^ 192 * a)⟩
/-- A group descriptor of `n` members, this one `rank`, the others behind peer `pe`. -/
def groupBlock (n rank quad pe : Nat) : Nat :=
  leNat (leBytes 4 0x47434845 ++ leBytes 2 n ++ leBytes 2 rank ++ leBytes 8 0x1122334455 ++ leBytes 8 0x200000000000 ++ leBytes 4 0x10000 ++ leBytes 1 quad ++ leBytes 35 0
    ++ (List.range n).flatMap (fun r => if r = rank then leBytes 2 0xFFFF ++ leBytes 6 0 else leBytes 2 pe ++ leBytes 1 (r + 4) ++ leBytes 5 0))
def groupOf (n rank : Nat) (posts : List QCmd) (run : Option ColRun) (credits : Nat) (chunks : List ColChunk) : ColGroup :=
  ⟨2, n, rank, 0x1122334455, 0x200000000000, 0x10000, 1, (List.range n).map (fun r => if r = rank then (0xFFFF, 0) else (9, r + 4)), posts, run, credits, chunks, false, []⟩
def runOf (cmd : QCmd) (seq step : Nat) (sent got : Tab Nat) (used : Nat) (ext : Bool) : ColRun := ⟨cmd, seq, step, sent, got, used, ext, [], false, false⟩
/-- Partition 2 with link 5, slice 0 and floe 0, whose memory holds the group descriptor `x`; the groups of the block. -/
def grouped (paths : List LPath) (extra : List (Fld × Nat)) (groups : List (Nat × ColGroup)) (x : Nat) : State :=
  let s := linked paths ([(Reg.prtSlicesMap 2 0, 1), (Reg.frnSliceStatusMode 0, 1), (Reg.lnkPeerPartition 9, 2), (Reg.colGroupStatusState 4, 2), (Reg.colGroupStatusSlots 4, 8),
    (Reg.colGroupStatusSeq 4, 2 ^ 32 - 1), (Reg.qStatusState 0 3, 1), (Reg.dewPolicyStoreAllow 2, 0xFF)] ++ extra) (fun l => l)
  { s with hub := { s.hub with cols := groups }, mem := s.mem.wr (F0 + 0x80) 128 x }
def path3 : LPath := pathOf true 3 500 [] [] [] [] 0
/-- BARRIER, ALL_GATHER for three members and for two, BROADCAST. -/
def barrier : QCmd := postCmd 2 4 4 0 20 1 0
def gather (len : Nat) : QCmd := postCmd 2 4 2 len 20 1 0
def broadcast : QCmd := postCmd 2 4 3 3072 20 1 0

/-- Groups made from a whole block of two members, from one of none, one whose rank is past its members; a GROUP taken, one past 63; each check that fails; the group of another partition. -/
theorem witness_group_commands :
    (let s (x : Nat) (groups : List (Nat × ColGroup)) : State := grouped [] [] groups x
     let c := groupCmd 0 2 5 (F0 + 0x80)
     (s 0 []).hub.cmdCheck c true = 0 ∧ qz c 0x11 0x18 = true ∧ qz c 0x20 0x40 = true ∧ qf c 0x10 1 = 5 ∧ (s 0 []).hub.group 5 = none ∧ qf c 0x18 8 = F0 + 0x80 ∧ (F0 + 0x80) % 128 = 0
       ∧ (s 0 []).hub.cmdPart c = 2
       ∧ (∀ b ∈ [(2, groupBlock 2 0 1 9, true), (2, groupBlock 2 1 1 9, true), (2, groupBlock 2 2 1 9, false), (2, groupBlock 2 0 1 8, false), (1, groupBlock 1 0 1 9, false)],
            let s := s b.2.1 []
            bits b.2.1 32 16 = b.1 ∧ Claims.InFloe s.hub (F0 + 0x80) (64 + 8 * b.1) ∧ s.mem.rd (F0 + 0x80) (64 + 8 * b.1) = b.2.1 ∧ s.mem.badBits (F0 + 0x80) (64 + 8 * b.1) = 0
              ∧ ((s.hub.groupHead 2 b.2.1 && (List.range b.1).all (fun i => s.hub.groupPeer 2 b.2.1 (bits b.2.1 48 16) i)) = b.2.2))
       ∧ (s 0 []).hub.cmdCheck (groupCmd 0 2 64 0) true = 0 ∧ 64 ≤ qf (groupCmd 0 2 64 0) 0x10 1 ∧ (s 0 [(4, groupOf 2 0 [] none 3 [])]).hub.group 4 ≠ none
       ∧ (s 0 []).hub.cmdCheck (groupCmd 0 77 5 0) true ≠ 0) := by
  unfold Claims.InFloe; decide +kernel

/-- Groups with nothing, with a post, with a run; a post in form, one out of form, one whose stores Dew forbids; a command's group idle, absent and of another partition. -/
theorem witness_posts :
    (∀ g ∈ [groupOf 2 0 [] none 3 [], groupOf 2 0 [barrier] none 3 [], groupOf 2 0 [] (some (runOf barrier 7 1 [] [] 0 false)) 3 []],
        let s := grouped [] [] [(4, g)] 0
        s.hub.group 4 = some g ∧ g.part = 2 ∧ s.hub.cmdCheck barrier true = 0 ∧ s.hub.cmdPart barrier = 2 ∧ qf barrier 0x10 1 = 4 ∧ postOk g.members barrier = true
          ∧ 4 ≤ g.chunkBytes / slotBytes barrier ∧ s.hub.storeOk g.part (qf barrier 0x16 1) = true ∧ s.hub.storeOk g.part (qf barrier 0x15 1) = true)
      ∧ postOk 2 (gather 2048) = true ∧ postOk 2 (gather 2047) = false ∧ (grouped [] [(Reg.dewPolicyStoreAllow 2, 0xFE)] [] 0).hub.storeOk 2 (qf barrier 0x16 1) = false
      ∧ (∀ c ∈ [groupCmd 0 2 4 0, groupCmd 0 2 5 0], (grouped [] [] [(4, groupOf 2 0 [] none 3 [])] 0).hub.cmdCheck c true = 0 ∧ qz c 0x11 0x40 = true)
      ∧ (grouped [] [] [(4, groupOf 2 0 [] none 3 [])] 0).hub.group 5 = none
      ∧ (∃ g : ColGroup, g = { groupOf 2 0 [] none 3 [] with part := 3 } ∧ (grouped [] [] [(4, g)] 0).hub.group 4 = some g ∧ g.part ≠ 2) := by
  refine ⟨by decide +kernel, by decide +kernel, by decide +kernel, by decide +kernel, by decide +kernel, by decide +kernel, _, rfl, by decide +kernel, by decide⟩

/-- A post that may start, after SEQ 2^32 - 1; runs in their last step, done with it, and before it; the path that leads to the other member. -/
theorem witness_runs :
    (let c := groupOf 2 0 [gather 2048] none 3 []
     (grouped [] [] [(4, c)] 0).hub.group 4 = some c ∧ c.chunks = [] ∧ colOp (gather 2048) ≠ 3 ∧ 0 < colChunks 2 (gather 2048))
      ∧ (let r := runOf barrier 7 3 [(1, 1), (2, 1)] [(1, 1), (2, 1)] 60 false
         let c := groupOf 2 1 [] (some r) 3 []
         (grouped [] [] [(4, c)] 0).hub.colOver 4 c r = true ∧ colSteps 2 barrier < r.step)
      ∧ (let r := runOf barrier 7 2 [] [] 0 false
         let c := groupOf 2 1 [] (some r) 3 []
         (grouped [path3] [] [(4, c)] 0).hub.colOver 4 c r = false ∧ r.step ≤ colSteps 2 barrier ∧ Claims.Reaches (grouped [path3] [] [(4, c)] 0).hub c path3 (1 - c.rank)) := by
  unfold Claims.Reaches; decide +kernel

/-- A BARRIER's token, a chunk received that goes on, no link left, no credit and nothing to send; the member before and the member after behind one path. -/
theorem witness_chunks :
    (let r := runOf barrier 7 1 [] [] 0 false
     let c := groupOf 2 1 [] (some r) 1 []
     let s := grouped [path3] [] [(4, c)] 0
     s.hub.group 4 = some c ∧ 0 < c.credits ∧ s.hub.colStuck 4 = false ∧ colOp r.cmd = 4 ∧ tget 0 r.sent 1 = 0 ∧ c.nextForward r = none ∧ c.nextStage r ≠ none
       ∧ Claims.Reaches s.hub c path3 ((c.rank + 1) % 2) ∧ ((grouped [] [(Reg.lnkStatusState 5, 1)] [(4, c)] 0).hub.linksOf 2).filter (fun l => (grouped [] [(Reg.lnkStatusState 5, 1)] [(4, c)] 0).hub.linkUpNow l) = [])
      ∧ (let y : ColChunk := ⟨7, 1, 0, 1, [(0, 1024)], [], true⟩
         let r := runOf (gather 3072) 7 1 [(1, 1)] [] 0 true
         let c := groupOf 3 0 [] (some r) 3 [y]
         let s := grouped [path3] [] [(4, c)] 0
         let m := colBytes 3 r.cmd (colWireF r.cmd) y.chunk
         let a := c.chunkHpa + y.slot * slotBytes r.cmd
         s.hub.colStuck 4 = false ∧ c.nextStage r = none ∧ c.nextForward r = some (2, y) ∧ Claims.Reaches s.hub c path3 1 ∧ Claims.Reaches s.hub c path3 2 ∧ 0 < m ∧ m ≤ 4096
           ∧ (match s.hub.region a, s.hub.region (a + m - 1) with | .scratch u _, .scratch v _ => decide (u = v) | _, _ => false) = true ∧ s.mem.badBits a m = 0)
      ∧ (let r := runOf broadcast 7 1 [] [] 0 false
         (groupOf 2 1 [] (some r) 3 []).nextForward r = none ∧ (groupOf 2 0 [] (some r) 0 []).credits = 0)
      ∧ (let r := runOf barrier 7 3 [(1, 1), (2, 1)] [] 0 false
         let c := groupOf 2 1 [] (some r) 3 []
         c.nextStage r = none ∧ c.nextForward r = none) := by
  unfold Claims.Reaches; decide +kernel

def colExt (gkey group step seq arg part : Nat) : ColExt :=
  ⟨BitVec.ofNat 32 gkey, BitVec.ofNat 8 group, BitVec.ofNat 8 step, 0, BitVec.ofNat 32 seq, 0, BitVec.ofNat 32 arg, BitVec.ofNat 32 part⟩

/-- Packets in turn of the running post, of a later and an earlier one, of no group; a part at the end of its chunk; a token; credits; notices up to 50,000 µs and past it. -/
theorem witness_collective_packets :
    (let r := runOf (gather 3072) 7 1 [(1, 1)] [] 49999 false
     let c := groupOf 3 0 [] (some r) 3 []
     let s := grouped [path3] [] [(4, c)] 0
     let p := pkt 0 false 0 44 3 500 (List.replicate 32 5)
     let x := colExt 0x22334455 4 1 7 3 992
     let nb := colBytes 3 r.cmd (colWireF r.cmd) x.chunk.toNat
     s.hub.rxPath p = some path3 ∧ p.psn.toNat = path3.rxPsn ∧ s.hub.links.held = [] ∧ s.hub.pathsOf 5 = [path3] ∧ kmem s.hub.links.xoff 5 = false ∧ s.hub.get (Reg.qosPortRegEn (quadPort 1)) = 0
       ∧ (s.hub.qosPort (quadPort 1)).held = [] ∧ s.hub.group 4 = some c ∧ c.part = s.hub.linkOwner 5 ∧ c.gkey % 2 ^ 32 = x.gkey.toNat ∧ s.hub.maySend 5 = true ∧ s.hub.txSak 5 = none
       ∧ 32 < nb ∧ x.part.toNat + 32 ≤ nb ∧ (match s.hub.region (c.chunkHpa + x.part.toNat) with | .scratch _ _ => true | _ => false) = true ∧ (c.chunkHpa + x.part.toNat) % 128 + 32 ≤ 128
       ∧ s.hub.get (Reg.colGroupStatusSlots 4) ≠ 0 ∧ s.hub.colStuck 4 = false ∧ recvSeg 3 0 r.cmd 1 ≠ none ∧ tget 0 r.got 1 = 0 ∧ r.extUsed < 50000 ∧ ¬ colSteps 3 r.cmd < r.step)
      ∧ (let r := runOf barrier 7 1 [] [] 50000 false
         let c := groupOf 2 1 [] (some r) 3 []
         let s := grouped [path3] [] [(4, c)] 0
         colOp r.cmd = 4 ∧ s.hub.colStuck 4 = false ∧ s.hub.colHot r = false ∧ ¬ r.extUsed < 50000 ∧ (grouped [] [] [] 0).hub.group 4 = none ∧ (5 : Nat) ≠ c.gkey % 2 ^ 32)
      ∧ (∀ seq ∈ [8, 7 + 2 ^ 31 - 1], 0 < (seq + 2 ^ 32 - 7) % 2 ^ 32 ∧ (seq + 2 ^ 32 - 7) % 2 ^ 32 < 2 ^ 31)
      ∧ (∀ seq ∈ [6, 7 + 2 ^ 31], ¬ (0 < (seq + 2 ^ 32 - 7) % 2 ^ 32 ∧ (seq + 2 ^ 32 - 7) % 2 ^ 32 < 2 ^ 31)) := by
  decide +kernel

/-! ### Sessions, keys, interfaces, domains, debug, transitions -/

/-- The responder with sessions, IDE key sets that go, the sessions that own streams; VFs 1 and 3 of partition 2. -/
def secured (activating ready : Bool) (step : Nat) (sessions go : List Nat) (owners : List (Nat × Nat)) (extra : List (Fld × Nat)) : State :=
  up ([(Reg.secStatusReady, b2n ready), (Reg.secStatusSessions, sessions.length), (Reg.prtStatusState 2, 2), (Reg.prtCfgExist 2, 1), (Reg.prtVfsMap 2, 5), (Pci.vfEnable, 1), (Pci.numVfs, 3),
      (Reg.qStatusState 1 3, 1)] ++ extra) (fun h =>
    { h with boot := { h.boot with activating := activating, step := step }, sec := { h.sec with sessions := sessions, ideGo := go, ideSess := owners } })

/-- The responder up, activating and not ready; a request outside every session, in one that is open and in one that is not; each code that has a clause of its own. -/
theorem witness_spdm :
    (∀ p ∈ [(true, true), (false, true), (false, false)], let h := (secured p.1 p.2 10 [2] [] [] []).hub
        h.boot.activating = p.1 ∧ (h.get Reg.secStatusReady = 1 ↔ p.2 = true) ∧ h.life ≠ 3 ∧ h.boot.step = 10)
      ∧ (secured false true 7 [2] [] [] []).hub.boot.step ≠ 10 ∧ (let h := (secured false true 10 [2] [] [] []).hub; 2 ∈ h.sec.sessions ∧ 3 ∉ h.sec.sessions)
      ∧ ((secured false true 10 [2] [] [] []).hub.measBlock 9).isSome = true
      ∧ (let h := (secured false true 10 [1, 3] [] [] []).hub; h.sec.sessions.length < 8 ∧ 2 ∉ h.sec.sessions ∧ ∀ j < 2, 0 < j → j ∈ h.sec.sessions)
      ∧ (secured false true 10 (List.range 8) [] [] []).hub.sec.sessions.length = 8
      ∧ (∀ c ∈ [0x80, 0x87, 0xE2, 0xE6, 0xFF], c ∉ [0x81, 0x82, 0x83, 0x84, 0x85, 0x86, 0xE0, 0xE1, 0xE3, 0xE4, 0xE5, 0xE8, 0xE9, 0xEC, 0xFE])
      ∧ (secured false true 10 [2] [] [] [(Reg.cfgModeLifecycle, 0)]).hub.hasCerts = false := by
  decide +kernel

/-- A stream of a session's own, one whose owner is gone, another's; streams 8 and 9; a set that goes and one that does not, with a VF bound to it. -/
theorem witness_ide :
    (∀ st ∈ [1, 8], let h := (secured false true 10 [2] [] [(1, 2), (8, 2)] []).hub; tget 0 h.sec.ideSess st = 2 ∧ 2 ∈ h.sec.sessions)
      ∧ (let h := (secured false true 10 [2] [] [(1, 9)] []).hub; tget 0 h.sec.ideSess 1 ∉ h.sec.sessions ∧ (h.sec.ideSess.all (fun x => decide (x.1 = 1) || decide (x.2 ≠ 2))) = true)
      ∧ (let h := (secured false true 10 [2, 3] [] [(1, 3)] []).hub; tget 0 h.sec.ideSess 1 ≠ 2 ∧ tget 0 h.sec.ideSess 1 ∈ h.sec.sessions)
      ∧ (let h := (secured false true 10 [2] [3] [(1, 2)] [(Reg.secTdispState 1, 1), (Reg.secTdispBound 1, 1), (Reg.secTdispStream 1, 1)]).hub
         kmem h.sec.ideGo (2 * 1 + 1) = true ∧ kmem h.sec.ideGo (2 * 1 + 0) = false ∧ h.streamGo 1 = true ∧ h.get (Reg.secTdispBound 1) = 1 ∧ h.get (Reg.secTdispStream 1) = 1
           ∧ h.get (Reg.secTdispState 1) = 1 ∧ h.get (Reg.qStatusState 1 3) ≠ 0)
      ∧ (secured false true 10 [2] [] [(1, 2)] []).hub.streamGo 1 = false := by
  decide +kernel

/-- A VF of a partition in each interface state; one that is not there; a partition ACTIVE, STOPPING and observed. -/
theorem witness_tdisp :
    (∀ td ∈ [0, 1, 2, 3], let h := (secured false true 10 [2] [] [] [(Reg.secTdispState 1, td)]).hub
        h.vfOn 1 = true ∧ h.vfOwner 1 = 2 ∧ h.get (Reg.secTdispState 1) = td ∧ h.partState 2 = 2 ∧ (h.get Reg.secObservedMap).testBit 2 = false)
      ∧ (secured false true 10 [2] [] [] []).hub.vfOn 4 = false ∧ (secured false true 10 [2] [] [] []).hub.vfOwner 2 = 31 ∧ (secured false true 10 [2] [] [] []).hub.vfOn 2 = true
      ∧ (secured false true 10 [2] [] [] [(Reg.prtStatusState 2, 3)]).hub.partState 2 = 3 ∧ ((secured false true 10 [2] [] [] [(Reg.secObservedMap, 4)]).hub.get Reg.secObservedMap).testBit 2 = true := by
  decide +kernel

def bundleCmd (op fn part src dst z : Nat) : QCmd := ⟨fn, 3, 9, BitVec.ofNat 512 (op + 2 ^ 16 * 7 + 2 ^ 32 * part + 2 ^ 128 * src + 2 ^ 192 * dst + 2 ^ 256 * z)⟩
/-- A bundle's header: `n` entries, `len` bytes of plaintext. -/
def bundleHdr (n len : Nat) : List (BitVec 8) :=
  leBytes 4 0x42574845 ++ leBytes 2 1 ++ leBytes 2 0 ++ leBytes 16 0xABCD ++ leBytes 4 n ++ leBytes 4 4096 ++ leBytes 8 len ++ leBytes 8 5 ++ leBytes 96 7 ++ leBytes 112 0
/-- Partition 2 with halves 0 and 1, slice 0 whose scratch holds the header at 0x200000000100, and floe 0; domains and installs. -/
def domained (installs : List Install) (hdr : List (BitVec 8)) (extra : List (Fld × Nat)) (lc : Option (Nat × Nat)) : State :=
  let s := up ([(Reg.prtStatusState 2, 2), (Reg.prtCfgExist 2, 1), (Reg.prtVfsMap 2, 5), (Reg.prtHalvesMap 2, 3), (Reg.prtFloesMap 2 0, 1), (Reg.hbmStackInfoState 0, 1), (Reg.hbmStackInfoDensity 0, 2),
    (Reg.prtSlicesMap 2 0, 1), (Reg.frnSliceStatusMode 0, 1), (Reg.secTdispState 1, 2), (Reg.qStatusState 0 3, 1)] ++ extra) (fun h =>
    { h with boot := { h.boot with lc := lc }, sec := { h.sec with installs := installs } })
  { s with mem := s.mem.wr 0x200000000100 256 (leNat hdr) }
def install1 (src : Nat) : Install := ⟨1, bundleCmd 0x41 0 2 src 0x10000 0, 2, bundleHdr 3 65536, [1], 7⟩
def domains : List (Fld × Nat) :=
  [(Reg.secDomainState 0, 2), (Reg.secDomainPartition 0, 2), (Reg.secDomainBase 0, 0x10000), (Reg.secDomainGranules 0, 1), (Reg.secDomainState 1, 1), (Reg.secDomainPartition 1, 2),
    (Reg.secDomainBase 1, 0x30000), (Reg.secDomainGranules 1, 2), (Reg.secDomainDone 1, 1), (Reg.secDomainState 2, 2), (Reg.secDomainPartition 2, 5), (Reg.secStatusDomains, 3)]
def domainsFull : List (Fld × Nat) := (List.range 64).map (fun i => (Reg.secDomainState i, 2))
def bundle : QCmd := bundleCmd 0x41 0 2 0x200000000100 0x10000 0

/-- A bundle whose header and entry are read, whose destination is its partition's and is clear; one misaligned, one of no partition, one malformed; no domain free. Where its key unwraps, it installs. -/
theorem witness_installs (ck : List (BitVec 8))
    (key : Config.unwrapKey 0 0 (Config.sha384 (bundleHdr 1 65536)) (bunB (bundleHdr 1 65536) 0x30 96) (List.replicate 40 0) = some ck) :
    (let s := domained [] (bundleHdr 1 65536) [] none
     let s0 := s.onHub (fun h => { h with sec := { h.sec with installs := [⟨64, bundle, 2, [], [], 0⟩] } })
     s.hub.installCheck bundle = 0 ∧ s.hub.cmdPart bundle = 2 ∧ s.hub.sec.installs = []
       ∧ (match s0.cmdBytes bundle (qf bundle 0x10 8) 256 with | .ok b t => decide (b = bundleHdr 1 65536 ∧ t = s0) | _ => false) = true
       ∧ bundleOk (bundleHdr 1 65536) = true ∧ s.hub.destOk 2 (qf bundle 0x18 8) (bunF (bundleHdr 1 65536) 0x20 8) = true ∧ s.destTaken 2 (qf bundle 0x18 8) 65536 = false
       ∧ s.hub.get (Reg.secDomainState 0) = 0
       ∧ (match State.findUnit 18 s0 bundle (qf bundle 0x10 8) 0 (bunF (bundleHdr 1 65536) 0x18 4) with | .ok b t => decide (b = List.replicate 48 0 ∧ t = s0) | _ => false) = true
       ∧ s.hub.perma.sealing = 0 ∧ s.hub.perma.unit = 0
       ∧ s.hub.installCheck (bundleCmd 0x41 0 2 0 0x18000 0) ≠ 0 ∧ s.hub.cmdCheck (bundleCmd 0x41 0 2 0 0x18000 0) true = 0
       ∧ s.hub.cmdCheck (bundleCmd 0x41 0 3 0 0x10000 0) true = 0 ∧ s.hub.partExists 3 = false ∧ bundleOk (bundleHdr 0 65536) = false ∧ bundleOk (bundleHdr 1 65535) = false)
      ∧ (∀ j < 64, (domained [] [] domainsFull none).hub.get (Reg.secDomainState j) ≠ 0)
      ∧ Config.unwrapKey 0 0 (Config.sha384 (bundleHdr 1 65536)) (bunB (bundleHdr 1 65536) 0x30 96) ((List.replicate 48 (0 : BitVec 8)).drop 8) = some ck :=
  ⟨by decide +kernel, by decide +kernel, key⟩

/-- An install with nothing left, one whose read waits; a domain that installs none. -/
theorem witness_install_ends :
    (let s := domained [install1 0x200000000100] [] (domains ++ [(Reg.secDomainDone 1, 2)]) none
     s.hub.get (Reg.secDomainState 1) = 1 ∧ s.hub.sec.installs = [install1 0x200000000100] ∧ s.hub.get (Reg.secDomainGranules 1) - s.hub.get (Reg.secDomainDone 1) = 0
       ∧ (match State.chunks 0 s (install1 0x200000000100) with | .done t => decide (t = s) | _ => false) = true ∧ s.hub.get (Reg.secDomainState 2) ≠ 1)
      ∧ (let x : Install := { install1 0 with cmd := bundleCmd 0x41 1 0 0x123450000 0x10000 0 }
         (match State.chunks 1 (domained [x] [] domains none) x with | .wait _ => true | _ => false) = true) := by
  decide +kernel

/-- A read of the register aperture by the host's own path is refused and changes nothing. -/
theorem aperture_read (s : State) (hd : s.hub.dies = 1) (f : Nat) : ∀ a n : Nat, 0x7F0000000000 ≤ a → a + n ≤ 0x7F0010000000 →
    (s.readLoop f .pf a n false).s = s ∧ (0 < f → 0 < n → (s.readLoop f .pf a n false).st = 4) := by
  induction f with
  | zero => intro a n _ _; exact ⟨rfl, by omega⟩
  | succ f ih =>
    intro a n ha hn
    rw [State.readLoop]
    split
    · exact ⟨rfl, by omega⟩
    · have hr : s.hub.region a = .regs (a - 0x7F0000000000) := by
        unfold Hub.region
        rw [hd]
        repeat (rw [if_neg (by omega)])
        rw [if_pos (by omega)]
      have hp (k : Nat) : s.readPiece .pf a k false = ⟨4, 0, allBad a k, s⟩ := by unfold State.readPiece; rw [hr]
      simp only [hp]
      exact ⟨(ih _ _ (by omega) (by omega)).1, fun _ _ => rfl⟩

/-- An install whose next chunk cannot be read: its source is the register aperture. -/
theorem witness_install_fails :
    let s := domained [install1 0x7F0000000000] [] domains none
    s.hub.get (Reg.secDomainState 1) = 1 ∧ s.hub.get (Reg.secDomainGranules 1) - s.hub.get (Reg.secDomainDone 1) = 1 ∧ s.hub.sec.installs = [install1 0x7F0000000000]
      ∧ State.chunks 1 s (install1 0x7F0000000000) = .fail 4 s := by
  refine ⟨by decide +kernel, by decide +kernel, rfl, ?_⟩
  have ha : qf (install1 0x7F0000000000).cmd 0x10 8 + bunF (install1 0x7F0000000000).hdr 0x1C 4
      + 65536 * (domained [install1 0x7F0000000000] [] domains none).hub.get (Reg.secDomainDone (install1 0x7F0000000000).dom) = 0x7F0000011000 := by decide +kernel
  have hr := aperture_read (domained [install1 0x7F0000000000] [] domains none) (by decide +kernel) (65536 / 128 + 2) 0x7F0000011000 65536 (by decide) (by decide)
  have hb : (domained [install1 0x7F0000000000] [] domains none).cmdBytes (install1 0x7F0000000000).cmd 0x7F0000011000 65536
      = .bad 4 (domained [install1 0x7F0000000000] [] domains none) := by
    unfold State.cmdBytes State.cmdRead
    rw [if_pos (by decide +kernel)]
    simp only [State.hubRead, hr.1, hr.2 (by decide) (by decide)]
    rfl
  simp only [State.chunks, State.chunk, ha, hb]

/-- DOMAIN_REMOVE of a domain in each state and of another partition's; the debug commands of the PF and of a VF; DEBUG_READ engaged and not, of floe memory and of a domain; each transition step. -/
theorem witness_domains_and_debug :
    (let s := domained [] [] (domains ++ [(Reg.secDebugMap, 4)]) none
     (∀ d ∈ [0, 1, 2, 3], let c := bundleCmd 0x42 0 2 d 0 0
        s.hub.cmdCheck c true = 0 ∧ qz c 0x11 0x40 = true ∧ qf c 0x10 1 = d ∧ s.hub.get (Reg.secDomainState d) = [2, 1, 2, 0].getD d 9 ∧ (d < 2 → s.hub.get (Reg.secDomainPartition d) = s.hub.cmdPart c)
          ∧ (d = 2 → s.hub.get (Reg.secDomainPartition d) ≠ s.hub.cmdPart c))
       ∧ (let c := bundleCmd 0x43 0 2 0 0 0; c.fn = 0 ∧ s.hub.cmdCheck c true = 0 ∧ qz c 0x10 0x40 = true ∧ s.hub.partExists 2 = true ∧ (bundleCmd 0x43 1 2 0 0 0).fn ≠ 0)
       ∧ s.hub.cmdCheck (bundleCmd 0x44 0 9 0 0 0) true = 0 ∧ s.hub.partExists 9 = false
       ∧ (s.hub.get Reg.secDebugMap).testBit 2 = true ∧ ((domained [] [] [] none).hub.get Reg.secDebugMap).testBit 2 = false ∧ s.hub.quiet 0 = false
       ∧ (let c := bundleCmd 0x45 0 2 (F0 + 64) 0x9000 32
          s.hub.cmdCheck c true = 0 ∧ qz c 0x24 0x40 = true ∧ qf c 0x20 4 = 32 ∧ (List.range 1).all (fun i => s.hub.debugMay 2 (F0 + 64 + 32 * i)) = true ∧ Claims.InFloe s.hub (F0 + 64) 32
            ∧ s.mem.badBits (F0 + 64) 32 = 0)
       ∧ s.hub.debugMay 2 0x10000 = false ∧ s.hub.debugMay 2 0x20000 = true ∧ s.hub.region 0x20000 = .stack)
      ∧ (∀ k ∈ [2, 3, 4], let s := domained [] [] [] (some (k, 3)); s.hub.boot.lc = some (k, 3) ∧ Claims.CanReset s) := by
  unfold Claims.InFloe Claims.CanReset; decide +kernel

/-! ### Steps and invariants -/

/-- The state after reset meets the invariant, and with a command at the front of its queue its step answers a next state. -/
theorem witness_steps :
    Safe State.reset ∧ (step State.reset = .next State.reset) ∧ (step { State.reset with pending := [.nmtStop] } = exec .nmtStop State.reset)
      ∧ (match step { State.reset with pending := [.nmtStop] } with | .next t => decide (t.pending = []) | _ => false) = true := by
  unfold Safe
  exact ⟨by decide +kernel, rfl, rfl, by decide +kernel⟩

/-! ### Ill-formed commands, one for each check of WellFormed -/

/-- A packet on link 96. -/
def badLink : LinkPkt := ⟨96, 0, false, 0, false, 0, 0, 0, 0, []⟩
/-- A packet of 4,097 bytes. -/
def longPkt : LinkPkt := ⟨0, 0, false, 0, false, 0, 0, 0, 0, List.replicate 4097 0⟩

/-- A floe that its die does not have, for the commands that name one and for one operation of each kind. -/
theorem test_wf_refuses_cores :
    (∀ a, (Instr.tileStart a 196).wf = false) ∧ (Instr.floeResetDone 196).wf = false ∧ (Instr.floeCtrlReset 196).wf = false ∧ (Instr.floeIdleGate 196).wf = false
      ∧ (∀ a, (Instr.floeFreqChange 196 a).wf = false) ∧ (∀ a b, (Instr.dmaComplete 196 a b).wf = false) ∧ (Instr.evtWaitWake ⟨196, 0⟩).wf = false
      ∧ (∀ a, (Instr.add ⟨196, 0⟩ a).wf = false) ∧ (∀ a, (Instr.addi ⟨196, 0⟩ a).wf = false) ∧ (∀ a, (Instr.movz ⟨196, 0⟩ a).wf = false)
      ∧ (∀ a, (Instr.fcvtS ⟨196, 0⟩ a).wf = false) ∧ (∀ a, (Instr.endt ⟨196, 0⟩ a).wf = false) ∧ (∀ a, (Instr.csrw ⟨196, 0⟩ a).wf = false)
      ∧ (∀ a, (Instr.ldd ⟨196, 0⟩ a).wf = false) ∧ (∀ a, (Instr.std ⟨196, 0⟩ a).wf = false) ∧ (∀ a, (Instr.vld ⟨196, 0⟩ a).wf = false)
      ∧ (∀ a, (Instr.vstx ⟨196, 0⟩ a).wf = false) ∧ (∀ a, (Instr.amoAdd ⟨196, 0⟩ a).wf = false) ∧ (∀ a, (Instr.beq ⟨196, 0⟩ a).wf = false)
      ∧ (∀ a, (Instr.jal ⟨196, 0⟩ a).wf = false) ∧ (∀ a, (Instr.bar ⟨196, 0⟩ a).wf = false) ∧ (∀ a, (Instr.evtWait ⟨196, 0⟩ a).wf = false)
      ∧ (∀ a, (Instr.dmais ⟨196, 0⟩ a).wf = false) ∧ (∀ a, (Instr.vadd ⟨196, 0⟩ a).wf = false) ∧ (∀ a, (Instr.vintAdd ⟨196, 0⟩ a).wf = false)
      ∧ (∀ a, (Instr.vcmpEq ⟨196, 0⟩ a).wf = false) ∧ (∀ a, (Instr.pand ⟨196, 0⟩ a).wf = false) ∧ (∀ a, (Instr.vrcp ⟨196, 0⟩ a).wf = false)
      ∧ (∀ a, (Instr.vdot ⟨196, 0⟩ a).wf = false) ∧ (∀ a, (Instr.vcvt ⟨196, 0⟩ a).wf = false) ∧ (∀ a, (Instr.vqb ⟨196, 0⟩ a).wf = false)
      ∧ (∀ a, (Instr.vredSum ⟨196, 0⟩ a).wf = false) ∧ (∀ a, (Instr.vmov ⟨196, 0⟩ a).wf = false) ∧ (∀ a, (Instr.dewset ⟨196, 0⟩ a).wf = false) := by
  simp [Instr.wf, CoreId.wf]

/-- A queue command of function 49, and one of queue 64. -/
theorem test_wf_refuses_queue_commands :
    (Instr.launch ⟨49, 0, 0, 0⟩).wf = false ∧ (Instr.launch ⟨0, 64, 0, 0⟩).wf = false ∧ (Instr.launchAbort ⟨49, 0, 0, 0⟩).wf = false
      ∧ (Instr.launchAbort ⟨0, 64, 0, 0⟩).wf = false ∧ (Instr.streamOpen ⟨49, 0, 0, 0⟩).wf = false ∧ (Instr.streamOpen ⟨0, 64, 0, 0⟩).wf = false
      ∧ (Instr.streamClose ⟨49, 0, 0, 0⟩).wf = false ∧ (Instr.streamClose ⟨0, 64, 0, 0⟩).wf = false ∧ (Instr.xltInvalidate ⟨49, 0, 0, 0⟩).wf = false
      ∧ (Instr.xltInvalidate ⟨0, 64, 0, 0⟩).wf = false ∧ (Instr.xltResume ⟨49, 0, 0, 0⟩).wf = false ∧ (Instr.xltResume ⟨0, 64, 0, 0⟩).wf = false
      ∧ (Instr.cmdNop ⟨49, 0, 0, 0⟩).wf = false ∧ (Instr.cmdNop ⟨0, 64, 0, 0⟩).wf = false ∧ (∀ a, (Instr.diagAccess ⟨49, 0, 0, 0⟩ a).wf = false)
      ∧ (∀ a, (Instr.diagAccess ⟨0, 64, 0, 0⟩ a).wf = false) ∧ (∀ a, (Instr.linkSak ⟨49, 0, 0, 0⟩ a).wf = false) ∧ (∀ a, (Instr.linkSak ⟨0, 64, 0, 0⟩ a).wf = false)
      ∧ (Instr.colGroupCreate ⟨49, 0, 0, 0⟩).wf = false ∧ (Instr.colGroupCreate ⟨0, 64, 0, 0⟩).wf = false ∧ (Instr.colGroupDestroy ⟨49, 0, 0, 0⟩).wf = false
      ∧ (Instr.colGroupDestroy ⟨0, 64, 0, 0⟩).wf = false ∧ (Instr.colPost ⟨49, 0, 0, 0⟩).wf = false ∧ (Instr.colPost ⟨0, 64, 0, 0⟩).wf = false
      ∧ (Instr.colCancel ⟨49, 0, 0, 0⟩).wf = false ∧ (Instr.colCancel ⟨0, 64, 0, 0⟩).wf = false ∧ (Instr.bundleInstall ⟨49, 0, 0, 0⟩).wf = false
      ∧ (Instr.bundleInstall ⟨0, 64, 0, 0⟩).wf = false ∧ (Instr.domainRemove ⟨49, 0, 0, 0⟩).wf = false ∧ (Instr.domainRemove ⟨0, 64, 0, 0⟩).wf = false
      ∧ (Instr.debugEngage ⟨49, 0, 0, 0⟩).wf = false ∧ (Instr.debugEngage ⟨0, 64, 0, 0⟩).wf = false ∧ (Instr.debugRead ⟨49, 0, 0, 0⟩).wf = false
      ∧ (Instr.debugRead ⟨0, 64, 0, 0⟩).wf = false ∧ (Instr.debugRelease ⟨49, 0, 0, 0⟩).wf = false ∧ (Instr.debugRelease ⟨0, 64, 0, 0⟩).wf = false := by
  simp [Instr.wf, QCmd.wf]

/-- A doorbell from VF 0, from VF 49 and from a master of partition 24. -/
theorem test_wf_refuses_doorbells :
    (∀ a b, (Instr.dbTail (.vf 0) a b).wf = false) ∧ (∀ a b, (Instr.dbTail (.vf 49) a b).wf = false) ∧ (∀ a b, (Instr.dbTail (.master 24) a b).wf = false)
      ∧ (∀ a b, (Instr.dbCplhead (.vf 0) a b).wf = false) ∧ (∀ a b, (Instr.dbCplhead (.vf 49) a b).wf = false) ∧ (∀ a b, (Instr.dbCplhead (.master 24) a b).wf = false)
      ∧ (∀ a b, (Instr.siteEngDb (.vf 0) a b).wf = false) ∧ (∀ a b, (Instr.siteEngDb (.vf 49) a b).wf = false) ∧ (∀ a b, (Instr.siteEngDb (.master 24) a b).wf = false) := by
  simp [Instr.wf, DbSrc.wf]

/-- A packet on link 96, and one of 4,097 bytes. -/
theorem test_wf_refuses_packets :
    (∀ a, (Instr.transportWrite badLink a).wf = false) ∧ (∀ a, (Instr.transportWrite longPkt a).wf = false) ∧ (∀ a, (Instr.readReq badLink a).wf = false)
      ∧ (∀ a, (Instr.readReq longPkt a).wf = false) ∧ (Instr.readResp badLink).wf = false ∧ (Instr.readResp longPkt).wf = false
      ∧ (∀ a, (Instr.transportAtomic badLink a).wf = false) ∧ (∀ a, (Instr.transportAtomic longPkt a).wf = false) ∧ (Instr.atomicResp badLink).wf = false
      ∧ (Instr.atomicResp longPkt).wf = false ∧ (∀ a b, (Instr.ack badLink a b).wf = false) ∧ (∀ a b, (Instr.ack longPkt a b).wf = false)
      ∧ (∀ a b, (Instr.nak badLink a b).wf = false) ∧ (∀ a b, (Instr.nak longPkt a b).wf = false) ∧ (Instr.cnp badLink).wf = false ∧ (Instr.cnp longPkt).wf = false
      ∧ (Instr.pathOpen badLink).wf = false ∧ (Instr.pathOpen longPkt).wf = false ∧ (Instr.pathAccept badLink).wf = false ∧ (Instr.pathAccept longPkt).wf = false
      ∧ (Instr.pathClose badLink).wf = false ∧ (Instr.pathClose longPkt).wf = false ∧ (∀ a, (Instr.colData badLink a).wf = false)
      ∧ (∀ a, (Instr.colData longPkt a).wf = false) ∧ (∀ a, (Instr.colCredit badLink a).wf = false) ∧ (∀ a, (Instr.colCredit longPkt a).wf = false)
      ∧ (∀ a, (Instr.colSquall badLink a).wf = false) ∧ (∀ a, (Instr.colSquall longPkt a).wf = false) ∧ (∀ a, (Instr.colAbort badLink a).wf = false)
      ∧ (∀ a, (Instr.colAbort longPkt a).wf = false) := by
  simp [Instr.wf, LinkPkt.wf, badLink, longPkt, -List.reduceReplicate]

/-- A function of 49, a partition of 24, a slice of 192, a stack of 24, a half-stack of 48, a module of 6, a link of 96, a quad of 24. -/
theorem test_wf_refuses_numbers :
    (∀ a b c, (Instr.registerWrite 49 a b c).wf = false) ∧ (∀ a b c, (Instr.bar0BadAccess 49 a b c).wf = false) ∧ (∀ a, (Instr.windowClose 24 a).wf = false)
      ∧ (Instr.migrationStart 24).wf = false ∧ (∀ a, (Instr.migrationGroupDone 24 a).wf = false) ∧ (∀ a, (Instr.migrationComplete 24 a).wf = false)
      ∧ (∀ a b, (Instr.haltedClear 49 a b).wf = false) ∧ (∀ a b, (Instr.haltedClear a 24 b).wf = false) ∧ (∀ a b, (Instr.dewCounterClear 49 a b).wf = false)
      ∧ (∀ a b, (Instr.dewCounterClear a 24 b).wf = false) ∧ (∀ a b, (Instr.sliceRequest 192 a b).wf = false) ∧ (∀ a b, (Instr.channelRequest 192 a b).wf = false)
      ∧ (∀ a, (Instr.fillReturn 192 a).wf = false) ∧ (∀ a, (Instr.writebackAck 192 a).wf = false) ∧ (∀ a, (Instr.wayDisable 192 a).wf = false)
      ∧ (∀ a, (Instr.seedWrite 192 a).wf = false) ∧ (∀ a, (Instr.stackTempRead 24 a).wf = false) ∧ (Instr.repairStart 24).wf = false
      ∧ (∀ a, (Instr.repairDone 24 a).wf = false) ∧ (Instr.fillGranule 48).wf = false ∧ (Instr.fillComplete 48).wf = false ∧ (∀ a, (Instr.streamPause 49 a).wf = false)
      ∧ (∀ a, (Instr.streamResume 49 a).wf = false) ∧ (∀ a, (Instr.streamAbort 49 a).wf = false) ∧ (∀ a b, (Instr.atsInvalidation 49 a b).wf = false)
      ∧ (∀ a b, (Instr.fqCiWrite 49 a b).wf = false) ∧ (∀ a b, (Instr.fqCiWrite a 24 b).wf = false) ∧ (∀ a b, (Instr.xltAsWrite 49 a b).wf = false)
      ∧ (∀ a b, (Instr.eepRead a 6 b).wf = false) ∧ (∀ a b c, (Instr.eepWrite a 6 b c).wf = false) ∧ (∀ a b c, (Instr.eepWritePartial a 6 b c).wf = false)
      ∧ (∀ a b c, (Instr.eepAtomic a 6 b c).wf = false) ∧ (∀ a b, (Instr.eepMaint a 6 b).wf = false) ∧ (∀ a b, (Instr.eepPrefetch a 6 b).wf = false)
      ∧ (∀ a b c, (Instr.eepComplete a 6 b c).wf = false) ∧ (∀ a b, (Instr.eepInterrupt a 6 b).wf = false) ∧ (∀ a b, (Instr.eepCleared a 6 b).wf = false)
      ∧ (∀ a b, (Instr.eepErrorReport a 6 b).wf = false) ∧ (∀ a b, (Instr.eepCredit a 6 b).wf = false) ∧ (∀ a b c, (Instr.rimeSweep a 6 b c).wf = false)
      ∧ (∀ a b c, (Instr.laneCondemn a 6 b c).wf = false) ∧ (∀ a b, (Instr.moduleActionDone a 6 b).wf = false) ∧ (∀ a, (Instr.start a 24).wf = false)
      ∧ (∀ a, (Instr.stop a 24).wf = false) ∧ (Instr.stopComplete 24).wf = false ∧ (Instr.stopTimeout 24).wf = false ∧ (∀ a, (Instr.partitionReset a 24).wf = false)
      ∧ (Instr.partitionResetComplete 24).wf = false ∧ (∀ a, (Instr.thaw a 24).wf = false) ∧ (Instr.thawComplete 24).wf = false
      ∧ (∀ a b c, (Instr.commandFetch 49 a b c).wf = false) ∧ (∀ a b, (Instr.sqTail 49 a b).wf = false) ∧ (∀ a b, (Instr.cqHead 49 a b).wf = false)
      ∧ (∀ a b, (Instr.queueEnable 49 a b).wf = false) ∧ (∀ a b, (Instr.queueDisable 49 a b).wf = false) ∧ (∀ a b c, (Instr.hostCompletion 49 a b c).wf = false)
      ∧ (Instr.busMasterEnableClear 49).wf = false ∧ (Instr.busMasterEnableSet 49).wf = false ∧ (∀ a, (Instr.msixUnmask 49 a).wf = false)
      ∧ (∀ a, (Instr.powerStateChange 49 a).wf = false) ∧ (Instr.vfFlr 49).wf = false ∧ (Instr.vfFlrComplete 49).wf = false ∧ (∀ a, (Instr.pacedSend 96 a).wf = false)
      ∧ (∀ a, (Instr.ackTimer 96 a).wf = false) ∧ (∀ a b, (Instr.rtoExpiry 96 a b).wf = false) ∧ (∀ a, (Instr.rateRecoveryTimer 96 a).wf = false)
      ∧ (∀ a b, (Instr.pfcFrame 96 a b).wf = false) ∧ (Instr.pfcWatchdog 96).wf = false ∧ (Instr.lossOfLock 96).wf = false ∧ (Instr.linkUp 96).wf = false
      ∧ (Instr.quadFatal 24).wf = false ∧ (∀ a b, (Instr.configSpaceWrite 49 a b).wf = false) := by
  simp [Instr.wf]

/-- One byte, flit or reading more than the command carries, and readings missing. -/
theorem test_wf_refuses_lengths :
    (∀ a b c, (Instr.eepWrite a b c (List.replicate 65 0)).wf = false) ∧ (∀ a b c, (Instr.eepWritePartial a b c (List.replicate 65 0)).wf = false)
      ∧ (∀ a b c, (Instr.eepAtomic a b c (List.replicate 65 0)).wf = false) ∧ (∀ a b c, (Instr.eepComplete a b c (List.replicate 65 0)).wf = false)
      ∧ (∀ a, (Instr.diagAccess a (List.replicate 1048577 0)).wf = false) ∧ (∀ a b, (Instr.bar2Write a (List.replicate 4097 0) b).wf = false)
      ∧ (∀ a b c, (Instr.hostCompletion a b c (List.replicate 4097 0)).wf = false) ∧ (∀ a, (Instr.linkSak a (List.replicate 1048577 0)).wf = false)
      ∧ (∀ a, (Instr.dieSensorSample a []).wf = false) ∧ (∀ a b c, (Instr.usdoTransfer a b c (List.replicate 4097 0)).wf = false)
      ∧ (∀ a, (Instr.rpdo a (List.replicate 4097 0)).wf = false) ∧ (∀ a, (Instr.slotData a (List.replicate 4097 0)).wf = false)
      ∧ (∀ a, (Instr.lcRequest a (List.replicate 4097 0)).wf = false) := by
  simp [Instr.wf, -List.reduceReplicate]

/-- A register access of 3 bytes. -/
theorem test_wf_refuses_access_sizes :
    (∀ a b c, (Instr.registerWrite a b 3 c).wf = false) ∧ (∀ a b c, (Instr.bar0BadAccess a b 3 c).wf = false) := by
  simp [Instr.wf]

/-- A TDISP message for VF 0 and for VF 49. -/
theorem test_wf_refuses_interfaces :
    (Instr.lockInterface ⟨0, 0, 0⟩).wf = false ∧ (Instr.lockInterface ⟨0, 49, 0⟩).wf = false ∧ (Instr.getDeviceInterfaceReport ⟨0, 0, 0⟩).wf = false
      ∧ (Instr.getDeviceInterfaceReport ⟨0, 49, 0⟩).wf = false ∧ (Instr.startInterface ⟨0, 0, 0⟩).wf = false ∧ (Instr.startInterface ⟨0, 49, 0⟩).wf = false
      ∧ (Instr.stopInterface ⟨0, 0, 0⟩).wf = false ∧ (Instr.stopInterface ⟨0, 49, 0⟩).wf = false ∧ (Instr.getDeviceInterfaceState ⟨0, 0, 0⟩).wf = false
      ∧ (Instr.getDeviceInterfaceState ⟨0, 49, 0⟩).wf = false := by
  simp [Instr.wf]
end Sys2Proof.Tests
end

section
/-! SUPPORT. What messages, events, records and the watch leave of the hub, and what several fields written at once read. -/

namespace Sys2Proof.Machine

open Sys2Proof

/-- A relation that each step of a fold over units keeps holds between its ends. -/
theorem overList_rel {σ : Type} {R : σ → σ → Prop} (hrefl : ∀ x, R x x) (htrans : ∀ {x y z}, R x y → R y z → R x z)
    {f : Nat → σ → σ} (hf : ∀ k x, R x (f k x)) (l : List Nat) (x : σ) : R x (overList f l x) := by
  induction l generalizing x with
  | nil => exact hrefl x
  | cons k l ih => exact htrans (hf k x) (ih (f k x))

/-- The forecast (02) and the lower halves held under R5 are as before: what reports of errors leave. -/
structure Hub.SameHeld (h k : Hub) : Prop where
  cfg : k.cfg = h.cfg
  halves : k.halves = h.halves

/-- The register file is as before too: what messages, interrupts and emergencies leave. -/
structure Hub.SameRegs (h k : Hub) : Prop extends Hub.SameHeld h k where
  regs : k.regs = h.regs

theorem Hub.SameHeld.rfl {h : Hub} : h.SameHeld h := ⟨.refl _, .refl _⟩

theorem Hub.SameHeld.trans {h k l : Hub} (a : h.SameHeld k) (b : k.SameHeld l) : h.SameHeld l :=
  ⟨b.cfg.trans a.cfg, b.halves.trans a.halves⟩

theorem Hub.SameRegs.rfl {h : Hub} : h.SameRegs h := ⟨.rfl, .refl _⟩

theorem Hub.SameRegs.trans {h k l : Hub} (a : h.SameRegs k) (b : k.SameRegs l) : h.SameRegs l :=
  ⟨a.toSameHeld.trans b.toSameHeld, b.regs.trans a.regs⟩

theorem Hub.SameRegs.get {h k : Hub} (a : h.SameRegs k) (f : Fld) : k.get f = h.get f := Hub.get_of_regs_eq f a.regs

-- Messages, interrupts and emergencies leave the register file

theorem Hub.msix_sameRegs (h : Hub) (fn e : Nat) : h.SameRegs (h.msix fn e) := by
  unfold Hub.msix
  split_ifs <;> exact ⟨⟨.refl _, .refl _⟩, .refl _⟩

theorem Hub.emcy_sameRegs (h : Hub) (code mor : Nat) : h.SameRegs (h.emcy code mor) := by
  unfold Hub.emcy
  split_ifs <;> exact ⟨⟨.refl _, .refl _⟩, .refl _⟩

theorem Hub.canSend_sameRegs (h : Hub) (id n v : Nat) : h.SameRegs (h.canSend id n v) := by
  unfold Hub.canSend
  split_ifs <;> exact ⟨⟨.refl _, .refl _⟩, .refl _⟩

theorem Hub.tpdoSend_sameRegs (h : Hub) (n : Nat) : h.SameRegs (h.tpdoSend n) := by
  unfold Hub.tpdoSend
  extract_lets l a k
  have hk : h.SameRegs k := ⟨⟨.refl _, .refl _⟩, .refl _⟩
  exact hk.trans (k.canSend_sameRegs _ _ _)

theorem Hub.tpdoChange_sameRegs (n : Nat) (h : Hub) : h.SameRegs (Hub.tpdoChange n h) := by
  unfold Hub.tpdoChange
  split_ifs
  · exact ⟨⟨.refl _, .refl _⟩, .refl _⟩
  · exact h.tpdoSend_sameRegs n
  · exact .rfl

/-- What the management core sends by itself (R440-R442) changes no register. -/
theorem Hub.watch_sameRegs (h h0 : Hub) : h.SameRegs (h.watch h0) := by
  unfold Hub.watch
  extract_lets k
  have hk : h.SameRegs k := by
    unfold k
    split_ifs
    · exact overList_rel (fun _ => .rfl) .trans Hub.tpdoChange_sameRegs _ h
    · exact .rfl
  clear_value k
  split_ifs
  · exact hk.trans (k.emcy_sameRegs 0 0)
  · exact hk

-- Events and records leave the forecast and the held halves

theorem Hub.set_sameHeld (h : Hub) (f : Fld) (v : Nat) : h.SameHeld (h.set f v) := ⟨.refl _, .refl _⟩

/-- An event changes the register file in its own bit alone. -/
theorem Hub.event_regs (h : Hub) (f : Fld) : (h.event f).regs = (h.set f 1).regs := by
  unfold Hub.event
  extract_lets k
  split_ifs
  · exact (k.msix_sameRegs _ _).regs
  · rfl

theorem Hub.event_sameHeld (h : Hub) (f : Fld) : h.SameHeld (h.event f) := by
  unfold Hub.event
  extract_lets k
  have hk : h.SameHeld k := h.set_sameHeld f 1
  clear_value k
  split_ifs
  · exact hk.trans (k.msix_sameRegs _ _).toSameHeld
  · exact hk

theorem Hub.raiseVf_sameRegs (h : Hub) (p e : Nat) : h.SameRegs (h.raiseVf p e) :=
  overList_rel (fun _ => .rfl) .trans (fun v k => k.msix_sameRegs v e) _ h

theorem Hub.aerUnc_sameHeld (h : Hub) (fn bit : Nat) : h.SameHeld (h.aerUnc fn bit) := by
  unfold Hub.aerUnc
  extract_lets k
  split_ifs <;> exact ⟨.refl _, .refl _⟩

theorem Hub.aerCor_sameHeld (h : Hub) (fn bit : Nat) : h.SameHeld (h.aerCor fn bit) := by
  unfold Hub.aerCor
  extract_lets k
  split_ifs <;> exact ⟨.refl _, .refl _⟩

theorem Hub.announce_sameHeld (h : Hub) (x : RecIn) : h.SameHeld (h.announce x) := by
  unfold Hub.announce
  extract_lets k l m
  have hk : h.SameHeld k := by
    unfold k
    split_ifs
    exacts [h.event_sameHeld _, h.event_sameHeld _, h.event_sameHeld _, .rfl]
  clear_value k
  have hl : h.SameHeld l := by
    unfold l
    split_ifs
    exacts [hk.trans (k.raiseVf_sameRegs _ _).toSameHeld, hk]
  clear_value l
  have hm : h.SameHeld m := by
    unfold m
    split_ifs
    exacts [hl.trans (l.emcy_sameRegs _ _).toSameHeld, hl]
  clear_value m
  split_ifs
  exacts [hm.trans (m.aerCor_sameHeld _ _), hm.trans (m.aerUnc_sameHeld _ _), hm]

theorem Hub.morPut_sameHeld (h : Hub) (x : RecIn) (t k : Nat) : h.SameHeld (h.morPut x t k) := ⟨.refl _, .refl _⟩

theorem Hub.record_sameHeld (h : Hub) (x : RecIn) : h.SameHeld (h.record x) := by
  unfold Hub.record
  extract_lets t k
  have hk : h.SameHeld k := ⟨.refl _, .refl _⟩
  clear_value k
  have hlost : h.SameHeld (((k.count Reg.morLostCount 1).event Reg.morEventLost).announce x) :=
    hk.trans (.trans (k.set_sameHeld _ _) (.trans (Hub.event_sameHeld _ _) (Hub.announce_sameHeld _ _)))
  have hput (j : Nat) : h.SameHeld ((k.morPut x t j).announce x) :=
    hk.trans (.trans (k.morPut_sameHeld x t j) (Hub.announce_sameHeld _ _))
  split
  · split_ifs
    · exact hk.trans ⟨.refl _, .refl _⟩
    · split
      exacts [hput _, hlost]
  · split
    exacts [hput _, hlost]

theorem Hub.draw_sameHeld (h : Hub) : h.SameHeld h.draw.2 := ⟨.refl _, .refl _⟩

theorem Hub.hostRec_sameHeld (h : Hub) (code fn d0 : Nat) (tlp : Bool) : h.SameHeld (h.hostRec code fn d0 tlp) := by
  unfold Hub.hostRec
  split_ifs
  exacts [h.draw_sameHeld.trans (Hub.record_sameHeld _ _), h.record_sameHeld _]

theorem Hub.aerTlp_sameHeld (h : Hub) (fn bit : Nat) : h.SameHeld (h.aerTlp fn bit) := by
  unfold Hub.aerTlp
  split_ifs
  · exact h.aerUnc_sameHeld fn bit
  · exact h.draw_sameHeld.trans (.trans (Hub.set_sameHeld _ _ _) (Hub.aerUnc_sameHeld _ _ _))

theorem Hub.aerPlain_sameHeld (h : Hub) (fn bit d0 : Nat) : h.SameHeld (h.aerPlain fn bit d0) :=
  h.draw_sameHeld.trans (.trans (Hub.aerTlp_sameHeld _ _ _) (Hub.hostRec_sameHeld _ _ _ _ _))

theorem Hub.SameRegs.view {h k : Hub} (a : h.SameRegs k) (f : Fld) : k.view f = h.view f := by
  simp [Hub.view, a.cfg, a.get f]

theorem Hub.sets_sameHeld (h : Hub) (l : List (Fld × Nat)) : h.SameHeld (h.sets l) := by
  induction l generalizing h with
  | nil => exact .rfl
  | cons p l ih => exact (h.set_sameHeld p.1 p.2).trans (ih _)

-- Several fields written

theorem Hub.get_sets_of_mem {l : List (Fld × Nat)} (hn : (l.map (·.1.key)).Nodup) {f : Fld} {v : Nat} (hm : (f, v) ∈ l) (h : Hub) :
    (h.sets l).get f = v % 2 ^ f.len := by
  induction l generalizing h with
  | nil => simp at hm
  | cons p l ih =>
    obtain ⟨hp, hn⟩ := List.nodup_cons.1 hn
    rcases List.mem_cons.1 hm with rfl | hm
    · have hf : ∀ q ∈ l, f.key ≠ q.1.key := fun q hq e => hp (List.mem_map.2 ⟨q, hq, e.symm⟩)
      exact (Hub.get_sets_ne l _ f hf).trans (Hub.get_set_same _ _ _)
    · exact ih hn hm _

end Sys2Proof.Machine
end

section
/-! SUPPORT. How an access of the PF's BAR0 reaches a register, and what a malformed or shut-out one leaves (R4, R365). -/

namespace Sys2Proof.Machine

open Sys2Proof Claims

-- The commands of a register access, by their meanings

theorem exec_registerWrite (fn : BitVec 6) (off : BitVec 28) (bytes : BitVec 4) (w : BitVec 64) (s : State) :
    exec (.registerWrite fn off bytes w) s = execRegisterWrite fn off bytes w s := rfl
theorem exec_bar0BadAccess (fn : BitVec 6) (off : BitVec 28) (bytes : BitVec 4) (write : Bool) (s : State) :
    exec (.bar0BadAccess fn off bytes write) s = execBar0BadAccess fn off bytes write s := rfl
theorem exec_configSpaceWrite (fn : BitVec 6) (off : BitVec 12) (w : BitVec 32) (s : State) :
    exec (.configSpaceWrite fn off w) s = execConfigSpaceWrite fn off w s := rfl

-- An open BAR0

/-- An open BAR0 of the PF is reached (R365). -/
theorem barReach_of_open {s : State} (hs : BarOpen s) (off : Nat) : s.hub.barReach 0 off = none := by
  obtain ⟨hstep, hrun, hmse⟩ := hs
  simp [Hub.barReach, Hub.bar0Up, Hub.on, hstep, hrun, hmse]

theorem exec_registerWrite_of_open {s : State} (hs : BarOpen s) {off : BitVec 28} {bytes : BitVec 4} (v : BitVec 64)
    (ha : accepts off.toNat bytes.toNat = true) :
    exec (.registerWrite 0 off bytes v) s = .next ((s.pfWrite off.toNat bytes.toNat v.toNat).watch s) := by
  simp [exec_registerWrite, execRegisterWrite, barReach_of_open hs, ha]

theorem pfWrite_word {s : State} (hs : BarOpen s) {off w : Nat} (ho : off < 0x1400000) (hw : w < 2 ^ 32) :
    s.pfWrite off 4 w = s.putWord 0 off w := by
  have hoff : ¬ 0x8000000 ≤ off := by omega
  have hmbx : ¬ (0x1400000 ≤ off ∧ off < 0x1402000) := by omega
  have hhas : s.hub.pfHas off = true := by simp [Hub.pfHas, hs.1]
  simp only [State.pfWrite, hoff, hmbx, hhas, if_false, Bool.not_true, Bool.false_eq_true, Nat.mod_eq_of_lt hw,
    show ¬ (4 : Nat) = 8 by omega]

theorem putWord_reg32 {s : State} {off w : Nat} {r : RegAt} (hr : s.hub.regAt 0 off = some r) (hw : r.width = 32) :
    s.putWord 0 off w = (s.wroteBy 0).putPf r w := by
  simp [State.putWord, hr, hw, State.putBy]

/-- A 32-bit write of a 32-bit register of an open BAR0 writes that register, and the management core watches. -/
theorem exec_put32_reg32 {s : State} (hs : BarOpen s) {off : Nat} {r : RegAt} (w : BitVec 32) (ho : off < 0x1400000)
    (h4 : off % 4 = 0) (hr : s.hub.regAt 0 off = some r) (hw : r.width = 32) :
    exec (put32 off w) s = .next (((s.wroteBy 0).putPf r w.toNat).watch s) := by
  have hoff : (BitVec.ofNat 28 off).toNat = off := by simp; omega
  have hval : (w.setWidth 64).toNat = w.toNat := by simp; omega
  have hacc : accepts (BitVec.ofNat 28 off).toNat (4 : BitVec 4).toNat = true := by simp [accepts, hoff, h4]
  rw [put32, exec_registerWrite_of_open hs _ hacc, hoff, hval]
  rw [show (4 : BitVec 4).toNat = 4 from rfl, pfWrite_word hs ho w.isLt, putWord_reg32 hr hw]

theorem accepts_eq_true_iff {off bytes : Nat} : accepts off bytes = true ↔ (bytes = 4 ∨ bytes = 8) ∧ off % bytes = 0 := by
  simp [accepts]

/-- R4: a write of another width or alignment is recorded, with no other effect. -/
theorem exec_registerWrite_malformed {s : State} (hs : BarOpen s) {off : BitVec 28} {bytes : BitVec 4} (v : BitVec 64)
    (ha : accepts off.toNat bytes.toNat = false) :
    exec (.registerWrite 0 off bytes v) s = .next (s.onHub (·.hostRec 0x0A01 0 off.toNat true)) := by
  simp [exec_registerWrite, execRegisterWrite, barReach_of_open hs, ha, Hub.badAccess]

/-- R4: so is any access that the row names malformed, and a read completes with zero. -/
theorem exec_bar0BadAccess_malformed {s : State} (hs : BarOpen s) {off : BitVec 28} {bytes : BitVec 4} (write : Bool)
    (ha : accepts off.toNat bytes.toNat = false) :
    exec (.bar0BadAccess 0 off bytes write) s = .next (s.onHub (fun h =>
      if write then h.hostRec 0x0A01 0 off.toNat true
      else (h.hostRec 0x0A01 0 off.toNat true).send (.bar2Cpl 0 bytes.toNat 0 false))) := by
  simp [exec_bar0BadAccess, execBar0BadAccess, barReach_of_open hs, ha, Hub.badAccess, hubStep]

/-- R365: with Memory Space Enable 0 a write leaves an error report and nothing else. -/
theorem exec_registerWrite_shut {s : State} (hstep : s.hub.boot.step = 10) (hrun : s.hub.boot.stopped = false)
    (hmse : s.hub.get (Pci.mse 0) = 0) (off : BitVec 28) (bytes : BitVec 4) (v : BitVec 64) :
    exec (.registerWrite 0 off bytes v) s = .next (s.onHub (·.aerPlain 0 20 off.toNat)) := by
  have hreach : s.hub.barReach 0 off.toNat = some (s.hub.aerPlain 0 20 off.toNat) := by
    simp [Hub.barReach, Hub.bar0Up, Hub.on, hstep, hrun, hmse]
  simp [exec_registerWrite, execRegisterWrite, hreach, State.onHub]

end Sys2Proof.Machine
end

section
/-! SUPPORT. Staging by a register write: what is staged, what refuses it, and CFG_POWER as the register written (R39, R56). -/

namespace Sys2Proof.Machine

open Sys2Proof Claims

/-- The staged table after the values of a register write are staged. -/
def stagedOver (t : Tab Nat) (l : List (Fld × Nat)) : Tab Nat := l.foldl (fun t x => tput t x.1.key (x.2 % 2 ^ x.1.len)) t

theorem tlook_stagedOver_ne {k : Nat} {l : List (Fld × Nat)} (hk : ∀ x ∈ l, k ≠ x.1.key) (t : Tab Nat) :
    tlook (stagedOver t l) k = tlook t k := by
  induction l generalizing t with
  | nil => rfl
  | cons x l ih =>
    exact (ih (fun y hy => hk y (by simp [hy])) _).trans (tlook_tput_ne _ _ (hk x (by simp)))

theorem tlook_stagedOver_cons {f : Fld} {l : List (Fld × Nat)} (hf : ∀ x ∈ l, f.key ≠ x.1.key) (v : Nat) (t : Tab Nat) :
    tlook (stagedOver t ((f, v) :: l)) f.key = some (v % 2 ^ f.len) :=
  (tlook_stagedOver_ne hf _).trans (tlook_tput_same _ _ _)

/-- The values of a register write that differ from what the view shows (R39). -/
def Hub.changes (h : Hub) (l : List (Fld × Nat)) : List (Fld × Nat) := l.filter (fun x => decide (x.2 % 2 ^ x.1.len ≠ h.view x.1))

theorem Hub.stage_eq (h : Hub) (via off : Nat) (l : List (Fld × Nat)) : h.stage via off l =
    if (h.changes l).isEmpty then (0, h)
    else if h.stageCause via ≠ 0 then (h.stageCause via, h.cfgRefuse via off (h.stageCause via))
    else (0, { h.set Reg.cfgOwnerOwnerIf via with cfg := { h.cfg with staged := stagedOver h.cfg.staged (h.changes l) } }) := rfl

theorem Hub.stage_accepted {h : Hub} {via : Nat} {l : List (Fld × Nat)} (hl : h.changes l ≠ []) (hc : h.stageCause via = 0) (off : Nat) :
    h.stage via off l
      = (0, { h.set Reg.cfgOwnerOwnerIf via with cfg := { h.cfg with staged := stagedOver h.cfg.staged (h.changes l) } }) := by
  rw [Hub.stage_eq, if_neg (by simpa using hl), if_neg (not_not.mpr hc)]

theorem Hub.stage_refused {h : Hub} {via : Nat} {l : List (Fld × Nat)} (hl : h.changes l ≠ []) (hc : h.stageCause via ≠ 0) (off : Nat) :
    h.stage via off l = (h.stageCause via, h.cfgRefuse via off (h.stageCause via)) := by
  rw [Hub.stage_eq, if_neg (by simpa using hl), if_pos hc]

/-- While no commit runs and the forecast is open, only another owner refuses (R39). -/
theorem Hub.stageCause_open {h : Hub} (hphase : h.get Reg.cfgStatusPhase = 0) (hwhite : h.whiteout = false) (hlife : h.life = 2)
    (via : Nat) : h.stageCause via = if h.cfgOwner ≠ 0 ∧ h.cfgOwner ≠ via then 0x02 else 0 := by
  simp [Hub.stageCause, Hub.cfgBusy, Hub.on, hphase, Hub.cfgClosed, hwhite, hlife]

/-- What CFG_REFUSED and CFG_EVENT hold of a refused write (R56). -/
def refusedRecord (off owner cause : Nat) : List (Fld × Nat) :=
  [(Reg.cfgRefusedOffset, off), (Reg.cfgRefusedIface, owner), (Reg.cfgRefusedCause, cause), (Reg.cfgEventRefused, 1)]

theorem refusedRecord_nodup (off owner cause : Nat) : ((refusedRecord off owner cause).map (·.1.key)).Nodup := by
  simp only [refusedRecord, List.map_cons, List.map_nil]
  decide

theorem Hub.cfgRefuse_regs (h : Hub) (off cause : Nat) :
    (h.cfgRefuse 1 off cause).regs = (h.sets (refusedRecord off h.cfgOwner cause)).regs :=
  Hub.event_regs _ _

theorem Hub.cfgRefuse_sameHeld (h : Hub) (via off cause : Nat) : h.SameHeld (h.cfgRefuse via off cause) := by
  unfold Hub.cfgRefuse
  split_ifs
  · exact (h.sets_sameHeld _).trans (Hub.event_sameHeld _ _)
  · exact .rfl

/-- CFG_POWER, whose fields are RWF. -/
def cfgPowerReg : RegAt := ⟨0x100028, 32, 0, [], [⟨.rwf, Reg.cfgPowerClassW, anyVal⟩, ⟨.rwf, Reg.cfgPowerBrakeLevel, anyVal⟩]⟩

theorem regAt_cfgPower (h : Hub) : h.regAt 0 0x100028 = some cfgPowerReg := rfl

/-- CFG_POWER written by PF MMIO: its fields are staged (R39). -/
def Hub.putCfgPower (h : Hub) (w : Nat) : Hub := (h.stage 1 0x100028 (h.rwfOf cfgPowerReg w)).2

theorem putPf_cfgPower (s : State) (w : Nat) : s.putPf cfgPowerReg w = s.onHub (·.putCfgPower w) := rfl

theorem rwfOf_cfgPower (h : Hub) (w : Nat) : h.rwfOf cfgPowerReg w
    = [(Reg.cfgPowerClassW, putBits (h.view Reg.cfgPowerClassW) 0 12 (bits w 0 12)),
       (Reg.cfgPowerBrakeLevel, putBits (h.view Reg.cfgPowerBrakeLevel) 0 2 (bits w 12 2))] := rfl

theorem putBits_low_mod (x n v : Nat) : putBits x 0 n v % 2 ^ n = v % 2 ^ n := by
  simp [putBits, Nat.mod_one]

/-- A new CLASS_W is staged, with BRAKE_LEVEL beside it or not. -/
theorem changes_cfgPower {h : Hub} {w : Nat} (hw : w % 2 ^ 12 ≠ h.view Reg.cfgPowerClassW) :
    ∃ l, (∀ x ∈ l, Reg.cfgPowerClassW.key ≠ x.1.key) ∧ h.changes (h.rwfOf cfgPowerReg w)
      = (Reg.cfgPowerClassW, putBits (h.view Reg.cfgPowerClassW) 0 12 (bits w 0 12)) :: l := by
  have hnew : putBits (h.view Reg.cfgPowerClassW) 0 12 (bits w 0 12) % 2 ^ Reg.cfgPowerClassW.len ≠ h.view Reg.cfgPowerClassW := by
    rw [show Reg.cfgPowerClassW.len = 12 from rfl, putBits_low_mod]
    simpa [bits] using hw
  refine ⟨_, fun x hx => ?_, (congrArg _ (rwfOf_cfgPower h w)).trans (List.filter_cons_of_pos (by simpa using hnew))⟩
  rw [List.mem_singleton.1 (List.mem_of_mem_filter hx)]
  exact (by decide : Reg.cfgPowerClassW.key ≠ Reg.cfgPowerBrakeLevel.key)

/-- R39: a new CLASS_W is staged, and the register file changes in OWNER_IF alone. -/
theorem Hub.putCfgPower_accepted {h : Hub} {w : Nat} (hw : w % 2 ^ 12 ≠ h.view Reg.cfgPowerClassW) (hc : h.stageCause 1 = 0) :
    (h.putCfgPower w).view Reg.cfgPowerClassW = w % 2 ^ 12 ∧ (h.putCfgPower w).regs = (h.set Reg.cfgOwnerOwnerIf 1).regs := by
  obtain ⟨l, hl, hchg⟩ := changes_cfgPower hw
  rw [Hub.putCfgPower, Hub.stage_accepted (by simp [hchg]) hc, hchg]
  refine ⟨?_, rfl⟩
  simp only [Hub.view, tlook_stagedOver_cons hl, Option.getD_some]
  rw [show Reg.cfgPowerClassW.len = 12 from rfl, putBits_low_mod]
  simp [bits]

/-- R56: a new CLASS_W from another than the owner is refused with NOT_OWNER. -/
theorem Hub.putCfgPower_refused {h : Hub} {w : Nat} (hw : w % 2 ^ 12 ≠ h.view Reg.cfgPowerClassW) (hc : h.stageCause 1 = 2) :
    h.putCfgPower w = h.cfgRefuse 1 0x100028 2 := by
  obtain ⟨l, -, hchg⟩ := changes_cfgPower hw
  rw [Hub.putCfgPower, Hub.stage_refused (by simp [hchg]) (by omega), hc]

theorem exec_put32_cfgPower {s : State} (hs : BarOpen s) (w : BitVec 32) :
    exec (put32 0x100028 w) s = .next (((s.wroteBy 0).onHub (·.putCfgPower w.toNat)).watch s) := by
  rw [exec_put32_reg32 hs w (by omega) (by omega) (regAt_cfgPower _) rfl, putPf_cfgPower]

end Sys2Proof.Machine
end

section
/-! SUPPORT. Writes of the PF's configuration space: one lemma per double word (R344, R362, R363). -/

namespace Sys2Proof.Machine

open Sys2Proof Claims

/-- A double word of the PF's configuration space, once it no longer answers with CRS, acts as `cfgDword` says. -/
theorem exec_configSpaceWrite_of_open {s : State} (hs : BarOpen s) {off : BitVec 12} {w : BitVec 32} {f : Hub → Hub}
    (hf : s.hub.cfgDword 0 off.toNat w.toNat = f s.hub) : exec (.configSpaceWrite 0 off w) s = .next (s.onHub f) := by
  obtain ⟨hstep, hrun, -⟩ := hs
  have hup : s.hub.bar0Up = true := by simp [Hub.bar0Up, hstep, hrun]
  simp [exec_configSpaceWrite, execConfigSpaceWrite, hubStep, State.onHub, hup, hf]

/-- What the Command register of the PF takes from a word with Bus Master Enable 0 (R344, R365). -/
def commandFields (w : Nat) : List (Fld × Nat) :=
  [(Pci.mse 0, bits w 1 1), (Pci.perr 0, bits w 6 1), (Pci.serr 0, bits w 8 1), (Pci.bme 0, 0)]

theorem commandFields_nodup (w : Nat) : ((commandFields w).map (·.1.key)).Nodup := by
  simp only [commandFields, List.map_cons, List.map_nil]
  decide

theorem Hub.cfgDword_command {w : Nat} (hw : w / 4 % 2 = 0) (h : Hub) : h.cfgDword 0 0x04 w = h.sets (commandFields w) := by
  have hbme : bitAt w 2 = false := by simp [bitAt, hw]
  simp only [Hub.cfgDword, Hub.cfgCommand, hbme]
  rfl

theorem Hub.set_mod (h : Hub) (f : Fld) (v : Nat) : h.set f (v % 2 ^ f.len) = h.set f v := by
  simp [Hub.set]

theorem Hub.cfgDword_completionTimeout (h : Hub) (w : Nat) : h.cfgDword 0 0x98 w = h.set (Pci.ctoValue 0) w := by
  rw [← Hub.set_mod, show (Pci.ctoValue 0).len = 4 from rfl]
  simp [Hub.cfgDword, bits]

theorem Hub.cfgDword_aerUncMask (h : Hub) (w : Nat) : h.cfgDword 0 0x108 w = h.set (Pci.aerUncMask 0) w := by simp [Hub.cfgDword]
theorem Hub.cfgDword_aerUncSev (h : Hub) (w : Nat) : h.cfgDword 0 0x10C w = h.set (Pci.aerUncSev 0) w := by simp [Hub.cfgDword]
theorem Hub.cfgDword_aerCorMask (h : Hub) (w : Nat) : h.cfgDword 0 0x114 w = h.set (Pci.aerCorMask 0) w := by simp [Hub.cfgDword]

theorem Hub.cfgDword_d3hot {w : Nat} (hw : w % 4 = 3) (h : Hub) : h.cfgDword 0 0x44 w = h.set (Pci.d3 0) 1 := by
  have hstate : bits w 0 2 = 3 := by simpa [bits] using hw
  simp [Hub.cfgDword, hstate]

/-- Ones written to a status register clear their bits and leave the others (RW1C). -/
def Hub.clearOnes (h : Hub) (f : Fld) (w : Nat) : Hub := h.set f (h.get f ^^^ (h.get f &&& w))

theorem Hub.cfgDword_aerUnc (h : Hub) (w : Nat) : h.cfgDword 0 0x104 w = h.clearOnes (Pci.aerUnc 0) w := by
  simp [Hub.cfgDword, Hub.clearOnes]
theorem Hub.cfgDword_aerCor (h : Hub) (w : Nat) : h.cfgDword 0 0x110 w = h.clearOnes (Pci.aerCor 0) w := by
  simp [Hub.cfgDword, Hub.clearOnes]

theorem Hub.testBit_clearOnes (h : Hub) {f : Fld} {k : Nat} (hk : k < f.len) (w : Nat) :
    ((h.clearOnes f w).get f).testBit k = ((h.get f).testBit k && !w.testBit k) := by
  rw [Hub.clearOnes, Hub.get_set_same, Nat.testBit_mod_two_pow, Nat.testBit_xor, Nat.testBit_and]
  simp only [hk, decide_true, Bool.true_and]
  cases (h.get f).testBit k <;> cases w.testBit k <;> rfl

/-- A write of an AER status register clears the bits written 1 and nothing else (R363). -/
theorem runs_aerStatusWrite {s : State} (hs : BarOpen s) {off : BitVec 12} {w : BitVec 32} {f : Fld} (hlen : f.len = 32)
    (hf : s.hub.cfgDword 0 off.toNat w.toNat = s.hub.clearOnes f w.toNat) :
    Claims.Runs (.configSpaceWrite 0 off w) s (fun t => SameRegsBut [f] s t ∧ t.mem = s.mem ∧ t.pending = s.pending
      ∧ ∀ k < 32, (t.hub.get f).testBit k = ((s.hub.get f).testBit k && !w.toNat.testBit k)) :=
  ⟨_, exec_configSpaceWrite_of_open (f := (·.clearOnes f w.toNat)) hs hf, fun _ hg => Hub.get_set_ne _ _ (hg f (by simp)), rfl, rfl,
    fun _ hk => s.hub.testBit_clearOnes (hlen ▸ hk) _⟩

end Sys2Proof.Machine
end

section
/-! The statements on register writes (00_scope.md): O22 refuted, O23 proved. -/

namespace Sys2Proof.Machine

open Sys2Proof Claims

-- O22

/-- HBM_EVENT, whose fields are RW1C. -/
def hbmEventReg : RegAt :=
  ⟨0x500310, 32, 0, [], [⟨.rw1c, Reg.hbmEventCe, anyVal⟩, ⟨.rw1c, Reg.hbmEventUe, anyVal⟩, ⟨.rw1c, Reg.hbmEventRepaired, anyVal⟩,
    ⟨.rw1c, Reg.hbmEventRowFailed, anyVal⟩, ⟨.rw1c, Reg.hbmEventRepairUnavailable, anyVal⟩, ⟨.rw1c, Reg.hbmEventThermal, anyVal⟩,
    ⟨.rw1c, Reg.hbmEventRetrain, anyVal⟩]⟩

theorem regAt_hbmEvent (h : Hub) : h.regAt 0 0x500310 = some hbmEventReg := rfl

/-- An open BAR0 over a register file whose entry for the one-bit field HBM_EVENT.CE is 2. -/
def wideEventState : State :=
  State.reset.onHub (fun h => { h with regs := [(Reg.hbmEventCe.key, 2), ((Pci.mse 0).key, 1)], boot := { h.boot with step := 10 } })

theorem barOpen_wideEventState : BarOpen wideEventState := by
  unfold BarOpen; decide

/-- A write of 0 keeps no more of the field than its one bit, which is 0. -/
theorem get_putPf_hbmEvent_wideEventState :
    (((wideEventState.wroteBy 0).putPf hbmEventReg (0 : BitVec 32).toNat).watch wideEventState).hub.get Reg.hbmEventCe = 0 := by
  decide +kernel

/-- Refutes O22: the statement quantifies over every state, and in one whose register file holds 2 for the one-bit RW1C field HBM_EVENT.CE
a write of 0 to HBM_EVENT does not keep the field: `Hub.set` reduces what it writes to the field's width, so 2 becomes 0. -/
theorem not_registerWritesFollowTheFieldTypes : ¬ Obligations.RegisterWritesFollowTheFieldTypes := by
  unfold Obligations.RegisterWritesFollowTheFieldTypes
  intro h
  obtain ⟨t, hexec, hkeep⟩ := (h wideEventState 0 0 0 0 0 barOpen_wideEventState).2.1
  have hce : t.hub.get Reg.hbmEventCe = wideEventState.hub.get Reg.hbmEventCe := (hkeep _ (by simp)).1 rfl
  rw [exec_put32_reg32 barOpen_wideEventState 0 (by omega) (by omega) (regAt_hbmEvent _) rfl] at hexec
  rw [← Host.Outcome.next.inj hexec, get_putPf_hbmEvent_wideEventState] at hce
  exact absurd hce (by decide)

-- O23

theorem stagedAndMalformedWritesActAsStated : StagedAndMalformedWritesActAsStated := by
  intro s w off bytes write v hs hphase hwhite hlife _ hw
  have hcause := Hub.stageCause_open (h := (s.wroteBy 0).hub) hphase hwhite hlife 1
  refine ⟨fun hown => ?_, fun hown => ?_, fun hbad => ?_, ?_⟩
  · have hc : (s.wroteBy 0).hub.stageCause 1 = 0 := by
      rw [hcause, if_neg]
      exact fun ⟨h0, h1⟩ => hown.elim h0 h1
    obtain ⟨hview, hregs⟩ := Hub.putCfgPower_accepted (h := (s.wroteBy 0).hub) hw hc
    have hwatch := ((s.wroteBy 0).hub.putCfgPower w.toNat).watch_sameRegs s.hub
    have hget (g : Fld) := Hub.get_of_regs_eq g (hwatch.regs.trans hregs)
    refine ⟨_, exec_put32_cfgPower hs w, (hwatch.view _).trans hview, (hget _).trans (Hub.get_set_ne _ _ (by decide)),
      (hget _).trans (Hub.get_set_same _ _ _), fun g hg => (hget g).trans (Hub.get_set_ne _ _ (hg _ (by simp))), rfl, rfl⟩
  · have hc : (s.wroteBy 0).hub.stageCause 1 = 2 := by
      rw [hcause, if_pos]
      rw [show (s.wroteBy 0).hub.cfgOwner = 4 from hown]
      decide
    have hrefuse := Hub.putCfgPower_refused (h := (s.wroteBy 0).hub) hw hc
    have hwatch := ((s.wroteBy 0).hub.putCfgPower w.toNat).watch_sameRegs s.hub
    have hget (g : Fld) := (hwatch.get g).trans (Hub.get_of_regs_eq g ((congrArg Hub.regs hrefuse).trans (Hub.cfgRefuse_regs _ _ _)))
    have hcfg := hwatch.cfg.trans ((congrArg Hub.cfg hrefuse).trans (Hub.cfgRefuse_sameHeld _ _ _ _).cfg)
    have hval {f : Fld} {x : Nat} (hx : (f, x) ∈ refusedRecord 0x100028 (s.wroteBy 0).hub.cfgOwner 2) :=
      (hget f).trans (Hub.get_sets_of_mem (refusedRecord_nodup _ _ _) hx _)
    have howner : (s.wroteBy 0).hub.cfgOwner = 4 := hown
    refine ⟨_, exec_put32_cfgPower hs w, hcfg, hval (x := 1) ?_, hval (x := 0x100028) ?_, hval (x := 4) ?_, hval (x := 2) ?_, rfl, rfl⟩
    all_goals simp [refusedRecord, howner]
  · have ha : accepts off.toNat bytes.toNat = false := by
      rw [← Bool.not_eq_true, accepts_eq_true_iff]
      simpa [← BitVec.toNat_inj] using hbad
    exact ⟨exec_registerWrite_malformed hs v ha, exec_bar0BadAccess_malformed hs write ha⟩
  · obtain ⟨hstep, hrun, -⟩ := hs
    intro shut
    have hmse : shut.hub.get (Pci.mse 0) = 0 := Hub.get_set_same _ _ _
    have hkeep := shut.hub.aerPlain_sameHeld 0 20 off.toNat
    exact ⟨_, exec_registerWrite_shut (s := shut) hstep hrun hmse off bytes v, rfl, rfl, hkeep.cfg, hkeep.halves⟩

theorem configurationSpaceWritesActAsStated : ConfigurationSpaceWritesActAsStated := by
  intro s w hs
  refine ⟨fun hw => ?_, ?_, ?_, fun hw => exec_configSpaceWrite_of_open hs (Hub.cfgDword_d3hot hw _)⟩
  · have hval {f : Fld} {x : Nat} (hx : (f, x) ∈ commandFields w.toNat) : (s.hub.sets (commandFields w.toNat)).get f = x % 2 ^ f.len :=
      Hub.get_sets_of_mem (commandFields_nodup _) hx _
    refine ⟨_, exec_configSpaceWrite_of_open (f := (·.sets (commandFields w.toNat))) hs (Hub.cfgDword_command hw _), ?_, ?_, ?_, ?_,
      fun g hg => Hub.get_sets_ne _ _ g ?_, rfl, rfl⟩
    · exact (hval (x := bits w.toNat 1 1) (by simp [commandFields])).trans (Nat.mod_mod _ _)
    · exact hval (x := 0) (by simp [commandFields])
    · exact (hval (x := bits w.toNat 6 1) (by simp [commandFields])).trans (Nat.mod_mod _ _)
    · exact (hval (x := bits w.toNat 8 1) (by simp [commandFields])).trans (Nat.mod_mod _ _)
    · intro p hp
      simp only [commandFields, List.mem_cons, List.not_mem_nil, or_false] at hp
      obtain rfl | rfl | rfl | rfl := hp <;> exact hg _ (by simp)
  · simp only [List.forall_mem_cons, List.not_mem_nil]
    refine ⟨?_, ?_, ?_, ?_, by simp⟩
    · exact exec_configSpaceWrite_of_open hs (Hub.cfgDword_completionTimeout _ _)
    · exact exec_configSpaceWrite_of_open hs (Hub.cfgDword_aerUncMask _ _)
    · exact exec_configSpaceWrite_of_open hs (Hub.cfgDword_aerUncSev _ _)
    · exact exec_configSpaceWrite_of_open hs (Hub.cfgDword_aerCorMask _ _)
  · simp only [List.forall_mem_cons, List.not_mem_nil]
    exact ⟨runs_aerStatusWrite hs rfl (Hub.cfgDword_aerUnc _ _), runs_aerStatusWrite hs rfl (Hub.cfgDword_aerCor _ _), by simp⟩

/-- Settles O23: staging through CFG_POWER with the reports' frame, and configuration space one double word at a time. -/
theorem stagedMalformedAndConfigurationWrites : Obligations.StagedMalformedAndConfigurationWrites :=
  ⟨stagedAndMalformedWritesActAsStated, configurationSpaceWritesActAsStated⟩

end Sys2Proof.Machine
end

section
/-! SUPPORT. How a jump or a conditional branch ends over its core (R24, R117), and how `issue` carries that to the machine. -/

namespace Sys2Proof.Machine

open Sys2Proof Claims

variable {c : CoreId} {i : Instr} {w : Nat} {s : State}

-- Jumps through `issue`

theorem retires_of_jump {g : Nat → Core → CoreRes} {y : Core} (h : Ready c s) (he : exec i s = issue c w (jumpIss g) s)
    (hg : g (s.hub.codeLen (coreOf c s)) (coreOf c s) = .ok y) : Retires i c s y :=
  he.trans (issue_pure_ok h.1 h.2 hg)

theorem exec_jump_exc {g : Nat → Core → CoreRes} {y : Core} {code addr : Nat} (h : Ready c s)
    (he : exec i s = issue c w (jumpIss g) s) (hg : g (s.hub.codeLen (coreOf c s)) (coreOf c s) = .exc code addr y) :
    exec i s = .next (raised c s y w code addr 0) :=
  he.trans (issue_pure_exc h.1 h.2 hg)

/-- A conditional branch that completes is counted when it goes against its prediction (R24). -/
theorem exec_branch_ok {taken : Core → Bool} {imm : BitVec 16} {g : Nat → Core → CoreRes} {y : Core} (h : Ready c s)
    (he : exec i s = issue c w (branchIss taken imm g) s) (hg : g (s.hub.codeLen (coreOf c s)) (coreOf c s) = .ok y) :
    exec i s = .next (retired c (predicted c s (taken (coreOf c s)) imm) y) := by
  refine he.trans (issue_done h.1 h.2 ?_)
  change branchIss taken imm g (coreNum c) (coreOf c s) s = _
  by_cases hp : taken (coreOf c s) = imm.msb <;> simp [branchIss, jumpIss, pureIss, hg, mispredicted, predicted, hp]

theorem exec_branch_exc {taken : Core → Bool} {imm : BitVec 16} {g : Nat → Core → CoreRes} {y : Core} {code addr : Nat} (h : Ready c s)
    (he : exec i s = issue c w (branchIss taken imm g) s) (hg : g (s.hub.codeLen (coreOf c s)) (coreOf c s) = .exc code addr y) :
    exec i s = .next (raised c s y w code addr 0) := by
  refine he.trans (issue_exc h.1 h.2 ?_)
  change branchIss taken imm g (coreNum c) (coreOf c s) s = _
  simp [branchIss, jumpIss, pureIss, hg]

-- Targets

theorem badTarget_iff {t : Nat} :
    badTarget (s.hub.codeLen (coreOf c s)) t = true ↔ RefusedTarget c s t := by
  simp [badTarget, RefusedTarget]

theorem branchTo_not_taken (n : Nat) (imm : BitVec 16) (x : Core) : branchTo n false imm x = .ok x.adv := rfl

theorem branchTo_taken {imm : BitVec 16} (h : ¬ RefusedTarget c s (branchTarget (coreOf c s) imm).toNat) :
    branchTo (s.hub.codeLen (coreOf c s)) true imm (coreOf c s) = .ok { coreOf c s with pc := branchTarget (coreOf c s) imm } := by
  simp [branchTo, badTarget_iff, h]

theorem branchTo_refused {imm : BitVec 16} (h : RefusedTarget c s (branchTarget (coreOf c s) imm).toNat) :
    branchTo (s.hub.codeLen (coreOf c s)) true imm (coreOf c s) = .exc 0x09 (branchTarget (coreOf c s) imm).toNat (coreOf c s) := by
  simp [branchTo, badTarget_iff, h]

/-- An instruction that ends over its core as `branchTo` does branches as R117 says. -/
theorem branches_of_branchTo {taken : Core → Bool} {imm : BitVec 16} {g : Nat → Core → CoreRes} (h : Ready c s)
    (he : exec i s = issue c w (branchIss taken imm g) s)
    (hg : ∀ n, g n (coreOf c s) = branchTo n (taken (coreOf c s)) imm (coreOf c s)) :
    Branches i c s w (taken (coreOf c s)) imm := by
  refine ⟨fun ht => ?_, fun ht hok => ?_, fun ht hbad => ?_⟩
  · exact exec_branch_ok h he (by rw [hg, ht, branchTo_not_taken])
  · exact exec_branch_ok h he (by rw [hg, ht, branchTo_taken hok]; rfl)
  · exact exec_branch_exc h he (by rw [hg, ht, branchTo_refused hbad]; rfl)

-- The conditions

/-- The row `e` of the table of branches is that of the condition `op`. -/
def IsBranchRow (op : BOp) (e : Nat × (CoreId → BForm → Instr) × (Word64 → Word64 → Bool)) : Prop :=
  (∀ c f s, exec (e.2.1 c f) s
    = issue c (encB e.1 f) (branchIss (fun x => branchCond op (x.s f.rs1) (x.s f.rs2)) f.imm (fun n => branch op n f)) s) ∧
  ∀ a b, branchCond op a b = e.2.2 a b

theorem branchCond_ge (a b : Word64) : branchCond .ge a b = decide (b.toInt ≤ a.toInt) := by
  simp [branchCond, BitVec.slt_eq_decide, ← decide_not]

theorem branchCond_geu (a b : Word64) : branchCond .geu a b = decide (b.toNat ≤ a.toNat) := by
  simp [branchCond, BitVec.ult_eq_decide, ← decide_not]

/-- Every row of majors 0x20 to 0x25 has its condition (Table 5 of 05). -/
theorem exists_isBranchRow : ∀ e ∈ branchRows, ∃ op, IsBranchRow op e := by
  simp only [branchRows, List.forall_mem_cons]
  refine ⟨⟨.eq, fun _ _ _ => rfl, fun _ _ => rfl⟩, ⟨.ne, fun _ _ _ => rfl, fun _ _ => rfl⟩,
    ⟨.lt, fun _ _ _ => rfl, fun _ _ => BitVec.slt_eq_decide⟩, ⟨.ge, fun _ _ _ => rfl, branchCond_ge⟩,
    ⟨.ltu, fun _ _ _ => rfl, fun _ _ => BitVec.ult_eq_decide⟩, ⟨.geu, fun _ _ _ => rfl, branchCond_geu⟩, by simp⟩

theorem IsBranchRow.branches {op : BOp} {e : Nat × (CoreId → BForm → Instr) × (Word64 → Word64 → Bool)} (hrow : IsBranchRow op e)
    (h : Ready c s) (f : BForm) :
    Branches (e.2.1 c f) c s (encB e.1 f) (e.2.2 ((coreOf c s).s f.rs1) ((coreOf c s).s f.rs2)) f.imm := by
  obtain ⟨hexec, hcond⟩ := hrow
  rw [← hcond]
  exact branches_of_branchTo h (hexec c f s) (fun _ => rfl)

-- BP

theorem bits_bp_condition {f : BForm} (h1 : f.rs1.toNat / 8 < 3) : bits f.rs1.toNat 3 2 = f.rs1.toNat / 8 :=
  Nat.mod_eq_of_lt (by omega)

theorem bits_bp_count {f : BForm} (h2 : f.rs2.toNat < 4) : bits f.rs2.toNat 0 3 = f.rs2.toNat := by
  rw [bits, Nat.pow_zero, Nat.div_one, Nat.mod_eq_of_lt (by omega)]

theorem bits_bp_reserved {f : BForm} (h2 : f.rs2.toNat < 4) : bits f.rs2.toNat 3 2 = 0 := by
  rw [bits, Nat.div_eq_of_lt (by omega), Nat.zero_mod]

/-- BP's fields are listed when the condition's code is below 3 and the count's below 4 with the reserved bits zero (Table 5 of 05). -/
theorem bpLegal_of_lt {f : BForm} (h1 : f.rs1.toNat / 8 < 3) (h2 : f.rs2.toNat < 4) : bpLegal f = true := by
  simp only [bpLegal, bits_bp_condition h1, bits_bp_count h2, bits_bp_reserved h2, h1, h2, decide_true, Bool.and_self]

theorem bpBits_eq {f : BForm} (h2 : f.rs2.toNat < 4) (x : Core) :
    bpBits f x = (x.p (f.rs1.setWidth 3)).toNat % 2 ^ (8 * 2 ^ f.rs2.toNat) := by
  rw [bpBits, bits_bp_count h2, bits, Nat.pow_zero, Nat.div_one, BitVec.ofNat_toNat]

/-- BP's condition over the first 8, 16, 32 or 64 bits of its predicate. -/
theorem bpTaken_eq {f : BForm} (h1 : f.rs1.toNat / 8 < 3) (h2 : f.rs2.toNat < 4) (x : Core) :
    bpTaken f x
      = (let n := 8 * 2 ^ f.rs2.toNat
         let b := (x.p (f.rs1.setWidth 3)).toNat % 2 ^ n
         if f.rs1.toNat / 8 = 0 then decide (b ≠ 0) else if f.rs1.toNat / 8 = 1 then decide (b = 2 ^ n - 1) else decide (b = 0)) := by
  simp only [bpTaken, bits_bp_condition h1, bits_bp_count h2, bpBits_eq h2]
  obtain h | h | h : f.rs1.toNat / 8 = 0 ∨ f.rs1.toNat / 8 = 1 ∨ f.rs1.toNat / 8 = 2 := by omega
  all_goals simp [h]

theorem branches_bp {f : BForm} (h : Ready c s) (h1 : f.rs1.toNat / 8 < 3) (h2 : f.rs2.toNat < 4) :
    Branches (.bp c f) c s (encB 0x28 f) (bpTaken f (coreOf c s)) f.imm :=
  branches_of_branchTo h rfl (fun _ => by rw [branchP, bpLegal_of_lt h1 h2]; rfl)

-- JAL and JALR

theorem jal_ok {f : JForm} (h : ¬ RefusedTarget c s ((coreOf c s).pc + 4 * f.imm.signExtend 32).toNat) :
    jal (s.hub.codeLen (coreOf c s)) f (coreOf c s)
      = .ok { (coreOf c s).setS f.rd (((coreOf c s).pc + 4).setWidth 64) with pc := (coreOf c s).pc + 4 * f.imm.signExtend 32 } :=
  if_neg (badTarget_iff.not.mpr h)

theorem jal_refused {f : JForm} (h : RefusedTarget c s ((coreOf c s).pc + 4 * f.imm.signExtend 32).toNat) :
    jal (s.hub.codeLen (coreOf c s)) f (coreOf c s)
      = .exc 0x09 ((coreOf c s).pc + 4 * f.imm.signExtend 32).toNat (coreOf c s) :=
  if_pos (badTarget_iff.mpr h)

theorem jalr_ok {f : IForm} (h : ¬ RefusedTarget c s ((coreOf c s).s f.rs1 + f.imm.signExtend 64).toNat) :
    jalr (s.hub.codeLen (coreOf c s)) f (coreOf c s)
      = .ok { (coreOf c s).setS f.rd (((coreOf c s).pc + 4).setWidth 64) with
          pc := ((coreOf c s).s f.rs1 + f.imm.signExtend 64).setWidth 32 } :=
  if_neg (badTarget_iff.not.mpr h)

theorem jalr_refused {f : IForm} (h : RefusedTarget c s ((coreOf c s).s f.rs1 + f.imm.signExtend 64).toNat) :
    jalr (s.hub.codeLen (coreOf c s)) f (coreOf c s)
      = .exc 0x09 ((coreOf c s).s f.rs1 + f.imm.signExtend 64).toNat (coreOf c s) :=
  if_pos (badTarget_iff.mpr h)

end Sys2Proof.Machine
end

section
/-! The statement on branches (01_architecture.md): O3 proved. -/

namespace Sys2Proof.Machine

open Sys2Proof Claims

-- O3

/-- Settles O3: the rows of the conditional branches and BP end as `branchTo` does, JAL and JALR as their own equations say. -/
theorem branchesGoToTheirTarget : Obligations.BranchesGoToTheirTarget := by
  intro c s h
  refine ⟨fun e he f => ?_, fun f h1 h2 => ?_, fun f => ⟨fun hok => ?_, fun hbad => ?_⟩, fun f => ⟨fun hok => ?_, fun hbad => ?_⟩⟩
  · obtain ⟨op, hrow⟩ := exists_isBranchRow e he
    exact hrow.branches h f
  · have hbp := branches_bp h h1 h2
    rwa [bpTaken_eq h1 h2] at hbp
  · exact retires_of_jump h rfl (jal_ok hok)
  · exact exec_jump_exc h rfl (jal_refused hbad)
  · exact retires_of_jump h rfl (jalr_ok hok)
  · exact exec_jump_exc h rfl (jalr_refused hbad)

end Sys2Proof.Machine
end

section
/-! The statement on the state after a cold reset (02, 03, 22): O59 proved. -/

namespace Sys2Proof.Machine

open Sys2Proof

/-- After a cold reset every field but the cause of the reset reads the reset column of its register table (R57). -/
theorem get_reset_of_key_ne {f : Fld} (hf : f.key ≠ Reg.glbResetCausePorst.key) : State.reset.hub.get f = f.rst := by
  simp [Hub.get, State.reset, tget, tlook, hf.symm]

/-- Settles O59: GLB_RESET_CAUSE.PORST is the one register field that a cold reset lists; every other one named reads its reset value. -/
theorem resetLeavesTheStatedValues : Obligations.ResetLeavesTheStatedValues := by
  refine ⟨wf_rst, rfl, rfl, rfl, rfl, ?_⟩
  have hprt (p : Nat) : State.reset.hub.get (Reg.prtStatusState p) = 0 :=
    get_reset_of_key_ne (by simp only [Fld.key, Reg.prtStatusState, Reg.glbResetCausePorst]; omega)
  have hqueue (q : Nat) : State.reset.hub.get (Reg.qStatusState 0 q) = 0 :=
    get_reset_of_key_ne (by simp only [Fld.key, Reg.qStatusState, Reg.glbResetCausePorst]; omega)
  simp only [hprt, hqueue, implies_true, true_and]
  and_intros
  all_goals rfl

end Sys2Proof.Machine
end

section
/-! SUPPORT. The forecast's operations (02): what a refusal, a failed commit and a drop leave, and what a write from an interface
leaves of the hub. -/

namespace Sys2Proof.Machine

open Sys2Proof Claims

-- Events

theorem Hub.event_get (h : Hub) (f g : Fld) : (h.event f).get g = (h.set f 1).get g := Hub.get_of_regs_eq g (h.event_regs f)

theorem Hub.event_get_same (h : Hub) {f : Fld} (hf : 0 < f.len) : (h.event f).get f = 1 := by
  rw [Hub.event_get, Hub.get_set_same, Nat.mod_eq_of_lt (Nat.one_lt_two_pow hf.ne')]

theorem Hub.event_get_ne (h : Hub) {f g : Fld} (hg : g.key ≠ f.key) : (h.event f).get g = h.get g := by
  rw [Hub.event_get, Hub.get_set_ne _ _ hg]

theorem Hub.event_cfg (h : Hub) (f : Fld) : (h.event f).cfg = h.cfg := (h.event_sameHeld f).cfg

-- A write from an interface

/-- A write discards a lower half held under R5 and nothing else of the hub. -/
theorem State.wroteVia_hub (s : State) (via : Iface) : ∃ l, (s.wroteVia via).hub = { s.hub with halves := l } := by
  unfold State.wroteVia
  split
  · exact ⟨_, rfl⟩
  · exact ⟨_, rfl⟩

@[simp] theorem State.wroteVia_get (s : State) (via : Iface) (f : Fld) : (s.wroteVia via).hub.get f = s.hub.get f := by
  obtain ⟨l, hl⟩ := s.wroteVia_hub via
  rw [hl]; rfl

@[simp] theorem State.wroteVia_cfg (s : State) (via : Iface) : (s.wroteVia via).hub.cfg = s.hub.cfg := by
  obtain ⟨l, hl⟩ := s.wroteVia_hub via
  rw [hl]

theorem State.wroteVia_cfgBusy (s : State) (via : Iface) : (s.wroteVia via).hub.cfgBusy = s.hub.cfgBusy := by
  simp [Hub.cfgBusy, Hub.on]

theorem State.wroteVia_cfgOwner (s : State) (via : Iface) : (s.wroteVia via).hub.cfgOwner = s.hub.cfgOwner := s.wroteVia_get via _

theorem Iface.code_eq_one_iff (via : Iface) : via.code = 1 ↔ via.code.toNat = 1 := by
  rw [← BitVec.toNat_inj]; rfl

theorem Hub.cfgBusy_eq_true_iff {h : Hub} : h.cfgBusy = true ↔ h.get Reg.cfgStatusPhase ≠ 0 := by
  simp [Hub.cfgBusy, Hub.on]

-- A refused write

theorem Hub.cfgRefuse_of_ne {via : Nat} (hv : via ≠ 1) (h : Hub) (off cause : Nat) : h.cfgRefuse via off cause = h := if_neg hv

/-- A refused write leaves every field but those of its record (R56). -/
theorem Hub.cfgRefuse_get_ne (h : Hub) (via off cause : Nat) {g : Fld} (hg : ∀ p ∈ refusedRecord off h.cfgOwner cause, g.key ≠ p.1.key) :
    (h.cfgRefuse via off cause).get g = h.get g := by
  by_cases hv : via = 1
  · subst hv
    rw [Hub.get_of_regs_eq g (h.cfgRefuse_regs off cause), Hub.get_sets_ne _ _ g hg]
  · rw [Hub.cfgRefuse_of_ne hv]

/-- One of PF MMIO shows its record (R56). -/
theorem Hub.cfgRefuse_get_of_mem (h : Hub) {off cause : Nat} {f : Fld} {v : Nat} (hm : (f, v) ∈ refusedRecord off h.cfgOwner cause) :
    (h.cfgRefuse 1 off cause).get f = v % 2 ^ f.len :=
  (Hub.get_of_regs_eq f (h.cfgRefuse_regs off cause)).trans (Hub.get_sets_of_mem (refusedRecord_nodup _ _ _) hm _)

/-- The refusal of a write to a register of 02 is what the statements call Refused. -/
theorem refused_cfgRefuse {off cause : Nat} (hoff : off < 2 ^ 32) (hcause : cause < 2 ^ 8) (via : Iface) (s : State) :
    Refused via off cause s (s.onHub (·.cfgRefuse via.code.toNat off cause)) := by
  have hkeep {g : Fld} (hg : ∀ p ∈ refusedRecord off s.hub.cfgOwner cause, g.key ≠ p.1.key) :=
    s.hub.cfgRefuse_get_ne via.code.toNat off cause hg
  refine ⟨(s.hub.cfgRefuse_sameHeld _ _ _).cfg, rfl, rfl, hkeep ?_, hkeep ?_, hkeep ?_, fun hv => ?_, fun hv => ?_⟩
  · simp only [refusedRecord, List.forall_mem_cons]; decide
  · simp only [refusedRecord, List.forall_mem_cons]; decide
  · simp only [refusedRecord, List.forall_mem_cons]; decide
  · have hshow {f : Fld} {v : Nat} (hm : (f, v) ∈ refusedRecord off s.hub.cfgOwner cause) :
        (s.onHub (·.cfgRefuse via.code.toNat off cause)).hub.get f = v % 2 ^ f.len := by
      rw [State.onHub_hub, hv]; exact s.hub.cfgRefuse_get_of_mem hm
    refine ⟨hshow (v := 1) ?_, (hshow (v := off) ?_).trans (Nat.mod_eq_of_lt hoff), (hshow (v := cause) ?_).trans (Nat.mod_eq_of_lt hcause),
      hshow (v := s.hub.cfgOwner) ?_⟩
    all_goals simp [refusedRecord]
  · rw [State.onHub, Hub.cfgRefuse_of_ne hv]

-- A dropped forecast

theorem Hub.cfgDrop_get (h : Hub) (f : Fld) : h.cfgDrop.get f = (h.set Reg.cfgOwnerOwnerIf 0).get f := rfl

/-- DISCARD releases the forecast (R503). -/
theorem dropped_cfgDrop (s : State) : Dropped s (s.onHub (·.cfgDrop)) :=
  ⟨rfl, (s.hub.cfgDrop_get _).trans (Hub.get_set_same _ _ _), rfl, rfl, (s.hub.cfgDrop_get _).trans (Hub.get_set_ne _ _ (by decide))⟩

/-- Dropped with an event: BREAK and expiry (R40). -/
theorem dropped_cfgDrop_event (s : State) :
    Dropped s (s.onHub (·.cfgDrop.event Reg.cfgEventForecastExpired))
      ∧ (s.onHub (·.cfgDrop.event Reg.cfgEventForecastExpired)).hub.get Reg.cfgEventForecastExpired = 1 := by
  obtain ⟨hcfg, howner, -, -, hepoch⟩ := dropped_cfgDrop s
  exact ⟨⟨(Hub.event_cfg _ _).trans hcfg, (Hub.event_get_ne _ (by decide)).trans howner, rfl, rfl,
    (Hub.event_get_ne _ (by decide)).trans hepoch⟩, Hub.event_get_same _ (by decide)⟩

-- DISCARD, BREAK and expiry by their checks (R503, R40)

variable {h : Hub} {via : Nat}

theorem Hub.cfgDiscard_busy (hb : h.cfgBusy = true) : (h.cfgDiscard via).2 = h.cfgRefuse via 0x100010 0x05 := by
  simp [Hub.cfgDiscard, hb]

theorem Hub.cfgDiscard_unowned (hb : h.cfgBusy = false) (ho : h.cfgOwner = 0) : (h.cfgDiscard via).2 = h := by
  simp [Hub.cfgDiscard, hb, ho]

theorem Hub.cfgDiscard_foreign (hb : h.cfgBusy = false) (ho : h.cfgOwner ≠ 0) (hf : h.cfgOwner ≠ via) :
    (h.cfgDiscard via).2 = h.cfgRefuse via 0x100010 0x02 := by
  simp [Hub.cfgDiscard, hb, ho, hf]

theorem Hub.cfgDiscard_owner (hb : h.cfgBusy = false) (ho : h.cfgOwner ≠ 0) (hv : h.cfgOwner = via) :
    (h.cfgDiscard via).2 = h.cfgDrop := by
  simp [Hub.cfgDiscard, hb, ← hv, ho]

theorem Hub.cfgBreak_busy (hv : via = 1) (hb : h.cfgBusy = true) : h.cfgBreak via = h.cfgRefuse via 0x100018 0x05 := by
  simp [Hub.cfgBreak, hv, hb]

theorem Hub.cfgBreak_idle (hi : via ≠ 1 ∨ (h.cfgBusy = false ∧ h.cfgOwner = 0)) : h.cfgBreak via = h := by
  obtain hv | ⟨hb, ho⟩ := hi
  · exact if_pos hv
  · simp [Hub.cfgBreak, hb, ho]

theorem Hub.cfgBreak_owned (hv : via = 1) (hb : h.cfgBusy = false) (ho : h.cfgOwner ≠ 0) :
    h.cfgBreak via = h.cfgDrop.event Reg.cfgEventForecastExpired := by
  simp [Hub.cfgBreak, hv, hb, ho]

end Sys2Proof.Machine
end

section
/-! The statement on forecasts dropped and loaded (02): O21 proved. -/

namespace Sys2Proof.Machine

open Sys2Proof Claims

theorem State.onHub_congr {s : State} {f g : Hub → Hub} (e : f s.hub = g s.hub) : s.onHub f = s.onHub g := by
  rw [State.onHub, e]; rfl

/-- DISCARD does to the hub, as the write leaves it, what its checks say. -/
theorem exec_discard_eq {via : Iface} {s : State} {f : Hub → Hub}
    (e : ((s.wroteVia via).hub.cfgDiscard via.code.toNat).2 = f (s.wroteVia via).hub) :
    exec (.discard via) s = .next ((s.wroteVia via).onHub f) :=
  congrArg Host.Outcome.next (State.onHub_congr (f := fun h => (h.cfgDiscard via.code.toNat).2) e)

/-- So does BREAK. -/
theorem exec_breakForecast_eq {via : Iface} {s : State} {f : Hub → Hub}
    (e : (s.wroteVia via).hub.cfgBreak via.code.toNat = f (s.wroteVia via).hub) :
    exec (.breakForecast via) s = .next ((s.wroteVia via).onHub f) :=
  congrArg Host.Outcome.next (State.onHub_congr (f := (·.cfgBreak via.code.toNat)) e)

theorem exec_forecastIdleExpiry_owned {s : State} (hb : s.hub.cfgBusy = false) (ho : s.hub.cfgOwner ≠ 0) :
    exec .forecastIdleExpiry s = .next (s.onHub (·.cfgDrop.event Reg.cfgEventForecastExpired)) :=
  congrArg Host.Outcome.next (State.onHub_congr (if_neg (by simp [hb, ho])))

theorem exec_forecastIdleExpiry_kept {s : State} (hk : s.hub.cfgOwner = 0 ∨ s.hub.cfgBusy = true) :
    exec .forecastIdleExpiry s = .next s :=
  congrArg Host.Outcome.next (State.onHub_congr (g := id) (if_pos hk))

theorem forecastsAreDroppedByOwnerBreakOrExpiry : ForecastsAreDroppedByOwnerBreakOrExpiry := by
  intro via s u busy owner
  have hbusy : u.hub.cfgBusy = true ↔ busy := by simp [Hub.cfgBusy_eq_true_iff, u, busy]
  have hidle : u.hub.cfgBusy = false ↔ ¬ busy := by rw [← hbusy, Bool.not_eq_true]
  have howner : u.hub.cfgOwner = owner := s.wroteVia_cfgOwner via
  have hsame : u.hub.cfgBusy = s.hub.cfgBusy := s.wroteVia_cfgBusy via
  simp only [Iface.code_eq_one_iff, ne_eq]
  rw [← howner, ← hidle, ← hbusy]
  refine ⟨fun hb => ?_, fun hb ho => ?_, fun hb ho hf => ?_, fun hb ho hv => ?_, fun hv hb => ?_, fun hv hb ho => ?_, fun hi => ?_,
    fun hb ho => ?_, fun hk => ?_⟩
  · exact ⟨_, exec_discard_eq (Hub.cfgDiscard_busy hb), refused_cfgRefuse (by decide) (by decide) via u⟩
  · exact exec_discard_eq (f := id) (Hub.cfgDiscard_unowned hb ho)
  · exact ⟨_, exec_discard_eq (Hub.cfgDiscard_foreign hb ho hf), refused_cfgRefuse (by decide) (by decide) via u⟩
  · exact ⟨_, exec_discard_eq (Hub.cfgDiscard_owner hb ho hv), dropped_cfgDrop u⟩
  · exact ⟨_, exec_breakForecast_eq (Hub.cfgBreak_busy hv hb), refused_cfgRefuse (by decide) (by decide) via u⟩
  · exact ⟨_, exec_breakForecast_eq (Hub.cfgBreak_owned hv hb ho), dropped_cfgDrop_event u⟩
  · exact exec_breakForecast_eq (f := id) (Hub.cfgBreak_idle hi)
  · exact ⟨_, exec_forecastIdleExpiry_owned (hsame ▸ hb) (ne_of_eq_of_ne howner.symm ho), dropped_cfgDrop_event s⟩
  · exact exec_forecastIdleExpiry_kept (hk.symm.imp howner.symm.trans hsame.symm.trans)

-- Forecast sets (R43)

theorem exec_fsetLoad (s : State) : exec .fsetLoad s = .next ((s.wroteBy 0).fsetLoad 1) := rfl

/-- The read of a set's header. -/
def State.fsetHead (s : State) : Ret := s.hubRead .pf (s.hub.get Reg.cfgFsetAddrHpa) 16 false

/-- The number of entries that the header gives. -/
def State.fsetLen (s : State) : Nat := bits s.fsetHead.v 32 32

/-- The read of the whole set. -/
def State.fsetAll (s : State) : Ret := s.fsetHead.s.hubRead .pf (s.hub.get Reg.cfgFsetAddrHpa) (16 + 16 * s.fsetLen) false

section
variable {s : State} {via : Nat}

theorem State.fsetLoad_misaligned (ha : s.hub.get Reg.cfgFsetAddrHpa % 16 ≠ 0) : s.fsetLoad via = s.onHub (·.fsetResult 0x0A 0) :=
  if_pos ha

variable (ha : s.hub.get Reg.cfgFsetAddrHpa % 16 = 0)
include ha

theorem State.fsetLoad_headUnread (hr : s.fsetHead.st ≠ 0 ∨ s.fsetHead.bad ≠ 0) :
    s.fsetLoad via = s.fsetHead.s.onHub (·.fsetResult 0x0B 0) :=
  (if_neg (not_not.2 ha)).trans (if_pos hr)

variable (hh : ¬ (s.fsetHead.st ≠ 0 ∨ s.fsetHead.bad ≠ 0))
include hh

theorem State.fsetLoad_noLength (hn : s.fsetLen = 0 ∨ 65535 < s.fsetLen) : s.fsetLoad via = s.fsetHead.s.onHub (·.fsetResult 0x0A 0) :=
  (if_neg (not_not.2 ha)).trans ((if_neg hh).trans (if_pos hn))

variable (hn : ¬ (s.fsetLen = 0 ∨ 65535 < s.fsetLen))
include hn

theorem State.fsetLoad_setUnread (hr : s.fsetAll.st ≠ 0 ∨ s.fsetAll.bad ≠ 0) :
    s.fsetLoad via = s.fsetAll.s.onHub (·.fsetResult 0x0B 0) :=
  (if_neg (not_not.2 ha)).trans ((if_neg hh).trans ((if_neg hn).trans (if_pos hr)))

variable (hr : ¬ (s.fsetAll.st ≠ 0 ∨ s.fsetAll.bad ≠ 0))
include hr

theorem State.fsetLoad_noSet (hp : s.fsetAll.s.hub.fsetParse s.fsetAll.v = none) :
    s.fsetLoad via = s.fsetAll.s.onHub (·.fsetResult 0x0A 0) := by
  refine (if_neg (not_not.2 ha)).trans ((if_neg hh).trans ((if_neg hn).trans ((if_neg hr).trans ?_)))
  split
  · rfl
  · next hl => exact absurd (hp.symm.trans hl) nofun

theorem State.fsetLoad_set {l : List FsetEntry} (hp : s.fsetAll.s.hub.fsetParse s.fsetAll.v = some l) :
    s.fsetLoad via = (s.fsetAll.s.fsetApply via l).s.onHub
      (·.fsetResult (s.fsetAll.s.fsetApply via l).cause (s.fsetAll.s.fsetApply via l).count) := by
  refine (if_neg (not_not.2 ha)).trans ((if_neg hh).trans ((if_neg hn).trans ((if_neg hr).trans ?_)))
  split
  · next hl => exact absurd (hp.symm.trans hl) nofun
  · next hl => rw [Option.some.inj (hl.symm.trans hp)]; rfl

end

theorem forecastSetsAreLoadedEntryByEntry : ForecastSetsAreLoadedEntryByEntry := by
  intro s u a reports head n all
  refine ⟨fun ha => ?_, fun ha hr => ?_, fun ha hst hbad => ?_⟩
  · exact congrArg Host.Outcome.next (State.fsetLoad_misaligned (s := u) ha)
  · exact congrArg Host.Outcome.next (State.fsetLoad_headUnread (s := u) ha hr)
  · have hh : ¬ (u.fsetHead.st ≠ 0 ∨ u.fsetHead.bad ≠ 0) := not_or.2 ⟨not_not.2 hst, not_not.2 hbad⟩
    refine ⟨fun hn => ?_, fun h0 h1 hr => ?_, fun h0 h1 hst' hbad' => ?_⟩
    · exact congrArg Host.Outcome.next (State.fsetLoad_noLength (s := u) ha hh hn)
    · have hn : ¬ (u.fsetLen = 0 ∨ 65535 < u.fsetLen) := by change ¬ (n = 0 ∨ 65535 < n); omega
      exact congrArg Host.Outcome.next (State.fsetLoad_setUnread (s := u) ha hh hn hr)
    · have hn : ¬ (u.fsetLen = 0 ∨ 65535 < u.fsetLen) := by change ¬ (n = 0 ∨ 65535 < n); omega
      have hr : ¬ (u.fsetAll.st ≠ 0 ∨ u.fsetAll.bad ≠ 0) := not_or.2 ⟨not_not.2 hst', not_not.2 hbad'⟩
      exact ⟨fun hp => congrArg Host.Outcome.next (State.fsetLoad_noSet (s := u) ha hh hn hr hp),
        fun l hp => congrArg Host.Outcome.next (State.fsetLoad_set (s := u) ha hh hn hr hp)⟩

/-- Settles O21: DISCARD, BREAK and expiry by the checks of their writes, a load of a forecast set by the reads it makes. -/
theorem forecastsAreDroppedAndLoaded : Obligations.ForecastsAreDroppedAndLoaded :=
  ⟨forecastsAreDroppedByOwnerBreakOrExpiry, forecastSetsAreLoadedEntryByEntry⟩

end Sys2Proof.Machine
end

section
/-! SUPPORT. A commit by its checks (R44, R47, R503): what a failed one and one in prepare leave of the hub. -/

namespace Sys2Proof.Machine

open Sys2Proof Claims

-- The configuration to come does not depend on the halves held under R5

theorem Hub.unstage_halves (h : Hub) (l : List (Nat × Nat × Nat)) (x : Nat × Nat) :
    ({ h with halves := l }).unstage x = { h.unstage x with halves := l } := by
  unfold Hub.unstage
  cases fldOf x.1 <;> rfl

theorem Hub.future_halves (h : Hub) (l : List (Nat × Nat × Nat)) : ({ h with halves := l }).future = { h.future with halves := l } := by
  suffices hfold : ∀ (t : Tab Nat) (k : Hub), t.foldl Hub.unstage { k with halves := l } = { t.foldl Hub.unstage k with halves := l } from
    hfold h.cfg.staged h
  intro t
  induction t with
  | nil => exact fun _ => rfl
  | cons x t ih => intro k; rw [List.foldl_cons, Hub.unstage_halves, ih, List.foldl_cons]

theorem Hub.validate_halves (h : Hub) (l : List (Nat × Nat × Nat)) : ({ h with halves := l }).validate = h.validate := by
  unfold Hub.validate
  rw [Hub.future_halves]
  rfl

theorem Hub.gatesOf_future_halves (h : Hub) (l : List (Nat × Nat × Nat)) :
    ({ h with halves := l }).gatesOf ({ h with halves := l }).future = h.gatesOf h.future := by
  rw [Hub.future_halves]; rfl

theorem State.wroteVia_validate (s : State) (via : Iface) : (s.wroteVia via).hub.validate = s.hub.validate := by
  obtain ⟨l, hl⟩ := s.wroteVia_hub via
  rw [hl, Hub.validate_halves]

theorem State.wroteVia_gates (s : State) (via : Iface) :
    (s.wroteVia via).hub.gatesOf (s.wroteVia via).hub.future = s.hub.gatesOf s.hub.future := by
  obtain ⟨l, hl⟩ := s.wroteVia_hub via
  rw [hl, Hub.gatesOf_future_halves]

theorem State.wroteVia_sent (s : State) (via : Iface) : (s.wroteVia via).hub.sent = s.hub.sent := by
  obtain ⟨l, hl⟩ := s.wroteVia_hub via
  rw [hl]

theorem State.wroteVia_dies (s : State) (via : Iface) : (s.wroteVia via).hub.dies = s.hub.dies := by simp [Hub.dies, Hub.on]

-- A failed commit

/-- What CFG_STATUS shows of a result (R503). -/
def resultRecord (cause item : Nat) : List (Fld × Nat) :=
  [(Reg.cfgStatusLastOk, b2n (decide (cause = 0))), (Reg.cfgStatusLastCause, cause), (Reg.cfgStatusLastItem, item)]

theorem resultRecord_nodup (cause item : Nat) : ((resultRecord cause item).map (·.1.key)).Nodup := by
  simp only [resultRecord, List.map_cons, List.map_nil]
  decide

theorem Hub.cfgFail_get (h : Hub) (cause item : Nat) {g : Fld} (hg : g.key ≠ Reg.cfgEventCommitFailed.key) :
    (h.cfgFail cause item).get g = (h.sets (resultRecord cause item)).get g := Hub.event_get_ne _ hg

/-- A failed commit is what the statements call Failed: CFG_STATUS shows cause and item, and the forecast is kept (R503). -/
theorem failed_cfgFail {cause item : Nat} (h0 : cause ≠ 0) (hcause : cause < 2 ^ 8) (hitem : item < 2 ^ 16) (s : State) :
    Failed cause item s (s.onHub (·.cfgFail cause item)) := by
  have hshow {f : Fld} {v : Nat} (hm : (f, v) ∈ resultRecord cause item) (hf : f.key ≠ Reg.cfgEventCommitFailed.key) :
      (s.onHub (·.cfgFail cause item)).hub.get f = v % 2 ^ f.len :=
    (Hub.cfgFail_get _ _ _ hf).trans (Hub.get_sets_of_mem (resultRecord_nodup _ _) hm _)
  have hkeep {g : Fld} (he : g.key ≠ Reg.cfgEventCommitFailed.key) (hg : ∀ p ∈ resultRecord cause item, g.key ≠ p.1.key) :
      (s.onHub (·.cfgFail cause item)).hub.get g = s.hub.get g :=
    (Hub.cfgFail_get _ _ _ he).trans (Hub.get_sets_ne _ _ g hg)
  have hcfg : (s.hub.cfgFail cause item).cfg = s.hub.cfg := (Hub.event_cfg _ _).trans (Hub.sets_sameHeld _ _).cfg
  refine ⟨hcfg, rfl, rfl, hshow (v := 0) ?_ (by decide), (hshow (v := cause) ?_ (by decide)).trans (Nat.mod_eq_of_lt hcause),
    (hshow (v := item) ?_ (by decide)).trans (Nat.mod_eq_of_lt hitem), Hub.event_get_same _ (by decide), hkeep (by decide) ?_,
    hkeep (by decide) ?_, hkeep (by decide) ?_, hkeep (by decide) ?_⟩
  iterate 3 simp [resultRecord, h0, b2n]
  all_goals simp only [resultRecord, List.forall_mem_cons]; decide

-- The checks of a commit, in order (R503)

theorem Hub.cfgClosed_eq_true_iff {h : Hub} : h.cfgClosed = true ↔ h.whiteout = true ∨ (h.life ≠ 1 ∧ h.life ≠ 2) := by
  simp [Hub.cfgClosed]

theorem Hub.validate_fits (h : Hub) : h.validate.1 < 2 ^ 8 ∧ h.validate.2 < 2 ^ 16 := by
  have hitem (n : Hub) : h.brokenItem n < 2 ^ 16 := by
    unfold Hub.brokenItem
    extract_lets ps
    split_ifs <;> decide
  unfold Hub.validate
  extract_lets n
  split_ifs
  · exact ⟨by decide, by decide⟩
  · exact ⟨(by decide : 4 < 2 ^ 8), hitem n⟩
  · exact ⟨by decide, by decide⟩
  · exact ⟨by decide, by decide⟩

section
variable {h : Hub} {via w : Nat}

theorem Hub.cfgCommit_of_refused {c : Nat} (hc : h.commitCause via w = (c, true)) : (h.cfgCommit via w).2 = h.cfgRefuse via 0x100010 c := by
  simp [Hub.cfgCommit, hc]

theorem Hub.cfgCommit_of_failed {c : Nat} (hc : h.commitCause via w = (c, false)) (h0 : c ≠ 0) : (h.cfgCommit via w).2 = h.cfgFail c 0 := by
  simp [Hub.cfgCommit, hc, h0]

theorem Hub.cfgCommit_of_illegal (hc : h.commitCause via w = (0, false)) (hv : h.validate.1 ≠ 0) :
    (h.cfgCommit via w).2 = h.cfgFail h.validate.1 h.validate.2 := by
  simp [Hub.cfgCommit, hc, hv]

theorem Hub.cfgCommit_of_legal (hc : h.commitCause via w = (0, false)) (hv : h.validate.1 = 0) :
    (h.cfgCommit via w).2 = if bitAt w 32 then h.cfgResult 0 0 else h.prepare via := by
  by_cases hb : bitAt w 32 <;> simp [Hub.cfgCommit, hc, hv, hb]

theorem Hub.commitCause_busy (hb : h.cfgBusy = true) : h.commitCause via w = (0x05, true) := if_pos hb

variable (hb : ¬ h.cfgBusy = true)
include hb

theorem Hub.commitCause_closed (hc : h.cfgClosed = true) : h.commitCause via w = (0x09, false) :=
  (if_neg hb).trans (if_pos hc)

variable (hc : ¬ h.cfgClosed = true)
include hc

theorem Hub.commitCause_foreign (hf : h.cfgOwner ≠ 0 ∧ h.cfgOwner ≠ via) : h.commitCause via w = (0x02, true) :=
  (if_neg hb).trans ((if_neg hc).trans (if_pos hf))

variable (hf : ¬ (h.cfgOwner ≠ 0 ∧ h.cfgOwner ≠ via))
include hf

theorem Hub.commitCause_late (he : bits w 0 32 ≠ h.get Reg.cfgEpochEpoch) : h.commitCause via w = (0x01, false) :=
  (if_neg hb).trans ((if_neg hc).trans ((if_neg hf).trans (if_pos he)))

variable (he : ¬ bits w 0 32 ≠ h.get Reg.cfgEpochEpoch)
include he

theorem Hub.commitCause_empty (hs : h.cfg.staged = []) : h.commitCause via w = (0x03, false) :=
  (if_neg hb).trans ((if_neg hc).trans ((if_neg hf).trans ((if_neg he).trans (if_pos (by simp [hs])))))

theorem Hub.commitCause_passed (hs : h.cfg.staged ≠ []) : h.commitCause via w = (0, false) :=
  (if_neg hb).trans ((if_neg hc).trans ((if_neg hf).trans ((if_neg he).trans (if_neg (by simpa using hs)))))

end

-- A commit in prepare (R45)

/-- The forecast, the epoch and what was sent are as before: what closing gates leaves. -/
structure Hub.SameForecast (h k : Hub) : Prop where
  cfg : k.cfg = h.cfg
  sent : k.sent = h.sent
  epoch : k.get Reg.cfgEpochEpoch = h.get Reg.cfgEpochEpoch

theorem Hub.SameForecast.rfl {h : Hub} : h.SameForecast h := ⟨.refl _, .refl _, .refl _⟩

theorem Hub.SameForecast.trans {h k l : Hub} (a : h.SameForecast k) (b : k.SameForecast l) : h.SameForecast l :=
  ⟨b.cfg.trans a.cfg, b.sent.trans a.sent, b.epoch.trans a.epoch⟩

/-- A stack enters self-refresh when its gate closes (Table 11). -/
def Hub.closeGate (k : Nat) (h : Hub) : Hub :=
  if 4096 ≤ k ∧ h.get (Reg.hbmStackInfoState (k - 4096)) = 2 then h.set (Reg.hbmStackInfoState (k - 4096)) 4 else h

theorem Hub.closeGate_sameForecast (k : Nat) (h : Hub) : h.SameForecast (Hub.closeGate k h) := by
  unfold Hub.closeGate
  split_ifs
  · refine ⟨rfl, rfl, Hub.get_set_ne _ _ ?_⟩
    simp only [Fld.key, Reg.cfgEpochEpoch, Reg.hbmStackInfoState]
    omega
  · exact .rfl

/-- A commit in prepare: the gates close, and the secondary of a twin is asked (R45). -/
theorem Hub.prepare_eq (h : Hub) (via : Nat) : h.prepare via =
    (let k := overList Hub.closeGate (h.gatesOf h.future) h
     let k : Hub := { k.set Reg.cfgStatusPhase 2 with cfg := { k.cfg with commit := some ⟨via, decide (h.dies = 2), h.gatesOf h.future⟩ } }
     if decide (h.dies = 2) then k.send (.bridge 1 (k.get Reg.cfgEpochEpoch)) else k) := rfl

theorem Hub.prepare_spec (h : Hub) (via : Nat) :
    (h.prepare via).get Reg.cfgStatusPhase = 2
      ∧ (h.prepare via).cfg = { h.cfg with commit := some ⟨via, decide (h.dies = 2), h.gatesOf h.future⟩ }
      ∧ (h.prepare via).get Reg.cfgEpochEpoch = h.get Reg.cfgEpochEpoch
      ∧ (h.dies = 2 → (h.prepare via).sent = .bridge 1 (h.get Reg.cfgEpochEpoch) :: h.sent) := by
  rw [Hub.prepare_eq]
  obtain ⟨hcfg, hsent, hepoch⟩ : h.SameForecast (overList Hub.closeGate (h.gatesOf h.future) h) :=
    overList_rel (fun _ => .rfl) .trans Hub.closeGate_sameForecast _ h
  generalize overList Hub.closeGate (h.gatesOf h.future) h = k at hcfg hsent hepoch
  have hphase : (k.set Reg.cfgStatusPhase 2).get Reg.cfgStatusPhase = 2 := Hub.get_set_same _ _ _
  have hset : (k.set Reg.cfgStatusPhase 2).get Reg.cfgEpochEpoch = h.get Reg.cfgEpochEpoch :=
    (Hub.get_set_ne _ _ (by decide)).trans hepoch
  dsimp only
  split_ifs with hd
  · exact ⟨hphase, by simp [hcfg], hset, fun _ => congrArg₂ (fun e l => Sent.bridge 1 e :: l) hset hsent⟩
  · exact ⟨hphase, by simp [hcfg], hset, fun htwin => absurd htwin (by simpa using hd)⟩

end Sys2Proof.Machine
end

section
/-! The statement on the checks of a commit (02): O19 proved. -/

namespace Sys2Proof.Machine

open Sys2Proof Claims

/-- The command is a write of CFG_COMMIT that carries `x`, and nothing else. -/
def CommitsWith (i : Instr) (via : Iface) (s : State) (x : Nat) : Prop :=
  exec i s = .next ((s.wroteVia via).onHub (fun h => (h.cfgCommit via.code.toNat x).2))

theorem CommitsWith.exec_eq {i : Instr} {via : Iface} {s : State} {x : Nat} (hi : CommitsWith i via s x) {f : Hub → Hub}
    (e : ((s.wroteVia via).hub.cfgCommit via.code.toNat x).2 = f (s.wroteVia via).hub) :
    exec i s = .next ((s.wroteVia via).onHub f) :=
  hi.trans (congrArg Host.Outcome.next (State.onHub_congr e))

theorem commitsWith_commit (via : Iface) (w : BitVec 64) (s : State) : CommitsWith (.commit via w) via s (putBits w.toNat 32 1 0) := rfl
theorem commitsWith_validateOnly (via : Iface) (w : BitVec 64) (s : State) :
    CommitsWith (.validateOnly via w) via s (putBits w.toNat 32 1 1) := rfl

/-- VALIDATE_ONLY lies above EXPECT_EPOCH. -/
theorem bits_epoch_putBits (w b : Nat) : bits (putBits w 32 1 b) 0 32 = w % 2 ^ 32 := by
  simp only [bits, putBits]
  omega

theorem bitAt_putBits_validateOnly (w b : Nat) : bitAt (putBits w 32 1 b) 32 = decide (b % 2 = 1) := by
  simp only [bitAt, putBits]
  congr 2
  omega

/-- Settles O19: the write is `cfgCommit` of its word, whose checks come in the order of R503; the first that fails decides what is left. -/
theorem commitsAreCheckedInOrder : Obligations.CommitsAreCheckedInOrder := by
  intro via w s u busy closed owner foreign late v i hi
  have hbusy : u.hub.cfgBusy = true ↔ busy := by simp [Hub.cfgBusy_eq_true_iff, u, busy]
  have hclosed : u.hub.cfgClosed = true ↔ closed := by simp [Hub.cfgClosed_eq_true_iff, Hub.whiteout, Hub.life, Hub.on, u, closed]
  have hforeign : (u.hub.cfgOwner ≠ 0 ∧ u.hub.cfgOwner ≠ via.code.toNat) ↔ foreign := by rw [s.wroteVia_cfgOwner via]; rfl
  have hstaged : u.hub.cfg.staged = s.hub.cfg.staged := by rw [s.wroteVia_cfg via]
  have hvalid : u.hub.validate = v := s.wroteVia_validate via
  have hlate {x : Nat} (hx : bits x 0 32 = w.toNat % 2 ^ 32) : bits x 0 32 ≠ u.hub.get Reg.cfgEpochEpoch ↔ late := by
    rw [hx, s.wroteVia_get via]
  have hpassed {x : Nat} (hx : bits x 0 32 = w.toNat % 2 ^ 32) (hb : ¬ busy) (hc : ¬ closed) (hf : ¬ foreign) (hl : ¬ late)
      (hs : s.hub.cfg.staged ≠ []) : u.hub.commitCause via.code.toNat x = (0, false) :=
    Hub.commitCause_passed (mt hbusy.1 hb) (mt hclosed.1 hc) (mt hforeign.1 hf) (mt (hlate hx).1 hl) (hstaged ▸ hs)
  obtain ⟨x, hi', hx⟩ : ∃ x, CommitsWith i via s x ∧ bits x 0 32 = w.toNat % 2 ^ 32 := by
    simp only [List.mem_cons, List.not_mem_nil, or_false] at hi
    obtain rfl | rfl := hi
    · exact ⟨_, commitsWith_commit via w s, bits_epoch_putBits _ _⟩
    · exact ⟨_, commitsWith_validateOnly via w s, bits_epoch_putBits _ _⟩
  refine ⟨fun hb => ?_, fun hb hc => ?_, fun hb hc hf => ?_, fun hb hc hf hl => ?_, fun hb hc hf hl hs => ?_, fun hb hc hf hl hs =>
    ⟨fun hv => ?_, fun hv hval => ?_, fun hv hcom => ?_⟩⟩
  · exact ⟨_, hi'.exec_eq (Hub.cfgCommit_of_refused (Hub.commitCause_busy (hbusy.2 hb))), refused_cfgRefuse (by decide) (by decide) via u⟩
  · have hcause := Hub.commitCause_closed (via := via.code.toNat) (w := x) (mt hbusy.1 hb) (hclosed.2 hc)
    exact ⟨_, hi'.exec_eq (Hub.cfgCommit_of_failed hcause (by decide)), failed_cfgFail (by decide) (by decide) (by decide) u⟩
  · have hcause := Hub.commitCause_foreign (w := x) (mt hbusy.1 hb) (mt hclosed.1 hc) (hforeign.2 hf)
    exact ⟨_, hi'.exec_eq (Hub.cfgCommit_of_refused hcause), refused_cfgRefuse (by decide) (by decide) via u⟩
  · have hcause := Hub.commitCause_late (mt hbusy.1 hb) (mt hclosed.1 hc) (mt hforeign.1 hf) ((hlate hx).2 hl)
    exact ⟨_, hi'.exec_eq (Hub.cfgCommit_of_failed hcause (by decide)), failed_cfgFail (by decide) (by decide) (by decide) u⟩
  · have hcause := Hub.commitCause_empty (mt hbusy.1 hb) (mt hclosed.1 hc) (mt hforeign.1 hf) (mt (hlate hx).1 hl) (hstaged.trans hs)
    exact ⟨_, hi'.exec_eq (Hub.cfgCommit_of_failed hcause (by decide)), failed_cfgFail (by decide) (by decide) (by decide) u⟩
  · rw [← hvalid] at hv ⊢
    obtain ⟨hcause, hitem⟩ := u.hub.validate_fits
    exact ⟨_, hi'.exec_eq (f := fun h => h.cfgFail u.hub.validate.1 u.hub.validate.2) (Hub.cfgCommit_of_illegal (hpassed hx hb hc hf hl hs) hv),
      failed_cfgFail hv hcause hitem u⟩
  · subst hval
    refine (commitsWith_validateOnly via w s).exec_eq (f := (·.cfgResult 0 0)) ?_
    rw [Hub.cfgCommit_of_legal (hpassed (bits_epoch_putBits _ _) hb hc hf hl hs) (hvalid ▸ hv), bitAt_putBits_validateOnly]
    rfl
  · subst hcom
    have hprep : (u.hub.cfgCommit via.code.toNat (putBits w.toNat 32 1 0)).2 = u.hub.prepare via.code.toNat := by
      rw [Hub.cfgCommit_of_legal (hpassed (bits_epoch_putBits _ _) hb hc hf hl hs) (hvalid ▸ hv), bitAt_putBits_validateOnly]
      rfl
    have hdies : u.hub.dies = s.hub.dies := s.wroteVia_dies via
    have hgates : u.hub.gatesOf u.hub.future = s.hub.gatesOf s.hub.future := s.wroteVia_gates via
    have hepoch : u.hub.get Reg.cfgEpochEpoch = s.hub.get Reg.cfgEpochEpoch := s.wroteVia_get via _
    obtain ⟨hphase, hcfg, hep, hsent⟩ := u.hub.prepare_spec via.code.toNat
    rw [hdies, hgates] at hcfg
    rw [hdies, hepoch, s.wroteVia_sent via] at hsent
    exact ⟨_, (commitsWith_commit via w s).exec_eq (f := (·.prepare via.code.toNat)) hprep, hphase, (congrArg Cfg.staged hcfg).trans hstaged,
      s.wroteVia_mem via, s.wroteVia_pending via, hep.trans hepoch, congrArg Cfg.commit hcfg, hsent⟩

end Sys2Proof.Machine
end

section
/-! The statement on host accesses, completions and function resets (02, 15): O46 refuted. -/

namespace Sys2Proof.Machine

open Sys2Proof Claims

-- A BAR2 read of no byte (R348)

theorem exec_bar2Read (off : BitVec 40) (len : BitVec 13) (s : State) : exec (.bar2Read off len) s = execBar2Read off len s := rfl

/-- A read that no check refuses and no regulator holds back is carried out (R348, R322). -/
theorem exec_bar2Read_admitted {s : State} {off : BitVec 40} (hmse : s.hub.get (Pci.mse 0) ≠ 0) (hcause : s.hub.bar2Cause off.toNat false = 0)
    (hfree : s.hub.get (Reg.qosPortRegEn hostPort) = 0) (hheld : (s.hub.qosPort hostPort).held = []) (len : BitVec 13) :
    exec (.bar2Read off len) s = .next (s.bar2Rd off.toNat len.toNat) := by
  simp [exec_bar2Read, execBar2Read, Hub.on, hmse, hcause, Hub.admitReq, hfree, hheld]

/-- The memory model's poison bits of an empty range within a sector are those of the sector it stands in. -/
theorem badBits_zero (m : Memory) {a : Nat} (ha : a % 32 ≠ 0) : m.badBits a 0 = b2n (kmem m.poison (a / 32)) := by
  have hone : (a % 32 + 0 + 31) / 32 = 1 := by omega
  simp [Memory.badBits, sectorsOf, hone]

/-- Window 0 of BAR2 maps floe memory, whose first sector is poisoned. -/
def poisonedWindow : State where
  hub := State.reset.hub.sets [(Pci.mse 0, 1), (Reg.hstAttV 0, 1), (Reg.hstAttHpa 0, 0x300000000000 / 2 ^ 26)]
  mem := Memory.rst.mark (0x300000000000 / 32) true
  pending := []

theorem poisonedWindow_readable :
    poisonedWindow.hub.get (Pci.mse 0) = 1 ∧ poisonedWindow.hub.bar2Cause 4 false = 0
      ∧ poisonedWindow.hub.get (Reg.qosPortRegEn hostPort) = 0 ∧ (poisonedWindow.hub.qosPort hostPort).held = []
      ∧ poisonedWindow.hub.get (Reg.hstAttHpa 0) * 2 ^ 26 + 4 = 0x300000000004 ∧ InFloe poisonedWindow.hub 0x300000000004 0 := by
  unfold InFloe; decide +kernel

theorem poisonedWindow_badBits : poisonedWindow.mem.badBits 0x300000000004 0 = 1 := by
  rw [badBits_zero _ (by decide)]; decide

/-- The read of no byte at byte 4 of the window completes with nothing, and no poison. -/
theorem bar2Rd_poisonedWindow_sent : (poisonedWindow.bar2Rd 4 0).hub.sent.head? = some (.bar2Cpl 0 0 0 false) := by
  decide +kernel

/-- Refutes O46: where every register lies within its width and memory is canonical, a BAR2 read of length 0 at byte 4 of a poisoned sector
of floe memory completes without poison, since it reads no byte; the statement has it poisoned, as `badBits` of an empty range counts the
sector that the range begins in. -/
theorem not_hostAccessesCompletionsAndFunctionResets : ¬ Obligations.HostAccessesCompletionsAndFunctionResets := by
  unfold Obligations.HostAccessesCompletionsAndFunctionResets
  intro h
  obtain ⟨hmse, hcause, hfree, hheld, haddr, hfloe⟩ := poisonedWindow_readable
  obtain ⟨-, -, -, -, -, -, hread, -⟩ := h 4 0 [] 0 0 0 0 0 poisonedWindow ⟨0, 0, 0, .fetch 0, 0⟩ 0 0
    ⟨0, 0, none, none, false, [], false, false, false, [], false⟩ 0 0 0 ⟨⟨0, 0, 0, 0⟩, 0, 0, 0, 0, [], [], none, false, 0, 0⟩
  have hoff : (4 : BitVec 40).toNat = 4 := by decide
  have hlen : (0 : BitVec 13).toNat = 0 := by decide
  have hwin : 4 / 2 ^ 26 = 0 := by norm_num
  have hrest : 4 % 2 ^ 26 = 4 := by norm_num
  rw [hoff, hlen, hwin, hrest, haddr, poisonedWindow_badBits] at hread
  obtain ⟨t, hexec, -, hsent⟩ := hread hmse hcause ⟨hfree, hheld⟩ hfloe
  have hmse0 : poisonedWindow.hub.get (Pci.mse 0) ≠ 0 := by rw [hmse]; decide
  have hcause4 : poisonedWindow.hub.bar2Cause (4 : BitVec 40).toNat false = 0 := by rw [hoff, hcause]
  have hadmit := exec_bar2Read_admitted hmse0 hcause4 hfree hheld 0
  rw [hoff, hlen] at hadmit
  have ht : poisonedWindow.bar2Rd 4 0 = t := Host.Outcome.next.inj (hadmit.symm.trans hexec)
  have hpoison := bar2Rd_poisonedWindow_sent.symm.trans (ht ▸ hsent)
  simp at hpoison

end Sys2Proof.Machine
end

section
/-! SUPPORT. A report of an error leaves the start-up state: messages, interrupts, emergencies, events and records (15, 19, 22). -/

namespace Sys2Proof.Machine

open Sys2Proof

@[simp] theorem Hub.msix_boot (h : Hub) (fn e : Nat) : (h.msix fn e).boot = h.boot := by
  unfold Hub.msix
  split_ifs <;> rfl

@[simp] theorem Hub.emcy_boot (h : Hub) (code mor : Nat) : (h.emcy code mor).boot = h.boot := by
  unfold Hub.emcy
  split_ifs <;> rfl

@[simp] theorem Hub.event_boot (h : Hub) (f : Fld) : (h.event f).boot = h.boot := by
  unfold Hub.event
  extract_lets k
  split_ifs
  exacts [k.msix_boot _ _, rfl]

@[simp] theorem Hub.raiseVf_boot (h : Hub) (p e : Nat) : (h.raiseVf p e).boot = h.boot :=
  overList_rel (R := fun h k : Hub => k.boot = h.boot) (fun _ => rfl) (fun a b => b.trans a) (fun v k => k.msix_boot v e) _ h

@[simp] theorem Hub.aerUnc_boot (h : Hub) (fn bit : Nat) : (h.aerUnc fn bit).boot = h.boot := by
  unfold Hub.aerUnc
  extract_lets k
  split_ifs <;> rfl

@[simp] theorem Hub.aerCor_boot (h : Hub) (fn bit : Nat) : (h.aerCor fn bit).boot = h.boot := by
  unfold Hub.aerCor
  extract_lets k
  split_ifs <;> rfl

@[simp] theorem Hub.announce_boot (h : Hub) (x : RecIn) : (h.announce x).boot = h.boot := by
  unfold Hub.announce
  extract_lets k l m
  have hk : k.boot = h.boot := by
    unfold k
    split_ifs <;> simp
  have hl : l.boot = k.boot := by
    unfold l
    split_ifs <;> simp
  have hm : m.boot = l.boot := by
    unfold m
    split_ifs <;> simp
  rw [← hk, ← hl, ← hm]
  split_ifs <;> simp

@[simp] theorem Hub.record_boot (h : Hub) (x : RecIn) : (h.record x).boot = h.boot := by
  unfold Hub.record
  extract_lets t k
  have hk : k.boot = h.boot := rfl
  have hput (j : Nat) : ((k.morPut x t j).announce x).boot = h.boot := (Hub.announce_boot _ x).trans hk
  have hlost : (((k.count Reg.morLostCount 1).event Reg.morEventLost).announce x).boot = h.boot := by simp [hk]
  split
  · split_ifs
    · exact hk
    · split
      exacts [hput _, hlost]
  · split
    exacts [hput _, hlost]

end Sys2Proof.Machine
end

section
/-! SUPPORT. What a reset of the hub leaves (03, Table 9): the registers it keeps, the cause it shows, and all that it clears. -/

namespace Sys2Proof.Machine

open Sys2Proof Claims

-- Registers

/-- A filter by key loses every key that it refuses. -/
theorem tlook_filter_key_eq_none {α : Type} {P : Nat → Bool} {k : Nat} (hk : P k = false) (t : Tab α) :
    tlook (t.filter (fun x => P x.1)) k = none := by
  induction t with
  | nil => rfl
  | cons x t ih =>
    by_cases hx : P x.1 = true
    · have hne : x.1 ≠ k := by
        rintro rfl
        simp [hk] at hx
      simpa [hx, tlook, hne] using ih
    · simpa [hx] using ih

/-- The field does not lie in ISO_TRIP, the one register that a reset keeps (R420). -/
def NotTrip (f : Fld) : Prop := f.key < 0xD00058 * 2048 ∨ 0xD0005C * 2048 ≤ f.key

/-- Every field outside ISO_TRIP is back at its reset value. -/
theorem get_of_tripRegs {h k : Hub} (e : k.regs = h.tripRegs) {f : Fld} (hf : NotTrip f) : k.get f = f.rst := by
  have hkey : (decide (0xD00058 * 2048 ≤ f.key) && decide (f.key < 0xD0005C * 2048)) = false := by
    simp only [Bool.and_eq_false_iff, decide_eq_false_iff_not]
    rcases hf with hlo | hhi <;> omega
  simp only [Hub.get, e, Hub.tripRegs, tget]
  rw [tlook_filter_key_eq_none (P := fun a => decide (0xD00058 * 2048 ≤ a) && decide (a < 0xD0005C * 2048)) hkey]
  rfl

-- The cause

/-- The causes that GLB_RESET_CAUSE shows. -/
def resetCauses : List Fld :=
  [Reg.glbResetCausePorst, Reg.glbResetCausePerst, Reg.glbResetCauseSoft, Reg.glbResetCauseHubFatal, Reg.glbResetCauseWatchdog,
    Reg.glbResetCausePartner]

theorem causeIs_iff {f : Fld} {h : Hub} : CauseIs f h ↔ ∀ g ∈ resetCauses, h.get g = if g = f then 1 else 0 := Iff.rfl

theorem notTrip_of_mem_resetCauses : ∀ f ∈ resetCauses, NotTrip f := by unfold NotTrip; decide
theorem rst_of_mem_resetCauses : ∀ f ∈ resetCauses, f.rst = 0 := by decide
theorem len_of_mem_resetCauses : ∀ f ∈ resetCauses, f.len = 1 := by decide
theorem key_ne_of_mem_resetCauses : ∀ g ∈ resetCauses, ∀ f ∈ resetCauses, g ≠ f → g.key ≠ f.key := by decide
theorem readKeys_ne_of_mem_resetCauses : ∀ f ∈ resetCauses, Reg.cfgEpochEpoch.key ≠ f.key ∧ Reg.glbBootStatusStage.key ≠ f.key := by decide

/-- One cause set over registers as a reset leaves them is the only one shown, whatever other registers are written after it. -/
theorem causeIs_sets {h k : Hub} (e : k.regs = h.tripRegs) {f : Fld} (hf : f ∈ resetCauses) {l : List (Fld × Nat)}
    (hl : ∀ g ∈ resetCauses, ∀ p ∈ l, g.key ≠ p.1.key) : CauseIs f (k.sets ((f, 1) :: l)) := by
  refine causeIs_iff.2 fun g hg => ?_
  rw [Hub.sets, Hub.get_sets_ne l _ g (hl g hg)]
  split_ifs with hgf
  · rw [hgf, Hub.get_set_same, len_of_mem_resetCauses f hf]
    rfl
  · rw [Hub.get_set_ne _ _ (key_ne_of_mem_resetCauses g hg f hf hgf), get_of_tripRegs e (notTrip_of_mem_resetCauses g hg),
      rst_of_mem_resetCauses g hg]

-- A hub reset

/-- The registers that a hub reset writes beside the cause: the Moraine log's own (Table 9). -/
def logRegs (h : Hub) : List (Fld × Nat) := [(Reg.morNextSeqSeq, h.get Reg.morNextSeqSeq), (Reg.morLostCount, h.get Reg.morLostCount)]

theorem cause_key_ne_logRegs (h : Hub) : ∀ g ∈ resetCauses, ∀ p ∈ logRegs h, g.key ≠ p.1.key := by
  intro g hg p hp
  have hkey : p.1 = Reg.morNextSeqSeq ∨ p.1 = Reg.morLostCount := by
    simp only [logRegs, List.mem_cons, List.not_mem_nil, or_false] at hp
    exact hp.imp (congrArg Prod.fst) (congrArg Prod.fst)
  rcases hkey with e | e <;> rw [e] <;> revert g <;> decide

/-- The hub that a hub reset builds before it writes the cause and the log's registers. -/
def Hub.warmBase (h : Hub) (fault : Bool) : Hub :=
  { h.cold with
    boot := { Boot.rst with group1 := h.boot.group1, perst := h.boot.perst, role := h.boot.role, twinEn := h.boot.twinEn,
                            nodeId := h.boot.nodeId, bootMode := h.boot.bootMode, notes := h.boot.notes, faultN := fault }
    mor := h.mor, boots := (h.boots + 1) % 2 ^ 16
    iso := { Iso.rst with brakeEarly := h.iso.brakePin || h.iso.brakeEarly }
    sec := { Sec.rst with aliasKeys := h.sec.aliasKeys } }

theorem Hub.warm_eq (h : Hub) (cause : Fld) (fault : Bool) : h.warm cause fault = (h.warmBase fault).sets ((cause, 1) :: logRegs h) := rfl

/-- A field that a hub reset neither keeps nor writes is back at its reset value. -/
theorem get_warm (h : Hub) (fault : Bool) {cause f : Fld} (hf : NotTrip f) (hc : f.key ≠ cause.key) (hn : f.key ≠ Reg.morNextSeqSeq.key)
    (hl : f.key ≠ Reg.morLostCount.key) : (h.warm cause fault).get f = f.rst := by
  rw [Hub.warm_eq, Hub.get_sets_ne _ _ f (by simp [logRegs, hc, hn, hl])]
  exact get_of_tripRegs (h := h) rfl hf

/-- The next sequence number of the log is kept. -/
theorem get_warm_morNextSeqSeq (h : Hub) (cause : Fld) (fault : Bool) :
    (h.warm cause fault).get Reg.morNextSeqSeq = h.get Reg.morNextSeqSeq % 2 ^ 32 :=
  (Hub.get_set_ne _ _ (by decide)).trans (Hub.get_set_same _ _ _)

/-- R80: what a hub reset leaves, by its cause. -/
theorem afterHubReset_warm (h : Hub) {cause : Fld} (hc : cause ∈ resetCauses) (fault : Bool) (p : List Instr) :
    AfterHubReset cause h p ⟨h.warm cause fault, Memory.rst, p⟩ := by
  have hcause : CauseIs cause (h.warm cause fault) := causeIs_sets (k := h.warmBase fault) (h := h) rfl hc (cause_key_ne_logRegs h)
  have hne : Reg.cfgEpochEpoch.key ≠ cause.key ∧ Reg.glbBootStatusStage.key ≠ cause.key := readKeys_ne_of_mem_resetCauses cause hc
  have hepoch : (h.warm cause fault).get Reg.cfgEpochEpoch = 1 := get_warm h fault (by unfold NotTrip; decide) hne.1 (by decide) (by decide)
  have hstage : (h.warm cause fault).get Reg.glbBootStatusStage = 1 := get_warm h fault (by unfold NotTrip; decide) hne.2 (by decide) (by decide)
  have hcleared : Cleared ⟨h.warm cause fault, Memory.rst, p⟩ := by
    refine ⟨rfl, rfl, hepoch, ?_⟩
    and_intros <;> rfl
  refine ⟨hcleared, hcause, rfl, rfl, hstage, rfl, rfl, get_warm_morNextSeqSeq h cause fault, ?_⟩
  and_intros <;> rfl

theorem State.resettable_iff {s : State} : s.hub.resettable = true ↔ CanReset s := by
  simp [Hub.resettable, CanReset, and_assoc]

theorem State.hubReset_of_canReset {s : State} (hs : CanReset s) (cause : Fld) (fault : Bool) :
    s.hubReset cause fault = ⟨s.hub.warm cause fault, Memory.rst, s.pending⟩ := by
  simp [State.hubReset, State.resettable_iff.2 hs]

/-- A hub-fatal error is recorded, and the hub resets with FAULT_N asserted (R479). -/
theorem State.hubFatal_of_canReset {s : State} (hs : CanReset s) (x : RecIn) (cause : Fld) :
    s.hubFatal x cause = ⟨(s.hub.record x).warm cause true, Memory.rst, s.pending⟩ := by
  have hrec : CanReset (s.onHub (·.record x)) := by simpa [CanReset] using hs
  simp only [State.hubFatal, State.resettable_iff.2 hs, if_true]
  exact State.hubReset_of_canReset hrec cause true

-- A cold reset

theorem cleared_porstLow (h : Hub) (p : List Instr) : Cleared ⟨h.porstLow, Memory.rst, p⟩ := by
  have hepoch : h.porstLow.get Reg.cfgEpochEpoch = 1 := get_of_tripRegs (h := h) rfl (by unfold NotTrip; decide)
  refine ⟨rfl, rfl, hepoch, ?_⟩
  and_intros <;> rfl

theorem cleared_porstHigh (h : Hub) (x : Straps) (p : List Instr) : Cleared ⟨h.porstHigh x, Memory.rst, p⟩ := by
  have hepoch : (h.porstHigh x).get Reg.cfgEpochEpoch = 1 :=
    (Hub.get_set_ne _ _ (by decide)).trans (get_of_tripRegs (h := h) rfl (by unfold NotTrip; decide))
  refine ⟨rfl, rfl, hepoch, ?_⟩
  and_intros <;> rfl

theorem causeIs_porstHigh (h : Hub) (x : Straps) : CauseIs Reg.glbResetCausePorst (h.porstHigh x) :=
  causeIs_sets (h := h) (l := []) rfl (by decide) (by simp)

end Sys2Proof.Machine
end

section
/-! The statement on resets (03): O17 proved. -/

namespace Sys2Proof.Machine

open Sys2Proof Claims

theorem exec_perstNAssert (s : State) : exec .perstNAssert s = execPerstNAssert s := rfl
theorem exec_perstNDeassert (s : State) : exec .perstNDeassert s = execPerstNDeassert s := rfl
theorem exec_hotReset (s : State) : exec .hotReset s = execHotReset s := rfl
theorem exec_porstNDeassert (x : Straps) (s : State) : exec (.porstNDeassert x) s = execPorstNDeassert x s := rfl
theorem exec_glbReset (w : BitVec 32) (s : State) : exec (.glbReset w) s = .next ((s.wroteBy 0).glbReset w.toNat) := rfl
theorem exec_watchdogExpiry (s : State) : exec .watchdogExpiry s = execWatchdogExpiry s := rfl
theorem exec_hubFatalError (code inst : BitVec 16) (d0 d1 : BitVec 64) (s : State) :
    exec (.hubFatalError code inst d0 d1) s = execHubFatalError code inst d0 d1 s := rfl
theorem exec_supplyGroupUp (s : State) : exec .supplyGroupUp s = execSupplyGroupUp s := rfl

/-- A write of GLB_RESET resets only with HUB and the key (R80). -/
theorem State.glbReset_eq (s : State) (w : BitVec 32) : s.glbReset w.toNat =
    if w.toNat % 2 = 1 ∧ w.toNat / 2 ^ 16 = 0xE960 ∧ s.hub.bar0Up = true then s.hubReset Reg.glbResetCauseSoft false else s := by
  have hkey : bits w.toNat 16 16 = w.toNat / 2 ^ 16 := by simp only [bits]; omega
  simp [State.glbReset, bitAt, hkey]

/-- The codes of class Hub-fatal that neither halt nor come from the watchdog (R479). -/
theorem exec_hubFatalError_of_mem {s : State} (hs : CanReset s) {code : BitVec 16} (hcode : code.toNat ∈ [0x0702, 0x0703, 0x0C06])
    (inst : BitVec 16) (d0 d1 : BitVec 64) : exec (.hubFatalError code inst d0 d1) s =
      .next ⟨(s.hub.record { code := code.toNat, cls := 3, inst := inst.toNat, d0 := d0.toNat, d1 := d1.toNat }).warm Reg.glbResetCauseHubFatal true,
        Memory.rst, s.pending⟩ := by
  have hcode' : code.toNat = 0x0702 ∨ code.toNat = 0x0703 ∨ code.toNat = 0x0C06 := by simpa using hcode
  have hother : code.toNat ≠ 0x0B05 ∧ code.toNat ≠ 0x0E07 := by omega
  rw [← State.hubFatal_of_canReset hs, exec_hubFatalError]
  simp only [execHubFatalError, hs.1, hother.1, hother.2, hcode', if_true, if_false]

/-- PERST_N asserted, a Hot Reset and PERST_N released, at a die that takes PERST_N as its own (R59, R69, R73). -/
theorem perst_resets {s : State} (hs : CanReset s) (hown : s.hub.hasPerst = true) :
    Claims.Runs .perstNAssert s (fun t => AfterHubReset Reg.glbResetCausePerst s.hub s.pending t ∧ t.hub.boot.perst = true)
      ∧ (5 ≤ s.hub.boot.step → Claims.Runs .hotReset s
          (AfterHubReset Reg.glbResetCausePerst (s.hub.record { code := 0x0A06, cls := 0 }) s.pending))
      ∧ (s.hub.boot.perst = true → s.hub.boot.step < 10 → exec .perstNDeassert s =
          .next (s.onHub (fun h => { h with boot := { h.boot with perst := false, crs := true } }))) := by
  have hcause : Reg.glbResetCausePerst ∈ resetCauses := by decide
  refine ⟨?_, fun hstep => ?_, fun hperst hstep => ?_⟩
  · let k : Hub := { s.hub with boot := { s.hub.boot with perst := true } }
    have hk : CanReset { s with hub := k } := hs
    have hexec : exec .perstNAssert s = .next ⟨k.warm Reg.glbResetCausePerst false, Memory.rst, s.pending⟩ := by
      rw [exec_perstNAssert, execPerstNAssert, if_pos hown]
      exact congrArg Host.Outcome.next (State.hubReset_of_canReset hk _ _)
    exact ⟨_, hexec, afterHubReset_warm k hcause false s.pending, rfl⟩
  · have hrec : CanReset (s.onHub (·.record { code := 0x0A06, cls := 0 })) := by simpa [CanReset] using hs
    refine ⟨_, ?_, afterHubReset_warm (s.hub.record { code := 0x0A06, cls := 0 }) hcause false s.pending⟩
    rw [exec_hotReset, execHotReset, if_pos (by simp [hown, hstep, State.resettable_iff.2 hs])]
    exact congrArg Host.Outcome.next (State.hubReset_of_canReset hrec _ _)
  · simp [exec_perstNDeassert, execPerstNDeassert, hubStep, State.onHub, hown, hperst, hstep, State.resettable_iff.2 hs]

/-- Settles O17: a hub reset builds `Hub.warm` over byte memory as after power-on, a cold reset `porstLow` and then `porstHigh`, and each
of these is read field by field. -/
theorem resetsClearAndKeepWhatTableNineSays : Obligations.ResetsClearAndKeepWhatTableNineSays := by
  intro s x w code inst d0 d1
  refine ⟨?porstLow, fun hporst => ?porstHigh, fun hs hown => ?perst, fun hs hstep hhub hkey => ?soft, fun hbad => ?badKey,
    fun hs hstep => ?watchdog, fun hs hcode => ?fatal, fun hdown => ?supplyUp, ?supplyLoss⟩
  case porstLow => exact ⟨_, rfl, cleared_porstLow s.hub s.pending, rfl, rfl, rfl, rfl, rfl, rfl⟩
  case porstHigh =>
    have hexec : exec (.porstNDeassert x) s = .next ⟨s.hub.porstHigh x, Memory.rst, s.pending⟩ := by
      simp [exec_porstNDeassert, execPorstNDeassert, hporst]
    refine ⟨_, hexec, cleared_porstHigh s.hub x s.pending, causeIs_porstHigh s.hub x, ?_⟩
    and_intros <;> rfl
  case perst => exact perst_resets hs (by simpa [Hub.hasPerst] using hown)
  case soft =>
    have hs' : CanReset (s.wroteBy 0) := hs
    obtain ⟨-, -, hrun⟩ := hs
    have hup : (s.wroteBy 0).hub.bar0Up = true := by simp [Hub.bar0Up, State.wroteBy, hstep, hrun]
    refine ⟨_, ?_, afterHubReset_warm s.hub (by decide) false s.pending⟩
    rw [exec_glbReset, State.glbReset_eq, if_pos ⟨hhub, hkey, hup⟩, State.hubReset_of_canReset hs']
    rfl
  case badKey =>
    rw [exec_glbReset, State.glbReset_eq, if_neg]
    rintro ⟨hhub, hkey, -⟩
    exact hbad.elim (by omega) (absurd hkey)
  case watchdog =>
    refine ⟨_, ?_, afterHubReset_warm (s.hub.record { code := 0x0E07, cls := 3 }) (by decide) true s.pending, rfl⟩
    rw [exec_watchdogExpiry, execWatchdogExpiry, if_neg (by omega), State.hubFatal_of_canReset hs]
  case fatal =>
    exact ⟨_, exec_hubFatalError_of_mem hs hcode inst d0 d1, afterHubReset_warm _ (by decide) true s.pending, rfl⟩
  case supplyUp => simp [exec_supplyGroupUp, execSupplyGroupUp, hubStep, State.onHub, hdown]
  case supplyLoss =>
    refine ⟨_, rfl, ⟨rfl, rfl, rfl, ?_⟩, rfl, rfl, rfl, rfl, rfl, rfl⟩
    and_intros <;> rfl

end Sys2Proof.Machine
end

section
/-! The statement on update objects, the log and the mailbox (03, 19, 21): O48 refuted. -/

namespace Sys2Proof.Machine

open Sys2Proof Claims

/-- A package in Production, booted and without a partition, while a bundle install runs (R463). -/
def installing : State := State.reset.onHub (fun h =>
  { h.set Reg.cfgModeLifecycle 2 with
    boot := { h.boot with step := 10 }, sec := { h.sec with installs := [⟨0, ⟨0, 0, 0, 0⟩, 0, [], [], 0⟩] } })

/-- A transition request of zeros: its MAGIC is wrong. -/
def blankRequest : List Byte := List.replicate 192 0

theorem exec_lcRequest (via : Iface) (data : List Byte) (s : State) :
    exec (.lcRequest via data) s = .next (s.odServeWrite via.code.toNat 0x2910 0 data) := rfl

/-- Over MCTP the life-cycle object of that package is served, writable and free. -/
theorem installing_asks :
    installing.hub.odServed 3 = true ∧ (installing.hub.odLevel 3).writes 0x2910 = true ∧ installing.hub.lockOf 0x2910 = 0
      ∧ blankRequest.length = 192 := by
  decide +kernel

/-- Check 2 of R471 refuses the request: INVALID_FIELD. -/
theorem installing_answer :
    answers (installing.odServeWrite 3 0x2910 0 blankRequest) = [.almanac 3 0x02 0x06090030] := by
  decide +kernel

/-- Refutes O48: the statement quantifies over every state and counts a running bundle install among what refuses each transition request
with STATE_REFUSED. Check 1 of R471 names a security-core activation and another transition but no install, and so does the model: beside
an install, and with nothing else in the way, a request whose MAGIC is wrong is answered INVALID_FIELD by check 2. -/
theorem not_updateObjectsLogAndMailbox : ¬ Obligations.UpdateObjectsLogAndMailbox := by
  intro h
  have hclauses := h ⟨3⟩ 0 blankRequest 0 installing ⟨0, 0, 0, 0, 0, 0, 0, 0, 0, 0, 0, 0, 0, 0⟩ [] ⟨0, 0, 0, 0, 0, 0, 0, 0, 0, 0, 0, 0⟩
  -- the clause on a request that is refused for the package's state follows 25 others
  iterate 25 replace hclauses := hclauses.2
  obtain ⟨hrefused, -⟩ := hclauses
  obtain ⟨t, hexec, ⟨htold, -, -⟩, -, -⟩ := hrefused installing_asks (fun ⟨_, _, _, _, hidle⟩ => hidle (.inr (.inl (by decide))))
  have ht : installing.odServeWrite 3 0x2910 0 blankRequest = t :=
    Host.Outcome.next.inj ((exec_lcRequest ⟨3⟩ blankRequest installing).symm.trans hexec)
  rw [← ht, installing_answer] at htold
  exact absurd htold (by simp)

end Sys2Proof.Machine
end

section
/-! SUPPORT. Paths of a link opened and closed (16: R377): what opening one for a request that waits leaves. -/

namespace Sys2Proof.Machine

open Sys2Proof

/-- A path written reads back. -/
theorem Hub.path_setPath_same (h : Hub) (p : LPath) : (h.setPath p).path p.link p.num = some p := by
  have hnone : (h.links.paths.filter (fun x => !(decide (x.link = p.link) && decide (x.num = p.num)))).find?
      (fun x => decide (x.link = p.link) && decide (x.num = p.num)) = none :=
    List.find?_eq_none.2 fun x hx => by simpa [imp_iff_not_or] using (List.mem_filter.1 hx).2
  simp only [Hub.path, Hub.setPath, List.find?_append, hnone]
  simp

/-- Registers are read without the paths. -/
theorem Hub.get_withLinks (h : Hub) (x : Links) (f : Fld) : Hub.get { h with links := x } f = h.get f := rfl

theorem Hub.mem_setPath {h : Hub} {p q : LPath} (hq : q ∈ (h.setPath p).links.paths) : q ∈ h.links.paths ∨ q = p := by
  simp only [Hub.setPath, List.mem_append, List.mem_filter, List.mem_singleton] at hq
  exact hq.imp And.left id

theorem Hub.path_congr {h k : Hub} (e : h.links.paths = k.links.paths) (l n : Nat) : h.path l n = k.path l n := by
  simp [Hub.path, e]

/-- The paths, and the sites, are those of another hub. -/
structure Hub.SamePaths (h k : Hub) : Prop where
  paths : k.links.paths = h.links.paths
  sites : k.sites = h.sites

/-- A frame on a link without MACsec changes no path. -/
theorem Hub.frame_samePaths {h : Hub} {l : Nat} (hsak : h.txSak l = none) (n kind a b c d : Nat) : h.SamePaths (h.frame l n kind a b c d) := by
  have hpn : (h.wrap (Reg.lnkCntTxFrames l) 1).countPn l = h.wrap (Reg.lnkCntTxFrames l) 1 := by
    have hsak' : (h.wrap (Reg.lnkCntTxFrames l) 1).txSak l = none := hsak
    simp only [Hub.countPn, hsak']
  unfold Hub.frame
  split_ifs
  · exact ⟨rfl, rfl⟩
  · rw [hpn]
    exact ⟨rfl, rfl⟩
  · exact ⟨rfl, rfl⟩

/-- A request to a peer that no path of the link leads to opens path 0, where that number is free. -/
theorem Hub.enqueue_opens {h : Hub} {l peer : Nat} (hfree : h.path l 0 = none) (hsak : h.txSak l = none)
    (hip : ∀ p ∈ h.pathsOf l, p.ip ≠ BitVec.ofNat 128 (h.get (Reg.lnkPeerIp peer))) (r : OutReq) :
    ∃ q : LPath, (q.link = l ∧ q.num = 0 ∧ q.peer = some peer) ∧ (h.setPath q).SamePaths (h.enqueue l peer r) := by
  have hnone : (h.pathsOf l).find? (fun p => decide (p.ip = BitVec.ofNat 128 (h.get (Reg.lnkPeerIp peer)))) = none := by
    simpa [List.find?_eq_none] using hip
  have hnum : h.freePath l = some (0, h) := by simp [Hub.freePath, findLow, findFrom, hfree]
  let k : Hub := h.draw.2
  let q : LPath := { LPath.fresh l 0 (BitVec.ofNat 128 (h.get (Reg.lnkPeerIp peer))) (h.on (Reg.lnkPeerIpv4 peer)) (some peer)
    (h.draw.1 % 2 ^ 24) with queued := [r] }
  have heq : h.enqueue l peer r = ((k.setPath q).frame l 0 typePathOpen (h.draw.1 % 2 ^ 24) 0 0xFFFF 0).countPaths l := by
    simp only [Hub.enqueue, hnone, hnum]
    rfl
  obtain ⟨hpaths, hsites⟩ := Hub.frame_samePaths (h := k.setPath q) hsak 0 typePathOpen (h.draw.1 % 2 ^ 24) 0 0xFFFF 0
  exact ⟨q, ⟨rfl, rfl, rfl⟩, by rw [heq]; exact hpaths, by rw [heq]; exact hsites⟩

/-- Closing the paths of a link that has none changes nothing. -/
theorem Hub.closePaths_of_noPath {h : Hub} {l : Nat} (hl : ∀ q ∈ h.links.paths, q.link ≠ l) (P : LPath → Bool) (st : Nat) :
    h.closePaths l P st = h := by
  have hnone : h.pathsOf l = [] := by simpa [Hub.pathsOf] using hl
  simp [Hub.closePaths, hnone]

theorem overList_eq_self {σ : Type} {f : Nat → σ → σ} {x : σ} {l : List Nat} (hf : ∀ k ∈ l, f k x = x) : overList f l x = x := by
  induction l with
  | nil => rfl
  | cons k l ih =>
    rw [overList, hf k (by simp)]
    exact ih (fun j hj => hf j (by simp [hj]))

/-- The one request that waits for a path of a link asks for it again. -/
theorem Hub.retryWaiting_one {h : Hub} {l peer : Nat} {r : OutReq} (hw : h.links.waiting = [(l, peer, r)]) :
    h.retryWaiting l = Hub.enqueue { h with links := { h.links with waiting := [] } } l peer r := by
  simp [Hub.retryWaiting, hw]

/-- Where no request waits for a path to a peer, the peer's going closes its paths and no more. -/
theorem Hub.peerGone_of_noWait {h : Hub} {n : Nat} (hw : ∀ x ∈ h.links.waiting, x.2.1 ≠ n) : h.peerGone n =
    overList (fun l h' => h'.closePaths l (fun p => decide (p.peer = some n) || decide (p.ip = BitVec.ofNat 128 (h.get (Reg.lnkPeerIp n)))) 0x0A)
      (List.range 96) h := by
  have hmine : h.links.waiting.filter (fun x => decide (x.2.1 = n)) = [] := by simpa [List.filter_eq_nil_iff] using hw
  have hrest : h.links.waiting.filter (fun x => !decide (x.2.1 = n)) = h.links.waiting := by simpa [List.filter_eq_self] using hw
  simp only [Hub.peerGone, hmine, hrest]
  rfl

/-- Where no site holds an event, none goes on. -/
theorem State.pumpAll_of_noSites {s : State} (hs : s.hub.sites = []) : s.pumpAll = s := by
  refine List.foldl_fixed' (fun k => ?_) _
  have hevts : (s.hub.site k).evts = [] := by simp [Hub.site, hs, tget, Site.rst]
  rw [List.foldl_fixed' (by simp)]
  simp [State.pumpEvts, hevts]

end Sys2Proof.Machine
end

section
/-! The statement on paths (03, 16): O51 refuted. -/

namespace Sys2Proof.Machine

open Sys2Proof Claims

theorem exec_lnkPeerWrite (n : BitVec 12) (word : BitVec 2) (w : BitVec 64) (s : State) :
    exec (.lnkPeerWrite n word w) s = .next ((s.wroteBy 0).onHub (·.peerWrite n.toNat word.toNat w.toNat)).pumpAll := rfl

/-- A read of 32 bytes of a remote window by core 0. -/
def remoteRead : OutReq where
  type := 2
  window := 0
  gen := 0
  detail := 0
  wkey := 0
  offset := 0
  rlen := 32
  data := []
  poison := false
  who := .coreLoad 0
  place := 0
  col := none
  psn := 0
  resends := 0
  held := false

/-- An open path of link 0 to peer `k`, whose address is `k + 1`, with a request outstanding on it. -/
def usedPath (k : Nat) : LPath :=
  { LPath.fresh 0 k (BitVec.ofNat 128 (k + 1)) false (some k) 0 with isOpen := true, peerNum := k, queued := [remoteRead] }

/-- A read of a core that no longer waits for it ends without effect. -/
theorem remFailAll_usedPath {h : Hub} (hidle : (h.core 0).run ≠ .remote) (k st : Nat) : h.remFailAll (usedPath k).all st = h := by
  change h.coreGot 0 0 0 true = h
  simp [Hub.coreGot, hidle]

/-- A path of link 0 beside path 0, to another peer than 0 and 1024. -/
def Beside (q : LPath) : Prop := q.link = 0 ∧ q.num ≠ 0 ∧ q.peer ≠ some 0 ∧ q.ip ≠ 1#128 ∧ q.ip ≠ 1025#128

/-- Link 0 is UP; peers 0 and 1024 are valid, at the addresses 1 and 1025. -/
def peerHub : Hub :=
  { State.reset.hub with regs := [((Reg.lnkStatusState 0).key, 2), ((Reg.lnkPeerIp 0).key, 1), ((Reg.lnkPeerV 0).key, 1),
      ((Reg.lnkPeerIp 1024).key, 1025), ((Reg.lnkPeerV 1024).key, 1)] }

/-- Link 0 has path 0 to peer 0 and other paths, and a request to peer 1024 waits for a path (R377). -/
def waitingLink (others : List LPath) : State :=
  ⟨{ peerHub with links := { Links.rst with paths := usedPath 0 :: others, waiting := [(0, 1024, remoteRead)] } }, Memory.rst, []⟩

/-- The hub of `waitingLink` once peer 0's entry reads V = 0. -/
def invalidated (others : List LPath) : Hub := (waitingLink others).hub.set (Reg.lnkPeerV 0) 0

/-- That hub without path 0. -/
def dropped (others : List LPath) : Hub := ((invalidated others).dropPath 0 0).countPaths 0

/-- And without the request that waited. -/
def freed (others : List LPath) : Hub := { dropped others with links := { (dropped others).links with waiting := [] } }

section
variable {others : List LPath}

theorem peerWrite_waitingLink : ((waitingLink others).wroteBy 0).hub.peerWrite 0 2 0 = (invalidated others).peerGone 0 := by
  have hvalid : (waitingLink others).hub.on (Reg.lnkPeerV 0) = true := rfl
  have hsame : ((waitingLink others).wroteBy 0).hub = (waitingLink others).hub := rfl
  simp [Hub.peerWrite, hsame, hvalid, bits, invalidated]

theorem get_invalidated (f : Fld) : (invalidated others).get f = (peerHub.set (Reg.lnkPeerV 0) 0).get f := Hub.get_of_regs_eq f rfl

theorem get_freed {f : Fld} (hf : f.key ≠ (Reg.lnkStatusPaths 0).key) : (freed others).get f = (invalidated others).get f := by
  rw [freed, Hub.get_withLinks, dropped, Hub.countPaths, Hub.get_set_ne _ _ hf, Hub.dropPath, Hub.get_withLinks]

theorem get_invalidated_peer0 : BitVec.ofNat 128 ((invalidated others).get (Reg.lnkPeerIp 0)) = 1#128 := by
  rw [get_invalidated]
  decide +kernel

theorem get_freed_peer1024 : BitVec.ofNat 128 ((freed others).get (Reg.lnkPeerIp 1024)) = 1025#128 := by
  rw [get_freed (by decide), get_invalidated]
  decide +kernel

/-- Path 0 closes, the read outstanding on it ends, and the request that waits asks for a path again. -/
theorem closePath_invalidated : (invalidated others).closePath 0 0 0x0A = (freed others).enqueue 0 1024 remoteRead := by
  have hpath : (invalidated others).path 0 0 = some (usedPath 0) := rfl
  have hidle : ((dropped others).core 0).run ≠ .remote := (by decide : Core.rst.run ≠ .remote)
  calc (invalidated others).closePath 0 0 0x0A = ((dropped others).remFailAll (usedPath 0).all 0x0A).retryWaiting 0 := by
        simp only [Hub.closePath, hpath]; rfl
    _ = (dropped others).retryWaiting 0 := by rw [remFailAll_usedPath hidle]
    _ = (freed others).enqueue 0 1024 remoteRead := Hub.retryWaiting_one rfl

variable (hothers : ∀ q ∈ others, Beside q)
include hothers

theorem freed_paths : (freed others).links.paths = others := by
  have hkept : others.filter (fun x => !(decide (x.link = 0) && decide (x.num = 0))) = others := List.filter_eq_self.2 fun q hq => by
    obtain ⟨-, hnum, -⟩ := hothers q hq
    simp [hnum]
  exact hkept

/-- The request that waited opens path 0 to its own peer. -/
theorem freed_opens : ∃ q : LPath, (q.link = 0 ∧ q.num = 0 ∧ q.peer = some 1024)
    ∧ ((freed others).setPath q).SamePaths ((freed others).enqueue 0 1024 remoteRead) := by
  refine Hub.enqueue_opens (List.find?_eq_none.2 fun q hq => ?_) rfl (fun q hq => ?_) remoteRead
  · obtain ⟨-, hnum, -⟩ := hothers q (freed_paths hothers ▸ hq)
    simp [hnum]
  · obtain ⟨-, -, -, -, hip⟩ := hothers q (freed_paths hothers ▸ List.mem_of_mem_filter hq)
    rwa [get_freed_peer1024]

/-- Path 0 is the one path of peer 0. -/
theorem closePaths_invalidated : (invalidated others).closePaths 0 (fun p => decide (p.peer = some 0) || decide (p.ip = 1#128)) 0x0A
    = (freed others).enqueue 0 1024 remoteRead := by
  have hpaths : (invalidated others).pathsOf 0 = usedPath 0 :: others := List.filter_eq_self.2 fun q hq => by
    rcases List.mem_cons.1 hq with rfl | hq
    · rfl
    · simp [(hothers q hq).1]
  have hkept : others.filter (fun p => decide (p.peer = some 0) || decide (p.ip = 1#128)) = [] := List.filter_eq_nil_iff.2 fun q hq => by
    obtain ⟨-, -, hpeer, hip, -⟩ := hothers q hq
    simp [hpeer, hip]
  rw [Hub.closePaths, hpaths, List.filter_cons_of_pos (by decide), hkept]
  exact closePath_invalidated

/-- Peer 0 leaves path 0 to the request that waited; no other link has a path. -/
theorem peerGone_invalidated : (invalidated others).peerGone 0 = (freed others).enqueue 0 1024 remoteRead := by
  have hlink : ∀ q ∈ ((freed others).enqueue 0 1024 remoteRead).links.paths, q.link = 0 := by
    obtain ⟨p, ⟨hp, -, -⟩, hpaths, -⟩ := freed_opens hothers
    intro q hq
    rw [hpaths] at hq
    rcases Hub.mem_setPath hq with hq | rfl
    · exact (hothers q (freed_paths hothers ▸ hq)).1
    · exact hp
  have hwait : ∀ x ∈ (invalidated others).links.waiting, x.2.1 ≠ 0 := by
    intro x hx
    rw [show x = (0, 1024, remoteRead) from List.mem_singleton.1 hx]
    decide
  have hrange : List.range 96 = 0 :: List.range' 1 95 := by decide
  rw [Hub.peerGone_of_noWait hwait, get_invalidated_peer0, hrange, overList, closePaths_invalidated hothers]
  refine overList_eq_self fun l hl => Hub.closePaths_of_noPath (fun q hq => ?_) _ _
  have hpos : 1 ≤ l := (List.mem_range'_1.1 hl).1
  rw [hlink q hq]
  omega

/-- Once peer 0's entry is invalidated, path 0 of link 0 is the one to peer 1024. -/
theorem waitingLink_path_after :
    (((((waitingLink others).wroteBy 0).onHub (·.peerWrite 0 2 0)).pumpAll).hub.path 0 0).map (·.peer) = some (some 1024) := by
  obtain ⟨q, ⟨hl, hn, hp⟩, hpaths, hsites⟩ := freed_opens hothers
  have hhub : (((waitingLink others).wroteBy 0).onHub (·.peerWrite 0 2 0)).hub = (freed others).enqueue 0 1024 remoteRead := by
    simp only [State.onHub_hub, peerWrite_waitingLink, peerGone_invalidated hothers]
  have hopen : ((freed others).setPath q).path 0 0 = some q := by simpa [hl, hn] using (freed others).path_setPath_same q
  rw [State.pumpAll_of_noSites (by rw [hhub, hsites]; rfl), hhub, Hub.path_congr hpaths, hopen]
  simp [hp]

end

/-- Paths 1 to 1023 of link 0, each to the peer of its number. -/
def otherPaths : List LPath := (List.range' 1 1023).map usedPath

theorem beside_of_mem_otherPaths : ∀ q ∈ otherPaths, Beside q := by
  intro q hq
  simp only [otherPaths, List.mem_map, List.mem_range'_1] at hq
  obtain ⟨k, ⟨hlo, hhi⟩, rfl⟩ := hq
  refine ⟨rfl, Nat.pos_iff_ne_zero.1 hlo, fun hpeer => ?_, ?_, ?_⟩
  · exact absurd (Option.some.inj hpeer) (by omega)
  · change BitVec.ofNat 128 (k + 1) ≠ 1#128
    bv_omega
  · change BitVec.ofNat 128 (k + 1) ≠ 1025#128
    bv_omega

/-- Refutes O51: on a link whose 1,024 paths are all in use, where a request to another peer waits for one, the invalidation of a peer's
entry closes that peer's path and the waiting request takes the freed number at once (R377); the clause on LNK_PEER has no path of that
number afterwards. -/
theorem not_pathsOpenSendResendAndClose : ¬ Obligations.PathsOpenSendResendAndClose := by
  intro h
  have hclauses := h ⟨0, 0, false, 0, false, 0, 0, 0, 0, []⟩ 0 0 0 0 0 0 0 ⟨0, 0, 0, 0⟩ [] (waitingLink otherPaths) (usedPath 0) remoteRead [] 0 0 0
    ⟨0, 0, none, none, false, [], false, false, false, [], false⟩
  -- the clause on an entry invalidated while a path to its peer is open follows 36 others
  iterate 36 replace hclauses := hclauses.2
  obtain ⟨hinvalidated, -⟩ := hclauses
  obtain ⟨t, hexec, -, -, hpath⟩ := hinvalidated rfl rfl (by decide) rfl rfl
  have ht : (((waitingLink otherPaths).wroteBy 0).onHub (·.peerWrite 0 2 0)).pumpAll = t :=
    Host.Outcome.next.inj ((exec_lnkPeerWrite 0 2 0 (waitingLink otherPaths)).symm.trans hexec)
  have hafter := waitingLink_path_after beside_of_mem_otherPaths
  rw [ht, show t.hub.path 0 0 = none from hpath] at hafter
  exact absurd hafter (by simp)

end Sys2Proof.Machine
end

section
/-! SUPPORT. An instruction of a ready core, by what its meaning answers: retired, raised or waiting (04, 05); and the bytes of a number. -/

namespace Sys2Proof.Machine

open Sys2Proof Claims

-- How an instruction of a ready core ends

section
variable {c : CoreId} {i : Instr} {w : Nat} {body : Nat → Core → State → Iss} {s s' : State} {y : Core} {run : CoreRun}

/-- The core waits, its instruction in hand. -/
theorem issue_stall (h : s.hub.floeExists c.floe.toNat = true) (hr : (s.hub.core (coreNum c)).run = .ready)
    (hb : body (coreNum c) (s.hub.core (coreNum c)) s = .stall s' run) : issue c w body s = .next (waits c s' w run) := by
  simp [issue, h, hr, hb, waits]

theorem exec_of_done (h : Ready c s) (he : exec i s = issue c w body s) (hb : body (coreNum c) (coreOf c s) s = .done s' y) :
    exec i s = .next (retired c s' y) :=
  he.trans (issue_done h.1 h.2 hb)

theorem exec_of_exc {code addr trap : Nat} (h : Ready c s) (he : exec i s = issue c w body s)
    (hb : body (coreNum c) (coreOf c s) s = .exc s' y code addr trap) : exec i s = .next (raised c s' y w code addr trap) :=
  he.trans (issue_exc h.1 h.2 hb)

theorem exec_of_stall (h : Ready c s) (he : exec i s = issue c w body s) (hb : body (coreNum c) (coreOf c s) s = .stall s' run) :
    exec i s = .next (waits c s' w run) :=
  he.trans (issue_stall h.1 h.2 hb)

/-- Earlier stores are visible: nothing waits for them (R120). -/
theorem afterStores_of_storesDone (h : StoresDone c s) (r : Iss) : afterStores (coreNum c) s r = r :=
  if_neg (ne_true_of_eq_false h)

end

-- Bytes as a number

/-- The number that bytes spell, as the model reads it and as the statements write it (R3). -/
theorem rd_eq_leBytesAt (m : Memory) (a n : Nat) : m.rd a n = leBytesAt m a n := by
  induction n generalizing a with
  | zero => rfl
  | succ n ih =>
    have hshift (i : Nat) : (m.byte (a + 1 + i)).toNat * 256 ^ i * 256 = (m.byte (a + (i + 1))).toNat * 256 ^ (i + 1) := by
      rw [show a + 1 + i = a + (i + 1) by omega, Nat.pow_succ, Nat.mul_assoc]
    rw [Memory.rd, ih, leBytesAt, leBytesAt, List.range_succ_eq_map, List.map_cons, List.sum_cons, List.map_map, Nat.mul_comm 256,
      ← List.sum_map_mul_right]
    simp [hshift, Function.comp_def]

/-- Bytes below the cut of a number are its own. -/
theorem byteOf_mod {n i : Nat} (hi : i < n) (v : Nat) : BitVec.ofNat 8 (v % 2 ^ (8 * n) / 256 ^ i) = BitVec.ofNat 8 (v / 256 ^ i) := by
  have hpow : 2 ^ (8 * n) = 256 ^ i * (256 * 256 ^ (n - 1 - i)) := by
    rw [← Nat.pow_succ', ← Nat.pow_add, show i + (n - 1 - i).succ = n by omega, Nat.pow_mul]
  apply BitVec.eq_of_toNat_eq
  rw [hpow, Nat.mod_mul_right_div_self, BitVec.toNat_ofNat, BitVec.toNat_ofNat, Nat.mod_mul_right_mod]

/-- A write stores the low bytes of its value. -/
theorem stored_wr (m : Memory) (a n v : Nat) : Stored m (m.wr a n v) a n v :=
  ⟨fun i hi => byte_wr_in m a n v i hi, fun b hb => byte_wr_out m a n v b hb⟩

/-- So does a store, whatever it marks. -/
theorem stored_storeBits (m : Memory) (a n v bad : Nat) : Stored m (m.storeBits a n v bad) a n v := by
  obtain ⟨hin, hout⟩ := stored_wr m a n v
  exact ⟨fun i hi => (byte_storeBits m a n v bad _).trans (hin i hi), fun b hb => (byte_storeBits m a n v bad b).trans (hout b hb)⟩

theorem stored_of_stored_mod {m m' : Memory} {a n v : Nat} (h : Stored m m' a n (v % 2 ^ (8 * n))) : Stored m m' a n v :=
  ⟨fun i hi => (h.1 i hi).trans (byteOf_mod hi v), h.2⟩

end Sys2Proof.Machine
end

section
/-! The statement on scalar loads and stores (04, 05): O5 proved. -/

namespace Sys2Proof.Machine

open Sys2Proof Claims

-- Accesses by where they lead (R84, R86)

section
variable {s s' : State} {core va n v : Nat} {x : Core} {run : CoreRun}

theorem coreLoad_undef (h : s.hub.window core (s.hub.corePart x) va n = .undef) : s.coreLoad core x va n = .exc s 0x03 := by
  simp only [State.coreLoad, h]

theorem coreLoad_here {a : Nat} (h : s.hub.window core (s.hub.corePart x) va n = .here a) :
    s.coreLoad core x va n = .ok s (s.mem.rd a n) (s.mem.bad a n) := by
  simp only [State.coreLoad, h]

theorem coreStore_undef (h : s.hub.window core (s.hub.corePart x) va n = .undef) : s.coreStore core x va n v = .exc s 0x03 := by
  simp only [State.coreStore, h]

theorem coreStore_here {a : Nat} (h : s.hub.window core (s.hub.corePart x) va n = .here a) :
    s.coreStore core x va n v = .ok { s with mem := s.mem.storeBits a n v 0 } 0 false := by
  simp only [State.coreStore, h]

/-- Private memory is the first 0x4000 bytes of the local window. -/
theorem window_private (h : Hub) {p : Nat} (hva : va / 2 ^ 40 = 0xFFF) (hn : va % 2 ^ 40 + n ≤ 0x4000) :
    h.window core p va n = .here (privBase core + va % 2 ^ 40) := by
  simp only [Hub.window, hva, ne_eq, not_true_eq_false, if_false, hn, if_true]

end

-- Loads and stores by what their access gives

section
variable {n core : Nat} {sg : Bool} {f : IForm} {g : SForm} {x : Core} {s s' : State} {run : CoreRun} {v code : Nat}

/-- What a scalar load puts in rd of the bytes read (R118). -/
def loadedValue (n : Nat) (sg : Bool) (v : Nat) : Word64 := if sg then BitVec.ofInt 64 (toSigned (8 * n) v) else BitVec.ofNat 64 v

theorem loadIss_misaligned (h : (scalarAddr x f.rs1 f.imm).toNat % n ≠ 0) :
    loadIss n sg f core x s = .exc s x 0x02 (scalarAddr x f.rs1 f.imm).toNat 0 := if_pos h

theorem storeIss_misaligned (h : (scalarAddr x g.rs1 g.imm).toNat % n ≠ 0) :
    storeIss n g core x s = .exc s x 0x02 (scalarAddr x g.rs1 g.imm).toNat 0 := if_pos h

section
variable (h : (scalarAddr x f.rs1 f.imm).toNat % n = 0)
include h

theorem loadIss_aligned : loadIss n sg f core x s = (s.coreLoad core x (scalarAddr x f.rs1 f.imm).toNat n).bind x (scalarAddr x f.rs1 f.imm).toNat
    (fun s v => .done s (wroteS x f.rd (loadedValue n sg v))) := if_neg (not_not.2 h)

theorem loadIss_ok (hg : s.coreLoad core x (scalarAddr x f.rs1 f.imm).toNat n = .ok s' v false) :
    loadIss n sg f core x s = .done s' (wroteS x f.rd (loadedValue n sg v)) := by rw [loadIss_aligned h, hg]; rfl

theorem loadIss_poison (hg : s.coreLoad core x (scalarAddr x f.rs1 f.imm).toNat n = .ok s' v true) :
    loadIss n sg f core x s = .exc s' x 0x05 (scalarAddr x f.rs1 f.imm).toNat 0 := by rw [loadIss_aligned h, hg]; rfl

theorem loadIss_exc (hg : s.coreLoad core x (scalarAddr x f.rs1 f.imm).toNat n = .exc s' code) :
    loadIss n sg f core x s = .exc s' x code (scalarAddr x f.rs1 f.imm).toNat 0 := by rw [loadIss_aligned h, hg]; rfl

theorem loadIss_stall (hg : s.coreLoad core x (scalarAddr x f.rs1 f.imm).toNat n = .stall s' run) :
    loadIss n sg f core x s = .stall s' run := by rw [loadIss_aligned h, hg]; rfl

end

section
variable (h : (scalarAddr x g.rs1 g.imm).toNat % n = 0)
include h

theorem storeIss_aligned : storeIss n g core x s
    = (s.coreStore core x (scalarAddr x g.rs1 g.imm).toNat n ((x.s g.rs2).toNat % 2 ^ (8 * n))).bind x (scalarAddr x g.rs1 g.imm).toNat
        (fun s _ => .done s x.adv) := if_neg (not_not.2 h)

theorem storeIss_ok (hg : s.coreStore core x (scalarAddr x g.rs1 g.imm).toNat n ((x.s g.rs2).toNat % 2 ^ (8 * n)) = .ok s' v false) :
    storeIss n g core x s = .done s' x.adv := by rw [storeIss_aligned h, hg]; rfl

theorem storeIss_exc (hg : s.coreStore core x (scalarAddr x g.rs1 g.imm).toNat n ((x.s g.rs2).toNat % 2 ^ (8 * n)) = .exc s' code) :
    storeIss n g core x s = .exc s' x code (scalarAddr x g.rs1 g.imm).toNat 0 := by rw [storeIss_aligned h, hg]; rfl

theorem storeIss_stall (hg : s.coreStore core x (scalarAddr x g.rs1 g.imm).toNat n ((x.s g.rs2).toNat % 2 ^ (8 * n)) = .stall s' run) :
    storeIss n g core x s = .stall s' run := by rw [storeIss_aligned h, hg]; rfl

end

end

-- The rows

/-- The row `e` of the table of loads is that of a load of its size, sign-extended or not. -/
def IsLoadRow (sg : Bool) (e : Nat × Nat × (CoreId → IForm → Instr) × (Nat → Word64)) : Prop :=
  (∀ c f s, exec (e.2.2.1 c f) s = issue c (encI e.1 f) (loadIss e.2.1 sg f) s) ∧ ∀ v, loadedValue e.2.1 sg v = e.2.2.2 v

/-- Sign extension of the low bytes of a number. -/
theorem loadedValue_signed {n : Nat} (hn : 0 < n) (v : Nat) : loadedValue n true v = (BitVec.ofNat (8 * n) v).signExtend 64 := by
  have hpow : 2 ^ (8 * n) = 2 * 2 ^ (8 * n - 1) := by rw [← Nat.pow_succ', show (8 * n - 1).succ = 8 * n by omega]
  have hsigned : toSigned (8 * n) v = (BitVec.ofNat (8 * n) v).toInt := by
    rw [toSigned, BitVec.toInt_eq_toNat_cond, BitVec.toNat_ofNat]
    exact if_congr (by omega) rfl rfl
  rw [loadedValue, if_pos rfl, hsigned, BitVec.signExtend]

/-- Every row of majors 0x10 to 0x16 is a load of its size (Table 5 of 05). -/
theorem exists_isLoadRow : ∀ e ∈ loadRows, ∃ sg, IsLoadRow sg e := by
  simp only [loadRows, List.forall_mem_cons]
  refine ⟨⟨true, fun _ _ _ => rfl, loadedValue_signed (n := 1) (by decide)⟩, ⟨true, fun _ _ _ => rfl, loadedValue_signed (n := 2) (by decide)⟩,
    ⟨true, fun _ _ _ => rfl, loadedValue_signed (n := 4) (by decide)⟩, ⟨false, fun _ _ _ => rfl, fun _ => rfl⟩,
    ⟨false, fun _ _ _ => rfl, fun _ => rfl⟩, ⟨false, fun _ _ _ => rfl, fun _ => rfl⟩, ⟨false, fun _ _ _ => rfl, fun _ => rfl⟩, by simp⟩

/-- Every row of majors 0x18 to 0x1B is a store of its size (Table 5 of 05). -/
theorem exec_storeRow : ∀ e ∈ storeRows, ∀ c f s, exec (e.2.2 c f) s = issue c (encS e.1 f) (storeIss e.2.1 f) s := by
  simp only [storeRows, List.forall_mem_cons]
  exact ⟨fun _ _ _ => rfl, fun _ _ _ => rfl, fun _ _ _ => rfl, fun _ _ _ => rfl, by simp⟩

-- O5

theorem scalarLoadsReadAlignedBytes : ScalarLoadsReadAlignedBytes := by
  intro c f s h x va e he n i w place
  obtain ⟨sg, hexec, hvalue⟩ := exists_isLoadRow e he
  have hi : exec i s = issue c w (loadIss n sg f) s := hexec c f s
  refine ⟨fun hm => ?_, fun ha hp => ?_, fun a ha hp hbad => ?_, fun a ha hp hbad => ?_, fun hva hn => window_private _ hva hn,
    fun s' v ha _ hg => ?_, fun s' run ha _ hg => ?_⟩
  · exact exec_of_exc h hi (loadIss_misaligned hm)
  · exact exec_of_exc h hi (loadIss_exc ha (coreLoad_undef hp))
  · exact exec_of_exc h hi (loadIss_poison ha (by rw [← hbad]; exact coreLoad_here hp))
  · rw [← hvalue, ← rd_eq_leBytesAt]
    exact exec_of_done h hi (loadIss_ok ha (by rw [← hbad]; exact coreLoad_here hp))
  · rw [← hvalue]
    exact exec_of_done h hi (loadIss_ok ha hg)
  · exact exec_of_stall h hi (loadIss_stall ha hg)

theorem scalarStoresWriteTheirBytes : ScalarStoresWriteTheirBytes := by
  intro c f s h x va e he n i w place
  have hi : exec i s = issue c w (storeIss n f) s := exec_storeRow e he c f s
  refine ⟨fun hm => ?_, fun ha hp => ?_, fun a ha hp => ?_, fun s' v ha _ hg => ?_, fun s' run ha _ hg => ?_⟩
  · exact exec_of_exc h hi (storeIss_misaligned hm)
  · exact exec_of_exc h hi (storeIss_exc ha (coreStore_undef hp))
  · exact ⟨_, exec_of_done h hi (storeIss_ok ha (coreStore_here hp)), stored_of_stored_mod (stored_storeBits _ _ _ _ _)⟩
  · exact exec_of_done h hi (storeIss_ok ha hg)
  · exact exec_of_stall h hi (storeIss_stall ha hg)

/-- Settles O5: each row is a load or store of its size, which ends as the access of `coreLoad` or `coreStore` does. -/
theorem scalarLoadsAndStoresReachAlignedBytes : Obligations.ScalarLoadsAndStoresReachAlignedBytes :=
  ⟨scalarLoadsReadAlignedBytes, scalarStoresWriteTheirBytes⟩

end Sys2Proof.Machine
end

section
/-! The statement on floe DMA requests as a core issues them (04, 05): O10 proved. -/

namespace Sys2Proof.Machine

open Sys2Proof Claims

-- DMAIS by its checks (R103, R133)

/-- The address and the channel that DMAIS refuses. -/
def DmaisBad (x : Core) (f : RForm) : Prop :=
  (x.s f.rs1).toNat / 2 ^ 40 ≠ 0xFFF ∨ (x.s f.rs1).toNat % 16 ≠ 0 ∨ 0x4000 < (x.s f.rs1).toNat % 2 ^ 40 + 48 ∨ 15 < (x.s f.rs2).toNat

/-- The record that DMAIS reads. -/
def dmaRecord (core : Nat) (x : Core) (f : RForm) (m : Memory) : Nat := m.rd (privBase core + (x.s f.rs1).toNat % 2 ^ 40) 48

/-- The record passes R103: its fields, its local rows, and its formats. -/
def DmaPasses (core : Nat) (x : Core) (s : State) (b len : Nat) : Prop :=
  dmaFields b = true ∧ s.hub.dmaLocalOk core (s.hub.corePart x) b 0 (dmaF b 0x10 4) = true
    ∧ s.hub.dmaLocalOk core (s.hub.corePart x) b 1 len = true ∧ s.dmaFmtOk core x b = true

/-- The tag that the request carries: the core's, where the row narrows into translated memory (R134). -/
def dmaTag (x : Core) (b : Nat) : Option Nat :=
  if FmtByte.ofNat (dmaF b 0x20 1) ≠ FmtByte.ofNat (dmaF b 0x21 1) ∧ narrows (.ofNat (dmaF b 0x20 1)) (.ofNat (dmaF b 0x21 1))
      ∧ !isLocal (dmaF b 8 8) then x.tag else none

/-- The request as it joins the channel's queue `q`. -/
def dmaRequest (core : Nat) (x : Core) (b : Nat) (q : List DmaReq) : DmaReq :=
  ⟨core, b, dmaTag x b, (q.map (·.id)).foldl max 0 + 1, [], false, x.launch - 1, false⟩

/-- The hub with `q` for the queue of a channel. -/
def Hub.setChannel (h : Hub) (n : Nat) (q : List DmaReq) : Hub := { h with sea := { h.sea with dma := tset [] h.sea.dma n q } }

theorem dmaTag_eq_none_or (x : Core) (b : Nat) : dmaTag x b = none ∨ dmaTag x b = x.tag := by
  unfold dmaTag
  split_ifs <;> simp

section
variable {core : Nat} {x : Core} {f : RForm} {s : State}

theorem dmaisIss_refused (h : DmaisBad x f) : dmaisIss f core x s = .exc s x 0x07 (x.s f.rs1).toNat 0 := if_pos h

variable (h : ¬ DmaisBad x f) (hbad : s.mem.bad (privBase core + (x.s f.rs1).toNat % 2 ^ 40) 48 = false)
include h hbad

theorem dmaisIss_full (hq : 4 ≤ (tget [] s.hub.sea.dma (16 * (core / 128) + (x.s f.rs2).toNat)).length) :
    dmaisIss f core x s = .stall s (.dmaFull (x.s f.rs2).toNat) :=
  (if_neg h).trans ((if_neg (ne_true_of_eq_false hbad)).trans (if_pos hq))

theorem dmaisIss_queued {k len : Nat} (hq : (tget [] s.hub.sea.dma (16 * (core / 128) + (x.s f.rs2).toNat)).length < 4)
    (hlen : dmaLen (dmaRecord core x f s.mem) = some (k, len)) (hpass : DmaPasses core x s (dmaRecord core x f s.mem) len)
    (hrun : s.hub.halted (s.hub.corePart x) (dmaTag x (dmaRecord core x f s.mem)) = false) :
    dmaisIss f core x s = afterStores core s (.done (s.onHub (·.setChannel (16 * (core / 128) + (x.s f.rs2).toNat)
      (tget [] s.hub.sea.dma (16 * (core / 128) + (x.s f.rs2).toNat)
        ++ [dmaRequest core x (dmaRecord core x f s.mem) (tget [] s.hub.sea.dma (16 * (core / 128) + (x.s f.rs2).toNat))]))) x.adv) := by
  obtain ⟨hfields, hsrc, hdst, hfmt⟩ := hpass
  have hpasses : (!dmaFields (dmaRecord core x f s.mem) || !s.hub.dmaLocalOk core (s.hub.corePart x) (dmaRecord core x f s.mem) 0
      (dmaF (dmaRecord core x f s.mem) 0x10 4) || !s.hub.dmaLocalOk core (s.hub.corePart x) (dmaRecord core x f s.mem) 1 len
      || !s.dmaFmtOk core x (dmaRecord core x f s.mem)) = false := by
    simp only [hfields, hsrc, hdst, hfmt, Bool.not_true, Bool.or_self]
  refine (if_neg h).trans ((if_neg (ne_true_of_eq_false hbad)).trans ((if_neg (not_le.2 hq)).trans ?_))
  extract_lets b
  split
  · next hnone => exact absurd (hlen.symm.trans hnone) nofun
  · next hsome =>
    obtain ⟨-, rfl⟩ := Prod.mk.inj (Option.some.inj (hlen.symm.trans hsome))
    exact (if_neg (ne_true_of_eq_false hpasses)).trans (if_neg (ne_true_of_eq_false hrun))

end

theorem not_dmaisBad_of_dmaRecordAt {c : CoreId} {f : RForm} {s : State} (h : DmaRecordAt c f s) : ¬ DmaisBad (coreOf c s) f := by
  obtain ⟨hwin, halign, hend, hch, -⟩ := h
  unfold DmaisBad
  omega

-- O10

/-- Settles O10: DMAIS by its checks in order, DMAST and DMAWT by the queues that they look at. -/
theorem dmaRequestsQueueOnTheirChannel : Obligations.DmaRequestsQueueOnTheirChannel := by
  intro c f s h x core va ch p q b
  refine ⟨fun hbad => ?_, fun hrec hq => ?_, fun k len hrec hq hlen hfields hsrc hdst hfmt hrun hst => ?_, ?_, fun hch hq => ?_, fun hch hq => ?_,
    fun hch => ?_⟩
  · exact exec_of_exc h rfl (dmaisIss_refused hbad)
  · exact exec_of_stall h rfl (dmaisIss_full (not_dmaisBad_of_dmaRecordAt hrec) hrec.2.2.2.2 hq)
  · have htag : s.hub.halted p (dmaTag x b) = false := by
      cases ht : dmaTag x b with
      | none => rfl
      | some t => exact hrun t ((dmaTag_eq_none_or x b).resolve_left (by simp [ht]) ▸ ht)
    refine ⟨dmaRequest core x b q, rfl, rfl, rfl, dmaTag_eq_none_or x b, exec_of_done h rfl ?_⟩
    exact (dmaisIss_queued (not_dmaisBad_of_dmaRecordAt hrec) hrec.2.2.2.2 hq hlen ⟨hfields, hsrc, hdst, hfmt⟩ htag).trans
      (afterStores_of_storesDone hst _)
  · exact exec_of_done (w := encR 0x2F 1 f) (body := dmastIss f) h rfl rfl
  · exact exec_of_done h rfl ((if_neg (not_lt.2 hch)).trans (if_pos hq))
  · exact exec_of_done h rfl ((if_neg (not_lt.2 hch)).trans (if_neg hq))
  · exact exec_of_exc h rfl (if_pos hch)

end Sys2Proof.Machine
end

section
/-! The statement on the LAUNCH command (04, 15): O25 proved. -/

namespace Sys2Proof.Machine

open Sys2Proof Claims

-- LAUNCH by its checks (R93, Table 7)

/-- The translation of the descriptor's address, at the port of the partition's lowest floe. -/
def State.descRead (s : State) (c : QCmd) : Option Nat × State :=
  let p := s.hub.cmdPart c
  s.translate ⟨s.hub.descFloe p / 256, ⟨0, s.hub.descFloe p, qf c 0x18 2⟩, p, p, qf c 0x10 8, .read, .command c⟩

section
variable {c : QCmd} {s : State}

theorem launchCmd_unnamed (h : c.fn = 0 ∧ 24 ≤ s.hub.cmdPart c) : launchCmd c s = s.done c 0x02 0 := if_pos h

variable (hnamed : ¬ (c.fn = 0 ∧ 24 ≤ s.hub.cmdPart c))
include hnamed

theorem launchCmd_shut (h : s.hub.whiteout = true ∨ s.hub.life = 3) : launchCmd c s = s.done c 0x0D 0 := (if_neg hnamed).trans (if_pos h)

variable (hshut : ¬ (s.hub.whiteout = true ∨ s.hub.life = 3))
include hshut

theorem launchCmd_thawing (h : s.hub.partState (s.hub.cmdPart c) = 4) : launchCmd c s = s.done c 0x10 0 :=
  (if_neg hnamed).trans ((if_neg hshut).trans (if_pos h))

theorem launchCmd_inactive (hthaw : s.hub.partState (s.hub.cmdPart c) ≠ 4) (h : s.hub.partState (s.hub.cmdPart c) ≠ 2) :
    launchCmd c s = s.done c 0x0D 0 :=
  (if_neg hnamed).trans ((if_neg hshut).trans ((if_neg hthaw).trans (if_pos h)))

variable (hactive : s.hub.partState (s.hub.cmdPart c) = 2)
include hactive

theorem launchCmd_malformed (h : cmdHeader c true ≠ 0 ∨ !qz c 0x1A 0x40 ∨ qf c 0x10 8 % 64 ≠ 0) : launchCmd c s = s.done c 0x02 0 :=
  (if_neg hnamed).trans ((if_neg hshut).trans ((if_neg (by omega)).trans ((if_neg (not_not.2 hactive)).trans (if_pos h))))

/-- A command that passes rows 1 and 2 reads its descriptor; rows 3 and 4 decide on what was read. -/
theorem launchCmd_read (hform : ¬ (cmdHeader c true ≠ 0 ∨ !qz c 0x1A 0x40 ∨ qf c 0x10 8 % 64 ≠ 0)) {a : Nat} (ha : (s.descRead c).1 = some a) :
    let got := (s.descRead c).2.hubRead (.part (s.hub.cmdPart c)) a 128 true
    let l := Launch.new c (s.hub.cmdPart c) got.v
    launchCmd c s = if got.st ≠ 0 then got.s.done c got.st 0 else if got.bad ≠ 0 then got.s.done c 0x08 0
      else if got.s.hub.launchCheck l ≠ 0 then got.s.done c (got.s.hub.launchCheck l) 0
      else got.s.onHub (fun h => h.setLaunch h.nextLaunch l) := by
  intro got l
  refine (if_neg hnamed).trans ((if_neg hshut).trans ((if_neg (by omega)).trans ((if_neg (not_not.2 hactive)).trans ((if_neg hform).trans ?_))))
  extract_lets f
  split
  · next hx => exact absurd (ha.symm.trans (congrArg Prod.fst hx)) nofun
  · next hx =>
    obtain rfl := Option.some.inj (ha.symm.trans (congrArg Prod.fst hx))
    obtain rfl := congrArg Prod.snd hx
    rfl

end

-- The number of a new launch

theorem mem_of_tlook {α : Type} {t : Tab α} {k : Nat} {v : α} (h : tlook t k = some v) : (k, v) ∈ t := by
  induction t with
  | nil => cases h
  | cons p t ih =>
    obtain ⟨j, w⟩ := p
    by_cases hj : j = k
    · simp only [tlook, hj, if_true, Option.some.injEq] at h
      simp [hj, h]
    · simp only [tlook, hj, if_false] at h
      simp [ih h]

theorem lt_foldl_max {α : Type} {t : Tab α} {k : Nat} {v : α} (m : Nat) (h : (k, v) ∈ t) : k < t.foldl (fun m l => max m (l.1 + 1)) m := by
  have hgrow (t : Tab α) (m : Nat) : m ≤ t.foldl (fun m l => max m (l.1 + 1)) m := by
    induction t generalizing m with
    | nil => exact le_rfl
    | cons p t ih => exact (le_max_left _ _).trans (ih _)
  induction t generalizing m with
  | nil => cases h
  | cons p t ih =>
    rcases List.mem_cons.1 h with rfl | h
    · exact (Nat.lt_succ_self k).trans_le ((le_max_right _ _).trans (hgrow t _))
    · exact ih _ h

/-- Every launch listed stands before a new one. -/
theorem Hub.lt_nextLaunch {h : Hub} {k : Nat} (hk : tlook h.sea.launches k ≠ none) : k < h.nextLaunch := by
  obtain ⟨l, hl⟩ := Option.ne_none_iff_exists'.1 hk
  exact lt_foldl_max 0 (mem_of_tlook hl)

-- O25

theorem exec_launch (c : QCmd) (s : State) : exec (.launch c) s = .next (launchCmd c s) := rfl

/-- Settles O25: a LAUNCH by the rows of Table 7 in order; a number above every launch listed is its own. -/
theorem launchesAreCheckedAndQueued : Obligations.LaunchesAreCheckedAndQueued := by
  intro c s p i completes named shut formed read
  have hnamed : named ↔ ¬ (c.fn = 0 ∧ 24 ≤ p) := by simp only [named]; omega
  have hformed : formed ↔ ¬ (cmdHeader c true ≠ 0 ∨ !qz c 0x1A 0x40 ∨ qf c 0x10 8 % 64 ≠ 0) := by simp [formed]
  rw [hnamed, hformed, not_not, not_not]
  refine ⟨fun hn => ?_, fun hn hs => ?_, fun hn hs ht => ?_, fun hn hs ht hi => ?_, fun hn hs ha hf => ?_, fun hn hs ha hf a hread => ?_⟩
  · exact congrArg Host.Outcome.next (launchCmd_unnamed hn)
  · exact congrArg Host.Outcome.next (launchCmd_shut hn hs)
  · exact congrArg Host.Outcome.next (launchCmd_thawing hn hs ht)
  · exact congrArg Host.Outcome.next (launchCmd_inactive hn hs ht hi)
  · exact congrArg Host.Outcome.next (launchCmd_malformed hn hs ha hf)
  · intro got l
    have hexec := congrArg (Host.Outcome.next (φ := Fault) (ρ := Refusal)) (launchCmd_read hn hs ha hf hread)
    refine ⟨fun hst => ?_, fun hst hbad => ?_, fun hst hbad hl => ?_, fun hst hbad hl => ⟨?_, fun k => Hub.lt_nextLaunch⟩⟩
    · exact hexec.trans (congrArg _ (if_pos hst))
    · exact hexec.trans (congrArg _ ((if_neg (not_not.2 hst)).trans (if_pos hbad)))
    · exact hexec.trans (congrArg _ ((if_neg (not_not.2 hst)).trans ((if_neg (not_not.2 hbad)).trans (if_pos hl))))
    · exact hexec.trans (congrArg _ ((if_neg (not_not.2 hst)).trans ((if_neg (not_not.2 hbad)).trans (if_neg (not_not.2 hl)))))

end Sys2Proof.Machine
end

section
/-! SUPPORT. Sets of keys, cores made ready, and barriers: what each operation of the sea on them leaves (04: R98, R99). -/

namespace Sys2Proof.Machine

open Sys2Proof Claims

-- Sets of keys

theorem kmem_iff {l : List Nat} {k : Nat} : kmem l k = true ↔ k ∈ l := by simp [kmem]

theorem mem_kins {l : List Nat} {k d : Nat} : d ∈ kins l k ↔ d = k ∨ d ∈ l := by
  induction l with
  | nil => simp [kins]
  | cons x l ih =>
    rw [kins]
    split_ifs
    · exact List.mem_cons
    · simp only [List.mem_cons, ih, or_left_comm]

theorem mem_kadd {l : List Nat} {k d : Nat} : d ∈ kadd l k ↔ d = k ∨ d ∈ l := by
  by_cases h : d = k <;> simp [kadd, mem_kins, kdel, h]

theorem kadd_ne_nil (l : List Nat) (k : Nat) : kadd l k ≠ [] := List.ne_nil_of_mem (mem_kadd.2 (.inl rfl))

-- Cores made ready

theorem Hub.core_readyCores (h : Hub) (l : List Nat) (d : Nat) :
    (h.readyCores l).core d = if d ∈ l then { h.core d with run := .ready } else h.core d := by
  induction l generalizing h with
  | nil => rfl
  | cons c l ih =>
    change ((h.setCore c { h.core c with run := .ready }).readyCores l).core d = _
    rw [ih]
    by_cases hd : d = c
    · subst hd
      simp
    · simp [Hub.core_setCore_ne _ _ hd, hd]

/-- The hub with other cores. -/
def Hub.withCores (h : Hub) (t : Tab Core) : Hub := { h with sea := { h.sea with cores := t } }

/-- Cores set one after another change nothing but cores. -/
theorem Hub.foldl_setCore_eq {α : Type} (num : α → Nat) (g : Hub → α → Core) (l : List α) (h : Hub) :
    ∃ t, l.foldl (fun h i => h.setCore (num i) (g h i)) h = h.withCores t := by
  induction l generalizing h with
  | nil => exact ⟨h.sea.cores, rfl⟩
  | cons i l ih => exact ih (h.setCore (num i) (g h i))

theorem Hub.readyCores_eq (h : Hub) (l : List Nat) : ∃ t, h.readyCores l = h.withCores t :=
  Hub.foldl_setCore_eq id (fun h c => { h.core c with run := .ready }) l h

/-- Registers are as before, and every core is but for its run state: what arrivals and releases leave. -/
structure Hub.SameButRuns (h k : Hub) : Prop where
  regs : k.regs = h.regs
  cores : ∀ d, k.core d = { h.core d with run := (k.core d).run }

theorem Hub.SameButRuns.rfl {h : Hub} : h.SameButRuns h := ⟨.refl _, fun _ => .refl _⟩

theorem Hub.SameButRuns.trans {h k l : Hub} (a : h.SameButRuns k) (b : k.SameButRuns l) : h.SameButRuns l :=
  ⟨b.regs.trans a.regs, fun d => by rw [b.cores d, a.cores d]⟩

theorem Hub.sameButRuns_setCore (h : Hub) (c : Nat) (r : CoreRun) : h.SameButRuns (h.setCore c { h.core c with run := r }) := by
  refine ⟨rfl, fun d => ?_⟩
  by_cases hd : d = c
  · subst hd
    rw [Hub.core_setCore_same]
  · rw [Hub.core_setCore_ne _ _ hd]

theorem Hub.sameButRuns_readyCores (h : Hub) (l : List Nat) : h.SameButRuns (h.readyCores l) := by
  refine ⟨?_, fun d => ?_⟩
  · obtain ⟨t, ht⟩ := h.readyCores_eq l
    rw [ht]
    rfl
  · rw [Hub.core_readyCores]
    split_ifs <;> rfl

-- Barriers and grid barriers

/-- A barrier written. -/
def Hub.setBarrier (h : Hub) (k : Nat) (y : Barrier) : Hub := { h with sea := { h.sea with barriers := tset Barrier.rst h.sea.barriers k y } }

/-- A grid barrier written. -/
def Hub.setGrid (h : Hub) (k : Nat) (y : Barrier) : Hub := { h with sea := { h.sea with grid := tset Barrier.rst h.sea.grid k y } }

/-- The hub with a core standing at barrier `b`. -/
def Hub.standAt (h : Hub) (core b : Nat) : Hub := h.setCore core { h.core core with run := .atBarrier b }

theorem Hub.sameButRuns_setBarrier (h : Hub) (k : Nat) (y : Barrier) : h.SameButRuns (h.setBarrier k y) := ⟨rfl, fun _ => rfl⟩

theorem Hub.sameButRuns_setGrid (h : Hub) (k : Nat) (y : Barrier) : h.SameButRuns (h.setGrid k y) := ⟨rfl, fun _ => rfl⟩

theorem Hub.sameButRuns_standAt (h : Hub) (core b : Nat) : h.SameButRuns (h.standAt core b) := h.sameButRuns_setCore core _

theorem Hub.run_standAt (h : Hub) (core b : Nat) : ((h.standAt core b).core core).run = .atBarrier b := by
  rw [Hub.standAt, Hub.core_setCore_same]

section
variable {h : Hub} {core b n f k tc slot : Nat} {y : Barrier} {l : Launch}

/-- An arrival is added, and the first one of a barrier fixes its count (R98). -/
theorem Hub.arrive_eq : h.arrive core b n slot = h.setBarrier (barKey (core / 128) b slot)
    ⟨if (tget Barrier.rst h.sea.barriers (barKey (core / 128) b slot)).arrived = [] then n
      else (tget Barrier.rst h.sea.barriers (barKey (core / 128) b slot)).count,
      kadd (tget Barrier.rst h.sea.barriers (barKey (core / 128) b slot)).arrived core⟩ := rfl

/-- One of the count that the barrier holds leaves that count. -/
theorem Hub.arrive_of_count (hn : (tget Barrier.rst h.sea.barriers (barKey (core / 128) b slot)).arrived = []
      ∨ (tget Barrier.rst h.sea.barriers (barKey (core / 128) b slot)).count = n) :
    h.arrive core b n slot = h.setBarrier (barKey (core / 128) b slot)
      ⟨n, kadd (tget Barrier.rst h.sea.barriers (barKey (core / 128) b slot)).arrived core⟩ := by
  rw [Hub.arrive_eq]
  congr 2
  split_ifs with he
  exacts [rfl, hn.resolve_left he]

theorem Hub.releaseCount_of_lt (hlt : y.arrived.length < y.count) :
    (h.setBarrier (barKey f b 0) y).releaseCount f b = h.setBarrier (barKey f b 0) y := by
  simp [Hub.releaseCount, Hub.setBarrier, hlt]

theorem Hub.releaseCount_of_le (hne : y.arrived ≠ []) (hle : y.count ≤ y.arrived.length) :
    (h.setBarrier (barKey f b 0) y).releaseCount f b = ((h.setBarrier (barKey f b 0) y).setBarrier (barKey f b 0) .rst).readyCores y.arrived := by
  simp [Hub.releaseCount, Hub.setBarrier, hne, hle]

theorem Hub.releaseTile_of_not_all (hall : ¬ ∀ d ∈ slotCores f slot tc, kmem y.arrived d = true ∨ (h.core d).run = .ended) :
    (h.setBarrier (barKey f 0 slot) y).releaseTile f slot tc = h.setBarrier (barKey f 0 slot) y := by
  have hall' : ¬ ((slotCores f slot tc).all (fun c => kmem y.arrived c || decide ((h.core c).run = .ended)) = true) := by simpa using hall
  have hbar : tget Barrier.rst (h.setBarrier (barKey f 0 slot) y).sea.barriers (barKey f 0 slot) = y := tget_tset_same _ _ _ _
  simp only [Hub.releaseTile, hbar]
  split_ifs with h1 h2
  exacts [rfl, absurd h2 hall', rfl]

theorem Hub.releaseTile_of_all (hne : y.arrived ≠ []) (hall : ∀ d ∈ slotCores f slot tc, kmem y.arrived d = true ∨ (h.core d).run = .ended) :
    (h.setBarrier (barKey f 0 slot) y).releaseTile f slot tc
      = ((h.setBarrier (barKey f 0 slot) y).setBarrier (barKey f 0 slot) .rst).readyCores y.arrived := by
  have hall' : (slotCores f slot tc).all (fun c => kmem y.arrived c || decide ((h.core c).run = .ended)) = true := by simpa using hall
  have hbar : tget Barrier.rst (h.setBarrier (barKey f 0 slot) y).sea.barriers (barKey f 0 slot) = y := tget_tset_same _ _ _ _
  simp only [Hub.releaseTile, hbar]
  exact (if_neg hne).trans (if_pos hall')

theorem Hub.arriveGrid_of_lt (hlt : (kadd (tget Barrier.rst h.sea.grid k).arrived core).length < l.total * l.tc) :
    h.arriveGrid core k l = h.setGrid k ⟨0, kadd (tget Barrier.rst h.sea.grid k).arrived core⟩ := if_neg (not_le.2 hlt)

theorem Hub.arriveGrid_of_le (hle : l.total * l.tc ≤ (kadd (tget Barrier.rst h.sea.grid k).arrived core).length) :
    h.arriveGrid core k l = (h.setGrid k .rst).readyCores (kadd (tget Barrier.rst h.sea.grid k).arrived core) := if_pos hle

end

end Sys2Proof.Machine
end

section
/-! The statement on barriers and event counters (04, 05): O9 proved. -/

namespace Sys2Proof.Machine

open Sys2Proof Claims

-- BAR by its barrier (R131)

/-- BAR has arrived: the core goes on in the state that the hub `h` gives it. -/
def goesOn (core : Nat) (x : Core) (s : State) (h : Hub) : Iss := .done { s with hub := h } { x.adv with run := (h.core core).run }

section
variable {c : CoreId} {f : IForm} {s : State} {b : Nat} {l : Launch}

section
variable (h : BarAt c f s b l) (hlo : 1 ≤ b) (hhi : b < 15)
include h hlo hhi

theorem barIss_refused (hn : ((coreOf c s).s f.rs1).toNat = 0 ∨ 128 < ((coreOf c s).s f.rs1).toNat
      ∨ ((barrierAt s (barKey (coreNum c / 128) b 0)).arrived ≠ [] ∧ (barrierAt s (barKey (coreNum c / 128) b 0)).count ≠ ((coreOf c s).s f.rs1).toNat)) :
    barIss f (coreNum c) (coreOf c s) s = .exc s (coreOf c s) 0x06 0 0 := by
  obtain ⟨himm, hrd, hst, hl⟩ := h
  have hmod : b % 16 = b := Nat.mod_eq_of_lt (by omega)
  simp only [barIss, himm, hrd, Nat.div_eq_of_lt (show b < 16 by omega), ne_eq, not_true_eq_false, or_self, if_false, hl,
    afterStores_of_storesDone hst, hmod, (show b ≠ 15 by omega), (show b ≠ 0 by omega)]
  split_ifs with h1 h2
  exacts [rfl, rfl, absurd hn (by tauto)]

theorem barIss_arrives (h1 : 1 ≤ ((coreOf c s).s f.rs1).toNat) (h128 : ((coreOf c s).s f.rs1).toNat ≤ 128)
    (hn : (barrierAt s (barKey (coreNum c / 128) b 0)).arrived = []
      ∨ (barrierAt s (barKey (coreNum c / 128) b 0)).count = ((coreOf c s).s f.rs1).toNat) :
    barIss f (coreNum c) (coreOf c s) s = goesOn (coreNum c) (coreOf c s) s
      (((s.hub.standAt (coreNum c) b).setBarrier (barKey (coreNum c / 128) b 0)
        ⟨((coreOf c s).s f.rs1).toNat, kadd (barrierAt s (barKey (coreNum c / 128) b 0)).arrived (coreNum c)⟩).releaseCount (coreNum c / 128) b) := by
  have harrive := Hub.arrive_of_count (h := s.hub.standAt (coreNum c) b) (core := coreNum c) (b := b) (slot := 0) hn
  obtain ⟨himm, hrd, hst, hl⟩ := h
  have hmod : b % 16 = b := Nat.mod_eq_of_lt (by omega)
  simp only [barIss, himm, hrd, Nat.div_eq_of_lt (show b < 16 by omega), ne_eq, not_true_eq_false, or_self, if_false, hl,
    afterStores_of_storesDone hst, hmod, (show b ≠ 15 by omega), (show b ≠ 0 by omega)]
  refine (if_neg (by omega)).trans ((if_neg ?_).trans (congrArg (fun k : Hub => goesOn _ _ s (k.releaseCount _ b)) harrive))
  exact fun ⟨h2, h3⟩ => hn.elim h2 h3

end

theorem barIss_tile (h : BarAt c f s 0 l) : barIss f (coreNum c) (coreOf c s) s = goesOn (coreNum c) (coreOf c s) s
    (((s.hub.standAt (coreNum c) 0).arrive (coreNum c) 0 0 (coreOf c s).slot).releaseTile (coreNum c / 128) (coreOf c s).slot l.tc) := by
  obtain ⟨himm, hrd, hst, hl⟩ := h
  simp only [barIss, himm, hrd, Nat.zero_div, Nat.zero_mod, ne_eq, not_true_eq_false, or_self, if_false, hl, afterStores_of_storesDone hst,
    (show (0 : Nat) ≠ 15 by decide), if_true]
  rfl

theorem barIss_noGrid (h : BarAt c f s 15 l) (hflag : l.flag 1 = false) :
    barIss f (coreNum c) (coreOf c s) s = .exc s (coreOf c s) 0x06 0 0 := by
  obtain ⟨himm, hrd, hst, hl⟩ := h
  simp [barIss, himm, hrd, hl, afterStores_of_storesDone hst, hflag]

theorem barIss_grid (h : BarAt c f s 15 l) (hflag : l.flag 1 = true) : barIss f (coreNum c) (coreOf c s) s = goesOn (coreNum c) (coreOf c s) s
    ((s.hub.standAt (coreNum c) 15).arriveGrid (coreNum c) ((coreOf c s).launch - 1) l) := by
  obtain ⟨himm, hrd, hst, hl⟩ := h
  simp only [barIss, himm, hrd, (show 15 / 16 = 0 by decide), (show 15 % 16 = 15 by decide), ne_eq, not_true_eq_false, or_self, if_false, hl,
    afterStores_of_storesDone hst, hflag, if_true]
  rfl

/-- BAR leaves the barriers and the run states of the hub it goes on with, and every core else as it was. -/
theorem exec_bar_goesOn (hready : Ready c s) {k : Hub} (hsame : s.hub.SameButRuns k)
    (hgo : barIss f (coreNum c) (coreOf c s) s = goesOn (coreNum c) (coreOf c s) s k) :
    ∃ t, exec (.bar c f) s = .next t ∧ Arrived c s t (k.core (coreNum c)).run ∧ t.hub.sea.barriers = k.sea.barriers
      ∧ t.hub.sea.grid = k.sea.grid ∧ ∀ d, (t.hub.core d).run = (k.core d).run := by
  refine ⟨_, exec_of_done hready (w := encI 0x2D f) (body := barIss f) rfl hgo, ⟨?_, ?_, ?_, ?_, rfl, hsame.regs, fun d hd => ?_⟩, rfl, rfl, fun d => ?_⟩
  · simp [coreOf, retired]
  · simp [coreOf, retired, Core.adv]
  · simp [coreOf, retired, Core.adv]
  · simp [coreOf, retired, Core.adv]
  · simpa [retired, Hub.core_setCore_ne _ _ hd] using hsame.cores d
  · by_cases hd : d = coreNum c
    · subst hd
      simp [retired]
    · simp [retired, Hub.core_setCore_ne _ _ hd]

/-- Where the hub it goes on with is that of the arrival, the core waits. -/
theorem runs_bar_waits (hready : Ready c s) {k : Hub} (hsame : (s.hub.standAt (coreNum c) b).SameButRuns k)
    (hcore : k.core (coreNum c) = (s.hub.standAt (coreNum c) b).core (coreNum c))
    (hgo : barIss f (coreNum c) (coreOf c s) s = goesOn (coreNum c) (coreOf c s) s k) :
    ∃ t, exec (.bar c f) s = .next t ∧ Arrived c s t (.atBarrier b) ∧ t.hub.sea.barriers = k.sea.barriers ∧ t.hub.sea.grid = k.sea.grid := by
  obtain ⟨t, hexec, harr, hbar, hgrid, -⟩ := exec_bar_goesOn hready ((s.hub.sameButRuns_standAt _ _).trans hsame) hgo
  rw [hcore, Hub.run_standAt] at harr
  exact ⟨t, hexec, harr, hbar, hgrid⟩

/-- Where it releases the cores that arrived, the core among them goes on, and so do they. -/
theorem runs_bar_releases (hready : Ready c s) {k : Hub} (hsame : (s.hub.standAt (coreNum c) b).SameButRuns k) {a : List Nat}
    (ha : coreNum c ∈ a) (hgo : barIss f (coreNum c) (coreOf c s) s = goesOn (coreNum c) (coreOf c s) s (k.readyCores a)) :
    ∃ t, exec (.bar c f) s = .next t ∧ Arrived c s t .ready ∧ t.hub.sea.barriers = k.sea.barriers ∧ t.hub.sea.grid = k.sea.grid
      ∧ ∀ d ∈ a, (t.hub.core d).run = .ready := by
  have hrun {d : Nat} (hd : d ∈ a) : ((k.readyCores a).core d).run = .ready := by rw [Hub.core_readyCores, if_pos hd]
  obtain ⟨t, hexec, harr, hbar, hgrid, hruns⟩ :=
    exec_bar_goesOn hready (((s.hub.sameButRuns_standAt _ _).trans hsame).trans (k.sameButRuns_readyCores a)) hgo
  obtain ⟨cs, hcs⟩ := k.readyCores_eq a
  rw [hrun ha] at harr
  rw [hcs] at hbar hgrid
  exact ⟨t, hexec, harr, hbar, hgrid, fun d hd => (hruns d).trans (hrun hd)⟩

end

theorem barrierAt_of_set {t : State} {h : Hub} {k : Nat} {y : Barrier} (ht : t.hub.sea.barriers = (h.setBarrier k y).sea.barriers) :
    barrierAt t k = y := by
  rw [barrierAt, ht]
  exact tget_tset_same _ _ _ _

theorem gridAt_of_set {t : State} {h : Hub} {k : Nat} {y : Barrier} (ht : t.hub.sea.grid = (h.setGrid k y).sea.grid) : gridAt t k = y := by
  rw [gridAt, ht]
  exact tget_tset_same _ _ _ _

theorem barriersReleaseOnTheLastArrival : BarriersReleaseOnTheLastArrival := by
  intro c f s l h x n core w
  refine ⟨fun b hlo hhi hbar => ?count, fun hbar => ?tile, fun hbar => ?grid⟩
  case count =>
    intro k y a
    refine ⟨fun hn => ?_, fun h1 h128 hn hlt => ?_, fun h1 h128 hn hle => ?_⟩
    · exact exec_of_exc h rfl (barIss_refused hbar hlo hhi hn)
    · have hgo := barIss_arrives hbar hlo hhi h1 h128 hn
      rw [Hub.releaseCount_of_lt (y := ⟨n, a⟩) hlt] at hgo
      obtain ⟨t, hexec, harr, hbars, -⟩ := runs_bar_waits h (Hub.sameButRuns_setBarrier _ _ _) rfl hgo
      exact ⟨t, hexec, harr, barrierAt_of_set hbars⟩
    · have hgo := barIss_arrives hbar hlo hhi h1 h128 hn
      rw [Hub.releaseCount_of_le (y := ⟨n, a⟩) (kadd_ne_nil _ _) hle] at hgo
      obtain ⟨t, hexec, harr, hbars, -, hruns⟩ := runs_bar_releases h
        ((Hub.sameButRuns_setBarrier _ _ _).trans (Hub.sameButRuns_setBarrier _ _ _)) (mem_kadd.2 (.inl rfl)) hgo
      exact ⟨t, hexec, harr, barrierAt_of_set hbars, hruns⟩
  case tile =>
    intro k a all
    have hstand : (∀ d ∈ slotCores (core / 128) x.slot l.tc, kmem a d = true ∨ ((s.hub.standAt core 0).core d).run = .ended) ↔ all := by
      refine forall₂_congr fun d _ => ?_
      by_cases hd : d = core
      · have hmem : kmem a d = true := kmem_iff.2 (mem_kadd.2 (.inl hd))
        simp [hmem]
      · rw [Hub.standAt, Hub.core_setCore_ne _ _ hd]
    have hgo := barIss_tile hbar
    rw [Hub.arrive_eq] at hgo
    refine ⟨fun hall => ?_, fun hall => ?_⟩
    · rw [Hub.releaseTile_of_not_all (mt hstand.1 hall)] at hgo
      obtain ⟨t, hexec, harr, hbars, -⟩ := runs_bar_waits h (Hub.sameButRuns_setBarrier _ _ _) rfl hgo
      exact ⟨t, hexec, harr, congrArg Barrier.arrived (barrierAt_of_set hbars)⟩
    · rw [Hub.releaseTile_of_all (kadd_ne_nil _ _) (hstand.2 hall)] at hgo
      obtain ⟨t, hexec, harr, hbars, -, hruns⟩ := runs_bar_releases h
        ((Hub.sameButRuns_setBarrier _ _ _).trans (Hub.sameButRuns_setBarrier _ _ _)) (mem_kadd.2 (.inl rfl)) hgo
      exact ⟨t, hexec, harr, barrierAt_of_set hbars, hruns⟩
  case grid =>
    intro a
    refine ⟨fun hflag => ?_, fun hflag hlt => ?_, fun hflag hle => ?_⟩
    · exact exec_of_exc h rfl (barIss_noGrid hbar hflag)
    · have hgo := barIss_grid hbar hflag
      rw [Hub.arriveGrid_of_lt (h := s.hub.standAt core 15) hlt] at hgo
      obtain ⟨t, hexec, harr, -, hgrid⟩ := runs_bar_waits h (Hub.sameButRuns_setGrid _ _ _) rfl hgo
      exact ⟨t, hexec, harr, congrArg Barrier.arrived (gridAt_of_set hgrid)⟩
    · have hgo := barIss_grid hbar hflag
      rw [Hub.arriveGrid_of_le (h := s.hub.standAt core 15) hle] at hgo
      obtain ⟨t, hexec, harr, -, hgrid, hruns⟩ := runs_bar_releases h (Hub.sameButRuns_setGrid _ _ _) (mem_kadd.2 (.inl rfl)) hgo
      exact ⟨t, hexec, harr, gridAt_of_set hgrid, hruns⟩

-- EVT by its counter (R100, R132)

section
variable {c : CoreId} {f : RForm} {s : State} {fl k : Nat}

theorem evtIss_window {core : Nat} {x : Core} {go : Nat → Nat → Iss} (h : s.hub.evtAt core (s.hub.corePart x) (x.s f.rs1).toNat = none) :
    evtIss f core x s go = .exc s x 0x03 (x.s f.rs1).toNat 0 := by
  simp only [evtIss, h]

theorem evtIss_counter {core : Nat} {x : Core} {go : Nat → Nat → Iss}
    (h : s.hub.evtAt core (s.hub.corePart x) (x.s f.rs1).toNat = some (fl, k)) : evtIss f core x s go = go fl k := by
  simp only [evtIss, h]

theorem counter_eq (m : Memory) (fl k : Nat) : m.counter fl k = leBytesAt m (eventHpa fl k) 4 := rd_eq_leBytesAt m _ 4

/-- A counter has reached its target, as R100 compares them. -/
theorem evtMet_iff {v b : Nat} : evtMet v (b % 2 ^ 32) = true ↔ (v + 2 ^ 32 - b % 2 ^ 32) % 2 ^ 32 < 2 ^ 31 := by
  rw [evtMet, decide_eq_true_iff, diff32, Nat.mod_mod, Nat.add_sub_assoc (Nat.mod_lt b (by decide)).le]

end

theorem eventCountersAreReadSetAddedAndAwaited : EventCountersAreReadSetAddedAndAwaited := by
  intro c f s h x core va b
  refine ⟨fun hnone => ⟨?_, ?_, ?_, ?_⟩, fun fl k hcounter => ?_⟩
  · exact exec_of_exc h rfl (body := evtReadIss f) (evtIss_window hnone)
  · exact exec_of_exc h rfl (body := evtSetIss f) (evtIss_window hnone)
  · exact exec_of_exc h rfl (body := evtAddIss f) (evtIss_window hnone)
  · exact exec_of_exc h rfl (body := evtWaitIss f) (evtIss_window hnone)
  · intro a old
    have hold : s.mem.counter fl k = old := counter_eq s.mem fl k
    refine ⟨?_, fun hst => ⟨⟨_, ?_, stored_wr _ _ _ _⟩, _, ?_, stored_wr _ _ _ _⟩, fun hown => ⟨fun hmet => ?_, fun hunmet => ?_⟩, fun hforeign => ?_⟩
    · rw [← hold]
      exact exec_of_done h rfl (body := evtReadIss f) (evtIss_counter hcounter)
    · exact exec_of_done h rfl (body := evtSetIss f) ((evtIss_counter hcounter).trans (afterStores_of_storesDone hst _))
    · rw [← hold]
      exact exec_of_done h rfl (body := evtAddIss f) ((evtIss_counter hcounter).trans (afterStores_of_storesDone hst _))
    · rw [← hold, ← evtMet_iff] at hmet
      exact exec_of_done h rfl (body := evtWaitIss f) ((evtIss_counter hcounter).trans ((if_neg (not_not.2 hown)).trans (if_pos hmet)))
    · rw [← hold, ← not_lt, ← evtMet_iff] at hunmet
      exact exec_of_done h rfl (body := evtWaitIss f) ((evtIss_counter hcounter).trans ((if_neg (not_not.2 hown)).trans (if_neg hunmet)))
    · exact exec_of_exc h rfl (body := evtWaitIss f) ((evtIss_counter hcounter).trans (if_pos hforeign))

/-- Settles O9: BAR by the hub that its arrival leaves, released or not; EVT by the counter that its address names. -/
theorem barriersAndEventCounters : Obligations.BarriersAndEventCounters :=
  ⟨barriersReleaseOnTheLastArrival, eventCountersAreReadSetAddedAndAwaited⟩

end Sys2Proof.Machine
end

section
/-! The statement on tiles that start (04): O26 proved. -/

namespace Sys2Proof.Machine

open Sys2Proof Claims

-- Scalar registers

theorem Core.s_setS_same (x : Core) {n : BitVec 5} (hn : n ≠ 0) (v : Word64) : (x.setS n v).s n = v := by
  rw [Core.s, if_neg hn, Core.setS, if_neg hn]
  exact tget_tset_same _ _ _ _

theorem Core.s_setS_ne (x : Core) {n m : BitVec 5} (hm : m ≠ n) (v : Word64) : (x.setS n v).s m = x.s m := by
  have hnat : m.toNat ≠ n.toNat := mt BitVec.eq_of_toNat_eq hm
  unfold Core.setS
  split_ifs
  · rfl
  · exact congrArg (fun r : Word64 => if m = 0 then 0 else r) (tget_tset_ne _ _ _ _ hnat)

/-- Scalar registers written change nothing else of a core. -/
theorem Core.setS_eq (x : Core) (n : BitVec 5) (v : Word64) : ∃ t, x.setS n v = { x with sr := t } := by
  unfold Core.setS
  split_ifs
  exacts [⟨x.sr, rfl⟩, ⟨_, rfl⟩]

-- Table 6 of 04

/-- The core of a tile before its registers are set (R111). -/
def Launch.bareCore (l : Launch) (k slot tile i : Nat) : Core :=
  { Core.rst with
    pc := BitVec.ofNat 32 (l.f 0x0C 4), srstate := BitVec.ofNat 64 (srConst ^^^ (tile * 128 ||| i)), run := if l.flag 1 then .coWait else .ready,
    launch := k + 1, tile := tile, slot := slot }

/-- Setting its registers changes nothing else. -/
theorem Launch.core_eq (l : Launch) (k f slot tile i : Nat) : ∃ t, l.core k f slot tile i = { l.bareCore k slot tile i with sr := t } := by
  have hset {x y : Core} (h : ∃ t, x = { y with sr := t }) (n : BitVec 5) (v : Word64) : ∃ t, x.setS n v = { y with sr := t } := by
    obtain ⟨t, rfl⟩ := h
    obtain ⟨u, hu⟩ := Core.setS_eq { y with sr := t } n v
    exact ⟨u, hu⟩
  iterate 9 refine hset ?_ _ _
  exact ⟨_, rfl⟩

/-- The registers that Table 6 names, s2 to s8. -/
theorem Launch.core_regs (l : Launch) (k f slot tile i : Nat) :
    (l.core k f slot tile i).s 2 = BitVec.ofNat 64 (tile % l.f 0x20 4)
      ∧ (l.core k f slot tile i).s 3 = BitVec.ofNat 64 (tile / l.f 0x20 4 % l.f 0x24 4)
      ∧ (l.core k f slot tile i).s 4 = BitVec.ofNat 64 (tile / (l.f 0x20 4 * l.f 0x24 4))
      ∧ (l.core k f slot tile i).s 5 = BitVec.ofNat 64 i ∧ (l.core k f slot tile i).s 6 = BitVec.ofNat 64 slot
      ∧ (l.core k f slot tile i).s 7 = BitVec.ofNat 64 f ∧ (l.core k f slot tile i).s 8 = BitVec.ofNat 64 l.id := by
  refine ⟨?_, ?_, ?_, ?_, ?_, ?_, ?_⟩ <;> simp [Launch.core, Core.s_setS_same, Core.s_setS_ne]

-- A tile dealt (R89)

/-- The launch with its next tile running in a slot of a floe. -/
def Launch.withTile (l : Launch) (f slot : Nat) : Launch :=
  { l with next := l.next + 1, running := l.running ++ [(f, slot, l.next, l.tc)], prepared := kadd l.prepared f }

/-- The cores of the tile set up. -/
def Hub.setTileCores (h : Hub) (k f slot : Nat) (l : Launch) : Hub :=
  (List.range l.tc).foldl (fun h i => h.setCore (128 * f + slot * l.tc + i) (l.core k f slot l.next i)) h

/-- And the tile listed. -/
def Hub.setTile (h : Hub) (k f slot : Nat) (l : Launch) : Hub :=
  let h := (h.setTileCores k f slot l).setLaunch k (l.withTile f slot)
  { h with sea := { h.sea with gated := kdel h.sea.gated f } }

theorem Hub.dealTile_eq {l : Launch} (hflag : l.flag 1 = false) (h : Hub) (k f slot : Nat) :
    h.dealTile k f slot l = (h.setTile k f slot l).floeSettle f :=
  if_neg (by simp [hflag])

theorem Hub.core_foldl_setCore (h : Hub) (b n : Nat) (g : Nat → Core) (m : Nat) :
    ((List.range n).foldl (fun h i => h.setCore (b + i) (g i)) h).core m = if b ≤ m ∧ m < b + n then g (m - b) else h.core m := by
  induction n with
  | zero => exact (if_neg (by omega)).symm
  | succ n ih =>
    rw [List.range_succ, List.foldl_append, List.foldl_cons, List.foldl_nil]
    by_cases hm : m = b + n
    · rw [hm, Hub.core_setCore_same, if_pos (by omega), Nat.add_sub_cancel_left]
    · rw [Hub.core_setCore_ne _ _ hm, ih]
      exact if_congr (by omega) rfl rfl

theorem Hub.setTileCores_eq (h : Hub) (k f slot : Nat) (l : Launch) : ∃ t, h.setTileCores k f slot l = h.withCores t :=
  Hub.foldl_setCore_eq _ (fun _ i => l.core k f slot l.next i) _ h

theorem Hub.core_setTile (h : Hub) (k f slot : Nat) (l : Launch) (m : Nat) : (h.setTile k f slot l).core m =
    if 128 * f + slot * l.tc ≤ m ∧ m < 128 * f + slot * l.tc + l.tc then l.core k f slot l.next (m - (128 * f + slot * l.tc)) else h.core m :=
  h.core_foldl_setCore (128 * f + slot * l.tc) l.tc (l.core k f slot l.next) m

theorem Hub.setTile_regs (h : Hub) (k f slot : Nat) (l : Launch) : (h.setTile k f slot l).regs = h.regs := by
  obtain ⟨t, ht⟩ := h.setTileCores_eq k f slot l
  rw [Hub.setTile, ht]
  rfl

theorem Hub.setTile_launches (h : Hub) (k f slot : Nat) (l : Launch) :
    (h.setTile k f slot l).sea.launches = tput h.sea.launches k (l.withTile f slot) := by
  obtain ⟨t, ht⟩ := h.setTileCores_eq k f slot l
  rw [Hub.setTile, ht]
  rfl

-- What runs on the floe

theorem find?_tins {α : Type} {t : Tab α} {k : Nat} {v : α} {P : Nat × α → Bool} (ht : ∀ o ∈ t, P o = false) (hv : P (k, v) = true) :
    (tins t k v).find? P = some (k, v) := by
  induction t with
  | nil => simp [tins, hv]
  | cons o t ih =>
    obtain ⟨ho, ht⟩ := List.forall_mem_cons.1 ht
    rw [tins]
    split_ifs
    · simp [hv]
    · simp [ho, ih ht]

/-- A launch that alone satisfies a test is found once it is written. -/
theorem find?_tput {α : Type} {t : Tab α} {k : Nat} {v : α} {P : Nat × α → Bool} (ht : ∀ o ∈ t, o.1 ≠ k → P o = false)
    (hv : P (k, v) = true) : (tput t k v).find? P = some (k, v) :=
  find?_tins (fun o ho => ht o (mem_terase ho).1 (mem_terase ho).2) hv

/-- The first launch that runs a tile on the floe is the one that the floe shows (FLC_FLOE_STATUS). -/
theorem Hub.floeSettle_running {h : Hub} {f k : Nat} {l : Launch} (h0 : h.get (Reg.flcFloeStatusState f) ≠ 0)
    (h3 : h.get (Reg.flcFloeStatusState f) ≠ 3)
    (hfind : h.sea.launches.find? (fun l => l.2.running.any (fun t => decide (t.1 = f))) = some (k, l)) :
    h.floeSettle f = h.sets [(Reg.flcFloeStatusState f, 2), (Reg.flcFloeStatusLaunchId f, l.id)] := by
  simp [Hub.floeSettle, h0, h3, hfind]

/-- No other launch runs a tile on a floe that is not held (R91). -/
theorem Hub.not_running_of_not_held {h : Hub} {k f : Nat} {l : Launch} (hheld : h.floeHeld k f l = false) :
    ∀ o ∈ h.sea.launches, o.1 ≠ k → o.2.running.any (fun t => decide (t.1 = f)) = false := by
  intro o ho hne
  have hfree := List.any_eq_false.1 hheld o ho
  simp only [hne, ne_eq, not_false_eq_true, decide_true, Bool.true_and, Bool.or_eq_true, not_or, Bool.not_eq_true] at hfree
  exact hfree.1

theorem Launch.id_lt (l : Launch) : l.id < 2 ^ 16 := Nat.mod_lt _ (by decide)

theorem key_flcFloeStatusState_ne (f g : Nat) : (Reg.flcFloeStatusState f).key ≠ (Reg.flcFloeStatusLaunchId g).key := by
  simp only [Fld.key, Reg.flcFloeStatusState, Reg.flcFloeStatusLaunchId]
  omega

-- O26

theorem exec_tileStart (k : Nat) (floe : BitVec 9) (s : State) : exec (.tileStart k floe) s = execTileStart k floe s := rfl

theorem exec_tileStart_prepared {k : Nat} {floe : BitVec 9} {s : State} {l : Launch} {slot : Nat} (hfloe : s.hub.floeExists floe.toNat = true)
    (hl : tlook s.hub.sea.launches k = some l) (hstart : s.hub.canStart k floe.toNat l = true) (hslot : l.freeSlot floe.toNat = some slot)
    (hprep : kmem l.prepared floe.toNat = true) :
    exec (.tileStart k floe) s = .next (s.onHub (·.dealTile k floe.toNat slot l)) := by
  simp [exec_tileStart, execTileStart, hfloe, hl, hstart, hslot, hprep]

/-- Settles O26: the hub after a tile is dealt is that with its cores and its launch written, and the floe's status settled. -/
theorem tilesStartInOrder : Obligations.TilesStartInOrder := by
  intro k floe s l slot hfloe hl hstart hslot hflag f started hprep
  have hcan := hstart
  simp only [Hub.canStart, Bool.and_eq_true, Bool.or_eq_true, Bool.not_eq_true', decide_eq_true_eq] at hcan
  obtain ⟨⟨⟨⟨⟨⟨-, -⟩, -⟩, -⟩, hstate⟩, hheld⟩, -⟩ := hcan
  have hget : (s.hub.setTile k f slot l).get (Reg.flcFloeStatusState f) = s.hub.get (Reg.flcFloeStatusState f) :=
    Hub.get_of_regs_eq _ (s.hub.setTile_regs k f slot l)
  have hne {v : Nat} (h1 : 1 ≠ v) (h2 : 2 ≠ v) : (s.hub.setTile k f slot l).get (Reg.flcFloeStatusState f) ≠ v := by
    rcases hstate with e | e
    exacts [ne_of_eq_of_ne (hget.trans e) h1, ne_of_eq_of_ne (hget.trans e) h2]
  have hfind := find?_tput (k := k) (v := l.withTile f slot) (P := fun l => l.2.running.any (fun t => decide (t.1 = f)))
    (Hub.not_running_of_not_held hheld) (by simp [Launch.withTile])
  rw [← Hub.setTile_launches] at hfind
  have hdeal : s.hub.dealTile k f slot l = (s.hub.setTile k f slot l).sets [(Reg.flcFloeStatusState f, 2), (Reg.flcFloeStatusLaunchId f, l.id)] :=
    (Hub.dealTile_eq hflag s.hub k f slot).trans (Hub.floeSettle_running (l := l.withTile f slot) (hne (by decide) (by decide)) (hne (by decide) (by decide)) hfind)
  have hcore (m : Nat) : (s.hub.dealTile k f slot l).core m = _ := (congrArg (·.core m) hdeal).trans (s.hub.core_setTile k f slot l m)
  refine ⟨_, exec_tileStart_prepared hfloe hl hstart hslot hprep, rfl, rfl, ?_, ?_, ?_, fun m hm => ?_, fun i hi => ?_⟩
  · have hlist : (s.hub.dealTile k f slot l).sea.launches = tput s.hub.sea.launches k (l.withTile f slot) :=
      (congrArg (·.sea.launches) hdeal).trans (s.hub.setTile_launches k f slot l)
    exact (congrArg (tlook · k) hlist).trans (tlook_tput_same _ _ _)
  · refine (congrArg (Hub.get · _) hdeal).trans ?_
    exact (Hub.get_set_ne _ _ (key_flcFloeStatusState_ne f f)).trans (Hub.get_set_same _ _ _)
  · refine (congrArg (Hub.get · _) hdeal).trans ?_
    exact (Hub.get_set_same _ _ _).trans (Nat.mod_eq_of_lt l.id_lt)
  · exact (hcore m).trans (if_neg (by omega))
  · intro x
    have hx : x = l.core k f slot l.next i := by
      refine (hcore _).trans ((if_pos (by omega)).trans ?_)
      rw [Nat.add_sub_cancel_left]
    obtain ⟨h2, h3, h4, h5, h6, h7, h8⟩ := l.core_regs k f slot l.next i
    obtain ⟨t, ht⟩ := l.core_eq k f slot l.next i
    have hrun : (l.bareCore k slot l.next i).run = .ready := by simp [Launch.bareCore, hflag]
    rw [hx]
    refine ⟨?_, ?_, ?_, ?_, ?_, h2, h3, h4, h5, h6, h7, h8, ?_, ?_, ?_, ?_⟩
    all_goals rw [ht]
    exacts [hrun, rfl, rfl, rfl, rfl, rfl, rfl, rfl, rfl]

end Sys2Proof.Machine
end

section
/-! The statement on floe DMA requests that move and complete (04): O29 proved. -/

namespace Sys2Proof.Machine

open Sys2Proof Claims

-- A row between private memories (R103, R104)

/-- The first address of the local window (R84). -/
def localBase : Nat := 0xFFF0000000000

/-- An address of private memory, by its offset in the local window. -/
theorem window_localBase (h : Hub) {core p off n : Nat} (hn : off + n ≤ 0x4000) : h.window core p (localBase + off) n = .here (privBase core + off) := by
  have hdiv : (localBase + off) / 2 ^ 40 = 0xFFF := by unfold localBase; omega
  have hmod : (localBase + off) % 2 ^ 40 = off := by unfold localBase; omega
  rw [window_private h hdiv (by rwa [hmod]), hmod]

theorem le_privBase (core off : Nat) : 2 ^ 48 ≤ privBase core + off := by
  unfold privBase
  omega

/-- Without a tag, a row between sides outside stack memory moves in the one format that both name (R165). -/
theorem Hub.rowPlan_untagged (h : Hub) (p sva dva fmt : Nat) : h.rowPlan p none sva false dva false fmt fmt = .go fmt fmt false := by
  simp [Hub.rowPlan, Hub.sideFmt, Hub.halted, SideFmt.fmt]

section
variable {s : State} {f ch p id n src dst : Nat} {q : DmaReq}

theorem State.dmaSide_private (k : AccKind) (hn : src + n ≤ 0x4000) :
    s.dmaSide f ch q p id (localBase + src) n k = (some ([(privBase q.core + src, n)], false), s) := by
  simp only [State.dmaSide, window_localBase s.hub hn]

theorem State.dmaRead_private (x : RemCtx) (got : List (Nat × Nat × Bool)) (core off : Nat) : s.dmaRead p x got [(privBase core + off, n)]
    = .ok s 0 (s.mem.rd (privBase core + off) n) (s.mem.badBits (privBase core + off) n) := if_pos (le_privBase core off)

theorem State.dmaWrite_private (x : RemCtx) (core off v bad : Nat) :
    s.dmaWrite p x ⟨[(privBase core + off, n)], n, v, bad⟩ = { s with mem := s.mem.storeBits (privBase core + off) n v bad } :=
  if_pos (le_privBase core off)

/-- The request is one row of `n` bytes between private memories of its core, at one format and without a tag. -/
structure PrivateRow (q : DmaReq) (src dst n : Nat) : Prop where
  src_eq : dmaF q.body 0 8 = localBase + src
  dst_eq : dmaF q.body 8 8 = localBase + dst
  len : dmaF q.body 0x10 4 = n
  rows : dmaF q.body 0x14 4 = 1
  fmt : dmaF q.body 0x20 1 = dmaF q.body 0x21 1
  tag : q.tag = none
  le_len : 32 ≤ n
  src_le : src + n ≤ 0x4000
  dst_le : dst + n ≤ 0x4000

/-- What the row puts at its destination. -/
def privateOut (q : DmaReq) (src dst n : Nat) (m : Memory) : DmaOut :=
  ⟨[(privBase q.core + dst, n)], n, m.rd (privBase q.core + src) n,
    shiftBad (localBase + src) (localBase + dst) n (m.badBits (privBase q.core + src) n)⟩

/-- Such a request reads its one row and changes nothing (R104). -/
theorem State.dmaRows_private (hq : PrivateRow q src dst n) : State.dmaRows 1 0 s f ch q p id = (some [privateOut q src dst n s.mem], s) := by
  obtain ⟨hsrc, hdst, hlen, -, hfmt, htag, hmin, hsle, hdle⟩ := hq
  have hsrc0 : dmaRow q.body 0 0 = localBase + src := by simp [dmaRow, hsrc]
  have hdst0 : dmaRow q.body 1 0 = localBase + dst := by simp [dmaRow, hdst]
  simp only [State.dmaRows, hsrc0, hdst0, hlen, ← hfmt, htag, State.dmaSide_private .read hsle, State.dmaSide_private .write hdle,
    State.dmaSide_private .write (show dst + 32 ≤ 0x4000 by omega), Hub.rowPlan_untagged, ne_eq, not_true_eq_false, false_and, if_false,
    Bool.not_false, and_self, if_true, State.dmaRead_private, convertRow, State.dewConv, privateOut]

end

-- The end of a request (R104)

/-- The event counters of a die's floes stand at 0xC800000 of its floe aperture (R85). -/
theorem Hub.region_counters {h : Hub} {a d r : Nat} (ha : a = 0x300000000000 + d * 0x10000000 + r) (hd : d < h.dies) (hlo : 0xC800000 ≤ r)
    (hhi : r < 0xC800000 + 196 * 0x100) : h.region a = .event (d * 256 + (r - 0xC800000) / 0x100) (r % 0x100 / 4) := by
  have hdies : h.dies = 1 ∨ h.dies = 2 := by unfold Hub.dies; split_ifs <;> simp
  have hdie : (a - 0x300000000000) / 0x10000000 = d := by omega
  have hrest : (a - 0x300000000000) % 0x10000000 = r := by omega
  unfold Hub.region
  rw [if_neg (by omega), if_neg (by omega), if_pos (by omega)]
  simp only [hdie, hrest]
  exact (if_neg (by omega)).trans (if_pos ⟨hlo, hhi⟩)

/-- An event counter of a floe by its address. -/
theorem Hub.region_eventHpa {h : Hub} {f k : Nat} (hf : h.floeExists f = true) (hk : k < 64) : h.region (eventHpa f k) = .event f k := by
  simp only [Hub.floeExists, Bool.and_eq_true, decide_eq_true_eq] at hf
  obtain ⟨hfloe, hdie⟩ := hf
  have haddr : eventHpa f k = 0x300000000000 + f / 256 * 0x10000000 + (0xC800000 + f % 256 * 0x100 + 4 * k) := by unfold eventHpa; omega
  have hfl : f / 256 * 256 + (0xC800000 + f % 256 * 0x100 + 4 * k - 0xC800000) / 0x100 = f := by omega
  have hix : (0xC800000 + f % 256 * 0x100 + 4 * k) % 0x100 / 4 = k := by omega
  rw [Hub.region_counters haddr hdie (by omega) (by omega), hfl, hix]

theorem State.eventAdd_of_region {s : State} {a f k : Nat} (ha : s.hub.region a = .event f k) :
    s.eventAdd a = { s with mem := s.mem.setCounter f k (wrapAdd 32 (s.mem.counter f k) 1) } := by
  simp only [State.eventAdd, ha]

theorem State.eventAdd_counter {s : State} {f k : Nat} (hf : s.hub.floeExists f = true) (hk : k < 64) :
    s.eventAdd (eventHpa f k) = { s with mem := s.mem.setCounter f k (wrapAdd 32 (s.mem.counter f k) 1) } :=
  State.eventAdd_of_region (Hub.region_eventHpa hf hk)

/-- The cores of a floe that wait for a channel whose queue will be `rest` (R133). -/
def Hub.waitersOf (h : Hub) (f ch : Nat) (rest : List DmaReq) : List Nat :=
  (List.range 128).filterMap (fun i =>
    if (h.core (128 * f + i)).run = .dmaFull ch ∨ ((h.core (128 * f + i)).run = .waitDma ch ∧ rest = []) then some (128 * f + i) else none)

theorem Hub.mem_waitersOf {h : Hub} {f ch m : Nat} {rest : List DmaReq} : m ∈ h.waitersOf f ch rest ↔
    m / 128 = f ∧ ((h.core m).run = .dmaFull ch ∨ ((h.core m).run = .waitDma ch ∧ rest = [])) := by
  simp only [Hub.waitersOf, List.mem_filterMap, List.mem_range, Option.ite_none_right_eq_some, Option.some.injEq]
  constructor
  · rintro ⟨i, hi, hrun, rfl⟩
    exact ⟨by omega, hrun⟩
  · rintro ⟨rfl, hrun⟩
    have hm : 128 * (m / 128) + m % 128 = m := Nat.div_add_mod m 128
    exact ⟨m % 128, Nat.mod_lt _ (by decide), by rwa [hm], hm⟩

/-- The request leaves its channel and the cores that waited for the channel run on. -/
def State.leaveChannel (s : State) (f ch : Nat) (rest : List DmaReq) : State :=
  s.onHub (fun h => (h.setChannel (16 * f + ch) rest).readyCores (h.waitersOf f ch rest))

theorem State.leaveChannel_hub (s : State) (f ch : Nat) (rest : List DmaReq) :
    ∃ t, (s.leaveChannel f ch rest).hub = (s.hub.setChannel (16 * f + ch) rest).withCores t := Hub.readyCores_eq _ _

/-- A request that is finished leaves, and adds 1 to EVENT where that names a counter. -/
theorem State.dmaDone_eq {s : State} {f : Nat} (hf : s.hub.floeExists f = true) (ch : Nat) (q : DmaReq) :
    let rest := (tget [] s.hub.sea.dma (16 * f + ch)).filter (fun r => !decide (r.id = q.id))
    s.dmaDone f ch q = { s.leaveChannel f ch rest with
      mem := if dmaF q.body 0x22 1 < 64 then s.mem.setCounter f (dmaF q.body 0x22 1) (wrapAdd 32 (s.mem.counter f (dmaF q.body 0x22 1)) 1) else s.mem } := by
  intro rest
  obtain ⟨t, ht⟩ := s.leaveChannel_hub f ch rest
  have hf' : (s.leaveChannel f ch rest).hub.floeExists f = true := by rw [ht]; exact hf
  change (if dmaF q.body 0x22 1 < 64 then (s.leaveChannel f ch rest).eventAdd (eventHpa f (dmaF q.body 0x22 1)) else s.leaveChannel f ch rest) = _
  split_ifs with he
  · exact State.eventAdd_counter hf' he
  · rfl

-- DMA_COMPLETE

theorem exec_dmaComplete (floe : BitVec 9) (ch : BitVec 4) (i : BitVec 2) (s : State) :
    exec (.dmaComplete floe ch i) s = execDmaComplete floe ch i s := rfl

section
variable {floe : BitVec 9} {ch : BitVec 4} {i : BitVec 2} {s : State} {q : DmaReq} (hf : s.hub.floeExists floe.toNat = true)
include hf

theorem exec_dmaComplete_none (hq : (tget [] s.hub.sea.dma (16 * floe.toNat + ch.toNat))[i.toNat]? = none) :
    exec (.dmaComplete floe ch i) s = .next s := by
  simp [exec_dmaComplete, execDmaComplete, hf, hq]

variable (hq : (tget [] s.hub.sea.dma (16 * floe.toNat + ch.toNat))[i.toNat]? = some q)
include hq

theorem exec_dmaComplete_ordered (ho : dmaF q.body 0x23 1 % 2 = 1) (hi : i ≠ 0) : exec (.dmaComplete floe ch i) s = .next s := by
  have hfirst : bitAt (dmaF q.body 0x23 1) 0 = true ∧ i ≠ 0 := ⟨by simp [bitAt, ho], hi⟩
  simp only [exec_dmaComplete, execDmaComplete, hf, hq, Bool.not_true, Bool.false_eq_true, if_false, if_pos hfirst]

/-- The port's admission of the request is noted (R322). -/
def State.paidDma (s : State) (f ch : Nat) (q : DmaReq) : State := s.onHub (fun h => h.onDma f ch q.id (fun r => { r with paid := true }))

theorem exec_dmaComplete_private {src dst n : Nat} (ho : dmaF q.body 0x23 1 % 2 = 0 ∨ i = 0) (hpaid : q.paid = true) (hwrote : q.wrote = false)
    (hrow : PrivateRow q src dst n) (hout : s.hub.anyOut (.dma floe.toNat ch.toNat q.id) = false) :
    exec (.dmaComplete floe ch i) s = .next (({ s.paidDma floe.toNat ch.toNat q with
      mem := s.mem.storeBits (privBase q.core + dst) n (s.mem.rd (privBase q.core + src) n)
        (shiftBad (localBase + src) (localBase + dst) n (s.mem.badBits (privBase q.core + src) n)) } : State).dmaDone floe.toNat ch.toNat q) := by
  have hfirst : ¬ (bitAt (dmaF q.body 0x23 1) 0 = true ∧ i ≠ 0) := by
    rintro ⟨h1, h2⟩
    simp only [bitAt, Nat.pow_zero, Nat.div_one, decide_eq_true_eq] at h1
    exact ho.elim (by omega) h2
  simp only [exec_dmaComplete, execDmaComplete, hf, hq, hfirst, hwrote, hpaid, hrow.rows, State.dmaRows_private hrow, Bool.not_true,
    Bool.false_eq_true, if_false, if_true, List.foldl_cons, List.foldl_nil]
  simp only [privateOut, State.dmaWrite_private, if_pos (le_privBase q.core dst)]
  exact if_neg (ne_true_of_eq_false hout)

end

/-- A note on one request of a queue leaves the others. -/
theorem filter_map_onDma {id : Nat} {g : DmaReq → DmaReq} (hg : ∀ r, (g r).id = r.id) (l : List DmaReq) :
    (l.map (fun r => if r.id = id then g r else r)).filter (fun r => !decide (r.id = id)) = l.filter (fun r => !decide (r.id = id)) := by
  induction l with
  | nil => rfl
  | cons r l ih => by_cases hr : r.id = id <;> simp [hr, hg, ih]

/-- The requests of a channel that stay when one of them leaves are those of another number, admitted or not. -/
theorem State.rest_paidDma (s : State) (f ch : Nat) (q : DmaReq) :
    (tget [] (s.paidDma f ch q).hub.sea.dma (16 * f + ch)).filter (fun r => !decide (r.id = q.id))
      = (tget [] s.hub.sea.dma (16 * f + ch)).filter (fun r => !decide (r.id = q.id)) :=
  (congrArg _ (tget_tset_same _ _ _ _)).trans (filter_map_onDma (g := fun r => { r with paid := true }) (fun _ => rfl) _)

/-- What a request leaves behind: its channel, the cores that waited for it made ready, and every other core as it was. -/
theorem State.leaveChannel_spec (s : State) (f ch : Nat) (rest : List DmaReq) :
    tget [] (s.leaveChannel f ch rest).hub.sea.dma (16 * f + ch) = rest
      ∧ (∀ m, m / 128 = f → ((s.hub.core m).run = .dmaFull ch ∨ ((s.hub.core m).run = .waitDma ch ∧ rest = [])) →
          ((s.leaveChannel f ch rest).hub.core m).run = .ready)
      ∧ (∀ m, m / 128 ≠ f → (s.leaveChannel f ch rest).hub.core m = s.hub.core m) ∧ (s.leaveChannel f ch rest).hub.regs = s.hub.regs := by
  obtain ⟨t, ht⟩ := s.leaveChannel_hub f ch rest
  have hcore (m : Nat) := (s.hub.setChannel (16 * f + ch) rest).core_readyCores (s.hub.waitersOf f ch rest) m
  refine ⟨?_, fun m hm hrun => ?_, fun m hm => ?_, ?_⟩
  · rw [ht]
    exact tget_tset_same _ _ _ _
  · exact congrArg Core.run ((hcore m).trans (if_pos (Hub.mem_waitersOf.2 ⟨hm, hrun⟩)))
  · exact (hcore m).trans (if_neg fun hmem => hm (Hub.mem_waitersOf.1 hmem).1)
  · rw [ht]
    rfl

/-- Settles O29: a request between private memories reads and writes one row, and leaves its channel as `leaveChannel` says. -/
theorem floeDmaRequestsCopyAndComplete : Obligations.FloeDmaRequestsCopyAndComplete := by
  intro floe ch i s q src dst n hf f ring sent rest event
  refine ⟨exec_dmaComplete_none hf, exec_dmaComplete_ordered hf, fun hq ho hpaid hwrote htag hsrc hdst hlen hmin hsle hdle hrows hfmt hout => ?_⟩
  let u : State := { s.paidDma f ch.toNat q with mem := sent }
  have hexec : exec (.dmaComplete floe ch i) s = .next (u.dmaDone f ch.toNat q) :=
    exec_dmaComplete_private hf hq ho hpaid hwrote ⟨hsrc, hdst, hlen, hrows, hfmt, htag, hmin, hsle, hdle⟩ hout
  have hdone := State.dmaDone_eq (s := u) hf ch.toNat q
  have hrest : (tget [] u.hub.sea.dma (16 * f + ch.toNat)).filter (fun r => !decide (r.id = q.id)) = rest := s.rest_paidDma f ch.toNat q
  rw [hrest] at hdone
  obtain ⟨hring, hready, hcores, hregs⟩ := u.leaveChannel_spec f ch.toNat rest
  rw [hdone] at hexec
  exact ⟨_, hexec, rfl, hring, rfl, hready, hcores, hregs⟩

end Sys2Proof.Machine
end

section
/-! SUPPORT. A completion leaves the sea and every register field but a queue's status (15: R359, R360); a floe reset clears the floe's cores
(03, 04: R80, R97); and what the end of a launch leaves (04: R94, R95). -/

namespace Sys2Proof.Machine

open Sys2Proof Claims

-- A completion (R359)

/-- The sea is as before, and so is every field at another bit than STATE and HELD of Q_STATUS: what a completion leaves. -/
structure Hub.SameButQueues (h k : Hub) : Prop where
  sea : k.sea = h.sea
  get : ∀ g : Fld, g.key % 2048 ≠ 0 → g.key % 2048 ≠ 3 → k.get g = h.get g

theorem Hub.SameButQueues.rfl {h : Hub} : h.SameButQueues h := ⟨.refl _, fun _ _ _ => .refl _⟩

theorem Hub.SameButQueues.trans {h k l : Hub} (a : h.SameButQueues k) (b : k.SameButQueues l) : h.SameButQueues l :=
  ⟨b.sea.trans a.sea, fun g h0 h3 => (b.get g h0 h3).trans (a.get g h0 h3)⟩

theorem Hub.sameButQueues_of_regs {h k : Hub} (hsea : k.sea = h.sea) (hregs : k.regs = h.regs) : h.SameButQueues k :=
  ⟨hsea, fun g _ _ => Hub.get_of_regs_eq g hregs⟩

@[simp] theorem Hub.msix_sea (h : Hub) (fn e : Nat) : (h.msix fn e).sea = h.sea := by
  unfold Hub.msix
  split_ifs <;> rfl

@[simp] theorem Hub.event_sea (h : Hub) (f : Fld) : (h.event f).sea = h.sea := by
  unfold Hub.event
  extract_lets k
  split_ifs
  exacts [k.msix_sea _ _, rfl]

theorem Hub.msix_sameButQueues (h : Hub) (fn e : Nat) : h.SameButQueues (h.msix fn e) :=
  Hub.sameButQueues_of_regs (h.msix_sea fn e) (h.msix_sameRegs fn e).regs

/-- A field's key shows its low bit. -/
theorem Fld.key_mod (f : Fld) (hf : f.lo < 2048) : f.key % 2048 = f.lo := by
  unfold Fld.key
  omega

theorem key_qStatusState_mod (fn q : Nat) : (Reg.qStatusState fn q).key % 2048 = 0 :=
  (Reg.qStatusState fn q).key_mod (show 0 < 2048 by decide)

theorem key_qStatusHeld_mod (fn q : Nat) : (Reg.qStatusHeld fn q).key % 2048 = 3 :=
  (Reg.qStatusHeld fn q).key_mod (show 3 < 2048 by decide)

theorem key_flcFloeStatusState_mod (f : Nat) : (Reg.flcFloeStatusState f).key % 2048 = 0 :=
  (Reg.flcFloeStatusState f).key_mod (show 0 < 2048 by decide)

theorem key_flcKfaultValid_mod (p : Nat) : (Reg.flcKfaultValid p).key % 2048 = 63 :=
  (Reg.flcKfaultValid p).key_mod (show 63 < 2048 by decide)

theorem Hub.setState_sameButQueues (h : Hub) (fn q v : Nat) : h.SameButQueues (h.set (Reg.qStatusState fn q) v) :=
  ⟨rfl, fun _ h0 _ => Hub.get_set_ne _ _ fun e => h0 ((congrArg (· % 2048) e).trans (key_qStatusState_mod fn q))⟩

theorem Hub.setHeld_sameButQueues (h : Hub) (fn q v : Nat) : h.SameButQueues (h.set (Reg.qStatusHeld fn q) v) :=
  ⟨rfl, fun _ _ h3 => Hub.get_set_ne _ _ fun e => h3 ((congrArg (· % 2048) e).trans (key_qStatusHeld_mod fn q))⟩

theorem Hub.setQp_sameButQueues (h : Hub) (fn q : Nat) (x : QPair) : h.SameButQueues (h.setQp fn q x) := Hub.sameButQueues_of_regs rfl rfl

theorem Hub.drainQueue_sameButQueues (h : Hub) (fn q : Nat) : h.SameButQueues (h.drainQueue fn q) := by
  unfold Hub.drainQueue
  split_ifs
  exacts [h.setState_sameButQueues fn q 0, .rfl]

theorem Hub.writeCpl_sameButQueues (h : Hub) (fn q : Nat) (r : CplRec) : h.SameButQueues (h.writeCpl fn q r) := by
  unfold Hub.writeCpl
  extract_lets x lg addr phase k
  have hk : h.SameButQueues k := Hub.sameButQueues_of_regs rfl rfl
  split_ifs
  exacts [hk, hk.trans (k.msix_sameButQueues _ _)]

theorem Hub.releaseHeld_sameButQueues (n : Nat) (h : Hub) (fn q : Nat) : h.SameButQueues (Hub.releaseHeld n h fn q) := by
  induction n generalizing h with
  | zero => exact .rfl
  | succ n ih =>
    rw [Hub.releaseHeld]
    split
    · exact (h.setHeld_sameButQueues fn q 0).trans (Hub.drainQueue_sameButQueues _ _ _)
    · split_ifs
      · exact .rfl
      · exact h.setHeld_sameButQueues fn q 1
      · exact ((h.setQp_sameButQueues fn q _).trans (Hub.writeCpl_sameButQueues _ _ _ _)).trans (ih _)

theorem Hub.complete_sameButQueues (h : Hub) (c : QCmd) (st r : Nat) : h.SameButQueues (h.complete c st r) := by
  unfold Hub.complete
  split_ifs
  · exact .rfl
  · exact (h.setQp_sameButQueues _ _ _).trans (Hub.releaseHeld_sameButQueues _ _ _ _)

theorem Hub.SameButQueues.core {h k : Hub} (a : h.SameButQueues k) (m : Nat) : k.core m = h.core m := by
  simp only [Hub.core, a.sea]

-- Floe resets

theorem tlook_filter_key {α : Type} (P : Nat → Bool) (k : Nat) (t : Tab α) :
    tlook (t.filter (fun x => P x.1)) k = if P k then tlook t k else none := by
  split_ifs with hk
  · induction t with
    | nil => rfl
    | cons x t ih =>
      by_cases hx : P x.1 = true
      · simp [hx, tlook, ih]
      · have hne : x.1 ≠ k := fun e => hx (e ▸ hk)
        simp [hx, tlook, hne, ih]
  · exact tlook_filter_key_eq_none (by simpa using hk) t

theorem Hub.core_floeReset (h : Hub) (f m : Nat) : (h.floeReset f).core m = if m / 128 = f then Core.rst else h.core m := by
  have hcores : (h.floeReset f).sea.cores = h.sea.cores.filter (fun c => !decide (c.1 / 128 = f)) := by
    unfold Hub.floeReset
    extract_lets mine k sea j
    split_ifs <;> rfl
  rw [Hub.core, hcores, tget, tlook_filter_key (fun a => !decide (a / 128 = f))]
  by_cases hm : m / 128 = f <;> simp [hm, Hub.core, tget]

theorem Hub.get_floeReset (h : Hub) (f : Nat) {g : Fld} (hg : g.key % 2048 ≠ 0) : (h.floeReset f).get g = h.get g := by
  unfold Hub.floeReset
  extract_lets mine k sea j
  have hj : j.get g = h.get g := Hub.get_of_regs_eq g rfl
  split_ifs
  · exact hj
  · exact (Hub.get_set_ne _ _ fun e => hg ((congrArg (· % 2048) e).trans (key_flcFloeStatusState_mod f))).trans hj

theorem Hub.core_floesReset (l : List Nat) (h : Hub) (m : Nat) :
    (overList (fun f h => h.floeReset f) l h).core m = if m / 128 ∈ l then Core.rst else h.core m := by
  induction l generalizing h with
  | nil => rfl
  | cons f l ih =>
    rw [overList, ih, Hub.core_floeReset]
    by_cases hm : m / 128 = f <;> simp [hm]

theorem Hub.get_floesReset (l : List Nat) (h : Hub) {g : Fld} (hg : g.key % 2048 ≠ 0) :
    (overList (fun f h => h.floeReset f) l h).get g = h.get g :=
  overList_rel (R := fun h k : Hub => k.get g = h.get g) (fun _ => rfl) (fun a b => b.trans a) (fun f k => k.get_floeReset f hg) l h

-- The end of a launch

/-- A launch that is done with goes with its grid barrier, and nothing else of the hub changes (R94). -/
theorem Hub.launchGone_eq (h : Hub) (k : Nat) : h.launchGone k = h
    ∨ h.launchGone k = { h with sea := { h.sea with launches := terase h.sea.launches k, grid := terase h.sea.grid k } } := by
  unfold Hub.launchGone
  split
  · split_ifs
    exacts [.inr rfl, .inl rfl]
  · exact .inl rfl

theorem Hub.launchGone_of_done {h : Hub} {k : Nat} {l : Launch} (hl : tlook h.sea.launches k = some l) (hp : l.posted = true)
    (hr : l.running = []) : h.launchGone k = { h with sea := { h.sea with launches := terase h.sea.launches k, grid := terase h.sea.grid k } } := by
  simp [Hub.launchGone, hl, hp, hr]

/-- The launch with its status fixed and its completion posted. -/
def Launch.ended (l : Launch) (st : Nat) : Launch := { l with posted := true, status := some st }

theorem Hub.launchPost_listed {h : Hub} {k : Nat} {l : Launch} (hl : tlook h.sea.launches k = some l) (st : Nat) :
    h.launchPost k st = ((h.complete l.cmd st (l.id + 2 ^ 16 * l.flags)).setLaunch k (l.ended st)).launchGone k := by
  simp only [Hub.launchPost, hl]
  rfl

/-- A completion posted: a launch still listed has its status fixed, cores are as before, and so are fields but a queue's status. -/
theorem Hub.launchPost_spec (h : Hub) (k st : Nat) :
    (∀ l, tlook (h.launchPost k st).sea.launches k = some l → l.status = some st ∧ l.posted = true)
      ∧ (∀ m, (h.launchPost k st).core m = h.core m)
      ∧ ∀ g : Fld, g.key % 2048 ≠ 0 → g.key % 2048 ≠ 3 → (h.launchPost k st).get g = h.get g := by
  cases hl : tlook h.sea.launches k with
  | none =>
    have hpost : h.launchPost k st = h := by simp only [Hub.launchPost, hl]
    rw [hpost, hl]
    exact ⟨fun l hl' => absurd hl'.symm (Option.some_ne_none l), fun _ => rfl, fun _ _ _ => rfl⟩
  | some l =>
    have hq := h.complete_sameButQueues l.cmd st (l.id + 2 ^ 16 * l.flags)
    rw [Hub.launchPost_listed hl]
    generalize h.complete l.cmd st (l.id + 2 ^ 16 * l.flags) = j at hq
    rcases (j.setLaunch k (l.ended st)).launchGone_eq k with e | e <;> rw [e]
    · refine ⟨fun l' hl' => ?_, hq.core, hq.get⟩
      obtain rfl := Option.some.inj ((tlook_tput_same _ _ _).symm.trans hl')
      exact ⟨rfl, rfl⟩
    · refine ⟨fun l' hl' => ?_, hq.core, hq.get⟩
      exact absurd ((tlook_terase_same _ _).symm.trans hl') nofun

/-- A launch stopped: its floes are reset, its status stands, and every field is as before but a queue's and a floe's status (R95). -/
theorem Hub.launchStop_spec {h : Hub} {k : Nat} {l : Launch} (hl : tlook h.sea.launches k = some l) (hs : l.status = none) (st : Nat) :
    (∀ m, m / 128 ∈ l.floes → (h.launchStop k st).core m = Core.rst)
      ∧ (∀ l', tlook (h.launchStop k st).sea.launches k = some l' → l'.status = some st ∧ l'.posted = true)
      ∧ ∀ g : Fld, g.key % 2048 ≠ 0 → g.key % 2048 ≠ 3 → (h.launchStop k st).get g = h.get g := by
  have hstop : h.launchStop k st
      = (overList (fun f h => h.floeReset f) l.floes (h.setLaunch k { l with status := some st })).launchPost k st := by
    simp [Hub.launchStop, hl, hs]
  obtain ⟨hfixed, hcore, hget⟩ :=
    (overList (fun f h => h.floeReset f) l.floes (h.setLaunch k { l with status := some st })).launchPost_spec k st
  rw [hstop]
  refine ⟨fun m hm => (hcore m).trans ((Hub.core_floesReset _ _ m).trans (if_pos hm)), hfixed, fun g h0 h3 => ?_⟩
  exact (hget g h0 h3).trans ((Hub.get_floesReset _ _ h0).trans (Hub.get_of_regs_eq g rfl))

end Sys2Proof.Machine
end

section
/-! The statement on how launches end (04): O27 proved. -/

namespace Sys2Proof.Machine

open Sys2Proof Claims

theorem exec_launchComplete (k : Nat) (s : State) : exec (.launchComplete k) s = execLaunchComplete k s := rfl
theorem exec_launchTimeout (k : Nat) (s : State) : exec (.launchTimeout k) s = execLaunchTimeout k s := rfl
theorem exec_launchAbort (c : QCmd) (s : State) : exec (.launchAbort c) s = execLaunchAbort c s := rfl

-- LAUNCH_COMPLETE (R94)

/-- Every tile of the launch has ended, and its floe DMA. -/
def LaunchOver (k : Nat) (l : Launch) (s : State) : Prop := l.next = l.total ∧ l.running = [] ∧ s.hub.dmaOf k = false

section
variable {k : Nat} {l : Launch} {s : State}

theorem launchPost_over (hl : tlook s.hub.sea.launches k = some l) (hr : l.running = []) :
    tlook (s.hub.launchPost k 0).sea.launches k = none
      ∧ (s.hub.launchPost k 0).sent = (s.hub.complete l.cmd 0 (l.id + 2 ^ 16 * l.flags)).sent
      ∧ (s.hub.launchPost k 0).queues = (s.hub.complete l.cmd 0 (l.id + 2 ^ 16 * l.flags)).queues
      ∧ (s.hub.launchPost k 0).regs = (s.hub.complete l.cmd 0 (l.id + 2 ^ 16 * l.flags)).regs := by
  rw [Hub.launchPost_listed hl, Hub.launchGone_of_done (l := l.ended 0) (tlook_tput_same _ _ _) rfl hr]
  exact ⟨tlook_terase_same _ _, rfl, rfl, rfl⟩

theorem not_launchKept (hs : l.status = none) (hover : LaunchOver k l s) :
    ¬ (l.status.isSome = true ∨ l.next ≠ l.total ∨ l.running ≠ [] ∨ s.hub.dmaOf k = true) := by
  obtain ⟨hn, hr, hd⟩ := hover
  simp [hs, hn, hr, hd]

variable (hl : tlook s.hub.sea.launches k = some l)
include hl

theorem exec_launchComplete_kept (h : l.status ≠ none ∨ ¬ LaunchOver k l s) : exec (.launchComplete k) s = .next s := by
  have hkeep : l.status.isSome = true ∨ l.next ≠ l.total ∨ l.running ≠ [] ∨ s.hub.dmaOf k = true := by
    simpa [LaunchOver, Option.isSome_iff_ne_none, imp_iff_not_or] using h
  simp only [exec_launchComplete, execLaunchComplete, hl]
  exact if_pos hkeep

section
variable (hs : l.status = none) (hover : LaunchOver k l s)
include hs hover

theorem exec_launchComplete_plain (he : l.f 0x30 8 = 0) : exec (.launchComplete k) s = .next (s.onHub (·.launchPost k 0)) := by
  simp only [exec_launchComplete, execLaunchComplete, hl]
  exact (if_neg (not_launchKept hs hover)).trans (if_pos he)

/-- EVENT_VA is translated first: a parked access leaves the launch, and its add follows the completion. -/
theorem exec_launchComplete_event (he : l.f 0x30 8 ≠ 0) :
    let x := s.translate (l.acc k (l.set.headD 0) (l.f 0x30 8) .write)
    (x.1 = none → exec (.launchComplete k) s = .next x.2)
      ∧ ∀ a ∈ x.1, exec (.launchComplete k) s = .next ((x.2.onHub (·.launchPost k 0)).eventAdd a) := by
  intro x
  simp only [exec_launchComplete, execLaunchComplete, hl]
  rw [if_neg (not_launchKept hs hover), if_neg he]
  split
  · next u hx => exact ⟨fun _ => by rw [show x.2 = u from congrArg Prod.snd hx], fun a ha => absurd ((congrArg Prod.fst hx).symm.trans ha) nofun⟩
  · next a u hx =>
    refine ⟨fun hn => absurd ((congrArg Prod.fst hx).symm.trans hn) nofun, fun b hb => ?_⟩
    obtain rfl := Option.some.inj ((congrArg Prod.fst hx).symm.trans hb)
    rw [show x.2 = u from congrArg Prod.snd hx]

end

-- LAUNCH_TIMEOUT (R95)

theorem exec_launchTimeout_kept (h : l.status ≠ none ∨ l.next = 0 ∨ l.f 0x2C 4 = 0) : exec (.launchTimeout k) s = .next s := by
  simp only [exec_launchTimeout, execLaunchTimeout, hl]
  exact if_pos (h.imp_left Option.isSome_iff_ne_none.2)

theorem exec_launchTimeout_stops (hs : l.status = none) (hn : l.next ≠ 0) (ht : l.f 0x2C 4 ≠ 0) :
    exec (.launchTimeout k) s = .next (s.onHub (fun h => (h.event Reg.flcEventTimeout).launchStop k 0x06)) := by
  simp only [exec_launchTimeout, execLaunchTimeout, hl]
  exact if_neg (by simp [hs, hn, ht])

end

-- LAUNCH_ABORT (R95, R96)

/-- The launch that an abort command names: listed, and its status not fixed. -/
def Hub.abortNamed (h : Hub) (c : QCmd) : Option (Nat × Launch) :=
  h.sea.launches.find? (fun x => decide (x.2.part = h.cmdPart c) && decide (x.2.id = qf c 0x18 2) && x.2.status.isNone)

section
variable {c : QCmd} {s : State}

theorem exec_launchAbort_refused (h : s.hub.cmdCheck c true ≠ 0) :
    exec (.launchAbort c) s = .next (s.onHub (·.complete c (s.hub.cmdCheck c true) 0)) := if_pos h

variable (hcheck : s.hub.cmdCheck c true = 0) (hlo : qz c 0x10 0x18 = true) (hhi : qz c 0x1A 0x40 = true)
include hcheck hlo hhi

theorem exec_launchAbort_named {k : Nat} {l : Launch} (hk : s.hub.abortNamed c = some (k, l)) :
    exec (.launchAbort c) s = .next (s.onHub (fun h => (h.launchStop k 0x07).complete c 0 0)) := by
  unfold Hub.abortNamed at hk
  simp [exec_launchAbort, execLaunchAbort, hcheck, hlo, hhi, hk, State.done, State.onHub]

theorem exec_launchAbort_unnamed (hk : s.hub.abortNamed c = none) : exec (.launchAbort c) s = .next (s.onHub (·.complete c 0 0)) := by
  unfold Hub.abortNamed at hk
  simp only [exec_launchAbort, execLaunchAbort, hcheck, hlo, hhi, hk, ne_eq, not_true_eq_false, if_false, Bool.not_true, Bool.false_eq_true,
    or_self, State.done]

end

-- O27

/-- Settles O27: a launch whose tiles have ended is posted and goes; a timeout and an abort stop it, which resets its floes first. -/
theorem launchesEndAsStated : Obligations.LaunchesEndAsStated := by
  intro k s l c
  refine ⟨fun hl => ?listed, fun hcheck hlo hhi => ?abort, exec_launchAbort_refused⟩
  case listed =>
    intro isOver done
    refine ⟨fun hs hover he => ?_, fun hs hover he => exec_launchComplete_event hl hs hover he, exec_launchComplete_kept hl, fun hs hn ht => ?_,
      exec_launchTimeout_kept hl⟩
    · obtain ⟨hgone, hsent, hqueues, hregs⟩ := launchPost_over hl hover.2.1
      exact ⟨_, exec_launchComplete_plain hl hs hover he, hgone, hsent, hqueues, hregs, rfl, rfl⟩
    · have hl' : tlook (s.hub.event Reg.flcEventTimeout).sea.launches k = some l := by rw [Hub.event_sea, hl]
      obtain ⟨hcores, hfixed, hget⟩ := Hub.launchStop_spec hl' hs 0x06
      refine ⟨_, exec_launchTimeout_stops hl hs hn ht, hcores, hfixed, ?_, rfl, rfl, fun p _ => ?_⟩
      · exact (hget _ (by decide) (by decide)).trans (Hub.event_get_same _ (by decide))
      · have hkey := key_flcKfaultValid_mod p
        have hne : (Reg.flcKfaultValid p).key ≠ Reg.flcEventTimeout.key := fun e => by
          rw [e] at hkey
          exact absurd hkey (by decide)
        exact (hget _ (by omega) (by omega)).trans (Hub.event_get_ne _ hne)
  case abort =>
    intro named
    refine ⟨fun hk hl => ?_, fun hk => exec_launchAbort_unnamed hcheck hlo hhi hk⟩
    have hnamed : named (k, l) = true := List.find?_some hk
    have hs : l.status = none := by
      simp only [named, Bool.and_eq_true, Option.isNone_iff_eq_none] at hnamed
      exact hnamed.2
    obtain ⟨hcores, hfixed, hget⟩ := Hub.launchStop_spec hl hs 0x07
    have hq := (s.hub.launchStop k 0x07).complete_sameButQueues c 0 0
    refine ⟨_, exec_launchAbort_named hcheck hlo hhi hk, fun m hm => (hq.core m).trans (hcores m hm), fun l' hl' => ?_, rfl, rfl, fun p _ => ?_⟩
    · rw [State.onHub_hub, hq.sea] at hl'
      exact hfixed l' hl'
    · have hkey := key_flcKfaultValid_mod p
      exact (hq.get _ (by omega) (by omega)).trans (hget _ (by omega) (by omega))

end Sys2Proof.Machine
end

section
/-! SUPPORT. An instruction over the core alone (05), by what it answers: retired, ILLEGAL, or a numeric result with its flags. -/

namespace Sys2Proof.Machine

open Sys2Proof Claims

section
variable {c : CoreId} {i : Instr} {w : Nat} {g : Core → CoreRes} {s : State} {x y : Core}

theorem retires_of_pure (h : Ready c s) (he : exec i s = issue c w (pureIss g) s) (hg : g (coreOf c s) = .ok y) : Retires i c s y :=
  he.trans (issue_pure_ok h.1 h.2 hg)

theorem exec_of_pure_exc {code addr : Nat} (h : Ready c s) (he : exec i s = issue c w (pureIss g) s) (hg : g (coreOf c s) = .exc code addr y) :
    exec i s = .next (raised c s y w code addr 0) :=
  he.trans (issue_pure_exc h.1 h.2 hg)

theorem exec_of_illegal (h : Ready c s) (he : exec i s = issue c w (pureIss g) s) (hg : g (coreOf c s) = CoreRes.illegal (coreOf c s)) :
    exec i s = .next (raised c s (coreOf c s) w 0x01 0 0) :=
  exec_of_pure_exc h he hg

theorem legalIf_of {b : Bool} {r : CoreRes} (hb : b = true) : legalIf b x r = r := if_pos hb

theorem legalIf_not {b : Bool} {r : CoreRes} (hb : b = false) : legalIf b x r = CoreRes.illegal x := if_neg (ne_true_of_eq_false hb)

/-- No enabled flag is set: the write is done (R137). -/
theorem finish_ok {f : FFlags} {done : Core → Core} (h : f.toNat &&& x.fexc = 0) : finish x f done = .ok (done (x.orFlags f)).adv := if_pos h

/-- An enabled flag is set: NUMERIC, with nothing written but the flags (R137). -/
theorem finish_trap {f : FFlags} {done : Core → Core} (h : f.toNat &&& x.fexc ≠ 0) : finish x f done = .exc 0x08 0 (x.orFlags f) := if_neg h

end

-- Fields of a number

theorem bits_low (v n : Nat) : bits v 0 n = v % 2 ^ n := by rw [bits, Nat.pow_zero, Nat.div_one]

theorem toSigned_eq_toInt {w : Nat} (hw : 0 < w) (v : Nat) : toSigned w v = (BitVec.ofNat w v).toInt := by
  have hpow : 2 ^ w = 2 * 2 ^ (w - 1) := by rw [← Nat.pow_succ', Nat.succ_eq_add_one, Nat.sub_add_cancel hw]
  rw [toSigned, BitVec.toInt_eq_toNat_cond, BitVec.toNat_ofNat]
  exact if_congr (by omega) rfl rfl

theorem testBit_putBits (x lo len v j : Nat) :
    (putBits x lo len v).testBit j = if j < lo then x.testBit j else if j < lo + len then v.testBit (j - lo) else x.testBit j := by
  have hsplit : putBits x lo len v = 2 ^ lo * (2 ^ len * (x / 2 ^ (lo + len)) + v % 2 ^ len) + x % 2 ^ lo := by
    rw [putBits, Nat.pow_add]; ring
  rw [hsplit, Nat.testBit_two_pow_mul_add _ (Nat.mod_lt _ (Nat.two_pow_pos lo)), Nat.testBit_two_pow_mul_add _ (Nat.mod_lt _ (Nat.two_pow_pos len))]
  by_cases hlo : j < lo
  · simp [hlo, Nat.testBit_mod_two_pow]
  · by_cases hlen : j < lo + len
    · simp [hlo, hlen, Nat.testBit_mod_two_pow, show j - lo < len by omega]
    · simp [hlo, hlen, Nat.testBit_div_two_pow, show ¬ j - lo < len by omega, show j - lo - len + (lo + len) = j by omega]

end Sys2Proof.Machine
end

section
/-! The statement on scalar integer instructions (05): O1 proved. -/

namespace Sys2Proof.Machine

open Sys2Proof Claims

-- Counts of bits

/-- The first index that fails a test ends the run of those before it. -/
theorem length_takeWhile_range {n k : Nat} {p : Nat → Bool} (hk : k ≤ n) (hbelow : ∀ i < k, p i = true) (hat : k < n → p k = false) :
    ((List.range n).takeWhile p).length = k := by
  obtain ⟨m, rfl⟩ := Nat.exists_eq_add_of_le hk
  have hrun : ∀ i ∈ List.range k, p i = true := fun i hi => hbelow i (List.mem_range.1 hi)
  rw [List.range_add, List.takeWhile_append_of_pos hrun]
  cases m with
  | zero => simp
  | succ m => simp [List.range_succ_eq_map, hat]

theorem clz64_of_ne {a : Word64} (h : a ≠ 0) : clz64 a = 63 - a.toNat.log2 := if_neg h

theorem clz64_eq (a : Word64) : clz64 a = ((List.range 64).takeWhile (fun i => !a.getMsbD i)).length := by
  by_cases h0 : a = 0
  · subst h0; decide
  · have hne : a.toNat ≠ 0 := fun h => h0 (BitVec.eq_of_toNat_eq h)
    have hlog : a.toNat.log2 < 64 := (Nat.log2_lt hne).2 a.isLt
    rw [clz64_of_ne h0]
    refine (length_takeWhile_range (by omega) (fun i hi => ?_) (fun _ => ?_)).symm
    · have habove : a.toNat < 2 ^ (63 - i) := (Nat.log2_lt hne).1 (by omega)
      simp [BitVec.getMsbD, BitVec.getLsbD, Nat.testBit_lt_two_pow habove]
    · simp [BitVec.getMsbD, BitVec.getLsbD, show 63 - (63 - a.toNat.log2) = a.toNat.log2 by omega, Nat.testBit_log2 hne]
      omega

/-- The lowest index that passes a test, counted over those before it. -/
theorem findFrom_getD (n i : Nat) (p : Nat → Bool) :
    (findFrom n i p).getD (i + n) = i + ((List.range' i n).takeWhile (fun j => !p j)).length := by
  induction n generalizing i with
  | zero => rfl
  | succ n ih =>
    cases hp : p i with
    | true => simp [findFrom, List.range'_succ, hp]
    | false =>
      have hrest := ih (i + 1)
      rw [findFrom, hp, List.range'_succ, List.takeWhile_cons_of_pos (by simp [hp]), List.length_cons, if_neg Bool.false_ne_true,
        show i + (n + 1) = i + 1 + n by omega, hrest]
      omega

theorem ctz64_eq (a : Word64) : ctz64 a = ((List.range 64).takeWhile (fun i => !a.getLsbD i)).length := by
  have h := findFrom_getD 64 0 (fun i => a.getLsbD i)
  rwa [Nat.zero_add, Nat.zero_add, ← List.range_eq_range'] at h

theorem popCount_eq (n x : Nat) : popCount n x = ((List.range n).filter (fun i => x.testBit i)).length := by
  induction n generalizing x with
  | zero => rfl
  | succ n ih =>
    have hshift : (fun i => x.testBit i) ∘ Nat.succ = fun i => (x / 2).testBit i := by
      funext i; exact Nat.testBit_succ x i
    rw [popCount, ih, List.range_succ_eq_map, List.filter_cons, List.filter_map, hshift, Nat.testBit_zero]
    obtain h | h := Nat.mod_two_eq_zero_or_one x <;> simp [h, Nat.add_comm]

-- Minimum and maximum: where the values are equal, so are the words

theorem ite_lt_swap {α β : Type} [LinearOrder α] {a b : α} (x y : β) : (if a < b then x else y) = if b ≤ a then y else x := by
  rw [← ite_not, if_congr not_lt rfl rfl]

theorem ite_lt_eq_ite_le {α β : Type} [LinearOrder α] {f : β → α} (hf : f.Injective) (a b : β) :
    (if f a < f b then b else a) = if f a ≤ f b then b else a := by
  obtain h | h | h := lt_trichotomy (f a) (f b)
  · rw [if_pos h, if_pos h.le]
  · rw [hf h]; simp
  · rw [if_neg h.not_gt, if_neg h.not_ge]

-- Quotients

theorem divS_eq (a b : Word64) : divS a b = if b = 0 then BitVec.allOnes 64 else a.sdiv b := by
  refine if_congr Iff.rfl rfl (BitVec.eq_of_toInt_eq ?_)
  rw [BitVec.toInt_ofInt, BitVec.toInt_sdiv]

theorem remS_eq (a b : Word64) : remS a b = if b = 0 then a else a.srem b := by
  refine if_congr Iff.rfl rfl ?_
  rw [← BitVec.toInt_srem, BitVec.ofInt_toInt]

theorem divU_eq (a b : Word64) : divU a b = if b = 0 then BitVec.allOnes 64 else a.udiv b :=
  if_congr Iff.rfl rfl (by rw [← BitVec.toNat_udiv, BitVec.ofNat_toNat, BitVec.setWidth_eq]; rfl)

theorem remU_eq (a b : Word64) : remU a b = if b = 0 then a else a.umod b :=
  if_congr Iff.rfl rfl (by rw [← BitVec.toNat_umod, BitVec.ofNat_toNat, BitVec.setWidth_eq]; rfl)

-- The rows

/-- The row `e` of the table of integer instructions is that of the operation `op`. -/
def IsIntRow (op : IOp) (e : (CoreId → RForm → Instr) × (Word64 → Word64 → Word64)) : Prop :=
  (∃ fn, ∀ c f s, exec (e.1 c f) s = issue c (encR 0x01 fn f) (pureIss (intR op f)) s) ∧ ∀ a b, intOp op a b = e.2 a b

/-- Every row of major 0x01 is an operation of R116. -/
theorem exists_isIntRow : ∀ e ∈ intRows, ∃ op, IsIntRow op e := by
  simp only [intRows, List.forall_mem_cons]
  refine ⟨⟨.add, ⟨_, fun _ _ _ => rfl⟩, fun _ _ => rfl⟩, ⟨.sub, ⟨_, fun _ _ _ => rfl⟩, fun _ _ => rfl⟩,
    ⟨.and, ⟨_, fun _ _ _ => rfl⟩, fun _ _ => rfl⟩, ⟨.or, ⟨_, fun _ _ _ => rfl⟩, fun _ _ => rfl⟩,
    ⟨.xor, ⟨_, fun _ _ _ => rfl⟩, fun _ _ => rfl⟩, ⟨.sll, ⟨_, fun _ _ _ => rfl⟩, fun _ _ => rfl⟩,
    ⟨.srl, ⟨_, fun _ _ _ => rfl⟩, fun _ _ => rfl⟩, ⟨.sra, ⟨_, fun _ _ _ => rfl⟩, fun _ _ => rfl⟩,
    ⟨.slt, ⟨_, fun _ _ _ => rfl⟩, fun a b => ?slt⟩, ⟨.sltu, ⟨_, fun _ _ _ => rfl⟩, fun a b => ?sltu⟩,
    ⟨.min, ⟨_, fun _ _ _ => rfl⟩, fun a b => ?min⟩, ⟨.max, ⟨_, fun _ _ _ => rfl⟩, fun a b => ?max⟩,
    ⟨.minu, ⟨_, fun _ _ _ => rfl⟩, fun a b => ?minu⟩, ⟨.maxu, ⟨_, fun _ _ _ => rfl⟩, fun a b => ?maxu⟩,
    ⟨.mul, ⟨_, fun _ _ _ => rfl⟩, fun _ _ => rfl⟩, ⟨.mulh, ⟨_, fun _ _ _ => rfl⟩, fun _ _ => rfl⟩,
    ⟨.mulhu, ⟨_, fun _ _ _ => rfl⟩, fun _ _ => rfl⟩, ⟨.div, ⟨_, fun _ _ _ => rfl⟩, divS_eq⟩,
    ⟨.divu, ⟨_, fun _ _ _ => rfl⟩, divU_eq⟩, ⟨.rem, ⟨_, fun _ _ _ => rfl⟩, remS_eq⟩,
    ⟨.remu, ⟨_, fun _ _ _ => rfl⟩, remU_eq⟩, ⟨.clz, ⟨_, fun _ _ _ => rfl⟩, fun a _ => congrArg (BitVec.ofNat 64) (clz64_eq a)⟩,
    ⟨.ctz, ⟨_, fun _ _ _ => rfl⟩, fun a _ => congrArg (BitVec.ofNat 64) (ctz64_eq a)⟩,
    ⟨.popc, ⟨_, fun _ _ _ => rfl⟩, fun a _ => congrArg (BitVec.ofNat 64) (popCount_eq 64 a.toNat)⟩, by simp⟩
  case slt => simp only [intOp, BitVec.slt_eq_decide, decide_eq_true_eq]
  case sltu => simp only [intOp, BitVec.ult_eq_decide, decide_eq_true_eq]
  case min => simp only [intOp, BitVec.slt_eq_decide, decide_eq_true_eq, ite_lt_swap]
  case max => simp only [intOp, BitVec.slt_eq_decide, decide_eq_true_eq, ite_lt_eq_ite_le fun _ _ => BitVec.eq_of_toInt_eq]
  case minu => simp only [intOp, BitVec.ult_eq_decide, decide_eq_true_eq, ite_lt_swap]
  case maxu => simp only [intOp, BitVec.ult_eq_decide, decide_eq_true_eq, ite_lt_eq_ite_le fun _ _ => BitVec.eq_of_toNat_eq]

theorem selR_eq (f : RForm) (x : Core) : selR f x = .ok (wroteS x f.rd (if x.s f.x = 0 then x.s f.rs2 else x.s f.rs1)) := by
  rw [selR, putS, wroteS, ite_not]

theorem integerInstructionsWriteTheirResult : IntegerInstructionsWriteTheirResult := by
  intro c f s h x
  refine ⟨fun e he hx => ?_, ?_⟩
  · obtain ⟨op, ⟨fn, hexec⟩, hvalue⟩ := exists_isIntRow e he
    rw [← hvalue]
    exact retires_of_pure h (hexec c f s) (legalIf_of (decide_eq_true hx))
  · exact retires_of_pure (w := encR 0x01 0x1C f) h rfl (selR_eq f x)

-- Immediates

/-- The row `e` of the table of immediate instructions is that of the operation `op`, its immediate extended by `ext`. -/
def IsImmRow (op : IOp) (ext : BitVec 16 → Word64) (e : (CoreId → IForm → Instr) × (Word64 → BitVec 16 → Word64)) : Prop :=
  (∃ maj, ∀ c f s, exec (e.1 c f) s = issue c (encI maj f) (pureIss (fun x => putS x f.rd (intOp op (x.s f.rs1) (ext f.imm)))) s) ∧
  ∀ a i, intOp op a (ext i) = e.2 a i

/-- Every row of majors 0x02 to 0x07 is an operation of R116 on a sign- or zero-extended immediate. -/
theorem exists_isImmRow : ∀ e ∈ immRows, ∃ op ext, IsImmRow op ext e := by
  simp only [immRows, List.forall_mem_cons]
  refine ⟨⟨.add, sext16, ⟨0x02, fun _ _ _ => rfl⟩, fun _ _ => rfl⟩, ⟨.and, zext16, ⟨0x03, fun _ _ _ => rfl⟩, fun _ _ => rfl⟩,
    ⟨.or, zext16, ⟨0x04, fun _ _ _ => rfl⟩, fun _ _ => rfl⟩, ⟨.xor, zext16, ⟨0x05, fun _ _ _ => rfl⟩, fun _ _ => rfl⟩,
    ⟨.slt, sext16, ⟨0x06, fun _ _ _ => rfl⟩, fun a i => ?slt⟩, ⟨.sltu, sext16, ⟨0x07, fun _ _ _ => rfl⟩, fun a i => ?sltu⟩, by simp⟩
  case slt => simp only [intOp, sext16, BitVec.slt_eq_decide, decide_eq_true_eq]
  case sltu => simp only [intOp, sext16, BitVec.ult_eq_decide, decide_eq_true_eq]

/-- SHI with its reserved bits zero (Table 5 of 05). -/
theorem shi_of_lt {f : IForm} (h : f.imm.toNat < 256) (x : Core) : shi f x = .ok (wroteS x f.rd (shiValue (x.s f.rs1) f.imm)) := by
  have hres : bits f.imm.toNat 8 8 = 0 := by rw [bits, Nat.div_eq_of_lt (by omega), Nat.zero_mod]
  have hsel : bits f.imm.toNat 6 2 = f.imm.toNat / 64 := Nat.mod_eq_of_lt (by omega)
  obtain hs | hs | hs | hs : f.imm.toNat / 64 = 0 ∨ f.imm.toNat / 64 = 1 ∨ f.imm.toNat / 64 = 2 ∨ f.imm.toNat / 64 = 3 := by omega
  all_goals simp [shi, legalIf, putS, wroteS, shiValue, hres, hsel, hs]

theorem shi_of_le {f : IForm} (h : 256 ≤ f.imm.toNat) (x : Core) : shi f x = CoreRes.illegal x := by
  have himm : f.imm.toNat < 2 ^ 16 := f.imm.isLt
  exact legalIf_not (decide_eq_false (by simp only [bits]; omega))

/-- A field of 16 bits put at a multiple of 16, as the word's own operations write it. -/
theorem ofNat_putBits (a : Word64) (i : BitVec 16) (k : BitVec 2) :
    BitVec.ofNat 64 (putBits a.toNat (16 * k.toNat) 16 i.toNat)
      = (a &&& ~~~(0xFFFF#64 <<< (16 * k.toNat))) ||| (i.setWidth 64 <<< (16 * k.toNat)) := by
  have hk := k.isLt
  ext j hj
  have hmask : (0xFFFF#64).getLsbD (j - 16 * k.toNat) = decide (j - 16 * k.toNat < 16) := by
    rw [show 0xFFFF#64 = BitVec.setWidth 64 (BitVec.allOnes 16) by decide, BitVec.getLsbD_setWidth, BitVec.getLsbD_allOnes]
    simp; omega
  rw [← BitVec.getLsbD_eq_getElem, ← BitVec.getLsbD_eq_getElem, BitVec.getLsbD_ofNat, testBit_putBits, BitVec.testBit_toNat,
    BitVec.testBit_toNat]
  simp only [BitVec.getLsbD_or, BitVec.getLsbD_and, BitVec.getLsbD_not, BitVec.getLsbD_shiftLeft, BitVec.getLsbD_setWidth, hmask, hj,
    show j - 16 * k.toNat < 64 by omega, decide_true, Bool.true_and]
  by_cases hlo : j < 16 * k.toNat
  · simp [hlo]
  · by_cases hlen : j - 16 * k.toNat < 16
    · simp [hlo, show j < 16 * k.toNat + 16 by omega, hlen]
    · simp [hlo, hlen, show ¬ j < 16 * k.toNat + 16 by omega, BitVec.getLsbD_of_ge i (j - 16 * k.toNat) (by omega)]

theorem immediateInstructionsWriteTheirResult : ImmediateInstructionsWriteTheirResult := by
  intro c s h x
  refine ⟨fun e he f => ?_, fun f hf => ?_, fun f hf => ?_, fun f hf => ⟨?_, ?_⟩, fun f hf => ⟨?_, ?_⟩⟩
  · obtain ⟨op, ext, ⟨maj, hexec⟩, hvalue⟩ := exists_isImmRow e he
    rw [← hvalue]
    exact retires_of_pure h (hexec c f s) rfl
  · exact retires_of_pure h rfl (shi_of_lt hf x)
  · exact exec_of_illegal h rfl (shi_of_le hf x)
  · exact retires_of_pure h rfl (legalIf_of (decide_eq_true hf))
  · rw [← ofNat_putBits]
    exact retires_of_pure h rfl (legalIf_of (decide_eq_true hf))
  · exact exec_of_illegal h rfl (legalIf_not (decide_eq_false hf))
  · exact exec_of_illegal h rfl (legalIf_not (decide_eq_false hf))

/-- Settles O1: each row is an operation of R116 over two registers or over a register and an extended immediate. -/
theorem scalarIntegerInstructionsWriteTheirResult : Obligations.ScalarIntegerInstructionsWriteTheirResult :=
  ⟨integerInstructionsWriteTheirResult, immediateInstructionsWriteTheirResult⟩

end Sys2Proof.Machine
end

section
/-! The statement on scalar float instructions (05): O2 proved. -/

namespace Sys2Proof.Machine

open Sys2Proof Claims

/-- Every row of major 0x0B writes its FP32 result to rd with its flags (Table 5 of 05). -/
theorem exec_fpsRow : ∀ e ∈ fpsRows, ∀ c f s,
    exec (e.2.1 c f) s = issue c (encR 0x0B e.1 f) (pureIss (fun x => putFps x f.rd (e.2.2 x f))) s := by
  simp only [fpsRows, List.forall_mem_cons]
  exact ⟨fun _ _ _ => rfl, fun _ _ _ => rfl, fun _ _ _ => rfl, fun _ _ _ => rfl, fun _ _ _ => rfl, fun _ _ _ => rfl, fun _ _ _ => rfl,
    fun _ _ _ => rfl, fun _ _ _ => rfl, fun _ _ _ => rfl, fun _ _ _ => rfl, fun _ _ _ => rfl, by simp⟩

/-- FCVT.L of a value with an int64 result (R116). -/
theorem fcvtL_of_some {f : RForm} {x : Core} {i : Int} {nx : Bool} (h : fcvtLVal (fpIn fp32 x.ftz (fps x f.rs1)).1 x.arithRound = some (i, nx)) :
    fcvtL f x = finish x { nx := nx } (fun y => y.setS f.rd (BitVec.ofInt 64 i)) := by
  simp only [fcvtL, h]

/-- Settles O2: each row is a result and its flags, which FCTRL lets pass or traps; FCVT.L is one of 64 bits. -/
theorem scalarFloatInstructionsRoundAndFlag : Obligations.ScalarFloatInstructionsRoundAndFlag := by
  intro c f s h x
  refine ⟨fun e he => ?_, fun i nx hval hpass => ?_⟩
  · intro r
    refine ⟨fun hpass => ?_, fun htrap => ?_⟩
    · exact retires_of_pure h (exec_fpsRow e he c f s) (finish_ok hpass)
    · exact exec_of_pure_exc h (exec_fpsRow e he c f s) (finish_trap htrap)
  · exact retires_of_pure h rfl ((fcvtL_of_some hval).trans (finish_ok hpass))

end Sys2Proof.Machine
end

section
/-! The statement on control registers (05): O4 proved. -/

namespace Sys2Proof.Machine

open Sys2Proof Claims

section
variable {c : CoreId} {i : Instr} {w : Nat} {g : CsrEnv → Core → CoreRes} {s : State} {y : Core}

theorem exec_csr_ok (h : Ready c s) (he : exec i s = issue c w (csrIss g) s)
    (hg : g (s.hub.csrEnv (coreNum c) (coreOf c s)) (coreOf c s) = .ok y) : exec i s = .next (retired c (readTime s) y) :=
  exec_of_done h he (by rw [csrIss, pureIss, hg]; rfl)

theorem exec_csr_illegal (h : Ready c s) (he : exec i s = issue c w (csrIss g) s)
    (hg : g (s.hub.csrEnv (coreNum c) (coreOf c s)) (coreOf c s) = CoreRes.illegal (coreOf c s)) :
    exec i s = .next (raised c (readTime s) (coreOf c s) w 0x01 0 0) :=
  exec_of_exc h he (by rw [csrIss, pureIss, hg]; rfl)

end

/-- Every row of the CSR instructions that write updates its CSR (Table 5 of 05). -/
theorem exec_csrRow : ∀ e ∈ csrRows, ∀ c f s,
    exec (e.2.1 c f) s = issue c (encI12 0x0F e.1 f) (csrIss (fun v => csrUpd e.2.2 v f)) s := by
  simp only [csrRows, List.forall_mem_cons]
  exact ⟨fun _ _ _ => rfl, fun _ _ _ => rfl, fun _ _ _ => rfl, by simp⟩

section
variable {v : CsrEnv} {f : I12Form} {x y : Core} {old : Word64} {upd : Word64 → Word64 → Word64}

theorem csrr_of_some (h : csrRead v x f.imm.toNat = some old) : csrr v f x = .ok (wroteS x f.rd old) := by
  rw [csrr, h]; rfl

theorem csrr_of_none (h : csrRead v x f.imm.toNat = none) : csrr v f x = CoreRes.illegal x := by
  rw [csrr, h]

theorem csrUpd_of_some (hr : csrRead v x f.imm.toNat = some old) (hw : csrWrite x f.imm.toNat (upd old (x.s f.rs1)) = some y) :
    csrUpd upd v f x = .ok (wroteS y f.rd old) := by
  rw [csrUpd, hr]; dsimp only; rw [hw]; rfl

/-- A CSR that is not listed, or is read-only, takes no write (R110). -/
theorem csrUpd_of_not_written (hw : ∀ u, csrWrite x f.imm.toNat u = none) : csrUpd upd v f x = CoreRes.illegal x := by
  rw [csrUpd]
  split
  · rw [hw]
  · rfl

end

-- What a write leaves in a CSR (Table 2 of 05)

theorem csrWrite_of_le {ix : Nat} (h : 4 ≤ ix) (x : Core) (v : Word64) : csrWrite x ix v = none := by
  obtain ⟨k, rfl⟩ := Nat.exists_eq_add_of_le' h
  rfl

/-- The low bits of a word, as its own mask gives them. -/
theorem ofNat_bits_low (v : Word64) (n : Nat) : BitVec.ofNat 64 (bits v.toNat 0 n) = v &&& BitVec.ofNat 64 (2 ^ n - 1) := by
  ext j hj
  rw [← BitVec.getLsbD_eq_getElem, ← BitVec.getLsbD_eq_getElem, BitVec.getLsbD_and, BitVec.getLsbD_ofNat, BitVec.getLsbD_ofNat]
  simp [bits, Nat.testBit_mod_two_pow, hj, BitVec.testBit_toNat, Bool.and_comm]

theorem csrWrite_eq_csrPut {ix : Nat} (h : ix = 0 ∨ ix = 2 ∨ ix = 3) (x : Core) (v : Word64) : csrWrite x ix v = some (csrPut x ix v) := by
  obtain rfl | rfl | rfl := h
  · exact congrArg (fun u => some { x with fflags := u }) (ofNat_bits_low v 8)
  · exact congrArg (fun u => some { x with dewtag := u }) (ofNat_bits_low v 9)
  · rfl

/-- The bits of FCTRL as a write puts them together from a rounding mode and the new value. -/
theorem testBit_fctrl {r : Nat} (hr : r < 2 ^ 3) (v j : Nat) :
    (r + bits v 3 1 * 2 ^ 3 + bits v 8 8 * 2 ^ 8).testBit j
      = if j < 3 then r.testBit j else (decide (j = 3 ∨ 8 ≤ j ∧ j < 16) && v.testBit j) := by
  have hlow : 2 ^ 3 * bits v 3 1 + r < 2 ^ 8 := by
    have := Nat.mod_lt (v / 2 ^ 3) (Nat.two_pow_pos 1)
    simp only [bits]; omega
  rw [show r + bits v 3 1 * 2 ^ 3 + bits v 8 8 * 2 ^ 8 = 2 ^ 8 * bits v 8 8 + (2 ^ 3 * bits v 3 1 + r) by ring,
    Nat.testBit_two_pow_mul_add _ hlow, Nat.testBit_two_pow_mul_add _ hr]
  simp only [bits, Nat.testBit_mod_two_pow, Nat.testBit_div_two_pow]
  by_cases h8 : j < 8
  · by_cases h3 : j < 3
    · simp [h3, h8]
    · by_cases h4 : j = 3
      · simp [h4]
      · simp [h3, h8, h4, show ¬ j - 3 < 1 by omega, show ¬ 8 ≤ j by omega]
  · simp [h8, show ¬ j < 3 by omega, show j ≠ 3 by omega, show 8 ≤ j by omega, show (j - 8 < 8) = (j < 16) by simp; omega]

theorem getLsbD_fctrlWrite (old new : Word64) {j : Nat} (hj : j < 64) :
    (fctrlWrite old new).getLsbD j
      = if j < 3 then (if new.toNat % 8 < 5 then new else old).getLsbD j else (decide (j = 3 ∨ 8 ≤ j ∧ j < 16) && new.getLsbD j) := by
  have hround : (if bits new.toNat 0 3 < 5 then bits new.toNat 0 3 else bits old.toNat 0 3)
      = (if new.toNat % 8 < 5 then new else old).toNat % 2 ^ 3 := by
    rw [bits, bits, Nat.pow_zero, Nat.div_one, Nat.div_one]
    exact (apply_ite (fun u : Word64 => u.toNat % 2 ^ 3) _ _ _).symm
  rw [fctrlWrite, BitVec.getLsbD_ofNat, hround, testBit_fctrl (Nat.mod_lt _ (Nat.two_pow_pos 3)), Nat.testBit_mod_two_pow]
  by_cases h3 : j < 3 <;> simp [h3, hj, BitVec.testBit_toNat]

theorem fctrlWrite_listed {old new : Word64} (h : new.toNat % 8 < 5) : fctrlWrite old new = new &&& 0xFF0F := by
  have hmask : ∀ j < 64, (0xFF0F : Word64).getLsbD j = decide (j < 3 ∨ j = 3 ∨ 8 ≤ j ∧ j < 16) := by decide
  ext j hj
  rw [← BitVec.getLsbD_eq_getElem, ← BitVec.getLsbD_eq_getElem, getLsbD_fctrlWrite _ _ hj, BitVec.getLsbD_and, hmask j hj, if_pos h]
  by_cases h3 : j < 3 <;> simp [h3, Bool.and_comm]

theorem fctrlWrite_reserved {old new : Word64} (h : 5 ≤ new.toNat % 8) : fctrlWrite old new = (new &&& 0xFF08) ||| (old &&& 7) := by
  have hmask : ∀ j < 64, (0xFF08 : Word64).getLsbD j = decide (j = 3 ∨ 8 ≤ j ∧ j < 16) := by decide
  have hround : ∀ j < 64, (7 : Word64).getLsbD j = decide (j < 3) := by decide
  ext j hj
  rw [← BitVec.getLsbD_eq_getElem, ← BitVec.getLsbD_eq_getElem, getLsbD_fctrlWrite _ _ hj, BitVec.getLsbD_or, BitVec.getLsbD_and,
    BitVec.getLsbD_and, hmask j hj, hround j hj, if_neg (show ¬ new.toNat % 8 < 5 by omega)]
  by_cases h3 : j < 3
  · simp [h3, show j ≠ 3 by omega, show ¬ 8 ≤ j by omega]
  · simp [h3, Bool.and_comm]

-- The Dewpoint tag

theorem bits_dewset_reserved {f : I12Form} (h : f.imm.toNat < 256) : bits f.imm.toNat 8 4 = 0 := by
  rw [bits, Nat.div_eq_of_lt (by omega), Nat.zero_mod]

section
variable {f : I12Form} (h : f.imm.toNat < 256) (x : Core)
include h

theorem dewset_eq : dewset f x = .ok { x with dewtag := BitVec.ofNat 64 (f.imm.toNat + 256) }.adv := by
  rw [dewset, legalIf_of (decide_eq_true (bits_dewset_reserved h)), bits_low, Nat.mod_eq_of_lt (show f.imm.toNat < 2 ^ 8 from h)]

theorem dewsetr_eq : dewsetr f x = .ok { x with dewtag := BitVec.ofNat 64 ((x.s f.rs1).toNat % 256 + 256) }.adv := by
  rw [dewsetr, legalIf_of (decide_eq_true (bits_dewset_reserved h)), bits_low]; rfl

theorem dewclr_eq : dewclr f x = .ok { x with dewtag := BitVec.ofNat 64 (x.dewtag.toNat % 256) }.adv := by
  rw [dewclr, legalIf_of (decide_eq_true (bits_dewset_reserved h)), bits_low]; rfl

end

/-- Settles O4: a CSR instruction reads the table of R110 and writes what `csrWrite` gives it; the tag instructions write DEWTAG. -/
theorem controlRegistersAreReadAndWritten : Obligations.ControlRegistersAreReadAndWritten := by
  intro c f s h x s' ix
  refine ⟨fun v hv => ?_, fun hnone => ?_, fun e he => ⟨fun v hix hv => ?_, fun hix => ?_, fun hix => ?_⟩, fun hf => ⟨?_, ?_, ?_⟩⟩
  · exact exec_csr_ok h rfl (csrr_of_some hv)
  · exact exec_csr_illegal h rfl (csrr_of_none hnone)
  · exact exec_csr_ok h (exec_csrRow e he c f s) (csrUpd_of_some hv (csrWrite_eq_csrPut hix _ _))
  · have hread : csrOf c s f.imm.toNat = some x.fctrl := by rw [show f.imm.toNat = 1 from hix]; rfl
    have hwrite (u : Word64) : csrWrite x f.imm.toNat u = some { x with fctrl := fctrlWrite x.fctrl u } := by
      rw [show f.imm.toNat = 1 from hix]; rfl
    exact ⟨_, exec_csr_ok h (exec_csrRow e he c f s) (csrUpd_of_some hread (hwrite _)), rfl, fctrlWrite_listed, fctrlWrite_reserved⟩
  · exact exec_csr_illegal h (exec_csrRow e he c f s) (csrUpd_of_not_written (csrWrite_of_le hix x))
  · exact retires_of_pure h rfl (dewset_eq hf x)
  · exact retires_of_pure h rfl (dewsetr_eq hf x)
  · exact retires_of_pure h rfl (dewclr_eq hf x)

end Sys2Proof.Machine
end

section
/-! The statement on registers and on what a retiring instruction leaves alone (05): O15 proved. -/

namespace Sys2Proof.Machine

open Sys2Proof Claims

-- Registers read back (R108)

theorem Core.s_zero (x : Core) : x.s 0 = 0 := rfl

theorem Core.p_zero (x : Core) : x.p 0 = BitVec.allOnes 64 := rfl

theorem Core.setS_zero (x : Core) (v : Word64) : x.setS 0 v = x := rfl

theorem Core.setP_zero (x : Core) (v : Word64) : x.setP 0 v = x := rfl

theorem Core.setS_of_ne (x : Core) {r : BitVec 5} (h : r ≠ 0) (v : Word64) : x.setS r v = { x with sr := tset 0 x.sr r.toNat v } := if_neg h

theorem Core.setP_of_ne (x : Core) {d : BitVec 3} (h : d ≠ 0) (v : Word64) : x.setP d v = { x with pr := tset 0 x.pr d.toNat v } := if_neg h

theorem Core.s_setS (x : Core) (r q : BitVec 5) (v : Word64) : (x.setS r v).s q = if q = r ∧ r ≠ 0 then v else x.s q := by
  by_cases hr : r = 0
  · subst hr
    rw [Core.setS_zero, if_neg fun h => h.2 rfl]
  · by_cases hq : q = 0
    · subst hq
      rw [Core.s_zero, Core.s_zero, if_neg fun h => hr h.1.symm]
    · rw [Core.setS_of_ne x hr, Core.s, Core.s, if_neg hq, if_neg hq, tget_tset]
      exact if_congr ⟨fun h => ⟨BitVec.eq_of_toNat_eq h, hr⟩, fun h => congrArg _ h.1⟩ rfl rfl

theorem Core.p_setP (x : Core) (d e : BitVec 3) (v : Word64) : (x.setP d v).p e = if e = d ∧ d ≠ 0 then v else x.p e := by
  by_cases hd : d = 0
  · subst hd
    rw [Core.setP_zero, if_neg fun h => h.2 rfl]
  · by_cases he : e = 0
    · subst he
      rw [Core.p_zero, Core.p_zero, if_neg fun h => hd h.1.symm]
    · rw [Core.setP_of_ne x hd, Core.p, Core.p, if_neg he, if_neg he, tget_tset]
      exact if_congr ⟨fun h => ⟨BitVec.eq_of_toNat_eq h, hd⟩, fun h => congrArg _ h.1⟩ rfl rfl

@[simp] theorem Core.setS_vr (x : Core) (r : BitVec 5) (v : Word64) : (x.setS r v).vr = x.vr := by unfold Core.setS; split <;> rfl

@[simp] theorem Core.setS_pr (x : Core) (r : BitVec 5) (v : Word64) : (x.setS r v).pr = x.pr := by unfold Core.setS; split <;> rfl

@[simp] theorem Core.setP_sr (x : Core) (d : BitVec 3) (v : Word64) : (x.setP d v).sr = x.sr := by unfold Core.setP; split <;> rfl

@[simp] theorem Core.setP_vr (x : Core) (d : BitVec 3) (v : Word64) : (x.setP d v).vr = x.vr := by unfold Core.setP; split <;> rfl

theorem Core.v_setV (x : Core) (a b : Nat) (w : Word256) : (x.setV a w).v b = if b = a then w else x.v b := tget_tset 0 x.vr a b w

/-- The core of a retired instruction is as the instruction left it, with INSTRET counted and nothing in hand. -/
theorem coreOf_retired (c : CoreId) (s : State) (x : Core) :
    coreOf c (retired c s x) = { x with instret := x.instret + 1, rem := [], stalled := (0, 0), paid := false } :=
  Hub.core_setCore_same _ _ _

/-- Settles O15: registers read back as their tables do, and a retired instruction has written its own core alone. -/
theorem registersReadBackAndRetiringLeavesTheRestAlone : Obligations.RegistersReadBackAndRetiringLeavesTheRestAlone := by
  intro c s x r q v a b d e w
  refine ⟨x.s_zero, x.p_zero, x.setS_zero v, x.setP_zero v, x.s_setS r q v, x.p_setP d e v, x.v_setV a b w, x.setS_vr r v, x.setS_pr r v,
    rfl, rfl, x.setP_sr d v, x.setP_vr d v, ?_⟩
  intro t
  have hcore : coreOf c t = { x with instret := x.instret + 1, rem := [], stalled := (0, 0), paid := false } := coreOf_retired c s x
  exact ⟨rfl, rfl, rfl, fun n hn => Hub.core_setCore_ne _ _ hn, by rw [hcore], by rw [hcore], by rw [hcore], by rw [hcore], by rw [hcore],
    by rw [hcore], by rw [hcore], rfl⟩

end Sys2Proof.Machine
end

section
/-! The statement on atomics (05): O7 proved. -/

namespace Sys2Proof.Machine

open Sys2Proof Claims

-- Values

theorem Memory.rd_lt (m : Memory) (a n : Nat) : m.rd a n < 2 ^ (8 * n) := by
  induction n generalizing a with
  | zero => simp [Memory.rd]
  | succ n ih =>
    have hbyte := (m.byte a).isLt
    have hrest := ih (a + 1)
    rw [Memory.rd, show 8 * (n + 1) = 8 * n + 8 by ring, Nat.pow_add]
    omega

/-- An AMO's value is what its row of Table 5 combines, cut to the width (R121). -/
theorem amoVal_row {w old opnd d : Nat} (hw : 0 < w) (ho : old < 2 ^ w) (hb : opnd < 2 ^ w) (hd : d < 2 ^ w) :
    ∀ e ∈ amoRows, amoVal e.1 w old opnd (if e.1 = 9 then d else 0) = e.2.2 w old opnd d := by
  have hcut {P : Prop} [Decidable P] {a b : Nat} (ha : a < 2 ^ w) (hb : b < 2 ^ w) : (if P then a else b) % 2 ^ w = if P then a else b :=
    Nat.mod_eq_of_lt (by split <;> assumption)
  simp only [amoRows, List.forall_mem_cons]
  refine ⟨rfl, Nat.mod_eq_of_lt (Nat.and_lt_two_pow _ hb), Nat.mod_eq_of_lt (Nat.or_lt_two_pow ho hb),
    Nat.mod_eq_of_lt (Nat.xor_lt_two_pow ho hb), ?min, ?max, ?minu, ?maxu, Nat.mod_eq_of_lt hb, ?cas, by simp⟩
  case min => rw [← toSigned_eq_toInt hw, ← toSigned_eq_toInt hw]; exact hcut ho hb
  case max => rw [← toSigned_eq_toInt hw, ← toSigned_eq_toInt hw]; exact hcut hb ho
  case minu => rw [min_def, ← hcut ho hb, amoVal, Nat.mod_eq_of_lt ho, Nat.mod_eq_of_lt hb]
  case maxu => rw [max_def_lt, ← hcut hb ho, amoVal, Nat.mod_eq_of_lt ho, Nat.mod_eq_of_lt hb]
  case cas =>
    change (if old % 2 ^ w = d % 2 ^ w then opnd else old) % 2 ^ w = if old = d then opnd else old
    rw [Nat.mod_eq_of_lt ho, Nat.mod_eq_of_lt hd]
    exact hcut hb ho

-- Atomics by their checks, and by where their address leads

/-- The bytes of an atomic (Table 5 of 05: X[2]). -/
def amoBytes (f : RForm) : Nat := if f.x.getLsbD 2 then 8 else 4

theorem amoBytes_pos (f : RForm) : 0 < amoBytes f := by unfold amoBytes; split <;> decide

section
variable {fn core : Nat} {f : RForm} {x : Core} {s : State}

theorem amoIss_reserved (h : 8 ≤ f.x.toNat) : amoIss fn f core x s = .exc s x 0x01 0 0 := by
  have hx := f.x.isLt
  exact if_pos (by simp only [bits]; omega)

section
variable (hx : f.x.toNat < 8)
include hx

theorem bits_amo_reserved : bits f.x.toNat 3 2 = 0 := by rw [bits, Nat.div_eq_of_lt (show f.x.toNat < 2 ^ 3 from hx), Nat.zero_mod]

theorem amoIss_misaligned (h : (x.s f.rs1).toNat % amoBytes f ≠ 0) : amoIss fn f core x s = .exc s x 0x02 (x.s f.rs1).toNat 0 := by
  unfold amoBytes at h
  simp only [amoIss, bits_amo_reserved hx, h, ne_eq, not_true_eq_false, not_false_eq_true, if_false, if_true]

variable (ha : (x.s f.rs1).toNat % amoBytes f = 0)
include ha

theorem amoIss_undef (hp : s.hub.window core (s.hub.corePart x) (x.s f.rs1).toNat (amoBytes f) = .undef) :
    amoIss fn f core x s = .exc s x 0x03 (x.s f.rs1).toNat 0 := by
  unfold amoBytes at ha hp
  simp only [amoIss, bits_amo_reserved hx, ha, hp, ne_eq, not_true_eq_false, if_false, Got.bind]

variable {a : Nat} (hp : s.hub.window core (s.hub.corePart x) (x.s f.rs1).toNat (amoBytes f) = .here a)
include hp

theorem amoIss_poison (hbad : s.mem.bad a (amoBytes f) = true) : amoIss fn f core x s = .exc s x 0x05 (x.s f.rs1).toNat 0 := by
  unfold amoBytes at ha hp hbad
  simp only [amoIss, bits_amo_reserved hx, ha, hp, ne_eq, not_true_eq_false, if_false, if_true, State.amoHere, hbad, Got.bind]

theorem amoIss_here (hbad : s.mem.bad a (amoBytes f) = false) : amoIss fn f core x s =
    .done { s with mem := s.mem.wr a (amoBytes f) (amoVal fn (8 * amoBytes f) (s.mem.rd a (amoBytes f))
        ((x.s f.rs2).toNat % 2 ^ (8 * amoBytes f)) (if fn = 9 then (x.s f.rd).toNat % 2 ^ (8 * amoBytes f) else 0)) }
      (wroteS x f.rd (BitVec.ofNat 64 (s.mem.rd a (amoBytes f)))) := by
  unfold amoBytes at ha hp hbad ⊢
  simp only [amoIss, bits_amo_reserved hx, ha, hp, ne_eq, not_true_eq_false, if_false, State.amoHere, hbad, Bool.false_eq_true, Got.bind, wroteS]

end

end

/-- Every row of major 0x1F is an atomic of its function (Table 5 of 05). -/
theorem exec_amoRow : ∀ e ∈ amoRows, ∀ c f s, exec (e.2.1 c f) s = issue c (encR 0x1F e.1 f) (amoIss e.1 f) s := by
  simp only [amoRows, List.forall_mem_cons]
  exact ⟨fun _ _ _ => rfl, fun _ _ _ => rfl, fun _ _ _ => rfl, fun _ _ _ => rfl, fun _ _ _ => rfl, fun _ _ _ => rfl, fun _ _ _ => rfl,
    fun _ _ _ => rfl, fun _ _ _ => rfl, fun _ _ _ => rfl, by simp⟩

/-- Settles O7: an atomic by its checks in order; at an address of the window it writes what its row combines of the value read. -/
theorem atomicsReturnTheOldValue : Obligations.AtomicsReturnTheOldValue := by
  intro c f s h x n va place e he i w
  have hi : exec i s = issue c w (amoIss e.1 f) s := exec_amoRow e he c f s
  refine ⟨fun hres => ?_, fun hx hm => ?_, fun hx ha hp => ?_, fun a hx ha hp hbad => ?_, fun a hx ha hp hbad => ?_⟩
  · exact exec_of_exc h hi (amoIss_reserved hres)
  · exact exec_of_exc h hi (amoIss_misaligned hx hm)
  · exact exec_of_exc h hi (amoIss_undef hx ha hp)
  · exact exec_of_exc h hi (amoIss_poison hx ha hp hbad)
  · intro old new
    have hvalue := amoVal_row (w := 8 * n) (Nat.mul_pos (by decide) (amoBytes_pos f)) (s.mem.rd_lt a n)
      (Nat.mod_lt (x.s f.rs2).toNat (Nat.two_pow_pos _)) (Nat.mod_lt (x.s f.rd).toNat (Nat.two_pow_pos _)) e he
    have hold : old = s.mem.rd a n := (rd_eq_leBytesAt _ _ _).symm
    refine ⟨_, ?_, stored_wr s.mem a n new⟩
    rw [show new = _ from (congrArg (fun v => e.2.2 _ v _ _) hold).trans hvalue.symm, hold]
    exact exec_of_done h hi (amoIss_here hx ha hp hbad)

end Sys2Proof.Machine
end

section
/-! SUPPORT. The elements of a register as numbers packed without gaps (05: R109; 06: R147), and what an instruction that works by element
makes of them under its predicate. -/

namespace Sys2Proof.Machine

open Sys2Proof Claims

-- Fields

theorem testBit_bits (x lo len j : Nat) : (bits x lo len).testBit j = (decide (j < len) && x.testBit (j + lo)) := by
  rw [bits, Nat.testBit_mod_two_pow, Nat.testBit_div_two_pow]

theorem bits_lt (x lo len : Nat) : bits x lo len < 2 ^ len := Nat.mod_lt _ (Nat.two_pow_pos len)

/-- A field below the cut of a number is its own. -/
theorem bits_mod {lo len n : Nat} (h : lo + len ≤ n) (x : Nat) : bits (x % 2 ^ n) lo len = bits x lo len := by
  refine Nat.eq_of_testBit_eq fun j => ?_
  rw [testBit_bits, testBit_bits, Nat.testBit_mod_two_pow]
  by_cases hj : j < len
  · simp [show j + lo < n by omega]
  · simp [hj]

/-- A field of a number shifted down. -/
theorem bits_div (x k lo len : Nat) : bits (x / 2 ^ k) lo len = bits x (k + lo) len := by
  rw [bits, bits, Nat.div_div_eq_div_mul, Nat.pow_add]

/-- A field of a field. -/
theorem bits_bits {lo len lo' len' : Nat} (h : lo' + len' ≤ len) (x : Nat) : bits (bits x lo len) lo' len' = bits x (lo + lo') len' := by
  rw [← bits_div]; exact bits_mod h _

/-- An element of a number after one of its elements was put. -/
theorem bits_putBits_mul (x v w i j : Nat) : bits (putBits x (w * i) w v) (w * j) w = if j = i then v % 2 ^ w else bits x (w * j) w := by
  refine Nat.eq_of_testBit_eq fun k => ?_
  rw [testBit_bits, testBit_putBits]
  by_cases hk : k < w
  · obtain h | rfl | h := Nat.lt_trichotomy j i
    · have hle : w * j + w ≤ w * i := by rw [← Nat.mul_succ]; exact Nat.mul_le_mul_left w h
      rw [if_pos (by omega), if_neg (Nat.ne_of_lt h), testBit_bits]
    · rw [if_neg (by omega), if_pos (by omega), if_pos rfl, Nat.testBit_mod_two_pow, Nat.add_sub_cancel]
    · have hle : w * i + w ≤ w * j := by rw [← Nat.mul_succ]; exact Nat.mul_le_mul_left w h
      rw [if_neg (by omega), if_neg (by omega), if_neg (Nat.ne_of_gt h), testBit_bits]
  · by_cases h : j = i <;> simp [h, hk, Nat.testBit_mod_two_pow, testBit_bits]

-- Packed elements

@[simp] theorem length_unpack (w n x : Nat) : (unpack w n x).length = n := by
  induction n generalizing x with
  | zero => rfl
  | succ n ih => rw [unpack, List.length_cons, ih]

theorem getD_unpack {w n i : Nat} (h : i < n) (x d : Nat) : (unpack w n x).getD i d = bits x (w * i) w := by
  induction n generalizing i x with
  | zero => omega
  | succ n ih =>
    cases i with
    | zero => rw [unpack, List.getD_cons_zero, Nat.mul_zero]
    | succ i => rw [unpack, List.getD_cons_succ, ih (by omega), bits_div, Nat.mul_succ, Nat.add_comm]

theorem bits_pack {w i : Nat} {l : List Nat} (h : i < l.length) : bits (pack w l) (w * i) w = l.getD i 0 % 2 ^ w := by
  induction l generalizing i with
  | nil => simp at h
  | cons c t ih =>
    have hlow : c % 2 ^ w < 2 ^ w := Nat.mod_lt _ (Nat.two_pow_pos w)
    cases i with
    | zero =>
      rw [pack, List.getD_cons_zero, Nat.mul_zero, bits, Nat.pow_zero, Nat.div_one, Nat.add_mul_mod_self_left, Nat.mod_mod]
    | succ i =>
      have hshift : (c % 2 ^ w + 2 ^ w * pack w t) / 2 ^ w = pack w t := by
        rw [Nat.add_mul_div_left _ _ (Nat.two_pow_pos w), Nat.div_eq_of_lt hlow, Nat.zero_add]
      rw [pack, List.getD_cons_succ, ← ih (by simpa using h), Nat.mul_succ, Nat.add_comm (w * i), ← bits_div, hshift]

-- Elements of a register

theorem elt_eq_bits (w : Nat) (v : Word256) (i : Nat) : elt w v i = bits v.toNat (w * i) w := rfl

theorem elt_lt (w : Nat) (v : Word256) (i : Nat) : elt w v i < 2 ^ w := bits_lt _ _ _

@[simp] theorem length_elems (w n : Nat) (v : Word256) : (elems w n v).length = n := length_unpack w n _

theorem getD_elems {w n i : Nat} (h : i < n) (v : Word256) (d : Nat) : (elems w n v).getD i d = elt w v i := getD_unpack h _ d

/-- An element within a register, from the number that the register was made of. -/
theorem elt_ofNat {w i : Nat} (h : w * i + w ≤ 256) (x : Nat) : elt w (BitVec.ofNat 256 x) i = bits x (w * i) w := by
  rw [elt_eq_bits, BitVec.toNat_ofNat, bits_mod h]

theorem mul_add_le_of_lt {w i n m : Nat} (hi : i < n) (hn : w * n ≤ m) : w * i + w ≤ m :=
  le_trans (by rw [← Nat.mul_succ]; exact Nat.mul_le_mul_left w hi) hn

theorem elt_ofElems {w i : Nat} {l : List Nat} (hi : i < l.length) (hl : w * l.length ≤ 256) : elt w (ofElems w l) i = l.getD i 0 % 2 ^ w := by
  rw [ofElems, elt_ofNat (mul_add_le_of_lt hi hl), bits_pack hi]

-- Under a predicate (R109)

@[simp] theorem length_mergeElems (p : Word64) (old new : List Nat) : (mergeElems p old new).length = new.length := by simp [mergeElems]

theorem getD_map_range {α : Type} {n i : Nat} (h : i < n) (f : Nat → α) (d : α) : ((List.range n).map f).getD i d = f i := by
  simp [List.getD_eq_getElem?_getD, h]

theorem getD_map_of_lt {α β : Type} {l : List α} {i : Nat} (h : i < l.length) (f : α → β) (d : α) (d' : β) : (l.map f).getD i d' = f (l.getD i d) := by
  rw [List.getD_eq_getElem _ _ (by simpa using h), List.getElem_map, List.getD_eq_getElem _ _ h]

theorem getD_mergeElems {i : Nat} {new : List Nat} (h : i < new.length) (p : Word64) (old : List Nat) :
    (mergeElems p old new).getD i 0 = if active p new.length i then new.getD i 0 else old.getD i 0 :=
  getD_map_range h _ 0

/-- An element of a register written under a predicate: the new one where it is active, else the register's own. -/
theorem elt_ofElems_mergeElems {w n i : Nat} {new : List Nat} (hlen : new.length = n) (hw : w * n ≤ 256) (hi : i < n) (p : Word64)
    (old : Word256) :
    elt w (ofElems w (mergeElems p (elems w n old) new)) i = if active p n i then new.getD i 0 % 2 ^ w else elt w old i := by
  subst hlen
  rw [elt_ofElems (by simpa using hi) (by simpa using hw), getD_mergeElems hi, getD_elems hi]
  split
  · rfl
  · exact Nat.mod_eq_of_lt (elt_lt w old i)

theorem zipIdx_map_range {α : Type} (n : Nat) (r : Nat → α) : ((List.range n).map r).zipIdx = (List.range n).map (fun i => (r i, i)) := by
  refine List.ext_getElem (by simp) fun i h1 h2 => ?_
  simp

/-- The flags of the active elements, as the model folds them over the results. -/
theorem joinFlags_map (p : Word64) (n : Nat) (r : Nat → Nat × FFlags) : joinFlags p ((List.range n).map r) = joined p n (fun j => (r j).2) := by
  rw [joinFlags, zipIdx_map_range, List.foldl_map, List.length_map, List.length_range]
  rfl

end Sys2Proof.Machine
end

section
/-! SUPPORT. An instruction that works by element (05: R109, R136, R137), as its results and their flags. -/

namespace Sys2Proof.Machine

open Sys2Proof Claims

/-- Element `j` of the result of `g` on va, vb and vd. -/
def resultAt (x : Core) (f : VForm) (w : Nat) (g : Nat → Nat → Nat → Nat × FFlags) (j : Nat) : Nat × FFlags :=
  g (elt w (x.v f.va.toNat) j) (elt w (x.v f.vb.toNat) j) (elt w (x.v f.vd.toNat) j)

section
variable {w n : Nat} {f : VForm} {x : Core} {g : Nat → Nat → Nat → Nat × FFlags}

theorem vmap_eq : vmap w n f x g
    = finish x (joined (x.p f.pg) n (fun j => (resultAt x f w g j).2)) (fun y => y.setV f.vd.toNat
        (ofElems w (mergeElems (x.p f.pg) (elems w n (x.v f.vd.toNat)) ((List.range n).map (fun j => (resultAt x f w g j).1))))) := by
  have hrs : (List.range n).map (fun i => g ((elems w n (x.v f.va.toNat)).getD i 0) ((elems w n (x.v f.vb.toNat)).getD i 0)
      ((elems w n (x.v f.vd.toNat)).getD i 0)) = (List.range n).map (resultAt x f w g) :=
    List.map_congr_left fun i hi => by
      rw [getD_elems (List.mem_range.1 hi), getD_elems (List.mem_range.1 hi), getD_elems (List.mem_range.1 hi)]; rfl
  rw [vmap]
  simp only [hrs, joinFlags_map, List.map_map]
  rfl

theorem vmap_ok (hw : w * n ≤ 256) (h : (joined (x.p f.pg) n (fun j => (resultAt x f w g j).2)).toNat &&& x.fexc = 0) :
    ∃ v, vmap w n f x g = .ok (wroteV (x.orFlags (joined (x.p f.pg) n (fun j => (resultAt x f w g j).2))) f.vd v) ∧
      ∀ j < n, elt w v j = if active (x.p f.pg) n j then (resultAt x f w g j).1 % 2 ^ w else elt w (x.v f.vd.toNat) j := by
  refine ⟨_, vmap_eq.trans (finish_ok h), fun j hj => ?_⟩
  rw [elt_ofElems_mergeElems (by simp) hw hj, getD_map_range hj]

theorem vmap_trap (h : (joined (x.p f.pg) n (fun j => (resultAt x f w g j).2)).toNat &&& x.fexc ≠ 0) :
    vmap w n f x g = .exc 0x08 0 (x.orFlags (joined (x.p f.pg) n (fun j => (resultAt x f w g j).2))) :=
  vmap_eq.trans (finish_trap h)

end

theorem elementwise_of_vmap {c : CoreId} {s : State} {i : Instr} {word w n : Nat} {f : VForm} {body : Core → CoreRes}
    {g : Nat → Nat → Nat → Nat × FFlags} (h : Ready c s) (he : exec i s = issue c word (pureIss body) s)
    (hbody : body (coreOf c s) = vmap w n f (coreOf c s) g) (hw : w * n ≤ 256) : Elementwise i word c f s w n g := by
  refine ⟨fun hpass => ?_, fun htrap => ?_⟩
  · obtain ⟨v, hv, helt⟩ := vmap_ok hw hpass
    exact ⟨v, retires_of_pure h he (hbody.trans hv), helt⟩
  · exact exec_of_pure_exc h he (hbody.trans (vmap_trap htrap))

-- The arithmetic formats

theorem vfFmt_floatFmts : ∀ k ∈ floatFmts, vfFmt k.1.toNat = some k.2.1 := by decide

theorem width_floatFmts : ∀ k ∈ floatFmts, k.2.1.width = k.2.2.1 := by decide

theorem eltCount_floatFmts : ∀ k ∈ floatFmts, eltCount k.1.toNat = k.2.2.2 := by decide

theorem size_floatFmts : ∀ k ∈ floatFmts, k.2.2.1 * k.2.2.2 ≤ 256 := by decide

theorem vfFmt_of_le {k : Nat} (h : 3 ≤ k) : vfFmt k = none := by
  obtain ⟨m, rfl⟩ := Nat.exists_eq_add_of_le' h
  rfl

theorem vfloat_of_mem {f : VForm} {k : BitVec 4 × FltFmt × Nat × Nat} (hk : k ∈ floatFmts) (hf : f.fmt = k.1) (x : Core)
    (g : FltFmt → Nat → Nat → Nat → Nat × FFlags) : vfloat f x g = vmap k.2.2.1 k.2.2.2 f x (g k.2.1) := by
  rw [vfloat, hf, vfFmt_floatFmts k hk]
  dsimp only
  rw [width_floatFmts k hk, eltCount_floatFmts k hk]

theorem vfloat_illegal {f : VForm} (h : 3 ≤ f.fmt.toNat) (x : Core) (g : FltFmt → Nat → Nat → Nat → Nat × FFlags) :
    vfloat f x g = CoreRes.illegal x := by
  rw [vfloat, vfFmt_of_le h]

end Sys2Proof.Machine
end

section
/-! The statement on vector arithmetic (05): O11 proved. -/

namespace Sys2Proof.Machine

open Sys2Proof Claims

-- VFP and VSPEC

/-- Every row of major 0x30 is an element-wise float instruction (Table 5 of 05). -/
theorem exec_vfpRow : ∀ e ∈ vfpRows, e.1 = 0x30 → ∀ c f s,
    exec (e.2.2.1 c f) s = issue c (encV e.1 e.2.1 f) (pureIss (fun x => vfloat f x (fun k => e.2.2.2 k x))) s := by
  simp only [vfpRows, List.forall_mem_cons]
  exact ⟨fun _ _ _ _ => rfl, fun _ _ _ _ => rfl, fun _ _ _ _ => rfl, fun _ _ _ _ => rfl, fun _ _ _ _ => rfl, fun _ _ _ _ => rfl,
    fun _ _ _ _ => rfl, fun _ _ _ _ => rfl, fun _ _ _ _ => rfl, by simp, by simp, by simp, by simp⟩

/-- Every row of major 0x35 is a special function (Table 5 of 05). -/
theorem exec_vspecRow : ∀ e ∈ vspecRows, ∀ c f s, exec (e.2.1 c f) s = issue c (encV 0x35 e.1 f) (pureIss (vSpec e.2.2 f)) s := by
  simp only [vspecRows, List.forall_mem_cons]
  exact ⟨fun _ _ _ => rfl, fun _ _ _ => rfl, fun _ _ _ => rfl, fun _ _ _ => rfl, fun _ _ _ => rfl, by simp⟩

section
variable {fn : SpecFn} {f : VForm} (x : Core)

theorem vSpec_fp32 (h : f.fmt = 0) : vSpec fn f x = vmap 32 8 f x (fun a _ _ => spec32 fn x.ftz a) := by
  rw [vSpec, h]; rfl

theorem vSpec_bf16 (h : f.fmt = 1) : vSpec fn f x = vmap 16 16 f x (fun a _ _ => specBf16 fn x.ftz a) := by
  rw [vSpec, h]; rfl

theorem vSpec_illegal (h : 2 ≤ f.fmt.toNat) : vSpec fn f x = CoreRes.illegal x := by
  obtain ⟨m, hm⟩ := Nat.exists_eq_add_of_le' h
  rw [vSpec, hm]; rfl

end

theorem vectorFloatInstructionsWorkByElement : VectorFloatInstructionsWorkByElement := by
  intro c f s h x
  refine ⟨fun e he hmaj k hk hf => ?_, fun e he hmaj hf => ?_, fun e he => ?_⟩
  · exact elementwise_of_vmap h (exec_vfpRow e he hmaj c f s) (vfloat_of_mem hk hf x _) (size_floatFmts k hk)
  · exact exec_of_illegal h (exec_vfpRow e he hmaj c f s) (vfloat_illegal hf x _)
  · have hexec := exec_vspecRow e he c f s
    refine ⟨fun hf => ?_, fun hf => ?_, fun hf => ?_⟩
    · exact elementwise_of_vmap h hexec (vSpec_fp32 x hf) (by decide)
    · exact elementwise_of_vmap h hexec (vSpec_bf16 x hf) (by decide)
    · exact exec_of_illegal h hexec (vSpec_illegal x hf)

-- VFMA

/-- Every row of major 0x31 is a fused multiply-add, which the floe counts (Table 5 of 05). -/
theorem exec_vfmaRow : ∀ e ∈ vfpRows, e.1 = 0x31 → ∀ c f s,
    exec (e.2.2.1 c f) s = issue c (encV 0x31 e.2.1 f) (fmaIss (fun x => vfloat f x (fun k => e.2.2.2 k x))) s := by
  simp only [vfpRows, List.forall_mem_cons]
  exact ⟨by simp, by simp, by simp, by simp, by simp, by simp, by simp, by simp, by simp,
    fun _ _ _ _ => rfl, fun _ _ _ _ => rfl, fun _ _ _ _ => rfl, by simp⟩

section
variable {c : CoreId} {i : Instr} {w : Nat} {g : Core → CoreRes} {s : State} {y : Core}

theorem exec_fma_ok (h : Ready c s) (he : exec i s = issue c w (fmaIss g) s) (hg : g (coreOf c s) = .ok y) :
    exec i s = .next (retired c (countsFma c s) y) :=
  exec_of_done h he (by rw [fmaIss, pureIss, hg]; rfl)

theorem exec_fma_exc {code addr : Nat} (h : Ready c s) (he : exec i s = issue c w (fmaIss g) s) (hg : g (coreOf c s) = .exc code addr y) :
    exec i s = .next (raised c (countsFma c s) y w code addr 0) :=
  exec_of_exc h he (by rw [fmaIss, pureIss, hg]; rfl)

end

theorem vectorMultiplyAddsRoundOnce : VectorMultiplyAddsRoundOnce := by
  intro c f s h x old p e he hmaj k hk hf w n r fl
  have hexec := exec_vfmaRow e he hmaj c f s
  have hmap := vfloat_of_mem hk hf x (fun k => e.2.2.2 k x)
  refine ⟨fun hpass => ?_, fun htrap => ?_⟩
  · obtain ⟨v, hv, helt⟩ := vmap_ok (size_floatFmts k hk) hpass
    exact ⟨v, exec_fma_ok h hexec (hmap.trans hv), helt⟩
  · exact exec_fma_exc h hexec (hmap.trans (vmap_trap htrap))

-- VINT

theorem ofSigned_eq (w : Nat) (i : Int) : ofSigned w i = (BitVec.ofInt w i).toNat := by
  rw [ofSigned, BitVec.toNat_ofInt]

/-- The row `e` of the table of integer instructions on elements is that of the operation `op`. -/
def IsVintRow (op : VOp) (e : Nat × (CoreId → VForm → Instr) × (Nat → Nat → Nat → Nat)) : Prop :=
  (∀ c f s, exec (e.2.1 c f) s = issue c (encV 0x32 e.1 f) (pureIss (vInt op f)) s) ∧
  ∀ w a b, 0 < w → a < 2 ^ w → b < 2 ^ w → vintElt op w a b % 2 ^ w = e.2.2 w a b

/-- Saturation of a sum, as the bounds of the width give it. -/
theorem saturated_eq {P s : Int} (h : 0 < P) :
    (if P ≤ s then P - 1 else if s < -P then -P else s) = max (-P) (min (P - 1) s) := by
  split
  · omega
  · split <;> omega

/-- Every row of major 0x32 is an operation of VINT (Table 5 of 05). -/
theorem exists_isVintRow : ∀ e ∈ vintRows, ∃ op, IsVintRow op e := by
  simp only [vintRows, List.forall_mem_cons]
  refine ⟨⟨.add, fun _ _ _ => rfl, fun w a b _ _ _ => Nat.mod_mod _ _⟩, ⟨.sub, fun _ _ _ => rfl, fun w a b _ ha hb => ?sub⟩,
    ⟨.mul, fun _ _ _ => rfl, fun w a b _ _ _ => Nat.mod_mod _ _⟩,
    ⟨.and, fun _ _ _ => rfl, fun w a b _ _ hb => Nat.mod_eq_of_lt (Nat.and_lt_two_pow _ hb)⟩,
    ⟨.or, fun _ _ _ => rfl, fun w a b _ ha hb => Nat.mod_eq_of_lt (Nat.or_lt_two_pow ha hb)⟩,
    ⟨.xor, fun _ _ _ => rfl, fun w a b _ ha hb => Nat.mod_eq_of_lt (Nat.xor_lt_two_pow ha hb)⟩,
    ⟨.sll, fun _ _ _ => rfl, fun w a b _ _ _ => ?sll⟩, ⟨.srl, fun _ _ _ => rfl, fun w a b _ ha _ => ?srl⟩,
    ⟨.sra, fun _ _ _ => rfl, fun w a b hw _ _ => ?sra⟩, ⟨.min, fun _ _ _ => rfl, fun w a b hw ha hb => ?min⟩,
    ⟨.max, fun _ _ _ => rfl, fun w a b hw ha hb => ?max⟩, ⟨.minu, fun _ _ _ => rfl, fun w a b _ ha hb => ?minu⟩,
    ⟨.maxu, fun _ _ _ => rfl, fun w a b _ ha hb => ?maxu⟩, ⟨.adds, fun _ _ _ => rfl, fun w a b hw _ _ => ?adds⟩, by simp⟩
  case sub => rw [vintElt, Nat.mod_mod, Nat.mod_eq_of_lt hb, ← Nat.add_sub_assoc hb.le]
  case sll => dsimp only; rw [vintElt, Nat.mod_mod, Nat.shiftLeft_eq]
  case srl => dsimp only; rw [vintElt, Nat.shiftRight_eq_div_pow, Nat.mod_eq_of_lt (lt_of_le_of_lt (Nat.div_le_self _ _) ha)]
  case sra =>
    have hshift : (BitVec.ofNat w a).sshiftRight (b % w) = BitVec.ofInt w ((BitVec.ofNat w a).toInt / 2 ^ (b % w)) :=
      (congrArg (BitVec.ofInt w) (Int.shiftRight_eq_div_pow _ _)).trans (by push_cast; rfl)
    dsimp only
    rw [vintElt, ofSigned_eq, Nat.mod_eq_of_lt (BitVec.isLt _), toSigned_eq_toInt hw, hshift]
  case min =>
    rw [vintElt, Nat.mod_eq_of_lt (by split <;> assumption), ite_lt_swap, toSigned_eq_toInt hw, toSigned_eq_toInt hw]
  case max => rw [vintElt, Nat.mod_eq_of_lt (by split <;> assumption), toSigned_eq_toInt hw, toSigned_eq_toInt hw]
  case minu => dsimp only; rw [vintElt, Nat.mod_eq_of_lt (by split <;> assumption), ite_lt_swap, min_def]
  case maxu => dsimp only; rw [vintElt, Nat.mod_eq_of_lt (by split <;> assumption), max_def_lt]
  case adds =>
    rw [vintElt, ofSigned_eq, Nat.mod_eq_of_lt (BitVec.isLt _), toSigned_eq_toInt hw, toSigned_eq_toInt hw,
      saturated_eq (by positivity)]

theorem joined_none (p : Word64) (n : Nat) : joined p n (fun _ => FFlags.none) = FFlags.none := by
  have hor : FFlags.none.or FFlags.none = FFlags.none := rfl
  exact List.foldl_fixed' (fun i => by rw [hor, ite_self]) _

@[simp] theorem orFlags_none (x : Core) : x.orFlags FFlags.none = x := by
  have hzero : x.fflags ||| BitVec.ofNat 64 FFlags.none.toNat = x.fflags := BitVec.or_zero
  rw [Core.orFlags, hzero]

theorem vectorIntegerInstructionsWorkByElement : VectorIntegerInstructionsWorkByElement := by
  intro c f s h x e he
  obtain ⟨op, hexec, hvalue⟩ := exists_isVintRow e he
  refine ⟨fun hf => ?_, fun hf => ?_⟩
  · intro w
    have hw : 0 < w := by positivity
    have hbody : vInt op f x = vmap w (256 / w) f x (fun a b _ => (vintElt op w a b, FFlags.none)) := legalIf_of (decide_eq_true hf)
    have hflags : joined (x.p f.pg) (256 / w) (fun _ => FFlags.none) = FFlags.none := joined_none _ _
    obtain ⟨v, hv, helt⟩ := vmap_ok (f := f) (x := x) (g := fun a b _ => (vintElt op w a b, FFlags.none)) (Nat.mul_div_le 256 w)
      (by simp only [resultAt, hflags]; exact Nat.zero_and _)
    simp only [resultAt, hflags, orFlags_none] at hv helt
    refine ⟨v, retires_of_pure h (hexec c f s) (hbody.trans hv), fun j hj => ?_⟩
    rw [helt j hj, hvalue w _ _ hw (elt_lt _ _ _) (elt_lt _ _ _)]
  · exact exec_of_illegal h (hexec c f s) (legalIf_not (decide_eq_false (by omega)))

/-- Settles O11: each row is an operation by element, of floats with their flags or of integers without. -/
theorem vectorArithmeticWorksByElement : Obligations.VectorArithmeticWorksByElement :=
  ⟨vectorFloatInstructionsWorkByElement, vectorMultiplyAddsRoundOnce, vectorIntegerInstructionsWorkByElement⟩

end Sys2Proof.Machine
end

section
/-! The statement on permutations (05): O14 proved. -/

namespace Sys2Proof.Machine

open Sys2Proof Claims

-- A permutation's elements under its predicate

section
variable {f : VForm} {x : Core} {new : List Nat}

theorem permOut_illegal (h : 4 ≤ f.fmt.toNat) : permOut f x new = CoreRes.illegal x :=
  legalIf_not (decide_eq_false (by omega))

theorem permOut_legal (h : f.fmt.toNat < 4) (hlen : new.length = 256 / widthOf f.fmt.toNat) :
    ∃ v, permOut f x new = .ok (wroteV x f.vd v) ∧ ∀ j < 256 / widthOf f.fmt.toNat, elt (widthOf f.fmt.toNat) v j
      = if active (x.p f.pg) (256 / widthOf f.fmt.toNat) j then new.getD j 0 % 2 ^ widthOf f.fmt.toNat
        else elt (widthOf f.fmt.toNat) (x.v f.vd.toNat) j :=
  ⟨_, legalIf_of (decide_eq_true h), fun _ hj => elt_ofElems_mergeElems hlen (Nat.mul_div_le 256 _) hj _ _⟩

theorem getD_permElems {r : BitVec 5} {j : Nat} (h : j < 256 / widthOf f.fmt.toNat) :
    (permElems f x r).getD j 0 = elt (widthOf f.fmt.toNat) (x.v r.toNat) j := getD_elems h _ _

theorem length_permElems {r : BitVec 5} : (permElems f x r).length = 256 / widthOf f.fmt.toNat := length_elems _ _ _

end

-- The rows

/-- The row `e` of the table of permutations writes the elements `new` (Table 5 of 05). -/
def IsPermRow (new : VForm → Core → List Nat) (e : Nat × (CoreId → VForm → Instr) × (Core → VForm → Nat → Nat → Nat → Nat)) : Prop :=
  (∀ c f s, exec (e.2.1 c f) s = issue c (encV 0x3D e.1 f) (pureIss (fun x => permOut f x (new f x))) s) ∧
  ∀ f x, (new f x).length = 256 / widthOf f.fmt.toNat ∧ ∀ j < 256 / widthOf f.fmt.toNat,
    (new f x).getD j 0 % 2 ^ widthOf f.fmt.toNat = e.2.2 x f (widthOf f.fmt.toNat) (256 / widthOf f.fmt.toNat) j

/-- The elements of VBCST. -/
def bcstElems (f : VForm) (x : Core) : List Nat :=
  List.replicate (256 / widthOf f.fmt.toNat) ((x.s f.va).toNat % 2 ^ widthOf f.fmt.toNat)

/-- The elements of VSLIDE. -/
def slideElems (f : VForm) (x : Core) : List Nat :=
  (List.range (permElems f x f.va).length).map (fun i => (permElems f x f.va).getD (i + (x.s f.vb).toNat) 0)

/-- The elements of VZIPLO and VZIPHI. -/
def zipElems (hi : Bool) (f : VForm) (x : Core) : List Nat :=
  let o := if hi then (permElems f x f.va).length / 2 else 0
  (List.range (permElems f x f.va).length).map (fun i =>
    if i % 2 = 0 then (permElems f x f.va).getD (o + i / 2) 0 else (permElems f x f.vb).getD (o + i / 2) 0)

theorem isPermRow_bcst : IsPermRow bcstElems (1, Instr.vbcst, fun x f w _ _ => (x.s f.va).toNat % 2 ^ w) := by
  refine ⟨fun _ _ _ => rfl, fun f x => ⟨List.length_replicate, fun j hj => ?_⟩⟩
  rw [bcstElems, List.getD_eq_getElem _ _ (by simpa using hj), List.getElem_replicate, Nat.mod_mod]

theorem isPermRow_slide : IsPermRow slideElems
    (4, Instr.vslide, fun x f w n j => if j + (x.s f.vb).toNat < n then elt w (x.v f.va.toNat) (j + (x.s f.vb).toNat) else 0) := by
  refine ⟨fun _ _ _ => rfl, fun f x => ⟨by simp [slideElems, length_permElems], fun j hj => ?_⟩⟩
  rw [slideElems, length_permElems, getD_map_range hj]
  dsimp only
  split
  · next h => rw [getD_permElems h, Nat.mod_eq_of_lt (elt_lt _ _ _)]
  · next h => rw [List.getD_eq_default _ _ (by rw [length_permElems]; omega), Nat.zero_mod]

theorem isPermRow_ziplo : IsPermRow (zipElems false)
    (5, Instr.vziplo, fun x f w _ j => elt w (if j % 2 = 0 then x.v f.va.toNat else x.v f.vb.toNat) (j / 2)) := by
  refine ⟨fun _ _ _ => rfl, fun f x => ⟨by simp [zipElems, length_permElems], fun j hj => ?_⟩⟩
  rw [zipElems, length_permElems, getD_map_range hj, if_neg Bool.false_ne_true, Nat.zero_add]
  have hhalf : j / 2 < 256 / widthOf f.fmt.toNat := by omega
  dsimp only
  split <;> rw [getD_permElems hhalf, Nat.mod_eq_of_lt (elt_lt _ _ _)]

theorem isPermRow_ziphi : IsPermRow (zipElems true)
    (6, Instr.vziphi, fun x f w n j => elt w (if j % 2 = 0 then x.v f.va.toNat else x.v f.vb.toNat) (n / 2 + j / 2)) := by
  refine ⟨fun _ _ _ => rfl, fun f x => ⟨by simp [zipElems, length_permElems], fun j hj => ?_⟩⟩
  rw [zipElems, length_permElems, getD_map_range hj, if_pos rfl]
  have hhalf : 256 / widthOf f.fmt.toNat / 2 + j / 2 < 256 / widthOf f.fmt.toNat := by omega
  dsimp only
  split <;> rw [getD_permElems hhalf, Nat.mod_eq_of_lt (elt_lt _ _ _)]

theorem isPermRow_mov : IsPermRow (fun f x => permElems f x f.va) (7, Instr.vmov, fun x f w _ j => elt w (x.v f.va.toNat) j) :=
  ⟨fun _ _ _ => rfl, fun f x => ⟨length_permElems, fun j hj => by rw [getD_permElems hj]; exact Nat.mod_eq_of_lt (elt_lt _ _ _)⟩⟩

theorem exists_isPermRow : ∀ e ∈ permRows, ∃ new, IsPermRow new e := by
  simp only [permRows, List.forall_mem_cons]
  exact ⟨⟨_, isPermRow_bcst⟩, ⟨_, isPermRow_slide⟩, ⟨_, isPermRow_ziplo⟩, ⟨_, isPermRow_ziphi⟩, ⟨_, isPermRow_mov⟩, by simp⟩

-- VPERMB

/-- The register whose bytes VPERMB selects. -/
def permbReg (f : VForm) (x : Core) : Word256 :=
  ofElems 8 ((elems 8 32 (x.v f.vb.toNat)).map (fun i => (elems 8 32 (x.v f.va.toNat)).getD (i % 32) 0))

theorem elt_permbReg (f : VForm) (x : Core) {b : Nat} (h : b < 32) :
    elt 8 (permbReg f x) b = elt 8 (x.v f.va.toNat) (elt 8 (x.v f.vb.toNat) b % 32) := by
  have hmod : elt 8 (x.v f.vb.toNat) b % 32 < 32 := Nat.mod_lt _ (by decide)
  rw [permbReg, elt_ofElems (by simpa using h) (by simp), getD_map_of_lt (by simpa using h) _ 0, getD_elems h, getD_elems hmod,
    Nat.mod_eq_of_lt (elt_lt _ _ _)]

/-- A byte of a register, from the element of `8 × 2^k` bits that holds it. -/
theorem elt_byte (k : Nat) (v : Word256) (b : Nat) :
    elt 8 v b = bits (elt (widthOf k) v (8 * b / widthOf k)) (8 * (b % 2 ^ k)) 8 := by
  have hpos := Nat.two_pow_pos k
  have hlt := Nat.mod_lt b hpos
  have hb := Nat.div_add_mod b (2 ^ k)
  rw [widthOf, Nat.mul_div_mul_left _ _ (by decide), elt_eq_bits, elt_eq_bits, bits_bits (by omega)]
  congr 1
  calc 8 * b = 8 * (2 ^ k * (b / 2 ^ k) + b % 2 ^ k) := by rw [hb]
    _ = 8 * 2 ^ k * (b / 2 ^ k) + 8 * (b % 2 ^ k) := by ring

/-- VPERMB by bytes: an element is active or not with all its bytes. -/
theorem vPermb_legal {f : VForm} (h : f.fmt.toNat < 4) (x : Core) :
    ∃ v, vPermb f x = .ok (wroteV x f.vd v) ∧ ∀ b < 32, elt 8 v b
      = if active (x.p f.pg) (256 / widthOf f.fmt.toNat) (8 * b / widthOf f.fmt.toNat) then
          elt 8 (x.v f.va.toNat) (elt 8 (x.v f.vb.toNat) b % 32)
        else elt 8 (x.v f.vd.toNat) b := by
  obtain ⟨v, hv, helt⟩ := permOut_legal (x := x)
    (new := elems (widthOf f.fmt.toNat) (256 / widthOf f.fmt.toNat) (permbReg f x)) h (length_elems _ _ _)
  refine ⟨v, hv, fun b hb => ?_⟩
  have hin : 8 * b / widthOf f.fmt.toNat < 256 / widthOf f.fmt.toNat := by
    have hfit : widthOf f.fmt.toNat ∣ 256 := by
      have hk := h
      generalize f.fmt.toNat = k at hk ⊢
      interval_cases k <;> decide
    exact Nat.div_lt_div_of_lt_of_dvd hfit (by omega)
  rw [elt_byte f.fmt.toNat v, helt _ hin, getD_elems hin, Nat.mod_eq_of_lt (elt_lt _ _ _), apply_ite (fun e => bits e _ _), ← elt_byte, ← elt_byte,
    elt_permbReg f x hb]

-- VGET and VSET

section
variable {f : VForm} {x : Core}

theorem vGet_legal (h : f.fmt.toNat < 4) (hix : (x.s f.vb).toNat < 256 / widthOf f.fmt.toNat) :
    vGet f x = .ok (wroteS x f.vd (BitVec.ofNat 64 (elt (widthOf f.fmt.toNat) (x.v f.va.toNat) (x.s f.vb).toNat))) := by
  rw [elt_eq_bits, Nat.mul_comm]
  exact legalIf_of (by simp [h, hix])

theorem vGet_illegal (h : ¬ (f.fmt.toNat < 4 ∧ (x.s f.vb).toNat < 256 / widthOf f.fmt.toNat)) : vGet f x = CoreRes.illegal x :=
  legalIf_not (by simpa using h)

theorem vSet_legal (h : f.fmt.toNat < 4) (hix : (x.s f.vb).toNat < 256 / widthOf f.fmt.toNat) :
    ∃ v, vSet f x = .ok (wroteV x f.vd v) ∧ ∀ j < 256 / widthOf f.fmt.toNat, elt (widthOf f.fmt.toNat) v j
      = if j = (x.s f.vb).toNat ∧ active (x.p f.pg) (256 / widthOf f.fmt.toNat) j = true then (x.s f.va).toNat % 2 ^ widthOf f.fmt.toNat
        else elt (widthOf f.fmt.toNat) (x.v f.vd.toNat) j := by
  obtain ⟨v, hv, helt⟩ := permOut_legal (x := x)
    (new := (permElems f x f.vd).set (x.s f.vb).toNat ((x.s f.va).toNat % 2 ^ widthOf f.fmt.toNat)) h (by rw [List.length_set, length_permElems])
  refine ⟨v, (legalIf_of (by simp [h, hix])).trans hv, fun j hj => (helt j hj).trans ?_⟩
  have hlen : j < (permElems f x f.vd).length := by rwa [length_permElems]
  by_cases hactive : active (x.p f.pg) (256 / widthOf f.fmt.toNat) j = true
  · rw [if_pos hactive]
    by_cases hj' : j = (x.s f.vb).toNat
    · rw [if_pos ⟨hj', hactive⟩, ← hj', List.getD_eq_getElem _ _ (by simpa using hlen), List.getElem_set_self, Nat.mod_mod]
    · rw [if_neg fun h => hj' h.1, List.getD_eq_getElem _ _ (by simpa using hlen), List.getElem_set_ne (Ne.symm hj'),
        ← List.getD_eq_getElem _ 0 hlen, getD_permElems hj, Nat.mod_eq_of_lt (elt_lt _ _ _)]
  · rw [if_neg hactive, if_neg fun h => hactive h.2]

theorem vSet_illegal (h : ¬ (f.fmt.toNat < 4 ∧ (x.s f.vb).toNat < 256 / widthOf f.fmt.toNat)) : vSet f x = CoreRes.illegal x :=
  legalIf_not (by simpa using h)

end

/-- Settles O14: each row writes its own list of elements under the predicate. -/
theorem permutationsMoveElements : Obligations.PermutationsMoveElements := by
  intro c f s h x p w n old ix illegal
  refine ⟨fun hf => ⟨fun e he => ?_, ?_, fun hix => ⟨?_, ?_⟩, fun hix => ⟨?_, ?_⟩⟩, fun hf => ⟨fun e he => ?_, ?_, ?_, ?_⟩⟩
  · obtain ⟨new, hexec, helems⟩ := exists_isPermRow e he
    obtain ⟨hlen, hnew⟩ := helems f x
    obtain ⟨v, hv, helt⟩ := permOut_legal hf hlen
    exact ⟨v, retires_of_pure h (hexec c f s) hv, fun j hj => (helt j hj).trans (if_congr Iff.rfl (hnew j hj) rfl)⟩
  · obtain ⟨v, hv, helt⟩ := vPermb_legal hf x
    exact ⟨v, retires_of_pure h rfl hv, helt⟩
  · exact retires_of_pure h rfl (vGet_legal hf hix)
  · obtain ⟨v, hv, helt⟩ := vSet_legal hf hix
    exact ⟨v, retires_of_pure h rfl hv, helt⟩
  · exact exec_of_illegal h rfl (vGet_illegal fun hlegal => absurd hlegal.2 (Nat.not_lt.2 hix))
  · exact exec_of_illegal h rfl (vSet_illegal fun hlegal => absurd hlegal.2 (Nat.not_lt.2 hix))
  · obtain ⟨new, hexec, -⟩ := exists_isPermRow e he
    exact exec_of_illegal h (hexec c f s) (permOut_illegal hf)
  · exact exec_of_illegal h rfl (permOut_illegal hf)
  · exact exec_of_illegal h rfl (vGet_illegal fun hlegal => absurd hlegal.1 (Nat.not_lt.2 hf))
  · exact exec_of_illegal h rfl (vSet_illegal fun hlegal => absurd hlegal.1 (Nat.not_lt.2 hf))

end Sys2Proof.Machine
end

section
/-! The statement on predicates (05): O12 proved. -/

namespace Sys2Proof.Machine

open Sys2Proof Claims

-- The bits of a comparison

/-- The number of the bits `g`, each added at its place. -/
theorem testBit_sum_b2n (g : Nat → Bool) (n j : Nat) :
    ((List.range n).foldl (fun a i => a + b2n (g i) * 2 ^ i) 0).testBit j = (decide (j < n) && g j) := by
  induction n generalizing j with
  | zero => simp
  | succ n ih =>
    rw [List.range_succ, List.foldl_concat]
    have hlt : (List.range n).foldl (fun a i => a + b2n (g i) * 2 ^ i) 0 < 2 ^ n :=
      Nat.lt_pow_two_of_testBit _ fun k hk => by rw [ih, decide_eq_false (by omega), Bool.false_and]
    rw [Nat.add_comm, Nat.mul_comm, Nat.testBit_two_pow_mul_add _ hlt, ih]
    obtain h | rfl | h := Nat.lt_trichotomy j n
    · simp [h, Nat.lt_succ_of_lt h]
    · cases hg : g j <;> simp [b2n]
    · have hone : (b2n (g n)).testBit (j - n) = false :=
        Nat.testBit_lt_two_pow (lt_of_lt_of_le (b := 2) (by unfold b2n; split <;> decide) (Nat.le_self_pow (by omega) 2))
      simp [h.not_gt, hone]
      omega

/-- The word of a comparison holds the bits that the statement names. -/
theorem comparedBits_cmpBits (p old : Word64) (n : Nat) (r : Nat → Bool) : ComparedBits p old (cmpBits p old ((List.range n).map r)) n r := by
  intro j hj
  rw [cmpBits, zipIdx_map_range, List.foldl_map, List.length_map, List.length_range, BitVec.getLsbD_ofNat, testBit_sum_b2n, decide_eq_true hj,
    Bool.true_and]
  by_cases h : j < n <;> simp [h]

-- VCMP

theorem exec_vcmpRow : ∀ e ∈ vcmpRows, ∀ c f s, exec (e.2.1 c f) s = issue c (encV 0x33 e.1 f) (pureIss (vCmp e.2.2 f)) s := by
  simp only [vcmpRows, List.forall_mem_cons]
  exact ⟨fun _ _ _ => rfl, fun _ _ _ => rfl, fun _ _ _ => rfl, fun _ _ _ => rfl, fun _ _ _ => rfl, fun _ _ _ => rfl, fun _ _ _ => rfl, by simp⟩

/-- The row `e` of the table of signed comparisons is that of the kind `k`. -/
def IsVcmpsRow (k : FCmp) (e : Nat × (CoreId → VForm → Instr) × (Int → Int → Bool)) : Prop :=
  (∀ c f s, exec (e.2.1 c f) s = issue c (encV 0x33 e.1 f) (pureIss (vCmpS k f)) s) ∧ ∀ a b, intCmp k a b = e.2.2 a b

theorem exists_isVcmpsRow : ∀ e ∈ vcmpsRows, ∃ k, IsVcmpsRow k e := by
  simp only [vcmpsRows, List.forall_mem_cons]
  exact ⟨⟨.eq, fun _ _ _ => rfl, fun _ _ => rfl⟩, ⟨.ne, fun _ _ _ => rfl, fun _ _ => rfl⟩, ⟨.lt, fun _ _ _ => rfl, fun _ _ => rfl⟩,
    ⟨.le, fun _ _ _ => rfl, fun _ _ => rfl⟩, ⟨.gt, fun _ _ _ => rfl, fun _ _ => rfl⟩, ⟨.ge, fun _ _ _ => rfl, fun _ _ => rfl⟩, by simp⟩

/-- The result of the comparison `kind` on element `j` of va and vb. -/
def comparedAt (kind : FCmp) (x : Core) (f : VForm) (k : BitVec 4 × FltFmt × Nat × Nat) (j : Nat) : Bool × FFlags :=
  fpCmp kind k.2.1 x.ftz (elt k.2.2.1 (x.v f.va.toNat) j) (elt k.2.2.1 (x.v f.vb.toNat) j)

section
variable {kind : FCmp} {f : VForm} {k : BitVec 4 × FltFmt × Nat × Nat} {x : Core}

theorem vCmp_of_mem (hk : k ∈ floatFmts) (hf : f.fmt = k.1) :
    vCmp kind f x = finish x (joined (x.p f.pg) k.2.2.2 (fun j => (comparedAt kind x f k j).2)) (fun y => y.setP (f.vd.setWidth 3)
      (cmpBits (x.p f.pg) (x.p (f.vd.setWidth 3)) ((List.range k.2.2.2).map (fun j => (comparedAt kind x f k j).1)))) := by
  have hrs : (List.range k.2.2.2).map (fun i => fpCmp kind k.2.1 x.ftz ((elems k.2.2.1 k.2.2.2 (x.v f.va.toNat)).getD i 0)
      ((elems k.2.2.1 k.2.2.2 (x.v f.vb.toNat)).getD i 0)) = (List.range k.2.2.2).map (comparedAt kind x f k) :=
    List.map_congr_left fun i hi => by rw [getD_elems (List.mem_range.1 hi), getD_elems (List.mem_range.1 hi)]; rfl
  rw [vCmp, hf, vfFmt_floatFmts k hk]
  dsimp only
  rw [width_floatFmts k hk, eltCount_floatFmts k hk, hrs, List.map_map, List.map_map, joinFlags_map, BitVec.ofNat_toNat]
  rfl

theorem vCmp_illegal (h : 3 ≤ f.fmt.toNat) : vCmp kind f x = CoreRes.illegal x := by
  rw [vCmp, vfFmt_of_le h]

theorem vCmpS_legal (h : f.fmt.toNat < 4) :
    vCmpS kind f x = .ok (wroteP x (f.vd.setWidth 3) (cmpBits (x.p f.pg) (x.p (f.vd.setWidth 3))
      ((List.range (256 / widthOf f.fmt.toNat)).map (fun j =>
        intCmp kind (BitVec.ofNat (widthOf f.fmt.toNat) (elt (widthOf f.fmt.toNat) (x.v f.va.toNat) j)).toInt
          (BitVec.ofNat (widthOf f.fmt.toNat) (elt (widthOf f.fmt.toNat) (x.v f.vb.toNat) j)).toInt)))) := by
  have hw : 0 < widthOf f.fmt.toNat := by unfold widthOf; positivity
  refine (legalIf_of (decide_eq_true h)).trans ?_
  rw [wroteP, BitVec.ofNat_toNat]
  refine congrArg (fun l => CoreRes.ok (x.setP _ (cmpBits _ _ l)).adv) (List.map_congr_left fun i hi => ?_)
  rw [getD_elems (List.mem_range.1 hi), getD_elems (List.mem_range.1 hi), toSigned_eq_toInt hw, toSigned_eq_toInt hw]

theorem vCmpS_illegal (h : 4 ≤ f.fmt.toNat) : vCmpS kind f x = CoreRes.illegal x := legalIf_not (decide_eq_false (by omega))

end

theorem comparisonsWritePredicateBits : ComparisonsWritePredicateBits := by
  intro c f s h x p pd
  refine ⟨fun e he => ?_, fun e he => ⟨fun hf => ?_, fun hf => ?_⟩⟩
  · intro i word
    refine ⟨fun k hk hf => ?_, fun hf => exec_of_illegal h (exec_vcmpRow e he c f s) (vCmp_illegal hf)⟩
    intro w n r fl
    refine ⟨fun hpass => ⟨_, retires_of_pure h (exec_vcmpRow e he c f s) ((vCmp_of_mem hk hf).trans (finish_ok hpass)), ?_⟩, fun htrap => ?_⟩
    · exact comparedBits_cmpBits _ _ _ _
    · exact exec_of_pure_exc h (exec_vcmpRow e he c f s) ((vCmp_of_mem hk hf).trans (finish_trap htrap))
  · obtain ⟨k, hexec, hcond⟩ := exists_isVcmpsRow e he
    simp only [← hcond]
    exact ⟨_, retires_of_pure h (hexec c f s) (vCmpS_legal hf), comparedBits_cmpBits _ _ _ _⟩
  · obtain ⟨k, hexec, -⟩ := exists_isVcmpsRow e he
    exact exec_of_illegal h (hexec c f s) (vCmpS_illegal hf)

-- The predicate instructions

/-- The rows that combine two predicates. -/
theorem exec_predRow : ∀ e ∈ predRows, ∀ c f s, exec (e.2.1 c f) s = issue c (encP e.1 f) (pureIss (predOp e.2.2 true f)) s := by
  simp only [predRows, List.forall_mem_cons]
  exact ⟨fun _ _ _ => rfl, fun _ _ _ => rfl, fun _ _ _ => rfl, fun _ _ _ => rfl, by simp⟩

section
variable {f : PForm} {x : Core}

theorem pReg_eq (n : BitVec 5) : pReg n = n.setWidth 3 := BitVec.ofNat_toNat 3 n

theorem reserved_of {n : BitVec 5} (h : f.res ≠ 0 ∨ 8 ≤ n.toNat) : (decide (f.res = 0) && pLegal n) = false := by
  obtain h | h := h
  · rw [decide_eq_false h, Bool.false_and]
  · rw [pLegal, decide_eq_false (Nat.not_lt.2 h), Bool.and_false]

theorem predOp_legal {g : Word64 → Word64 → Word64} {useB : Bool} (hres : f.res = 0) (hd : f.d.toNat < 8) (ha : f.a.toNat < 8)
    (hb : useB = true → f.b.toNat < 8) :
    predOp g useB f x = .ok (wroteP x (f.d.setWidth 3) (g (x.p (f.a.setWidth 3)) (x.p (f.b.setWidth 3)))) := by
  rw [← pReg_eq, ← pReg_eq, ← pReg_eq]
  exact legalIf_of (by cases useB <;> simp_all [pLegal])

theorem predOp_illegal {g : Word64 → Word64 → Word64} {useB : Bool} (h : f.res ≠ 0 ∨ 8 ≤ f.d.toNat) : predOp g useB f x = CoreRes.illegal x :=
  legalIf_not (by rw [reserved_of h, Bool.false_and, Bool.false_and])

theorem pfrom_legal (hres : f.res = 0) (hd : f.d.toNat < 8) : pfrom f x = .ok (wroteP x (f.d.setWidth 3) (x.s f.a)) := by
  rw [← pReg_eq]
  exact legalIf_of (by simp [pLegal, hres, hd])

theorem pfrom_illegal (h : f.res ≠ 0 ∨ 8 ≤ f.d.toNat) : pfrom f x = CoreRes.illegal x :=
  legalIf_not (reserved_of h)

theorem pto_legal (hres : f.res = 0) (ha : f.a.toNat < 8) : pto f x = .ok (wroteS x f.d (x.p (f.a.setWidth 3))) := by
  rw [← pReg_eq]
  exact legalIf_of (by simp [pLegal, hres, ha])

theorem pto_illegal (h : f.res ≠ 0 ∨ 8 ≤ f.a.toNat) : pto f x = CoreRes.illegal x :=
  legalIf_not (reserved_of h)

/-- The word of PFIRST: the low `n` bits set. -/
def firstBits (n : Nat) : Word64 := if 64 ≤ n then BitVec.allOnes 64 else BitVec.ofNat 64 (2 ^ n - 1)

theorem getLsbD_firstBits {n j : Nat} (hj : j < 64) : (firstBits n).getLsbD j = decide (j < n) := by
  rw [firstBits]
  split
  · rw [BitVec.getLsbD_allOnes, decide_eq_true hj, decide_eq_true (by omega)]
  · rw [BitVec.getLsbD_ofNat, Nat.testBit_two_pow_sub_one, decide_eq_true hj, Bool.true_and]

theorem pfirst_legal (hres : f.res = 0) (hd : f.d.toNat < 8) : pfirst f x = .ok (wroteP x (f.d.setWidth 3) (firstBits (x.s f.a).toNat)) := by
  rw [← pReg_eq]
  exact legalIf_of (by simp [pLegal, hres, hd])

theorem pfirst_illegal (h : f.res ≠ 0 ∨ 8 ≤ f.d.toNat) : pfirst f x = CoreRes.illegal x :=
  legalIf_not (reserved_of h)

end

theorem predicateInstructionsWriteTheirResult : PredicateInstructionsWriteTheirResult := by
  intro c f s h x pa pb pd
  refine ⟨fun hres hd ha => ⟨fun e he hb => ?_, ?_⟩, fun hres hd => ⟨?_, _, ?_, fun j hj => getLsbD_firstBits hj⟩, fun hres ha => ?_,
    fun hf => ⟨fun e he => ?_, ?_, ?_, ?_⟩, fun hf => ?_⟩
  · exact retires_of_pure h (exec_predRow e he c f s) (predOp_legal hres hd ha fun _ => hb)
  · exact retires_of_pure h rfl (predOp_legal (g := fun a _ => ~~~a) (useB := false) hres hd ha (by simp))
  · exact retires_of_pure h rfl (pfrom_legal hres hd)
  · exact retires_of_pure h rfl (pfirst_legal hres hd)
  · exact retires_of_pure h rfl (pto_legal hres ha)
  · exact exec_of_illegal h (exec_predRow e he c f s) (predOp_illegal hf)
  · exact exec_of_illegal h rfl (predOp_illegal hf)
  · exact exec_of_illegal h rfl (pfrom_illegal hf)
  · exact exec_of_illegal h rfl (pfirst_illegal hf)
  · exact exec_of_illegal h rfl (pto_illegal hf)

/-- Settles O12: a comparison leaves its bits in pd, and each predicate instruction is one operation over the p registers. -/
theorem predicatesAreComparedAndCombined : Obligations.PredicatesAreComparedAndCombined :=
  ⟨comparisonsWritePredicateBits, predicateInstructionsWriteTheirResult⟩

end Sys2Proof.Machine
end

section
/-! The statement on dot products, reductions and conversions (05): O13 proved. -/

namespace Sys2Proof.Machine

open Sys2Proof Claims

/-- An instruction whose core has no enabled flag writes its result (R137). -/
theorem finish_of_noTraps {x : Core} (h : NoTraps x) (fl : FFlags) (done : Core → Core) : finish x fl done = .ok (done (x.orFlags fl)).adv :=
  finish_ok (by rw [h, Nat.and_zero])

theorem eltCount_mul_fmtBits : ∀ k < 12, fmtBits k * eltCount k ≤ 256 := by decide

-- VDOT

/-- The elements `j × g` to `j × g + g − 1` of a register. -/
def laneElems (w g : Nat) (v : Word256) (j : Nat) : List Nat := (List.range g).map (fun m => elt w v (j * g + m))

theorem take_drop_elems {g n j : Nat} (h : j * g + g ≤ n) (w : Nat) (v : Word256) :
    ((elems w n v).drop (j * g)).take g = laneElems w g v j := by
  refine List.ext_getElem (by simp [laneElems]; omega) fun m h1 h2 => ?_
  have hm : m < g := by simpa [laneElems] using h2
  have helt := getD_elems (show j * g + m < n by omega) v (w := w) 0
  rw [List.getD_eq_getElem _ _ (by rw [length_elems]; omega)] at helt
  simpa [laneElems] using helt

/-- A lane's result, of a float format or of an integer one (R129). -/
def dotOf (k : Nat) (mode : Rnd) (acc : Nat) (xs ys : List Nat) : Nat × FFlags :=
  match fltOf k with
  | some t => dotFloat t mode acc xs ys
  | none => dotInt k acc xs ys

/-- Lane `j` of VDOT. -/
def dotLane (f : VForm) (x : Core) (j : Nat) : Nat × FFlags :=
  dotOf f.fmt.toNat x.arithRound (elt 32 (x.v f.vd.toNat) j)
    (laneElems (fmtBits f.fmt.toNat) (dotGroup f.fmt.toNat) (x.v f.va.toNat) j)
    (laneElems (fmtBits f.fmt.toNat) (dotGroup f.fmt.toNat) (x.v f.vb.toNat) j)

/-- VDOT from its lanes' results `rs`. -/
def dotWrites (f : VForm) (x : Core) (rs : List (Nat × FFlags)) : CoreRes :=
  finish x (joinFlags (x.p f.pg) rs)
    (fun y => y.setV f.vd.toNat (ofElems 32 (mergeElems (x.p f.pg) (elems 32 8 (x.v f.vd.toNat)) (rs.map Prod.fst))))

section
variable {f : VForm} {x : Core}

theorem vDot_legal (h1 : 1 ≤ f.fmt.toNat) (h2 : f.fmt.toNat < 12) : vDot f x = dotWrites f x ((List.range 8).map (dotLane f x)) := by
  refine (legalIf_of (by simp [h1, h2])).trans (congrArg (dotWrites f x) (List.map_congr_left fun j hj => ?_))
  have hlane : j * dotGroup f.fmt.toNat + dotGroup f.fmt.toNat ≤ 8 * dotGroup f.fmt.toNat := by
    rw [← Nat.succ_mul]; exact Nat.mul_le_mul_right _ (List.mem_range.1 hj)
  rw [take_drop_elems hlane, take_drop_elems hlane, getD_elems (List.mem_range.1 hj)]
  rfl

theorem vDot_ok (hx : NoTraps x) (h1 : 1 ≤ f.fmt.toNat) (h2 : f.fmt.toNat < 12) :
    ∃ v, vDot f x = .ok (wroteV (x.orFlags (joined (x.p f.pg) 8 (fun j => (dotLane f x j).2))) f.vd v) ∧
      ∀ j < 8, elt 32 v j = if active (x.p f.pg) 8 j then (dotLane f x j).1 % 2 ^ 32 else elt 32 (x.v f.vd.toNat) j := by
  refine ⟨_, (vDot_legal h1 h2).trans ((finish_of_noTraps hx _ _).trans (by rw [joinFlags_map, List.map_map]; rfl)), fun j hj => ?_⟩
  rw [elt_ofElems_mergeElems (by simp) (by decide) hj, getD_map_range hj]
  rfl

theorem vDot_illegal (h : f.fmt.toNat = 0 ∨ 12 ≤ f.fmt.toNat) : vDot f x = CoreRes.illegal x :=
  legalIf_not (by rw [Bool.and_eq_false_iff, decide_eq_false_iff_not, decide_eq_false_iff_not]; omega)

end

-- VRED

/-- What VRED leaves when no element is active (R130). -/
def redNeutral : RedOp → Nat
  | .max => 0xFF800000
  | .min => 0x7F800000
  | _ => 0

/-- The result of VRED in lane 0 and its flags, from the elements' activity and codes (R130). -/
def redOf (op : RedOp) (t : FltFmt) (lv : Nat) (l : List (Bool × Nat)) : Nat × FFlags :=
  let to32 (a : Nat) : Nat := (fp32.enc true (t.dec a) .rne 0).1
  if l.any (fun e => e.1 && decide (t.dec e.2 = .nan)) then (0x7FC00000, nvIf (l.any (fun e => e.1 && t.isSnan e.2)))
  else if op = .sumsq then
    let q := sumsqLevel (l.map (fun e => if e.1 then some (t.dec e.2) else none))
    let r := redTree .sum (lv - 1) q.1
    (r.1.getD (redNeutral op), q.2.or r.2)
  else
    let r := redTree op lv (l.map (fun e => if e.1 then some (to32 e.2) else if op = .sum then some 0 else none))
    (r.1.getD (redNeutral op), r.2)

/-- The elements of va as VRED takes them. -/
def redElems (f : VForm) (x : Core) (w n : Nat) : List (Bool × Nat) :=
  (List.range n).map (fun j => (active (x.p f.pg) n j, elt w (x.v f.va.toNat) j))

/-- VRED from lane 0 and its flags. -/
def redWrites (f : VForm) (x : Core) (r : Nat × FFlags) : CoreRes := finish x r.2 (fun y => y.setV f.vd.toNat (BitVec.ofNat 256 r.1))

section
variable {op : RedOp} {f : VForm} {x : Core}

theorem vRed_of_mem {t : BitVec 4 × FltFmt × Nat × Nat} (ht : t ∈ floatFmts) (hf : f.fmt = t.1) :
    vRed op f x = redWrites f x (redOf op t.2.1 (Nat.log2 t.2.2.2) (redElems f x t.2.2.1 t.2.2.2)) := by
  have helems : redElems f x t.2.2.1 t.2.2.2
      = (List.range t.2.2.2).map (fun j => (active (x.p f.pg) t.2.2.2 j, (elems t.2.2.1 t.2.2.2 (x.v f.va.toNat)).getD j 0)) :=
    List.map_congr_left fun j hj => by rw [getD_elems (List.mem_range.1 hj)]
  have hsum (b : Bool) (a : Nat) : (if b then some a else some 0) = some (if b then a else 0) := (apply_ite some _ _ _).symm
  rw [vRed, hf, vfFmt_floatFmts t ht]
  dsimp only
  rw [width_floatFmts t ht, eltCount_floatFmts t ht, helems, redOf, List.any_map, List.any_map, List.map_map, List.map_map]
  refine congrArg (redWrites f x) (if_congr Iff.rfl rfl ?_)
  cases op with
  | sum => simp only [Function.comp_def, if_true, hsum]; rfl
  | max => rfl
  | min => rfl
  | sumsq => rfl

theorem vRed_illegal (h : 3 ≤ f.fmt.toNat) : vRed op f x = CoreRes.illegal x := by
  rw [vRed, vfFmt_of_le h]

end

/-- Every row of VRED is its operation, with the neutral value of R130. -/
theorem vredRow_exec : ∀ e ∈ vredRows,
    (∀ c f s, exec (e.2.1 c f) s = issue c (encV 0x3C e.1 f) (pureIss (vRed e.2.2.1 f)) s) ∧ e.2.2.2 = redNeutral e.2.2.1 := by
  simp only [vredRows, List.forall_mem_cons]
  exact ⟨⟨fun _ _ _ => rfl, rfl⟩, ⟨fun _ _ _ => rfl, rfl⟩, ⟨fun _ _ _ => rfl, rfl⟩, ⟨fun _ _ _ => rfl, rfl⟩, by simp⟩

theorem dotProductsAndReductions : DotProductsAndReductions := by
  intro c f s h x p k w g ops lane
  refine ⟨fun hx h1 h2 => ?_, fun hf => exec_of_illegal h rfl (vDot_illegal hf), fun e he hx t ht hf => ?_, fun e he hf => ?_⟩
  · obtain ⟨v, hv, helt⟩ := vDot_ok hx h1 h2
    exact ⟨v, retires_of_pure h rfl hv, helt⟩
  · intro n act a nan a32 leaves writes
    obtain ⟨hexec, hneutral⟩ := vredRow_exec e he
    have hwrites (r : Nat × FFlags) (hr : redOf e.2.2.1 t.2.1 (Nat.log2 n) (redElems f x t.2.2.1 n) = r) : writes r :=
      retires_of_pure h (hexec c f s) ((vRed_of_mem ht hf).trans (by rw [hr]; exact finish_of_noTraps hx _ _))
    have hnan : (redElems f x t.2.2.1 n).any (fun e => e.1 && decide (t.2.1.dec e.2 = .nan)) = nan := List.any_map
    rw [hneutral]
    refine ⟨fun hn => hwrites _ ?_, fun hn hop => hwrites _ ?_, fun hn hop => hwrites _ ?_⟩
    · rw [redOf, hnan, if_pos hn, redElems, List.any_map]
      rfl
    · rw [redOf, hnan, if_neg (by rw [hn]; exact Bool.false_ne_true), if_neg hop, redElems, List.map_map]
      rfl
    · rw [redOf, hnan, if_neg (by rw [hn]; exact Bool.false_ne_true), if_pos hop, redElems, List.map_map]
      rfl
  · exact exec_of_illegal h ((vredRow_exec e he).1 c f s) (vRed_illegal hf)

-- VCVT

/-- A field of a number whose low bits were put. -/
theorem bits_putBits_low {lo l len : Nat} (h : lo + l ≤ len) (x v : Nat) : bits (putBits x 0 len v) lo l = bits v lo l := by
  refine Nat.eq_of_testBit_eq fun j => ?_
  rw [testBit_bits, testBit_bits, testBit_putBits]
  by_cases hj : j < l
  · rw [if_neg (Nat.not_lt_zero _), if_pos (by omega), Nat.sub_zero]
  · rw [decide_eq_false hj, Bool.false_and, Bool.false_and]

/-- The formats and the part that R126 permits. -/
def CvtLegal (f : VCForm) : Prop :=
  f.sfmt.toNat < 12 ∧ f.dfmt.toNat < 12 ∧
    max (eltCount f.sfmt.toNat) (eltCount f.dfmt.toNat) ≤ 8 * min (eltCount f.sfmt.toNat) (eltCount f.dfmt.toNat) ∧
    bits f.x.toNat 0 3 < max (eltCount f.sfmt.toNat) (eltCount f.dfmt.toNat) / min (eltCount f.sfmt.toNat) (eltCount f.dfmt.toNat)

/-- The first source element of a narrowing VCVT, the first destination element of a widening one. -/
def partAt (f : VCForm) (few many : Nat) : Nat := if few < many then bits f.x.toNat 0 3 * few else 0

/-- The part lies within the larger count. -/
theorem partAt_add_le {f : VCForm} {few many : Nat} (h : bits f.x.toNat 0 3 < max few many / min few many) :
    partAt f few many + min few many ≤ many := by
  rw [partAt]
  split
  · next hlt =>
    rw [max_eq_right hlt.le, min_eq_left hlt.le] at h
    rw [min_eq_left hlt.le, ← Nat.succ_mul]
    exact le_trans (Nat.mul_le_mul_right _ h) (Nat.div_mul_le_self _ _)
  · omega

section
variable (f : VCForm) (x : Core)

/-- The number of elements that VCVT converts. -/
def cvtCount : Nat := min (eltCount f.sfmt.toNat) (eltCount f.dfmt.toNat)

/-- The draws of VCVT and the generator after it. -/
def cvtDraws : List Nat × Word64 := coreDraws x (cvtMode x f.x) (cvtCount f)

/-- The source element that VCVT converts in place `i`. -/
def cvtSource (i : Nat) : Nat :=
  (((elems (fmtBits f.sfmt.toNat) (eltCount f.sfmt.toNat) (x.v f.va.toNat)).drop
    (partAt f (eltCount f.dfmt.toNat) (eltCount f.sfmt.toNat))).take (cvtCount f)).getD i 0

/-- The code that VCVT makes of the source element in place `i`. -/
def cvtCode (i : Nat) : Nat :=
  if f.sfmt.toNat = f.dfmt.toNat then cvtSource f x i
  else (encodeElt f.dfmt.toNat (decodeElt f.sfmt.toNat (cvtSource f x i)) (cvtMode x f.x) ((cvtDraws f x).1.getD i 0)).1

/-- The elements of vd after VCVT. -/
def cvtElems : List Nat :=
  (List.range (eltCount f.dfmt.toNat)).map (fun i =>
    if partAt f (eltCount f.sfmt.toNat) (eltCount f.dfmt.toNat) ≤ i ∧ i < partAt f (eltCount f.sfmt.toNat) (eltCount f.dfmt.toNat) + cvtCount f
        ∧ active (x.p f.pg) (eltCount f.dfmt.toNat) i then
      cvtCode f x (i - partAt f (eltCount f.sfmt.toNat) (eltCount f.dfmt.toNat))
    else elt (fmtBits f.dfmt.toNat) (x.v f.vd.toNat) i)

/-- The register of the elements `new`: the bits above them as before. -/
def cvtReg (new : List Nat) : Word256 :=
  BitVec.ofNat 256 (putBits (x.v f.vd.toNat).toNat 0 (eltCount f.dfmt.toNat * fmtBits f.dfmt.toNat) (pack (fmtBits f.dfmt.toNat) new))

/-- VCVT's check of its fields. -/
def cvtLegal : Bool :=
  decide (f.sfmt.toNat < 12) && decide (f.dfmt.toNat < 12) &&
    decide (max (eltCount f.sfmt.toNat) (eltCount f.dfmt.toNat) ≤ 8 * min (eltCount f.sfmt.toNat) (eltCount f.dfmt.toNat)) &&
    decide (bits f.x.toNat 0 3 < max (eltCount f.sfmt.toNat) (eltCount f.dfmt.toNat) / min (eltCount f.sfmt.toNat) (eltCount f.dfmt.toNat))

/-- VCVT from its flags and elements. -/
def cvtWrites (fl : FFlags) (new : List Nat) : CoreRes :=
  legalIf (cvtLegal f) x (finish x fl (fun y => { y with srstate := (cvtDraws f x).2 }.setV f.vd.toNat (cvtReg f x new)))

variable {f x}

theorem cvtSource_eq (h : CvtLegal f) {i : Nat} (hi : i < cvtCount f) :
    cvtSource f x i = elt (fmtBits f.sfmt.toNat) (x.v f.va.toNat) (partAt f (eltCount f.dfmt.toNat) (eltCount f.sfmt.toNat) + i) := by
  obtain ⟨hs, hd, hratio, hpart⟩ := h
  have hfit := partAt_add_le (f := f) (few := eltCount f.dfmt.toNat) (many := eltCount f.sfmt.toNat) (by rwa [max_comm, min_comm])
  rw [min_comm] at hfit
  have hin : partAt f (eltCount f.dfmt.toNat) (eltCount f.sfmt.toNat) + i < eltCount f.sfmt.toNat :=
    lt_of_lt_of_le (Nat.add_lt_add_left hi _) hfit
  rw [cvtSource, List.getD_eq_getElem?_getD, List.getElem?_take_of_lt hi, List.getElem?_drop, ← List.getD_eq_getElem?_getD, getD_elems hin]

theorem elt_cvtReg (h : CvtLegal f) {j : Nat} (hj : j < eltCount f.dfmt.toNat) :
    elt (fmtBits f.dfmt.toNat) (cvtReg f x (cvtElems f x)) j
      = if partAt f (eltCount f.sfmt.toNat) (eltCount f.dfmt.toNat) ≤ j ∧ j < partAt f (eltCount f.sfmt.toNat) (eltCount f.dfmt.toNat) + cvtCount f
            ∧ active (x.p f.pg) (eltCount f.dfmt.toNat) j then
          cvtCode f x (j - partAt f (eltCount f.sfmt.toNat) (eltCount f.dfmt.toNat)) % 2 ^ fmtBits f.dfmt.toNat
        else elt (fmtBits f.dfmt.toNat) (x.v f.vd.toNat) j := by
  obtain ⟨hs, hd, hratio, hpart⟩ := h
  have hfit := mul_add_le_of_lt hj (Nat.le_refl (fmtBits f.dfmt.toNat * eltCount f.dfmt.toNat))
  rw [cvtReg, elt_ofNat (le_trans hfit (eltCount_mul_fmtBits _ hd)), bits_putBits_low (by rwa [Nat.mul_comm (eltCount _)]),
    bits_pack (by simpa [cvtElems] using hj), cvtElems, getD_map_range hj, apply_ite (· % _), Nat.mod_eq_of_lt (elt_lt _ _ j)]

theorem cvtWrites_eq : ∃ fl, vCvt f x = cvtWrites f x fl (cvtElems f x) := by
  refine ⟨_, congrArg (cvtWrites f x _) (List.map_congr_left fun i hi => ?_)⟩
  rw [getD_elems (List.mem_range.1 hi)]
  by_cases hin : partAt f (eltCount f.sfmt.toNat) (eltCount f.dfmt.toNat) ≤ i ∧
      i < partAt f (eltCount f.sfmt.toNat) (eltCount f.dfmt.toNat) + cvtCount f
  · obtain ⟨hlo, hhi⟩ := hin
    have hcode : i - partAt f (eltCount f.sfmt.toNat) (eltCount f.dfmt.toNat) < cvtCount f := by omega
    refine if_congr ?_ ((congrArg Prod.fst (getD_map_range hcode _ _)).trans (apply_ite Prod.fst _ _ _)) rfl
    exact and_congr_right fun _ => and_congr_right fun _ =>
      Iff.of_eq (congrArg (fun k => active (x.p f.pg) (eltCount f.dfmt.toNat) k = true) (Nat.add_sub_of_le hlo))
  · rw [if_neg fun h => hin ⟨h.1, h.2.1⟩, if_neg fun h => hin ⟨h.1, h.2.1⟩]

theorem vCvt_illegal (h : ¬ CvtLegal f) : vCvt f x = CoreRes.illegal x := by
  obtain ⟨fl, heq⟩ := cvtWrites_eq (f := f) (x := x)
  exact heq.trans (legalIf_not (by simpa [cvtLegal, CvtLegal, and_assoc] using h))

theorem vCvt_ok (hx : NoTraps x) (h : CvtLegal f) : ∃ fl, vCvt f x = .ok (wroteQ x fl (cvtDraws f x).2 f.vd (cvtReg f x (cvtElems f x))) := by
  obtain ⟨fl, heq⟩ := cvtWrites_eq (f := f) (x := x)
  exact ⟨fl, (heq.trans (legalIf_of (by simpa [cvtLegal, CvtLegal, and_assoc] using h))).trans (finish_of_noTraps hx _ _)⟩

end

-- VQB and VQBX

theorem exec_vqbRow : ∀ e ∈ vqbRows, ∀ c f s, exec (e.2.1 c f) s = issue c (encVC e.1 f) (quantIss e.2.2 f) s := by
  simp only [vqbRows, List.forall_mem_cons]
  exact ⟨fun _ _ _ => rfl, fun _ _ _ => rfl, by simp⟩

theorem vqbLegal_iff (esc : Bool) (f : VCForm) :
    vqbLegal esc f = true ↔ f.sfmt.toNat < 3 ∧ 3 ≤ f.dfmt.toNat ∧ f.dfmt.toNat < 12 ∧ f.va.toNat % wideRegs f.sfmt.toNat = 0 ∧
      (esc = true → f.dfmt.toNat ≠ 3 ∧ f.dfmt.toNat ≠ 4 ∧ f.dfmt.toNat ≠ 8) := by
  cases esc <;> simp [vqbLegal, and_assoc]

section
variable (esc : Bool) (f : VCForm) (x : Core)

/-- The registers that VQB writes, the flags aside. -/
def vqbWrites (y : Core) : Core :=
  ({ y with srstate := (vqbBlock esc f x).2.2 }.setV f.vd.toNat (ofElems (fmtBits f.dfmt.toNat) (vqbBlock esc f x).1.codes)).setS f.x
    (BitVec.ofNat 64 (vqbBlock esc f x).1.scaleWord)

variable {esc f x}

theorem vQuant_legal (h : vqbLegal esc f = true) : vQuant esc f x = finish x (vqbBlock esc f x).2.1 (vqbWrites esc f x) := legalIf_of h

theorem vQuant_illegal (h : vqbLegal esc f = false) : vQuant esc f x = CoreRes.illegal x := legalIf_not h

variable {core : Nat} {s : State}

theorem quantIss_illegal (h : vqbLegal esc f = false) : quantIss esc f core x s = .exc s x 0x01 0 0 := by
  rw [quantIss, vQuant_illegal h]
  exact if_neg fun h => h.1 rfl

/-- PRECISION_HALT comes before NUMERIC (R134). -/
theorem quantIss_halted (h : vqbLegal esc f = true) (hhalt : s.hub.halted (s.hub.corePart x) x.tag = true) :
    quantIss esc f core x s = .exc s x 0x0B 0 0 := by
  rw [quantIss, vQuant_legal h]
  by_cases hpass : (vqbBlock esc f x).2.1.toNat &&& x.fexc = 0
  · rw [finish_ok hpass]
    exact if_pos hhalt
  · rw [finish_trap hpass]
    exact if_pos ⟨by decide, hhalt⟩

theorem quantIss_untagged (h : vqbLegal esc f = true) (hhalt : s.hub.halted (s.hub.corePart x) x.tag = false) (hx : NoTraps x)
    (htag : x.tag = none) : quantIss esc f core x s = .done s (vqbWrites esc f x (x.orFlags (vqbBlock esc f x).2.1)).adv := by
  rw [quantIss, vQuant_legal h, finish_of_noTraps hx]
  dsimp only
  rw [if_neg (by rw [hhalt]; exact Bool.false_ne_true), htag]

theorem quantIss_tagged {t : Nat} (h : vqbLegal esc f = true) (hhalt : s.hub.halted (s.hub.corePart x) x.tag = false) (hx : NoTraps x)
    (htag : x.tag = some t) (hpart : s.hub.corePart x < 24) :
    quantIss esc f core x s = .done (s.onHub (·.dewCore core (s.hub.corePart x) t (vqbSource f x) (dequantise f.dfmt.toNat (vqbBlock esc f x).1)))
      (vqbWrites esc f x (x.orFlags (vqbBlock esc f x).2.1)).adv := by
  rw [quantIss, vQuant_legal h, finish_of_noTraps hx]
  dsimp only
  rw [if_neg (by rw [hhalt]; exact Bool.false_ne_true), htag]
  exact if_neg (Nat.not_le.2 hpart)

end

-- Register groups

theorem v_setVgroup (n : Nat) {r q : Nat} (h : q < r ∨ r + n ≤ q) (x : Core) (a : Nat) : (setVgroup x r n a).v q = x.v q := by
  induction n generalizing r x a with
  | zero => rfl
  | succ n ih => rw [setVgroup, ih (by omega), Core.v_setV, if_neg (by omega)]

theorem setVgroup_keeps (n r : Nat) (x : Core) (a : Nat) :
    (setVgroup x r n a).pc = x.pc ∧ (setVgroup x r n a).sr = x.sr ∧ (setVgroup x r n a).pr = x.pr := by
  induction n generalizing r x a with
  | zero => exact ⟨rfl, rfl, rfl⟩
  | succ n ih => exact ih _ _ _

theorem vgroup_setVgroup (n r : Nat) (x : Core) (a : Nat) : vgroup (setVgroup x r n a) r n = a % 2 ^ (256 * n) := by
  induction n generalizing r x a with
  | zero => rw [Nat.mul_zero, Nat.pow_zero, Nat.mod_one]; rfl
  | succ n ih =>
    rw [vgroup, setVgroup, ih, v_setVgroup n (by omega), Core.v_setV, if_pos rfl, BitVec.toNat_ofNat, Nat.mul_succ, Nat.add_comm (256 * n),
      Nat.pow_add, Nat.mod_mul]

theorem vgroup_adv (n r : Nat) (x : Core) : vgroup x.adv r n = vgroup x r n := by
  induction n generalizing r with
  | zero => rfl
  | succ n ih => rw [vgroup, ih]; rfl

-- VDQB

@[simp] theorem length_dequantise (k : Nat) (b : QBlock) : (dequantise k b).length = b.codes.length := by
  unfold dequantise
  split <;> simp

theorem getD_map_zipIdx {α β : Type} {l : List α} {i : Nat} (h : i < l.length) (g : α × Nat → β) (d : α) (d' : β) :
    (l.zipIdx.map g).getD i d' = g (l.getD i d, i) := by
  rw [List.getD_eq_getElem _ _ (by simpa using h), List.getD_eq_getElem _ _ h]
  simp

section
variable (f : VCForm) (x : Core)

/-- The block that VDQB reads. -/
def dqBlock : QBlock :=
  QBlock.of (elems (fmtBits f.sfmt.toNat) 32 (x.v f.va.toNat)) (bits (x.s f.x).toNat 0 8) (bits (x.s f.x).toNat 8 28)

/-- The results of VDQB. -/
def dqResults : List (Nat × FFlags) :=
  (dequantise f.sfmt.toNat (dqBlock f x)).zipIdx.map (fun e => encodeElt f.dfmt.toNat e.1 x.convRound ((coreDraws x x.convRound 32).1.getD e.2 0))

/-- The elements of the group of vd after VDQB. -/
def dqElems : List Nat :=
  mergeElems (x.p f.pg) (unpack (fmtBits f.dfmt.toNat) 32 (vgroup x f.vd.toNat (wideRegs f.dfmt.toNat))) ((dqResults f x).map Prod.fst)

/-- The core after VDQB set the flags `fl`. -/
def dqWritten (fl : FFlags) : Core :=
  (setVgroup { x.orFlags fl with srstate := (coreDraws x x.convRound 32).2 } f.vd.toNat (wideRegs f.dfmt.toNat)
    (pack (fmtBits f.dfmt.toNat) (dqElems f x))).adv

variable {f x}

@[simp] theorem length_dqResults : (dqResults f x).length = 32 := by simp [dqResults, dqBlock, QBlock.of]

theorem getD_dqResults {j : Nat} (hj : j < 32) : ((dqResults f x).map Prod.fst).getD j 0
    = (encodeElt f.dfmt.toNat ((dequantise f.sfmt.toNat (dqBlock f x)).getD j .nan) x.convRound ((coreDraws x x.convRound 32).1.getD j 0)).1 := by
  rw [getD_map_of_lt (by simpa using hj) _ (0, FFlags.none), dqResults, getD_map_zipIdx (by simpa [dqBlock, QBlock.of] using hj) _ Val.nan]

theorem vDequant_ok (hx : NoTraps x) (h1 : 3 ≤ f.sfmt.toNat) (h2 : f.sfmt.toNat < 12) (h3 : f.dfmt.toNat < 3)
    (h4 : f.vd.toNat % wideRegs f.dfmt.toNat = 0) : ∃ fl, vDequant f x = .ok (dqWritten f x fl) :=
  ⟨_, (legalIf_of (by simp [h1, h2, h3, h4])).trans (finish_of_noTraps hx _ _)⟩

theorem vDequant_illegal (h : ¬ (3 ≤ f.sfmt.toNat ∧ f.sfmt.toNat < 12 ∧ f.dfmt.toNat < 3 ∧ f.vd.toNat % wideRegs f.dfmt.toNat = 0)) :
    vDequant f x = CoreRes.illegal x :=
  legalIf_not (by simpa [and_assoc] using h)

theorem mul_wideRegs {k : Nat} (h : k < 3) : 256 * wideRegs k = fmtBits k * 32 := by
  interval_cases k <;> decide

theorem elt_dqWritten (h : f.dfmt.toNat < 3) (fl : FFlags) {j : Nat} (hj : j < 32) :
    bits (vgroup (dqWritten f x fl) f.vd.toNat (wideRegs f.dfmt.toNat)) (fmtBits f.dfmt.toNat * j) (fmtBits f.dfmt.toNat)
      = if active (x.p f.pg) 32 j then
          (encodeElt f.dfmt.toNat ((dequantise f.sfmt.toNat (dqBlock f x)).getD j .nan) x.convRound
            ((coreDraws x x.convRound 32).1.getD j 0)).1 % 2 ^ fmtBits f.dfmt.toNat
        else bits (vgroup x f.vd.toNat (wideRegs f.dfmt.toNat)) (fmtBits f.dfmt.toNat * j) (fmtBits f.dfmt.toNat) := by
  have hgroup : vgroup (dqWritten f x fl) f.vd.toNat (wideRegs f.dfmt.toNat)
      = pack (fmtBits f.dfmt.toNat) (dqElems f x) % 2 ^ (fmtBits f.dfmt.toNat * 32) := by
    rw [dqWritten, vgroup_adv, vgroup_setVgroup, mul_wideRegs h]
  rw [hgroup, bits_mod (mul_add_le_of_lt hj le_rfl), bits_pack (by simpa [dqElems] using hj), dqElems, getD_mergeElems (by simpa using hj),
    List.length_map, length_dqResults, getD_dqResults hj, getD_unpack hj, apply_ite (· % _), Nat.mod_eq_of_lt (bits_lt _ _ _)]

end

theorem conversionAndQuantisation : ConversionAndQuantisation := by
  intro c f s h x p sf df ns nd part halted legal
  have hpart : part = bits f.x.toNat 0 3 := (bits_low _ 3).symm
  clear_value part
  subst hpart
  refine ⟨fun hx hlegal => ?_, fun hlegal => exec_of_illegal h rfl (vCvt_illegal hlegal), fun e he => ?_, ?_⟩
  · intro m from' to' mode d
    obtain ⟨fl, hv⟩ := vCvt_ok hx hlegal
    refine ⟨fl, _, retires_of_pure h rfl hv, fun j hj => (elt_cvtReg hlegal hj).trans (ite_congr rfl (fun hin => ?_) fun _ => rfl)⟩
    obtain ⟨hlo, hhi, -⟩ := hin
    have hcount : j - partAt f ns nd < cvtCount f := Nat.sub_lt_left_of_lt_add hlo hhi
    rw [cvtCode, cvtSource_eq hlegal hcount, apply_ite (· % _)]
    exact ite_congr rfl (fun heq => Nat.mod_eq_of_lt (lt_of_lt_of_eq (elt_lt _ _ _) (congrArg (fun k => 2 ^ fmtBits k) heq))) fun _ => rfl
  · intro b w y legal'
    have hexec := exec_vqbRow e he c f s
    refine ⟨fun hlegal => ?_, fun hlegal hhalt => ?_, fun hlegal hhalt hx htag => ?_, fun t hlegal hhalt hx htag hp => ?_⟩
    · exact exec_of_exc h hexec (quantIss_illegal (Bool.eq_false_iff.2 fun h => hlegal ((vqbLegal_iff _ _).1 h)))
    · exact exec_of_exc h hexec (quantIss_halted ((vqbLegal_iff _ _).2 hlegal) hhalt)
    · exact exec_of_done h hexec (quantIss_untagged ((vqbLegal_iff _ _).2 hlegal) hhalt hx htag)
    · exact exec_of_done h hexec (quantIss_tagged ((vqbLegal_iff _ _).2 hlegal) hhalt hx htag hp)
  · intro n legal'
    refine ⟨fun hlegal => exec_of_illegal h rfl (vDequant_illegal hlegal), fun hlegal hx => ?_⟩
    intro w b d
    obtain ⟨h1, h2, h3, h4⟩ := hlegal
    have hb : b = dqBlock f x := by rw [dqBlock, bits_low]; rfl
    obtain ⟨fl, hv⟩ := vDequant_ok hx h1 h2 h3 h4
    obtain ⟨hpc, hsr, hpr⟩ := setVgroup_keeps (wideRegs df) f.vd.toNat { x.orFlags fl with srstate := d.2 } (pack (fmtBits df) (dqElems f x))
    refine ⟨_, retires_of_pure h rfl hv, congrArg (· + 4) hpc, hsr, hpr, fun r hr => v_setVgroup _ hr _ _, fun j hj => ?_⟩
    rw [hb]
    exact elt_dqWritten h3 fl hj

/-- Settles O13: each instruction is its elements' results, put in their places of the registers it writes. -/
theorem numericReductionsAndConversions : Obligations.NumericReductionsAndConversions :=
  ⟨dotProductsAndReductions, conversionAndQuantisation⟩

end Sys2Proof.Machine
end

section
/-! The statement on system instructions and fences (05): O8 refuted. -/

namespace Sys2Proof.Machine

open Sys2Proof Claims

/-- A launch in tiles of two cores, one of which runs in slot 1 of floe 0. -/
def twoCoreLaunch : Launch := ⟨⟨0, 0, 0, 0⟩, 3, 6 * 2 ^ (8 * 0x1C), 1, 0, [(0, 1, 0, 2)], [], none, false, 0, 0⟩

/-- Cores 2 and 3 run that tile, and barrier 0 of their slot lists both as arrived though core 3 is ready. -/
def staleArrival : State :=
  let running : Core := { Core.rst with run := .ready, launch := 1, slot := 1 }
  State.reset.onHub fun h =>
    { h with sea := { h.sea with cores := [(2, running), (3, running)], launches := [(0, twoCoreLaunch)], barriers := [(17, ⟨0, [2, 3]⟩)] } }

theorem ready_staleArrival : Ready ⟨0, 3⟩ staleArrival := by
  unfold Ready; decide

theorem storesDone_staleArrival : StoresDone ⟨0, 3⟩ staleArrival := by
  unfold StoresDone; decide

theorem launchOf_staleArrival : staleArrival.hub.launchOf (coreOf ⟨0, 3⟩ staleArrival) = some twoCoreLaunch := by decide +kernel

/-- The hub after a core of launch `l` executes ENDT (R135). -/
def Hub.endt (h : Hub) (core : Nat) (x : Core) (l : Launch) : Hub :=
  (h.setCore core { x with run := .ended }).coreEnded (x.launch - 1) (core / 128) x.slot { l with flags := l.flags ||| bits x.fflags.toNat 0 8 }

theorem endtIss_of_launchOf {f : I12Form} {c : CoreId} {x : Core} {s : State} {l : Launch} (himm : f.imm = 0) (hst : StoresDone c s)
    (hl : s.hub.launchOf x = some l) : endtIss f (coreNum c) x s
      = .done { s with hub := s.hub.endt (coreNum c) x l }
          { x.adv with run := ((s.hub.endt (coreNum c) x l).core (coreNum c)).run, launch := ((s.hub.endt (coreNum c) x l).core (coreNum c)).launch } := by
  rw [endtIss, if_neg (not_not.2 himm), afterStores_of_storesDone hst, hl]
  rfl

/-- The end of core 3 completes barrier 0, which readies every core that it lists. -/
theorem endt_staleArrival : ((staleArrival.hub.endt 3 (coreOf ⟨0, 3⟩ staleArrival) twoCoreLaunch).core 3).run = .ready := by decide +kernel

/-- Refutes O8: the statement quantifies over every ready core, and in a state whose barrier 0 lists the core that executes ENDT, its end
releases that barrier, which makes the core ready again instead of ended or idle. -/
theorem not_systemInstructionsAndFences : ¬ Obligations.SystemInstructionsAndFences := by
  unfold Obligations.SystemInstructionsAndFences
  intro h
  obtain ⟨-, -, -, -, hendt, -⟩ := (h ⟨0, 3⟩ staleArrival ready_staleArrival).1 ⟨0, 0, 0⟩
  obtain ⟨t, hexec, hrun, -⟩ := hendt twoCoreLaunch rfl storesDone_staleArrival launchOf_staleArrival
  have hretires := exec_of_done (i := .endt ⟨0, 3⟩ ⟨0, 0, 0⟩) (w := encSys 1 ⟨0, 0, 0⟩) ready_staleArrival rfl
    (endtIss_of_launchOf (f := ⟨0, 0, 0⟩) rfl storesDone_staleArrival launchOf_staleArrival)
  rw [← Host.Outcome.next.inj (hretires.symm.trans hexec), coreOf_retired] at hrun
  obtain hended | hidle := hrun
  · exact absurd (endt_staleArrival.symm.trans hended) (by decide)
  · exact absurd (endt_staleArrival.symm.trans hidle) (by decide)

end Sys2Proof.Machine
end

section
/-! The statement on engine requests (12): O40 refuted. -/

namespace Sys2Proof.Machine

open Sys2Proof Claims

/-- Site 2 is active with credits, its engine 0 has no partition, and the register file's entry for the 32-bit field WRITES of that engine
is 2^32. -/
def wideWritesState : State :=
  State.reset.onHub fun h =>
    { h.setSite 2 { Site.rst with reqH := 1, rspH := 1, rspD := 2 } with
      regs := [((Reg.siteStatusState 2).key, 2), ((Reg.siteModuleState 2 0).key, 0), ((Reg.siteEngStatusWrites 16).key, 2 ^ 32)] }

/-- The site takes a READ of engine 0, which is no protocol error. -/
theorem takesRequest_wideWritesState :
    (wideWritesState.hub.siteUp 2 = true ∧ wideWritesState.hub.moduleUp 2 0 = true) ∧ hdrOp 1 = 1 ∧
      ¬ wideWritesState.hub.reqError 16 0 0 1 [] = true := by
  decide +kernel

/-- The READ is refused: its engine is not assigned (R289). -/
theorem refused_wideWritesState :
    ((wideWritesState.hub.reqOpen 16 0 0 0 1 []).2.engCheck (wideWritesState.hub.reqOpen 16 0 0 0 1 []).1).1 ≠ 0 := by
  decide +kernel

theorem credit_wideWritesState :
    SiteCalm (wideWritesState.hub.site 2) ∧ 0 < (wideWritesState.hub.site 2).rspH ∧ 2 ≤ (wideWritesState.hub.site 2).rspD := by
  unfold SiteCalm; decide +kernel

/-- A READ is not counted: WRITES stays as it was, above its width. -/
theorem get_writes_eepRequest_wideWritesState :
    (eepRequest 1 2 0 1 [] wideWritesState).hub.get (Reg.siteEngStatusWrites 16) = 2 ^ 32 := by
  decide +kernel

theorem get_writes_wideWritesState : wideWritesState.hub.get (Reg.siteEngStatusWrites 16) = 2 ^ 32 := by decide +kernel

/-- Refutes O40: the statement quantifies over every state, and in one whose register file holds 2^32 for the 32-bit field WRITES of an
engine a refused READ leaves the field alone, where the statement wants it reduced modulo 2^32. -/
theorem not_engineRequestsAreCheckedAndAnswered : ¬ Obligations.EngineRequestsAreCheckedAndAnswered := by
  unfold Obligations.EngineRequestsAreCheckedAndAnswered
  intro h
  obtain ⟨-, -, hrefused, -⟩ := h 2 0 1 [] wideWritesState ⟨0, 0, 0, 0, 0, 0, 0, 0, 0⟩ 0
  obtain ⟨hup, hop, herror⟩ := takesRequest_wideWritesState
  obtain ⟨t, hexec, -, hanswered⟩ := hrefused.1 rfl hup hop herror refused_wideWritesState credit_wideWritesState
  obtain ⟨-, -, -, -, -, -, hwrites⟩ := hanswered
  have ht : eepRequest 1 2 0 1 [] wideWritesState = t := Host.Outcome.next.inj hexec
  have hcount := get_writes_eepRequest_wideWritesState
  rw [ht] at hcount
  exact absurd (hcount.symm.trans (hwrites.trans (congrArg (fun n => (n + 0) % 2 ^ 32) get_writes_wideWritesState))) (by decide)

end Sys2Proof.Machine
end

section
/-! The statement on vector loads and stores (05): O6 proved. -/

namespace Sys2Proof.Machine

open Sys2Proof Claims

-- Words of a number that bytes spell

theorem rd_add (m : Memory) (a p n : Nat) : m.rd a (p + n) = m.rd a p + 2 ^ (8 * p) * m.rd (a + p) n := by
  induction p generalizing a with
  | zero => simp [Memory.rd]
  | succ p ih =>
    rw [Nat.add_right_comm, Memory.rd, ih, Memory.rd, show a + 1 + p = a + (p + 1) by omega, Nat.mul_succ, Nat.pow_add]
    ring

/-- A field of whole bytes is the number that those bytes spell. -/
theorem bits_rd {p k n : Nat} (h : p + k ≤ n) (m : Memory) (a : Nat) : bits (m.rd a n) (8 * p) (8 * k) = m.rd (a + p) k := by
  obtain ⟨q, rfl⟩ := Nat.exists_eq_add_of_le h
  have hlow := m.rd_lt a p
  have hfield := m.rd_lt (a + p) k
  rw [Nat.add_assoc, rd_add, rd_add, bits, Nat.add_mul_div_left _ _ (Nat.two_pow_pos _), Nat.div_eq_of_lt hlow, Nat.zero_add,
    Nat.add_mul_mod_self_left, Nat.mod_eq_of_lt hfield]

/-- Byte `k` of word `i` of a number. -/
theorem byteOf_word {k : Nat} (hk : k < 4) (v i : Nat) : BitVec.ofNat 8 (bits v (32 * i) 32 / 256 ^ k) = BitVec.ofNat 8 (v / 256 ^ (4 * i + k)) := by
  rw [bits, show (2 : Nat) ^ 32 = 2 ^ (8 * 4) by norm_num, byteOf_mod hk, Nat.div_div_eq_div_mul, Nat.pow_add,
    show (2 : Nat) ^ (32 * i) = 256 ^ (4 * i) by rw [Nat.pow_mul, Nat.pow_mul]]

-- Addresses

theorem privBase_mod_four (core : Nat) : privBase core % 4 = 0 := by unfold privBase; omega

theorem floeHpa_mod_four (fl : Nat) : floeHpa fl % 4 = 0 := by unfold floeHpa; omega

theorem eventHpa_mod_four (fl k : Nat) : eventHpa fl k % 4 = 0 := by unfold eventHpa; omega

/-- An access at a multiple of four lies at a multiple of four: every part of the local window starts at one (R84, R85). -/
theorem window_here_mod_four {h : Hub} {core p va n a : Nat} (hw : h.window core p va n = .here a) (hva : va % 4 = 0) : a % 4 = 0 := by
  rw [Hub.window] at hw
  dsimp only at hw
  have hoff : va % 2 ^ 40 % 4 = 0 := by omega
  generalize va % 2 ^ 40 = w at hw hoff
  split_ifs at hw <;> rw [← Where.here.inj hw, Nat.add_mod]
  · rw [privBase_mod_four, hoff]
  · rw [floeHpa_mod_four]; omega
  · rw [eventHpa_mod_four]; omega
  · rw [floeHpa_mod_four]; omega
  · rw [eventHpa_mod_four]; omega

-- The words that a predicate names

/-- The active words of a vector access, in order. -/
def activeWords (p : Word64) : List Nat := (List.range 8).filter (fun i => p.getLsbD i)

theorem activeAddrs_eq (p : Word64) (ea : Nat → Nat) : activeAddrs p ea = (activeWords p).map (fun i => (i, ea i)) := rfl

theorem mem_activeWords {p : Word64} {i : Nat} : i ∈ activeWords p ↔ i < 8 ∧ p.getLsbD i = true := by simp [activeWords]

theorem pairwise_activeWords (p : Word64) : (activeWords p).Pairwise (· < ·) := List.pairwise_lt_range.filter _

/-- The predicate of a whole access names every word. -/
theorem getLsbD_of_full {p : Word64} (h : bits p.toNat 0 8 = 255) {i : Nat} (hi : i < 8) : p.getLsbD i = true := by
  have hbit := testBit_bits p.toNat 0 8 i
  rw [h, decide_eq_true hi, Bool.true_and, Nat.add_zero, show 255 = 2 ^ 8 - 1 by norm_num, Nat.testBit_two_pow_sub_one, decide_eq_true hi] at hbit
  exact hbit.symm

-- Loads

/-- A number after the words `w i` were put at the places that `l` lists. -/
def putWords (w : Nat → Nat) (l : List Nat) (v : Nat) : Nat := l.foldl (fun v i => putBits v (32 * i) 32 (w i)) v

theorem bits_putWords (w : Nat → Nat) (l : List Nat) (v j : Nat) :
    bits (putWords w l v) (32 * j) 32 = if j ∈ l then w j % 2 ^ 32 else bits v (32 * j) 32 := by
  induction l generalizing v with
  | nil => rfl
  | cons i l ih =>
    rw [putWords, List.foldl_cons, ← putWords, ih, bits_putBits_mul]
    by_cases hl : j ∈ l
    · simp [hl]
    · by_cases hi : j = i <;> simp [hl, hi]

section
variable {core : Nat} {x : Core} {s : State} {ea at' : Nat → Nat} {l : List Nat}

theorem loadElts_here {done : State → Nat → Iss} (hplace : ∀ i ∈ l, s.hub.window core (s.hub.corePart x) (ea i) 4 = .here (at' i))
    (hbad : ∀ i ∈ l, s.mem.bad (at' i) 4 = false) (v : Nat) :
    loadElts core x v done s (l.map (fun i => (i, ea i))) = done s (putWords (fun i => s.mem.rd (at' i) 4) l v) := by
  induction l generalizing v with
  | nil => rfl
  | cons i l ih =>
    rw [List.forall_mem_cons] at hplace hbad
    rw [List.map_cons, loadElts, coreLoad_here hplace.1, hbad.1, Got.bind, putWords, List.foldl_cons, ← putWords]
    exact ih hplace.2 hbad.2 _

-- Stores

/-- Memory after the words of `v` that `l` lists were stored in order. -/
def storeWords (v : Nat) (at' : Nat → Nat) (l : List Nat) (m : Memory) : Memory :=
  l.foldl (fun m i => m.storeBits (at' i) 4 (bits v (32 * i) 32) 0) m

theorem storeElts_here (hplace : ∀ i ∈ l, s.hub.window core (s.hub.corePart x) (ea i) 4 = .here (at' i)) (v : Nat) (m : Memory) :
    storeElts core x v { s with mem := m } (l.map (fun i => (i, ea i))) = .done { s with mem := storeWords v at' l m } x.adv := by
  induction l generalizing m with
  | nil => rfl
  | cons i l ih =>
    rw [List.forall_mem_cons] at hplace
    rw [List.map_cons, storeElts, coreStore_here (s := { s with mem := m }) hplace.1]
    exact ih hplace.2 _

end

section
variable {at' : Nat → Nat} {l : List Nat} (v : Nat) (m : Memory)

theorem byte_storeWords_out {b : Nat} (h : ∀ i ∈ l, b < at' i ∨ at' i + 4 ≤ b) : (storeWords v at' l m).byte b = m.byte b := by
  induction l generalizing m with
  | nil => rfl
  | cons i l ih =>
    rw [List.forall_mem_cons] at h
    rw [storeWords, List.foldl_cons, ← storeWords, ih _ h.2]
    exact (stored_storeBits m _ _ _ _).2 b h.1

/-- The last word stored at an address stays there. -/
theorem byte_storeWords_in (hl : l.Pairwise (· < ·)) {i k : Nat} (hi : i ∈ l) (hk : k < 4)
    (hlast : ∀ j ∈ l, i < j → at' j + 4 ≤ at' i ∨ at' i + 4 ≤ at' j) :
    (storeWords v at' l m).byte (at' i + k) = BitVec.ofNat 8 (v / 256 ^ (4 * i + k)) := by
  induction l generalizing m with
  | nil => simp at hi
  | cons j l ih =>
    rw [List.pairwise_cons] at hl
    rw [List.forall_mem_cons] at hlast
    rw [storeWords, List.foldl_cons, ← storeWords]
    obtain rfl | hmem := List.mem_cons.1 hi
    · have hrest : ∀ j ∈ l, at' i + k < at' j ∨ at' j + 4 ≤ at' i + k := fun j hj => by have hapart := hlast.2 j hj (hl.1 j hj); omega
      rw [byte_storeWords_out _ _ hrest, (stored_storeBits m _ _ _ _).1 k hk, byteOf_word hk]
    · exact ih _ hl.2 hmem hlast.2

theorem leBytesAt_storeWords (hl : l.Pairwise (· < ·)) {i : Nat} (hi : i ∈ l) (hlast : ∀ j ∈ l, i < j → at' j + 4 ≤ at' i ∨ at' i + 4 ≤ at' j) :
    leBytesAt (storeWords v at' l m) (at' i) 4 = bits v (32 * i) 32 := by
  have hbytes : (storeWords v at' l m).rd (at' i) 4 = (m.wr (at' i) 4 (bits v (32 * i) 32)).rd (at' i) 4 :=
    rd_congr _ _ fun k hk => by rw [byte_storeWords_in v m hl hi hk hlast, byte_wr_in _ _ _ _ _ hk, byteOf_word hk]
  rw [← rd_eq_leBytesAt, hbytes, rd_wr_same]
  exact Nat.mod_eq_of_lt (bits_lt v (32 * i) 32)

end

-- VLD and VST

section
variable {core : Nat} {f : VMForm} {x : Core} {s : State} {a : Nat}

/-- The register after a VLD of the words at `a`. -/
def loadedReg (x : Core) (p : Word64) (vd : BitVec 5) (m : Memory) (at' : Nat → Nat) : Word256 :=
  BitVec.ofNat 256 (putWords (fun i => m.rd (at' i) 4) (activeWords p) (x.v vd.toNat).toNat)

theorem wordOf_loadedReg (x : Core) (p : Word64) (vd : BitVec 5) (m : Memory) (at' : Nat → Nat) {i : Nat} (hi : i < 8) :
    wordOf (loadedReg x p vd m at') i = if p.getLsbD i then leBytesAt m (at' i) 4 else wordOf (x.v vd.toNat) i := by
  have hword : wordOf (loadedReg x p vd m at') i = bits (putWords (fun i => m.rd (at' i) 4) (activeWords p) (x.v vd.toNat).toNat) (32 * i) 32 :=
    elt_ofNat (by omega) _
  rw [hword, bits_putWords, if_congr (mem_activeWords.trans (and_iff_right hi)) rfl rfl, Nat.mod_eq_of_lt (m.rd_lt (at' i) 4), rd_eq_leBytesAt]
  rfl

theorem vldIss_misaligned (h : (vectorAddr x f.rs1 f.imm).toNat % 32 ≠ 0) :
    vldIss f core x s = .exc s x 0x02 (vectorAddr x f.rs1 f.imm).toNat 0 := if_pos h

theorem vstIss_misaligned (h : (vectorAddr x f.rs1 f.imm).toNat % 32 ≠ 0) :
    vstIss f core x s = .exc s x 0x02 (vectorAddr x f.rs1 f.imm).toNat 0 := if_pos h

variable (h : (vectorAddr x f.rs1 f.imm).toNat % 32 = 0)
  (hwhole : s.hub.window core (s.hub.corePart x) (vectorAddr x f.rs1 f.imm).toNat 32 = .here a)
  (hwords : ∀ i < 8, s.hub.window core (s.hub.corePart x) ((vectorAddr x f.rs1 f.imm).toNat + 4 * i) 4 = .here (a + 4 * i))
include h hwhole hwords

/-- VLD reads its 32 bytes at once under a full predicate, else word by word. -/
theorem vldIss_here (hbad : s.mem.bad a 32 = false) (hbads : ∀ i < 8, s.mem.bad (a + 4 * i) 4 = false) :
    ∃ v, vldIss f core x s = .done s (wroteV x f.vd v) ∧ ∀ i < 8, wordOf v i
      = if (x.p f.pg).getLsbD i then leBytesAt s.mem (a + 4 * i) 4 else wordOf (x.v f.vd.toNat) i := by
  by_cases hfull : bits (x.p f.pg).toNat 0 8 = 255
  · refine ⟨BitVec.ofNat 256 (s.mem.rd a 32), ?_, fun i hi => ?_⟩
    · rw [vldIss, if_neg (not_not.2 h), if_pos hfull, coreLoad_here hwhole, hbad]
      rfl
    · have hword : wordOf (BitVec.ofNat 256 (s.mem.rd a 32)) i = bits (s.mem.rd a 32) (8 * (4 * i)) (8 * 4) := by
        rw [← Nat.mul_assoc]; exact elt_ofNat (by omega) _
      rw [hword, bits_rd (by omega), getLsbD_of_full hfull hi, if_pos rfl, rd_eq_leBytesAt]
  · refine ⟨loadedReg x (x.p f.pg) f.vd s.mem (fun i => a + 4 * i), ?_, fun i hi => wordOf_loadedReg _ _ _ _ _ hi⟩
    rw [vldIss, if_neg (not_not.2 h), if_neg hfull, activeAddrs_eq]
    exact loadElts_here (fun i hi => hwords i (mem_activeWords.1 hi).1) (fun i hi => hbads i (mem_activeWords.1 hi).1) _

/-- VST stores its 32 bytes at once under a full predicate, else word by word. -/
theorem vstIss_here : ∃ m', vstIss f core x s = .done { s with mem := m' } x.adv ∧ ∀ b, m'.byte b
      = if a ≤ b ∧ b < a + 32 ∧ (x.p f.pg).getLsbD ((b - a) / 4) then BitVec.ofNat 8 ((x.v f.vd.toNat).toNat / 256 ^ (b - a))
        else s.mem.byte b := by
  by_cases hfull : bits (x.p f.pg).toNat 0 8 = 255
  · refine ⟨s.mem.storeBits a 32 (x.v f.vd.toNat).toNat 0, ?_, fun b => ?_⟩
    · rw [vstIss, if_neg (not_not.2 h), if_pos hfull, coreStore_here hwhole]
      rfl
    · obtain ⟨hin, hout⟩ := stored_storeBits s.mem a 32 (x.v f.vd.toNat).toNat 0
      by_cases hb : a ≤ b ∧ b < a + 32
      · rw [if_pos ⟨hb.1, hb.2, getLsbD_of_full hfull (by omega)⟩, ← hin (b - a) (by omega), Nat.add_sub_of_le hb.1]
      · rw [if_neg fun hc => hb ⟨hc.1, hc.2.1⟩]
        exact hout b (by omega)
  · refine ⟨storeWords (x.v f.vd.toNat).toNat (fun i => a + 4 * i) (activeWords (x.p f.pg)) s.mem, ?_, fun b => ?_⟩
    · rw [vstIss, if_neg (not_not.2 h), if_neg hfull, activeAddrs_eq]
      exact storeElts_here (fun i hi => hwords i (mem_activeWords.1 hi).1) _ s.mem
    · split
      · next hb =>
        obtain ⟨hlo, hhi, hactive⟩ := hb
        have hplace : b = a + 4 * ((b - a) / 4) + (b - a) % 4 := by omega
        have hbyte := byte_storeWords_in (at' := fun i => a + 4 * i) (x.v f.vd.toNat).toNat s.mem (pairwise_activeWords (x.p f.pg))
          (mem_activeWords.2 ⟨by omega, hactive⟩) (Nat.mod_lt (b - a) (by decide)) (fun j _ hj => .inr (by omega))
        rwa [← hplace, Nat.div_add_mod] at hbyte
      · next hb =>
        refine byte_storeWords_out _ _ fun i hi => ?_
        obtain ⟨hi8, hactive⟩ := mem_activeWords.1 hi
        by_contra hin
        have hword : (b - a) / 4 = i := by omega
        exact hb ⟨by omega, by omega, hword ▸ hactive⟩

end

-- VLDX and VSTX

section
variable {core : Nat} {f : VForm} {x : Core} {s : State} {at' : Nat → Nat}

/-- A gather or scatter whose active addresses are aligned makes its accesses. -/
theorem idxIss_aligned {go : List (Nat × Nat) → Iss} (hf : f.fmt = 0) (h : ∀ i < 8, (x.p f.pg).getLsbD i = true → idxAddr x f i % 4 = 0) :
    idxIss f x s go = go ((activeWords (x.p f.pg)).map (fun i => (i, idxAddr x f i))) := by
  have hfind : (activeAddrs (x.p f.pg) (idxAddr x f)).find? (fun a => decide (a.2 % 4 ≠ 0)) = none :=
    List.find?_eq_none.2 fun e he => by
      obtain ⟨i, hi, rfl⟩ := List.mem_map.1 he
      simp [h i (mem_activeWords.1 hi).1 (mem_activeWords.1 hi).2]
  rw [idxIss, if_neg (not_not.2 hf), hfind, activeAddrs_eq]

variable (hf : f.fmt = 0) (h : ∀ i < 8, (x.p f.pg).getLsbD i = true → idxAddr x f i % 4 = 0)
  (hplace : ∀ i < 8, (x.p f.pg).getLsbD i = true → s.hub.window core (s.hub.corePart x) (idxAddr x f i) 4 = .here (at' i))
include hf h hplace

theorem vldxIss_here (hbad : ∀ i < 8, (x.p f.pg).getLsbD i = true → s.mem.bad (at' i) 4 = false) :
    vldxIss f core x s = .done s (wroteV x f.vd (loadedReg x (x.p f.pg) f.vd s.mem at')) := by
  rw [vldxIss, idxIss_aligned hf h]
  exact loadElts_here (fun i hi => hplace i (mem_activeWords.1 hi).1 (mem_activeWords.1 hi).2)
    (fun i hi => hbad i (mem_activeWords.1 hi).1 (mem_activeWords.1 hi).2) _

theorem vstxIss_here : vstxIss f core x s
    = .done { s with mem := storeWords (x.v f.vd.toNat).toNat at' (activeWords (x.p f.pg)) s.mem } x.adv := by
  rw [vstxIss, idxIss_aligned hf h]
  exact storeElts_here (fun i hi => hplace i (mem_activeWords.1 hi).1 (mem_activeWords.1 hi).2) _ s.mem

end

/-- Settles O6: each access is its active words' accesses, of which a whole one makes one. -/
theorem vectorLoadsAndStoresFollowThePredicate : Obligations.VectorLoadsAndStoresFollowThePredicate := by
  intro c s h x
  refine ⟨fun f => ?_, fun f hf at' => ?_⟩
  · intro va
    refine ⟨fun hm => ⟨exec_of_exc h rfl (vldIss_misaligned hm), exec_of_exc h rfl (vstIss_misaligned hm)⟩,
      fun a ha hwhole hwords hbad hbads => ⟨?_, ?_⟩⟩
    · obtain ⟨v, hv, hword⟩ := vldIss_here ha hwhole hwords hbad hbads
      exact ⟨v, exec_of_done h rfl hv, hword⟩
    · obtain ⟨m', hm', hbyte⟩ := vstIss_here ha hwhole hwords
      exact ⟨m', exec_of_done h rfl hm', hbyte⟩
  · intro ea hea hat
    have hplace := fun i hi hp => (hat i hi hp).1
    have hbad := fun i hi hp => (hat i hi hp).2
    have hmod (i : Nat) (hi : i ∈ activeWords (x.p f.pg)) : at' i % 4 = 0 := by
      obtain ⟨hi8, hp⟩ := mem_activeWords.1 hi
      exact window_here_mod_four (hplace i hi8 hp) (hea i hi8 hp)
    refine ⟨⟨_, exec_of_done h rfl (vldxIss_here hf hea hplace hbad), fun i hi => wordOf_loadedReg _ _ _ _ _ hi⟩,
      _, exec_of_done h rfl (vstxIss_here hf hea hplace), fun i hi hp hlast => ?_, fun b hb => ?_⟩
    · have hmem : i ∈ activeWords (x.p f.pg) := mem_activeWords.2 ⟨hi, hp⟩
      refine leBytesAt_storeWords _ _ (pairwise_activeWords _) hmem fun j hj hij => ?_
      have hne := hlast j (mem_activeWords.1 hj).1 hij (mem_activeWords.1 hj).2
      have hi4 := hmod i hmem
      have hj4 := hmod j hj
      omega
    · exact byte_storeWords_out _ _ fun i hi => hb i (mem_activeWords.1 hi).1 (mem_activeWords.1 hi).2

end Sys2Proof.Machine
end

section
/-! SUPPORT. What interrupts, events, records and translated accesses of memory leave of the hub: Dewpoint, the sites, and the register
fields that they do not write (08, 09, 11, 22). -/

namespace Sys2Proof.Machine

open Sys2Proof

/-- Dewpoint and the sites are as before, and so is every register field whose key `P` holds of. -/
structure Hub.SameOn (P : Nat → Prop) (h k : Hub) : Prop where
  dew : k.dew = h.dew
  sites : k.sites = h.sites
  get : ∀ g : Fld, P g.key → k.get g = h.get g

section
variable {P : Nat → Prop}

theorem Hub.SameOn.rfl {h : Hub} : h.SameOn P h := ⟨.refl _, .refl _, fun _ _ => .refl _⟩

theorem Hub.SameOn.trans {h k l : Hub} (a : h.SameOn P k) (b : k.SameOn P l) : h.SameOn P l :=
  ⟨b.dew.trans a.dew, b.sites.trans a.sites, fun g hg => (b.get g hg).trans (a.get g hg)⟩

theorem Hub.sameOn_of_eq {h k : Hub} (hdew : k.dew = h.dew) (hsites : k.sites = h.sites) (hregs : k.regs = h.regs) : h.SameOn P k :=
  ⟨hdew, hsites, fun g _ => Hub.get_of_regs_eq g hregs⟩

theorem Hub.set_sameOn (h : Hub) {f : Fld} (hf : ¬ P f.key) (v : Nat) : h.SameOn P (h.set f v) :=
  ⟨rfl, rfl, fun _ hg => Hub.get_set_ne h v fun e => hf (e ▸ hg)⟩

-- Interrupts, emergencies and events

theorem Hub.msix_sameOn (h : Hub) (fn e : Nat) : h.SameOn P (h.msix fn e) := by
  unfold Hub.msix
  split_ifs <;> exact Hub.sameOn_of_eq rfl rfl rfl

theorem Hub.emcy_sameOn (h : Hub) (code mor : Nat) : h.SameOn P (h.emcy code mor) := by
  unfold Hub.emcy
  split_ifs <;> exact Hub.sameOn_of_eq rfl rfl rfl

theorem Hub.raiseVf_sameOn (h : Hub) (p e : Nat) : h.SameOn P (h.raiseVf p e) :=
  overList_rel (fun _ => .rfl) .trans (fun v k => k.msix_sameOn v e) _ h

theorem Hub.event_sameOn (h : Hub) {f : Fld} (hf : ¬ P f.key) : h.SameOn P (h.event f) := by
  unfold Hub.event
  extract_lets k
  have hk : h.SameOn P k := h.set_sameOn hf 1
  clear_value k
  split_ifs
  exacts [hk.trans (k.msix_sameOn _ _), hk]

theorem Hub.dewEvent_sameOn (h : Hub) (p : Nat) {f : Fld} (hf : ¬ P f.key) : h.SameOn P (h.dewEvent p f) :=
  (h.event_sameOn hf).trans (Hub.raiseVf_sameOn _ _ _)

-- Moraine records

/-- The register fields that a record may write: its number, the log's loss, the events of its class, the AER status of the PF. -/
def recordFlds : List Fld :=
  [Reg.morNextSeqSeq, Reg.morLostCount, Reg.morEventLost, Reg.morEventCorrected, Reg.morEventDeferred, Reg.morEventPartFatal, Pci.aerCor 0,
    Pci.aerUnc 0]

theorem Hub.aerCor_sameOn (h : Hub) {fn : Nat} (hf : ¬ P (Pci.aerCor fn).key) (bit : Nat) : h.SameOn P (h.aerCor fn bit) := by
  unfold Hub.aerCor
  extract_lets k
  have hk : h.SameOn P k := h.set_sameOn hf _
  split_ifs
  exacts [hk, hk.trans (Hub.sameOn_of_eq rfl rfl rfl)]

theorem Hub.aerUnc_sameOn (h : Hub) {fn : Nat} (hf : ¬ P (Pci.aerUnc fn).key) (bit : Nat) : h.SameOn P (h.aerUnc fn bit) := by
  unfold Hub.aerUnc
  extract_lets k
  have hk : h.SameOn P k := h.set_sameOn hf _
  split_ifs
  exacts [hk, hk.trans (Hub.sameOn_of_eq rfl rfl rfl)]

section
variable (hP : ∀ f ∈ recordFlds, ¬ P f.key)
include hP

theorem Hub.announce_sameOn (h : Hub) (x : RecIn) : h.SameOn P (h.announce x) := by
  simp only [recordFlds, List.forall_mem_cons] at hP
  obtain ⟨-, -, -, hcorrected, hdeferred, hfatal, hcor, hunc, -⟩ := hP
  unfold Hub.announce
  extract_lets k l m
  have hk : h.SameOn P k := by
    unfold k
    split_ifs
    exacts [h.event_sameOn hcorrected, h.event_sameOn hdeferred, h.event_sameOn hfatal, .rfl]
  have hl : k.SameOn P l := by
    unfold l
    split_ifs
    exacts [k.raiseVf_sameOn _ _, .rfl]
  have hm : l.SameOn P m := by
    unfold m
    split_ifs
    exacts [l.emcy_sameOn _ _, .rfl]
  refine (hk.trans hl).trans (hm.trans ?_)
  split_ifs
  exacts [m.aerCor_sameOn hcor _, m.aerUnc_sameOn hunc _, .rfl]

theorem Hub.morPut_sameOn (h : Hub) (x : RecIn) (t k : Nat) : h.SameOn P (h.morPut x t k) :=
  (h.set_sameOn (hP Reg.morNextSeqSeq (List.mem_cons_self ..)) _).trans (Hub.sameOn_of_eq rfl rfl rfl)

theorem Hub.morLost_sameOn (h : Hub) : h.SameOn P ((h.count Reg.morLostCount 1).event Reg.morEventLost) := by
  simp only [recordFlds, List.forall_mem_cons] at hP
  obtain ⟨-, hcount, hevent, -⟩ := hP
  exact (h.set_sameOn hcount _).trans (Hub.event_sameOn _ hevent)

/-- A record writes none but its own fields. -/
theorem Hub.record_sameOn (h : Hub) (x : RecIn) : h.SameOn P (h.record x) := by
  unfold Hub.record
  extract_lets t k
  have hk : h.SameOn P k := Hub.sameOn_of_eq rfl rfl rfl
  have hput (j : Nat) : k.SameOn P ((k.morPut x t j).announce x) := (k.morPut_sameOn hP x t j).trans (Hub.announce_sameOn hP _ x)
  have hlost : k.SameOn P (((k.count Reg.morLostCount 1).event Reg.morEventLost).announce x) :=
    (k.morLost_sameOn hP).trans (Hub.announce_sameOn hP _ x)
  refine hk.trans ?_
  split
  · split_ifs
    · exact Hub.sameOn_of_eq rfl rfl rfl
    · split
      exacts [hput _, hlost]
  · split
    exacts [hput _, hlost]

end
end

theorem Hub.record_get_ne (h : Hub) (x : RecIn) {g : Fld} (hg : ∀ f ∈ recordFlds, f.key ≠ g.key) : (h.record x).get g = h.get g :=
  (h.record_sameOn (P := (· = g.key)) hg x).get g rfl

theorem Hub.dewEvent_get (h : Hub) (p : Nat) (f g : Fld) : (h.dewEvent p f).get g = (h.event f).get g := (Hub.raiseVf_sameRegs _ _ _).get g

-- Accesses of memory write counts, events and records, which all start at bit 64 of their registers or below

/-- The key of a field that starts above bit 64 of its register. -/
def AboveBit64 (k : Nat) : Prop := 64 < k % 2048

/-- A field that starts at bit 64 or below is none of those above. -/
theorem not_aboveBit64 {f : Fld} (hf : f.lo ≤ 64) : ¬ AboveBit64 f.key := by
  rw [AboveBit64, f.key_mod (by omega)]
  omega

theorem Hub.set_sameAbove (h : Hub) {f : Fld} (hf : f.lo ≤ 64) (v : Nat) : h.SameOn AboveBit64 (h.set f v) := h.set_sameOn (not_aboveBit64 hf) v

theorem Hub.event_sameAbove (h : Hub) {f : Fld} (hf : f.lo ≤ 64) : h.SameOn AboveBit64 (h.event f) := h.event_sameOn (not_aboveBit64 hf)

theorem Hub.record_sameAbove (h : Hub) (x : RecIn) : h.SameOn AboveBit64 (h.record x) :=
  h.record_sameOn (fun _ hf => not_aboveBit64 ((by decide : ∀ f ∈ recordFlds, f.lo ≤ 64) _ hf)) x

/-- Nothing but fields at bit 64 of their registers or below, and neither Dewpoint, a site nor what is pending, has changed. -/
structure State.SameAbove (s t : State) : Prop where
  hub : s.hub.SameOn AboveBit64 t.hub
  pending : t.pending = s.pending

theorem State.SameAbove.rfl {s : State} : s.SameAbove s := ⟨.rfl, .refl _⟩

theorem State.SameAbove.trans {s t u : State} (a : s.SameAbove t) (b : t.SameAbove u) : s.SameAbove u :=
  ⟨a.hub.trans b.hub, b.pending.trans a.pending⟩

theorem State.sameAbove_of_hub {s t : State} (hhub : t.hub = s.hub) (hpending : t.pending = s.pending) : s.SameAbove t :=
  ⟨hhub ▸ .rfl, hpending⟩

theorem State.onHub_sameAbove (s : State) {f : Hub → Hub} (hf : s.hub.SameOn AboveBit64 (f s.hub)) : s.SameAbove (s.onHub f) := ⟨hf, rfl⟩

-- Firn (09)

theorem State.putLine_sameAbove (s : State) (line : Nat) (l : FirnLine) : s.SameAbove (s.putLine line l) := State.sameAbove_of_hub rfl rfl

theorem State.firnCount_sameAbove (s : State) (line : Nat) (hit : Bool) : s.SameAbove (s.firnCount line hit) := by
  unfold State.firnCount
  refine s.onHub_sameAbove (Hub.set_sameAbove _ ?_ _)
  split_ifs <;> exact Nat.zero_le _

theorem State.pickWay_sameAbove {s t : State} {sl set w : Nat} (e : s.pickWay sl set = some (w, t)) : s.SameAbove t := by
  unfold State.pickWay at e
  split at e
  · cases e
  · split at e <;> cases e <;> exact State.sameAbove_of_hub rfl rfl

theorem State.evictNow_sameAbove (s : State) (sl set w : Nat) : s.SameAbove (s.evictNow sl set w) := by
  unfold State.evictNow
  split
  · exact .rfl
  · exact ⟨s.hub.set_sameAbove (Nat.zero_le _) _, rfl⟩

theorem State.claimWay_sameAbove {s t : State} {line sl w : Nat} (e : s.claimWay line = some (sl, w, t)) : s.SameAbove t := by
  unfold State.claimWay at e
  split at e
  · dsimp only at e
    split at e
    · cases e
    · next hpick =>
      cases e
      exact (State.pickWay_sameAbove hpick).trans (State.evictNow_sameAbove _ _ _ _)
  · cases e

theorem State.lineRead_sameAbove (s : State) (line mask : Nat) (alloc : Bool) : s.SameAbove (s.lineRead line mask alloc).2.2 := by
  unfold State.lineRead
  split
  · dsimp only
    split_ifs
    · exact s.firnCount_sameAbove line true
    · exact (s.firnCount_sameAbove line false).trans (State.putLine_sameAbove _ _ _)
  · split
    · exact s.firnCount_sameAbove line false
    · next hclaim =>
      split_ifs at hclaim
      exact (s.firnCount_sameAbove line false).trans ((State.claimWay_sameAbove hclaim).trans (State.putLine_sameAbove _ _ _))

theorem State.lineWrite_sameAbove (s : State) (line bmask data poison : Nat) (alloc : Bool) :
    s.SameAbove (s.lineWrite line bmask data poison alloc) := by
  unfold State.lineWrite
  split
  · exact (s.firnCount_sameAbove line _).trans (State.putLine_sameAbove _ _ _)
  · split
    · exact (s.firnCount_sameAbove line false).trans (State.sameAbove_of_hub rfl rfl)
    · next hclaim =>
      split_ifs at hclaim
      refine (State.claimWay_sameAbove hclaim).trans (State.SameAbove.trans ?_ (State.putLine_sameAbove _ _ _))
      split_ifs
      exacts [State.firnCount_sameAbove _ _ _, .rfl]

theorem State.applyReq_sameAbove (s : State) (r : SliceReq) : s.SameAbove (s.applyReq r) := by
  have hsend (t : State) (m : Sent) : t.SameAbove (t.onHub (·.send m)) := t.onHub_sameAbove (Hub.sameOn_of_eq rfl rfl rfl)
  unfold State.applyReq
  split
  · exact (s.lineWrite_sameAbove _ _ _ _ _).trans (hsend _ _)
  · exact (s.lineRead_sameAbove _ _ _).trans (hsend _ _)

theorem State.applyAll_sameAbove (s : State) (l : List SliceReq) : s.SameAbove (s.applyAll l) := by
  induction l generalizing s with
  | nil => exact .rfl
  | cons r l ih => exact (s.applyReq_sameAbove r).trans (ih _)

theorem State.settle_sameAbove (s : State) (line : Nat) : s.SameAbove (s.settle line) := by
  unfold State.settle
  extract_lets l m n
  exact State.SameAbove.trans (t := { s with mem := n }) (State.sameAbove_of_hub rfl rfl) (State.applyAll_sameAbove _ l)

theorem State.stackRead_sameAbove (s : State) (a n : Nat) (alloc : Bool) : s.SameAbove (s.stackRead a n alloc).s :=
  (s.settle_sameAbove _).trans (State.lineRead_sameAbove _ _ _ _)

theorem State.stackWrite_sameAbove (s : State) (a n v bad : Nat) (alloc : Bool) : s.SameAbove (s.stackWrite a n v bad alloc) :=
  (s.settle_sameAbove _).trans (State.lineWrite_sameAbove _ _ _ _ _ _)

-- Accesses at an HPA (R186, R212, R464)

theorem State.holeRec_sameAbove (s : State) (a p : Nat) : s.SameAbove (s.onHub (·.holeRec a p)) := by
  refine s.onHub_sameAbove ?_
  unfold Hub.holeRec
  split_ifs <;> exact Hub.record_sameAbove _ _

theorem State.apertureRec_sameAbove (s : State) (code sl a p : Nat) : s.SameAbove (s.onHub (·.apertureRec code sl a p)) :=
  s.onHub_sameAbove ((Hub.record_sameAbove _ _).trans (Hub.event_sameAbove _ (by decide)))

theorem State.domainRec_sameAbove (s : State) (a p : Nat) : s.SameAbove (s.onHub (·.domainRec a p)) :=
  s.onHub_sameAbove ((Hub.record_sameAbove _ _).trans (Hub.event_sameAbove _ (by decide)))

theorem State.readPiece_sameAbove (s : State) (o : Org) (a n : Nat) (alloc : Bool) : s.SameAbove (s.readPiece o a n alloc).s := by
  unfold State.readPiece
  split
  case h_1 =>
    split
    case h_1 =>
      split
      · exact s.stackRead_sameAbove a n alloc
      · split
        · split_ifs
          exacts [.rfl, s.stackRead_sameAbove a n alloc]
        · exact s.stackRead_sameAbove a n alloc
        · exact s.domainRec_sameAbove a _
        · exact s.domainRec_sameAbove a _
    all_goals exact s.holeRec_sameAbove a _
  case h_2 =>
    split_ifs
    exacts [s.apertureRec_sameAbove _ _ a _, .rfl, s.apertureRec_sameAbove _ _ a _]
  case h_3 => exact .rfl
  case h_4 => exact .rfl
  case h_5 => exact s.holeRec_sameAbove a _
  case h_6 => exact .rfl
  case h_7 => exact s.holeRec_sameAbove a _

theorem State.writePiece_sameAbove (s : State) (o : Org) (a n v bad : Nat) (alloc : Bool) :
    s.SameAbove (s.writePiece o a n v bad alloc).s := by
  have hmem (m : Memory) : s.SameAbove { s with mem := m } := State.sameAbove_of_hub rfl rfl
  unfold State.writePiece
  split
  case h_1 =>
    split
    case h_1 =>
      split_ifs
      exacts [.rfl, s.stackWrite_sameAbove a n v bad alloc]
    all_goals exact s.holeRec_sameAbove a _
  case h_2 =>
    split_ifs
    exacts [s.apertureRec_sameAbove _ _ a _, hmem _, s.apertureRec_sameAbove _ _ a _]
  case h_3 => exact hmem _
  case h_4 => exact hmem _
  case h_5 => exact s.holeRec_sameAbove a _
  case h_6 => exact .rfl
  case h_7 => exact s.holeRec_sameAbove a _

theorem State.hubRead_sameAbove (s : State) (o : Org) (a n : Nat) (alloc : Bool) : s.SameAbove (s.hubRead o a n alloc).s := by
  unfold State.hubRead
  generalize n / 128 + 2 = f
  induction f generalizing s a n with
  | zero => exact .rfl
  | succ f ih =>
    rw [State.readLoop]
    split_ifs
    · exact .rfl
    · exact (s.readPiece_sameAbove o a _ alloc).trans (ih _ _ _)

theorem State.hubWrite_sameAbove (s : State) (o : Org) (a n v bad : Nat) (alloc : Bool) : s.SameAbove (s.hubWrite o a n v bad alloc).s := by
  unfold State.hubWrite
  generalize n / 128 + 2 = f
  induction f generalizing s a n v bad with
  | zero => exact .rfl
  | succ f ih =>
    rw [State.writeLoop]
    split_ifs
    · exact .rfl
    · exact (s.writePiece_sameAbove o a _ _ _ alloc).trans (ih _ _ _ _ _)

theorem State.readPieces_sameAbove (s : State) (o : Org) (alloc : Bool) (l : List (Nat × Nat)) : s.SameAbove (s.readPieces o alloc l).s := by
  induction l generalizing s with
  | nil => exact .rfl
  | cons x l ih => exact (s.hubRead_sameAbove o x.1 x.2 alloc).trans (ih _)

theorem State.writePieces_sameAbove (s : State) (o : Org) (alloc : Bool) (v bad : Nat) (l : List (Nat × Nat)) :
    s.SameAbove (s.writePieces o alloc v bad l).s := by
  induction l generalizing s v bad with
  | nil => exact .rfl
  | cons x l ih => exact (s.hubWrite_sameAbove o x.1 x.2 _ _ alloc).trans (ih _ _ _)

-- Translation (11)

theorem State.walkRead_sameAbove (s : State) (p va level need t : Nat) : s.SameAbove (s.walkRead p va level need t).2 := by
  unfold State.walkRead
  dsimp only
  split_ifs
  exacts [s.readPiece_sameAbove _ _ _ _, s.readPiece_sameAbove _ _ _ _, .rfl]

theorem State.walkGo_sameAbove (n : Nat) (s : State) (x : XAcc) (level t : Nat) : s.SameAbove (State.walkGo n s x level t).2 := by
  induction n generalizing s level t with
  | zero => exact .rfl
  | succ n ih =>
    have hread := s.walkRead_sameAbove (s.hub.get (Reg.xltAsPartition x.asid)) x.va level x.acc.rights t
    rw [State.walkGo]
    split
    · next hr =>
      rw [hr] at hread
      exact hread.trans ((State.onHub_sameAbove _ (Hub.sameOn_of_eq rfl rfl rfl)).trans (ih _ _ _))
    · exact hread

theorem State.walk_sameAbove (s : State) (x : XAcc) : s.SameAbove (s.walk x).2 := by
  unfold State.walk
  split_ifs
  · exact .rfl
  · exact .rfl
  · exact (s.onHub_sameAbove (Hub.set_sameAbove _ (Nat.zero_le _) _)).trans (State.walkGo_sameAbove _ _ _ _ _)

theorem Hub.tlbPut_sameOn {P : Nat → Prop} (h : Hub) (t : TlbEntry) (cap : Nat) : h.SameOn P (h.tlbPut t cap) := Hub.sameOn_of_eq rfl rfl rfl

theorem Hub.joinWalk_sameOn {P : Nat → Prop} (h : Hub) (w : Walk) (x : XAcc) : h.SameOn P (h.joinWalk w x) := Hub.sameOn_of_eq rfl rfl rfl

theorem Hub.parkUnder_sameOn {P : Nat → Prop} (h : Hub) (f : Fault11) (x : XAcc) : h.SameOn P (h.parkUnder f x) :=
  Hub.sameOn_of_eq rfl rfl rfl

theorem Hub.holdAt_sameAbove (h : Hub) (x : XAcc) (cause level entry ea : Nat) : h.SameOn AboveBit64 (h.holdAt x cause level entry ea) := by
  unfold Hub.holdAt
  extract_lets _ k _ l
  have hk : h.SameOn AboveBit64 k := Hub.sameOn_of_eq rfl rfl rfl
  have hl : k.SameOn AboveBit64 l := Hub.sameOn_of_eq rfl rfl rfl
  split
  · exact hk
  · exact (hk.trans hl).trans ((l.record_sameAbove _).trans (Hub.event_sameAbove _ (by decide)))

theorem Hub.openFault_sameAbove (h : Hub) (x : XAcc) (cause level entry ea : Nat) : h.SameOn AboveBit64 (h.openFault x cause level entry ea) := by
  unfold Hub.openFault
  extract_lets k
  refine Hub.SameOn.trans (k := k) (Hub.sameOn_of_eq rfl rfl rfl) ?_
  split
  · exact k.holdAt_sameAbove _ _ _ _ _
  split
  · exact k.parkUnder_sameOn _ _
  split
  · exact k.holdAt_sameAbove _ _ _ _ _
  extract_lets _ _ l m
  have hl : k.SameOn AboveBit64 l := Hub.sameOn_of_eq rfl rfl rfl
  have hm : l.SameOn AboveBit64 m := (l.set_sameAbove (Nat.zero_le _) _).trans (Hub.parkUnder_sameOn _ _ _)
  split
  · exact (hl.trans hm).trans ((m.record_sameAbove _).trans (Hub.event_sameAbove _ (by decide)))
  · exact hl.trans hm

theorem State.translate_sameAbove (s : State) (x : XAcc) : s.SameAbove (s.translate x).2 := by
  have hput (t : State) (e : TlbEntry) (n : Nat) : t.SameAbove (t.onHub (·.tlbPut e n)) := t.onHub_sameAbove (Hub.tlbPut_sameOn _ _ _)
  have hputs (t : State) (d e : TlbEntry) (m n : Nat) : t.SameAbove (t.onHub (fun h => (h.tlbPut d m).tlbPut e n)) :=
    t.onHub_sameAbove ((Hub.tlbPut_sameOn _ _ _).trans (Hub.tlbPut_sameOn _ _ _))
  have hpark (t : State) (f : Fault11) : t.SameAbove (t.onHub (·.parkUnder f x)) := t.onHub_sameAbove (Hub.parkUnder_sameOn _ _ _)
  have hjoin (t : State) (w : Walk) : t.SameAbove (t.onHub (·.joinWalk w x)) := t.onHub_sameAbove (Hub.joinWalk_sameOn _ _ _)
  have hhold (t : State) (a b c d : Nat) : t.SameAbove (t.onHub (·.holdAt x a b c d)) := t.onHub_sameAbove (Hub.holdAt_sameAbove _ _ _ _ _ _)
  have hopen (t : State) (a b c d : Nat) : t.SameAbove (t.onHub (·.openFault x a b c d)) := t.onHub_sameAbove (Hub.openFault_sameAbove _ _ _ _ _ _)
  unfold State.translate
  split
  · exact hhold s _ _ _ _
  split
  · split
    exacts [hhold s _ _ _ _, hpark s _]
  split
  · split
    exacts [hopen s _ _ _ _, hput s _ _]
  split
  · split
    exacts [hopen s _ _ _ _, hputs s _ _ _ _]
  extract_lets t
  have ht : s.SameAbove t := s.onHub_sameAbove (Hub.set_sameAbove _ (Nat.zero_le _) _)
  refine ht.trans ?_
  split
  · exact hjoin t _
  have hwalk := t.walk_sameAbove x
  split
  · next hw =>
    rw [hw] at hwalk
    exact hwalk.trans (hputs _ _ _ _ _)
  · next hw =>
    rw [hw] at hwalk
    exact hwalk.trans (hopen _ _ _ _ _)
  · next hw =>
    rw [hw] at hwalk
    exact hwalk

theorem State.span_sameAbove (s : State) (x : XAcc) (len : Nat) : s.SameAbove (s.span x len).2 := by
  unfold State.span
  generalize len / 65536 + 2 = n
  induction n generalizing s x len with
  | zero => exact .rfl
  | succ n ih =>
    have hpage := s.translate_sameAbove x
    rw [State.translateSpan]
    split
    · exact .rfl
    extract_lets k
    split
    · next ht =>
      rw [ht] at hpage
      exact hpage
    · next t ht =>
      rw [ht] at hpage
      have hrest := ih t { x with va := x.va + k } (len - k)
      split
      all_goals
        next hr =>
        rw [hr] at hrest
        exact hpage.trans hrest

-- The counts of the fabric (R326), and what sites hold

theorem Hub.qosCount_sameAbove (h : Hub) (port a n : Nat) (wr : Bool) : h.SameOn AboveBit64 (h.qosCount port a n wr) := by
  have hlo (d c k : Nat) : (if wr then Reg.qosCntWr d c k else Reg.qosCntRd d c k).lo ≤ 64 := by
    split_ifs
    exacts [le_rfl, Nat.zero_le _]
  unfold Hub.qosCount
  extract_lets c t f k
  have hk : h.SameOn AboveBit64 k := h.set_sameAbove (hlo _ _ _) _
  split_ifs
  exacts [hk.trans (k.set_sameAbove (hlo _ _ _) _), hk]

/-- Where no site holds a request or an event, none is looked at again. -/
theorem State.engAgain_of_noSites {s : State} (hs : s.hub.sites = []) (p : Nat → Bool) : s.engAgain p = s := by
  refine List.foldl_fixed' (fun k => ?_) _
  have hsite : s.hub.site k = Site.rst := by simp [Hub.site, hs, tget]
  simp [hsite, Site.rst, State.pumpEvts]

end Sys2Proof.Machine
end

section
/-! SUPPORT. Dewpoint's windows (07): what a full window leaves in the registers when it closes, and when it crosses its thresholds. -/

namespace Sys2Proof.Machine

open Sys2Proof

-- Keys of Dewpoint's fields

/-- Fields that start at different bits of their registers are different. -/
theorem Fld.key_ne_of_lo {f g : Fld} (h : (decide (f.lo < 2048) && decide (g.lo < 2048) && decide (f.lo ≠ g.lo)) = true) : f.key ≠ g.key := by
  simp only [Bool.and_eq_true, decide_eq_true_eq] at h
  obtain ⟨⟨hf, hg⟩, hne⟩ := h
  intro e
  rw [← f.key_mod hf, ← g.key_mod hg, e] at hne
  exact hne rfl

/-- The field lies among Dewpoint's registers (07). -/
def Fld.InDew (g : Fld) : Prop := 0x1100000 * 2048 ≤ g.key ∧ g.key < 0x1200000 * 2048

/-- No record writes a register of Dewpoint's. -/
theorem Fld.InDew.ne_recordFlds {g : Fld} (hg : g.InDew) : ∀ f ∈ recordFlds, f.key ≠ g.key := by
  intro f hf
  have hout : f.key < 0x1100000 * 2048 ∨ 0x1200000 * 2048 ≤ f.key :=
    (by decide : ∀ f ∈ recordFlds, f.key < 0x1100000 * 2048 ∨ 0x1200000 * 2048 ≤ f.key) f hf
  unfold Fld.InDew at hg
  omega

/-- The field lies among Dewpoint's registers after DEW_EVENT. -/
def Fld.AfterDewEvent (g : Fld) : Prop := 0x1100408 * 2048 ≤ g.key ∧ g.key < 0x1200000 * 2048

theorem Fld.AfterDewEvent.inDew {g : Fld} (hg : g.AfterDewEvent) : g.InDew := ⟨by have := hg.1; omega, hg.2⟩

theorem Fld.AfterDewEvent.ne_event {g f : Fld} (hg : g.AfterDewEvent) (hf : f.key < 0x1100408 * 2048) : g.key ≠ f.key := by
  have := hg.1
  omega

/-- The fields of DEW_STAT lie after DEW_EVENT. -/
theorem dewStat_afterDewEvent {p t : Nat} (hp : p < 24) (ht : t < 256) {lo : Nat} (hlo : lo < 2048) (len rst : Nat) :
    Fld.AfterDewEvent ⟨0x1140000 + 0x4000 * p + 0x40 * t, lo, len, rst⟩ := by
  constructor <;> simp only [Fld.key] <;> omega

-- Restarted windows

section
variable (h : Hub) (p t : Nat)

theorem Hub.dewRestart_get_ne {g : Fld} (hg : g.key ≠ (Reg.dewStatCount p t).key) : (h.dewRestart p t).get g = h.get g :=
  Hub.get_set_ne h 0 hg

theorem Hub.dewRestart_count : (h.dewRestart p t).get (Reg.dewStatCount p t) = 0 := Hub.get_set_same h _ 0

theorem Hub.dewRestart_wins : tget DewWin.rst (h.dewRestart p t).dew.wins (256 * p + t) = DewWin.rst :=
  tget_tset_same DewWin.rst h.dew.wins (256 * p + t) DewWin.rst

end

-- Windows that take a sample

/-- A sample in its tag's window, counted (R172). -/
def Hub.dewAdded (h : Hub) (x : DewSample) : Hub :=
  { h.set (Reg.dewStatCount x.part x.tag) (h.get (Reg.dewStatCount x.part x.tag) + 1) with
    dew := { h.dew with
      wins := tset DewWin.rst h.dew.wins (256 * x.part + x.tag) ((tget DewWin.rst h.dew.wins (256 * x.part + x.tag)).add x.diffs)
      closing := tput h.dew.closing (256 * x.part + x.tag) (x.src, x.inst) } }

theorem Hub.dewTake_of_not_full {h : Hub} {x : DewSample} (hp : x.part < 24) (hfull : h.dewFull x.part x.tag = false) (bound : Bool) :
    h.dewTake bound x = h.dewAdded x := by
  simp [Hub.dewTake, Hub.dewAdded, Nat.not_le.2 hp, hfull]

theorem Hub.dewAdded_count {h : Hub} {x : DewSample} (hc : h.get (Reg.dewStatCount x.part x.tag) < 2 ^ 16 - 1) :
    (h.dewAdded x).get (Reg.dewStatCount x.part x.tag) = h.get (Reg.dewStatCount x.part x.tag) + 1 :=
  (Hub.get_set_same _ _ _).trans (Nat.mod_eq_of_lt (Nat.add_lt_of_lt_sub hc))

theorem Hub.dewAdded_get_ne (h : Hub) {x : DewSample} {g : Fld} (hg : g.key ≠ (Reg.dewStatCount x.part x.tag).key) :
    (h.dewAdded x).get g = h.get g := Hub.get_set_ne h _ hg

theorem Hub.dewAdded_win (h : Hub) (x : DewSample) :
    tget DewWin.rst (h.dewAdded x).dew.wins (256 * x.part + x.tag) = (tget DewWin.rst h.dew.wins (256 * x.part + x.tag)).add x.diffs :=
  tget_tset_same DewWin.rst h.dew.wins _ _

-- Windows that close

/-- An error measure that is a number fits 16 bits (R173). -/
theorem f64unit_lt {x a : Nat} (h : f64unit x = some a) : a < 2 ^ 16 := by
  unfold f64unit at h
  split at h <;> cases h
  · decide
  · exact Nat.lt_succ_of_le (min_le_right _ _)

/-- LAST_RMS and LAST_MAX written, two free values drawn. -/
def Hub.dewMeasured (h : Hub) (p t a b : Nat) : Hub :=
  (h.draw.2.draw.2.set (Reg.dewStatLastRms p t) a).set (Reg.dewStatLastMax p t) b

theorem Hub.dewMeasured_get_ne (h : Hub) {p t : Nat} (a b : Nat) {g : Fld} (hrms : g.key ≠ (Reg.dewStatLastRms p t).key)
    (hmax : g.key ≠ (Reg.dewStatLastMax p t).key) : (h.dewMeasured p t a b).get g = h.get g :=
  (Hub.get_set_ne _ _ hmax).trans (Hub.get_set_ne _ _ hrms)

theorem Hub.dewMeasured_lastRms (h : Hub) (p t : Nat) {a : Nat} (ha : a < 2 ^ 16) (b : Nat) :
    (h.dewMeasured p t a b).get (Reg.dewStatLastRms p t) = a :=
  (Hub.get_set_ne _ _ (Fld.key_ne_of_lo rfl)).trans ((Hub.get_set_same _ _ _).trans (Nat.mod_eq_of_lt ha))

theorem Hub.dewMeasured_lastMax (h : Hub) (p t a : Nat) {b : Nat} (hb : b < 2 ^ 16) :
    (h.dewMeasured p t a b).get (Reg.dewStatLastMax p t) = b :=
  (Hub.get_set_same _ _ _).trans (Nat.mod_eq_of_lt hb)

/-- A window with a source that is not zero (`hx`) and whose error measures are the numbers `a` and `b` closes with
them, crosses if either lies above its threshold, and restarts. -/
theorem Hub.dewClose_eq {h : Hub} {p t a b : Nat} (hx : ∀ s e, fp64.dec (tget DewWin.rst h.dew.wins (256 * p + t)).x2 ≠ .fin s 0 e)
    (ha : f64unit (f64sqrt (f64div (tget DewWin.rst h.dew.wins (256 * p + t)).e2 (tget DewWin.rst h.dew.wins (256 * p + t)).x2)) = some a)
    (hb : f64unit (tget DewWin.rst h.dew.wins (256 * p + t)).mx = some b) (bound : Bool) :
    h.dewClose bound p t = (if h.get (Reg.dewTagRmsTh p t) < a ∨ h.get (Reg.dewTagMaxTh p t) < b
      then (h.dewMeasured p t a b).dewTrip bound p t else h.dewMeasured p t a b).dewRestart p t := by
  have hrms := h.dewMeasured_get_ne (p := p) (t := t) a b (g := Reg.dewTagRmsTh p t) (Fld.key_ne_of_lo rfl) (Fld.key_ne_of_lo rfl)
  have hmax := h.dewMeasured_get_ne (p := p) (t := t) a b (g := Reg.dewTagMaxTh p t) (Fld.key_ne_of_lo rfl) (Fld.key_ne_of_lo rfl)
  have hcross : ((h.dewMeasured p t a b).get (Reg.dewTagRmsTh p t) < a ∨ (h.dewMeasured p t a b).get (Reg.dewTagMaxTh p t) < b)
      ↔ (h.get (Reg.dewTagRmsTh p t) < a ∨ h.get (Reg.dewTagMaxTh p t) < b) := by rw [hrms, hmax]
  simp only [Hub.dewClose, Bool.false_eq_true, if_false, ha, hb, Option.getD_some]
  exact congrArg (Hub.dewRestart · p t) (if_congr hcross rfl rfl)

-- Windows that cross

/-- TRIPS counted and DEW_LAST written (R174). -/
def Hub.dewNamed (h : Hub) (p t : Nat) : Hub :=
  (h.count (Reg.dewStatTrips p t) 1).sets
    [(Reg.dewLastPartition, p), (Reg.dewLastTag, t), (Reg.dewLastAction, h.get (Reg.dewTagAction p t))]

/-- What a crossing does after DEW_EVENT.TRIP (R175, R176, R181): ACTION 1 no more, 2 promotes, 3 halts. -/
def Hub.dewAct (h : Hub) (bound : Bool) (p t a : Nat) : Hub :=
  if a = 1 then h
  else if a = 2 then
    if h.promoting p t then h
    else if h.canPromote p t && !bound then { h with dew := { h.dew with waiting := h.dew.waiting ++ [(p, t)] } }
    else h.dewEvent p Reg.dewEventCeiling
  else h.dewHalt p t

/-- A crossing while no migration of the tag runs. -/
theorem Hub.dewTrip_eq {h : Hub} {p t : Nat} (hmig : h.get (Reg.dewTagMigrating p t) = 0) (bound : Bool) :
    h.dewTrip bound p t = if h.get (Reg.dewTagAction p t) = 0 then h.dewNamed p t
      else ((h.dewNamed p t).dewEvent p Reg.dewEventTrip).dewAct bound p t (h.get (Reg.dewTagAction p t)) := by
  have hmig' : (h.count (Reg.dewStatTrips p t) 1).on (Reg.dewTagMigrating p t) = false := by
    have hkey : (Reg.dewTagMigrating p t).key ≠ (Reg.dewStatTrips p t).key := by
      simp only [Fld.key, Reg.dewTagMigrating, Reg.dewStatTrips]
      omega
    simp [Hub.on, Hub.get_set_ne _ _ hkey, hmig]
  have hact : (h.count (Reg.dewStatTrips p t) 1).get (Reg.dewTagAction p t) = h.get (Reg.dewTagAction p t) :=
    Hub.get_set_ne _ _ (Fld.key_ne_of_lo rfl)
  unfold Hub.dewTrip Hub.dewNamed
  rw [← hact]
  simp only [hmig', Bool.false_eq_true, if_false]
  rfl

theorem Hub.dewHalt_get_ne (h : Hub) {p t : Nat} {g : Fld} (hdew : g.InDew) (hhalted : g.key ≠ (Reg.dewTagHalted p t).key)
    (hevent : g.key ≠ Reg.dewEventHalt.key) : (h.dewHalt p t).get g = h.get g := by
  unfold Hub.dewHalt
  rw [Hub.record_get_ne _ _ hdew.ne_recordFlds, Hub.dewEvent_get, Hub.event_get_ne _ hevent, Hub.get_set_ne _ _ hhalted]
  rfl

theorem Hub.dewAct_get_ne (h : Hub) (bound : Bool) {p t : Nat} (a : Nat) {g : Fld} (hdew : g.InDew)
    (hceiling : g.key ≠ Reg.dewEventCeiling.key) (hhalted : g.key ≠ (Reg.dewTagHalted p t).key) (hevent : g.key ≠ Reg.dewEventHalt.key) :
    (h.dewAct bound p t a).get g = h.get g := by
  unfold Hub.dewAct
  split_ifs
  · rfl
  · rfl
  · rfl
  · rw [Hub.dewEvent_get, Hub.event_get_ne _ hceiling]
  · exact h.dewHalt_get_ne hdew hhalted hevent

section
variable {h : Hub} {p t : Nat} (bound : Bool)

/-- A crossing leaves the other fields after DEW_EVENT as TRIPS and DEW_LAST leave them. -/
theorem Hub.dewTrip_get_ne (hmig : h.get (Reg.dewTagMigrating p t) = 0) {g : Fld} (hafter : g.AfterDewEvent)
    (hhalted : g.key ≠ (Reg.dewTagHalted p t).key) : (h.dewTrip bound p t).get g = (h.dewNamed p t).get g := by
  rw [Hub.dewTrip_eq hmig]
  split_ifs
  · rfl
  · rw [Hub.dewAct_get_ne _ _ _ hafter.inDew (hafter.ne_event (by decide)) hhalted (hafter.ne_event (by decide)), Hub.dewEvent_get,
      Hub.event_get_ne _ (hafter.ne_event (by decide))]

theorem Hub.dewNamed_get_ne {g : Fld} (htrips : g.key ≠ (Reg.dewStatTrips p t).key) (hpart : g.key ≠ Reg.dewLastPartition.key)
    (htag : g.key ≠ Reg.dewLastTag.key) (haction : g.key ≠ Reg.dewLastAction.key) : (h.dewNamed p t).get g = h.get g := by
  refine (Hub.get_sets_ne _ _ g ?_).trans (Hub.get_set_ne _ _ htrips)
  simp only [List.forall_mem_cons]
  exact ⟨hpart, htag, haction, by simp⟩

theorem Hub.dewNamed_trips : (h.dewNamed p t).get (Reg.dewStatTrips p t) = min (2 ^ 32 - 1) (h.get (Reg.dewStatTrips p t) + 1) := by
  have hlast : (h.dewNamed p t).get (Reg.dewStatTrips p t) = (h.count (Reg.dewStatTrips p t) 1).get (Reg.dewStatTrips p t) := by
    refine Hub.get_sets_ne _ _ _ ?_
    simp only [List.forall_mem_cons]
    exact ⟨Fld.key_ne_of_lo rfl, Fld.key_ne_of_lo rfl, Fld.key_ne_of_lo rfl, by simp⟩
  rw [hlast, Hub.count_eq, Hub.get_set_same, satAdd, min_comm]
  exact Nat.mod_eq_of_lt (Nat.lt_of_le_of_lt (min_le_left _ _) (Nat.sub_one_lt_of_lt (Nat.two_pow_pos _)))

theorem Hub.dewNamed_last {f : Fld} {v : Nat}
    (hm : (f, v) ∈ [(Reg.dewLastPartition, p), (Reg.dewLastTag, t), (Reg.dewLastAction, h.get (Reg.dewTagAction p t))]) :
    (h.dewNamed p t).get f = v % 2 ^ f.len := by
  refine Hub.get_sets_of_mem ?_ hm _
  show [Reg.dewLastPartition.key, Reg.dewLastTag.key, Reg.dewLastAction.key].Nodup
  decide

section
variable (hp : p < 24) (ht : t < 256) (hmig : h.get (Reg.dewTagMigrating p t) = 0)
include hp ht hmig

theorem Hub.dewTrip_trips :
    (h.dewTrip bound p t).get (Reg.dewStatTrips p t) = min (2 ^ 32 - 1) (h.get (Reg.dewStatTrips p t) + 1) :=
  (Hub.dewTrip_get_ne bound hmig (dewStat_afterDewEvent hp ht (show 192 < 2048 by decide) _ _) (Fld.key_ne_of_lo rfl)).trans Hub.dewNamed_trips

theorem Hub.dewTrip_lastRms : (h.dewTrip bound p t).get (Reg.dewStatLastRms p t) = h.get (Reg.dewStatLastRms p t) :=
  (Hub.dewTrip_get_ne bound hmig (dewStat_afterDewEvent hp ht (show 256 < 2048 by decide) _ _) (Fld.key_ne_of_lo rfl)).trans
    (Hub.dewNamed_get_ne (Fld.key_ne_of_lo rfl) (Fld.key_ne_of_lo rfl) (Fld.key_ne_of_lo rfl) (Fld.key_ne_of_lo rfl))

theorem Hub.dewTrip_lastMax : (h.dewTrip bound p t).get (Reg.dewStatLastMax p t) = h.get (Reg.dewStatLastMax p t) :=
  (Hub.dewTrip_get_ne bound hmig (dewStat_afterDewEvent hp ht (show 272 < 2048 by decide) _ _) (Fld.key_ne_of_lo rfl)).trans
    (Hub.dewNamed_get_ne (Fld.key_ne_of_lo rfl) (Fld.key_ne_of_lo rfl) (Fld.key_ne_of_lo rfl) (Fld.key_ne_of_lo rfl))

/-- DEW_LAST names the partition, the tag and the ACTION of a crossing (R174). -/
theorem Hub.dewTrip_last : (h.dewTrip bound p t).get Reg.dewLastPartition = p ∧ (h.dewTrip bound p t).get Reg.dewLastTag = t
    ∧ (h.dewTrip bound p t).get Reg.dewLastAction = h.get (Reg.dewTagAction p t) % 4 := by
  have hlast {f : Fld} (hafter : f.AfterDewEvent) (hhalted : f.key ≠ (Reg.dewTagHalted p t).key) {v : Nat}
      (hm : (f, v) ∈ [(Reg.dewLastPartition, p), (Reg.dewLastTag, t), (Reg.dewLastAction, h.get (Reg.dewTagAction p t))]) :=
    (Hub.dewTrip_get_ne bound hmig hafter hhalted).trans (Hub.dewNamed_last hm)
  refine ⟨?_, ?_, ?_⟩
  · rw [hlast (v := p) (by unfold Fld.AfterDewEvent; decide) (Fld.key_ne_of_lo rfl) (by simp)]
    exact Nat.mod_eq_of_lt (Nat.lt_trans hp (by decide))
  · rw [hlast (v := t) (by unfold Fld.AfterDewEvent; decide) (Fld.key_ne_of_lo rfl) (by simp)]
    exact Nat.mod_eq_of_lt ht
  · exact hlast (by unfold Fld.AfterDewEvent; decide) (Fld.key_ne_of_lo rfl) (by simp)

end

/-- A crossing with an ACTION sets DEW_EVENT.TRIP. -/
theorem Hub.dewTrip_event (hmig : h.get (Reg.dewTagMigrating p t) = 0) (ha : h.get (Reg.dewTagAction p t) ≠ 0) :
    (h.dewTrip bound p t).get Reg.dewEventTrip = 1 := by
  rw [Hub.dewTrip_eq hmig, if_neg ha,
    Hub.dewAct_get_ne _ _ _ (by unfold Fld.InDew; decide) (by decide) (Fld.key_ne_of_lo rfl) (by decide), Hub.dewEvent_get]
  exact Hub.event_get_same _ (by decide)

theorem Hub.dewHalt_halts (h : Hub) (hp : p < 24) (ht : t < 256) :
    (h.dewHalt p t).get (Reg.dewTagHalted p t) = 1 ∧ (h.dewHalt p t).get Reg.dewEventHalt = 1 := by
  have hhalted : Fld.InDew (Reg.dewTagHalted p t) := by
    constructor <;> simp only [Fld.key, Reg.dewTagHalted] <;> omega
  unfold Hub.dewHalt
  constructor
  · rw [Hub.record_get_ne _ _ hhalted.ne_recordFlds, Hub.dewEvent_get, Hub.event_get_ne _ (Fld.key_ne_of_lo rfl)]
    exact Hub.get_set_same _ _ _
  · rw [Hub.record_get_ne _ _ (Fld.InDew.ne_recordFlds (by unfold Fld.InDew; decide)), Hub.dewEvent_get]
    exact Hub.event_get_same _ (by decide)

/-- A crossing with ACTION 3 halts the tag. -/
theorem Hub.dewTrip_halts (hp : p < 24) (ht : t < 256) (hmig : h.get (Reg.dewTagMigrating p t) = 0) (ha : h.get (Reg.dewTagAction p t) = 3) :
    (h.dewTrip bound p t).get (Reg.dewTagHalted p t) = 1 ∧ (h.dewTrip bound p t).get Reg.dewEventHalt = 1 := by
  rw [Hub.dewTrip_eq hmig, ha, if_neg (by decide), Hub.dewAct, if_neg (by decide), if_neg (by decide)]
  exact Hub.dewHalt_halts _ hp ht

end

-- What a closed window leaves

/-- A window has closed with `a` in LAST_RMS and `b` in LAST_MAX, and started again (R173). -/
def Hub.WindowClosed (k : Hub) (p t a b : Nat) : Prop :=
  k.get (Reg.dewStatLastRms p t) = a ∧ k.get (Reg.dewStatLastMax p t) = b ∧ k.get (Reg.dewStatCount p t) = 0
    ∧ tget DewWin.rst k.dew.wins (256 * p + t) = DewWin.rst

section
variable {h k : Hub} {p t a b : Nat} {bound : Bool} (ha : a < 2 ^ 16) (hb : b < 2 ^ 16)
include ha hb

/-- A window that does not cross touches neither TRIPS nor DEW_EVENT.TRIP. -/
theorem Hub.dewMeasured_dewRestart (hk : (h.dewMeasured p t a b).dewRestart p t = k) :
    k.WindowClosed p t a b ∧ k.get (Reg.dewStatTrips p t) = h.get (Reg.dewStatTrips p t) ∧ k.get Reg.dewEventTrip = h.get Reg.dewEventTrip := by
  subst hk
  have hget {g : Fld} (hcount : g.key ≠ (Reg.dewStatCount p t).key) := Hub.dewRestart_get_ne (h.dewMeasured p t a b) p t hcount
  refine ⟨⟨?_, ?_, Hub.dewRestart_count _ p t, Hub.dewRestart_wins _ p t⟩, ?_, ?_⟩
  · exact (hget (Fld.key_ne_of_lo rfl)).trans (h.dewMeasured_lastRms p t ha b)
  · exact (hget (Fld.key_ne_of_lo rfl)).trans (h.dewMeasured_lastMax p t a hb)
  all_goals exact (hget (Fld.key_ne_of_lo rfl)).trans (h.dewMeasured_get_ne a b (Fld.key_ne_of_lo rfl) (Fld.key_ne_of_lo rfl))

/-- A window that crosses while no migration of its tag runs (R174, R181). -/
theorem Hub.dewTrip_dewRestart (hk : ((h.dewMeasured p t a b).dewTrip bound p t).dewRestart p t = k) (hp : p < 24) (ht : t < 256)
    (hmig : h.get (Reg.dewTagMigrating p t) = 0) :
    k.WindowClosed p t a b ∧ k.get (Reg.dewStatTrips p t) = min (2 ^ 32 - 1) (h.get (Reg.dewStatTrips p t) + 1)
      ∧ k.get Reg.dewLastPartition = p ∧ k.get Reg.dewLastTag = t ∧ k.get Reg.dewLastAction = h.get (Reg.dewTagAction p t) % 4
      ∧ (h.get (Reg.dewTagAction p t) ≠ 0 → k.get Reg.dewEventTrip = 1)
      ∧ (h.get (Reg.dewTagAction p t) = 3 → k.get (Reg.dewTagHalted p t) = 1 ∧ k.get Reg.dewEventHalt = 1) := by
  subst hk
  have hsame {g : Fld} := h.dewMeasured_get_ne (p := p) (t := t) a b (g := g)
  have hmig' := (hsame (Fld.key_ne_of_lo rfl) (Fld.key_ne_of_lo rfl)).trans hmig
  have haction := hsame (g := Reg.dewTagAction p t) (Fld.key_ne_of_lo rfl) (Fld.key_ne_of_lo rfl)
  have hget {g : Fld} (hcount : g.key ≠ (Reg.dewStatCount p t).key) :=
    Hub.dewRestart_get_ne ((h.dewMeasured p t a b).dewTrip bound p t) p t hcount
  obtain ⟨hpart, htag, hlast⟩ := Hub.dewTrip_last bound hp ht hmig'
  refine ⟨⟨?_, ?_, Hub.dewRestart_count _ p t, Hub.dewRestart_wins _ p t⟩, ?_, (hget (Fld.key_ne_of_lo rfl)).trans hpart,
    (hget (Fld.key_ne_of_lo rfl)).trans htag, (hget (Fld.key_ne_of_lo rfl)).trans (hlast.trans (congrArg (· % 4) haction)),
    fun hact => ?_, fun hact => ?_⟩
  · exact (hget (Fld.key_ne_of_lo rfl)).trans ((Hub.dewTrip_lastRms bound hp ht hmig').trans (h.dewMeasured_lastRms p t ha b))
  · exact (hget (Fld.key_ne_of_lo rfl)).trans ((Hub.dewTrip_lastMax bound hp ht hmig').trans (h.dewMeasured_lastMax p t a hb))
  · refine (hget (Fld.key_ne_of_lo rfl)).trans ((Hub.dewTrip_trips bound hp ht hmig').trans ?_)
    rw [hsame (Fld.key_ne_of_lo rfl) (Fld.key_ne_of_lo rfl)]
  · exact (hget (Fld.key_ne_of_lo rfl)).trans (Hub.dewTrip_event bound hmig' (haction ▸ hact))
  · obtain ⟨hhalted, hevent⟩ := Hub.dewTrip_halts bound hp ht hmig' (haction.trans hact)
    exact ⟨(hget (Fld.key_ne_of_lo rfl)).trans hhalted, (hget (Fld.key_ne_of_lo rfl)).trans hevent⟩

end

end Sys2Proof.Machine
end

section
/-! SUPPORT. Dewpoint's migrations and counters (07): the hub when a migration starts and when it ends, and what the rewrite of a group
leaves. -/

namespace Sys2Proof.Machine

open Sys2Proof Claims

-- Migrations that start (R176, R178)

/-- NEXT_FMT, MIGRATING and FRONTIER of a migration that starts towards format `f`. -/
def migStartFlds (p t f : Nat) : List (Fld × Nat) := [(Reg.dewTagNextFmt p t, f), (Reg.dewTagMigrating p t, 1), (Reg.dewTagFrontier p t, 0)]

theorem migStartFlds_nodup (p t f : Nat) : ((migStartFlds p t f).map (·.1.key)).Nodup := by
  simp [migStartFlds, Fld.key, Reg.dewTagNextFmt, Reg.dewTagMigrating, Reg.dewTagFrontier]

/-- The hub with a migration started. -/
def Hub.migStarted (h : Hub) (p t f : Nat) : Hub :=
  { h.sets (migStartFlds p t f) with
    dew := { h.dew with waiting := h.dew.waiting.erase (p, t), running := h.dew.running ++ [(p, t)] } }

theorem Hub.migStarted_get (h : Hub) {p t f v : Nat} {g : Fld} (hm : (g, v) ∈ migStartFlds p t f) :
    (h.migStarted p t f).get g = v % 2 ^ g.len := Hub.get_sets_of_mem (migStartFlds_nodup p t f) hm h

theorem Hub.migStarted_get_ne (h : Hub) {p t : Nat} (f : Nat) {g : Fld}
    (hg : ∀ x ∈ [Reg.dewTagMigrating p t, Reg.dewTagFrontier p t, Reg.dewTagNextFmt p t], g.key ≠ x.key) :
    (h.migStarted p t f).get g = h.get g := by
  simp only [List.forall_mem_cons] at hg
  obtain ⟨hmig, hfrontier, hfmt, -⟩ := hg
  refine Hub.get_sets_ne _ h g ?_
  simp only [migStartFlds, List.forall_mem_cons]
  exact ⟨hfmt, hmig, hfrontier, by simp⟩

theorem Hub.migStart_eq {h : Hub} {p t f : Nat} (hfind : h.dew.waiting.find? (fun x => decide (x.1 = p)) = some (p, t)) (hlt : h.migrations p < 4)
    (hnext : nextFmt (h.get (Reg.dewTagFmt p t)) = some f) : h.migStart p = h.migStarted p t f := by
  have hnext' : nextFmt (({ h with dew := { h.dew with waiting := h.dew.waiting.erase (p, t) } } : Hub).get (Reg.dewTagFmt p t)) = some f := hnext
  simp only [Hub.migStart, hfind, Nat.not_le.2 hlt, if_false, hnext']
  rfl

theorem Hub.migStart_of_full {h : Hub} {p : Nat} (hfull : 4 ≤ h.migrations p) : h.migStart p = h := by
  unfold Hub.migStart
  split
  · rfl
  · rw [if_pos hfull]

-- Groups that are rewritten (R176-R179)

/-- The bytes of an access counted at its first piece (R326). -/
def Hub.qosFirst (h : Hub) (port : Nat) (l : List (Nat × Nat)) (n : Nat) (wr : Bool) : Hub :=
  match l with
  | (a, _) :: _ => h.qosCount port a n wr
  | [] => h

theorem Hub.qosFirst_sameAbove (h : Hub) (port : Nat) (l : List (Nat × Nat)) (n : Nat) (wr : Bool) :
    h.SameOn AboveBit64 (h.qosFirst port l n wr) := by
  cases l with
  | nil => exact .rfl
  | cons x l => exact h.qosCount_sameAbove port x.1 n wr

/-- A group's rewrite counted: the bytes of its read and its write, the `k` elements that it changed, and FRONTIER at the next group. -/
def Hub.migCounted (h : Hub) (p t : Nat) (l d : List (Nat × Nat)) (m n k g : Nat) : Hub :=
  ((((h.qosFirst (driftPort 0 p) l m false).qosFirst (driftPort 0 p) d n true).count (Reg.dewStatSat p t) k).set (Reg.dewTagFrontier p t) (g + 1))

theorem Hub.migCounted_frontier (h : Hub) (p t : Nat) (l d : List (Nat × Nat)) (m n k : Nat) {g : Nat} (hg : g < 2 ^ 32 - 1) :
    (h.migCounted p t l d m n k g).get (Reg.dewTagFrontier p t) = g + 1 :=
  (Hub.get_set_same _ _ _).trans (Nat.mod_eq_of_lt (by simp only [Reg.dewTagFrontier]; omega))

theorem aboveBit64_dewTagMigrating (p t : Nat) : AboveBit64 (Reg.dewTagMigrating p t).key := by
  rw [AboveBit64, Fld.key_mod _ (show 192 < 2048 by decide)]
  exact (by decide : 64 < 192)

theorem Hub.migCounted_migrating (h : Hub) (p t : Nat) (l d : List (Nat × Nat)) (m n k g : Nat) :
    (h.migCounted p t l d m n k g).get (Reg.dewTagMigrating p t) = h.get (Reg.dewTagMigrating p t) := by
  have hqos := (h.qosFirst_sameAbove (driftPort 0 p) l m false).trans (Hub.qosFirst_sameAbove _ (driftPort 0 p) d n true)
  rw [Hub.migCounted, Hub.get_set_ne _ _ (Fld.key_ne_of_lo rfl), Hub.count_eq, Hub.get_set_ne _ _ (Fld.key_ne_of_lo rfl),
    hqos.get _ (aboveBit64_dewTagMigrating p t)]

theorem Hub.migCounted_sites (h : Hub) (p t : Nat) (l d : List (Nat × Nat)) (m n k g : Nat) : (h.migCounted p t l d m n k g).sites = h.sites :=
  ((h.qosFirst_sameAbove (driftPort 0 p) l m false).trans (Hub.qosFirst_sameAbove _ (driftPort 0 p) d n true)).sites

/-- The address of the group at FRONTIER. -/
def Hub.migVa (h : Hub) (p t : Nat) : Nat := h.get (Reg.dewTagBase p t) + h.get (Reg.dewTagFrontier p t) * h.get (Reg.dewTagStride p t)

theorem State.sameAbove_of_span {s u : State} {x : XAcc} {n : Nat} {r : Option (List (Nat × Nat))} (h : s.span x n = (r, u)) : s.SameAbove u := by
  have hspan := s.span_sameAbove x n
  rwa [h] at hspan

/-- A group whose two accesses translate is rewritten and counted; where no site holds a request, none runs on. -/
theorem State.migGroup_eq {s u v : State} {p t : Nat} {l d : List (Nat × Nat)} (hsites : s.hub.sites = [])
    (hread : s.span (migAcc p t (s.hub.migVa p t) .read) (groupSize (.ofNat (s.hub.get (Reg.dewTagFmt p t)))) = (some l, u))
    (hwrite : u.span (migAcc p t (s.hub.migVa p t) .write) (groupSize (.ofNat (s.hub.get (Reg.dewTagNextFmt p t)))) = (some d, v)) :
    ∃ (w : State) (m n k : Nat), s.SameAbove w ∧ s.migGroup p t = w.onHub (·.migCounted p t l d m n k (s.hub.get (Reg.dewTagFrontier p t))) := by
  have hv : s.SameAbove v := (State.sameAbove_of_span hread).trans (State.sameAbove_of_span hwrite)
  unfold Hub.migVa at hread hwrite
  unfold State.migGroup
  simp only [hread, hwrite]
  have hw (o o' : Org) (a b : Nat) := hv.trans ((v.readPieces_sameAbove o true l).trans (State.writePieces_sameAbove _ o' true a b d))
  refine ⟨_, _, _, _, hw _ _ _ _, State.engAgain_of_noSites ?_ _⟩
  exact (Hub.migCounted_sites _ p t l d _ _ _ _).trans ((hw _ _ _ _).hub.sites.trans hsites)

-- Migrations that end (R175, R176)

/-- The tag in its next format, its migration ended and its window restarted (R175, R176). -/
def Hub.migEnded (h : Hub) (p t : Nat) : Hub :=
  ((((({ h with dew := { h.dew with running := h.dew.running.erase (p, t) } } : Hub).set (Reg.dewTagFmt p t) (h.get (Reg.dewTagNextFmt p t))).set
    (Reg.dewTagMigrating p t) 0).dewEvent p Reg.dewEventPromoted).dewRestart p t)

/-- A field that neither DEW_EVENT.PROMOTED nor the window's restart writes. -/
theorem Hub.migEnded_get (h : Hub) {p t : Nat} {g : Fld} (hcount : g.key ≠ (Reg.dewStatCount p t).key)
    (hevent : g.key ≠ Reg.dewEventPromoted.key) :
    (h.migEnded p t).get g = ((h.set (Reg.dewTagFmt p t) (h.get (Reg.dewTagNextFmt p t))).set (Reg.dewTagMigrating p t) 0).get g := by
  rw [Hub.migEnded, Hub.dewRestart_get_ne _ _ _ hcount, Hub.dewEvent_get, Hub.event_get_ne _ hevent]
  rfl

theorem Hub.migEnded_fmt (h : Hub) (p t : Nat) : (h.migEnded p t).get (Reg.dewTagFmt p t) = h.get (Reg.dewTagNextFmt p t) % 256 := by
  rw [Hub.migEnded_get _ (Fld.key_ne_of_lo rfl) (Fld.key_ne_of_lo rfl), Hub.get_set_ne _ _ (Fld.key_ne_of_lo rfl)]
  exact Hub.get_set_same _ _ _

theorem Hub.migEnded_migrating (h : Hub) (p t : Nat) : (h.migEnded p t).get (Reg.dewTagMigrating p t) = 0 := by
  rw [Hub.migEnded_get _ (Fld.key_ne_of_lo rfl) (Fld.key_ne_of_lo rfl), Hub.get_set_same]
  exact Nat.zero_mod _

theorem Hub.migEnded_promoted (h : Hub) (p t : Nat) : (h.migEnded p t).get Reg.dewEventPromoted = 1 := by
  rw [Hub.migEnded, Hub.dewRestart_get_ne _ _ _ (Fld.key_ne_of_lo rfl), Hub.dewEvent_get]
  exact Hub.event_get_same _ (by decide)

theorem Hub.migEnded_count (h : Hub) (p t : Nat) : (h.migEnded p t).get (Reg.dewStatCount p t) = 0 := Hub.dewRestart_count _ p t

/-- The event at a migration's end touches neither Dewpoint's lists nor the sites. -/
theorem Hub.dewEvent_lists (h : Hub) (p : Nat) (f : Fld) : (h.dewEvent p f).dew = h.dew ∧ (h.dewEvent p f).sites = h.sites := by
  have hevent : h.SameOn (fun _ => False) (h.dewEvent p f) := h.dewEvent_sameOn p id
  exact ⟨hevent.dew, hevent.sites⟩

theorem Hub.dewRestart_lists (h : Hub) (p t : Nat) :
    (h.dewRestart p t).dew.running = h.dew.running ∧ (h.dewRestart p t).sites = h.sites := ⟨rfl, rfl⟩

theorem Hub.migEnded_running (h : Hub) (p t : Nat) : (h.migEnded p t).dew.running = h.dew.running.erase (p, t) := by
  rw [Hub.migEnded, (Hub.dewRestart_lists _ p t).1, (Hub.dewEvent_lists _ _ _).1]
  rfl

theorem Hub.migEnded_sites (h : Hub) (p t : Nat) : (h.migEnded p t).sites = h.sites := by
  rw [Hub.migEnded, (Hub.dewRestart_lists _ p t).2, (Hub.dewEvent_lists _ _ _).2]
  rfl

-- Counters that are cleared (R169, Table 1)

/-- The counters of a tag that CLEAR zeroes. -/
def dewCounters (p t : Nat) : List Fld :=
  [Reg.dewStatSat p t, Reg.dewStatOf p t, Reg.dewStatNv p t, Reg.dewStatEsc p t, Reg.dewStatEscovf p t, Reg.dewStatBad p t,
    Reg.dewStatTrips p t, Reg.dewStatSkipped p t]

theorem Hub.dewClear_eq (h : Hub) (p t : Nat) : h.dewClear p t = h.sets ((dewCounters p t).map (·, 0)) := rfl

theorem dewCounters_nodup (p t : Nat) : ((dewCounters p t).map Fld.key).Nodup := by
  simp [dewCounters, Fld.key, Reg.dewStatSat, Reg.dewStatOf, Reg.dewStatNv, Reg.dewStatEsc, Reg.dewStatEscovf, Reg.dewStatBad, Reg.dewStatTrips,
    Reg.dewStatSkipped]

theorem Hub.dewClear_get (h : Hub) {p t : Nat} {g : Fld} (hg : g ∈ dewCounters p t) : (h.dewClear p t).get g = 0 := by
  have hn : (((dewCounters p t).map (·, 0)).map (fun x : Fld × Nat => x.1.key)).Nodup := by
    rw [List.map_map]
    exact dewCounters_nodup p t
  rw [Hub.dewClear_eq, Hub.get_sets_of_mem hn (List.mem_map_of_mem hg), Nat.zero_mod]

theorem Hub.dewClear_get_ne (h : Hub) {p t : Nat} {g : Fld} (hg : ∀ f ∈ dewCounters p t, g.key ≠ f.key) : (h.dewClear p t).get g = h.get g := by
  rw [Hub.dewClear_eq]
  refine Hub.get_sets_ne _ _ _ fun x hx => ?_
  obtain ⟨f, hf, rfl⟩ := List.mem_map.1 hx
  exact hg f hf

end Sys2Proof.Machine
end

section
/-! The statement on Dewpoint's windows and migrations (07): O30 proved. -/

namespace Sys2Proof.Machine

open Sys2Proof Claims

-- The commands' equations

theorem exec_dewpointRecompute (die : BitVec 1) (s : State) : exec (.dewpointRecompute die) s = execDewpointRecompute die s := rfl
theorem exec_windowClose (part : BitVec 5) (tag : BitVec 8) (s : State) : exec (.windowClose part tag) s = execWindowClose part tag s := rfl
theorem exec_migrationStart (part : BitVec 5) (s : State) : exec (.migrationStart part) s = .next (s.onHub (·.migStart part.toNat)) := rfl

-- Windows

section
variable {s : State} {part : BitVec 5} {tag : BitVec 8}

/-- The hub with `rest` in the queue of die 0. -/
def Hub.dewQueue (h : Hub) (rest : List DewSample) : Hub := { h with dew := { h.dew with q0 := rest } }

/-- The oldest sample of die 0 joins the window of its tag, which is not full, and leaves the queue. -/
theorem exec_dewpointRecompute_sample {x : DewSample} {rest : List DewSample} (hq : s.hub.dew.q0 = x :: rest) (hp : x.part < 24)
    (hfull : ¬ 2 ^ s.hub.get (Reg.dewTagWindowLog2 x.part x.tag) ≤ s.hub.get (Reg.dewStatCount x.part x.tag)) :
    exec (.dewpointRecompute 0) s = .next (s.onHub (fun h => (h.dewQueue rest).dewAdded x)) := by
  have hnot : (s.hub.dewQueue rest).dewFull x.part x.tag = false := (decide_eq_false hfull : s.hub.dewFull x.part x.tag = false)
  have htake : (s.hub.dewQueue rest).dewTake (s.tagBound x.part x.tag) x = (s.hub.dewQueue rest).dewAdded x :=
    Hub.dewTake_of_not_full hp hnot _
  rw [exec_dewpointRecompute, execDewpointRecompute, if_pos rfl, hq]
  exact congrArg Host.Outcome.next (State.onHub_congr htake)

theorem exec_windowClose_of_not_full
    (hfull : ¬ 2 ^ s.hub.get (Reg.dewTagWindowLog2 part.toNat tag.toNat) ≤ s.hub.get (Reg.dewStatCount part.toNat tag.toNat)) :
    exec (.windowClose part tag) s = .next s :=
  if_neg fun h => hfull (of_decide_eq_true h.2)

theorem exec_windowClose_full {k : Hub} (hp : part.toNat < 24)
    (hfull : 2 ^ s.hub.get (Reg.dewTagWindowLog2 part.toNat tag.toNat) ≤ s.hub.get (Reg.dewStatCount part.toNat tag.toNat))
    (hclose : s.hub.dewClose (s.tagBound part.toNat tag.toNat) part.toNat tag.toNat = k) :
    exec (.windowClose part tag) s = .next { s with hub := k } := by
  rw [exec_windowClose, execWindowClose, if_pos ⟨hp, decide_eq_true hfull⟩, ← hclose]
  rfl

end

/-- Windows: each clause by the lemma on its command. -/
theorem windowsCountCloseAndTrip : WindowsCountCloseAndTrip := by
  intro s part tag x rest a b hp p t win size full crosses action closed
  refine ⟨fun hq => ?_, fun hq => ?_, fun hq hpart htag hfull hcount => ?_, exec_windowClose_of_not_full, fun hfull hx ha hb => ?_⟩
  · rw [exec_dewpointRecompute, execDewpointRecompute, if_pos rfl, hq]
  · rw [exec_dewpointRecompute, execDewpointRecompute, if_neg (by decide), hq]
  · have hp' : p < 24 := hp
    clear_value p t
    subst hpart htag
    exact ⟨_, exec_dewpointRecompute_sample hq hp' hfull, rfl, Hub.dewAdded_count hcount, Hub.dewAdded_win _ x,
      fun g hg => Hub.dewAdded_get_ne _ (hg _ (List.mem_singleton_self _)), rfl, rfl⟩
  · have hclose := Hub.dewClose_eq (fun _ _ he => by rw [he] at hx; cases hx) ha hb (s.tagBound p t)
    have ha := f64unit_lt ha
    have hb := f64unit_lt hb
    refine ⟨fun hcross => ?_, fun hcross hmig => ?_⟩
    · rw [if_neg hcross] at hclose
      generalize hk : (s.hub.dewMeasured p t a b).dewRestart p t = k at hclose
      obtain ⟨⟨hrms, hmax, hcount, hwin⟩, hregs⟩ := Hub.dewMeasured_dewRestart ha hb hk
      exact ⟨_, exec_windowClose_full hp hfull hclose, ⟨hrms, hmax, hcount, hwin, rfl, rfl⟩, hregs⟩
    · rw [if_pos hcross] at hclose
      generalize hk : ((s.hub.dewMeasured p t a b).dewTrip (s.tagBound p t) p t).dewRestart p t = k at hclose
      obtain ⟨⟨hrms, hmax, hcount, hwin⟩, hregs⟩ := Hub.dewTrip_dewRestart ha hb hk hp tag.isLt hmig
      exact ⟨_, exec_windowClose_full hp hfull hclose, ⟨hrms, hmax, hcount, hwin, rfl, rfl⟩, hregs⟩

-- Migrations

section
variable {s : State} {part : BitVec 5} {tag : BitVec 8}

theorem exec_migrationStart_eq {f : Hub → Hub} (hstart : s.hub.migStart part.toNat = f s.hub) :
    exec (.migrationStart part) s = .next (s.onHub f) :=
  (exec_migrationStart part s).trans (congrArg Host.Outcome.next (State.onHub_congr hstart))

theorem exec_migrationGroupDone_stopped (hrun : s.hub.dew.running.contains (part.toNat, tag.toNat) = false) :
    exec (.migrationGroupDone part tag) s = .next s :=
  if_neg fun ⟨_, h, _⟩ => Bool.false_ne_true (hrun.symm.trans h)

theorem exec_migrationComplete_stopped (hrun : s.hub.dew.running.contains (part.toNat, tag.toNat) = false) :
    exec (.migrationComplete part tag) s = .next s :=
  if_neg fun ⟨_, h, _⟩ => Bool.false_ne_true (hrun.symm.trans h)

theorem exec_migrationGroupDone_running (hp : part.toNat < 24) (hrun : s.hub.dew.running.contains (part.toNat, tag.toNat) = true)
    (hfree : s.hub.migStuck part.toNat tag.toNat = false)
    (hlt : s.hub.get (Reg.dewTagFrontier part.toNat tag.toNat) < s.hub.get (Reg.dewTagGroups part.toNat tag.toNat)) :
    exec (.migrationGroupDone part tag) s = .next (s.migGroup part.toNat tag.toNat) :=
  if_pos ⟨hp, hrun, by rw [hfree]; rfl, hlt⟩

/-- Where no site holds a request, the end of a migration lets none run on. -/
theorem exec_migrationComplete_running (hp : part.toNat < 24) (hsites : s.hub.sites = [])
    (hrun : s.hub.dew.running.contains (part.toNat, tag.toNat) = true)
    (hle : s.hub.get (Reg.dewTagGroups part.toNat tag.toNat) ≤ s.hub.get (Reg.dewTagFrontier part.toNat tag.toNat)) :
    exec (.migrationComplete part tag) s = .next (s.onHub (·.migEnded part.toNat tag.toNat)) := by
  have hended : (s.onHub (·.migEnded part.toNat tag.toNat)).hub.sites = [] := (s.hub.migEnded_sites _ _).trans hsites
  refine (if_pos ⟨hp, hrun, hle⟩ : execMigrationComplete part tag s = _).trans ?_
  exact congrArg Host.Outcome.next (State.engAgain_of_noSites hended _)

-- Halts and counters

theorem exec_haltedClear_pf (hp : part.toNat < 24) (hon : s.hub.get (Reg.dewTagHalted part.toNat tag.toNat) ≠ 0) :
    exec (.haltedClear 0 part tag) s = .next ((s.wroteBy 0).onHub
      (fun h => (h.set (Reg.dewTagHalted part.toNat tag.toNat) 0).dewRestart part.toNat tag.toNat)) :=
  congrArg Host.Outcome.next (State.onHub_congr (if_pos ⟨hp, decide_eq_true hon⟩))

theorem exec_haltedClear_pf_off (hoff : s.hub.get (Reg.dewTagHalted part.toNat tag.toNat) = 0) :
    exec (.haltedClear 0 part tag) s = .next (s.wroteBy 0) :=
  congrArg Host.Outcome.next (State.onHub_congr (g := id) (if_neg fun h => absurd hoff (of_decide_eq_true h.2)))

theorem exec_dewCounterClear_pf (hp : part.toNat < 24) :
    exec (.dewCounterClear 0 part tag) s = .next ((s.wroteBy 0).onHub (·.dewClear part.toNat tag.toNat)) :=
  congrArg Host.Outcome.next (State.onHub_congr (if_pos hp))

/-- A function whose writes of tags are ignored changes none. -/
theorem exec_clears_muted {fn : BitVec 6} (hmute : s.hub.tagPart fn.toNat part.toNat = 31) :
    exec (.dewCounterClear fn part tag) s = .next (s.wroteBy fn.toNat) ∧ exec (.haltedClear fn part tag) s = .next (s.wroteBy fn.toNat) := by
  have hpart : (s.wroteBy fn.toNat).hub.tagPart fn.toNat part.toNat = 31 := hmute
  constructor
  · refine congrArg Host.Outcome.next (State.onHub_congr (g := id) (if_neg ?_))
    rw [hpart]
    decide
  · refine congrArg Host.Outcome.next (State.onHub_congr (g := id) (if_neg fun h => ?_))
    rw [hpart] at h
    exact absurd h.1 (by decide)

end

/-- Migrations: each clause by the lemma on its command. -/
theorem migrationsRewriteGroupByGroup : MigrationsRewriteGroupByGroup := by
  intro s part tag fn f t l d u v hp htag hsites
  subst htag
  refine ⟨fun hfind hlt hnext => ?_, fun hfull => exec_migrationStart_eq (f := id) (Hub.migStart_of_full hfull),
    fun hrun hfree hlt hmax hread hwrite => ?_,
    fun hrun => ⟨exec_migrationGroupDone_stopped hrun, exec_migrationComplete_stopped hrun⟩, fun hrun hle => ?_, fun hon => ?_,
    exec_haltedClear_pf_off, ?_, fun _ => exec_clears_muted⟩
  · have hread {g : Fld} {n : Nat} (hm : (g, n) ∈ migStartFlds part.toNat tag.toNat f) := s.hub.migStarted_get hm
    exact ⟨_, exec_migrationStart_eq (f := (·.migStarted part.toNat tag.toNat f)) (Hub.migStart_eq hfind hlt hnext),
      hread (n := 1) (by simp [migStartFlds]), hread (n := 0) (by simp [migStartFlds]), hread (n := f) (by simp [migStartFlds]), rfl, rfl,
      fun g hg => s.hub.migStarted_get_ne f hg, rfl⟩
  · obtain ⟨w, m, n, k, hsame, heq⟩ := State.migGroup_eq hsites hread hwrite
    refine ⟨_, exec_migrationGroupDone_running hp hrun hfree hlt, ?_⟩
    rw [heq]
    exact ⟨Hub.migCounted_frontier _ _ _ _ _ _ _ _ hmax,
      (Hub.migCounted_migrating _ _ _ _ _ _ _ _ _).trans (hsame.hub.get _ (aboveBit64_dewTagMigrating _ _)), hsame.pending⟩
  · exact ⟨_, exec_migrationComplete_running hp hsites hrun hle, Hub.migEnded_fmt _ _ _, Hub.migEnded_migrating _ _ _,
      Hub.migEnded_promoted _ _ _, Hub.migEnded_count _ _ _, Hub.migEnded_running _ _ _, State.onHub_mem _ _,
      State.onHub_pending _ _⟩
  · refine ⟨_, exec_haltedClear_pf hp hon, ?_, Hub.dewRestart_count _ _ _, fun g hg => ?_, rfl, rfl⟩
    · exact (Hub.dewRestart_get_ne _ _ _ (Fld.key_ne_of_lo rfl)).trans (Hub.get_set_same _ _ _)
    · simp only [List.forall_mem_cons] at hg
      obtain ⟨hhalted, hcount, -⟩ := hg
      exact (Hub.dewRestart_get_ne _ _ _ hcount).trans (Hub.get_set_ne _ _ hhalted)
  · exact ⟨_, exec_dewCounterClear_pf hp, fun g hg => Hub.dewClear_get _ hg, fun g hg => Hub.dewClear_get_ne _ hg, rfl, rfl⟩

/-- Settles O30: windows and migrations each by the equation of the command; what a group's accesses write of the hub, counts, events and
records, starts below MIGRATING in its register. -/
theorem dewpointWindowsAndMigrations : Obligations.DewpointWindowsAndMigrations := ⟨windowsCountCloseAndTrip, migrationsRewriteGroupByGroup⟩

end Sys2Proof.Machine
end

section
/-! The statement on Drift streams opened, moved and closed (10): O35 refuted. -/

namespace Sys2Proof.Machine

open Sys2Proof Claims

/-- Stream 0 of the PF is IDLE, and the register file's entry for the PF's 16-bit field DRF_PART_LIMIT.OPEN is 2^16 + 1. -/
def wideOpenState : State :=
  State.reset.onHub fun h =>
    { h with regs := [((Reg.drfPartLimitOpen 24).key, 2 ^ 16 + 1), ((Reg.drfStreamStatusState 0).key, 1)] }

/-- A STREAM_CLOSE of zeros, which names stream 0. -/
def closeStreamZero : QCmd := ⟨0, 0, 0, 0⟩

theorem qf_closeStreamZero : qf closeStreamZero 0x18 2 = 0 := by
  rw [qf, show closeStreamZero.raw.toNat = 0 from BitVec.toNat_zero, bits, Nat.zero_div, Nat.zero_mod]

/-- Stream 0 is open, and its owner is the PF. -/
theorem stream_wideOpenState :
    wideOpenState.hub.get (Reg.drfStreamStatusState 0) = 1 ∧ wideOpenState.hub.get (Reg.drfStreamStatusPartition 0) = 31 := by
  decide

theorem get_open_wideOpenState : wideOpenState.hub.get (Reg.drfPartLimitOpen 24) = 2 ^ 16 + 1 := by decide

/-- The close writes OPEN one lower, 2^16, of which the field keeps the low 16 bits. -/
theorem get_open_streamClosed_wideOpenState : (wideOpenState.hub.streamClosed 0).get (Reg.drfPartLimitOpen 24) = 0 := by decide

/-- Refutes O35: the statement quantifies over every state and bounds DRF_PART_LIMIT.OPEN where a stream opens, but not where one closes. In a
state whose register file holds 2^16 + 1 for that 16-bit field, closing a stream of the PF writes 2^16 reduced to the field's width, which is 0
and not one less than before. -/
theorem not_streamsAreOpenedMovedAndClosed : ¬ Obligations.StreamsAreOpenedMovedAndClosed := by
  unfold Obligations.StreamsAreOpenedMovedAndClosed
  rintro ⟨hopened, -⟩
  obtain ⟨-, -, -, -, -, -, -, -, -, -, hclosed⟩ := hopened closeStreamZero wideOpenState 0 0 0
  rw [qf_closeStreamZero] at hclosed
  obtain ⟨hstate, hpart⟩ := stream_wideOpenState
  have hopen : wideOpenState.hub.get (Reg.drfStreamStatusState 0) ≠ 0 := by rw [hstate]; decide
  obtain ⟨-, -, hcount, -⟩ := hclosed (by decide) hopen hpart
  rw [get_open_streamClosed_wideOpenState, get_open_wideOpenState] at hcount
  exact absurd hcount (by decide)

end Sys2Proof.Machine
end

section
/-! SUPPORT. What interrupts, events and records leave of translation (11), and the TLBs. -/

namespace Sys2Proof.Machine

open Sys2Proof

-- Records and events leave the walks, the faults and the TLBs

@[simp] theorem Hub.msix_xlt (h : Hub) (fn e : Nat) : (h.msix fn e).xlt = h.xlt := by
  unfold Hub.msix
  split_ifs <;> rfl

@[simp] theorem Hub.emcy_xlt (h : Hub) (code mor : Nat) : (h.emcy code mor).xlt = h.xlt := by
  unfold Hub.emcy
  split_ifs <;> rfl

@[simp] theorem Hub.event_xlt (h : Hub) (f : Fld) : (h.event f).xlt = h.xlt := by
  unfold Hub.event
  extract_lets k
  split_ifs
  exacts [k.msix_xlt _ _, rfl]

@[simp] theorem Hub.raiseVf_xlt (h : Hub) (p e : Nat) : (h.raiseVf p e).xlt = h.xlt :=
  overList_rel (R := fun k l => l.xlt = k.xlt) (fun _ => rfl) (fun {x y z} (a : y.xlt = x.xlt) (b : z.xlt = y.xlt) => b.trans a)
    (fun v k => k.msix_xlt v e) _ h

@[simp] theorem Hub.aerCor_xlt (h : Hub) (fn bit : Nat) : (h.aerCor fn bit).xlt = h.xlt := by
  unfold Hub.aerCor
  extract_lets
  split_ifs <;> rfl

@[simp] theorem Hub.aerUnc_xlt (h : Hub) (fn bit : Nat) : (h.aerUnc fn bit).xlt = h.xlt := by
  unfold Hub.aerUnc
  extract_lets
  split_ifs <;> rfl

@[simp] theorem Hub.announce_xlt (h : Hub) (x : RecIn) : (h.announce x).xlt = h.xlt := by
  unfold Hub.announce
  extract_lets k l m
  have hk : k.xlt = h.xlt := by
    unfold k
    split_ifs <;> simp
  have hl : l.xlt = k.xlt := by
    unfold l
    split_ifs <;> simp
  have hm : m.xlt = l.xlt := by
    unfold m
    split_ifs <;> simp
  rw [← hk, ← hl, ← hm]
  split_ifs <;> simp

@[simp] theorem Hub.record_xlt (h : Hub) (x : RecIn) : (h.record x).xlt = h.xlt := by
  unfold Hub.record
  extract_lets t k
  have hput (j : Nat) : ((k.morPut x t j).announce x).xlt = h.xlt := Hub.announce_xlt _ x
  have hlost : (((k.count Reg.morLostCount 1).event Reg.morEventLost).announce x).xlt = h.xlt := by simp [k, Hub.now]
  split
  · split_ifs
    · rfl
    · split
      exacts [hput _, hlost]
  · split
    exacts [hput _, hlost]

-- TLBs (R260)

/-- An entry put in a TLB is the one that the TLB then gives for an address that it covers. -/
theorem Hub.tlbGet_tlbPut_same (h : Hub) {e : TlbEntry} (cap : Nat) {asid va : Nat} (hcov : e.covers asid va = true) :
    (h.tlbPut e cap).tlbGet e.tlb asid va = some e :=
  List.find?_cons_of_pos (by simp [hcov])

/-- An entry put in one TLB leaves what every other gives. -/
theorem Hub.tlbGet_tlbPut_ne (h : Hub) {e : TlbEntry} (cap : Nat) {tlb : Nat} (hne : tlb ≠ e.tlb) (asid va : Nat) :
    (h.tlbPut e cap).tlbGet tlb asid va = h.tlbGet tlb asid va := by
  have hput : ((e :: (h.xlt.tlbs.filter (fun x => decide (x.tlb = e.tlb) && !x.covers e.asid e.va)).take (cap - 1)).find?
      (fun x => decide (x.tlb = tlb) && x.covers asid va)) = none := by
    rw [List.find?_eq_none]
    intro x hx
    have hx : x.tlb = e.tlb := by
      rcases List.mem_cons.mp hx with rfl | hx
      · rfl
      · have hmem := List.mem_of_mem_take hx
        simp only [List.mem_filter, Bool.and_eq_true, decide_eq_true_eq] at hmem
        exact hmem.2.1
    simp [hx, hne.symm]
  unfold Hub.tlbGet Hub.tlbPut
  rw [List.find?_append, hput, Option.none_or, List.find?_filter]
  congr 1
  funext x
  by_cases hx : x.tlb = tlb <;> simp [hx, hne]

end Sys2Proof.Machine
end

section
/-! SUPPORT. Translation (11): what an entry means to a walk, a table read that hits in Firn, the fault that an access opens, the walk
that a miss begins, and what a page's translation then gives. -/

namespace Sys2Proof.Machine

open Sys2Proof Claims

-- Lowest indices

theorem findFrom_some {n i k : Nat} {p : Nat → Bool} (h : findFrom n i p = some k) : p k = true := by
  induction n generalizing i with
  | zero => cases h
  | succ n ih =>
    rw [findFrom] at h
    split_ifs at h with hp
    · cases h
      exact hp
    · exact ih h

theorem findFrom_congr {n i : Nat} {p q : Nat → Bool} (h : ∀ j, j < i + n → p j = q j) : findFrom n i p = findFrom n i q := by
  induction n generalizing i with
  | zero => rfl
  | succ n ih => rw [findFrom, findFrom, h i (by omega), ih fun j hj => h j (by omega)]

theorem findLow_congr {n : Nat} {p q : Nat → Bool} (h : ∀ j < n, p j = q j) : findLow n p = findLow n q :=
  findFrom_congr fun j hj => h j (by omega)

-- The meaning of an entry (R253-R258)

/-- The rules of R255 by the bits of the entry. -/
theorem malformed_iff (e level va : Nat) :
    malformed e level va = true ↔
      bits e 6 6 ≠ 0 ∨ bits e 56 8 ≠ 0 ∨ (e.testBit 1 = true ∧ level = 3) ∨ (e.testBit 1 = false ∧ level = 0)
        ∨ (e.testBit 1 = true ∧ e.testBit 5 = true ∧ level = 2) ∨ (e.testBit 1 = true ∧ bits e 12 (16 + 9 * level - 12) ≠ 0)
        ∨ (e.testBit 1 = false ∧ bits e 2 4 ≠ 0)
        ∨ (e.testBit 1 = true ∧ e.testBit 5 = true ∧ bits e (16 + 9 * level) 4 ≠ bits va (16 + 9 * level) 4) := by
  have hbit (i : Nat) : bitAt e i = e.testBit i := Nat.testBit_eq_decide_div_mod_eq.symm
  unfold malformed
  extract_lets lo
  rw [hbit, hbit]
  by_cases hreserved : bits e 6 6 ≠ 0 ∨ bits e 56 8 ≠ 0
  · rw [if_pos hreserved]
    tauto
  · rw [if_neg hreserved]
    cases e.testBit 1 <;> simp <;> tauto

theorem Hub.judge_eq (h : Hub) (p va level need e ea : Nat) :
    h.judge p va level need e ea =
      if e.testBit 0 = false then .fault 0x01 level e ea
      else if malformed e level va = true then .fault 0x03 level e ea
      else if e.testBit 1 = false then .table (bits e 12 36 * 4096)
      else if (bits e 2 3 &&& need) ≠ need then .fault 0x02 level e ea
      else
        let log2 := if e.testBit 5 then 16 + 9 * level + 4 else 16 + 9 * level
        let out := bits e (16 + 9 * level) (48 - (16 + 9 * level)) * 2 ^ (16 + 9 * level)
        if h.spanOk p level (out - out % 2 ^ log2) log2 = false then .fault 0x04 level e ea
        else .leaf (out - out % 2 ^ log2) log2 (bits e 2 3) e := by
  have hbit (i : Nat) : bitAt e i = e.testBit i := Nat.testBit_eq_decide_div_mod_eq.symm
  have hbase (a n : Nat) : a / n * n = a - a % n := Nat.eq_sub_of_add_eq (Nat.div_add_mod' a n)
  simp only [Hub.judge, hbit, hbase, Bool.not_eq_eq_eq_not, Bool.not_true]

/-- An entry that ends a walk in a translation carries the rights that the access needs. -/
theorem Hub.rights_of_judge {h : Hub} {p va level need e ea out log2 rights e' : Nat}
    (hj : h.judge p va level need e ea = .leaf out log2 rights e') : rights &&& need = need := by
  simp only [Hub.judge_eq] at hj
  split_ifs at hj with _ _ _ hlacks
  all_goals
    cases hj
    exact not_not.mp hlacks

-- A table read that hits in Firn (R214, R253): the hub counts a hit, and what an entry means does not turn on the count

/-- The key of a field that no slice counts its hits in. -/
def NotHitCount (k : Nat) : Prop := k % (2 ^ 32 * 2048) ≠ (Reg.frnPerfHitCount 0).key

/-- Floes are numbered below 512 wherever the address map names one. -/
theorem Hub.region_floe_lt {h : Hub} {a f n : Nat} (hr : h.region a = .floeMem f n ∨ h.region a = .event f n) : f < 512 := by
  have hdies : h.dies ≤ 2 := by unfold Hub.dies; split_ifs <;> omega
  unfold Hub.region at hr
  dsimp only at hr
  rcases hr with hr | hr
  all_goals
    split_ifs at hr
    all_goals cases hr
    all_goals omega

theorem Hub.spanFloes_lt {h : Hub} {a log2 : Nat} {l : List Nat} (hl : h.spanFloes a log2 = some l) : ∀ f ∈ l, f < 512 := by
  unfold Hub.spanFloes at hl
  dsimp only at hl
  split at hl
  · next ha hb =>
    have hf := Hub.region_floe_lt (.inl ha)
    have hg := Hub.region_floe_lt (.inl hb)
    cases hl
    simp only [List.mem_map, List.mem_range]
    omega
  · next ha hb =>
    have hf := Hub.region_floe_lt (.inr ha)
    have hg := Hub.region_floe_lt (.inr hb)
    cases hl
    simp only [List.mem_map, List.mem_range]
    omega
  · cases hl

section
variable {h k : Hub} (e : h.SameOn NotHitCount k)
include e

theorem Hub.SameOn.dies_eq : k.dies = h.dies := by
  unfold Hub.dies Hub.on
  rw [e.get _ (by simp only [NotHitCount, Fld.key, Reg.glbRevTwin, Reg.frnPerfHitCount]; omega)]

theorem Hub.SameOn.region_eq (a : Nat) : k.region a = h.region a := by
  unfold Hub.region
  rw [e.dies_eq]

theorem Hub.SameOn.holds_eq (p : Nat) : k.holds p = h.holds p := by
  by_cases hp : p < 24
  · have hexist : k.get (Reg.prtCfgExist p) = h.get (Reg.prtCfgExist p) :=
      e.get _ (by simp only [NotHitCount, Fld.key, Reg.prtCfgExist, Reg.frnPerfHitCount]; omega)
    have hstate : k.get (Reg.prtStatusState p) = h.get (Reg.prtStatusState p) :=
      e.get _ (by simp only [NotHitCount, Fld.key, Reg.prtStatusState, Reg.frnPerfHitCount]; omega)
    unfold Hub.holds Hub.partExists Hub.partState Hub.on
    rw [hexist, hstate]
  · simp [Hub.holds, Hub.partExists, hp]

theorem Hub.SameOn.halfOwner_eq (n : Nat) : k.halfOwner n = h.halfOwner n := by
  unfold Hub.halfOwner
  refine congrArg (·.getD 31) (findLow_congr fun p hp => ?_)
  rw [e.holds_eq, e.get _ (by simp only [NotHitCount, Fld.key, Reg.prtHalvesMap, Reg.frnPerfHitCount]; omega)]

theorem Hub.SameOn.floeOwner_eq {n : Nat} (hn : n < 512) : k.floeOwner n = h.floeOwner n := by
  unfold Hub.floeOwner
  refine congrArg (·.getD 31) (findLow_congr fun p hp => ?_)
  rw [e.holds_eq, e.get _ (by simp only [NotHitCount, Fld.key, Reg.prtFloesMap, Reg.frnPerfHitCount]; omega)]

theorem Hub.SameOn.spanFloes_eq (a log2 : Nat) : k.spanFloes a log2 = h.spanFloes a log2 := by
  simp only [Hub.spanFloes, e.region_eq]

theorem Hub.SameOn.spanOk_eq (p level a log2 : Nat) : k.spanOk p level a log2 = h.spanOk p level a log2 := by
  simp only [Hub.spanOk, e.region_eq, e.spanFloes_eq, e.halfOwner_eq]
  cases hl : h.spanFloes a log2 with
  | none => rfl
  | some l =>
    have hall : l.all (fun f => decide (k.floeOwner f = p)) = l.all (fun f => decide (h.floeOwner f = p)) := by
      rw [Bool.eq_iff_iff, List.all_eq_true, List.all_eq_true]
      exact forall₂_congr fun f hf => by rw [e.floeOwner_eq (Hub.spanFloes_lt hl f hf)]
    simp only [hall]

theorem Hub.SameOn.judge_eq (p va level need entry ea : Nat) : k.judge p va level need entry ea = h.judge p va level need entry ea := by
  simp only [Hub.judge, e.spanOk_eq]

end

theorem State.firnCount_hit_sameOn (s : State) (line : Nat) : s.hub.SameOn NotHitCount (s.firnCount line true).hub :=
  s.hub.set_sameOn (fun hn => hn (by simp only [Fld.key, Reg.frnPerfHitCount, if_true]; omega)) _

/-- Where nothing is open on a line, nothing is applied to it. -/
theorem State.settle_of_lineFree {s : State} {line : Nat} (hfree : LineFree s line) : s.settle line = s := by
  obtain ⟨hmiss, hevict, hwait⟩ := hfree
  rw [List.find?_eq_none] at hmiss hevict
  rw [List.any_eq_false] at hwait
  have hreqs : s.mem.onLine line = [] := by
    rw [Memory.onLine, List.filter_eq_nil_iff.mpr hmiss, List.filter_eq_nil_iff.mpr hevict, List.filter_eq_nil_iff.mpr hwait]
    rfl
  have hclose : s.mem.closeEvicts line = s.mem := by
    unfold Memory.closeEvicts
    rw [List.filter_eq_nil_iff.mpr hevict]
    dsimp only [List.foldl_nil]
    rw [List.filter_eq_self.mpr (by simpa using hevict)]
  unfold State.settle
  rw [hreqs, hclose]
  dsimp only
  rw [List.filter_eq_self.mpr (by simpa using hmiss), List.filter_eq_self.mpr (by simpa using hwait)]
  rfl

/-- A read of an aligned doubleword of a line that Firn holds whole: its data, the poison of its sector, and a hit counted. -/
theorem State.readPiece_of_heldLine {s : State} {a : Nat} {l : FirnLine} (hl : HeldLine s a l) (ha : a % 8 = 0) (p : Nat) (alloc : Bool) :
    s.readPiece (.part p) a 8 alloc =
      ⟨0, bits l.data (8 * (a % 128)) 64, b2n (l.poison.testBit (a % 128 / 32)), s.firnCount (a / 128) true⟩ := by
  obtain ⟨hregion, hkind, hdomain, hfree, hline, hvalid, -⟩ := hl
  have hone : (a % 128 % 32 + 8 + 31) / 32 = 1 := by omega
  have hmask : ((List.range 1).map (fun i => 2 ^ (a % 128 / 32 + i))).sum = 2 ^ (a % 128 / 32) := by simp
  have hread : s.lineRead (a / 128) (2 ^ (a % 128 / 32)) alloc = (l.data, l.poison, s.firnCount (a / 128) true) := by
    simp [State.lineRead, hline, hvalid]
  have hbad : bits (l.poison &&& 2 ^ (a % 128 / 32)) (a % 128 / 32) 4 = b2n (l.poison.testBit (a % 128 / 32)) := by
    rw [bits, Nat.and_two_pow, Nat.mul_div_cancel _ (Nat.two_pow_pos _)]
    cases l.poison.testBit (a % 128 / 32) <;> rfl
  unfold State.readPiece
  rw [hregion]
  dsimp only
  rw [hkind]
  dsimp only
  rw [hdomain]
  simp only [State.stackRead, State.settle_of_lineFree hfree, hone, hmask, hread, hbad]

section
variable {s : State} {p va level need t ea : Nat} {l : FirnLine}

/-- A table read of a sound entry says what the entry means. -/
theorem State.walkRead_of_sound (hea : ea = t + 8 * bits va (16 + 9 * level) 9) (hok : s.hub.tableOk p ea = true) (hl : HeldLine s ea l)
    (ha : ea % 8 = 0) (hsound : l.poison.testBit (ea % 128 / 32) = false) :
    s.walkRead p va level need t = (s.hub.judge p va level need (bits l.data (8 * (ea % 128)) 64) ea, s.firnCount (ea / 128) true) := by
  unfold State.walkRead
  rw [← hea, if_pos hok]
  simp only [State.readPiece_of_heldLine hl ha, hsound, (s.firnCount_hit_sameOn _).judge_eq]
  rfl

theorem State.walkRead_of_poisoned (hea : ea = t + 8 * bits va (16 + 9 * level) 9) (hok : s.hub.tableOk p ea = true) (hl : HeldLine s ea l)
    (ha : ea % 8 = 0) (hbad : l.poison.testBit (ea % 128 / 32) = true) :
    s.walkRead p va level need t = (.fault 0x07 level 0 ea, s.firnCount (ea / 128) true) := by
  unfold State.walkRead
  rw [← hea, if_pos hok]
  simp only [State.readPiece_of_heldLine hl ha, hbad]
  rfl

theorem State.walkRead_of_foreign (hea : ea = t + 8 * bits va (16 + 9 * level) 9) (hforeign : s.hub.tableOk p ea = false) :
    s.walkRead p va level need t = (.fault 0x04 level 0 0, s) := by
  unfold State.walkRead
  rw [← hea, if_neg (by simp [hforeign])]

end

-- The fault that an access opens (R267-R269)

theorem map_replace_last {α : Type} [DecidableEq α] {l : List α} {a b : α} (ha : a ∉ l) :
    (l ++ [a]).map (fun y => if y = a then b else y) = l ++ [b] := by
  have hl : l.map (fun y => if y = a then b else y) = l :=
    (List.map_congr_left fun y hy => if_neg (ne_of_mem_of_not_mem hy ha)).trans (List.map_id' l)
  rw [List.map_append, hl, List.map_singleton, if_pos rfl]

/-- The slot that a die gives to a fault holds none. -/
theorem Hub.faultSlot_free {h : Hub} {d k : Nat} (hk : h.faultSlot d = some k) : ∀ f ∈ h.xlt.faults, ¬ (f.die = d ∧ f.slot = k) := by
  have hfree := findFrom_some hk
  simpa using hfree

/-- A fault's record with the first access parked under it. -/
def Fault11.first (x : XAcc) (f : Fault11) : Fault11 :=
  { f with flags := f.flags ||| x.acc.flag, parked := 1, engines := if x.master.kind = 1 then f.engines ||| 2 ^ (x.master.port % 64) else f.engines }

/-- The fault that an access opens, before the access is parked. -/
def Hub.newFault (h : Hub) (x : XAcc) (k cause level entry ea : Nat) : Fault11 :=
  ⟨x.die, k, (tget 0 h.xlt.gens (512 * x.die + k) + 1) % 2 ^ 22, x.part, x.asid, pageOf x.va, cause, level, x.master, x.va, entry,
    ea, 0, 0, 0, false, false⟩

/-- What the opening of a fault leaves of translation. -/
def Hub.faultXlt (h : Hub) (x : XAcc) (k cause level entry ea : Nat) : Xlt :=
  { (h.tlbDrop x).xlt with
    faults := h.xlt.faults ++ [(h.newFault x k cause level entry ea).first x]
    parked := h.xlt.parked ++ [⟨x.die, k, x.master, x.va, x.acc, x.who⟩]
    gens := tset 0 h.xlt.gens (512 * x.die + k) (h.newFault x k cause level entry ea).gen }

theorem Hub.parkUnder_xlt_of_new {h : Hub} {f : Fault11} {l : List Fault11} (x : XAcc) (hl : h.xlt.faults = l ++ [f]) (hf : f ∉ l)
    (hparked : f.parked = 0) (hwritten : f.written = false) (hpending : f.pendingRec = false) :
    (h.parkUnder f x).xlt =
      { h.xlt with faults := l ++ [f.first x], parked := h.xlt.parked ++ [⟨x.die, f.slot, x.master, x.va, x.acc, x.who⟩] } := by
  have hnew : ¬ (f.written = true ∨ f.pendingRec = true) := by simp [hwritten, hpending]
  have hone : f.parked + 1 = 1 := by rw [hparked]
  simp only [Hub.parkUnder, hl, map_replace_last hf, if_neg hnew, hone]
  rfl

/-- What an access that opens a fault leaves: its table read poisoned, a record and an event follow. -/
theorem Hub.openFault_eq {h : Hub} {x : XAcc} {k : Nat} (hmay : MayOpen h x k) (cause level entry ea : Nat) :
    ∃ (q : Hub) (r : RecIn), q.xlt = h.faultXlt x k cause level entry ea ∧
      h.openFault x cause level entry ea = if cause = 0x07 then (q.record r).event Reg.xltEventTablePoison else q := by
  obtain ⟨hjoin, hroom, hslot⟩ := hmay
  have hnew : h.newFault x k cause level entry ea ∉ h.xlt.faults := fun hmem => Hub.faultSlot_free hslot _ hmem ⟨rfl, rfl⟩
  unfold Hub.openFault
  extract_lets d
  have hroom : ¬ 512 ≤ d.parkedIn x.die := not_le.mpr hroom
  have hjoin : d.faultFor x = none := hjoin
  have hslot : d.faultSlot x.die = some k := hslot
  rw [if_neg hroom, hjoin, hslot]
  exact ⟨_, _, Hub.parkUnder_xlt_of_new x (l := h.xlt.faults) rfl hnew rfl rfl rfl, rfl⟩

theorem Hub.openFault_xlt {h : Hub} {x : XAcc} {k : Nat} (hmay : MayOpen h x k) (cause level entry ea : Nat) :
    (h.openFault x cause level entry ea).xlt = h.faultXlt x k cause level entry ea := by
  obtain ⟨q, r, hq, hopen⟩ := Hub.openFault_eq hmay cause level entry ea
  rw [hopen]
  split_ifs
  · rw [Hub.event_xlt, Hub.record_xlt, hq]
  · exact hq

theorem Hub.openFault_tablePoison {h : Hub} {x : XAcc} {k : Nat} (hmay : MayOpen h x k) (level entry ea : Nat) :
    (h.openFault x 0x07 level entry ea).get Reg.xltEventTablePoison = 1 := by
  obtain ⟨q, r, -, hopen⟩ := Hub.openFault_eq hmay 0x07 level entry ea
  rw [hopen, if_pos rfl]
  exact Hub.event_get_same _ (by decide)

/-- An access may open a fault wherever the faults and the parked accesses are the same. -/
theorem mayOpen_congr {h k : Hub} {x : XAcc} {n : Nat} (hmay : MayOpen h x n) (hfaults : k.xlt.faults = h.xlt.faults)
    (hparked : k.xlt.parked = h.xlt.parked) : MayOpen k x n := by
  unfold MayOpen Hub.faultFor Hub.parkedIn Hub.faultSlot
  rw [hfaults, hparked]
  exact hmay

/-- Where the faults, the parked accesses and the TLBs are those of `s`, an access opens the fault that it may open in `s`. -/
theorem opensFault_openFault {s u : State} {x : XAcc} {k : Nat} (hmay : MayOpen s.hub x k) (hfaults : u.hub.xlt.faults = s.hub.xlt.faults)
    (hparked : u.hub.xlt.parked = s.hub.xlt.parked) (htlbs : u.hub.xlt.tlbs = s.hub.xlt.tlbs) (hpending : u.pending = s.pending)
    (cause level entry ea : Nat) : OpensFault s (u.onHub (·.openFault x cause level entry ea)) x k cause level entry ea := by
  unfold OpensFault
  rw [State.onHub_hub, State.onHub_pending, Hub.openFault_xlt (mayOpen_congr hmay hfaults hparked), ← hfaults, ← hparked, ← htlbs]
  refine ⟨?_, ?_, rfl, fun e he => ?_, hpending⟩
  · simp only [Hub.faultXlt, List.map_append]
    rfl
  · simp only [Hub.faultXlt, List.getLast?_concat]
    rfl
  · obtain ⟨hmem, hdrop⟩ := List.mem_filter.mp he
    exact ⟨hmem, by simpa [← not_or, imp_iff_not_or] using hdrop⟩

-- A miss goes to a walker (R253, R261)

section
variable {h : Hub} {x : XAcc}

/-- The access finds no translation, no open fault on its page, and no access held at its port. -/
def Hub.Misses (h : Hub) (x : XAcc) : Prop :=
  (h.portHeld x = false ∧ h.faultFor x = none)
    ∧ ¬ (x.va < 2 ^ 52 ∧ ((h.tlbGet x.utlb x.asid x.va).isSome ∨ (h.tlbGet x.stlb x.asid x.va).isSome))

/-- A miss of the shared TLB is counted. -/
def Hub.missed (h : Hub) (x : XAcc) : Hub := h.wrap (Reg.xltPerfStlbMissCount x.die) 1

theorem Hub.walkStart_of_fault {f : Fault11} (hheld : h.portHeld x = false) (hf : h.faultFor x = some f) (hroom : h.parkedIn x.die < 512) :
    h.walkStart x = h.parkUnder f x := by
  unfold Hub.walkStart
  rw [hheld, hf]
  exact if_neg (not_le.mpr hroom)

theorem Hub.Misses.not_hit (hmiss : h.Misses x) :
    ¬ (x.va / 2 ^ 52 = 0 ∧ ((h.tlbGet x.utlb x.asid x.va).isSome ∨ (h.tlbGet x.stlb x.asid x.va).isSome)) :=
  fun ⟨hva, hsome⟩ => hmiss.2 ⟨by omega, hsome⟩

theorem Hub.walkStart_of_walk {w : Walk} (hmiss : h.Misses x) (hw : h.walkFor x = some w) : h.walkStart x = (h.missed x).joinWalk w x := by
  obtain ⟨hheld, hfault⟩ := hmiss.1
  simp only [Hub.walkStart, hheld, hfault, Bool.false_eq_true, if_false, if_neg hmiss.not_hit, hw, Hub.missed]

theorem Hub.walkStart_of_noWalker (hmiss : h.Misses x) (hw : h.walkFor x = none)
    (hfull : ¬ (h.walksOf x.die < 64 ∧ h.portWalks x.die x.master.local' < 8)) : h.walkStart x = h := by
  obtain ⟨hheld, hfault⟩ := hmiss.1
  have hfull : 64 ≤ h.walksOf x.die ∨ 8 ≤ h.portWalks x.die x.master.local' := by omega
  simp only [Hub.walkStart, hheld, hfault, Bool.false_eq_true, if_false, if_neg hmiss.not_hit, hw, if_pos hfull]

theorem Hub.walkStart_of_walker (hmiss : h.Misses x) (hw : h.walkFor x = none)
    (hfree : h.walksOf x.die < 64 ∧ h.portWalks x.die x.master.local' < 8) :
    h.walkStart x =
      if x.va / 2 ^ 52 ≠ 0 then (h.missed x).openFault x 0x06 3 0 0
      else if !(h.missed x).on (Reg.xltAsValid x.asid) then (h.missed x).openFault x 0x05 3 0 0
      else (h.missed x).walkBegin x := by
  obtain ⟨hheld, hfault⟩ := hmiss.1
  have hfree : ¬ (64 ≤ h.walksOf x.die ∨ 8 ≤ h.portWalks x.die x.master.local') := by omega
  simp only [Hub.walkStart, hheld, hfault, Bool.false_eq_true, if_false, if_neg hmiss.not_hit, hw, if_neg hfree]
  rfl

/-- The count of misses leaves the table that a walk starts at. -/
theorem Hub.walkFrom_missed (die asid va : Nat) : (h.missed x).walkFrom die asid va = h.walkFrom die asid va := by
  have hroot : (h.missed x).get (Reg.xltAsRoot asid) = h.get (Reg.xltAsRoot asid) := Hub.get_set_ne _ _ (Fld.key_ne_of_lo rfl)
  unfold Hub.walkFrom
  rw [hroot]
  rfl

theorem Hub.missed_on_valid {asid : Nat} (hasid : asid < 4096) :
    (h.missed x).on (Reg.xltAsValid asid) = h.on (Reg.xltAsValid asid) := by
  unfold Hub.on
  rw [show (h.missed x).get (Reg.xltAsValid asid) = h.get (Reg.xltAsValid asid) from
    Hub.get_set_ne _ _ (by simp only [Fld.key, Reg.xltAsValid, Reg.xltPerfStlbMissCount]; omega)]

end

-- What WALK_START and TABLE_READ_RETURN do

section
variable {s : State} {die : BitVec 1}

theorem Hub.walkAcc_eq {h : Hub} {d : Nat} {r : XltReq} {x : XAcc} (hx : h.walkAcc d r = some x) :
    x.asid = r.asid.toNat ∧ x.va = r.va.toNat ∧ x.die = d ∧ x.who = .walk := by
  unfold Hub.walkAcc at hx
  dsimp only at hx
  split at hx
  · cases hx
  · split_ifs at hx
    all_goals
      cases hx
      exact ⟨rfl, rfl, rfl, rfl⟩

theorem exec_walkStart_of_none {r : XltReq} (hx : s.hub.walkAcc die.toNat r = none) : exec (.walkStart die r) s = .next s := by
  rw [show exec (.walkStart die r) s = execWalkStart die r s from rfl, execWalkStart, hx]

theorem exec_walkStart_eq {r : XltReq} {x : XAcc} {f : Hub → Hub} (hx : s.hub.walkAcc die.toNat r = some x)
    (hstart : s.hub.walkStart x = f s.hub) : exec (.walkStart die r) s = .next (s.onHub f) := by
  rw [show exec (.walkStart die r) s = execWalkStart die r s from rfl, execWalkStart, hx]
  exact congrArg Host.Outcome.next (State.onHub_congr hstart)

/-- The address of the entry that a walk reads next. -/
def Walk.entryAt (w : Walk) : Nat := w.table + 8 * bits w.va (16 + 9 * w.level) 9

/-- The walk of a page in an address space of a die. -/
def Hub.walkBack (h : Hub) (die : BitVec 1) (asid : BitVec 12) (page : BitVec 36) : Option Walk :=
  h.xlt.walks.find? (fun w => decide (w.die = die.toNat) && decide (w.asid = asid.toNat) && decide (pageOf w.va = page.toNat))

variable {asid : BitVec 12} {page : BitVec 36} {w : Walk}

theorem exec_tableReadReturn_of_none (hw : s.hub.walkBack die asid page = none) : exec (.tableReadReturn die asid page) s = .next s := by
  rw [show exec (.tableReadReturn die asid page) s = execTableReadReturn die asid page s from rfl, execTableReadReturn]
  rw [Hub.walkBack] at hw
  rw [hw]

theorem exec_tableReadReturn_of_walk (hw : s.hub.walkBack die asid page = some w) :
    exec (.tableReadReturn die asid page) s = .next (s.walkReturn w) := by
  rw [show exec (.tableReadReturn die asid page) s = execTableReadReturn die asid page s from rfl, execTableReadReturn]
  rw [Hub.walkBack] at hw
  rw [hw]

/-- A walk that a request names has a page of 36 bits, so that its address lies below 2^52 (R253). -/
theorem Hub.va_lt_of_walkBack (hw : s.hub.walkBack die asid page = some w) : w.va < 2 ^ 52 := by
  have hpage := page.isLt
  rw [Hub.walkBack] at hw
  have hfound := List.find?_some hw
  rw [Bool.and_eq_true] at hfound
  have hva : w.va / 65536 = page.toNat := of_decide_eq_true hfound.2
  omega

section
variable {u : State}

theorem State.walkReturn_of_table {t : Nat} (hstale : w.stale = false)
    (hread : s.walkRead (s.hub.get (Reg.xltAsPartition w.asid)) w.va w.level w.acc.rights w.table = (.table t, u)) :
    s.walkReturn w = u.onHub (fun h =>
      (h.cacheWalk ⟨w.die, w.asid, w.level - 1, w.va / 2 ^ (25 + 9 * (w.level - 1)), t⟩).walkOn w (w.level - 1) t) := by
  simp only [State.walkReturn, hstale, Bool.false_eq_true, if_false, hread]

theorem State.walkReturn_of_leaf {base log2 rights e : Nat} (hstale : w.stale = false) (hjoined : w.joined = [])
    (hread : s.walkRead (s.hub.get (Reg.xltAsPartition w.asid)) w.va w.level w.acc.rights w.table = (.leaf base log2 rights e, u)) :
    s.walkReturn w = (u.onHub (fun h => (h.walkEnd w).tlbInstall w.access base log2 rights w.level e w.entryAt)).xltRetry w.access := by
  simp only [State.walkReturn, hstale, Bool.false_eq_true, if_false, hread, Walk.others, hjoined, List.map_nil, List.foldl_cons,
    List.foldl_nil, Walk.entryAt]

theorem State.walkReturn_of_fault {cause level e ea : Nat} (hstale : w.stale = false) (hjoined : w.joined = [])
    (hread : s.walkRead (s.hub.get (Reg.xltAsPartition w.asid)) w.va w.level w.acc.rights w.table = (.fault cause level e ea, u)) :
    s.walkReturn w = (u.onHub (·.walkEnd w)).onHub (·.openFault w.access cause level e ea) := by
  simp only [State.walkReturn, hstale, Bool.false_eq_true, if_false, hread, State.walkFault, Walk.others, hjoined, List.map_nil,
    List.foldl_nil]
  rfl

end

/-- A stale walk of a valid address space starts again (R265). -/
theorem State.walkReturn_of_stale (hstale : w.stale = true) (hvalid : s.hub.get (Reg.xltAsValid w.asid) = 1) :
    s.walkReturn w = s.onHub (fun h => (h.wrap (Reg.xltPerfWalksCount w.die) 1).walkOn w (s.hub.walkFrom w.die w.asid w.va).1
      (s.hub.walkFrom w.die w.asid w.va).2) := by
  have hon : s.hub.on (Reg.xltAsValid w.asid) = true := by simp [Hub.on, hvalid]
  rw [State.walkReturn, if_pos hstale, if_pos hon]
  exact State.onHub_congr (by rw [Hub.walkAgain, if_pos hon])

end

-- A translation installed, and the access that walks again (R260, R273)

section
variable {x : XAcc}

/-- The entry that a walk's result makes in the port's own TLB. -/
def XAcc.leafEntry (x : XAcc) (base log2 rights level entry ea : Nat) : TlbEntry :=
  ⟨x.utlb, x.asid, x.va / 2 ^ log2 * 2 ^ log2, log2, base, rights, level, entry, ea⟩

theorem XAcc.leafEntry_covers (base log2 rights level entry ea : Nat) :
    (x.leafEntry base log2 rights level entry ea).covers x.asid x.va = true := by
  simp [TlbEntry.covers, XAcc.leafEntry]

/-- An access that its port's TLB translates, and that nothing wakes, walks again: the entry is the most recently used. -/
theorem State.xltRetry_of_tlbGet {s : State} {e : TlbEntry} (hheld : s.hub.portHeld x = false) (hfault : s.hub.faultFor x = none)
    (hva : x.va < 2 ^ 52) (hget : s.hub.tlbGet x.utlb x.asid x.va = some e) (hrights : e.rights &&& x.acc.rights = x.acc.rights)
    (hwho : x.who = .walk) : s.xltRetry x = s.onHub (·.tlbPut e 64) := by
  have hva : x.va / 2 ^ 52 = 0 := Nat.div_eq_of_lt hva
  simp only [State.xltRetry, State.translate, hheld, hfault, hva, hget, hrights, hwho, Bool.false_eq_true, if_false, if_true, ne_eq, not_true,
    State.wake]

/-- Both TLBs of the port give the installed translation once the access has used the entry of its own TLB. -/
theorem Hub.tlbGet_tlbInstall (h : Hub) (base log2 rights level entry ea : Nat) :
    ∀ tlb ∈ [x.utlb, x.stlb],
      ((((h.tlbInstall x base log2 rights level entry ea).tlbPut (x.leafEntry base log2 rights level entry ea) 64).tlbGet tlb x.asid x.va).map
        (fun v => (v.out, v.log2, v.rights))) = some (base, log2, rights) := by
  set e := x.leafEntry base log2 rights level entry ea
  have hown : e.covers x.asid x.va = true := XAcc.leafEntry_covers ..
  have hshared : ({ e with tlb := x.stlb } : TlbEntry).covers x.asid x.va = true := hown
  have hinst : h.tlbInstall x base log2 rights level entry ea = (h.tlbPut { e with tlb := x.stlb } 8192).tlbPut e 64 := rfl
  have hutlb : (((h.tlbInstall x base log2 rights level entry ea).tlbPut e 64).tlbGet x.utlb x.asid x.va) = some e :=
    Hub.tlbGet_tlbPut_same _ 64 hown
  intro tlb htlb
  by_cases hsame : tlb = x.utlb
  · rw [hsame, hutlb]
    rfl
  · have hstlb : tlb = x.stlb := by simpa [hsame] using htlb
    rw [hinst, Hub.tlbGet_tlbPut_ne _ _ (by exact hsame), Hub.tlbGet_tlbPut_ne _ _ (by exact hsame), hstlb]
    rw [Hub.tlbGet_tlbPut_same (e := { e with tlb := x.stlb }) _ 8192 hshared]
    rfl

end

end Sys2Proof.Machine
end

section
/-! The statement on walks (11): O38 proved. -/

namespace Sys2Proof.Machine

open Sys2Proof Claims

-- A miss

section
variable {s : State} {die : BitVec 1} {r : XltReq} {x : XAcc} (hacc : s.hub.walkAcc die.toNat r = some x)
include hacc

theorem walkStart_parks (hheld : s.hub.portHeld x = false) {f : Fault11} (hf : s.hub.faultFor x = some f) (hroom : s.hub.parkedIn x.die < 512) :
    Claims.Runs (.walkStart die r) s (fun t => (t.mem = s.mem ∧ t.pending = s.pending)
      ∧ t.hub.xlt.parked = s.hub.xlt.parked ++ [⟨x.die, f.slot, x.master, x.va, x.acc, x.who⟩] ∧ t.hub.regs = s.hub.regs
      ∧ t.hub.xlt.faults.length = s.hub.xlt.faults.length) :=
  ⟨_, exec_walkStart_eq (f := (·.parkUnder f x)) hacc (Hub.walkStart_of_fault hheld hf hroom), ⟨rfl, rfl⟩, rfl, rfl, List.length_map _⟩

variable (hmiss : s.hub.Misses x)
include hmiss

theorem walkStart_joins {w : Walk} (hw : s.hub.walkFor x = some w) :
    Claims.Runs (.walkStart die r) s (fun t => (t.mem = s.mem ∧ t.pending = s.pending)
      ∧ t.hub.xlt.walks = s.hub.xlt.walks.map (fun v => if v = w then { v with joined := v.joined ++ [(x.master, x.va, x.acc, x.who)] } else v)
      ∧ SameRegsBut [Reg.xltPerfStlbMissCount x.die] s t) :=
  ⟨_, exec_walkStart_eq (f := fun h => (h.missed x).joinWalk w x) hacc (Hub.walkStart_of_walk hmiss hw), ⟨rfl, rfl⟩, rfl,
    fun _ hg => Hub.get_set_ne _ _ (hg _ (List.mem_singleton_self _))⟩

variable (hw : s.hub.walkFor x = none)
include hw

theorem walkStart_waits (hfull : ¬ (s.hub.walksOf x.die < 64 ∧ s.hub.portWalks x.die x.master.local' < 8)) :
    exec (.walkStart die r) s = .next s :=
  exec_walkStart_eq (f := id) hacc (Hub.walkStart_of_noWalker hmiss hw hfull)

variable (hfree : s.hub.walksOf x.die < 64 ∧ s.hub.portWalks x.die x.master.local' < 8)
include hfree

theorem walkStart_begins (hva : x.va < 2 ^ 52) (hvalid : s.hub.get (Reg.xltAsValid x.asid) = 1) :
    Claims.Runs (.walkStart die r) s (fun t => (t.mem = s.mem ∧ t.pending = s.pending)
      ∧ t.hub.xlt.walks = s.hub.xlt.walks ++ [⟨x.die, x.master.local', x.asid, x.part, x.va, x.acc, (s.hub.walkFrom x.die x.asid x.va).1,
          (s.hub.walkFrom x.die x.asid x.va).2, false, x.master, [], .walk⟩]
      ∧ SameRegsBut [Reg.xltPerfStlbMissCount x.die, Reg.xltPerfWalksCount x.die] s t) := by
  obtain ⟨hasid, -, -, hwho⟩ := Hub.walkAcc_eq hacc
  have hstart : s.hub.walkStart x = (s.hub.missed x).walkBegin x := by
    rw [Hub.walkStart_of_walker hmiss hw hfree, Hub.missed_on_valid (hasid ▸ r.asid.isLt), if_neg (by omega), if_neg (by simp [Hub.on, hvalid])]
  refine ⟨_, exec_walkStart_eq (f := fun h => (h.missed x).walkBegin x) hacc hstart, ⟨rfl, rfl⟩, ?_, fun g hg => ?_⟩
  · rw [State.onHub_hub, Hub.walkBegin, Hub.walkFrom_missed, hwho]
    rfl
  · obtain ⟨hmissed, hwalks⟩ := List.forall_mem_cons.mp hg
    exact (Hub.get_set_ne _ _ (hwalks _ (List.mem_singleton_self _))).trans (Hub.get_set_ne _ _ hmissed)

/-- The two faults that a miss opens before it reads a table: an address past 52 bits, and an address space that is not valid. -/
theorem walkStart_faults {k cause : Nat} (hmay : MayOpen s.hub x k)
    (hcause : 2 ^ 52 ≤ x.va ∧ cause = 0x06 ∨ x.va < 2 ^ 52 ∧ s.hub.get (Reg.xltAsValid x.asid) = 0 ∧ cause = 0x05) :
    Claims.Runs (.walkStart die r) s (fun t => (t.mem = s.mem ∧ t.pending = s.pending) ∧ OpensFault s t x k cause 3 0 0) := by
  obtain ⟨hasid, -⟩ := Hub.walkAcc_eq hacc
  have hstart : s.hub.walkStart x = (s.hub.missed x).openFault x cause 3 0 0 := by
    rw [Hub.walkStart_of_walker hmiss hw hfree, Hub.missed_on_valid (hasid ▸ r.asid.isLt)]
    rcases hcause with ⟨hva, rfl⟩ | ⟨hva, hvalid, rfl⟩
    · rw [if_pos (by omega)]
    · rw [if_neg (by omega), if_pos (by simp [Hub.on, hvalid])]
  exact ⟨_, exec_walkStart_eq (f := fun h => (h.missed x).openFault x cause 3 0 0) hacc hstart, ⟨rfl, rfl⟩,
    opensFault_openFault (u := s.onHub (·.missed x)) hmay rfl rfl rfl rfl _ _ _ _⟩

end

-- A table read

/-- What the entry means that a walk reads next in the line `l`. -/
def Hub.entryMeans (h : Hub) (w : Walk) (l : FirnLine) : Step11 :=
  h.judge (h.get (Reg.xltAsPartition w.asid)) w.va w.level w.acc.rights (bits l.data (8 * (w.entryAt % 128)) 64) w.entryAt

/-- The walk that the return names is not stale and alone, and Firn holds the line of the partition's entry that it reads next. -/
def ReadsEntry (s : State) (die : BitVec 1) (asid : BitVec 12) (page : BitVec 36) (w : Walk) (l : FirnLine) : Prop :=
  s.hub.walkBack die asid page = some w ∧ w.stale = false ∧ (w.joined = [] ∧ w.who = .walk ∧ s.hub.portHeld w.access = false)
    ∧ s.hub.tableOk (s.hub.get (Reg.xltAsPartition w.asid)) w.entryAt = true ∧ HeldLine s w.entryAt l ∧ w.entryAt % 8 = 0

section
variable {s : State} {die : BitVec 1} {asid : BitVec 12} {page : BitVec 36} {w : Walk} {l : FirnLine}

theorem ReadsEntry.walkRead (hr : ReadsEntry s die asid page w l) (hsound : l.poison.testBit (w.entryAt % 128 / 32) = false) :
    s.walkRead (s.hub.get (Reg.xltAsPartition w.asid)) w.va w.level w.acc.rights w.table =
      (s.hub.entryMeans w l, s.firnCount (w.entryAt / 128) true) := by
  obtain ⟨-, -, -, hok, hl, ha⟩ := hr
  exact State.walkRead_of_sound rfl hok hl ha hsound

theorem tableRead_goesOn (hr : ReadsEntry s die asid page w l) (hsound : l.poison.testBit (w.entryAt % 128 / 32) = false) {next : Nat}
    (hm : s.hub.entryMeans w l = .table next) :
    Claims.Runs (.tableReadReturn die asid page) s (fun t => (t.pending = s.pending ∧ t.mem = s.mem)
      ∧ t.hub.xlt.walks = s.hub.xlt.walks.map (fun v => if v = w then { v with level := v.level - 1, table := next, stale := false } else v)
      ∧ t.hub.xlt.tlbs = s.hub.xlt.tlbs ∧ t.hub.xlt.faults = s.hub.xlt.faults) := by
  have hread := hr.walkRead hsound
  rw [hm] at hread
  obtain ⟨hback, hstale, -⟩ := hr
  refine ⟨_, exec_tableReadReturn_of_walk hback, ?_⟩
  rw [State.walkReturn_of_table hstale hread]
  refine ⟨⟨rfl, rfl⟩, List.map_congr_left fun v _ => ?_, rfl, rfl⟩
  split_ifs with hv
  · rw [hv]
  · rfl

theorem tableRead_installs (hr : ReadsEntry s die asid page w l) (hsound : l.poison.testBit (w.entryAt % 128 / 32) = false)
    {out log2 rights e : Nat} (hm : s.hub.entryMeans w l = .leaf out log2 rights e) (hfault : s.hub.faultFor w.access = none) :
    Claims.Runs (.tableReadReturn die asid page) s (fun t => (t.pending = s.pending ∧ t.mem = s.mem) ∧ t.hub.xlt.walks = s.hub.xlt.walks.erase w
      ∧ t.hub.xlt.faults = s.hub.xlt.faults ∧ t.hub.xlt.parked = s.hub.xlt.parked
      ∧ ∀ tlb ∈ [w.access.utlb, w.access.stlb], (t.hub.tlbGet tlb w.asid w.va).map (fun v => (v.out, v.log2, v.rights)) =
        some (out, log2, rights)) := by
  have hread := hr.walkRead hsound
  rw [hm] at hread
  obtain ⟨hback, hstale, ⟨hjoined, hwho, hheld⟩, -⟩ := hr
  have hretry := State.xltRetry_of_tlbGet (x := w.access)
    (s := (s.firnCount (w.entryAt / 128) true).onHub (fun h => (h.walkEnd w).tlbInstall w.access out log2 rights w.level e w.entryAt))
    (e := w.access.leafEntry out log2 rights w.level e w.entryAt) hheld hfault (Hub.va_lt_of_walkBack hback)
    (Hub.tlbGet_tlbPut_same _ 64 (XAcc.leafEntry_covers ..)) (Hub.rights_of_judge hm) hwho
  refine ⟨_, exec_tableReadReturn_of_walk hback, ?_⟩
  rw [State.walkReturn_of_leaf hstale hjoined hread, hretry]
  exact ⟨⟨rfl, rfl⟩, rfl, rfl, rfl, Hub.tlbGet_tlbInstall (x := w.access) _ _ _ _ _ _ _⟩

/-- A read that ends in a fault: the walk leaves its walker and its access opens the fault. -/
theorem tableRead_faults {u : State} {k cause level e ea : Nat} (hback : s.hub.walkBack die asid page = some w) (hstale : w.stale = false)
    (hjoined : w.joined = [])
    (hread : s.walkRead (s.hub.get (Reg.xltAsPartition w.asid)) w.va w.level w.acc.rights w.table = (.fault cause level e ea, u))
    (hxlt : u.hub.xlt = s.hub.xlt) (hmem : u.mem = s.mem) (hpending : u.pending = s.pending) (hmay : MayOpen s.hub w.access k) :
    Claims.Runs (.tableReadReturn die asid page) s (fun t => (t.pending = s.pending ∧ t.mem = s.mem) ∧ t.hub.xlt.walks = s.hub.xlt.walks.erase w
      ∧ OpensFault s t w.access k cause level e ea ∧ (cause = 0x07 → t.hub.get Reg.xltEventTablePoison = 1)) := by
  have hended : (u.onHub (·.walkEnd w)).hub.xlt = { s.hub.xlt with walks := s.hub.xlt.walks.erase w } := by
    rw [State.onHub_hub, Hub.walkEnd, hxlt]
  have hmay' : MayOpen (u.onHub (·.walkEnd w)).hub w.access k := mayOpen_congr hmay (by rw [hended]) (by rw [hended])
  have hopens := opensFault_openFault (u := u.onHub (·.walkEnd w)) hmay (by rw [hended]) (by rw [hended]) (by rw [hended]) hpending
    cause level e ea
  refine ⟨_, exec_tableReadReturn_of_walk hback, ?_⟩
  rw [State.walkReturn_of_fault hstale hjoined hread]
  refine ⟨⟨hpending, hmem⟩, ?_, hopens, ?_⟩
  · rw [State.onHub_hub, Hub.openFault_xlt hmay', Hub.faultXlt, Hub.tlbDrop, hended]
  · intro hcause
    rw [State.onHub_hub, hcause]
    exact Hub.openFault_tablePoison hmay' level e ea

theorem tableRead_startsAgain (hback : s.hub.walkBack die asid page = some w) (hstale : w.stale = true)
    (hvalid : s.hub.get (Reg.xltAsValid w.asid) = 1) :
    Claims.Runs (.tableReadReturn die asid page) s (fun t => (t.pending = s.pending ∧ t.mem = s.mem)
      ∧ t.hub.xlt.walks = s.hub.xlt.walks.map (fun v => if v = w then { v with
          level := (s.hub.walkFrom w.die w.asid w.va).1, table := (s.hub.walkFrom w.die w.asid w.va).2, stale := false } else v)
      ∧ t.hub.xlt.tlbs = s.hub.xlt.tlbs ∧ SameRegsBut [Reg.xltPerfWalksCount w.die] s t) := by
  refine ⟨_, exec_tableReadReturn_of_walk hback, ?_⟩
  rw [State.walkReturn_of_stale hstale hvalid]
  exact ⟨⟨rfl, rfl⟩, rfl, rfl, fun _ hg => Hub.get_set_ne _ _ (hg _ (List.mem_singleton_self _))⟩

end

/-- Settles O38: what an entry means, by the tests that `judge` makes in turn; WALK_START and TABLE_READ_RETURN, each by the lemma on what the
command then does. A read of an entry that Firn holds counts a hit and nothing else, and no meaning of an entry turns on that count. The walk
cache, the restart of a stale walk at its next read and a miss without a free walker are the model's choices (log entries 36, 136 and 137). -/
theorem walksFollowThePageTables : Obligations.WalksFollowThePageTables := by
  intro die r asid page s x w l e ea p va level need k next out1 size rights cause judged lo leaf cont bad log2 out base
    lacks owned i idle miss free hubOnly start back j part at' entry y alone reads sound meaning others gone
  have hmalformed : malformed e level va = true ↔ bad := malformed_iff e level va
  have hjudged : judged = if e.testBit 0 = false then .fault 0x01 level e ea
      else if malformed e level va = true then .fault 0x03 level e ea
      else if leaf = false then .table (bits e 12 36 * 4096)
      else if lacks then .fault 0x02 level e ea
      else if s.hub.spanOk p level base log2 = false then .fault 0x04 level e ea
      else .leaf base log2 (bits e 2 3) e := s.hub.judge_eq p va level need e ea
  refine ⟨fun h0 => ?_, fun h0 hbad => ?_, fun h0 hbad hleaf => ?_, fun h0 hbad hleaf hlacks => ?_, fun h0 hbad hleaf hlacks howned => ?_,
    fun h0 hbad hleaf hlacks howned => ?_, exec_walkStart_of_none, fun hacc => ?_, exec_tableReadReturn_of_none,
    fun hr hs hm => tableRead_goesOn hr hs hm, fun hr hs hm => tableRead_installs hr hs hm, fun hr hs hm hmay => ?_, fun hr hs hmay => ?_,
    fun hback hstale hal hok hmay => ?_, tableRead_startsAgain⟩
  · rw [hjudged, if_pos h0]
  · rw [hjudged, if_neg (by simp [h0]), if_pos (hmalformed.mpr hbad)]
  · rw [hjudged, if_neg (by simp [h0]), if_neg (hmalformed.not.mpr hbad), if_pos hleaf]
  · rw [hjudged, if_neg (by simp [h0]), if_neg (hmalformed.not.mpr hbad), if_neg (by simp [hleaf]), if_pos hlacks]
  · rw [hjudged, if_neg (by simp [h0]), if_neg (hmalformed.not.mpr hbad), if_neg (by simp [hleaf]), if_neg hlacks,
      if_pos (Bool.eq_false_of_not_eq_true howned)]
  · rw [hjudged, if_neg (by simp [h0]), if_neg (hmalformed.not.mpr hbad), if_neg (by simp [hleaf]), if_neg hlacks,
      if_neg (ne_false_of_eq_true howned)]
  · obtain ⟨hasid, hva, hdie, hwho⟩ := Hub.walkAcc_eq hacc
    exact ⟨hasid, hva, hdie, hwho, fun hmiss hw => walkStart_joins hacc hmiss hw, walkStart_begins hacc, walkStart_waits hacc,
      fun hmiss hw hfree hva hmay => walkStart_faults hacc hmiss hw hfree hmay (.inl ⟨hva, rfl⟩),
      fun hmiss hw hfree hva hvalid hmay => walkStart_faults hacc hmiss hw hfree hmay (.inr ⟨hva, hvalid, rfl⟩),
      fun hheld f hf => walkStart_parks hacc hheld hf⟩
  · have hread := ReadsEntry.walkRead hr hs
    rw [show s.hub.entryMeans w l = _ from hm] at hread
    obtain ⟨hback, hstale, ⟨hjoined, -⟩, -⟩ := hr
    obtain ⟨t, hrun, hothers, hgone, hopens, -⟩ := tableRead_faults hback hstale hjoined hread rfl rfl rfl hmay
    exact ⟨t, hrun, hothers, hgone, hopens⟩
  · obtain ⟨hback, hstale, ⟨hjoined, -⟩, hok, hl, ha⟩ := hr
    have hread := State.walkRead_of_poisoned (need := w.acc.rights) rfl hok hl ha (Bool.eq_true_of_not_eq_false hs)
    obtain ⟨t, hrun, hothers, hgone, hopens, hevent⟩ := tableRead_faults hback hstale hjoined hread rfl rfl rfl hmay
    exact ⟨t, hrun, hothers, hgone, hopens, hevent rfl⟩
  · have hread := State.walkRead_of_foreign (need := w.acc.rights) rfl hok
    obtain ⟨t, hrun, hothers, hgone, hopens, -⟩ := tableRead_faults hback hstale hal.1 hread rfl rfl rfl hmay
    exact ⟨t, hrun, hothers, hgone, hopens⟩

end Sys2Proof.Machine
end

section
/-! The statements on engine events and on sites (12): O41 and O42 refuted. -/

namespace Sys2Proof.Machine

open Sys2Proof Claims

-- O41

/-- The site of `wideWritesState`, whose register file lists 2^32 for the 32-bit field WRITES of engine 16, holding one EVT header credit. -/
def wideWritesEventState : State := wideWritesState.onHub fun h => h.setSite 2 { Site.rst with evtH := 1 }

/-- A COMPLETE of KIND EVENT of engine 0 of its site, with WRITES 0 and VA 0. -/
def completeAtZeroWrites : BitVec 128 := 0xE1 + 2 * 2 ^ 11

/-- The site takes the COMPLETE, which is no protocol error, and nothing waits there. -/
theorem takesComplete_wideWritesEventState :
    (wideWritesEventState.hub.siteUp 2 = true ∧ wideWritesEventState.hub.moduleUp 2 0 = true) ∧
      0 < (wideWritesEventState.hub.site 2).evtH ∧ (wideWritesEventState.hub.site 2).evts = [] ∧
      hdrOp completeAtZeroWrites = 0xE1 ∧ hf completeAtZeroWrites 11 2 = 2 := by
  decide +kernel

/-- The subtraction by which the statement names a COMPLETE as ahead stops at 0 where the field holds 2^32. -/
theorem ahead_wideWritesEventState :
    (hf completeAtZeroWrites 32 32 + 2 ^ 32 - wideWritesEventState.hub.get (Reg.siteEngStatusWrites 16) - 1) % 2 ^ 32 < 2 ^ 31 := by
  decide +kernel

/-- 2^32 less 0, modulo 2^32, is 0: the COMPLETE is applied, and with no partition behind its engine refused (R292), so that none waits. -/
theorem evts_eepEvent_wideWritesEventState :
    ((eepEvent 0xE1 2 0 completeAtZeroWrites [] wideWritesEventState).hub.site 2).evts = [] := by
  decide +kernel

/-- Refutes O41: the statement quantifies over every state and says with a subtraction of natural numbers which COMPLETE is ahead of the writes
received. In a state whose register file holds 2^32 for the 32-bit field WRITES of an engine that subtraction stops at 0, which names a
COMPLETE of WRITES 0 as ahead; yet modulo 2^32 its count is reached, and it is applied at once where the statement wants it to wait. -/
theorem not_engineEventsAndDoorbellsActInOrder : ¬ Obligations.EngineEventsAndDoorbellsActInOrder := by
  unfold Obligations.EngineEventsAndDoorbellsActInOrder
  intro h
  obtain ⟨-, -, hwaits, -⟩ := h 2 0 completeAtZeroWrites [] .pf 0 0 wideWritesEventState ⟨0, 0, 0, 0, 0, 0, 0, 0, 0⟩ 0 0 0
  obtain ⟨hup, hcredit, hnone, hop, hkind⟩ := takesComplete_wideWritesEventState
  have hshaped : (if hdrOp completeAtZeroWrites = 0xE1 ∧ hf completeAtZeroWrites 11 2 = 1 then 1 else 0) = 0 := by simp [hkind]
  obtain ⟨t, hexec, -, -, hwaiting, -⟩ := hwaits
    ⟨hup, ⟨hcredit, hshaped.trans_le (Nat.zero_le _), hshaped.symm, fun _ => ⟨by simp [hkind], by simp [hkind]⟩⟩, hnone⟩ hop ahead_wideWritesEventState
  have ht : eepEvent 0xE1 2 0 completeAtZeroWrites [] wideWritesEventState = t := Host.Outcome.next.inj hexec
  have hevts := evts_eepEvent_wideWritesEventState
  rw [ht] at hevts
  exact List.cons_ne_nil _ _ (hwaiting.symm.trans hevts)

-- O42

/-- The last step of Sounding (R296). -/
theorem exec_soundingStep_last {site : BitVec 4} {s : State} (x : SoundIn) (hsounding : s.hub.get (Reg.siteStatusState site.toNat) = 1)
    (hstep : (s.hub.site site.toNat).step = 7) : exec (.soundingStep site x) s = .next (s.onHub (·.soundEnd site.toNat)) := by
  change Host.Outcome.next (s.onHub fun h => if h.get (Reg.siteStatusState site.toNat) = 1 then h.soundStep site.toNat x else h) = _
  simp only [State.onHub, if_pos hsounding, Hub.soundStep, hstep]

/-- Site 0 at step 7 of Sounding, its descriptor naming no engine and an IDLE_W of 6,554 W, and the register file's entry for the 16-bit field
GRANT of the site ten times that. -/
def wideGrantState : State :=
  State.reset.onHub fun h =>
    { h.setSite 0 { Site.rst with step := 7, desc := 6554 * 2 ^ 160 } with
      regs := [((Reg.siteStatusState 0).key, 1), ((Reg.sitePowerGrant 0).key, 65540)] }

/-- The site is being sounded, with no more engines than a site may have. -/
theorem sounds_wideGrantState :
    wideGrantState.hub.get (Reg.siteStatusState 0) = 1 ∧ (wideGrantState.hub.site 0).step = 7 ∧
      sdf (wideGrantState.hub.site 0).desc.toNat 6 1 ≤ 8 := by
  decide +kernel

theorem idleW_wideGrantState : wideGrantState.hub.idleW 0 = 6554 := by decide +kernel

/-- The last step asks for the grant that stands already, and leaves it. -/
theorem get_grant_soundEnd_wideGrantState :
    (wideGrantState.onHub (·.soundEnd 0)).hub.get (Reg.sitePowerGrant 0) = 65540 := by
  decide +kernel

/-- Refutes O42: the statement quantifies over every state. In one whose register file holds 65540 for the 16-bit field GRANT of a site, the
last step of Sounding asks for ten times the 6,554 W of IDLE_W, finds that grant in force and writes nothing, where the statement wants it
reduced modulo 2^16. -/
theorem not_sitesSoundFenceAndDegrade : ¬ Obligations.SitesSoundFenceAndDegrade := by
  unfold Obligations.SitesSoundFenceAndDegrade
  intro h
  obtain ⟨-, -, -, -, -, -, -, -, -, -, -, -, -, -, -, -, hlast, -⟩ := h 0 ⟨0, 0, false, 0, 0, 0⟩ 0 0 0 false 0 wideGrantState 0 0
  obtain ⟨hsounding, hstep, hengines⟩ := sounds_wideGrantState
  obtain ⟨t, hexec, -, -, -, -, -, -, -, -, hgrant⟩ := hlast hsounding hstep hengines
  rw [exec_soundingStep_last (site := 0) _ hsounding hstep] at hexec
  rw [← Host.Outcome.next.inj hexec, show (0 : BitVec 4).toNat = 0 from rfl, get_grant_soundEnd_wideGrantState, idleW_wideGrantState]
    at hgrant
  exact absurd hgrant (by decide)

end Sys2Proof.Machine
end

section
/-! The statement on regulators, Moraine's clear and the TAP (13, 22, 23): O43 refuted. -/

namespace Sys2Proof.Machine

open Sys2Proof Claims

/-- Moraine holds one record, whose SEQ is above the 32 bits of the field; BAR0 is there. -/
def wideSeqState : State :=
  State.reset.onHub fun h =>
    { h with boot := { h.boot with step := 10 }, mor := [(0, ⟨2 ^ 32 + 1, 0x801, 0, 0, 0, 0, 0, 0, 0, 0, 0, 0⟩)] }

theorem bar0Up_wideSeqState : wideSeqState.hub.bar0Up = true := by decide +kernel

/-- (0 − SEQ) mod 2^32 is 2^32 − 1: by R485 the record stays. -/
theorem mor_morClearTo_wideSeqState : ((wideSeqState.wroteBy 0).hub.morClearTo 0).mor = wideSeqState.hub.mor := by decide +kernel

/-- The statement's subtraction of natural numbers stops at 0: by the statement UPTO 0 empties the slot. -/
theorem filter_mor_wideSeqState :
    wideSeqState.hub.mor.filter (fun r => decide (2 ^ 31 ≤ ((0 : BitVec 32).toNat + 2 ^ 32 - r.2.seq) % 2 ^ 32)) = [] := by
  decide +kernel

/-- MOR_CLEAR from PF MMIO while BAR0 is there (R485). -/
theorem exec_morClear_of_pf {via : Iface} {s : State} (upto : BitVec 32) (hpf : via.code = 1) (hup : s.hub.bar0Up = true) :
    exec (.morClear via upto) s = .next ((s.wroteBy 0).onHub (·.morClearTo upto.toNat)) := by
  change Host.Outcome.next ((s.wroteVia via).onHub fun h => if via.code = 1 ∧ h.bar0Up then h.morClearTo upto.toNat else h) = _
  have hup' : (s.wroteBy 0).hub.bar0Up = true := hup
  simp only [State.wroteVia, if_pos hpf, State.onHub, if_pos (And.intro hpf hup')]

/-- Refutes O43: the statement quantifies over every state and says with a subtraction of natural numbers which of Moraine's slots MOR_CLEAR
empties. In a state that holds a record of SEQ 2^32 + 1 that subtraction stops at 0, by which UPTO 0 empties the slot; yet modulo 2^32 the
record is not up to UPTO, and it stays. -/
theorem not_regulatorsReleaseAndTheTapScans : ¬ Obligations.RegulatorsReleaseAndTheTapScans := by
  unfold Obligations.RegulatorsReleaseAndTheTapScans
  intro h
  obtain ⟨-, -, -, -, hclear, -⟩ := h 0 ⟨1⟩ 0 0 0 wideSeqState 0 0 0 [] ⟨0, 0, none, none, false, [], false, false, false, [], false⟩
  obtain ⟨t, hexec, -, -, hmor⟩ := hclear rfl bar0Up_wideSeqState
  rw [exec_morClear_of_pf 0 rfl bar0Up_wideSeqState] at hexec
  rw [← Host.Outcome.next.inj hexec, filter_mor_wideSeqState] at hmor
  exact List.cons_ne_nil _ _ (mor_morClearTo_wideSeqState.symm.trans hmor)

end Sys2Proof.Machine
end

section
/-! SUPPORT. What a command, or a part of one, keeps of the canonical form of memory: the state it leaves, whichever way it ends. -/

namespace Sys2Proof.Machine

open Sys2Proof

/-- The state that an answer to reads leaves. -/
def RGot.after : RGot → State
  | .ok s _ _ _ => s
  | .wait s => s

/-- The state that a core's access leaves. -/
def Got.after : Got → State
  | .ok s _ _ => s
  | .exc s _ => s
  | .stall s _ => s

/-- The state that an instruction leaves. -/
def Iss.after : Iss → State
  | .done s _ => s
  | .exc s _ _ _ _ => s
  | .stall s _ => s

/-- The state that a row of a descriptor leaves. -/
def RowRes.after : RowRes → State
  | .out _ _ s => s
  | .stop _ _ s => s
  | .wait _ s => s

/-- The state that a read of a command's data leaves. -/
def CmdGot.after : CmdGot → State
  | .wait s => s
  | .bad _ s => s
  | .ok _ s => s

/-- The state that a chunk of an install leaves. -/
def Chunk.after : Chunk → State
  | .done s => s
  | .wait s => s
  | .fail _ s => s

-- What a constructor leaves

theorem RGot.wf_ok {s : State} {st v bad : Nat} (h : s.mem.wf = true) : (RGot.ok s st v bad).after.mem.wf = true := h
theorem RGot.wf_wait {s : State} (h : s.mem.wf = true) : (RGot.wait s).after.mem.wf = true := h

theorem Got.wf_ok {s : State} {v : Nat} {bad : Bool} (h : s.mem.wf = true) : (Got.ok s v bad).after.mem.wf = true := h
theorem Got.wf_exc {s : State} {code : Nat} (h : s.mem.wf = true) : (Got.exc s code).after.mem.wf = true := h
theorem Got.wf_stall {s : State} {run : CoreRun} (h : s.mem.wf = true) : (Got.stall s run).after.mem.wf = true := h

theorem Iss.wf_done {s : State} {c : Core} (h : s.mem.wf = true) : (Iss.done s c).after.mem.wf = true := h
theorem Iss.wf_exc {s : State} {c : Core} {code addr trap : Nat} (h : s.mem.wf = true) : (Iss.exc s c code addr trap).after.mem.wf = true := h
theorem Iss.wf_stall {s : State} {run : CoreRun} (h : s.mem.wf = true) : (Iss.stall s run).after.mem.wf = true := h

theorem RowRes.wf_out {s : State} {o : RowOut} {p : Option Nat} (h : s.mem.wf = true) : (RowRes.out o p s).after.mem.wf = true := h
theorem RowRes.wf_stop {s : State} {st detail : Nat} (h : s.mem.wf = true) : (RowRes.stop st detail s).after.mem.wf = true := h
theorem RowRes.wf_wait {s : State} {again : Bool} (h : s.mem.wf = true) : (RowRes.wait again s).after.mem.wf = true := h

theorem CmdGot.wf_wait {s : State} (h : s.mem.wf = true) : (CmdGot.wait s).after.mem.wf = true := h
theorem CmdGot.wf_bad {s : State} {st : Nat} (h : s.mem.wf = true) : (CmdGot.bad st s).after.mem.wf = true := h
theorem CmdGot.wf_ok {s : State} {b : List Byte} (h : s.mem.wf = true) : (CmdGot.ok b s).after.mem.wf = true := h

theorem Chunk.wf_done {s : State} (h : s.mem.wf = true) : (Chunk.done s).after.mem.wf = true := h
theorem Chunk.wf_wait {s : State} (h : s.mem.wf = true) : (Chunk.wait s).after.mem.wf = true := h
theorem Chunk.wf_fail {s : State} {st : Nat} (h : s.mem.wf = true) : (Chunk.fail st s).after.mem.wf = true := h

/-- An outcome leaves memory in its canonical form, where it leaves a next state. -/
def Kept (o : Host.Outcome State Fault Refusal) : Prop := ∀ t, o = .next t → t.mem.wf = true

theorem kept_next {s : State} (h : s.mem.wf = true) : Kept (.next s) := fun _ e => by cases e; exact h

theorem kept_fault {r : Fault} : Kept (.fault r) := fun _ e => by cases e

/-- A command that changes the hub alone keeps the form. -/
theorem kept_hubStep {s : State} {f : Hub → Hub} (h : s.mem.wf = true) : Kept (hubStep f s) := kept_next h

theorem kept_hubWatch {s : State} {f : Hub → Hub} (h : s.mem.wf = true) : Kept (hubWatch f s) := kept_next h

-- Where a match names the state left

theorem wf_snd {α : Type} {p : α × State} {a : α} {t : State} (e : p = (a, t)) (h : p.2.mem.wf = true) : t.mem.wf = true := by
  rw [e] at h; exact h

theorem wf_snd2 {α β : Type} {p : α × β × State} {a : α} {b : β} {t : State} (e : p = (a, b, t)) (h : p.2.2.mem.wf = true) : t.mem.wf = true := by
  rw [e] at h; exact h

theorem RGot.wf_of_eq {r q : RGot} (e : r = q) (h : r.after.mem.wf = true) : q.after.mem.wf = true := e ▸ h
theorem Got.wf_of_eq {r q : Got} (e : r = q) (h : r.after.mem.wf = true) : q.after.mem.wf = true := e ▸ h
theorem Iss.wf_of_eq {r q : Iss} (e : r = q) (h : r.after.mem.wf = true) : q.after.mem.wf = true := e ▸ h
theorem RowRes.wf_of_eq {r q : RowRes} (e : r = q) (h : r.after.mem.wf = true) : q.after.mem.wf = true := e ▸ h
theorem CmdGot.wf_of_eq {r q : CmdGot} (e : r = q) (h : r.after.mem.wf = true) : q.after.mem.wf = true := e ▸ h
theorem Chunk.wf_of_eq {r q : Chunk} (e : r = q) (h : r.after.mem.wf = true) : q.after.mem.wf = true := e ▸ h

-- Changes outside memory

theorem wf_onHub {s : State} {f : Hub → Hub} (h : s.mem.wf = true) : (s.onHub f).mem.wf = true := h

theorem wf_mk {x : Hub} {m : Memory} {q : List Instr} (h : m.wf = true) : (State.mk x m q).mem.wf = true := h

-- Either of two states, and a fold of states

theorem wf_ite {c : Prop} {_ : Decidable c} {s t : State} (h : s.mem.wf = true) (k : t.mem.wf = true) : (if c then s else t).mem.wf = true := by
  split <;> assumption

theorem wf_iteMem {c : Prop} {_ : Decidable c} {m n : Memory} (h : m.wf = true) (k : n.wf = true) : (if c then m else n).wf = true := by
  split <;> assumption

theorem wf_ite_snd {α : Type} {c : Prop} {_ : Decidable c} {p q : α × State} (h : p.2.mem.wf = true) (k : q.2.mem.wf = true) :
    (if c then p else q).2.mem.wf = true := by
  split <;> assumption

theorem wf_foldMem {f : Nat → Memory → Memory} {n i : Nat} {m : Memory} (hf : ∀ k x, x.wf = true → (f k x).wf = true) (h : m.wf = true) :
    (foldFrom n i f m).wf = true :=
  foldFrom_keeps (fun x : Memory => x.wf = true) f hf n i m h

theorem wf_foldl {β : Type} {f : State → β → State} {l : List β} {s : State} (hf : ∀ t b, t.mem.wf = true → (f t b).mem.wf = true)
    (h : s.mem.wf = true) : (l.foldl f s).mem.wf = true :=
  foldl_keeps (fun x : State => x.mem.wf = true) f hf l s h

theorem wf_foldFrom {f : Nat → State → State} {n i : Nat} {s : State} (hf : ∀ k t, t.mem.wf = true → (f k t).mem.wf = true)
    (h : s.mem.wf = true) : (foldFrom n i f s).mem.wf = true :=
  foldFrom_keeps (fun x : State => x.mem.wf = true) f hf n i s h

-- What an access leaves of trust

theorem wf_wroteBy {s : State} {fn : Nat} (h : s.mem.wf = true) : (s.wroteBy fn).mem.wf = true := wf_onHub h

theorem wf_wroteVia {s : State} {via : Iface} (h : s.mem.wf = true) : (s.wroteVia via).mem.wf = true := by
  unfold State.wroteVia
  split
  · exact wf_wroteBy h
  · exact h

theorem wf_wroteSrc {s : State} {src : DbSrc} (h : s.mem.wf = true) : (s.wroteSrc src).mem.wf = true := by
  unfold State.wroteSrc
  split
  · exact wf_wroteBy h
  · exact wf_wroteBy h
  · exact h

theorem wf_firnCount {s : State} {line : Nat} {hit : Bool} (h : s.mem.wf = true) : (s.firnCount line hit).mem.wf = true := wf_onHub h

theorem wf_watch {s s0 : State} (h : s.mem.wf = true) : (s.watch s0).mem.wf = true := wf_onHub h

-- Translation

theorem wf_walkRead {s : State} {p va level need t : Nat} (h : s.mem.wf = true) : (s.walkRead p va level need t).2.mem.wf = true := by
  unfold State.walkRead
  dsimp only
  split
  · split <;> exact wf_readPiece _ _ _ _ h
  · exact h

theorem wf_walkGo {n : Nat} {s : State} {x : XAcc} {level t : Nat} (h : s.mem.wf = true) : (State.walkGo n s x level t).2.mem.wf = true := by
  induction n generalizing s level t with
  | zero => exact h
  | succ n ih =>
    rw [State.walkGo]
    split
    · next e => exact ih (wf_onHub (wf_snd e (wf_walkRead h)))
    · exact wf_walkRead h

theorem wf_walk {s : State} {x : XAcc} (h : s.mem.wf = true) : (s.walk x).2.mem.wf = true := by
  unfold State.walk
  dsimp only
  split
  · exact h
  · split
    · exact h
    · exact wf_walkGo (wf_onHub h)

theorem wf_translate {s : State} {x : XAcc} (h : s.mem.wf = true) : (s.translate x).2.mem.wf = true := by
  unfold State.translate
  dsimp only
  split
  · exact wf_onHub h
  · split
    · split <;> exact wf_onHub h
    · split
      · split <;> exact wf_onHub h
      · split
        · split <;> exact wf_onHub h
        · split
          · exact wf_onHub (wf_onHub h)
          · split
            · next e6 => exact wf_onHub (wf_snd e6 (wf_walk (wf_onHub h)))
            · next e6 => exact wf_onHub (wf_snd e6 (wf_walk (wf_onHub h)))
            · next e6 => exact wf_snd e6 (wf_walk (wf_onHub h))

theorem wf_translateSpan {n : Nat} {s : State} {x : XAcc} {len : Nat} (h : s.mem.wf = true) : (State.translateSpan n s x len).2.mem.wf = true := by
  induction n generalizing s x len with
  | zero => exact h
  | succ n ih =>
    rw [State.translateSpan]
    dsimp only
    split
    · exact h
    · split
      · next e2 => exact wf_snd e2 (wf_translate h)
      · next e2 => split <;> next e3 => exact wf_snd e3 (ih (wf_snd e2 (wf_translate h)))

theorem wf_span {s : State} {x : XAcc} {len : Nat} (h : s.mem.wf = true) : (s.span x len).2.mem.wf = true := wf_translateSpan h

theorem wf_readPieces {s : State} {o : Org} {alloc : Bool} {l : List (Nat × Nat)} (h : s.mem.wf = true) : (s.readPieces o alloc l).s.mem.wf = true := by
  induction l generalizing s with
  | nil => exact h
  | cons x l ih =>
    rw [State.readPieces]
    exact ih (wf_hubRead _ _ _ _ h)

theorem wf_writePieces {s : State} {o : Org} {alloc : Bool} {v bad : Nat} {l : List (Nat × Nat)} (h : s.mem.wf = true) :
    (s.writePieces o alloc v bad l).s.mem.wf = true := by
  induction l generalizing s v bad with
  | nil => exact h
  | cons x l ih =>
    rw [State.writePieces]
    exact ih (wf_hubWrite _ _ _ _ _ _ h)

-- Firn: its slices and their commands

theorem wf_parityClean {s : State} {sl line errs : Nat} {l : FirnLine} (h : s.mem.wf = true) : (s.parityClean sl line errs l).mem.wf = true := by
  unfold State.parityClean
  split
  · exact h
  · exact wf_onHub (wf_lineDrop _ (wf_lineClean _ h))

theorem wf_parityDirty {s : State} {sl line errs : Nat} {l : FirnLine} (h : s.mem.wf = true) : (s.parityDirty sl line errs l).mem.wf = true := by
  unfold State.parityDirty
  split
  · exact h
  · exact wf_onHub (wf_putLine _ _ h)

theorem wf_parity {s : State} {sl line : Nat} {p : ParityFind} (h : s.mem.wf = true) : (s.parity sl line p).mem.wf = true := by
  unfold State.parity
  dsimp only
  split
  · exact h
  · split
    · exact wf_onHub (wf_lineDrop _ h)
    · exact wf_parityClean (wf_parityDirty h)

theorem wf_pushMiss {s : State} {e : MissEntry} (h : s.mem.wf = true) : (s.pushMiss e).mem.wf = true := wf_mk (wf_same rfl rfl rfl rfl h)

theorem wf_evictWay {s : State} {sl set w : Nat} (h : s.mem.wf = true) : (s.evictWay sl set w).mem.wf = true := by
  unfold State.evictWay
  dsimp only
  split
  · exact h
  · dsimp only
    split <;> exact wf_lines_erase _ h

theorem wf_roomFor {s t : State} {sl line w : Nat} (h : s.mem.wf = true) (e : s.roomFor sl line = some (w, t)) : t.mem.wf = true := by
  unfold State.roomFor at e
  dsimp only at e
  split at e
  · cases e
  · split at e
    · cases e
    · next hp =>
      cases e
      exact wf_evictWay (wf_pickWay hp h)

theorem wf_writeLine {s : State} {line : Nat} {l : FirnLine} {r : SliceReq} (h : s.mem.wf = true) : (s.writeLine line l r).mem.wf = true :=
  wf_onHub (wf_putLine _ _ h)

theorem wf_hit {s : State} {sl : Nat} (h : s.mem.wf = true) : (s.hit sl).mem.wf = true := wf_onHub h

theorem wf_serveEvict {s : State} {sl : Nat} {e : Evict} {r : SliceReq} (h : s.mem.wf = true) : (s.serveEvict sl e r).mem.wf = true := by
  unfold State.serveEvict
  dsimp only
  split
  · exact wf_onHub (wf_hit h)
  · exact wf_mk (wf_same rfl rfl rfl rfl h)

theorem wf_serveHeld {s t : State} {sl : Nat} {l : FirnLine} {r : SliceReq} (h : s.mem.wf = true) (e : s.serveHeld sl l r = some t) : t.mem.wf = true := by
  unfold State.serveHeld at e
  extract_lets need at e
  clear_value need
  split at e
  · split at e
    · cases e
      exact wf_writeLine (wf_hit h)
    · cases e
      exact wf_onHub (wf_hit h)
  · split at e
    · cases e
    · cases e
      exact wf_pushMiss h

theorem wf_serveAbsent {s t : State} {sl : Nat} {r : SliceReq} (h : s.mem.wf = true) (e : s.serveAbsent sl r = some t) : t.mem.wf = true := by
  unfold State.serveAbsent at e
  split at e
  · extract_lets need at e
    clear_value need
    split at e
    · cases e
    · split at e
      · cases e
      · next hroom =>
        split at e
        · cases e
          exact wf_writeLine (wf_roomFor h hroom)
        · cases e
          exact wf_pushMiss (wf_roomFor h hroom)
  · split at e
    · cases e
    · cases e
      exact wf_pushMiss h

theorem wf_serve {s t : State} {sl : Nat} {r : SliceReq} (h : s.mem.wf = true) (e : s.serve sl r = some t) : t.mem.wf = true := by
  unfold State.serve at e
  split at e
  · cases e
    exact wf_serveEvict h
  · split at e
    · split at e
      · cases e
      · cases e
        exact wf_same rfl rfl rfl rfl h
    · split at e
      · exact wf_serveHeld h e
      · exact wf_serveAbsent h e

theorem wf_serveOrWait {s : State} {sl : Nat} {r : SliceReq} (h : s.mem.wf = true) : (s.serveOrWait sl r).mem.wf = true := by
  unfold State.serveOrWait
  dsimp only
  split
  · exact wf_same rfl rfl rfl rfl h
  · cases e : s.serve sl r with
    | none => exact wf_same rfl rfl rfl rfl h
    | some t => exact wf_serve h e

theorem wf_pumpSlice {s : State} {sl : Nat} (h : s.mem.wf = true) : (s.pumpSlice sl).mem.wf = true :=
  wf_foldl (fun _ _ hx => wf_serveOrWait hx) (wf_mk (wf_same rfl rfl rfl rfl h))

theorem wf_serveScratch {s : State} {sl off : Nat} {r : SliceReq} {p : ParityFind} (h : s.mem.wf = true) : (s.serveScratch sl off r p).mem.wf = true := by
  unfold State.serveScratch
  dsimp only
  split
  · exact wf_onHub (wf_foldFrom (fun _ _ hx1 => wf_ite hx1 (wf_writePiece _ _ _ _ _ _ hx1)) (wf_ite (wf_onHub (wf_mk (wf_foldMem (fun _ _ hx3 => wf_iteMem (wf_mark _ _ hx3) hx3) h))) h))
  · exact wf_onHub (wf_readPiece _ _ _ _ (wf_ite (wf_onHub (wf_mk (wf_foldMem (fun _ _ hx3 => wf_iteMem (wf_mark _ _ hx3) hx3) h))) h))

theorem kept_execSliceRequest {slice : BitVec 8} {r : SliceReq} {par : ParityFind} {s : State} (h : s.mem.wf = true) : Kept
    (execSliceRequest slice r par s) := by
  unfold execSliceRequest
  dsimp only
  split
  · split
    · exact kept_next (wf_serveScratch h)
    · exact kept_next h
  · split
    · exact kept_next h
    · exact kept_next (wf_serveOrWait (wf_parity h))
  · exact kept_next h

theorem wf_macFail {s : State} {a : Nat} (h : s.mem.wf = true) : (s.macFail a).mem.wf = true := by
  unfold State.macFail
  exact wf_onHub (wf_mk (wf_foldMem (fun _ _ hx2 => wf_mark _ _ hx2) h))

theorem wf_eccSector {a mask : Nat} {e : EccFind} {k : Nat} {s : State} (h : s.mem.wf = true) : (State.eccSector a mask e k s).mem.wf = true := by
  unfold State.eccSector
  split
  · exact h
  · split
    · exact wf_onHub (wf_mk (wf_mark _ _ h))
    · split
      · exact wf_onHub h
      · exact h

theorem wf_channelRead {s : State} {line mask : Nat} {e : EccFind} (h : s.mem.wf = true) : (s.channelRead line mask e).2.2.mem.wf = true := by
  unfold State.channelRead
  dsimp only
  split
  · exact h
  · dsimp only
    split
    · exact wf_macFail (wf_foldFrom (fun _ _ hx2 => wf_eccSector hx2) h)
    · exact wf_foldFrom (fun _ _ hx1 => wf_eccSector hx1) h

theorem wf_channelServe {s : State} {e : MissEntry} {r : SliceReq} {f : EccFind} (h : s.mem.wf = true) : (s.channelServe e r f).2.2.mem.wf = true := by
  unfold State.channelServe
  dsimp only
  split
  · split
    · split
      · exact h
      · exact wf_foldMem (fun _ _ hx1 => wf_putBack _ _ _ _ _ hx1) h
    · exact wf_channelRead h
  · exact wf_onHub h

theorem kept_execChannelRequest {slice : BitVec 8} {tag : Nat} {ecc : EccFind} {s : State} (h : s.mem.wf = true) : Kept
    (execChannelRequest slice tag ecc s) := by
  unfold execChannelRequest
  dsimp only
  split
  · exact kept_next h
  · split
    · exact kept_next h
    · split
      · exact kept_next h
      · exact kept_next (wf_mk (wf_same rfl rfl rfl rfl (wf_channelServe h)))

theorem kept_execFillReturn {slice : BitVec 8} {line : Nat} {s : State} (h : s.mem.wf = true) : Kept (execFillReturn slice line s) := by
  unfold execFillReturn
  dsimp only
  split
  · exact kept_next h
  · split
    · split
      · exact kept_next (wf_pumpSlice (wf_applyAll _ (wf_ite (wf_applyReq _ (wf_lineDrop _ (wf_mk (wf_same rfl rfl rfl rfl h)))) (wf_onHub (wf_lineDrop _ (wf_mk (wf_same rfl rfl rfl rfl h)))))))
      · exact kept_next (wf_pumpSlice (wf_applyAll _ (wf_ite (wf_writeLine (wf_putLine _ _ (wf_mk (wf_same rfl rfl rfl rfl h)))) (wf_onHub (wf_putLine _ _ (wf_mk (wf_same rfl rfl rfl rfl h)))))))
    · exact kept_next (wf_pumpSlice (wf_applyAll _ (wf_onHub (wf_mk (wf_same rfl rfl rfl rfl h)))))
    · exact kept_next (wf_pumpSlice (wf_mk (wf_same rfl rfl rfl rfl h)))

theorem kept_execWritebackAck {slice : BitVec 8} {line : Nat} {s : State} (h : s.mem.wf = true) : Kept (execWritebackAck slice line s) := by
  unfold execWritebackAck
  dsimp only
  split
  · exact kept_next h
  · exact kept_next (wf_pumpSlice (wf_foldl (fun _ _ hx => wf_serveOrWait hx) (wf_mk (wf_same rfl rfl rfl rfl (wf_writeBack _ _ _ _ h)))))

theorem kept_execWayDisable {slice : BitVec 8} {way : BitVec 4} {s : State} (h : s.mem.wf = true) : Kept (execWayDisable slice way s) := by
  unfold execWayDisable
  dsimp only
  split
  · exact kept_next h
  · exact kept_next (wf_onHub (wf_flushLines _ h))

theorem kept_execSeedWrite {slice : BitVec 8} {seed : BitVec 16} {s0 : State} (h : s0.mem.wf = true) : Kept (execSeedWrite slice seed s0) := by
  unfold execSeedWrite
  dsimp only
  split
  · exact kept_next (wf_wroteBy h)
  · exact kept_next (wf_mk (wf_same rfl rfl rfl rfl (wf_wroteBy h)))

theorem wf_maintStart {s : State} {op w : Nat} (h : s.mem.wf = true) : (s.maintStart op w).mem.wf = true := by
  unfold State.maintStart
  dsimp only
  split
  · exact wf_onHub h
  · split
    · exact h
    · split
      · exact wf_onHub h
      · split
        · exact wf_onHub (wf_onHub h)
        · split
          · exact wf_mk (wf_flagMiss _ (wf_onHub h))
          · split
            · exact wf_onHub h
            · exact wf_onHub (wf_maintAt _ _ _ (wf_onHub h))

theorem wf_maintWay {s : State} {op sl set w : Nat} (h : s.mem.wf = true) : (s.maintWay op sl set w).2.mem.wf = true := by
  unfold State.maintWay
  dsimp only
  split
  · exact h
  · split
    · exact h
    · dsimp only
      split
      · exact wf_lineClean _ h
      · split
        · exact wf_lineDrop _ h
        · exact wf_lineDrop _ (wf_lineClean _ h)

theorem kept_execMaintComplete {s : State} (h : s.mem.wf = true) : Kept (execMaintComplete s) := by
  unfold execMaintComplete
  dsimp only
  split
  · exact kept_next h
  · split
    · split
      · exact kept_next h
      · exact kept_next (wf_onHub (wf_maintWay h))
    · split
      · exact kept_next h
      · exact kept_next (wf_onHub h)

theorem kept_execScrub {hpa : BitVec 48} {ecc : EccFind} {s : State} (h : s.mem.wf = true) : Kept (execScrub hpa ecc s) := by
  unfold execScrub
  dsimp only
  split
  · exact kept_next h
  · exact kept_next (wf_channelRead h)

theorem kept_execRepairStart {stack : BitVec 5} {s : State} (h : s.mem.wf = true) : Kept (execRepairStart stack s) := by
  unfold execRepairStart
  dsimp only
  split
  · exact kept_next h
  · split
    · exact kept_next h
    · exact kept_next (wf_onHub h)

theorem kept_execRepairDone {stack : BitVec 5} {bad : BitVec 32} {s : State} (h : s.mem.wf = true) : Kept (execRepairDone stack bad s) := by
  unfold execRepairDone
  dsimp only
  split
  · exact kept_next h
  · split
    · exact kept_next h
    · exact kept_next (wf_onHub (wf_mk (wf_foldMem (fun _ _ hx => wf_iteMem (wf_mark _ _ hx) hx) h)))

theorem kept_execRowqDone {s : State} (h : s.mem.wf = true) : Kept (execRowqDone s) := by
  unfold execRowqDone
  dsimp only
  split
  · exact kept_next h
  · exact kept_next (wf_onHub h)

theorem kept_execFillGranule {half : BitVec 6} {s : State} (h : s.mem.wf = true) : Kept (execFillGranule half s) := by
  unfold execFillGranule
  dsimp only
  split
  · exact kept_next h
  · split
    · exact kept_next h
    · exact kept_next (wf_mk (wf_fillGran _ _ h))

theorem kept_execFillComplete {half : BitVec 6} {s : State} (h : s.mem.wf = true) : Kept (execFillComplete half s) := by
  unfold execFillComplete
  dsimp only
  split
  · exact kept_next h
  · exact kept_next (wf_mk (wf_same rfl rfl rfl rfl h))

theorem wf_dewConv {s : State} {p : Nat} {tag : Option Nat} {sf df : FmtByte} {onRead : Bool} {va hpa : Nat} {c : Conv} (h : s.mem.wf = true) :
    (s.dewConv p tag sf df onRead va hpa c).mem.wf = true := by
  unfold State.dewConv
  dsimp only
  split
  · exact h
  · split
    · exact h
    · split
      · exact wf_onHub (wf_onHub h)
      · exact wf_onHub h

-- Commands of the queues

theorem wf_cmdRead {s : State} {c : QCmd} {a n : Nat} (h : s.mem.wf = true) : (s.cmdRead c a n).2.mem.wf = true := by
  unfold State.cmdRead
  dsimp only
  split
  · exact wf_hubRead _ _ _ _ h
  · split
    · next e2 => exact wf_snd e2 (wf_span h)
    · next e2 => exact wf_readPieces (wf_snd e2 (wf_span h))

theorem wf_cmdRead_some {s t : State} {c : QCmd} {a n : Nat} {r : Ret} (h : s.mem.wf = true) (e : s.cmdRead c a n = (some r, t)) : r.s.mem.wf = true := by
  unfold State.cmdRead at e
  dsimp only at e
  split at e
  · cases e
    exact wf_hubRead _ _ _ _ h
  · split at e
    · cases e
    · next es =>
      cases e
      exact wf_readPieces (wf_snd es (wf_span h))

theorem wf_done {s : State} {c : QCmd} {st result : Nat} (h : s.mem.wf = true) : (s.done c st result).mem.wf = true := wf_onHub h

-- Streams

theorem wf_devPieces {s : State} {n ix : Nat} {k : AccKind} {va len : Nat} (h : s.mem.wf = true) : (s.devPieces n ix k va len).2.mem.wf = true := by
  unfold State.devPieces
  dsimp only
  split
  · exact h
  · exact wf_span h

theorem wf_descAfter {s : State} {n : Nat} {r : DescRec} (h : s.mem.wf = true) : (s.descAfter n r).mem.wf = true := by
  unfold State.descAfter
  dsimp only
  split
  · split
    · exact wf_onHub (wf_eventAdd _ h)
    · exact wf_onHub h
  · split
    · exact wf_eventAdd _ h
    · exact h

theorem wf_recWrite {s : State} {n : Nat} {r : DescRec} (h : s.mem.wf = true) : (s.recWrite n r).2.mem.wf = true := by
  unfold State.recWrite
  dsimp only
  split
  · split
    · exact h
    · exact wf_onHub h
  · split
    · next e2 => exact wf_snd e2 (wf_devPieces h)
    · next e2 =>
      split
      · exact wf_snd e2 (wf_devPieces h)
      · exact wf_writePieces (wf_snd e2 (wf_devPieces h))

theorem wf_recDone {s : State} {n : Nat} {r : DescRec} {st : Nat} (h : s.mem.wf = true) : (s.recDone n r st).mem.wf = true :=
  wf_descAfter (wf_onHub h)

theorem wf_flushRecs {f : Nat} {s : State} {n : Nat} (h : s.mem.wf = true) : (State.flushRecs f s n).mem.wf = true := by
  induction f generalizing s with
  | zero => exact h
  | succ f ih =>
    rw [State.flushRecs]
    split
    · exact h
    · split
      · exact h
      · split
        · next e2 => exact wf_snd e2 (wf_recWrite h)
        · next e2 => exact ih (wf_recDone (wf_snd e2 (wf_recWrite h)))

theorem wf_streamFlush {s : State} {n : Nat} (h : s.mem.wf = true) : (s.streamFlush n).mem.wf = true := wf_onHub (wf_flushRecs h)

theorem wf_dbCplhead {s : State} {src : DbSrc} {n v : Nat} (h : s.mem.wf = true) : (s.dbCplhead src n v).mem.wf = true := by
  unfold State.dbCplhead
  dsimp only
  split
  · exact h
  · split
    · exact wf_onHub h
    · split
      · exact h
      · exact wf_streamFlush (wf_onHub h)

theorem wf_regsWrite {s : State} {p off n v : Nat} (h : s.mem.wf = true) : (s.regsWrite p off n v).2.mem.wf = true := by
  unfold State.regsWrite
  dsimp only
  split
  · split
    · exact wf_dbCplhead (wf_onHub h)
    · split
      · exact wf_onHub h
      · exact wf_dbCplhead h
  · split
    · exact wf_onHub h
    · exact h

theorem wf_mwrite {s : State} {o : Org} {alloc : Bool} {v bad : Nat} {l : List (Nat × Nat)} (h : s.mem.wf = true) :
    (s.mwrite o alloc v bad l).s.mem.wf = true := by
  induction l generalizing s v bad with
  | nil => exact h
  | cons x l ih =>
    unfold State.mwrite
    dsimp only
    refine ih ?_
    split
    · exact wf_regsWrite h
    · exact wf_hubWrite _ _ _ _ _ _ h

-- Moves

theorem wf_remRead1 {s : State} {x : RemCtx} {got : List (Nat × Nat × Bool)} {a n : Nat} (h : s.mem.wf = true) :
    (s.remRead1 x got a n).after.mem.wf = true := by
  unfold State.remRead1
  dsimp only
  split
  · exact RGot.wf_ok h
  · split
    · exact RGot.wf_wait h
    · split
      · exact RGot.wf_ok h
      · split
        · exact RGot.wf_wait (wf_mk h)
        · exact RGot.wf_ok h

theorem wf_join {a n : Nat} {x : RGot} {f : State → RGot} (hx : x.after.mem.wf = true)
    (hf : ∀ t, t.mem.wf = true → (f t).after.mem.wf = true) : (x.join a n f).after.mem.wf = true := by
  cases x with
  | wait s =>
    have k := hf s hx
    unfold RGot.join
    dsimp only
    split
    all_goals
      next e =>
        rw [e] at k
        exact k
  | ok s st v bad =>
    have k := hf s hx
    unfold RGot.join
    dsimp only
    split
    all_goals
      next e =>
        rw [e] at k
        exact k

theorem wf_remReadL {s : State} {x : RemCtx} {got : List (Nat × Nat × Bool)} {l : List (Nat × Nat)} (h : s.mem.wf = true) :
    (s.remReadL x got l).after.mem.wf = true := by
  induction l generalizing s with
  | nil => exact h
  | cons y l ih =>
    rw [State.remReadL]
    exact wf_join (wf_remRead1 h) (fun _ => ih)

theorem wf_readAny {s : State} {o : Org} {alloc : Bool} {x : RemCtx} {got : List (Nat × Nat × Bool)} {l : List (Nat × Nat)} (h : s.mem.wf = true) :
    (s.readAny o alloc x got l).after.mem.wf = true := by
  induction l generalizing s with
  | nil => exact h
  | cons y l ih =>
    rw [State.readAny]
    refine wf_join ?_ (fun _ => ih)
    split
    · exact wf_remReadL h
    · exact wf_hubRead _ _ _ _ h

theorem wf_remWriteL {s : State} {x : RemCtx} {a0 v : Nat} {l : List (Nat × Nat × Bool)} (h : s.mem.wf = true) :
    (s.remWriteL x a0 v l).2.mem.wf = true := by
  induction l generalizing s with
  | nil => exact h
  | cons y l ih =>
    rw [State.remWriteL]
    refine ih ?_
    split
    · exact h
    · exact wf_mk h

theorem wf_writeAny {s : State} {o : Org} {alloc : Bool} {x : RemCtx} {v bad : Nat} {l : List (Nat × Nat)} (h : s.mem.wf = true) :
    (s.writeAny o alloc x v bad l).2.mem.wf = true := by
  induction l generalizing s v bad with
  | nil => exact h
  | cons y l ih =>
    rw [State.writeAny]
    refine ih ?_
    split
    · exact wf_remWriteL h
    · split
      · exact wf_mk (wf_addWords _ _ _ _ h)
      · exact wf_mwrite h
    · exact wf_mwrite h

-- Collectives

theorem wf_colAdmit {s : State} {g : Nat} {c : ColGroup} {n : Nat} (h : s.mem.wf = true) : (s.colAdmit g c n).2.mem.wf = true := by
  unfold State.colAdmit
  dsimp only
  split
  · exact h
  · split <;> exact h

theorem wf_colAdmit_some {s t u : State} {g : Nat} {c : ColGroup} {n : Nat} (h : s.mem.wf = true) (e : s.colAdmit g c n = (some t, u)) : t.mem.wf = true := by
  unfold State.colAdmit at e
  dsimp only at e
  split at e
  · cases e
    exact h
  · split at e
    · cases e
      exact h
    · cases e

theorem wf_colRead {s : State} {g : Nat} {c : ColGroup} {seq va n : Nat} (h : s.mem.wf = true) : (s.colRead g c seq va n).2.mem.wf = true := by
  unfold State.colRead
  split
  · next e => exact wf_snd e (wf_span h)
  · next e =>
    split
    · next e1 => exact RGot.wf_of_eq e1 (wf_readAny (wf_onHub (wf_snd e (wf_span h))))
    · next e1 => split <;> exact wf_onHub (RGot.wf_of_eq e1 (wf_readAny (wf_onHub (wf_snd e (wf_span h)))))

theorem wf_colWrite {s : State} {g : Nat} {c : ColGroup} {seq : Nat} {l : List (Nat × Nat)} {n v bad : Nat} (h : s.mem.wf = true) :
    (s.colWrite g c seq l n v bad).mem.wf = true := by
  unfold State.colWrite
  dsimp only
  split
  · split
    · exact wf_onHub (wf_writeAny (wf_onHub h))
    · exact wf_writeAny (wf_onHub h)
  · split
    · exact wf_onHub (wf_writeAny (wf_onHub h))
    · exact wf_writeAny (wf_onHub h)

theorem wf_colReduce {s : State} {g : Nat} {c : ColGroup} {r : ColRun} {k : ColChunk} {seg y : Nat} (h : s.mem.wf = true) :
    (s.colReduce g c r k seg y).mem.wf = true := by
  unfold State.colReduce
  dsimp only
  split
  · next e1 => exact wf_snd e1 (wf_ite_snd (wf_span h) h)
  · next e1 =>
    split
    · next e2 => exact wf_snd e2 (wf_colRead (wf_snd e1 (wf_ite_snd (wf_span h) h)))
    · next e2 =>
      split
      · exact wf_onHub (wf_snd e2 (wf_colRead (wf_snd e1 (wf_ite_snd (wf_span h) h))))
      · split
        · split
          · split
            · exact wf_onHub (wf_snd e2 (wf_colRead (wf_snd e1 (wf_ite_snd (wf_span h) h))))
            · exact wf_onHub (wf_colWrite (wf_onHub (wf_snd e2 (wf_colRead (wf_snd e1 (wf_ite_snd (wf_span h) h))))))
          · split
            · exact wf_onHub (wf_snd e2 (wf_colRead (wf_snd e1 (wf_ite_snd (wf_span h) h))))
            · exact wf_onHub (wf_hubWrite _ _ _ _ _ _ (wf_onHub (wf_snd e2 (wf_colRead (wf_snd e1 (wf_ite_snd (wf_span h) h))))))
        · split
          · split
            · exact wf_onHub (wf_snd e2 (wf_colRead (wf_snd e1 (wf_ite_snd (wf_span h) h))))
            · exact wf_onHub (wf_colWrite (wf_onHub (wf_snd e2 (wf_colRead (wf_snd e1 (wf_ite_snd (wf_span h) h))))))
          · split
            · exact wf_onHub (wf_snd e2 (wf_colRead (wf_snd e1 (wf_ite_snd (wf_span h) h))))
            · exact wf_onHub (wf_hubWrite _ _ _ _ _ _ (wf_onHub (wf_snd e2 (wf_colRead (wf_snd e1 (wf_ite_snd (wf_span h) h))))))

theorem wf_colRetire {s : State} {g : Nat} {c : ColGroup} {r : ColRun} {k : ColChunk} {seg y bad : Nat} (h : s.mem.wf = true) :
    (s.colRetire g c r k seg y bad).mem.wf = true := by
  unfold State.colRetire
  dsimp only
  split
  · next e1 => exact wf_snd e1 (wf_span h)
  · next e1 =>
    split
    · exact wf_onHub (wf_snd e1 (wf_span h))
    · exact wf_onHub (wf_colWrite (wf_onHub (wf_snd e1 (wf_span h))))

theorem wf_colDeal {s : State} {g : Nat} {c : ColGroup} {r : ColRun} {k : ColChunk} (h : s.mem.wf = true) : (s.colDeal g c r k).mem.wf = true := by
  unfold State.colDeal
  dsimp only
  split
  · exact wf_onHub h
  · split
    · exact wf_onHub h
    · split
      · next e3 => exact wf_snd e3 (wf_colAdmit h)
      · next e3 =>
        split
        · split
          · exact wf_onHub (wf_hubRead _ _ _ _ (wf_colAdmit_some h e3))
          · exact wf_colReduce (wf_hubRead _ _ _ _ (wf_colAdmit_some h e3))
        · exact wf_colRetire (wf_hubRead _ _ _ _ (wf_colAdmit_some h e3))

theorem wf_colWorkGo {f : Nat} {s : State} {g : Nat} (h : s.mem.wf = true) : (State.colWorkGo f s g).mem.wf = true := by
  induction f generalizing s with
  | zero => exact h
  | succ f ih =>
    rw [State.colWorkGo]
    dsimp only
    split
    · exact h
    · split
      · exact h
      · split
        · exact h
        · split
          · exact h
          · split
            · exact wf_colDeal h
            · split
              · exact wf_colDeal h
              · exact ih (wf_colDeal h)

theorem wf_colWork {s : State} {g : Nat} (h : s.mem.wf = true) : (s.colWork g).mem.wf = true := wf_onHub (wf_colWorkGo h)

theorem wf_colLand {s : State} {g : Nat} {c : ColGroup} {cmd : QCmd} {k : ColChunk} {part : Nat} {data : List Byte} {poison : Bool} (h
    : s.mem.wf = true) : (s.colLand g c cmd k part data poison).mem.wf = true := by
  unfold State.colLand
  dsimp only
  split
  · exact h
  · exact wf_onHub (wf_hubWrite _ _ _ _ _ _ h)

theorem wf_colTake {s : State} {g : Nat} {c : ColGroup} {r : ColRun} {x : ColExt} {data : List Byte} {poison : Bool} (h : s.mem.wf = true) :
    (s.colTake g c r x data poison).mem.wf = true := by
  unfold State.colTake
  dsimp only
  split
  · exact h
  · exact wf_colWork (wf_colLand (wf_onHub h))

theorem wf_colDataIn {s : State} {l : Nat} {x : ColExt} {data : List Byte} {poison : Bool} (h : s.mem.wf = true) :
    (s.colDataIn l x data poison).2.mem.wf = true := by
  unfold State.colDataIn
  dsimp only
  split
  · exact wf_onHub h
  · split
    · exact wf_onHub h
    · split
      · split
        · exact wf_colTake h
        · split
          · exact wf_onHub h
          · dsimp only
            split
            · exact wf_onHub h
            · exact h
      · split
        · exact wf_onHub h
        · dsimp only
          split
          · exact wf_onHub h
          · exact h

-- The cores

theorem kept_issue {c : CoreId} {w : Nat} {body : Nat → Core → State → Iss} {s : State} (h : s.mem.wf = true)
    (hb : ∀ n x,
    (body n x s).after.mem.wf = true) : Kept (issue c w body s) := fun _ e =>
  issue_mem (fun m => m.wf = true) h e (fun _ _ k => Iss.wf_of_eq k (hb _ _)) (fun _ _ _ _ _ k => Iss.wf_of_eq k (hb _ _))
    (fun _ _ k => Iss.wf_of_eq k (hb _ _))

theorem wf_pureIss {g : Core → CoreRes} {x1 : Nat} {x : Core} {s : State} (h : s.mem.wf = true) : (pureIss g x1 x s).after.mem.wf = true := by
  unfold pureIss
  split
  · exact Iss.wf_done h
  · exact Iss.wf_exc h

/-- An instruction over the core alone. -/
theorem kept_pure {c : CoreId} {w : Nat} {g : Core → CoreRes} {s : State} (h : s.mem.wf = true) : Kept (issue c w (pureIss g) s) :=
  kept_issue h fun _ _ => wf_pureIss h

theorem wf_jumpIss {g : Nat → Core → CoreRes} {n : Nat} {x : Core} {s : State} (h : s.mem.wf = true) : (jumpIss g n x s).after.mem.wf = true :=
  wf_pureIss h

theorem wf_branchIss {taken : Core → Bool} {imm : BitVec 16} {g : Nat → Core → CoreRes} {n : Nat} {x : Core} {s : State} (h : s.mem.wf = true) :
    (branchIss taken imm g n x s).after.mem.wf = true := by
  unfold branchIss
  split
  · next e =>
    split
    · exact Iss.wf_done (wf_onHub (Iss.wf_of_eq e (wf_jumpIss h)))
    · exact Iss.wf_done (Iss.wf_of_eq e (wf_jumpIss h))
  · exact wf_jumpIss h

theorem wf_fmaIss {g : Core → CoreRes} {n : Nat} {x : Core} {s : State} (h : s.mem.wf = true) : (fmaIss g n x s).after.mem.wf = true :=
  wf_pureIss (wf_onHub h)

theorem wf_csrIss {g : CsrEnv → Core → CoreRes} {n : Nat} {x : Core} {s : State} (h : s.mem.wf = true) : (csrIss g n x s).after.mem.wf = true :=
  wf_pureIss (wf_onHub h)

theorem wf_coreAdmit {s t : State} {core : Nat} {x : Core} {bytes : Nat} (h : s.mem.wf = true) (e : s.coreAdmit core x bytes = some t)
    : t.mem.wf = true := by
  unfold State.coreAdmit at e
  dsimp only at e
  split at e
  · cases e
    exact h
  · split at e
    · cases e
      exact h
    · cases e

theorem wf_coreQueue {s : State} {core bytes : Nat} (h : s.mem.wf = true) : (s.coreQueue core bytes).mem.wf = true := wf_mk h

theorem wf_stallAt {s : State} {core va : Nat} (h : s.mem.wf = true) : (s.stallAt core va).mem.wf = true := wf_onHub h

theorem wf_coreXlat {s : State} {core : Nat} {x : Core} {va n : Nat} {k : AccKind} {go : State → Nat → Got} (h : s.mem.wf = true)
    (hgo
    : ∀ t a, t.mem.wf = true → (go t a).after.mem.wf = true) : (s.coreXlat core x va n k go).after.mem.wf = true := by
  unfold State.coreXlat
  split
  · exact Got.wf_stall (wf_coreQueue h)
  · next e =>
    split
    · next e1 => exact Got.wf_stall (wf_stallAt (wf_snd e1 (wf_translate (wf_coreAdmit h e))))
    · next e1 => exact hgo _ _ (wf_onHub (wf_snd e1 (wf_translate (wf_coreAdmit h e))))

theorem wf_coreRemote {s : State} {core : Nat} {x : Core} {type detail a rlen rights len : Nat} {data : List Byte} (h : s.mem.wf = true) :
    (s.coreRemote core x type detail a rlen rights len data).2.mem.wf = true := by
  unfold State.coreRemote
  dsimp only
  split
  · exact h
  · split <;> split <;> exact h

theorem wf_coreLoadAt {s : State} {core : Nat} {x : Core} {n a : Nat} (h : s.mem.wf = true) : (s.coreLoadAt core x n a).after.mem.wf = true := by
  unfold State.coreLoadAt
  dsimp only
  split
  · split
    · exact Got.wf_ok h
    · split
      · exact Got.wf_stall h
      · split
        · exact Got.wf_ok (wf_coreRemote h)
        · exact Got.wf_stall (wf_coreRemote h)
  · exact Got.wf_ok (wf_hubRead _ _ _ _ h)

theorem wf_coreLoad {s : State} {core : Nat} {x : Core} {va n : Nat} (h : s.mem.wf = true) : (s.coreLoad core x va n).after.mem.wf = true := by
  unfold State.coreLoad
  split
  · exact Got.wf_exc h
  · exact Got.wf_ok h
  · exact wf_coreXlat h (fun _ _ hx => wf_coreLoadAt hx)

theorem wf_storeErr {s : State} {p hpa st : Nat} (h : s.mem.wf = true) : (s.storeErr p hpa st).mem.wf = true := wf_onHub h

theorem wf_coreStoreAt {s : State} {core : Nat} {x : Core} {n v a : Nat} (h : s.mem.wf = true) : (s.coreStoreAt core x n v a).after.mem.wf = true := by
  unfold State.coreStoreAt
  dsimp only
  split
  · split
    · exact Got.wf_ok h
    · split
      · exact Got.wf_ok (wf_onHub (wf_storeErr (wf_coreRemote h)))
      · exact Got.wf_ok (wf_onHub (wf_coreRemote h))
  · exact Got.wf_ok (wf_mwrite h)

theorem wf_coreStore {s : State} {core : Nat} {x : Core} {va n v : Nat} (h : s.mem.wf = true) : (s.coreStore core x va n v).after.mem.wf = true := by
  unfold State.coreStore
  split
  · exact Got.wf_exc h
  · exact Got.wf_ok (wf_mk (wf_storeBits _ _ _ _ h))
  · exact wf_coreXlat h (fun _ _ hx => wf_coreStoreAt hx)

theorem wf_bind {g : Got} {x : Core} {va : Nat} {f : State → Nat → Iss} (hg : g.after.mem.wf = true)
    (hf : ∀ t v, t.mem.wf = true → (f t v).after.mem.wf = true) : (g.bind x va f).after.mem.wf = true := by
  unfold Got.bind
  split
  · exact hf _ _ hg
  · exact hg
  · exact hg
  · exact hg

theorem wf_loadIss {n : Nat} {signed : Bool} {f : IForm} {core : Nat} {x : Core} {s : State} (h : s.mem.wf = true) :
    (loadIss n signed f core x s).after.mem.wf = true := by
  unfold loadIss
  dsimp only
  split
  · exact Iss.wf_exc h
  · exact wf_bind (wf_coreLoad h) (fun _ _ hx => Iss.wf_done hx)

theorem wf_storeIss {n : Nat} {f : SForm} {core : Nat} {x : Core} {s : State} (h : s.mem.wf = true) : (storeIss n f core x s).after.mem.wf = true := by
  unfold storeIss
  dsimp only
  split
  · exact Iss.wf_exc h
  · exact wf_bind (wf_coreStore h) (fun _ _ hx => Iss.wf_done hx)

theorem wf_loadElts {core : Nat} {x : Core} {v : Nat} {done : State → Nat → Iss} {s : State} {l : List (Nat × Nat)}
    (hd : ∀ t w, t.mem.wf = true →
    (done t w).after.mem.wf = true) (h : s.mem.wf = true) : (loadElts core x v done s l).after.mem.wf = true := by
  induction l generalizing s v with
  | nil => exact hd _ _ h
  | cons y l ih =>
    rw [loadElts]
    exact wf_bind (wf_coreLoad h) (fun _ _ => ih)

theorem wf_storeElts {core : Nat} {x : Core} {v : Nat} {s : State} {l : List (Nat × Nat)} (h : s.mem.wf = true) :
   
    (storeElts core x v s l).after.mem.wf = true := by
  induction l generalizing s with
  | nil => exact h
  | cons y l ih =>
    rw [storeElts]
    exact wf_bind (wf_coreStore h) (fun _ _ => ih)

theorem wf_vldIss {f : VMForm} {core : Nat} {x : Core} {s : State} (h : s.mem.wf = true) : (vldIss f core x s).after.mem.wf = true := by
  unfold vldIss
  dsimp only
  split
  · exact Iss.wf_exc h
  · split
    · exact wf_bind (wf_coreLoad h) (fun _ _ hx => Iss.wf_done hx)
    · exact wf_loadElts (fun _ _ hx => Iss.wf_done hx) h

theorem wf_vstIss {f : VMForm} {core : Nat} {x : Core} {s : State} (h : s.mem.wf = true) : (vstIss f core x s).after.mem.wf = true := by
  unfold vstIss
  dsimp only
  split
  · exact Iss.wf_exc h
  · split
    · exact wf_bind (wf_coreStore h) (fun _ _ hx => Iss.wf_done hx)
    · exact wf_storeElts h

theorem wf_idxIss {f : VForm} {x : Core} {s : State} {go : List (Nat × Nat) → Iss} (h : s.mem.wf = true)
    (hgo : ∀ l, (go l).after.mem.wf = true) :
    (idxIss f x s go).after.mem.wf = true := by
  unfold idxIss
  dsimp only
  split
  · exact Iss.wf_exc h
  · split
    · exact Iss.wf_exc h
    · exact hgo _

theorem wf_vldxIss {f : VForm} {core : Nat} {x : Core} {s : State} (h : s.mem.wf = true) : (vldxIss f core x s).after.mem.wf = true :=
  wf_idxIss h (fun _ => wf_loadElts (fun _ _ hx => Iss.wf_done hx) h)

theorem wf_vstxIss {f : VForm} {core : Nat} {x : Core} {s : State} (h : s.mem.wf = true) : (vstxIss f core x s).after.mem.wf = true :=
  wf_idxIss h (fun _ => wf_storeElts h)

theorem wf_amoHere {s : State} {fn n a opnd cmp : Nat} (h : s.mem.wf = true) : (s.amoHere fn n a opnd cmp).after.mem.wf = true := by
  unfold State.amoHere
  dsimp only
  split
  · exact Got.wf_ok h
  · exact Got.wf_ok (wf_mk (wf_wr _ _ _ h))

theorem wf_amoAt {s : State} {o : Org} {fn n a opnd cmp : Nat} {alloc : Bool} (h : s.mem.wf = true) :
    (s.amoAt o fn n a opnd cmp alloc).s.mem.wf = true := by
  unfold State.amoAt
  dsimp only
  split
  · exact wf_hubRead _ _ _ _ h
  · exact wf_hubWrite _ _ _ _ _ _ (wf_hubRead _ _ _ _ h)

theorem wf_coreAmoAt {s : State} {core : Nat} {x : Core} {fn n opnd cmp a : Nat} (h : s.mem.wf = true) :
    (s.coreAmoAt core x fn n opnd cmp a).after.mem.wf = true := by
  unfold State.coreAmoAt
  dsimp only
  split
  · split
    · exact Got.wf_ok h
    · split
      · exact Got.wf_stall h
      · split
        · split
          · exact Got.wf_ok (wf_coreRemote h)
          · exact Got.wf_stall (wf_coreRemote h)
        · split
          · exact Got.wf_ok (wf_coreRemote h)
          · exact Got.wf_stall (wf_coreRemote h)
  · exact Got.wf_ok (wf_amoAt h)

theorem wf_amoIss {fn : Nat} {f : RForm} {core : Nat} {x : Core} {s : State} (h : s.mem.wf = true) : (amoIss fn f core x s).after.mem.wf = true := by
  unfold amoIss
  dsimp only
  split
  · exact Iss.wf_exc h
  · split
    · split
      · exact Iss.wf_exc h
      · split
        · exact wf_bind (Got.wf_exc h) (fun _ _ hx1 => Iss.wf_done hx1)
        · exact wf_bind (wf_amoHere h) (fun _ _ hx1 => Iss.wf_done hx1)
        · exact wf_bind (wf_coreXlat h (fun _ _ hx2 => wf_coreAmoAt hx2)) (fun _ _ hx1 => Iss.wf_done hx1)
    · split
      · exact Iss.wf_exc h
      · split
        · exact wf_bind (Got.wf_exc h) (fun _ _ hx1 => Iss.wf_done hx1)
        · exact wf_bind (wf_amoHere h) (fun _ _ hx1 => Iss.wf_done hx1)
        · exact wf_bind (wf_coreXlat h (fun _ _ hx2 => wf_coreAmoAt hx2)) (fun _ _ hx1 => Iss.wf_done hx1)

theorem wf_afterStores {core : Nat} {s : State} {r : Iss} (h : s.mem.wf = true) (hr : r.after.mem.wf = true) :
   
    (afterStores core s r).after.mem.wf = true := by
  unfold afterStores
  split
  · exact Iss.wf_stall h
  · exact hr

theorem wf_fenceIss {legal wait : Bool} {core : Nat} {x : Core} {s : State} (h : s.mem.wf = true) : (fenceIss legal wait core x s).after.mem.wf = true := by
  unfold fenceIss
  split
  · exact Iss.wf_exc h
  · split
    · exact wf_afterStores h (Iss.wf_done h)
    · exact Iss.wf_done h

-- Engines

theorem wf_engSpan {s : State} {r : EngReq} {k : AccKind} {l : List (Nat × Nat)} {n0 n : Nat} (h : s.mem.wf = true) :
    (s.engSpan r k l n0 n).2.mem.wf = true := by
  unfold State.engSpan
  split
  · exact h
  · exact wf_span h

theorem wf_engRead {s : State} {r : EngReq} (h : s.mem.wf = true) : (s.engRead r).mem.wf = true := by
  unfold State.engRead
  dsimp only
  split
  · next e1 => exact wf_snd e1 (wf_span h)
  · next e1 =>
    split
    · exact wf_snd e1 (wf_span h)
    · exact wf_onHub (wf_snd e1 (wf_span h))
    · split
      · next e3 => exact wf_snd e3 (wf_engSpan (wf_snd e1 (wf_span h)))
      · next e3 =>
        split
        · next e4 => exact RGot.wf_of_eq e4 (wf_readAny (wf_snd e3 (wf_engSpan (wf_snd e1 (wf_span h)))))
        · next e4 =>
          split
          · exact wf_onHub (RGot.wf_of_eq e4 (wf_readAny (wf_snd e3 (wf_engSpan (wf_snd e1 (wf_span h))))))
          · exact wf_onHub (wf_dewConv (RGot.wf_of_eq e4 (wf_readAny (wf_snd e3 (wf_engSpan (wf_snd e1 (wf_span h)))))))

theorem wf_engWrote {s : State} {r : EngReq} {st : Nat} (h : s.mem.wf = true) : (s.engWrote r st).mem.wf = true := by
  unfold State.engWrote
  split <;> exact wf_onHub h

theorem wf_engWrite {s : State} {r : EngReq} (h : s.mem.wf = true) : (s.engWrite r).mem.wf = true := by
  unfold State.engWrite
  dsimp only
  split
  · next e1 => exact wf_snd e1 (wf_span h)
  · next e1 =>
    split
    · exact wf_snd e1 (wf_span h)
    · exact wf_onHub (wf_snd e1 (wf_span h))
    · split
      · exact wf_onHub (wf_snd e1 (wf_span h))
      · split
        · next e4 => exact wf_snd e4 (wf_engSpan (wf_snd e1 (wf_span h)))
        · next e4 => exact wf_engWrote (wf_writeAny (wf_onHub (wf_dewConv (wf_snd e4 (wf_engSpan (wf_snd e1 (wf_span h)))))))

theorem wf_writeRuns {s : State} {o : Org} {alloc : Bool} {x : RemCtx} {a v : Nat} {l : List (Nat × Nat)} (h : s.mem.wf = true) :
    (s.writeRuns o alloc x a v l).2.mem.wf = true := by
  induction l generalizing s with
  | nil => exact h
  | cons y l ih =>
    rw [State.writeRuns]
    exact ih (wf_writeAny h)

theorem wf_engPartial {s : State} {r : EngReq} (h : s.mem.wf = true) : (s.engPartial r).mem.wf = true := by
  unfold State.engPartial
  dsimp only
  split
  · next e1 => exact wf_snd e1 (wf_translate h)
  · next e1 =>
    split
    · exact wf_snd e1 (wf_translate h)
    · exact wf_onHub (wf_snd e1 (wf_translate h))
    · exact wf_onHub (wf_snd e1 (wf_translate h))
    · exact wf_engWrote (wf_writeRuns (wf_onHub (wf_snd e1 (wf_translate h))))

theorem wf_engAtomic {s : State} {r : EngReq} (h : s.mem.wf = true) : (s.engAtomic r).mem.wf = true := by
  unfold State.engAtomic
  dsimp only
  split
  · next e1 => exact wf_snd e1 (wf_translate h)
  · next e1 =>
    split
    · split
      · exact wf_onHub (wf_snd e1 (wf_translate h))
      · split
        · exact wf_snd e1 (wf_translate h)
        · split
          · split
            · exact wf_onHub (wf_snd e1 (wf_translate h))
            · split
              · exact wf_mk (wf_snd e1 (wf_translate h))
              · exact wf_onHub (wf_snd e1 (wf_translate h))
          · split
            · exact wf_onHub (wf_snd e1 (wf_translate h))
            · split
              · exact wf_mk (wf_snd e1 (wf_translate h))
              · exact wf_onHub (wf_snd e1 (wf_translate h))
    · split <;> split <;> exact wf_onHub (wf_amoAt (wf_snd e1 (wf_translate h)))

theorem wf_maintAny {s : State} {o : Org} {x : RemCtx} {op line : Nat} (h : s.mem.wf = true) : (s.maintAny o x op line).2.mem.wf = true := by
  unfold State.maintAny
  dsimp only
  split
  · split
    · exact wf_writeAny h
    · exact h
  · exact wf_maintAt _ _ _ h

theorem wf_maintLines {s : State} {o : Org} {x : RemCtx} {op : Nat} {l : List Nat} (h : s.mem.wf = true) : (s.maintLines o x op l).2.mem.wf = true := by
  induction l generalizing s with
  | nil => exact h
  | cons y l ih =>
    rw [State.maintLines]
    exact ih (wf_maintAny h)

theorem wf_engMaint {s : State} {r : EngReq} (h : s.mem.wf = true) : (s.engMaint r).mem.wf = true := by
  unfold State.engMaint
  dsimp only
  split
  · next e1 => exact wf_snd e1 (wf_span h)
  · next e1 => exact wf_engWrote (wf_maintLines (wf_snd e1 (wf_span h)))

theorem wf_engPrefetch {s : State} {r : EngReq} (h : s.mem.wf = true) : (s.engPrefetch r).mem.wf = true := by
  unfold State.engPrefetch
  dsimp only
  split
  · next e1 => exact wf_snd e1 (wf_span h)
  · next e1 =>
    split
    · exact wf_onHub (wf_foldl (fun _ _ hx => wf_ite (wf_readPiece _ _ _ _ hx) hx) (wf_snd e1 (wf_span h)))
    · exact wf_onHub (wf_snd e1 (wf_span h))

theorem wf_engRun {s : State} {r : EngReq} (h : s.mem.wf = true) : (s.engRun r).mem.wf = true := by
  unfold State.engRun
  split
  · split
    · exact h
    · exact wf_onHub h
  · split
    · exact wf_engRead h
    · exact wf_engWrite h
    · exact wf_engPartial h
    · exact wf_engAtomic h
    · exact wf_engMaint h
    · exact wf_engPrefetch h

theorem wf_evtMemory {s : State} {v : EngEvt} (h : s.mem.wf = true) : (s.evtMemory v).mem.wf = true := by
  unfold State.evtMemory
  dsimp only
  split
  · exact wf_onHub h
  · split
    · next e2 => exact wf_snd e2 (wf_translate h)
    · next e2 =>
      split
      · split <;> exact wf_onHub (wf_writeAny (wf_snd e2 (wf_translate h)))
      · split
        · exact wf_onHub (wf_eventAdd _ (wf_snd e2 (wf_translate h)))
        · exact wf_onHub (wf_snd e2 (wf_translate h))

theorem wf_evtApply {s : State} {v : EngEvt} (h : s.mem.wf = true) : (s.evtApply v).mem.wf = true := by
  unfold State.evtApply
  dsimp only
  split
  · exact h
  · split
    · exact wf_onHub h
    · split
      · exact wf_onHub h
      · exact wf_evtMemory h

theorem wf_pumpEvts {s : State} {site : Nat} (h : s.mem.wf = true) : (s.pumpEvts site).mem.wf = true := wf_foldl (fun _ _ hx => wf_evtApply hx) h

theorem wf_wrongOp {s : State} {site : Nat} {hdr : BitVec 128} (h : s.mem.wf = true) : (s.wrongOp site hdr).mem.wf = true := by
  unfold State.wrongOp
  split
  · exact h
  · exact wf_onHub h

theorem wf_eepRequest {op site mod : Nat} {hdr : BitVec 128} {data : List (BitVec 512)} {s : State} (h : s.mem.wf = true) :
    (eepRequest op site mod hdr data s).mem.wf = true := by
  unfold eepRequest
  dsimp only
  split
  · exact h
  · split
    · exact wf_wrongOp h
    · split
      · exact wf_onHub h
      · split
        · exact wf_pumpEvts (wf_mk h)
        · split
          · exact wf_pumpEvts (wf_engRun (wf_mk h))
          · exact wf_mk h

theorem wf_engAgain1 {s : State} {r : EngReq} (h : s.mem.wf = true) : (s.engAgain1 r).mem.wf = true := by
  unfold State.engAgain1
  split
  · exact h
  · split
    · exact h
    · exact wf_engRun h

theorem wf_engAgain {s : State} {p : Nat → Bool} (h : s.mem.wf = true) : (s.engAgain p).mem.wf = true :=
  wf_foldl (fun _ _ hx1 => wf_pumpEvts (wf_foldl (fun _ _ hx4 => wf_ite (wf_engAgain1 hx4) hx4) hx1)) h

theorem wf_eepEvent {op site mod : Nat} {hdr : BitVec 128} {data : List (BitVec 512)} {s : State} (h : s.mem.wf = true) :
    (eepEvent op site mod hdr data s).mem.wf = true := by
  unfold eepEvent
  dsimp only
  split
  · exact h
  · split
    · exact wf_wrongOp h
    · split
      · split
        · exact wf_onHub h
        · exact wf_pumpEvts (wf_onHub h)
      · split
        · exact wf_onHub h
        · exact wf_pumpEvts (wf_onHub h)

theorem kept_execEepCleared {site : BitVec 4} {mod : BitVec 3} {hdr : BitVec 128} {s : State} (h : s.mem.wf = true) : Kept
    (execEepCleared site mod hdr s) := by
  unfold execEepCleared
  dsimp only
  split
  · exact kept_next h
  · split
    · exact kept_next (wf_wrongOp h)
    · split
      · exact kept_next (wf_onHub h)
      · split <;> exact kept_next (wf_onHub (wf_pumpEvts (wf_onHub h)))

theorem kept_execEepErrorReport {site : BitVec 4} {mod : BitVec 3} {hdr : BitVec 128} {s : State} (h : s.mem.wf = true) : Kept
    (execEepErrorReport site mod hdr s) := by
  unfold execEepErrorReport
  dsimp only
  split
  · exact kept_next h
  · split
    · exact kept_next (wf_wrongOp h)
    · split
      · exact kept_next (wf_onHub h)
      · split <;> exact kept_next (wf_onHub (wf_onHub h))

theorem kept_execEepCredit {site : BitVec 4} {mod : BitVec 3} {hdr : BitVec 128} {s : State} (h : s.mem.wf = true) : Kept
    (execEepCredit site mod hdr s) := by
  unfold execEepCredit
  extract_lets k x n g cls bad
  clear_value bad
  split
  · exact kept_next h
  · split
    · exact kept_next (wf_wrongOp h)
    · split
      · exact kept_next (wf_onHub h)
      · exact kept_next (wf_onHub h)

theorem kept_execClearedTimeout {e : BitVec 7} {s : State} (h : s.mem.wf = true) : Kept (execClearedTimeout e s) := by
  unfold execClearedTimeout
  split
  · exact kept_next (wf_onHub h)
  · exact kept_next h

-- Dewpoint

theorem kept_execDewpointRecompute {die : BitVec 1} {s : State} (h : s.mem.wf = true) : Kept (execDewpointRecompute die s) := by
  unfold execDewpointRecompute
  dsimp only
  split
  · exact kept_next h
  · exact kept_hubStep h

theorem kept_execWindowClose {part : BitVec 5} {tag : BitVec 8} {s : State} (h : s.mem.wf = true) : Kept (execWindowClose part tag s) := by
  unfold execWindowClose
  dsimp only
  split
  · exact kept_hubStep h
  · exact kept_next h

theorem wf_migGroup {s : State} {p t : Nat} (h : s.mem.wf = true) : (s.migGroup p t).mem.wf = true := by
  unfold State.migGroup
  dsimp only
  split
  · next e1 => exact wf_snd e1 (wf_span h)
  · next e1 =>
    split
    · next e2 => exact wf_snd e2 (wf_span (wf_snd e1 (wf_span h)))
    · next e2 => exact wf_engAgain (wf_onHub (wf_writePieces (wf_readPieces (wf_snd e2 (wf_span (wf_snd e1 (wf_span h)))))))

theorem kept_execMigrationGroupDone {part : BitVec 5} {tag : BitVec 8} {s : State} (h : s.mem.wf = true) : Kept (execMigrationGroupDone part tag s) := by
  unfold execMigrationGroupDone
  dsimp only
  split
  · exact kept_next (wf_migGroup h)
  · exact kept_next h

theorem kept_execMigrationComplete {part : BitVec 5} {tag : BitVec 8} {s : State} (h : s.mem.wf = true) : Kept (execMigrationComplete part tag s) := by
  unfold execMigrationComplete
  dsimp only
  split
  · exact kept_next (wf_engAgain (wf_onHub h))
  · exact kept_next h

-- Drift

theorem wf_streamOpenCmd {c : QCmd} {s : State} (h : s.mem.wf = true) : (streamOpenCmd c s).mem.wf = true := by
  unfold streamOpenCmd
  dsimp only
  split
  · exact wf_done h
  · split
    · exact wf_done h
    · split
      · exact wf_done h
      · split
        · next e4 => exact wf_snd e4 (wf_cmdRead h)
        · next e4 =>
          split
          · exact wf_done (wf_snd e4 (wf_cmdRead h))
          · split
            · exact wf_done (wf_snd e4 (wf_cmdRead h))
            · split
              · exact wf_done (wf_snd e4 (wf_cmdRead h))
              · split
                · split
                  · exact wf_done (wf_snd e4 (wf_cmdRead h))
                  · split
                    · exact wf_done (wf_snd e4 (wf_cmdRead h))
                    · exact wf_done (wf_onHub (wf_snd e4 (wf_cmdRead h)))
                · split
                  · exact wf_done (wf_snd e4 (wf_cmdRead h))
                  · split
                    · exact wf_done (wf_snd e4 (wf_cmdRead h))
                    · exact wf_done (wf_onHub (wf_snd e4 (wf_cmdRead h)))

theorem kept_execStreamClose {cmd : QCmd} {s : State} (h : s.mem.wf = true) : Kept (execStreamClose cmd s) := by
  unfold execStreamClose
  dsimp only
  split
  · exact kept_next (wf_done h)
  · split
    · exact kept_next (wf_done h)
    · split
      · exact kept_next (wf_done h)
      · split
        · exact kept_next (wf_done (wf_onHub h))
        · exact kept_next (wf_done h)

theorem wf_descFetch {s : State} {n ix : Nat} {host : BitVec 512} (h : s.mem.wf = true) : (s.descFetch n ix host).2.mem.wf = true := by
  unfold State.descFetch
  dsimp only
  split
  · exact h
  · split
    · next e2 => exact wf_snd e2 (wf_devPieces h)
    · next e2 =>
      split
      · exact wf_snd e2 (wf_devPieces h)
      · exact wf_readPieces (wf_snd e2 (wf_devPieces h))

theorem wf_eventVa {s : State} {n ix : Nat} {d : Desc} (h : s.mem.wf = true) : (s.eventVa n ix d).2.mem.wf = true := by
  unfold State.eventVa
  split
  · exact h
  · split
    · next e1 => exact wf_snd e1 (wf_devPieces h)
    · next e1 =>
      split
      · split <;> exact wf_snd e1 (wf_devPieces h)
      · exact wf_snd e1 (wf_devPieces h)

theorem kept_execDescriptorStart {n : BitVec 15} {host : BitVec 512} {s : State} (h : s.mem.wf = true) : Kept (execDescriptorStart n host s) := by
  unfold execDescriptorStart
  dsimp only
  split
  · exact kept_next h
  · split
    · next e2 => exact kept_next (wf_snd e2 (wf_descFetch h))
    · next e2 => exact kept_next (wf_onHub (wf_snd e2 (wf_descFetch h)))
    · next e2 =>
      split
      · exact kept_next (wf_snd e2 (wf_descFetch h))
      · split
        · next e4 => exact kept_next (wf_snd e4 (wf_eventVa (wf_snd e2 (wf_descFetch h))))
        · next e4 => exact kept_next (wf_onHub (wf_snd e4 (wf_eventVa (wf_snd e2 (wf_descFetch h)))))

theorem wf_hostRead {s : State} {n ix a len : Nat} {got : List (Nat × Nat × Bool)} (h : s.mem.wf = true) :
    (s.hostRead n ix a len got).after.mem.wf = true := by
  unfold State.hostRead
  dsimp only
  split
  · exact RGot.wf_ok h
  · split
    · exact RGot.wf_wait h
    · split
      · exact RGot.wf_ok h
      · split
        · exact RGot.wf_wait (wf_mk h)
        · split <;> exact RGot.wf_wait (wf_mk h)

theorem wf_rowDst {s : State} {n ix va len : Nat} {host : Bool} (h : s.mem.wf = true) : (s.rowDst n ix va len host).2.mem.wf = true := by
  unfold State.rowDst
  split
  · split <;> exact h
  · split <;> next e1 => exact wf_snd e1 (wf_devPieces h)

theorem wf_rowSrc {s : State} {n ix va len : Nat} {host : Bool} (h : s.mem.wf = true) : (s.rowSrc n ix va len host).2.mem.wf = true := by
  unfold State.rowSrc
  split
  · exact h
  · exact wf_devPieces h

theorem wf_rowRead {s : State} {n ix va len : Nat} {host alloc : Bool} {d : Desc} {l : List (Nat × Nat)} (h : s.mem.wf = true) :
    (s.rowRead n ix va len host alloc d l).after.mem.wf = true := by
  unfold State.rowRead
  split
  · exact wf_hostRead h
  · split
    · exact RGot.wf_ok h
    · exact wf_readAny h

theorem wf_rowMove {s : State} {n : Nat} {d : Desc} {sva dva : Nat} (h : s.mem.wf = true) : (s.rowMove n d sva dva).after.mem.wf = true := by
  unfold State.rowMove
  dsimp only
  split
  · next e1 => exact RowRes.wf_wait (wf_snd e1 (wf_rowSrc h))
  · next e1 =>
    split
    · next e2 => exact RowRes.wf_wait (wf_snd e2 (wf_rowDst (wf_snd e1 (wf_rowSrc h))))
    · next e2 =>
      split
      · split
        · exact RowRes.wf_stop (wf_snd e2 (wf_rowDst (wf_snd e1 (wf_rowSrc h))))
        · split
          · exact RowRes.wf_stop (wf_snd e2 (wf_rowDst (wf_snd e1 (wf_rowSrc h))))
          · exact RowRes.wf_wait (wf_snd e2 (wf_rowDst (wf_snd e1 (wf_rowSrc h))))
          · split
            · next e6 => exact RowRes.wf_wait (wf_snd e6 (wf_rowSrc (wf_snd e2 (wf_rowDst (wf_snd e1 (wf_rowSrc h))))))
            · next e6 =>
              split
              · next e7 => exact RowRes.wf_wait (wf_snd e7 (wf_rowDst (wf_snd e6 (wf_rowSrc (wf_snd e2 (wf_rowDst (wf_snd e1 (wf_rowSrc h))))))))
              · next e7 =>
                split
                · exact RowRes.wf_stop (wf_snd e7 (wf_rowDst (wf_snd e6 (wf_rowSrc (wf_snd e2 (wf_rowDst (wf_snd e1 (wf_rowSrc h))))))))
                · split
                  · next e9 => exact RowRes.wf_wait (RGot.wf_of_eq e9 (wf_rowRead (wf_snd e7 (wf_rowDst (wf_snd e6 (wf_rowSrc (wf_snd e2 (wf_rowDst (wf_snd e1 (wf_rowSrc h))))))))))
                  · next e9 =>
                    split
                    · exact RowRes.wf_stop (RGot.wf_of_eq e9 (wf_rowRead (wf_snd e7 (wf_rowDst (wf_snd e6 (wf_rowSrc (wf_snd e2 (wf_rowDst (wf_snd e1 (wf_rowSrc h))))))))))
                    · exact RowRes.wf_out (wf_dewConv (RGot.wf_of_eq e9 (wf_rowRead (wf_snd e7 (wf_rowDst (wf_snd e6 (wf_rowSrc (wf_snd e2 (wf_rowDst (wf_snd e1 (wf_rowSrc h)))))))))))
      · split
        · exact RowRes.wf_stop (wf_snd e2 (wf_rowDst (wf_snd e1 (wf_rowSrc h))))
        · split
          · exact RowRes.wf_stop (wf_snd e2 (wf_rowDst (wf_snd e1 (wf_rowSrc h))))
          · exact RowRes.wf_wait (wf_snd e2 (wf_rowDst (wf_snd e1 (wf_rowSrc h))))
          · split
            · next e6 => exact RowRes.wf_wait (wf_snd e6 (wf_rowSrc (wf_snd e2 (wf_rowDst (wf_snd e1 (wf_rowSrc h))))))
            · next e6 =>
              split
              · next e7 => exact RowRes.wf_wait (wf_snd e7 (wf_rowDst (wf_snd e6 (wf_rowSrc (wf_snd e2 (wf_rowDst (wf_snd e1 (wf_rowSrc h))))))))
              · next e7 =>
                split
                · exact RowRes.wf_stop (wf_snd e7 (wf_rowDst (wf_snd e6 (wf_rowSrc (wf_snd e2 (wf_rowDst (wf_snd e1 (wf_rowSrc h))))))))
                · split
                  · next e9 => exact RowRes.wf_wait (RGot.wf_of_eq e9 (wf_rowRead (wf_snd e7 (wf_rowDst (wf_snd e6 (wf_rowSrc (wf_snd e2 (wf_rowDst (wf_snd e1 (wf_rowSrc h))))))))))
                  · next e9 =>
                    split
                    · exact RowRes.wf_stop (RGot.wf_of_eq e9 (wf_rowRead (wf_snd e7 (wf_rowDst (wf_snd e6 (wf_rowSrc (wf_snd e2 (wf_rowDst (wf_snd e1 (wf_rowSrc h))))))))))
                    · exact RowRes.wf_out (wf_dewConv (RGot.wf_of_eq e9 (wf_rowRead (wf_snd e7 (wf_rowDst (wf_snd e6 (wf_rowSrc (wf_snd e2 (wf_rowDst (wf_snd e1 (wf_rowSrc h)))))))))))

theorem wf_rowsGo {f r : Nat} {s : State} {n : Nat} {d : Desc} {addr : Nat → Nat × Nat ⊕ Nat × Nat} (h : s.mem.wf = true) :
    (State.rowsGo f r s n d addr).s.mem.wf = true := by
  induction f generalizing r s with
  | zero => exact h
  | succ f ih =>
    rw [State.rowsGo]
    dsimp only
    split
    · exact h
    · split
      · next e2 => exact ih (RowRes.wf_of_eq e2 (wf_rowMove h))
      · next e2 => exact RowRes.wf_of_eq e2 (wf_rowMove h)
      · next e2 => exact RowRes.wf_of_eq e2 (wf_rowMove h)
      · next e2 => exact ih (RowRes.wf_of_eq e2 (wf_rowMove h))

theorem wf_rowWrite {s : State} {n ix : Nat} {alloc : Bool} {o : RowOut} (h : s.mem.wf = true) : (s.rowWrite n ix alloc o).2.mem.wf = true := by
  unfold State.rowWrite
  dsimp only
  split
  · split
    · exact h
    · exact wf_onHub h
  · exact wf_writeAny h

theorem wf_rowsWrite {s : State} {n ix : Nat} {alloc : Bool} {l : List RowOut} (h : s.mem.wf = true) : (s.rowsWrite n ix alloc l).2.mem.wf = true := by
  induction l generalizing s with
  | nil => exact h
  | cons y l ih =>
    rw [State.rowsWrite]
    exact ih (wf_rowWrite h)

theorem wf_descRun {s : State} {n ix op : Nat} {body : State → Desc → State} (h : s.mem.wf = true)
    (hb : ∀ t d, t.mem.wf = true →
    (body t d).mem.wf = true) : (s.descRun n ix op body).mem.wf = true := by
  unfold State.descRun
  dsimp only
  split
  · exact h
  · split
    · exact h
    · split
      · exact wf_onHub h
      · split
        · exact h
        · split
          · dsimp only
            split
            · exact wf_mk h
            · exact hb _ _ (wf_onHub (wf_mk h))
          · split
            · exact wf_mk h
            · exact hb _ _ (wf_onHub (wf_mk h))

theorem wf_rowsEnd {n : Nat} {d : Desc} {q : Rows} (h : q.s.mem.wf = true) : (State.rowsEnd n d q).mem.wf = true := wf_onHub (wf_onHub (wf_rowsWrite h))

theorem wf_moveRows {s : State} {n : Nat} {d : Desc} {addr : Nat → Nat × Nat ⊕ Nat × Nat} (h : s.mem.wf = true) : (s.moveRows n d addr).mem.wf = true := by
  unfold State.moveRows
  dsimp only
  split
  · exact wf_rowsGo h
  · exact wf_rowsEnd (wf_rowsGo h)

theorem wf_fillRows {f r : Nat} {s : State} {n : Nat} {d : Desc} (h : s.mem.wf = true) : (State.fillRows f r s n d).s.mem.wf = true := by
  induction f generalizing r s with
  | zero => exact h
  | succ f ih =>
    rw [State.fillRows]
    dsimp only
    split
    · next e1 => exact wf_snd e1 (wf_rowDst h)
    · next e1 =>
      split
      · exact wf_snd e1 (wf_rowDst h)
      · split
        · exact wf_snd e1 (wf_rowDst h)
        · exact wf_snd e1 (wf_rowDst h)
        · exact ih (wf_snd e1 (wf_rowDst h))

theorem wf_indexList {s : State} {n : Nat} {d : Desc} (h : s.mem.wf = true) : (s.indexList n d).after.mem.wf = true := by
  unfold State.indexList
  dsimp only
  split
  · next e1 => exact RGot.wf_wait (wf_snd e1 (wf_devPieces h))
  · next e1 =>
    split
    · exact RGot.wf_ok (wf_snd e1 (wf_devPieces h))
    · exact wf_readAny (wf_snd e1 (wf_devPieces h))

theorem wf_indexedGo {f r : Nat} {s : State} {n : Nat} {d : Desc} {v bad : Nat} (h : s.mem.wf = true) :
    (State.indexedGo f r s n d v bad).s.mem.wf = true := by
  induction f generalizing r s with
  | zero => exact h
  | succ f ih =>
    rw [State.indexedGo]
    dsimp only
    split
    · exact ih h
    · split
      · exact wf_rowsGo h
      · exact ih (wf_rowsGo h)

theorem wf_indexedRows {s : State} {n : Nat} {d : Desc} (h : s.mem.wf = true) : (s.indexedRows n d).mem.wf = true := by
  unfold State.indexedRows
  dsimp only
  split
  · next e1 => exact RGot.wf_of_eq e1 (wf_indexList h)
  · next e1 =>
    split
    · exact wf_onHub (RGot.wf_of_eq e1 (wf_indexList h))
    · split
      · exact wf_indexedGo (RGot.wf_of_eq e1 (wf_indexList h))
      · exact wf_rowsEnd (wf_ite (wf_onHub (wf_indexedGo (RGot.wf_of_eq e1 (wf_indexList h)))) (wf_indexedGo (RGot.wf_of_eq e1 (wf_indexList h))))

theorem wf_maintRow {s : State} {n op : Nat} {l : List (Nat × Nat)} (h : s.mem.wf = true) : (s.maintRow n op l).2.mem.wf = true := by
  induction l generalizing s with
  | nil => exact h
  | cons y l ih =>
    unfold State.maintRow
    dsimp only
    refine wf_ite_snd h (ih ?_)
    refine foldl_keeps (fun q : Nat × State => q.2.mem.wf = true) _ ?_ _ _ h
    intro q i hq
    exact wf_maintAt _ _ _ hq

theorem wf_maintRows {f r : Nat} {s : State} {n op : Nat} {d : Desc} (h : s.mem.wf = true) : (State.maintRows f r s n op d).2.mem.wf = true := by
  induction f generalizing r s with
  | zero => exact h
  | succ f ih =>
    rw [State.maintRows]
    dsimp only
    split
    · next e1 => exact wf_snd e1 (wf_devPieces h)
    · next e1 =>
      split
      · exact wf_snd e1 (wf_devPieces h)
      · split
        · exact wf_maintRow (wf_snd e1 (wf_devPieces h))
        · exact ih (wf_maintRow (wf_snd e1 (wf_devPieces h)))

theorem kept_driftMaint {op : Nat} {n : BitVec 15} {ix : BitVec 32} {s : State} (h : s.mem.wf = true) : Kept (driftMaint op n ix s) := by
  refine kept_next (wf_descRun h fun t d ht => ?_)
  split
  · next e => exact wf_snd e (wf_maintRows ht)
  · next e => exact wf_onHub (wf_snd e (wf_maintRows ht))

theorem wf_descReport {s : State} {n : Nat} {d : Desc} {st detail : Nat} (h : s.mem.wf = true) : (s.descReport n d st detail).mem.wf = true :=
  wf_streamFlush (wf_ite (wf_onHub h) (wf_descAfter (wf_onHub h)))

theorem kept_execDescriptorComplete {n : BitVec 15} {s : State} (h : s.mem.wf = true) : Kept (execDescriptorComplete n s) := by
  unfold execDescriptorComplete
  split
  · exact kept_next (wf_streamFlush h)
  · split
    · exact kept_next h
    · exact kept_next (wf_descReport h)

theorem kept_execRemoteRowRetry {n : BitVec 15} {ix us : BitVec 32} {s : State} (h : s.mem.wf = true) : Kept (execRemoteRowRetry n ix us s) := by
  unfold execRemoteRowRetry
  dsimp only
  split
  · exact kept_next h
  · split
    · exact kept_next h
    · split <;> exact kept_next (wf_onHub h)

theorem kept_execPriResponse {n : BitVec 15} {ix : BitVec 32} {ok : Bool} {s : State} (h : s.mem.wf = true) : Kept (execPriResponse n ix ok s) := by
  unfold execPriResponse
  dsimp only
  split
  · exact kept_next h
  · exact kept_next (wf_onHub h)

-- Partitions

theorem wf_floeScrub {s : State} {f : Nat} (h : s.mem.wf = true) : (s.floeScrub f).mem.wf = true := wf_mk (wf_zero _ _ (wf_zero _ _ (wf_zero _ _ h)))

theorem wf_sliceScrub {s : State} {drop : Bool} {sl : Nat} (h : s.mem.wf = true) : (s.sliceScrub drop sl).mem.wf = true :=
  wf_zero _ _ (wf_ite (wf_mk (wf_dropLines _ (wf_dropReqs _ h))) (wf_flushLines _ (wf_foldl (fun _ _ hx => wf_settle _ hx) h)))

theorem wf_rekey {s : State} {k : Nat} (h : s.mem.wf = true) : (s.rekey k).mem.wf = true := wf_unfillHalf _ (wf_dropLines _ (wf_dropReqs _ h))

theorem wf_partReset {s : State} {p : Nat} (h : s.mem.wf = true) : (s.partReset p).mem.wf = true :=
  wf_foldl (fun _ _ k => wf_onHub (wf_sliceScrub k)) (wf_foldl (fun _ _ k => wf_floeScrub k) (wf_onHub (wf_onHub h)))

theorem wf_partThaw {s : State} {p : Nat} {del : Bool} (h : s.mem.wf = true) : (s.partThaw p del).mem.wf = true :=
  wf_foldl (fun _ _ k => wf_rekey k) (wf_foldl (fun _ _ k => wf_sliceScrub k) (wf_foldl (fun _ _ k => wf_floeScrub k) (wf_onHub h)))

theorem wf_prtReset {s : State} {via p : Nat} (h : s.mem.wf = true) : (s.prtReset via p).mem.wf = true := by
  unfold State.prtReset
  split
  · exact wf_onHub h
  · split
    · exact wf_onHub h
    · exact wf_partReset h

theorem wf_prtThaw {s : State} {via p : Nat} (h : s.mem.wf = true) : (s.prtThaw via p).mem.wf = true := by
  unfold State.prtThaw
  split
  · exact wf_onHub h
  · split
    · exact wf_onHub h
    · exact wf_partThaw h

theorem wf_prtPending {s : State} (h : s.mem.wf = true) : (s.prtPending).mem.wf = true :=
  wf_foldl (fun _ _ hx => wf_ite (wf_ite (wf_partThaw hx) (wf_onHub hx)) (wf_ite (wf_ite (wf_partReset hx) (wf_onHub hx)) hx)) h

theorem kept_execStopComplete {part : BitVec 5} {s : State} (h : s.mem.wf = true) : Kept (execStopComplete part s) := by
  unfold execStopComplete
  dsimp only
  split
  · exact kept_hubStep h
  · exact kept_next h

theorem kept_execStopTimeout {part : BitVec 5} {s : State} (h : s.mem.wf = true) : Kept (execStopTimeout part s) := by
  unfold execStopTimeout
  dsimp only
  split
  · exact kept_hubStep h
  · exact kept_next h

theorem kept_execPartitionResetComplete {part : BitVec 5} {s : State} (h : s.mem.wf = true) : Kept (execPartitionResetComplete part s) := by
  unfold execPartitionResetComplete
  dsimp only
  split
  · exact kept_hubStep h
  · exact kept_next h

theorem kept_execThawComplete {part : BitVec 5} {s : State} (h : s.mem.wf = true) : Kept (execThawComplete part s) := by
  unfold execThawComplete
  dsimp only
  split
  · exact kept_hubStep h
  · exact kept_next h

-- Packets

theorem wf_rxFrame {p : LinkPkt} {go : State → State} {s : State} (h : s.mem.wf = true) (hgo : ∀ t, t.mem.wf = true → (go t).mem.wf = true) :
   
    (rxFrame p go s).mem.wf = true := by
  unfold rxFrame
  dsimp only
  split
  · exact h
  · split
    · exact wf_onHub h
    · split
      · exact wf_onHub h
      · split
        · exact wf_onHub h
        · exact wf_onHub (hgo _ (wf_onHub h))

theorem wf_winApply {s : State} {l n type : Nat} {p : LinkPkt} {x : ReqExt} (h : s.mem.wf = true) : (s.winApply l n type p x).mem.wf = true := by
  unfold State.winApply
  dsimp only
  split
  · split <;> split <;> exact wf_onHub (wf_hubWrite _ _ _ _ _ _ (wf_onHub h))
  · split <;> exact wf_onHub (wf_hubRead _ _ _ _ (wf_onHub h))
  · split <;> exact wf_onHub (wf_amoAt (wf_onHub h))

theorem wf_colApply {s : State} {l n type : Nat} {p : LinkPkt} {x : ColExt} (h : s.mem.wf = true) : (s.colApply l n type p x).mem.wf = true := by
  unfold State.colApply
  dsimp only
  split
  · split <;> exact wf_onHub (wf_colDataIn h)
  · exact wf_onHub h

theorem wf_winDo {s : State} {r : WinHeld} (h : s.mem.wf = true) : (s.winDo r).mem.wf = true := by
  unfold State.winDo
  split
  · exact wf_winApply h
  · exact wf_colApply h

theorem wf_rxApply {s : State} {q : LPath} {r : InReq} (h : s.mem.wf = true) : (s.rxApply q r).mem.wf = true := by
  unfold State.rxApply
  dsimp only
  split
  · split
    · exact wf_onHub h
    · split
      · exact wf_winDo (wf_mk h)
      · exact wf_mk h
  · split
    · exact wf_winDo (wf_mk h)
    · exact wf_mk h

theorem wf_rxDrain {f : Nat} {s : State} {l n : Nat} (h : s.mem.wf = true) : (State.rxDrain f s l n).mem.wf = true := by
  induction f generalizing s with
  | zero => exact h
  | succ f ih =>
    rw [State.rxDrain]
    dsimp only
    split
    · exact h
    · split
      · exact h
      · exact ih (wf_rxApply (wf_onHub h))

theorem wf_rxDup {s : State} {q : LPath} {r : InReq} (h : s.mem.wf = true) : (s.rxDup q r).mem.wf = true := by
  unfold State.rxDup
  split
  · exact h
  · split
    · exact wf_rxApply h
    · split <;> exact wf_onHub h
    · exact wf_onHub h

theorem wf_rxReq {s : State} {p : LinkPkt} {r : InReq} (h : s.mem.wf = true) : (s.rxReq p r).mem.wf = true := by
  unfold State.rxReq
  dsimp only
  split
  · exact h
  · split
    · exact wf_rxDup (wf_onHub h)
    · split
      · exact wf_onHub h
      · split
        · exact wf_onHub h
        · exact wf_rxDrain (wf_onHub (wf_onHub h))

theorem wf_wakeEng {s : State} {e rtag : Nat} (h : s.mem.wf = true) : (s.wakeEng e rtag).mem.wf = true := by
  unfold State.wakeEng
  dsimp only
  split
  · exact wf_pumpEvts (wf_engAgain1 h)
  · exact wf_pumpEvts h

theorem wf_remOk {s : State} {r : OutReq} {v : Nat} {bad : Bool} (h : s.mem.wf = true) : (s.remOk r v bad).mem.wf = true := by
  unfold State.remOk
  dsimp only
  split
  · exact wf_onHub h
  · exact wf_onHub h
  · split
    · exact wf_onHub h
    · exact h
  · split
    · exact wf_onHub h
    · exact h
  · split
    · exact wf_wakeEng h
    · split
      · exact wf_wakeEng (wf_onHub h)
      · exact wf_wakeEng h
  · split
    · split
      · exact wf_colWork (wf_ite (wf_onHub h) h)
      · exact h
    · exact h
  · exact h
  · exact wf_pumpEvts h

theorem wf_remBad {s : State} {r : OutReq} {st : Nat} (h : s.mem.wf = true) : (s.remBad r st).mem.wf = true := by
  unfold State.remBad
  dsimp only
  split
  · exact wf_wakeEng (wf_onHub h)
  · exact wf_pumpEvts (wf_onHub h)
  · exact wf_onHub h

theorem wf_rxResp {s : State} {p : LinkPkt} {type : Nat} (h : s.mem.wf = true) : (s.rxResp p type).mem.wf = true := by
  unfold State.rxResp
  split
  · exact h
  · split
    · exact h
    · exact wf_remOk (wf_onHub h)

theorem wf_remOkAll {s : State} {l : List OutReq} (h : s.mem.wf = true) : (s.remOkAll l).mem.wf = true := wf_foldl (fun _ _ hx => wf_remOk hx) h

theorem wf_rxAck {s : State} {p : LinkPkt} {a sack : Nat} (h : s.mem.wf = true) : (s.rxAck p a sack).mem.wf = true := by
  unfold State.rxAck
  dsimp only
  split
  · exact h
  · exact wf_remOkAll (wf_onHub h)

theorem wf_rxNak {s : State} {p : LinkPkt} {psn code : Nat} (h : s.mem.wf = true) : (s.rxNak p psn code).mem.wf = true := by
  unfold State.rxNak
  split
  · exact h
  · split
    · exact h
    · exact wf_remBad (wf_onHub h)

-- Links

theorem wf_pumpAll {s : State} (h : s.mem.wf = true) : (s.pumpAll).mem.wf = true := wf_engAgain h

theorem kept_execCnp {p : LinkPkt} {s : State} (h : s.mem.wf = true) : Kept (execCnp p s) := by
  refine kept_next (wf_rxFrame h fun t ht => ?_)
  split
  · exact ht
  · exact wf_onHub ht

theorem kept_execPathClose {p : LinkPkt} {s : State} (h : s.mem.wf = true) : Kept (execPathClose p s) := by
  refine kept_next (wf_pumpAll (wf_rxFrame h fun t ht => ?_))
  split
  · exact ht
  · exact wf_onHub ht

-- Forecasts and commits

theorem wf_commitFails {s : State} {cause : Nat} (h : s.mem.wf = true) : (s.commitFails cause).mem.wf = true := by
  unfold State.commitFails
  dsimp only
  split
  · exact h
  · exact wf_prtPending (wf_onHub h)

theorem kept_execCommitTwinTimeout {s : State} (h : s.mem.wf = true) : Kept (execCommitTwinTimeout s) := by
  unfold execCommitTwinTimeout
  split
  · split
    · exact kept_next (wf_commitFails h)
    · exact kept_next h
  · exact kept_next h

theorem wf_cleanLines {s : State} {q : Nat → Bool} (h : s.mem.wf = true) : (s.cleanLines q).mem.wf = true :=
  wf_flushLines _ (wf_foldl (fun _ _ hx => wf_settle _ hx) h)

theorem wf_sliceMode {s : State} {sl m m' dis : Nat} (h : s.mem.wf = true) : (s.sliceMode sl m m' dis).mem.wf = true :=
  wf_onHub (wf_ite (wf_ite (wf_flushLines _ (wf_foldl (fun _ _ hx5 => wf_settle _ hx5) h)) (wf_mk (wf_zero _ _ (wf_flushLines _ (wf_foldl (fun _ _ hx6 => wf_settle _ hx6) h))))) (wf_mk (wf_zero _ _ (wf_ite (wf_flushLines _ (wf_foldl (fun _ _ hx6 => wf_settle _ hx6) h)) (wf_mk (wf_zero _ _ (wf_flushLines _ (wf_foldl (fun _ _ hx7 => wf_settle _ hx7) h))))))))

theorem wf_stackEcc {s : State} {n ecc : Nat} (h : s.mem.wf = true) : (s.stackEcc n ecc).mem.wf = true := by
  unfold State.stackEcc
  dsimp only
  split
  · exact wf_onHub h
  · exact wf_mk (wf_cells_filter _ (wf_rekey (wf_rekey (wf_onHub h))))

theorem wf_floeMoves {h0 : Hub} {s : State} {f : Nat} (h : s.mem.wf = true) : (State.floeMoves h0 s f).mem.wf = true :=
  wf_onHub (wf_ite h (wf_onHub (wf_floeScrub h)))

theorem wf_sliceMoves {h0 : Hub} {s : State} {k : Nat} (h : s.mem.wf = true) : (State.sliceMoves h0 s k).mem.wf = true :=
  wf_onHub (wf_ite h (wf_onHub (wf_sliceScrub h)))

theorem wf_halfMoves {h0 : Hub} {s : State} {k : Nat} (h : s.mem.wf = true) : (State.halfMoves h0 s k).mem.wf = true := by
  unfold State.halfMoves
  dsimp only
  split
  · exact wf_rekey (wf_onHub h)
  · exact wf_onHub (wf_rekey (wf_onHub h))

theorem wf_applyLayout {h0 : Hub} {s : State} (h : s.mem.wf = true) : (State.applyLayout h0 s).mem.wf = true :=
  wf_onHub (wf_foldl (fun _ _ hx2 => wf_halfMoves hx2) (wf_foldl (fun _ _ hx3 => wf_sliceMoves hx3) (wf_foldl (fun _ _ hx4 => wf_floeMoves hx4) (wf_onHub h))))

theorem wf_applyUnits {h0 : Hub} {s : State} (h : s.mem.wf = true) : (State.applyUnits h0 s).mem.wf = true :=
  wf_onHub (wf_foldl (fun _ _ hx2 => wf_ite hx2 (wf_stackEcc hx2)) (wf_foldl (fun _ _ hx3 => wf_ite hx3 (wf_sliceMode hx3)) h))

theorem wf_commitEnds {s : State} (h : s.mem.wf = true) : (s.commitEnds).mem.wf = true := by
  unfold State.commitEnds
  split
  · exact wf_prtPending (wf_onHub h)
  · exact h

theorem safe_partThaw {s : State} {p : Nat} {del : Bool} (h : Safe s) : Safe (s.partThaw p del) := wf_partThaw h

/-- Stated of `Safe`, so that a Thaw is compared as a whole and never evaluated. -/
theorem safe_foldl_partThaw {s : State} {l : List Nat} (h : Safe s) : Safe (l.foldl (fun s p => s.partThaw p true) s) :=
  foldl_keeps Safe _ (fun _ _ k => safe_partThaw k) l s h

theorem wf_applyConfig {s : State} (h : s.mem.wf = true) : (s.applyConfig).mem.wf = true :=
  wf_onHub (wf_applyUnits (wf_applyLayout (wf_onHub (safe_foldl_partThaw (wf_ite h (wf_cleanLines h))))))

theorem kept_execCommitApply {s0 : State} (h : s0.mem.wf = true) : Kept (execCommitApply s0) := by
  unfold execCommitApply
  dsimp only
  split
  · exact kept_next h
  · split
    · exact kept_next h
    · exact kept_next (wf_watch (wf_commitEnds (wf_onHub (wf_applyConfig h))))

theorem kept_execRetrainDone {quad : Bool} {n : BitVec 5} {speed : BitVec 2} {s : State} (h : s.mem.wf = true) : Kept (execRetrainDone quad n speed s) := by
  unfold execRetrainDone
  dsimp only
  split
  · exact kept_next h
  · exact kept_next (wf_commitEnds (wf_onHub h))

-- The host endpoint

theorem kept_execDiagAccess {cmd : QCmd} {host : List (BitVec 8)} {s : State} (h : s.mem.wf = true) : Kept (execDiagAccess cmd host s) := by
  unfold execDiagAccess
  dsimp only
  split
  · exact kept_next (wf_done h)
  · split
    · exact kept_next h
    · split
      · exact kept_next (wf_done (wf_onHub h))
      · split
        · exact kept_next (wf_done (wf_mk (wf_cellsWr _ _ h)))
        · split
          · exact kept_next h
          · exact kept_hubStep h

theorem wf_bar2Rd {s : State} {off n : Nat} (h : s.mem.wf = true) : (s.bar2Rd off n).mem.wf = true := by
  obtain ⟨f, hf⟩ : ∃ f, f = State.bar2Rd := ⟨_, rfl⟩
  obtain ⟨region, hr⟩ : ∃ r, r = Hub.region := ⟨_, rfl⟩
  rw [← hf]
  delta State.bar2Rd at hf
  rw [← hr] at hf
  subst hf
  dsimp only
  split
  · exact wf_onHub (wf_onHub h)
  · exact wf_onHub (wf_hubRead _ _ _ _ (wf_onHub h))

theorem wf_bar2Wr {s : State} {off : Nat} {data : List Byte} {poison : Bool} (h : s.mem.wf = true) : (s.bar2Wr off data poison).mem.wf = true := by
  obtain ⟨f, hf⟩ : ∃ f, f = State.bar2Wr := ⟨_, rfl⟩
  obtain ⟨region, hr⟩ : ∃ r, r = Hub.region := ⟨_, rfl⟩
  rw [← hf]
  delta State.bar2Wr at hf
  rw [← hr] at hf
  subst hf
  dsimp only
  split
  · split
    · exact wf_mk (wf_setCounter _ _ _ (wf_onHub h))
    · exact wf_onHub h
  · exact wf_hubWrite _ _ _ _ _ _ (wf_onHub h)

theorem kept_execBar2Read {off : BitVec 40} {len : BitVec 13} {s : State} (h : s.mem.wf = true) : Kept (execBar2Read off len s) := by
  unfold execBar2Read
  dsimp only
  split
  · exact kept_hubStep h
  · split
    · exact kept_hubStep h
    · split
      · exact kept_next (wf_bar2Rd (wf_mk h))
      · exact kept_next (wf_mk h)

theorem kept_execBar2Write {off : BitVec 40} {data : List (BitVec 8)} {poison : Bool} {s : State} (h : s.mem.wf = true) : Kept
    (execBar2Write off data poison s) := by
  unfold execBar2Write
  dsimp only
  split
  · split
    · exact kept_hubStep (wf_onHub h)
    · split
      · exact kept_hubStep (wf_onHub h)
      · split
        · exact kept_next (wf_bar2Wr (wf_mk (wf_onHub h)))
        · exact kept_next (wf_mk (wf_onHub h))
  · split
    · exact kept_hubStep h
    · split
      · exact kept_hubStep h
      · split
        · exact kept_next (wf_bar2Wr (wf_mk h))
        · exact kept_next (wf_mk h)

theorem wf_answerTag {s : State} {t : TagEntry} {st : Nat} {data : List Byte} (h : s.mem.wf = true) : (s.answerTag t st data).mem.wf = true := by
  unfold State.answerTag
  split
  · exact wf_onHub h
  · split <;> exact wf_onHub h
  · split
    · exact h
    · split
      · exact wf_done h
      · exact wf_done (wf_mk (wf_cellsWr _ _ h))
  · exact wf_onHub h

theorem kept_execHostCompletion {fn : BitVec 6} {tag : BitVec 14} {status : BitVec 8} {data : List (BitVec 8)} {s : State} (h : s.mem.wf = true)
    : Kept (execHostCompletion fn tag status data s) := by
  unfold execHostCompletion
  dsimp only
  split
  · exact kept_hubStep h
  · split
    · split
      · exact kept_next (wf_onHub (wf_answerTag (wf_onHub (wf_onHub h))))
      · exact kept_next (wf_onHub (wf_onHub (wf_onHub h)))
    · split
      · exact kept_next (wf_onHub (wf_answerTag (wf_onHub h)))
      · exact kept_next (wf_onHub (wf_onHub h))

theorem kept_execCompletionTimeout {tag : BitVec 14} {s : State} (h : s.mem.wf = true) : Kept (execCompletionTimeout tag s) := by
  unfold execCompletionTimeout
  dsimp only
  split
  · exact kept_next h
  · split
    · exact kept_next (wf_onHub (wf_onHub h))
    · exact kept_next (wf_onHub (wf_answerTag (wf_onHub (wf_onHub h))))

-- Security

theorem wf_cmdBytes {s : State} {c : QCmd} {a n : Nat} (h : s.mem.wf = true) : (s.cmdBytes c a n).after.mem.wf = true := by
  unfold State.cmdBytes
  split
  · next e => exact CmdGot.wf_wait (wf_snd e (wf_cmdRead h))
  · next e =>
    split
    · exact CmdGot.wf_bad (wf_snd e (wf_cmdRead h))
    · split
      · exact CmdGot.wf_bad (wf_snd e (wf_cmdRead h))
      · exact CmdGot.wf_ok (wf_snd e (wf_cmdRead h))

theorem wf_findUnit {f : Nat} {s : State} {c : QCmd} {base lo hi : Nat} (h : s.mem.wf = true) : (State.findUnit f s c base lo hi).after.mem.wf = true := by
  induction f generalizing s lo hi with
  | zero => exact h
  | succ f ih =>
    rw [State.findUnit]
    dsimp only
    split
    · exact CmdGot.wf_ok h
    · split
      · next e2 =>
        split
        · exact CmdGot.wf_ok (CmdGot.wf_of_eq e2 (wf_cmdBytes h))
        · split <;> exact ih (CmdGot.wf_of_eq e2 (wf_cmdBytes h))
      · exact wf_cmdBytes h

theorem wf_installKey {s : State} {c : QCmd} {p : Nat} {b : List Byte} (h : s.mem.wf = true) : (s.installKey c p b).mem.wf = true := by
  unfold State.installKey
  split
  · exact wf_onHub h
  · split
    · next e1 => exact CmdGot.wf_of_eq e1 (wf_findUnit h)
    · next e1 => exact wf_onHub (CmdGot.wf_of_eq e1 (wf_findUnit h))
    · next e1 => exact wf_onHub (CmdGot.wf_of_eq e1 (wf_findUnit h))
    · next e1 => split <;> exact wf_onHub (CmdGot.wf_of_eq e1 (wf_findUnit h))

theorem wf_installGo {s : State} {p : Nat} (h : s.mem.wf = true) : (s.installGo p).mem.wf = true := by
  unfold State.installGo
  dsimp only
  split
  · exact h
  · split
    · exact h
    · split
      · next e3 => exact CmdGot.wf_of_eq e3 (wf_cmdBytes h)
      · next e3 => exact wf_onHub (CmdGot.wf_of_eq e3 (wf_cmdBytes h))
      · next e3 =>
        split
        · exact wf_onHub (CmdGot.wf_of_eq e3 (wf_cmdBytes h))
        · split
          · exact wf_onHub (CmdGot.wf_of_eq e3 (wf_cmdBytes h))
          · exact wf_installKey (CmdGot.wf_of_eq e3 (wf_cmdBytes h))

theorem wf_installNext {f : Nat} {s : State} {p : Nat} (h : s.mem.wf = true) : (State.installNext f s p).mem.wf = true := by
  induction f generalizing s with
  | zero => exact h
  | succ f ih =>
    rw [State.installNext]
    split
    · exact ih (wf_installGo h)
    · exact wf_installGo h

theorem wf_installRun {s : State} {p : Nat} (h : s.mem.wf = true) : (s.installRun p).mem.wf = true := wf_installNext h

theorem kept_execBundleInstall {cmd : QCmd} {s : State} (h : s.mem.wf = true) : Kept (execBundleInstall cmd s) := by
  unfold execBundleInstall
  dsimp only
  split
  · exact kept_next (wf_onHub h)
  · split
    · exact kept_next (wf_installRun h)
    · exact kept_next (wf_installRun (wf_onHub h))

theorem wf_unfillRange {s : State} {a n : Nat} (h : s.mem.wf = true) : (s.unfillRange a n).mem.wf = true :=
  wf_same rfl rfl rfl rfl (wf_zero _ _ (wf_dropLines _ (wf_dropReqs _ h)))

theorem wf_domDrop {s : State} {d : Nat} (h : s.mem.wf = true) : (s.domDrop d).mem.wf = true := wf_onHub (wf_unfillRange h)

theorem wf_chunk {s : State} {x : Install} {i : Nat} (h : s.mem.wf = true) : (s.chunk x i).after.mem.wf = true := by
  unfold State.chunk
  dsimp only
  split
  · next e1 => exact Chunk.wf_wait (CmdGot.wf_of_eq e1 (wf_cmdBytes h))
  · next e1 => exact Chunk.wf_fail (CmdGot.wf_of_eq e1 (wf_cmdBytes h))
  · next e1 =>
    split
    · next e2 => exact Chunk.wf_wait (CmdGot.wf_of_eq e2 (wf_cmdBytes (CmdGot.wf_of_eq e1 (wf_cmdBytes h))))
    · next e2 => exact Chunk.wf_fail (CmdGot.wf_of_eq e2 (wf_cmdBytes (CmdGot.wf_of_eq e1 (wf_cmdBytes h))))
    · next e2 =>
      split
      · exact Chunk.wf_fail (CmdGot.wf_of_eq e2 (wf_cmdBytes (CmdGot.wf_of_eq e1 (wf_cmdBytes h))))
      · exact Chunk.wf_done (wf_onHub (wf_hubWrite _ _ _ _ _ _ (CmdGot.wf_of_eq e2 (wf_cmdBytes (CmdGot.wf_of_eq e1 (wf_cmdBytes h))))))

theorem wf_chunks {f : Nat} {s : State} {x : Install} (h : s.mem.wf = true) : (State.chunks f s x).after.mem.wf = true := by
  induction f generalizing s with
  | zero => exact h
  | succ f ih =>
    rw [State.chunks]
    split
    · next e => exact ih (Chunk.wf_of_eq e (wf_chunk h))
    · exact wf_chunk h

theorem wf_installDo {s : State} {d : Nat} (h : s.mem.wf = true) : (s.installDo d).mem.wf = true := by
  unfold State.installDo
  dsimp only
  split
  · exact h
  · split
    · next e2 => exact Chunk.wf_of_eq e2 (wf_chunks h)
    · next e2 => exact wf_installRun (wf_onHub (wf_domDrop (Chunk.wf_of_eq e2 (wf_chunks h))))
    · next e2 => exact wf_installRun (wf_onHub (Chunk.wf_of_eq e2 (wf_chunks h)))

theorem kept_execBundleInstallComplete {dom : BitVec 6} {s : State} (h : s.mem.wf = true) : Kept (execBundleInstallComplete dom s) := by
  unfold execBundleInstallComplete
  split
  · exact kept_next (wf_installDo h)
  · exact kept_next h

theorem wf_installAgain {s : State} {c : QCmd} (h : s.mem.wf = true) : (s.installAgain c).mem.wf = true := by
  unfold State.installAgain
  split
  · exact h
  · split
    · exact wf_installRun h
    · exact wf_installDo h

theorem wf_installRefused {s : State} {c : QCmd} {st : Nat} (h : s.mem.wf = true) : (s.installRefused c st).mem.wf = true := by
  unfold State.installRefused
  dsimp only
  split
  · exact h
  · exact wf_installRun (wf_onHub (wf_ite h (wf_domDrop h)))

theorem kept_execDomainRemove {cmd : QCmd} {s : State} (h : s.mem.wf = true) : Kept (execDomainRemove cmd s) := by
  unfold execDomainRemove
  dsimp only
  split
  · exact kept_next (wf_done h)
  · exact kept_next (wf_done (wf_domDrop h))

theorem kept_execDebugRead {cmd : QCmd} {s : State} (h : s.mem.wf = true) : Kept (execDebugRead cmd s) := by
  unfold execDebugRead
  dsimp only
  split
  · exact kept_next (wf_done h)
  · split
    · exact kept_next h
    · split
      · exact kept_next (wf_done (wf_hubRead _ _ _ _ h))
      · exact kept_next (wf_done (wf_onHub (wf_hubRead _ _ _ _ h)))

-- Register writes of other interfaces

theorem wf_seedLoad {s : State} {sl v : Nat} (h : s.mem.wf = true) : (s.seedLoad sl v).mem.wf = true := by
  unfold State.seedLoad
  dsimp only
  split
  · exact h
  · exact wf_mk (wf_same rfl rfl rfl rfl h)

theorem wf_rwfOthers {s : State} {r : RegAt} {w : Nat} (h : s.mem.wf = true) : (s.rwfOthers r w).mem.wf = true :=
  wf_foldl (fun _ _ hx => wf_ite (wf_onHub hx) (wf_ite (wf_onHub hx) (wf_ite (wf_seedLoad hx) hx))) h

theorem wf_rwfWrite {s : State} {via : Nat} {r : RegAt} {w : Nat} (h : s.mem.wf = true) : (s.rwfWrite via r w).2.mem.wf = true :=
  wf_rwfOthers (wf_mk h)

theorem wf_fsetWord {x : FsetRun} {via w : Nat} {r : RegAt} (h : x.s.mem.wf = true) : (x.word via r w).s.mem.wf = true := wf_rwfWrite h

theorem wf_fsetEntry {via : Nat} {x : FsetRun} {e : FsetEntry} (h : x.s.mem.wf = true) : (FsetRun.entry via x e).s.mem.wf = true := by
  unfold FsetRun.entry
  split
  · exact h
  · split
    · exact wf_fsetWord h
    · split
      · exact h
      · exact wf_fsetWord h

theorem wf_fsetApply {s : State} {via : Nat} {l : List FsetEntry} (h : s.mem.wf = true) : (s.fsetApply via l).s.mem.wf = true :=
  foldl_keeps (fun x : FsetRun => x.s.mem.wf = true) _ (fun _ _ k => wf_fsetEntry k) _ _ h

theorem wf_fsetLoad {s : State} {via : Nat} (h : s.mem.wf = true) : (s.fsetLoad via).mem.wf = true := by
  unfold State.fsetLoad
  dsimp only
  split
  · exact wf_onHub h
  · split
    · exact wf_onHub (wf_hubRead _ _ _ _ h)
    · split
      · exact wf_onHub (wf_hubRead _ _ _ _ h)
      · split
        · exact wf_onHub (wf_hubRead _ _ _ _ (wf_hubRead _ _ _ _ h))
        · split
          · exact wf_onHub (wf_hubRead _ _ _ _ (wf_hubRead _ _ _ _ h))
          · exact wf_onHub (wf_fsetApply (wf_hubRead _ _ _ _ (wf_hubRead _ _ _ _ h)))

-- Resets

theorem kept_execPorstNDeassert {x : Straps} {s : State} (h : s.mem.wf = true) : Kept (execPorstNDeassert x s) := by
  unfold execPorstNDeassert
  split
  · exact kept_next (wf_mk wf_rst)
  · exact kept_next h

theorem wf_hubReset {s : State} {cause : Fld} {fault : Bool} (h : s.mem.wf = true) : (s.hubReset cause fault).mem.wf = true := by
  unfold State.hubReset
  split
  · exact wf_mk wf_rst
  · exact h

theorem kept_execPerstNAssert {s : State} (h : s.mem.wf = true) : Kept (execPerstNAssert s) := by
  unfold execPerstNAssert
  dsimp only
  split
  · exact kept_next (wf_hubReset (wf_onHub h))
  · exact kept_next h

theorem wf_glbReset {s : State} {w : Nat} (h : s.mem.wf = true) : (s.glbReset w).mem.wf = true := by
  unfold State.glbReset
  split
  · exact wf_hubReset h
  · exact h

theorem wf_hubFatal {s : State} {x : RecIn} {cause : Fld} (h : s.mem.wf = true) : (s.hubFatal x cause).mem.wf = true := by
  unfold State.hubFatal
  split
  · exact wf_hubReset (wf_onHub h)
  · exact h

theorem kept_execWatchdogExpiry {s : State} (h : s.mem.wf = true) : Kept (execWatchdogExpiry s) := by
  unfold execWatchdogExpiry
  split
  · exact kept_next h
  · exact kept_next (wf_hubFatal h)

theorem kept_execHubFatalError {code inst : BitVec 16} {d0 d1 : BitVec 64} {s : State} (h : s.mem.wf = true) : Kept
    (execHubFatalError code inst d0 d1 s) := by
  unfold execHubFatalError
  dsimp only
  split
  · exact kept_next h
  · split
    · exact kept_hubStep h
    · split
      · exact kept_next (wf_hubFatal h)
      · split
        · exact kept_next (wf_hubFatal h)
        · exact kept_next h

-- Posts of collectives

theorem wf_groupDesc {s : State} {c : QCmd} (h : s.mem.wf = true) : (s.groupDesc c).2.mem.wf = true := by
  unfold State.groupDesc
  dsimp only
  split
  · next e1 => exact wf_snd e1 (wf_cmdRead h)
  · next e1 =>
    split
    · exact wf_snd e1 (wf_cmdRead h)
    · split
      · exact wf_snd e1 (wf_cmdRead h)
      · split
        · next e4 => exact wf_snd e4 (wf_cmdRead (wf_snd e1 (wf_cmdRead h)))
        · next e4 => split <;> exact wf_snd e4 (wf_cmdRead (wf_snd e1 (wf_cmdRead h)))

theorem wf_groupCreateCmd {c : QCmd} {s : State} (h : s.mem.wf = true) : (groupCreateCmd c s).mem.wf = true := by
  unfold groupCreateCmd
  dsimp only
  split
  · exact wf_done h
  · split
    · exact wf_done h
    · split
      · next e3 => exact wf_snd e3 (wf_groupDesc h)
      · next e3 =>
        split
        · exact wf_done (wf_snd e3 (wf_groupDesc h))
        · split
          · exact wf_done (wf_snd e3 (wf_groupDesc h))
          · exact wf_onHub (wf_snd e3 (wf_groupDesc h))

theorem wf_colLandAll {s : State} {g : Nat} {cmd : QCmd} {k : ColChunk} {l : List (Nat × List Byte × Bool)} (h : s.mem.wf = true) :
    (s.colLandAll g cmd k l).mem.wf = true := by
  induction l generalizing s with
  | nil => exact h
  | cons y l ih =>
    rw [State.colLandAll]
    split
    · exact h
    · exact ih (wf_colLand h)

theorem wf_colUnhold {s : State} {g seq : Nat} {cmd : QCmd} {l : List ColChunk} (h : s.mem.wf = true) : (s.colUnhold g seq cmd l).mem.wf = true := by
  induction l generalizing s with
  | nil => exact h
  | cons k l ih =>
    rw [State.colUnhold]
    split
    · exact ih (wf_colLandAll (wf_onHub h))
    · exact ih h

theorem kept_execPostStart {g : BitVec 6} {s : State} (h : s.mem.wf = true) : Kept (execPostStart g s) := by
  unfold execPostStart
  dsimp only
  split
  · exact kept_next h
  · split
    · exact kept_next (wf_colWork (wf_colUnhold (wf_onHub h)))
    · exact kept_next h

theorem wf_colStage {s : State} {g : Nat} {c : ColGroup} {r : ColRun} {step chunk seg va : Nat} {sf : FmtByte} {keep : Bool} (h : s.mem.wf = true) :
    (s.colStage g c r step chunk seg va sf keep).mem.wf = true := by
  unfold State.colStage
  dsimp only
  split
  · next e1 => exact wf_snd e1 (wf_colAdmit h)
  · next e1 =>
    split
    · next e2 => exact wf_snd e2 (wf_ite_snd (wf_span (wf_colAdmit_some h e1)) (wf_colAdmit_some h e1))
    · next e2 =>
      split
      · next e3 => exact wf_snd e3 (wf_colRead (wf_snd e2 (wf_ite_snd (wf_span (wf_colAdmit_some h e1)) (wf_colAdmit_some h e1))))
      · next e3 =>
        split
        · exact wf_onHub (wf_snd e3 (wf_colRead (wf_snd e2 (wf_ite_snd (wf_span (wf_colAdmit_some h e1)) (wf_colAdmit_some h e1)))))
        · split
          · exact wf_onHub (wf_colWrite (wf_onHub (wf_onHub (wf_snd e3 (wf_colRead (wf_snd e2 (wf_ite_snd (wf_span (wf_colAdmit_some h e1)) (wf_colAdmit_some h e1))))))))
          · exact wf_onHub (wf_onHub (wf_snd e3 (wf_colRead (wf_snd e2 (wf_ite_snd (wf_span (wf_colAdmit_some h e1)) (wf_colAdmit_some h e1))))))

theorem wf_colForward {s : State} {g : Nat} {c : ColGroup} {r : ColRun} {step : Nat} {k : ColChunk} (h : s.mem.wf = true) :
    (s.colForward g c r step k).mem.wf = true := wf_onHub (wf_hubRead _ _ _ _ h)

theorem wf_colSendOne {s : State} {g : Nat} {c : ColGroup} {r : ColRun} (h : s.mem.wf = true) : (s.colSendOne g c r).mem.wf = true := by
  unfold State.colSendOne
  dsimp only
  split
  · exact h
  · split
    · exact wf_onHub h
    · exact wf_colStage h
    · exact wf_colStage h
  · exact wf_colForward h
  · split
    · split
      · exact wf_onHub h
      · exact wf_colStage h
      · exact wf_colStage h
    · exact wf_colForward h

theorem kept_execChunkSend {g : BitVec 6} {s : State} (h : s.mem.wf = true) : Kept (execChunkSend g s) := by
  unfold execChunkSend
  dsimp only
  split
  · exact kept_next h
  · split
    · exact kept_next h
    · split
      · exact kept_next h
      · split
        · exact kept_next h
        · split
          · exact kept_next (wf_onHub h)
          · exact kept_next (wf_colSendOne h)

-- Barriers, events and DMA

theorem wf_barIss {f : IForm} {core : Nat} {x : Core} {s : State} (h : s.mem.wf = true) : (barIss f core x s).after.mem.wf = true := by
  unfold barIss
  dsimp only
  split
  · exact Iss.wf_exc h
  · split
    · exact wf_afterStores h (Iss.wf_done h)
    · split
      · split
        · exact wf_afterStores h (Iss.wf_done (wf_mk h))
        · exact wf_afterStores h (Iss.wf_exc h)
      · split
        · exact wf_afterStores h (Iss.wf_done (wf_mk h))
        · split
          · exact wf_afterStores h (Iss.wf_exc h)
          · split
            · exact wf_afterStores h (Iss.wf_exc h)
            · exact wf_afterStores h (Iss.wf_done (wf_mk h))

theorem wf_evtIss {f : RForm} {core : Nat} {x : Core} {s : State} {go : Nat → Nat → Iss} (h : s.mem.wf = true)
    (hgo : ∀ fl k,
    (go fl k).after.mem.wf = true) : (evtIss f core x s go).after.mem.wf = true := by
  unfold evtIss
  dsimp only
  split
  · exact Iss.wf_exc h
  · exact hgo _ _

theorem wf_evtReadIss {f : RForm} {core : Nat} {x : Core} {s : State} (h : s.mem.wf = true) : (evtReadIss f core x s).after.mem.wf = true :=
  wf_evtIss h (fun _ _ => Iss.wf_done h)

theorem wf_evtSetIss {f : RForm} {core : Nat} {x : Core} {s : State} (h : s.mem.wf = true) : (evtSetIss f core x s).after.mem.wf = true :=
  wf_evtIss h (fun _ _ => wf_afterStores h (Iss.wf_done (wf_mk (wf_setCounter _ _ _ h))))

theorem wf_evtAddIss {f : RForm} {core : Nat} {x : Core} {s : State} (h : s.mem.wf = true) : (evtAddIss f core x s).after.mem.wf = true :=
  wf_evtIss h (fun _ _ => wf_afterStores h (Iss.wf_done (wf_mk (wf_setCounter _ _ _ h))))

theorem wf_evtWaitIss {f : RForm} {core : Nat} {x : Core} {s : State} (h : s.mem.wf = true) : (evtWaitIss f core x s).after.mem.wf = true := by
  refine wf_evtIss h fun fl k => ?_
  dsimp only
  split
  · exact Iss.wf_exc h
  · split <;> exact Iss.wf_done h

theorem wf_dmaisIss {f : RForm} {core : Nat} {x : Core} {s : State} (h : s.mem.wf = true) : (dmaisIss f core x s).after.mem.wf = true := by
  unfold dmaisIss
  dsimp only
  split
  · exact Iss.wf_exc h
  · split
    · exact Iss.wf_exc h
    · split
      · exact Iss.wf_stall h
      · split
        · exact Iss.wf_exc h
        · split
          · exact Iss.wf_exc h
          · split
            · split
              · exact Iss.wf_exc h
              · exact wf_afterStores h (Iss.wf_done (wf_onHub h))
            · split
              · exact Iss.wf_exc h
              · exact wf_afterStores h (Iss.wf_done (wf_onHub h))

theorem wf_dmastIss {f : RForm} {core : Nat} {x : Core} {s : State} (h : s.mem.wf = true) : (dmastIss f core x s).after.mem.wf = true := Iss.wf_done h

theorem wf_dmawtIss {f : RForm} {core : Nat} {x : Core} {s : State} (h : s.mem.wf = true) : (dmawtIss f core x s).after.mem.wf = true := by
  unfold dmawtIss
  dsimp only
  split
  · exact Iss.wf_exc h
  · split <;> exact Iss.wf_done h

theorem wf_endtIss {f : I12Form} {core : Nat} {x : Core} {s : State} (h : s.mem.wf = true) : (endtIss f core x s).after.mem.wf = true := by
  unfold endtIss
  dsimp only
  split
  · exact Iss.wf_exc h
  · split
    · exact wf_afterStores h (Iss.wf_done h)
    · exact wf_afterStores h (Iss.wf_done (wf_mk h))

theorem wf_trapIss {f : I12Form} {x1 : Nat} {x : Core} {s : State} (h : s.mem.wf = true) : (trapIss f x1 x s).after.mem.wf = true := by
  unfold trapIss
  split <;> exact Iss.wf_exc h

theorem wf_nopIss {f : I12Form} {x1 : Nat} {x : Core} {s : State} (h : s.mem.wf = true) : (nopIss f x1 x s).after.mem.wf = true := by
  unfold nopIss
  split
  · exact Iss.wf_exc h
  · exact Iss.wf_done h

theorem wf_fenceIIss {f : I12Form} {core : Nat} {x : Core} {s : State} (h : s.mem.wf = true) : (fenceIIss f core x s).after.mem.wf = true :=
  wf_fenceIss h

theorem wf_quantIss {esc : Bool} {f : VCForm} {core : Nat} {x : Core} {s : State} (h : s.mem.wf = true) :
    (quantIss esc f core x s).after.mem.wf = true := by
  unfold quantIss
  dsimp only
  split
  · split <;> exact Iss.wf_exc h
  · split
    · exact Iss.wf_exc h
    · split
      · exact Iss.wf_done h
      · split
        · exact Iss.wf_done h
        · exact Iss.wf_done (wf_onHub h)

-- Launches and floes

theorem wf_launchCmd {c : QCmd} {s : State} (h : s.mem.wf = true) : (launchCmd c s).mem.wf = true := by
  unfold launchCmd
  dsimp only
  split
  · exact wf_done h
  · split
    · exact wf_done h
    · split
      · exact wf_done h
      · split
        · exact wf_done h
        · split
          · exact wf_done h
          · split
            · next e6 => exact wf_snd e6 (wf_translate h)
            · next e6 =>
              split
              · exact wf_done (wf_hubRead _ _ _ _ (wf_snd e6 (wf_translate h)))
              · split
                · exact wf_done (wf_hubRead _ _ _ _ (wf_snd e6 (wf_translate h)))
                · split
                  · exact wf_done (wf_hubRead _ _ _ _ (wf_snd e6 (wf_translate h)))
                  · exact wf_onHub (wf_hubRead _ _ _ _ (wf_snd e6 (wf_translate h)))

theorem wf_stageIn {s : State} {l : Launch} {k f va n dst : Nat} (h : s.mem.wf = true) : (s.stageIn l k f va n dst).2.mem.wf = true := by
  unfold State.stageIn
  dsimp only
  split
  · exact h
  · split
    · next e2 => exact wf_snd e2 (wf_span h)
    · next e2 => exact wf_storeBits _ _ _ _ (wf_readPieces (wf_snd e2 (wf_span h)))

theorem wf_prepare {s : State} {l : Launch} {k f : Nat} (h : s.mem.wf = true) : (s.prepare l k f).2.mem.wf = true := by
  unfold State.prepare
  dsimp only
  split
  · next e1 => exact wf_snd e1 (wf_stageIn h)
  · next e1 =>
    split
    · next e2 => exact wf_snd e2 (wf_stageIn (wf_snd e1 (wf_stageIn h)))
    · next e2 =>
      dsimp only
      split
      · exact wf_zero _ _ (wf_zero _ _ (wf_snd e2 (wf_stageIn (wf_snd e1 (wf_stageIn h)))))
      · exact wf_zero _ _ (wf_snd e2 (wf_stageIn (wf_snd e1 (wf_stageIn h))))

theorem kept_execTileStart {launch : Nat} {floe : BitVec 9} {s : State} (h : s.mem.wf = true) : Kept (execTileStart launch floe s) := by
  unfold execTileStart
  dsimp only
  split
  · exact kept_fault
  · split
    · exact kept_next h
    · split
      · exact kept_next h
      · split
        · exact kept_next (wf_onHub h)
        · split
          · next e5 => exact kept_next (wf_snd e5 (wf_prepare h))
          · next e5 =>
            split
            · exact kept_next (wf_snd e5 (wf_prepare h))
            · exact kept_next (wf_onHub (wf_snd e5 (wf_prepare h)))

theorem kept_execLaunchComplete {launch : Nat} {s : State} (h : s.mem.wf = true) : Kept (execLaunchComplete launch s) := by
  unfold execLaunchComplete
  split
  · exact kept_next h
  · split
    · exact kept_next h
    · split
      · exact kept_next (wf_onHub h)
      · split
        · next e3 => exact kept_next (wf_snd e3 (wf_translate h))
        · next e3 => exact kept_next (wf_eventAdd _ (wf_onHub (wf_snd e3 (wf_translate h))))

theorem kept_execLaunchTimeout {launch : Nat} {s : State} (h : s.mem.wf = true) : Kept (execLaunchTimeout launch s) := by
  unfold execLaunchTimeout
  split
  · exact kept_next h
  · split
    · exact kept_next h
    · exact kept_next (wf_onHub h)

theorem kept_execLaunchAbort {cmd : QCmd} {s : State} (h : s.mem.wf = true) : Kept (execLaunchAbort cmd s) := by
  unfold execLaunchAbort
  dsimp only
  split
  · exact kept_next (wf_done h)
  · split
    · exact kept_next (wf_done h)
    · split
      · exact kept_next (wf_done (wf_onHub h))
      · exact kept_next (wf_done h)

theorem kept_execFloeResetDone {floe : BitVec 9} {s : State} (h : s.mem.wf = true) : Kept (execFloeResetDone floe s) := by
  unfold execFloeResetDone
  dsimp only
  split
  · exact kept_fault
  · split
    · exact kept_next h
    · exact kept_next (wf_onHub h)

theorem kept_execFloeIdleGate {floe : BitVec 9} {s : State} (h : s.mem.wf = true) : Kept (execFloeIdleGate floe s) := by
  unfold execFloeIdleGate
  dsimp only
  split
  · exact kept_fault
  · split
    · exact kept_next h
    · exact kept_next (wf_onHub h)

theorem kept_execFloeFreqChange {floe : BitVec 9} {freq : BitVec 4} {s : State} (h : s.mem.wf = true) : Kept (execFloeFreqChange floe freq s) := by
  unfold execFloeFreqChange
  dsimp only
  split
  · exact kept_fault
  · split
    · exact kept_next h
    · exact kept_next (wf_onHub h)

theorem kept_execEvtWaitWake {c : CoreId} {s : State} (h : s.mem.wf = true) : Kept (execEvtWaitWake c s) := by
  unfold execEvtWaitWake
  dsimp only
  split
  · exact kept_fault
  · split
    · split
      · exact kept_next (wf_onHub h)
      · exact kept_next h
    · exact kept_next h

theorem wf_dmaSide {s : State} {f ch : Nat} {r : DmaReq} {p id va n : Nat} {k : AccKind} (h : s.mem.wf = true) :
    (s.dmaSide f ch r p id va n k).2.mem.wf = true := by
  unfold State.dmaSide
  split
  · exact h
  · exact h
  · split <;> next e1 => exact wf_snd e1 (wf_span h)

theorem wf_dmaRead {s : State} {p : Nat} {x : RemCtx} {got : List (Nat × Nat × Bool)} {l : List (Nat × Nat)} (h : s.mem.wf = true) :
    (s.dmaRead p x got l).after.mem.wf = true := by
  unfold State.dmaRead
  split
  · split
    · exact RGot.wf_ok h
    · exact wf_readAny h
  · exact wf_readAny h

theorem wf_dmaRows {n r : Nat} {s : State} {f ch : Nat} {q : DmaReq} {p id : Nat} (h : s.mem.wf = true) :
    (State.dmaRows n r s f ch q p id).2.mem.wf = true := by
  induction n generalizing r s with
  | zero => exact h
  | succ n ih =>
    rw [State.dmaRows]
    dsimp only
    split
    · next e => exact wf_snd e (wf_dmaSide h)
    · next e =>
      split
      · next e1 => exact wf_snd e1 (wf_dmaSide (wf_snd e (wf_dmaSide h)))
      · next e1 =>
        have h1 := wf_snd e1 (wf_dmaSide (wf_snd e (wf_dmaSide h)))
        split
        · exact h1
        · exact ih h1
        · split
          · next e2 =>
            exact wf_snd e2 (wf_ite_snd h1 (by split <;> next e3 => exact wf_snd e3 (wf_dmaSide h1)))
          · next e2 =>
            have h2 := wf_snd e2 (wf_ite_snd h1 (by split <;> next e3 => exact wf_snd e3 (wf_dmaSide h1)))
            split
            · next e3 => exact wf_snd e3 (wf_dmaSide h2)
            · next e3 =>
              have h3 := wf_snd e3 (wf_dmaSide h2)
              split
              · next e4 => exact ih (RGot.wf_of_eq e4 (wf_dmaRead h3))
              · next e4 =>
                have h4 := RGot.wf_of_eq e4 (wf_dmaRead h3)
                split
                · next e5 => exact wf_snd e5 (ih (wf_dewConv h4))
                · next e5 => exact wf_snd e5 (ih (wf_dewConv h4))

theorem wf_dmaWrite {s : State} {p : Nat} {x : RemCtx} {o : DmaOut} (h : s.mem.wf = true) : (s.dmaWrite p x o).mem.wf = true := by
  unfold State.dmaWrite
  split
  · split
    · exact wf_mk (wf_storeBits _ _ _ _ h)
    · exact wf_writeAny h
  · exact wf_writeAny h

theorem wf_dmaDone {s : State} {f ch : Nat} {q : DmaReq} (h : s.mem.wf = true) : (s.dmaDone f ch q).mem.wf = true := by
  unfold State.dmaDone
  dsimp only
  split
  · exact wf_eventAdd _ (wf_onHub h)
  · exact wf_onHub h

theorem kept_execDmaComplete {floe : BitVec 9} {ch : BitVec 4} {i : BitVec 2} {s : State} (h : s.mem.wf = true) : Kept (execDmaComplete floe ch i s) := by
  unfold execDmaComplete
  dsimp only
  split
  · exact kept_fault
  · split
    · exact kept_next h
    · split
      · exact kept_next h
      · split
        · split
          · exact kept_next h
          · exact kept_next (wf_dmaDone h)
        · split
          · dsimp only
            split
            · exact kept_next (wf_mk h)
            · split
              · next e8 => exact kept_next (wf_snd e8 (wf_dmaRows (wf_onHub (wf_mk h))))
              · next e8 =>
                split
                · split
                  · exact kept_next (wf_onHub (wf_onHub (wf_foldl (fun _ _ hx1 => wf_dmaWrite hx1) (wf_snd e8 (wf_dmaRows (wf_onHub (wf_mk h)))))))
                  · exact kept_next (wf_dmaDone (wf_onHub (wf_foldl (fun _ _ hx2 => wf_dmaWrite hx2) (wf_snd e8 (wf_dmaRows (wf_onHub (wf_mk h)))))))
                · split
                  · exact kept_next (wf_onHub (wf_onHub (wf_foldl (fun _ _ hx1 => wf_dmaWrite hx1) (wf_snd e8 (wf_dmaRows (wf_onHub (wf_mk h)))))))
                  · exact kept_next (wf_dmaDone (wf_onHub (wf_foldl (fun _ _ hx2 => wf_dmaWrite hx2) (wf_snd e8 (wf_dmaRows (wf_onHub (wf_mk h)))))))
          · split
            · exact kept_next (wf_mk h)
            · split
              · next e7 => exact kept_next (wf_snd e7 (wf_dmaRows (wf_onHub (wf_mk h))))
              · next e7 =>
                split
                · split
                  · exact kept_next (wf_onHub (wf_onHub (wf_foldl (fun _ _ hx1 => wf_dmaWrite hx1) (wf_snd e7 (wf_dmaRows (wf_onHub (wf_mk h)))))))
                  · exact kept_next (wf_dmaDone (wf_onHub (wf_foldl (fun _ _ hx2 => wf_dmaWrite hx2) (wf_snd e7 (wf_dmaRows (wf_onHub (wf_mk h)))))))
                · split
                  · exact kept_next (wf_onHub (wf_onHub (wf_foldl (fun _ _ hx1 => wf_dmaWrite hx1) (wf_snd e7 (wf_dmaRows (wf_onHub (wf_mk h)))))))
                  · exact kept_next (wf_dmaDone (wf_onHub (wf_foldl (fun _ _ hx2 => wf_dmaWrite hx2) (wf_snd e7 (wf_dmaRows (wf_onHub (wf_mk h)))))))

-- Walks and faults

theorem wf_cmdAgain {s : State} {c : QCmd} (h : s.mem.wf = true) : (s.cmdAgain c).mem.wf = true := by
  unfold State.cmdAgain
  split
  · exact wf_launchCmd h
  · exact wf_streamOpenCmd h
  · exact wf_groupCreateCmd h
  · exact wf_installAgain h
  · exact h

theorem wf_cmdRefused {s : State} {c : QCmd} (h : s.mem.wf = true) : (s.cmdRefused c).mem.wf = true := by
  unfold State.cmdRefused
  split
  · exact wf_done h
  · exact wf_installRefused h
  · exact wf_done h

theorem wf_engWake {s : State} {e rtag : Nat} (h : s.mem.wf = true) : (s.engWake e rtag).mem.wf = true := by
  unfold State.engWake
  split
  · exact wf_pumpEvts h
  · exact wf_wakeEng h

theorem wf_wake {s : State} {w : Waiter} (h : s.mem.wf = true) : (s.wake w).mem.wf = true := by
  unfold State.wake
  split
  · exact wf_onHub h
  · exact h
  · exact h
  · exact wf_engWake h
  · exact wf_streamFlush h
  · exact h
  · exact wf_colWork h
  · exact wf_cmdAgain h
  · exact h

theorem wf_xltRetry {s : State} {x : XAcc} (h : s.mem.wf = true) : (s.xltRetry x).mem.wf = true := by
  unfold State.xltRetry
  split
  · next e => exact wf_snd e (wf_translate h)
  · next e => exact wf_wake (wf_snd e (wf_translate h))

theorem wf_xltRefuse {s : State} {f : Fault11} {x : XAcc} (h : s.mem.wf = true) : (s.xltRefuse f x).mem.wf = true := by
  unfold State.xltRefuse
  split
  · exact wf_onHub h
  · exact wf_onHub h
  · exact wf_onHub h
  · split
    · split
      · exact h
      · exact wf_onHub h
    · split
      · exact h
      · exact wf_pumpEvts (wf_onHub h)
  · exact wf_streamFlush (wf_onHub h)
  · exact wf_onHub h
  · exact wf_onHub h
  · exact wf_cmdRefused h
  · exact h

theorem kept_execWalkStart {die : BitVec 1} {r : XltReq} {s : State} (h : s.mem.wf = true) : Kept (execWalkStart die r s) := by
  unfold execWalkStart
  split
  · exact kept_next h
  · exact kept_hubStep h

theorem wf_walkFault {s : State} {w : Walk} {cause level entry ea : Nat} (h : s.mem.wf = true) : (s.walkFault w cause level entry ea).mem.wf = true :=
  wf_foldl (fun _ _ hx => wf_xltRetry hx) (wf_onHub h)

theorem wf_walkReturn {s : State} {w : Walk} (h : s.mem.wf = true) : (s.walkReturn w).mem.wf = true := by
  unfold State.walkReturn
  dsimp only
  split
  · split
    · exact wf_onHub h
    · exact wf_walkFault h
  · split
    · next e2 => exact wf_onHub (wf_snd e2 (wf_walkRead h))
    · next e2 => exact wf_foldl (fun _ _ hx => wf_xltRetry hx) (wf_onHub (wf_snd e2 (wf_walkRead h)))
    · next e2 => exact wf_walkFault (wf_snd e2 (wf_walkRead h))

theorem kept_execTableReadReturn {die : BitVec 1} {asid : BitVec 12} {page : BitVec 36} {s : State} (h : s.mem.wf = true) : Kept
    (execTableReadReturn die asid page s) := by
  unfold execTableReadReturn
  split
  · exact kept_next h
  · exact kept_next (wf_walkReturn h)

theorem wf_fqWrite {s : State} {f : Fault11} (h : s.mem.wf = true) : (s.fqWrite f).mem.wf = true := wf_onHub (wf_hubWrite _ _ _ _ _ _ (wf_mk h))

theorem wf_fqGo {n : Nat} {s : State} {p : Nat} (h : s.mem.wf = true) : (State.fqGo n s p).mem.wf = true := by
  induction n generalizing s with
  | zero => exact h
  | succ n ih =>
    rw [State.fqGo]
    split
    · exact h
    · split
      · exact ih (wf_fqWrite h)
      · exact h

theorem wf_fqPump {s : State} {p : Nat} (h : s.mem.wf = true) : (s.fqPump p).mem.wf = true := wf_fqGo h

theorem kept_execFaultRecordWrite {die : BitVec 1} {slot : BitVec 9} {s : State} (h : s.mem.wf = true) : Kept (execFaultRecordWrite die slot s) := by
  unfold execFaultRecordWrite
  split
  · exact kept_next h
  · split
    · exact kept_next h
    · split
      · exact kept_next h
      · split
        · exact kept_next (wf_fqWrite h)
        · exact kept_hubStep h

theorem wf_fqCi {s : State} {fn part ci : Nat} (h : s.mem.wf = true) : (s.fqCi fn part ci).mem.wf = true := by
  unfold State.fqCi
  dsimp only
  split
  · exact wf_fqPump (wf_onHub h)
  · exact h

theorem wf_parkAdmit {s : State} {d : Nat} (h : s.mem.wf = true) : (s.parkAdmit d).mem.wf = true := by
  unfold State.parkAdmit
  dsimp only
  split
  · exact h
  · split
    · exact h
    · exact wf_foldl (fun _ _ hx => wf_xltRetry hx) (wf_onHub h)

theorem wf_xltResumeCmd {c : QCmd} {s : State} (h : s.mem.wf = true) : (xltResumeCmd c s).mem.wf = true := by
  unfold xltResumeCmd
  dsimp only
  split
  · exact wf_done h
  · split
    · exact wf_done h
    · split
      · exact wf_done h
      · exact wf_done (wf_foldl (fun _ _ hx => wf_ite (wf_xltRetry hx) (wf_xltRefuse hx)) (wf_onHub h))

-- Admission

theorem wf_released {s : State} {r : HeldReq} (h : s.mem.wf = true) : (s.released r).mem.wf = true := by
  unfold State.released
  dsimp only
  split
  · exact wf_pumpEvts (wf_engRun (wf_mk h))
  · exact wf_onHub (wf_winDo (wf_onHub h))
  · exact wf_onHub h
  · exact wf_onHub h
  · exact wf_onHub h
  · exact wf_colWork (wf_onHub h)
  · exact wf_bar2Rd h
  · exact wf_bar2Wr h

theorem wf_portAdmit {s : State} {n : Nat} (h : s.mem.wf = true) : (s.portAdmit n).mem.wf = true := by
  unfold State.portAdmit
  dsimp only
  split
  · exact h
  · split
    · exact wf_mk h
    · exact wf_released (wf_mk h)

-- Life cycle

theorem kept_execLcTransitionStep {s : State} (h : s.mem.wf = true) : Kept (execLcTransitionStep s) := by
  unfold execLcTransitionStep
  dsimp only
  split
  · exact kept_next h
  · split
    · exact kept_hubStep h
    · split
      · exact kept_hubStep h
      · exact kept_next (wf_hubReset (wf_onHub h))

-- Boot

theorem wf_stackFound {s : State} {n : Nat} {x : StackFound} (h : s.mem.wf = true) : (s.stackFound n x).mem.wf = true := by
  unfold State.stackFound
  dsimp only
  split
  · exact h
  · split
    · exact wf_mk (wf_unfillHalf _ (wf_unfillHalf _ h))
    · exact wf_mk h

theorem wf_boot7 {s : State} {x : BootIn} (h : s.mem.wf = true) : (s.boot7 x).mem.wf = true := wf_onHub (wf_foldl (fun _ _ hx => wf_stackFound hx) h)

theorem wf_bootEcc {s : State} {n : Nat} (h : s.mem.wf = true) : (s.bootEcc n).mem.wf = true := by
  unfold State.bootEcc
  split
  · exact h
  · split
    · split
      · exact h
      · exact wf_onHub (wf_stackEcc h)
    · exact wf_onHub h

theorem wf_bootSet {s : State} (h : s.mem.wf = true) : (s.bootSet).mem.wf = true := by
  unfold State.bootSet
  dsimp only
  split
  · exact h
  · split
    · exact wf_onHub h
    · split
      · exact wf_onHub h
      · split
        · exact wf_onHub (wf_fsetApply h)
        · split
          · exact wf_onHub (wf_fsetApply h)
          · exact wf_onHub (wf_applyConfig (wf_fsetApply h))

theorem wf_boot9 {s : State} (h : s.mem.wf = true) : (s.boot9).mem.wf = true := by
  unfold State.boot9
  exact wf_onHub (wf_bootSet (wf_foldl (fun _ _ hx => wf_bootEcc hx) (wf_onHub h)))

theorem kept_execBootStepComplete {x : BootIn} {s : State} (h : s.mem.wf = true) : Kept (execBootStepComplete x s) := by
  unfold execBootStepComplete
  dsimp only
  split
  · exact kept_hubWatch h
  · split
    · exact kept_hubWatch h
    · split
      · exact kept_hubWatch h
      · split
        · exact kept_hubWatch h
        · split
          · exact kept_hubWatch h
          · split
            · exact kept_hubWatch h
            · split
              · exact kept_next (wf_watch (wf_boot7 h))
              · split
                · split
                  · exact kept_next h
                  · exact kept_hubWatch h
                · split
                  · exact kept_next (wf_watch (wf_boot9 h))
                  · exact kept_next h

theorem kept_execHotReset {s : State} (h : s.mem.wf = true) : Kept (execHotReset s) := by
  unfold execHotReset
  split
  · exact kept_next (wf_hubReset (wf_onHub h))
  · exact kept_next h

-- The almanac

theorem wf_prtWord {s : State} {via p v : Nat} (h : s.mem.wf = true) : (s.prtWord via p v).2.mem.wf = true := by
  unfold State.prtWord
  dsimp only
  split
  · exact wf_prtThaw h
  · split
    · exact wf_prtReset h
    · split
      · exact wf_onHub h
      · split
        · exact wf_onHub h
        · exact h

theorem wf_ans {s : State} {f : Hub → AlmAns × Hub} (h : s.mem.wf = true) : (s.ans f).2.mem.wf = true := h

theorem wf_odEffect {s : State} {via ix sub : Nat} {l : List Byte} (h : s.mem.wf = true) : (s.odEffect via ix sub l).2.mem.wf = true :=
  wf_ite_snd (wf_ite_snd (wf_ans h) (wf_ite_snd (wf_ans h) (wf_ite_snd (wf_ans h) (wf_ite_snd (wf_ans h) (wf_ans h))))) (wf_ite_snd (wf_ite_snd h (wf_ite_snd (wf_onHub h) h)) (wf_ite_snd (wf_ite_snd (wf_ans h) (wf_ite_snd (wf_ans h) (wf_ite_snd (wf_ans h) (wf_onHub h)))) (wf_ite_snd h (wf_ite_snd (wf_onHub h) (wf_ite_snd (wf_onHub h) (wf_ite_snd (wf_onHub h) (wf_ite_snd (wf_onHub h) (wf_ite_snd (wf_onHub h) (wf_ite_snd (wf_prtWord h) (wf_ite_snd (wf_ans h) (wf_ite_snd (wf_onHub h) (wf_onHub h))))))))))))

theorem wf_odWrite {s : State} {via ix sub : Nat} {l : List Byte} (h : s.mem.wf = true) : (s.odWrite via ix sub l).2.mem.wf = true := by
  unfold State.odWrite
  dsimp only
  split
  · exact h
  · exact h
  · split
    · exact h
    · split
      · exact h
      · split
        · exact wf_ans h
        · split
          · exact h
          · split
            · exact wf_ans h
            · split
              · exact h
              · exact wf_odEffect h

theorem wf_odRead {s : State} {via : Nat} {view : Bool} {ix sub : Nat} (h : s.mem.wf = true) : (s.odRead via view ix sub).2.2.mem.wf = true := by
  unfold State.odRead
  split
  · exact h
  · exact h
  · split
    · exact h
    · split
      · exact h
      · split
        · split
          · exact h
          · exact wf_onHub h
        · exact h

theorem wf_odServeRead {s : State} {via : Nat} {view : Bool} {ix sub : Nat} (h : s.mem.wf = true) : (s.odServeRead via view ix sub).mem.wf = true := by
  unfold State.odServeRead
  dsimp only
  split
  · exact h
  · exact wf_onHub (wf_odRead (wf_onHub h))

theorem wf_odServeWrite {s : State} {via ix sub : Nat} {l : List Byte} (h : s.mem.wf = true) : (s.odServeWrite via ix sub l).mem.wf = true := by
  unfold State.odServeWrite
  dsimp only
  split
  · exact h
  · exact wf_watch (wf_onHub (wf_odWrite (wf_onHub h)))

theorem wf_odServeLock {s : State} {via sub ix : Nat} (h : s.mem.wf = true) : (s.odServeLock via sub ix).mem.wf = true := wf_odServeWrite h

-- Almanac commands

theorem kept_execAlmanacRead {via : Iface} {r : AlmReq} {s : State} (h : s.mem.wf = true) : Kept (execAlmanacRead via r s) := by
  unfold execAlmanacRead
  split
  · exact kept_next (wf_odServeRead h)
  · exact kept_next h

theorem kept_execAlmanacWrite {via : Iface} {r : AlmReq} {s : State} (h : s.mem.wf = true) : Kept (execAlmanacWrite via r s) := by
  unfold execAlmanacWrite
  split
  · exact kept_next (wf_odServeWrite h)
  · exact kept_next h

theorem kept_execAlmanacLock {via : Iface} {r : AlmReq} {s : State} (h : s.mem.wf = true) : Kept (execAlmanacLock via r s) := by
  unfold execAlmanacLock
  split
  · exact kept_next (wf_odServeLock h)
  · exact kept_next h

theorem kept_execAlmanacUnlock {via : Iface} {r : AlmReq} {s : State} (h : s.mem.wf = true) : Kept (execAlmanacUnlock via r s) := by
  unfold execAlmanacUnlock
  split
  · exact kept_next (wf_odServeLock h)
  · exact kept_next h

theorem kept_execUsdoTransfer {write : Bool} {index : BitVec 16} {sub : BitVec 8} {data : List (BitVec 8)} {s : State} (h : s.mem.wf = true) : Kept
    (execUsdoTransfer write index sub data s) := by
  unfold execUsdoTransfer
  split
  · exact kept_next (wf_odServeWrite h)
  · exact kept_next (wf_odServeRead h)

theorem wf_rpdoValues {s : State} {ks : List (Nat × Nat)} {l : List Byte} (h : s.mem.wf = true) : (s.rpdoValues ks l).mem.wf = true := by
  induction ks generalizing s l with
  | nil => exact h
  | cons k ks ih =>
    rw [State.rpdoValues]
    exact ih (wf_ite (wf_odWrite h) (wf_onHub (wf_odWrite h)))

theorem wf_rpdoApply {s : State} {n : Nat} {l : List Byte} (h : s.mem.wf = true) : (s.rpdoApply n l).mem.wf = true := wf_onHub (wf_rpdoValues h)

theorem kept_execRpdo {n : BitVec 3} {data : List (BitVec 8)} {s : State} (h : s.mem.wf = true) : Kept (execRpdo n data s) := by
  unfold execRpdo
  dsimp only
  split
  · exact kept_next h
  · split
    · exact kept_hubStep h
    · split
      · exact kept_next (wf_watch (wf_rpdoApply h))
      · exact kept_hubStep h

theorem kept_execSync {s : State} (h : s.mem.wf = true) : Kept (execSync s) := by
  unfold execSync
  dsimp only
  split
  · exact kept_next h
  · exact kept_next (wf_watch (wf_onHub (wf_foldl (fun _ _ hx => wf_rpdoApply hx) (wf_onHub h))))

theorem wf_mbxRequest {s : State} (h : s.mem.wf = true) : (s.mbxRequest).2.2.mem.wf = true := by
  unfold State.mbxRequest
  dsimp only
  split
  · exact h
  · split
    · exact h
    · split
      · exact wf_odRead h
      · split <;> exact wf_odWrite h

theorem wf_mbxServe {s : State} (h : s.mem.wf = true) : (s.mbxServe).mem.wf = true := by
  unfold State.mbxServe
  dsimp only
  split
  · exact h
  · exact wf_watch (wf_onHub (wf_mbxRequest (wf_onHub h)))

-- Register writes of the host

theorem wf_putReg {s : State} {r : RegAt} {w : Nat} (h : s.mem.wf = true) : (s.putReg r w).mem.wf = true := by
  unfold State.putReg
  split
  · exact wf_rwfWrite h
  · exact wf_onHub h

theorem wf_fqCtrl {s : State} {p w : Nat} (h : s.mem.wf = true) : (s.fqCtrl p w).mem.wf = true := wf_fqPump (wf_onHub h)

theorem wf_putPf {s : State} {r : RegAt} {w : Nat} (h : s.mem.wf = true) : (s.putPf r w).mem.wf = true :=
  wf_ite (wf_glbReset h) (wf_ite (wf_onHub h) (wf_ite (wf_ite (wf_onHub h) h) (wf_ite (wf_ite (wf_fsetLoad h) h) (wf_ite (wf_ite (wf_onHub h) h) (wf_ite (wf_onHub h) (wf_ite (wf_maintStart h) (wf_ite (wf_ite (wf_onHub h) (wf_dbCplhead h)) (wf_ite (wf_onHub h) (wf_ite (wf_onHub h) (wf_ite (wf_fqCtrl h) (wf_ite (wf_fqCi h) (wf_ite (wf_onHub h) (wf_ite (wf_onHub h) (wf_ite (wf_onHub h) (wf_ite (wf_onHub h) (wf_ite (wf_prtWord h) (wf_ite (wf_pumpAll (wf_onHub h)) (wf_ite (wf_onHub h) (wf_ite (wf_onHub h) (wf_ite (wf_onHub h) (wf_ite (wf_onHub h) (wf_ite (wf_onHub h) (wf_ite (wf_onHub h) (wf_ite (wf_ite (wf_mbxServe h) h) (wf_putReg h)))))))))))))))))))))))))

theorem wf_vfTag {s : State} {r : RegAt} {w : Nat} (h : s.mem.wf = true) : (s.vfTag r w).mem.wf = true := wf_rwfOthers h

theorem wf_putVf {s : State} {v : Nat} {r : RegAt} {w : Nat} (h : s.mem.wf = true) : (s.putVf v r w).mem.wf = true := by
  unfold State.putVf
  dsimp only
  split
  · split
    · exact wf_onHub h
    · exact wf_dbCplhead h
  · split
    · split
      · exact wf_onHub h
      · exact h
    · split
      · exact wf_onHub h
      · split
        · exact wf_onHub h
        · split
          · exact wf_fqCtrl h
          · split
            · exact wf_fqCi h
            · split
              · exact wf_onHub h
              · split
                · exact wf_onHub h
                · split
                  · exact wf_onHub h
                  · split
                    · exact wf_onHub h
                    · split
                      · exact wf_vfTag h
                      · exact wf_onHub h

theorem wf_putBy {s : State} {fn : Nat} {r : RegAt} {w : Nat} (h : s.mem.wf = true) : (s.putBy fn r w).mem.wf = true := by
  unfold State.putBy
  split
  · exact wf_putPf h
  · exact wf_putVf h

theorem wf_putWord {s : State} {fn place w : Nat} (h : s.mem.wf = true) : (s.putWord fn place w).mem.wf = true := by
  unfold State.putWord
  dsimp only
  split
  · exact wf_wroteBy h
  · split
    · exact wf_putBy (wf_wroteBy h)
    · split
      · exact wf_onHub (wf_wroteBy h)
      · exact wf_putBy (wf_wroteBy h)

theorem wf_putPair {s : State} {fn place w : Nat} (h : s.mem.wf = true) : (s.putPair fn place w).mem.wf = true := by
  unfold State.putPair
  dsimp only
  split
  · split
    · exact wf_putBy (wf_wroteBy h)
    · exact wf_putWord (wf_putBy (wf_wroteBy h))
  · exact wf_putWord (wf_wroteBy h)

theorem wf_pfWrite {s : State} {off bytes w : Nat} (h : s.mem.wf = true) : (s.pfWrite off bytes w).mem.wf = true := by
  unfold State.pfWrite
  dsimp only
  split
  · split
    · exact wf_wroteBy h
    · split
      · exact wf_onHub (wf_wroteBy h)
      · split
        · exact wf_putPair h
        · exact wf_putWord h
  · split
    · exact wf_wroteBy h
    · split
      · exact wf_onHub (wf_wroteBy h)
      · split
        · exact wf_putPair h
        · exact wf_putWord h

theorem wf_vfWrite {s : State} {v off bytes w : Nat} (h : s.mem.wf = true) : (s.vfWrite v off bytes w).mem.wf = true := by
  unfold State.vfWrite
  split
  · exact wf_wroteBy h
  · split
    · exact wf_putPair h
    · exact wf_putWord h

theorem kept_execRegisterWrite {fn : BitVec 6} {off : BitVec 28} {bytes : BitVec 4} {w : BitVec 64} {s : State} (h : s.mem.wf = true) : Kept
    (execRegisterWrite fn off bytes w s) := by
  unfold execRegisterWrite
  dsimp only
  split
  · exact kept_next (wf_mk h)
  · split
    · exact kept_next (wf_onHub h)
    · split
      · exact kept_next (wf_watch (wf_pfWrite h))
      · exact kept_next (wf_watch (wf_vfWrite h))

theorem kept_execBar0BadAccess {fn : BitVec 6} {off : BitVec 28} {bytes : BitVec 4} {write : Bool} {s : State} (h : s.mem.wf = true) : Kept
    (execBar0BadAccess fn off bytes write s) := by
  unfold execBar0BadAccess
  dsimp only
  split
  · exact kept_next (wf_mk h)
  · split
    · exact kept_next h
    · exact kept_hubStep h

/-- Every command keeps memory in its canonical form. -/
theorem kept_exec {i : Instr} {s : State} (h : s.mem.wf = true) : Kept (exec i s) := by
  delta exec
  cases i with
  | registerWrite => exact kept_execRegisterWrite h
  | bar0BadAccess => exact kept_execBar0BadAccess h
  | commit | validateOnly | discard | breakForecast | start | stop | morClear => exact kept_hubStep (wf_wroteVia h)
  | forecastIdleExpiry | twinPrepareReady | perstNDeassert | haltServiceStart | partnerSoundingTimeout | activationComplete
  | migrationStart | xltInvalidate | xltInvalidateDone | asInvalidateDone | soundingStep | soundingTimeout | rimeSweep | laneCondemn
  | moduleActionDone | commandFetch | busMasterEnableClear | busMasterEnableSet | powerStateChange | vfFlr | vfFlrComplete | pfFlr
  | vfEnableSet | vfEnableClear | numvfsWrite | linkSak | pacedSend | ackTimer | rateRecoveryTimer | pfcFrame | linkUp | winDrained
  | colGroupDestroy | colPost | colCancel | stepDeadline | postComplete | lockLapse | usdoTimeout | tpdoEventTimer | heartbeatProduce
  | nmtStop | nmtEnterPreOperational | nmtResetNode | nmtResetCommunication | spdmRequest | query | keyProg | kSetGo | kSetStop
  | lockInterface | getDeviceInterfaceReport | startInterface | stopInterface | getDeviceInterfaceState | debugEngage | debugRelease
  | bypass | idcode | samplePreload | extest | clamp | pfFlrComplete | canBusOff | inhibitExpiry | supplyGroupUp | configSpaceWrite => exact kept_hubStep h
  | fsetLoad => exact kept_next (wf_fsetLoad (wf_wroteBy h))
  | commitApply => exact kept_execCommitApply h
  | commitDrainTimeout => exact kept_next (wf_commitFails h)
  | commitTwinTimeout => exact kept_execCommitTwinTimeout h
  | retrainDone => exact kept_execRetrainDone h
  | porstNAssert | supplyGroupLoss => exact kept_next (wf_mk wf_rst)
  | porstNDeassert => exact kept_execPorstNDeassert h
  | perstNAssert => exact kept_execPerstNAssert h
  | bootStepComplete => exact kept_execBootStepComplete h
  | glbReset => exact kept_next (wf_glbReset (wf_wroteBy h))
  | watchdogExpiry => exact kept_execWatchdogExpiry h
  | hubFatalError => exact kept_execHubFatalError h
  | launch => exact kept_next (wf_launchCmd h)
  | tileStart => exact kept_execTileStart h
  | launchComplete => exact kept_execLaunchComplete h
  | launchTimeout => exact kept_execLaunchTimeout h
  | launchAbort => exact kept_execLaunchAbort h
  | floeResetDone => exact kept_execFloeResetDone h
  | floeCtrlReset | haltedClear | dewCounterClear | rowq | streamPause | streamResume | streamAbort | xltAsWrite | xltGrantWrite
  | siteFence | resound | sqTail | cqHead | queueEnable | queueDisable | msixUnmask | winOpen | winClose | winFree => exact kept_hubStep (wf_wroteBy h)
  | floeIdleGate => exact kept_execFloeIdleGate h
  | floeFreqChange => exact kept_execFloeFreqChange h
  | dmaComplete => exact kept_execDmaComplete h
  | evtWaitWake => exact kept_execEvtWaitWake h
  | add | sub | and | or | xor | sll | srl | sra | slt | sltu | min | max | minu | maxu | mul | mulh | mulhu | div | divu | rem | remu
  | clz | ctz | popc | sel | addi | andi | ori | xori | slti | sltiu | shi | movz | movk | fadd | fsub | fmul | fdiv | fsqrt | fmin | fmax
  | fma | fcvtL | fcvtS | feq | flt | fle | vadd | vsub | vmul | vmin | vmax | vabs | vneg | vdiv | vsqrt | vintAdd | vintSub | vintMul
  | vintAnd | vintOr | vintXor | vintSll | vintSrl | vintSra | vintMin | vintMax | vintMinu | vintMaxu | vintAdds | vcmpEq | vcmpNe
  | vcmpLt | vcmpLe | vcmpGt | vcmpGe | vcmpUnord | vcmpSeq | vcmpSne | vcmpSlt | vcmpSle | vcmpSgt | vcmpSge | pand | por | pxor | pandn
  | pnot | pfrom | pto | pfirst | vrcp | vrsqrt | vexp2 | vlog2 | vtanh | vdot | vcvt | vdqb | vredSum | vredMax | vredMin | vredSumsq
  | vpermb | vbcst | vget | vset | vslide | vziplo | vziphi | vmov | dewset | dewsetr | dewclr => exact kept_pure h
  | nop => exact kept_issue h (fun _ _ => wf_nopIss h)
  | endt => exact kept_issue h (fun _ _ => wf_endtIss h)
  | trap => exact kept_issue h (fun _ _ => wf_trapIss h)
  | fenceI => exact kept_issue h (fun _ _ => wf_fenceIIss h)
  | csrr | csrw | csrs | csrc => exact kept_issue h (fun _ _ => wf_csrIss h)
  | ldb | ldh | ldw | ldd | ldbu | ldhu | ldwu => exact kept_issue h (fun _ _ => wf_loadIss h)
  | stb | sth | stw | std => exact kept_issue h (fun _ _ => wf_storeIss h)
  | vld => exact kept_issue h (fun _ _ => wf_vldIss h)
  | vst => exact kept_issue h (fun _ _ => wf_vstIss h)
  | vldx => exact kept_issue h (fun _ _ => wf_vldxIss h)
  | vstx => exact kept_issue h (fun _ _ => wf_vstxIss h)
  | amoAdd | amoAnd | amoOr | amoXor | amoMin | amoMax | amoMinu | amoMaxu | amoSwap | amoCas => exact kept_issue h (fun _ _ => wf_amoIss h)
  | beq | bne | blt | bge | bltu | bgeu | bp => exact kept_issue h (fun _ _ => wf_branchIss h)
  | jal | jalr => exact kept_issue h (fun _ _ => wf_jumpIss h)
  | fenceLd | fenceSt | fenceAll => exact kept_issue h (fun _ _ => wf_fenceIss h)
  | bar => exact kept_issue h (fun _ _ => wf_barIss h)
  | evtRead => exact kept_issue h (fun _ _ => wf_evtReadIss h)
  | evtSet => exact kept_issue h (fun _ _ => wf_evtSetIss h)
  | evtAdd => exact kept_issue h (fun _ _ => wf_evtAddIss h)
  | evtWait => exact kept_issue h (fun _ _ => wf_evtWaitIss h)
  | dmais => exact kept_issue h (fun _ _ => wf_dmaisIss h)
  | dmast => exact kept_issue h (fun _ _ => wf_dmastIss h)
  | dmawt => exact kept_issue h (fun _ _ => wf_dmawtIss h)
  | vfma | vfms | vfnma => exact kept_issue h (fun _ _ => wf_fmaIss h)
  | vqb | vqbx => exact kept_issue h (fun _ _ => wf_quantIss h)
  | dewpointRecompute => exact kept_execDewpointRecompute h
  | windowClose => exact kept_execWindowClose h
  | migrationGroupDone => exact kept_execMigrationGroupDone h
  | migrationComplete => exact kept_execMigrationComplete h
  | sliceRequest => exact kept_execSliceRequest h
  | channelRequest => exact kept_execChannelRequest h
  | fillReturn => exact kept_execFillReturn h
  | writebackAck => exact kept_execWritebackAck h
  | wayDisable => exact kept_execWayDisable h
  | seedWrite => exact kept_execSeedWrite h
  | zeroLine | clean | invalidate | cleanInvalidate => exact kept_next (wf_maintStart (wf_wroteBy h))
  | maintComplete => exact kept_execMaintComplete h
  | scrub => exact kept_execScrub h
  | stackTempRead | allotPass | powerBrakeAssert | powerBrakeRelease | dieSensorSample | siteTelemetryRead | avsAck | regulatorStatusRead
  | twinTelemetry | heartbeatLoss | heartbeatRx | pumpFail | nmtStart | avsbusWriteUnacknowledged => exact kept_hubWatch h
  | repairStart => exact kept_execRepairStart h
  | repairDone => exact kept_execRepairDone h
  | rowqDone => exact kept_execRowqDone h
  | fillGranule => exact kept_execFillGranule h
  | fillComplete => exact kept_execFillComplete h
  | streamOpen => exact kept_next (wf_streamOpenCmd h)
  | streamClose => exact kept_execStreamClose h
  | dbTail | siteEngDb => exact kept_next (wf_onHub (wf_wroteSrc h))
  | dbCplhead => exact kept_next (wf_dbCplhead (wf_wroteSrc h))
  | descriptorStart => exact kept_execDescriptorStart h
  | driftNop => exact kept_next (wf_descRun h (fun _ _ hx => wf_onHub hx))
  | driftCopy | driftTranscode => exact kept_next (wf_descRun h (fun _ _ hx => wf_moveRows hx))
  | driftFill => exact kept_next (wf_descRun h (fun _ _ hx => wf_ite (wf_fillRows hx) (wf_rowsEnd (wf_fillRows hx))))
  | driftGather | driftScatter => exact kept_next (wf_descRun h (fun _ _ hx => wf_indexedRows hx))
  | driftZero | driftClean | driftInvalidate | driftCleanInvalidate => exact kept_driftMaint h
  | descriptorComplete => exact kept_execDescriptorComplete h
  | remoteRowRetry => exact kept_execRemoteRowRetry h
  | atsInvalidation => exact kept_next (wf_onHub h)
  | priResponse => exact kept_execPriResponse h
  | xltResume => exact kept_next (wf_xltResumeCmd h)
  | walkStart => exact kept_execWalkStart h
  | tableReadReturn => exact kept_execTableReadReturn h
  | faultRecordWrite => exact kept_execFaultRecordWrite h
  | parkAdmit => exact kept_next (wf_parkAdmit h)
  | fqCiWrite => exact kept_next (wf_fqCi (wf_wroteBy h))
  | eepRead | eepWrite | eepWritePartial | eepAtomic | eepMaint | eepPrefetch => exact kept_next (wf_eepRequest h)
  | eepComplete | eepInterrupt => exact kept_next (wf_eepEvent h)
  | eepCleared => exact kept_execEepCleared h
  | eepErrorReport => exact kept_execEepErrorReport h
  | eepCredit => exact kept_execEepCredit h
  | clearedTimeout => exact kept_execClearedTimeout h
  | regulatorAdmit => exact kept_next (wf_portAdmit h)
  | stopComplete => exact kept_execStopComplete h
  | stopTimeout => exact kept_execStopTimeout h
  | partitionReset => exact kept_next (wf_watch (wf_prtReset (wf_wroteVia h)))
  | partitionResetComplete => exact kept_execPartitionResetComplete h
  | thaw => exact kept_next (wf_watch (wf_prtThaw (wf_wroteVia h)))
  | thawComplete => exact kept_execThawComplete h
  | cmdNop => exact kept_next (wf_done h)
  | diagAccess => exact kept_execDiagAccess h
  | bar2Read => exact kept_execBar2Read h
  | bar2Write => exact kept_execBar2Write h
  | hostCompletion => exact kept_execHostCompletion h
  | completionTimeout => exact kept_execCompletionTimeout h
  | hotReset => exact kept_execHotReset h
  | mbxGo => exact kept_next (wf_mbxServe (wf_wroteBy h))
  | transportWrite | readReq | transportAtomic | colData | colCredit | colSquall | colAbort => exact kept_next (wf_rxFrame h (fun _ hx => wf_rxReq hx))
  | readResp | atomicResp => exact kept_next (wf_rxFrame h (fun _ hx => wf_rxResp hx))
  | ack => exact kept_next (wf_rxFrame h (fun _ hx => wf_rxAck hx))
  | nak => exact kept_next (wf_rxFrame h (fun _ hx => wf_rxNak hx))
  | cnp => exact kept_execCnp h
  | pathOpen => exact kept_next (wf_pumpAll (wf_rxFrame h (fun _ hx => wf_onHub hx)))
  | pathAccept => exact kept_next (wf_rxFrame h (fun _ hx => wf_onHub hx))
  | pathClose => exact kept_execPathClose h
  | rtoExpiry | pfcWatchdog | lossOfLock | quadFatal => exact kept_next (wf_pumpAll (wf_onHub h))
  | lnkPeerWrite => exact kept_next (wf_pumpAll (wf_onHub (wf_wroteBy h)))
  | colGroupCreate => exact kept_next (wf_groupCreateCmd h)
  | postStart => exact kept_execPostStart h
  | chunkSend => exact kept_execChunkSend h
  | softwareBrake => exact kept_hubWatch (wf_wroteBy h)
  | almanacRead => exact kept_execAlmanacRead h
  | almanacWrite => exact kept_execAlmanacWrite h
  | almanacLock => exact kept_execAlmanacLock h
  | almanacUnlock => exact kept_execAlmanacUnlock h
  | lockReleaseAll | slotOffset | slotData | stage | confirm | activate | lcRequest => exact kept_next (wf_odServeWrite h)
  | usdoTransfer => exact kept_execUsdoTransfer h
  | rpdo => exact kept_execRpdo h
  | sync => exact kept_execSync h
  | moraineRecordRead => exact kept_next (wf_odServeRead h)
  | lcTransitionStep => exact kept_execLcTransitionStep h
  | bundleInstall => exact kept_execBundleInstall h
  | bundleInstallComplete => exact kept_execBundleInstallComplete h
  | domainRemove => exact kept_execDomainRemove h
  | debugRead => exact kept_execDebugRead h

/-- A step keeps memory in its canonical form, whatever the queue holds. -/
theorem kept_step {s : State} (h : s.mem.wf = true) : Kept (step s) := by
  unfold step
  split
  · exact kept_next h
  · exact kept_exec h

/-- Settles O58, by a lemma over each command, each by the lemmas over the operations it is made of. -/
theorem everyStepKeepsTheMemoryCanonical : Obligations.EveryStepKeepsTheMemoryCanonical := by
  unfold Obligations.EveryStepKeepsTheMemoryCanonical
  intro s t hs e
  exact kept_step hs t e

/-- Settles O57: the definition of a step. -/
theorem aStepRunsTheCommandAtTheFront : Obligations.AStepRunsTheCommandAtTheFront := by
  unfold Obligations.AStepRunsTheCommandAtTheFront
  intro c s
  refine ⟨step_cons c s.pending, fun h => ?_⟩
  unfold step
  rw [h]

end Sys2Proof.Machine
end

section
/-! SUPPORT. What a completion writes, holds and leaves. -/

namespace Sys2Proof.Machine

open Sys2Proof

@[simp] theorem Hub.msix_mor (h : Hub) (fn e : Nat) : (h.msix fn e).mor = h.mor := by
  unfold Hub.msix
  split_ifs <;> rfl

@[simp] theorem Hub.msix_drift (h : Hub) (fn e : Nat) : (h.msix fn e).drift = h.drift := by
  unfold Hub.msix
  split_ifs <;> rfl

theorem Hub.writeCpl_proj {α : Type} {p : Hub → α} (hqp : ∀ h fn q x, p (Hub.setQp h fn q x) = p h) (hsend : ∀ h m, p (Hub.send h m) = p h)
    (hmsix : ∀ h fn e, p (Hub.msix h fn e) = p h) (h : Hub) (fn q : Nat) (r : CplRec) : p (h.writeCpl fn q r) = p h := by
  unfold Hub.writeCpl
  extract_lets x lg addr phase k
  have hk : p k = p h := (hsend _ _).trans (hqp _ _ _ _)
  split_ifs
  exacts [hk, (hmsix _ _ _).trans hk]

theorem Hub.drainQueue_proj {α : Type} {p : Hub → α} (hset : ∀ h f v, p (Hub.set h f v) = p h) (h : Hub) (fn q : Nat) :
    p (h.drainQueue fn q) = p h := by
  unfold Hub.drainQueue
  split_ifs
  exacts [hset _ _ _, rfl]

/-- A completion leaves what registers, queues, messages and vectors leave. -/
theorem Hub.complete_proj {α : Type} {p : Hub → α} (hset : ∀ h f v, p (Hub.set h f v) = p h) (hqp : ∀ h fn q x, p (Hub.setQp h fn q x) = p h)
    (hsend : ∀ h m, p (Hub.send h m) = p h) (hmsix : ∀ h fn e, p (Hub.msix h fn e) = p h) (h : Hub) (c : QCmd) (st r : Nat) :
    p (h.complete c st r) = p h := by
  have hrelease : ∀ n (k : Hub), p (Hub.releaseHeld n k c.fn c.q) = p k := by
    intro n
    induction n with
    | zero => exact fun _ => rfl
    | succ n ih =>
      intro k
      rw [Hub.releaseHeld]
      split
      · rw [Hub.drainQueue_proj hset, hset]
      · split_ifs
        · rfl
        · exact hset _ _ _
        · rw [ih, Hub.writeCpl_proj hqp hsend hmsix, hqp]
  unfold Hub.complete
  split_ifs
  · rfl
  · exact (hrelease _ _).trans (hqp _ _ _ _)

theorem Hub.complete_sea (h : Hub) (c : QCmd) (st r : Nat) : (h.complete c st r).sea = h.sea := (h.complete_sameButQueues c st r).sea

theorem Hub.complete_mor (h : Hub) (c : QCmd) (st r : Nat) : (h.complete c st r).mor = h.mor :=
  Hub.complete_proj (p := Hub.mor) (fun _ _ _ => rfl) (fun _ _ _ _ => rfl) (fun _ _ => rfl) Hub.msix_mor h c st r

theorem Hub.complete_drift (h : Hub) (c : QCmd) (st r : Nat) : (h.complete c st r).drift = h.drift :=
  Hub.complete_proj (p := Hub.drift) (fun _ _ _ => rfl) (fun _ _ _ _ => rfl) (fun _ _ => rfl) Hub.msix_drift h c st r

theorem Hub.complete_refused {h : Hub} {c : QCmd} (hq : 64 ≤ c.q ∨ h.get (Reg.qStatusState c.fn c.q) = 0) (st r : Nat) : h.complete c st r = h :=
  if_pos hq

/-- The hub with the record of a completing command held behind those of its queue. -/
def Hub.holdCpl (h : Hub) (c : QCmd) (st r : Nat) : Hub :=
  h.setQp c.fn c.q { h.qp c.fn c.q with
    openCmds := (h.qp c.fn c.q).openCmds.erase c
    held := (h.qp c.fn c.q).held ++ [⟨r, c.sqHead, c.q, st, qf c 2 2, bitAt (qf c 1 1) 1⟩] }

theorem Hub.complete_eq_flush {h : Hub} {c : QCmd} (hq : c.q < 64) (hst : h.get (Reg.qStatusState c.fn c.q) ≠ 0) (st r : Nat) :
    h.complete c st r = (h.holdCpl c st r).flushQueue c.fn c.q := if_neg (by omega)

theorem Hub.holdCpl_regs (h : Hub) (c : QCmd) (st r : Nat) : (h.holdCpl c st r).regs = h.regs := rfl

theorem Hub.qp_holdCpl (h : Hub) (c : QCmd) (st r : Nat) : (h.holdCpl c st r).qp c.fn c.q = { h.qp c.fn c.q with
    openCmds := (h.qp c.fn c.q).openCmds.erase c
    held := (h.qp c.fn c.q).held ++ [⟨r, c.sqHead, c.q, st, qf c 2 2, bitAt (qf c 1 1) 1⟩] } := Hub.qp_setQp_same _ _ _ _

theorem Hub.holdCpl_quiet (h : Hub) (c : QCmd) (st r : Nat) (fn : Nat) : (h.holdCpl c st r).quiet fn = h.quiet fn := rfl

theorem Hub.holdCpl_cqFull (h : Hub) (c : QCmd) (st r : Nat) : (h.holdCpl c st r).cqFull c.fn c.q = h.cqFull c.fn c.q := by
  unfold Hub.cqFull
  rw [Hub.qp_holdCpl]
  rfl

/-- A record without an interrupt goes to the slot that the producer count names. -/
theorem Hub.writeCpl_noIrq {h : Hub} {fn q : Nat} (hirq : h.get (Reg.qCtrlIrqEn fn q) = 0) (r : CplRec) :
    h.writeCpl fn q r = (h.setQp fn q { h.qp fn q with c := wrapAdd 32 (h.qp fn q).c 1 }).send
      (.hostWrite fn (h.get (Reg.qCqBaseAddr fn q) * 4096 + 16 * ((h.qp fn q).c % 2 ^ h.get (Reg.qCtrlCqLog2 fn q))) 16
        (r.word (if (h.qp fn q).c / 2 ^ h.get (Reg.qCtrlCqLog2 fn q) % 2 = 0 then 1 else 0))) := by
  have hoff : ∀ (x : QPair) m, ((h.setQp fn q x).send m).on (Reg.qCtrlIrqEn fn q) = false := fun _ _ => decide_eq_false (not_not.2 hirq)
  unfold Hub.writeCpl
  simp [hoff]

theorem Hub.flushQueue_wait {h : Hub} {fn q : Nat} {r : CplRec} (hheld : (h.qp fn q).held = [r]) (hw : h.quiet fn = true ∨ h.cqFull fn q = true) :
    (h.flushQueue fn q).sent = h.sent ∧ (h.flushQueue fn q).qp fn q = h.qp fn q := by
  unfold Hub.flushQueue
  rw [hheld, List.length_singleton, Hub.releaseHeld, hheld]
  dsimp only
  split_ifs
  · exact ⟨rfl, rfl⟩
  · exact ⟨rfl, rfl⟩
  · simp_all

theorem Hub.drainQueue_enabled {h : Hub} {fn q : Nat} (hst : h.get (Reg.qStatusState fn q) = 1) : h.drainQueue fn q = h :=
  if_neg (by omega)

/-- A lone record of an enabled queue with room, of a function that may write, goes out. -/
theorem Hub.flushQueue_go {h : Hub} {fn q : Nat} {r : CplRec} (hst : h.get (Reg.qStatusState fn q) = 1) (hheld : (h.qp fn q).held = [r])
    (hquiet : h.quiet fn = false) (hfull : h.cqFull fn q = false) (hirq : h.get (Reg.qCtrlIrqEn fn q) = 0) :
    (h.flushQueue fn q).sent = .hostWrite fn (h.get (Reg.qCqBaseAddr fn q) * 4096 + 16 * ((h.qp fn q).c % 2 ^ h.get (Reg.qCtrlCqLog2 fn q))) 16
        (r.word (if (h.qp fn q).c / 2 ^ h.get (Reg.qCtrlCqLog2 fn q) % 2 = 0 then 1 else 0)) :: h.sent
      ∧ (h.flushQueue fn q).qp fn q = { h.qp fn q with held := [], c := wrapAdd 32 (h.qp fn q).c 1 } := by
  have hirq' : (h.setQp fn q { h.qp fn q with held := [] }).get (Reg.qCtrlIrqEn fn q) = 0 := hirq
  have hwrote := Hub.writeCpl_noIrq hirq' r
  rw [Hub.qp_setQp_same] at hwrote
  generalize hk : (h.setQp fn q { h.qp fn q with held := [] }).writeCpl fn q r = k at hwrote
  have hqp : k.qp fn q = { h.qp fn q with held := [], c := wrapAdd 32 (h.qp fn q).c 1 } := by
    rw [hwrote]
    exact Hub.qp_setQp_same _ _ _ _
  have hkst : (k.set (Reg.qStatusHeld fn q) 0).get (Reg.qStatusState fn q) = 1 := by
    rw [Hub.get_set_ne, hwrote]
    · exact hst
    · intro e
      have := congrArg (· % 2048) e
      simp only [key_qStatusState_mod, key_qStatusHeld_mod] at this
      omega
  have hflush : h.flushQueue fn q = k.set (Reg.qStatusHeld fn q) 0 := by
    unfold Hub.flushQueue
    rw [hheld, List.length_singleton, Hub.releaseHeld, hheld]
    simp only [hquiet, hfull, hk, Bool.false_eq_true, if_false, Hub.releaseHeld, hqp]
    exact Hub.drainQueue_enabled hkst
  rw [hflush]
  exact ⟨by rw [Hub.set_sent, hwrote]; rfl, hqp⟩

/-- Settles O24, by what the queue's flush does with a single record held. -/
theorem completionsAreRecordedInOrder : Obligations.CompletionsAreRecordedInOrder := by
  unfold Obligations.CompletionsAreRecordedInOrder
  intro h c st r
  extract_lets x t lg word
  refine ⟨fun hq => Hub.complete_refused hq st r, fun hq hfn hst hheld => ?_, h.complete_sea c st r, h.complete_mor c st r, h.complete_drift c st r⟩
  have ht : t = (h.holdCpl c st r).flushQueue c.fn c.q := Hub.complete_eq_flush hq (by omega) st r
  have hone : ((h.holdCpl c st r).qp c.fn c.q).held = [⟨r, c.sqHead, c.q, st, qf c 2 2, bitAt (qf c 1 1) 1⟩] := by
    rw [Hub.qp_holdCpl]
    exact congrArg (· ++ _) hheld
  constructor
  · intro hquiet hfull hirq
    obtain ⟨hsent, hqp⟩ := Hub.flushQueue_go (h := h.holdCpl c st r) hst hone hquiet ((h.holdCpl_cqFull c st r).trans hfull) hirq
    rw [ht, hqp, hsent, Hub.qp_holdCpl]
    refine ⟨?_, rfl, rfl, rfl⟩
    simp only [CplRec.word, qf, bits, Nat.mod_mod, word, x, lg]
    rfl
  · intro hwait
    obtain ⟨hsent, hqp⟩ := Hub.flushQueue_wait hone (hwait.imp id ((h.holdCpl_cqFull c st r).trans ·))
    rw [ht, hqp, hsent, Hub.qp_holdCpl]
    exact ⟨rfl, rfl, by simp [hheld, x], rfl⟩

end Sys2Proof.Machine
end

section
/-! SUPPORT. What the controls of exported windows write and leave. -/

namespace Sys2Proof.Machine

open Sys2Proof

/-- The field lies among the entries of the window tables (16). -/
def Fld.InWtt (g : Fld) : Prop := 0xB40000 * 2048 ≤ g.key ∧ g.key < 0xB80000 * 2048

/-- An entry's field lies in the tables. -/
theorem Fld.inWtt_of_off {g : Fld} {d n : Nat} (hd : d < 2) (hn : n < 4096) (hoff : g.off = 0xB40000 + 0x20000 * d + 0x20 * n) (hlo : g.lo < 2048) :
    g.InWtt := by
  unfold Fld.InWtt Fld.key
  omega

/-- No record writes a window's entry. -/
theorem Fld.InWtt.ne_recordFlds {g : Fld} (hg : g.InWtt) : ∀ f ∈ recordFlds, f.key ≠ g.key := by
  intro f hf
  have hout : f.key < 0xB40000 * 2048 ∨ 0xB80000 * 2048 ≤ f.key :=
    (by decide : ∀ f ∈ recordFlds, f.key < 0xB40000 * 2048 ∨ 0xB80000 * 2048 ≤ f.key) f hf
  unfold Fld.InWtt at hg
  omega

theorem Fld.InWtt.ne_winErr {g : Fld} (hg : g.InWtt) : g.key ≠ Reg.lnkEventWinErr.key := by
  have : Reg.lnkEventWinErr.key < 0xB40000 * 2048 := by decide
  unfold Fld.InWtt at hg
  omega

theorem Fld.InWtt.ne_winDrained {g : Fld} (hg : g.InWtt) : g.key ≠ Reg.lnkEventWinDrained.key := by
  have : Reg.lnkEventWinDrained.key < 0xB40000 * 2048 := by decide
  unfold Fld.InWtt at hg
  omega

theorem Hub.linkEvent_get (h : Hub) (p : Nat) (f g : Fld) : (h.linkEvent p f).get g = (h.event f).get g := (Hub.raiseVf_sameRegs _ _ _).get g

/-- The mark of a refused control reads 1 where its field is one bit of the entry. -/
theorem Hub.winMark_get_same (h : Hub) (d n p : Nat) {f : Fld} (hf : f.InWtt) (hlen : f.len = 1) :
    (((h.set f 1).winRec d n).linkEvent p Reg.lnkEventWinErr).get f = 1 := by
  rw [Hub.linkEvent_get, Hub.event_get_ne _ hf.ne_winErr, Hub.winRec, Hub.record_get_ne _ _ hf.ne_recordFlds, Hub.get_set_same, hlen]
  rfl

/-- The mark of a refused control changes no other field of the tables. -/
theorem Hub.winMark_get_ne (h : Hub) (d n p : Nat) {f g : Fld} (hg : g.InWtt) (hne : g.key ≠ f.key) :
    (((h.set f 1).winRec d n).linkEvent p Reg.lnkEventWinErr).get g = h.get g := by
  rw [Hub.linkEvent_get, Hub.event_get_ne _ hg.ne_winErr, Hub.winRec, Hub.record_get_ne _ _ hg.ne_recordFlds, Hub.get_set_ne _ _ hne]

theorem Hub.winMark_event (h : Hub) (d n p : Nat) (f : Fld) :
    (((h.set f 1).winRec d n).linkEvent p Reg.lnkEventWinErr).get Reg.lnkEventWinErr = 1 := by
  rw [Hub.linkEvent_get, Hub.event_get_same _ (by decide)]

/-- Two fields of one entry that start at different bits are different. -/
theorem winWtt_key_ne {f g : Fld} (hoff : f.off = g.off) (hlo : f.lo ≠ g.lo) : f.key ≠ g.key := by
  unfold Fld.key
  omega

/-- What an entry shows of its state, its generation, its base and its drain. -/
def Hub.WinEntry (h : Hub) (d n st gen base drain : Nat) : Prop :=
  h.get (Reg.winWttState d n) = st ∧ h.get (Reg.winWttGen d n) = gen ∧ h.get (Reg.winWttBase d n) = base ∧ h.get (Reg.winWttDrain d n) = drain

section
variable {d n : Nat} (hd : d < 2) (hn : n < 4096)
include hd hn

/-- A refused control leaves the entry's state, generation, base and drain. -/
theorem Hub.winMark_entry (h : Hub) (p : Nat) {f : Fld} (hoff : f.off = 0xB40000 + 0x20000 * d + 0x20 * n) (hlo : f.lo = 14 ∨ f.lo = 15) :
    Hub.WinEntry (((h.set f 1).winRec d n).linkEvent p Reg.lnkEventWinErr) d n (h.get (Reg.winWttState d n)) (h.get (Reg.winWttGen d n))
      (h.get (Reg.winWttBase d n)) (h.get (Reg.winWttDrain d n)) := by
  have hkeep (g : Fld) (hg : g.off = 0xB40000 + 0x20000 * d + 0x20 * n) (hglo : g.lo < 14 ∨ 15 < g.lo) (hbound : g.lo < 2048) :=
    h.winMark_get_ne d n p (Fld.inWtt_of_off hd hn hg hbound) (winWtt_key_ne (hg.trans hoff.symm) (by omega : g.lo ≠ f.lo))
  exact ⟨hkeep _ rfl (Or.inl (by decide : 0 < 14)) (by decide : 0 < 2048), hkeep _ rfl (Or.inr (by decide : 15 < 16)) (by decide : 16 < 2048),
    hkeep _ rfl (Or.inr (by decide : 15 < 64)) (by decide : 64 < 2048), hkeep _ rfl (Or.inr (by decide : 15 < 128)) (by decide : 128 < 2048)⟩

theorem winWttWrErr_inWtt : (Reg.winWttWrErr d n).InWtt := Fld.inWtt_of_off hd hn rfl (by decide : 14 < 2048)

theorem winWttOpenErr_inWtt : (Reg.winWttOpenErr d n).InWtt := Fld.inWtt_of_off hd hn rfl (by decide : 15 < 2048)

theorem winWttGen_inWtt : (Reg.winWttGen d n).InWtt := Fld.inWtt_of_off hd hn rfl (by decide : 16 < 2048)

theorem winWttBase_inWtt : (Reg.winWttBase d n).InWtt := Fld.inWtt_of_off hd hn rfl (by decide : 64 < 2048)

theorem winWttDrain_inWtt : (Reg.winWttDrain d n).InWtt := Fld.inWtt_of_off hd hn rfl (by decide : 128 < 2048)

theorem winWttState_inWtt : (Reg.winWttState d n).InWtt := Fld.inWtt_of_off hd hn rfl (by decide : 0 < 2048)

/-- A control that the entry's state does not take marks WR_ERR and leaves the entry. -/
theorem Hub.winRefuse_marks (h : Hub) :
    Hub.WinEntry (h.winRefuse d n) d n (h.get (Reg.winWttState d n)) (h.get (Reg.winWttGen d n)) (h.get (Reg.winWttBase d n))
        (h.get (Reg.winWttDrain d n))
      ∧ (h.winRefuse d n).get (Reg.winWttWrErr d n) = 1 ∧ (h.winRefuse d n).get Reg.lnkEventWinErr = 1 :=
  ⟨h.winMark_entry hd hn _ rfl (Or.inl rfl), h.winMark_get_same d n _ (winWttWrErr_inWtt hd hn) rfl, h.winMark_event d n _ _⟩

end

/-- A new state of an entry leaves its generation, its base and its drain. -/
theorem Hub.set_winWttState_entry (h : Hub) (d n v : Nat) (hv : v < 4) :
    Hub.WinEntry (h.set (Reg.winWttState d n) v) d n v (h.get (Reg.winWttGen d n)) (h.get (Reg.winWttBase d n)) (h.get (Reg.winWttDrain d n)) := by
  have hkeep (g : Fld) (hoff : g.off = (Reg.winWttState d n).off) (hlo : g.lo ≠ 0) := h.get_set_ne v (winWtt_key_ne hoff hlo)
  exact ⟨(Hub.get_set_same _ _ _).trans (Nat.mod_eq_of_lt hv), hkeep _ rfl (by decide : 16 ≠ 0), hkeep _ rfl (by decide : 64 ≠ 0),
    hkeep _ rfl (by decide : 128 ≠ 0)⟩

/-- A drained entry is CLOSED and keeps its generation, its base and its drain. -/
theorem Hub.winDrained_entry {d n : Nat} (hd : d < 2) (hn : n < 4096) (h : Hub) (p : Nat) :
    Hub.WinEntry ((h.set (Reg.winWttState d n) 3).linkEvent p Reg.lnkEventWinDrained) d n 3 (h.get (Reg.winWttGen d n)) (h.get (Reg.winWttBase d n))
      (h.get (Reg.winWttDrain d n)) := by
  have hkeep {g : Fld} (hg : g.InWtt) : ((h.set (Reg.winWttState d n) 3).linkEvent p Reg.lnkEventWinDrained).get g =
      (h.set (Reg.winWttState d n) 3).get g := (Hub.linkEvent_get _ _ _ _).trans (Hub.event_get_ne _ hg.ne_winDrained)
  obtain ⟨hst, hgen, hbase, hdrain⟩ := h.set_winWttState_entry d n 3 (by decide)
  exact ⟨(hkeep (winWttState_inWtt hd hn)).trans hst, (hkeep (winWttGen_inWtt hd hn)).trans hgen, (hkeep (winWttBase_inWtt hd hn)).trans hbase,
    (hkeep (winWttDrain_inWtt hd hn)).trans hdrain⟩

-- The judgement of a window's range

theorem Hub.region_congr {h k : Hub} (hr : k.regs = h.regs) (a : Nat) : k.region a = h.region a := by
  have hd : k.dies = h.dies := by
    unfold Hub.dies Hub.on
    rw [Hub.get_of_regs_eq _ hr]
  unfold Hub.region
  rw [hd]

theorem Hub.holds_congr {h k : Hub} (hr : k.regs = h.regs) (p : Nat) : k.holds p = h.holds p := by
  have hexists : k.partExists p = h.partExists p := by
    unfold Hub.partExists Hub.on
    rw [Hub.get_of_regs_eq _ hr]
  have hstate : k.partState p = h.partState p := Hub.get_of_regs_eq _ hr
  unfold Hub.holds
  rw [hexists, hstate]

/-- The judgement reads registers alone. -/
theorem Hub.winOwned_congr {h k : Hub} (hr : k.regs = h.regs) (d n : Nat) : k.winOwned d n = h.winOwned d n := by
  have hhalf (i : Nat) : k.halfOwner i = h.halfOwner i := by simp only [Hub.halfOwner, Hub.holds_congr hr, Hub.get_of_regs_eq _ hr]
  have hslice (i : Nat) : k.sliceOwner i = h.sliceOwner i := by simp only [Hub.sliceOwner, Hub.holds_congr hr, Hub.get_of_regs_eq _ hr]
  have hfloe (i : Nat) : k.floeOwner i = h.floeOwner i := by simp only [Hub.floeOwner, Hub.holds_congr hr, Hub.get_of_regs_eq _ hr]
  unfold Hub.winOwned
  simp only [hhalf, hslice, hfloe, Hub.region_congr hr, Hub.get_of_regs_eq _ hr]

theorem Hub.winOwned_bounds {h : Hub} {d n : Nat} (ho : h.winOwned d n = true) :
    h.get (Reg.winWttPartition d n) < 24 ∧ 16 ≤ h.get (Reg.winWttSizeLog2 d n) ∧ h.get (Reg.winWttSizeLog2 d n) ≤ 36
      ∧ h.get (Reg.winWttBase d n) % 2 ^ h.get (Reg.winWttSizeLog2 d n) = 0 := by
  simp only [Hub.winOwned, Bool.and_eq_true, decide_eq_true_eq] at ho
  obtain ⟨⟨⟨⟨hp, hlo⟩, hhi⟩, halign⟩, -⟩ := ho
  exact ⟨hp, hlo, hhi, halign⟩

/-- An aligned range of at most 2^36 bytes lies in one block of 2^36. -/
theorem div_last_of_aligned {a lg : Nat} (hlg : lg ≤ 36) (halign : a % 2 ^ lg = 0) : (a + 2 ^ lg - 1) / 2 ^ 36 = a / 2 ^ 36 := by
  obtain ⟨c, rfl⟩ := Nat.dvd_of_mod_eq_zero halign
  have hpos : 0 < 2 ^ lg := Nat.two_pow_pos lg
  have hsplit : 2 ^ 36 = 2 ^ lg * 2 ^ (36 - lg) := by rw [← pow_add, Nat.add_sub_cancel' hlg]
  have hlast : (2 ^ lg * c + 2 ^ lg - 1) / 2 ^ lg = c := by
    rw [show 2 ^ lg * c + 2 ^ lg - 1 = (2 ^ lg - 1) + 2 ^ lg * c by omega, Nat.add_mul_div_left _ _ hpos, Nat.div_eq_of_lt (by omega), Nat.zero_add]
  rw [hsplit, ← Nat.div_div_eq_div_mul, ← Nat.div_div_eq_div_mul, hlast, Nat.mul_div_cancel_left _ hpos]

/-- The half-stacks of such a range are one or two neighbours. -/
theorem halfOf_last_of_aligned {a lg : Nat} (hlg : lg ≤ 36) (halign : a % 2 ^ lg = 0) :
    halfOf a ≤ halfOf (a + 2 ^ lg - 1) := by
  have hblock := div_last_of_aligned hlg halign
  have hdie : (a + 2 ^ lg - 1) / 2 ^ 40 = a / 2 ^ 40 := by
    rw [show 2 ^ 40 = 2 ^ 36 * 2 ^ 4 by norm_num, ← Nat.div_div_eq_div_mul, ← Nat.div_div_eq_div_mul, hblock]
  have hle : a ≤ a + 2 ^ lg - 1 := by
    have := Nat.two_pow_pos lg
    omega
  unfold halfOf stackOf
  rw [hblock, hdie]
  omega

/-- The partition owns the half-stacks at both ends of a range it may export. -/
theorem Hub.winOwned_halves {h : Hub} {d n : Nat} (ho : h.winOwned d n = true) (hstack : h.region (h.get (Reg.winWttBase d n)) = .stack) :
    h.halfOwner (halfOf (h.get (Reg.winWttBase d n))) = h.get (Reg.winWttPartition d n)
      ∧ h.halfOwner (halfOf (h.get (Reg.winWttBase d n) + 2 ^ h.get (Reg.winWttSizeLog2 d n) - 1)) = h.get (Reg.winWttPartition d n) := by
  obtain ⟨-, -, hhi, halign⟩ := Hub.winOwned_bounds ho
  have hle := halfOf_last_of_aligned hhi halign
  simp only [Hub.winOwned, hstack, Bool.and_eq_true] at ho
  obtain ⟨-, ho⟩ := ho
  cases hlast : h.region (h.get (Reg.winWttBase d n) + 2 ^ h.get (Reg.winWttSizeLog2 d n) - 1) <;> simp only [hlast, Bool.false_eq_true] at ho
  simp only [Bool.and_eq_true, List.all_map, List.all_eq_true, List.mem_range, Function.comp_apply, decide_eq_true_eq] at ho
  obtain ⟨-, hall⟩ := ho
  have hfirst := hall 0 (by omega)
  have hend := hall (halfOf (h.get (Reg.winWttBase d n) + 2 ^ h.get (Reg.winWttSizeLog2 d n) - 1) - halfOf (h.get (Reg.winWttBase d n))) (by omega)
  rw [Nat.zero_add] at hfirst
  rw [Nat.sub_add_cancel hle] at hend
  exact ⟨hfirst, hend⟩

theorem Hub.winOwned_window {h : Hub} {d n x y : Nat} (hwin : h.region (h.get (Reg.winWttBase d n)) = .window x y) : ¬ h.winOwned d n = true := by
  simp [Hub.winOwned, hwin]

-- The three controls

theorem Hub.winOpenAt_owned {h : Hub} {d n : Nat} (hd : d < h.dies) (hst : h.get (Reg.winWttState d n) = 0 ∨ h.get (Reg.winWttState d n) = 3)
    (ho : h.winOwned d n = true) :
    h.winOpenAt d n = h.sets [(Reg.winWttGen d n, h.get (Reg.winWttGen d n) + 1), (Reg.winWttState d n, 1)] := by
  unfold Hub.winOpenAt
  extract_lets st
  rw [if_neg (by omega), if_neg (by omega), if_pos ho]

theorem Hub.winOpenAt_unowned {h : Hub} {d n : Nat} (hd : d < h.dies) (hst : h.get (Reg.winWttState d n) = 0 ∨ h.get (Reg.winWttState d n) = 3)
    (ho : ¬ h.winOwned d n = true) :
    h.winOpenAt d n = ((h.set (Reg.winWttOpenErr d n) 1).winRec d n).linkEvent (h.get (Reg.winWttPartition d n)) Reg.lnkEventWinErr := by
  unfold Hub.winOpenAt
  extract_lets st
  rw [if_neg (by omega), if_neg (by omega), if_neg ho]

theorem Hub.winOpenAt_refused {h : Hub} {d n : Nat} (hd : d < h.dies) (hst : h.get (Reg.winWttState d n) = 1 ∨ h.get (Reg.winWttState d n) = 2) :
    h.winOpenAt d n = h.winRefuse d n := by
  unfold Hub.winOpenAt
  extract_lets st
  rw [if_neg (by omega), if_pos (by omega)]

theorem Hub.winCloseAt_open {h : Hub} {d n : Nat} (hd : d < h.dies) (hst : h.get (Reg.winWttState d n) = 1) :
    h.winCloseAt d n = h.set (Reg.winWttState d n) 2 := by
  unfold Hub.winCloseAt
  rw [if_neg (by omega), if_pos hst]

theorem Hub.winCloseAt_refused {h : Hub} {d n : Nat} (hd : d < h.dies) (hst : h.get (Reg.winWttState d n) ≠ 1) :
    h.winCloseAt d n = h.winRefuse d n := by
  unfold Hub.winCloseAt
  rw [if_neg (by omega), if_neg hst]

theorem Hub.winFreeAt_closed {h : Hub} {d n : Nat} (hd : d < h.dies) (hst : h.get (Reg.winWttState d n) = 3) :
    h.winFreeAt d n = h.set (Reg.winWttState d n) 0 := by
  unfold Hub.winFreeAt
  rw [if_neg (by omega), if_pos hst]

theorem Hub.winFreeAt_refused {h : Hub} {d n : Nat} (hd : d < h.dies) (hst : h.get (Reg.winWttState d n) ≠ 3) :
    h.winFreeAt d n = h.winRefuse d n := by
  unfold Hub.winFreeAt
  rw [if_neg (by omega), if_neg hst]

/-- Opening counts the generation up and leaves the base and the drain. -/
theorem Hub.winOpened_entry (h : Hub) (d n : Nat) :
    Hub.WinEntry (h.sets [(Reg.winWttGen d n, h.get (Reg.winWttGen d n) + 1), (Reg.winWttState d n, 1)]) d n 1
      ((h.get (Reg.winWttGen d n) + 1) % 2 ^ (Reg.winWttGen d n).len) (h.get (Reg.winWttBase d n)) (h.get (Reg.winWttDrain d n)) := by
  obtain ⟨hst, hgen, hbase, hdrain⟩ := (h.set (Reg.winWttGen d n) (h.get (Reg.winWttGen d n) + 1)).set_winWttState_entry d n 1 (by decide)
  exact ⟨hst, hgen.trans (Hub.get_set_same _ _ _), hbase.trans (Hub.get_set_ne _ _ (winWtt_key_ne rfl (by decide : 64 ≠ 16))),
    hdrain.trans (Hub.get_set_ne _ _ (winWtt_key_ne rfl (by decide : 128 ≠ 16)))⟩

section
variable {die : BitVec 1} {w : BitVec 12} {s : State} {k : Hub}

theorem exec_winOpen (hk : (s.wroteBy 0).hub.winOpenAt die.toNat w.toNat = k) :
    exec (.winOpen die w) s = .next { s.wroteBy 0 with hub := k } := by
  rw [← hk]
  rfl

theorem exec_winClose (hk : (s.wroteBy 0).hub.winCloseAt die.toNat w.toNat = k) :
    exec (.winClose die w) s = .next { s.wroteBy 0 with hub := k } := by
  rw [← hk]
  rfl

theorem exec_winFree (hk : (s.wroteBy 0).hub.winFreeAt die.toNat w.toNat = k) :
    exec (.winFree die w) s = .next { s.wroteBy 0 with hub := k } := by
  rw [← hk]
  rfl

end

/-- A closing entry with nothing unanswered is CLOSED. -/
theorem exec_winDrained_done {die : BitVec 1} {w : BitVec 12} {s : State} (hst : s.hub.get (Reg.winWttState die.toNat w.toNat) = 2)
    (hdrain : s.hub.get (Reg.winWttDrain die.toNat w.toNat) = 0) :
    exec (.winDrained die w) s = .next (s.onHub (fun h =>
      (h.set (Reg.winWttState die.toNat w.toNat) 3).linkEvent (h.get (Reg.winWttPartition die.toNat w.toNat)) Reg.lnkEventWinDrained)) := by
  have hexec : exec (.winDrained die w) s = execWinDrained die w s := rfl
  simp only [hexec, execWinDrained, hubStep, State.onHub, hst, hdrain, and_self, if_true]

theorem exec_winDrained_idle {die : BitVec 1} {w : BitVec 12} {s : State}
    (hst : s.hub.get (Reg.winWttState die.toNat w.toNat) ≠ 2 ∨ s.hub.get (Reg.winWttDrain die.toNat w.toNat) ≠ 0) :
    exec (.winDrained die w) s = .next s := by
  have hidle : ¬(s.hub.get (Reg.winWttState die.toNat w.toNat) = 2 ∧ s.hub.get (Reg.winWttDrain die.toNat w.toNat) = 0) := by omega
  have hexec : exec (.winDrained die w) s = execWinDrained die w s := rfl
  rw [hexec, execWinDrained, hubStep, State.onHub]
  simp only [if_neg hidle]

/-- Settles O52, control by control: each writes the entry's state, or marks its error. -/
theorem windowsOpenDrainAndFree : Obligations.WindowsOpenDrainAndFree := by
  unfold Obligations.WindowsOpenDrainAndFree
  intro die w s
  extract_lets d n st lg base p owned there kept entry gen refused
  have hd : d < 2 := die.isLt
  have hn : n < 4096 := w.isLt
  have howned : (s.wroteBy 0).hub.winOwned d n = s.hub.winOwned d n := Hub.winOwned_congr rfl d n
  have hrefuse : refused { s.wroteBy 0 with hub := (s.wroteBy 0).hub.winRefuse d n } := by
    obtain ⟨hentry, hmark⟩ := (s.wroteBy 0).hub.winRefuse_marks hd hn
    exact ⟨⟨rfl, rfl⟩, hentry, hmark⟩
  have hset (v : Nat) (hv : v < 4) : entry { s.wroteBy 0 with hub := (s.wroteBy 0).hub.set (Reg.winWttState d n) v } v gen
      ∧ Claims.SameRegsBut [Reg.winWttState d n] s { s.wroteBy 0 with hub := (s.wroteBy 0).hub.set (Reg.winWttState d n) v } :=
    ⟨(s.wroteBy 0).hub.set_winWttState_entry d n v hv, fun g hg => Hub.get_set_ne _ _ (hg _ (List.mem_singleton_self _))⟩
  refine ⟨fun ho => Hub.winOwned_bounds ho, fun ho => Hub.winOwned_halves ho, fun hr => Hub.winOwned_window hr, ?_, ?_, ?_, ?_, ?_, ?_, ?_, ?_, ?_,
    fun hst => exec_winDrained_idle hst⟩
  · intro hthere hst ho
    refine ⟨_, exec_winOpen (Hub.winOpenAt_owned hthere hst (howned.trans ho)), ⟨rfl, rfl⟩, (s.wroteBy 0).hub.winOpened_entry d n, fun g hg => ?_⟩
    simp only [List.forall_mem_cons] at hg
    exact (Hub.get_set_ne _ _ hg.2.1).trans (Hub.get_set_ne _ _ hg.1)
  · intro hthere hst ho
    exact ⟨_, exec_winOpen (Hub.winOpenAt_unowned hthere hst (fun h => ho (howned.symm.trans h))), ⟨rfl, rfl⟩,
      Hub.winMark_entry hd hn _ _ rfl (Or.inr rfl), Hub.winMark_get_same _ d n _ (winWttOpenErr_inWtt hd hn) rfl, Hub.winMark_event _ d n _ _⟩
  · exact fun hthere hst => ⟨_, exec_winOpen (Hub.winOpenAt_refused hthere hst), hrefuse⟩
  · exact fun hthere hst => ⟨_, exec_winClose (Hub.winCloseAt_open hthere hst), ⟨rfl, rfl⟩, hset 2 (by decide)⟩
  · exact fun hthere hst => ⟨_, exec_winClose (Hub.winCloseAt_refused hthere hst), hrefuse⟩
  · exact fun hthere hst => ⟨_, exec_winFree (Hub.winFreeAt_closed hthere hst), ⟨rfl, rfl⟩, hset 0 (by decide)⟩
  · exact fun hthere hst => ⟨_, exec_winFree (Hub.winFreeAt_refused hthere hst), hrefuse⟩
  · intro hthere
    have hgone : (s.wroteBy 0).hub.dies ≤ die.toNat := Nat.le_of_not_lt hthere
    exact ⟨exec_winOpen (if_pos hgone), exec_winClose (if_pos hgone), exec_winFree (if_pos hgone)⟩
  · intro hst hdrain
    have hwrote (g : Fld) := Hub.linkEvent_get (s.hub.set (Reg.winWttState d n) 3) p Reg.lnkEventWinDrained g
    refine ⟨_, exec_winDrained_done hst hdrain, ⟨rfl, rfl⟩, Hub.winDrained_entry hd hn s.hub p,
      (hwrote _).trans (Hub.event_get_same _ (by decide)), fun g hg => ?_⟩
    simp only [List.forall_mem_cons] at hg
    exact (hwrote g).trans ((Hub.event_get_ne _ hg.2.1).trans (Hub.get_set_ne _ _ hg.1))

end Sys2Proof.Machine
end

section
/-! SUPPORT. A stream beyond the 32768 of a package, whose status is a partition's. -/

namespace Sys2Proof.Machine

open Sys2Proof Claims

/-- The number whose DRF_STREAM_STATUS lies at PRT_STATUS of partition 0: (0xA01008 − 0x640000) / 8. -/
def strayStream : Nat := 0x78201

theorem key_strayStream : (Reg.drfStreamStatusState strayStream).key = (Reg.prtStatusState 0).key := by decide

/-- Partition 0 is ACTIVE; the one stream that is open has the stray number and belongs to it. -/
def strayState : State :=
  State.reset.onHub fun h =>
    { h.sets [(Reg.prtStatusState 0, 2), (Reg.drfStreamStatusPartition strayStream, 0)] with
      drift := { h.drift with streams := [(strayStream, Stream.rst)] } }

theorem partState_strayState : strayState.hub.partState 0 = 2 := by decide +kernel

theorem mem_partStreams_strayState : strayStream ∈ strayState.hub.partStreams 0 := by decide +kernel

theorem resting_strayState : (strayState.hub.stream strayStream).inflight = [] ∧ (strayState.hub.stream strayStream).stop = none := by
  decide +kernel

/-- Its state reads as the partition's. -/
theorem get_strayStream (h : Hub) : h.get (Reg.drfStreamStatusState strayStream) = h.get (Reg.prtStatusState 0) := by
  unfold Hub.get
  rw [key_strayStream]
  rfl

/-- Refutes O44: the statement quantifies over every state and bounds no stream's number. A running stream numbered past the table has its
status where partition 0 has its own, so that a STOP that leaves the partition STOPPING does not leave the stream PAUSED. -/
theorem not_partitionsStartStopResetAndThaw : ¬ Obligations.PartitionsStartStopResetAndThaw := by
  unfold Obligations.PartitionsStartStopResetAndThaw
  intro h
  obtain ⟨-, -, hstop, -⟩ := h ⟨1⟩ 0 strayState 0 (Launch.new ⟨0, 0, 0, 0⟩ 0 0) (by decide)
  obtain ⟨t, -, -, hstopping, -, hpaused⟩ := hstop partState_strayState
  have hstate : strayState.hub.get (Reg.drfStreamStatusState strayStream) = 2 := (get_strayStream _).trans partState_strayState
  have hfour := hpaused strayStream mem_partStreams_strayState resting_strayState (Or.inr hstate)
  rw [get_strayStream] at hfour
  exact absurd (hstopping.symm.trans hfour) (by decide)

end Sys2Proof.Machine
end

section
/-! SUPPORT. A path whose next PSN is wider than the 24 bits of a packet's. -/

namespace Sys2Proof.Machine

open Sys2Proof Claims

/-- A path of link 0, open at both ends, that expects PSN 2^25. -/
def widePath : LPath := { LPath.fresh 0 0 0 false (some 0) 0 with isOpen := true, rxPsn := 2 ^ 25 }

/-- Link 0 is UP and belongs to partition 0, which is ACTIVE; the path is the only one. -/
def widePathState : State :=
  State.reset.onHub fun h =>
    { h.sets [(Reg.prtCfgExist 0, 1), (Reg.prtStatusState 0, 2), (Reg.prtLinksLoMap 0, 1), (Reg.lnkStatusState 0, 2)] with
      links := { h.links with paths := [widePath] } }

/-- A packet of PSN 2^24 − 1: taken modulo 2^24, the one before the PSN that the path expects. -/
def lastPkt : LinkPkt where
  link := 0
  ip := 0
  v4 := false
  check := 0
  ce := false
  flags := 0
  srcPath := 0
  dstPath := 0
  psn := BitVec.ofNat 24 (2 ^ 24 - 1)
  data := []

/-- The extension of a request of no length. -/
def emptyExt : ReqExt := ⟨0, 0, 0, 0, 0, 0⟩

theorem linkUp_widePathState :
    widePathState.hub.get (Reg.lnkStatusState 0) = 2 ∧ widePathState.hub.linkOwner 0 = 0 ∧ widePathState.hub.partState 0 = 2 := by
  decide +kernel

theorem rxPath_widePathState : widePathState.hub.rxPath lastPkt = some widePath := by decide +kernel

/-- The model's difference of the two PSNs stops at 0, so that the packet is not taken for a duplicate but kept for reordering. -/
theorem path_transportWrite_widePathState :
    ((rxFrame lastPkt (·.rxReq lastPkt (.mem 1 lastPkt emptyExt)) widePathState).hub.path 0 0).map (·.reorder) =
      some [.mem 1 lastPkt emptyExt] := by
  decide +kernel

/-- Refutes O50: the statement quantifies over every state and takes the PSN before the next one modulo 2^24. On a path whose next PSN is 2^25,
wider than a packet's, it calls PSN 2^24 − 1 a duplicate, after which the path holds nothing for reordering; the model keeps the request. -/
theorem not_packetsAreCheckedAppliedAndAnswered : ¬ Obligations.PacketsAreCheckedAppliedAndAnswered := by
  unfold Obligations.PacketsAreCheckedAppliedAndAnswered
  intro h
  obtain ⟨-, -, -, -, -, -, -, -, -, -, -, -, -, -, -, -, -, hdup, -⟩ := h lastPkt emptyExt 0 0 0 widePathState widePath 1
    ⟨0, 0, 0, 0, 0, 0, 0, [], false, .host 0, 0, none, 0, 0, false⟩ 0 0 ⟨0, 0, none, none, false, [], false, false, false, [], false⟩ []
  obtain ⟨hup, howner, hactive⟩ := linkUp_widePathState
  have hgood : (widePathState.hub.get (Reg.lnkStatusState 0) = 2 ∧ widePathState.hub.linkOwner 0 ≠ 31) ∧
      widePathState.hub.partState (widePathState.hub.linkOwner 0) ≠ 4 := by
    rw [howner, hactive]
    exact ⟨⟨hup, by decide⟩, by decide⟩
  obtain ⟨t, hexec, -, -, hpath⟩ := hdup rfl ⟨⟨hgood, rfl⟩, rxPath_widePathState, rfl⟩ rfl rfl rfl
  have ht : rxFrame lastPkt (·.rxReq lastPkt (.mem 1 lastPkt emptyExt)) widePathState = t := Host.Outcome.next.inj hexec
  have hkept := path_transportWrite_widePathState
  rw [ht] at hkept
  replace hkept := (congrArg (Option.map (·.reorder)) hpath).symm.trans hkept
  exact absurd hkept (by decide)

end Sys2Proof.Machine
end

section
/-! SUPPORT. A group whose rank is wider than LAST_ORIGIN. -/

namespace Sys2Proof.Machine

open Sys2Proof Claims

/-- A BARRIER (OP 4) that posts no completion record. -/
def barrierCmd : QCmd := ⟨0, 64, 0, BitVec.ofNat 512 (4 * 2 ^ (8 * 0x11))⟩

/-- It runs in its first step, and nothing of it has been sent or received. -/
def wideRankRun : ColRun := ⟨barrierCmd, 1, 1, [], [], 0, false, [], false, false⟩

/-- A group of two members, of which this one has rank 4096; it holds a credit. -/
def wideRankGroup : ColGroup := ⟨0, 2, 4096, 0, 0, 0, 0, [], [], some wideRankRun, 1, [], false, []⟩

/-- Group 0 is that group; no link is UP. -/
def wideRankState : State := State.reset.onHub fun h => { h with cols := [(0, wideRankGroup)] }

/-- LAST_ORIGIN has 12 bits, of which 4096 leaves none: an abort of the group's own shows rank 0. -/
theorem lastOrigin_colAbort_wideRankState :
    (wideRankState.hub.colAbort 0 0x44).get (Reg.colGroupStatusLastOrigin 0) = 0
      ∧ (wideRankState.hub.colAbort 0 0x0A).get (Reg.colGroupStatusLastOrigin 0) = 0 := by
  decide +kernel

section
variable {g : BitVec 6} {s : State} {c : ColGroup} {r : ColRun} (hg : s.hub.group g.toNat = some c) (hr : c.run = some r)
include hg hr

/-- A deadline of a step still to do aborts the collective (R407). -/
theorem exec_stepDeadline_late (hstep : r.step ≤ colSteps c.members r.cmd) :
    exec (.stepDeadline g) s = .next (s.onHub (·.colAbort g.toNat 0x44)) := by
  have hexec : exec (.stepDeadline g) s = execStepDeadline g s := rfl
  rw [hexec, execStepDeadline, hubStep, State.onHub]
  simp only [hg, hr, if_pos hstep]
  rfl

/-- With a chunk to send and a credit but no link to the neighbour, CHUNK_SEND aborts the collective. -/
theorem exec_chunkSend_cut (hcredit : c.credits ≠ 0) (hstuck : s.hub.colStuck g.toNat = false) (hstage : c.nextStage r ≠ none)
    (hlink : s.hub.chunkLink c.part c.gkey c.down 0 = none) : exec (.chunkSend g) s = .next (s.onHub (·.colAbort g.toNat 0x0A)) := by
  have hexec : exec (.chunkSend g) s = execChunkSend g s := rfl
  rw [hexec, execChunkSend]
  simp [hg, hr, hcredit, hstuck, hstage, hlink]

end

/-- The barrier takes two steps. -/
theorem step_wideRankRun : wideRankRun.step ≤ colSteps wideRankGroup.members wideRankRun.cmd := by decide +kernel

theorem group_wideRankState : wideRankState.hub.group 0 = some wideRankGroup := rfl

/-- Refutes O53: the statement quantifies over every state and bounds no group's rank. A step deadline missed by a member of rank 4096 leaves
LAST_ORIGIN, a field of 12 bits, at 0 and not at the rank. -/
theorem not_groupsArePostedToAndEnded : ¬ Obligations.GroupsArePostedToAndEnded := by
  unfold Obligations.GroupsArePostedToAndEnded
  intro h
  obtain ⟨-, -, -, -, -, -, -, -, -, -, -, -, -, -, -, -, -, -, -, hmissed, -⟩ :=
    h barrierCmd 0 wideRankState 0 0 wideRankGroup wideRankRun barrierCmd [] (LPath.fresh 0 0 0 false none 0)
  obtain ⟨t, hexec, ⟨-, -, -, horigin, -⟩, -⟩ := hmissed rfl rfl step_wideRankRun
  rw [← Host.Outcome.next.inj ((exec_stepDeadline_late group_wideRankState rfl step_wideRankRun).symm.trans hexec)] at horigin
  exact absurd (lastOrigin_colAbort_wideRankState.1.symm.trans horigin) (by decide)

theorem chunkSend_ready_wideRankState :
    wideRankState.hub.colStuck 0 = false ∧ wideRankGroup.nextStage wideRankRun ≠ none
      ∧ (wideRankState.hub.linksOf 0).filter (fun l => wideRankState.hub.linkUpNow l) = []
      ∧ wideRankState.hub.chunkLink 0 0 wideRankGroup.down 0 = none := by
  decide +kernel

/-- Refutes O54: the statement quantifies over every state and bounds no group's rank. Where no link is UP, CHUNK_SEND of a member of rank 4096
leaves LAST_ORIGIN, a field of 12 bits, at 0 and not at the rank. -/
theorem not_collectivePacketsActOnTheirGroup : ¬ Obligations.CollectivePacketsActOnTheirGroup := by
  unfold Obligations.CollectivePacketsActOnTheirGroup
  intro h
  obtain ⟨hstuck, hstage, hlinks, hlink⟩ := chunkSend_ready_wideRankState
  obtain ⟨-, -, hcut, -⟩ := h ⟨0, 0, false, 0, false, 0, 0, 0, 0, []⟩ ⟨0, 0, 0, 0, 0, 0, 0, 0⟩ 0 wideRankState wideRankGroup wideRankRun
    (LPath.fresh 0 0 0 false none 0) ⟨0, 0, 0, 0, [], [], false⟩ 0
  have hfree : ¬ wideRankState.hub.colStuck 0 = true := by simp [hstuck]
  obtain ⟨t, hexec, -, -, -, horigin, -⟩ := hcut ⟨rfl, rfl⟩ (by decide) hfree (Or.inl hstage) hlinks
  rw [← Host.Outcome.next.inj ((exec_chunkSend_cut group_wideRankState rfl (by decide) hstuck hstage hlink).symm.trans hexec)] at horigin
  exact absurd (lastOrigin_colAbort_wideRankState.2.symm.trans horigin) (by decide)

end Sys2Proof.Machine
end

section
/-! SUPPORT. A READY of the security core that is wider than its bit. -/

namespace Sys2Proof.Machine

open Sys2Proof Claims

/-- SEC_STATUS.READY holds 2. -/
def wideReadyState : State :=
  State.reset.onHub fun h => { h with regs := tset Reg.secStatusReady.rst h.regs Reg.secStatusReady.key 2 }

theorem ready_wideReadyState : wideReadyState.hub.get Reg.secStatusReady = 2 := by decide +kernel

theorem idle_wideReadyState : wideReadyState.hub.boot.activating = false ∧ wideReadyState.hub.life ≠ 3 := by decide +kernel

/-- GET_VERSION over MCTP, in no session. -/
def versionReq : SpdmReq := ⟨1, 0, 0x84, 0, 0, 0, true⟩

/-- The model takes a READY that is not 0 for set: the request is answered. -/
theorem exec_spdmRequest_wideReadyState :
    exec (.spdmRequest versionReq) wideReadyState = .next (wideReadyState.onHub (·.send (.spdm 0x04 0 0x13))) := by
  obtain ⟨hidle, hlife⟩ := idle_wideReadyState
  have hup : wideReadyState.hub.spdmUp versionReq.transport.toNat = true := by
    simp [Hub.spdmUp, Hub.on, ready_wideReadyState, hlife, versionReq]
  have hexec : exec (.spdmRequest versionReq) wideReadyState = execSpdmRequest versionReq wideReadyState := rfl
  rw [hexec, execSpdmRequest, hubStep, State.onHub, hidle, if_neg Bool.false_ne_true, if_pos hup]
  rfl

/-- Refutes O55: the statement quantifies over every state and calls the responder up where SEC_STATUS.READY reads 1. Where it reads 2, wider than
its bit, the statement has GET_VERSION dropped; the model answers it. -/
theorem not_sessionsKeysAndInterfaces : ¬ Obligations.SessionsKeysAndInterfaces := by
  unfold Obligations.SessionsKeysAndInterfaces
  intro h
  obtain ⟨-, hdown, -⟩ := h versionReq ⟨0, 0, false, false, 0, 0⟩ ⟨0, 0, 0⟩ wideReadyState 0 0 0
  have hactive : ¬ wideReadyState.hub.boot.activating = true := by simp [idle_wideReadyState.1]
  have hready : wideReadyState.hub.get Reg.secStatusReady ≠ 1 := by simp [ready_wideReadyState]
  have hsame := Host.Outcome.next.inj (exec_spdmRequest_wideReadyState.symm.trans (hdown hactive fun htalks => hready htalks.1.2.1))
  have hlonger : wideReadyState.hub.sent.length + 1 = wideReadyState.hub.sent.length := congrArg (fun t : State => t.hub.sent.length) hsame
  omega

end Sys2Proof.Machine
end

section
/-! SUPPORT. What CAN messages, the watch, a count and an answer of the Almanac leave of the hub. -/

namespace Sys2Proof.Machine

open Sys2Proof Claims

theorem leNat_leBytes (n x : Nat) : leNat (leBytes n x) = x % 256 ^ n := by
  induction n generalizing x with
  | zero => simp [leBytes, leNat, Nat.mod_one]
  | succ n ih =>
    rw [leBytes, leNat, ih, BitVec.toNat_ofNat, pow_succ' 256 n, Nat.mod_mul (a := 256) (b := 256 ^ n)]

-- CAN

/-- The message goes out on CAN. -/
def Sent.onCan : Sent → Bool
  | .can .. => true
  | .emcy .. => true
  | _ => false

/-- From `h` to `k` messages went out on CAN, and no register, entry, lock, count, NMT state or image changed. -/
structure Hub.CanOnly (h k : Hub) : Prop where
  regs : k.regs = h.regs
  od : k.alm.od = h.alm.od
  locks : k.alm.locks = h.alm.locks
  nmt : k.alm.nmt = h.alm.nmt
  counts : k.alm.counts = h.alm.counts
  syncs : k.alm.syncs = h.alm.syncs
  rpdoWait : k.alm.rpdoWait = h.alm.rpdoWait
  flash : k.flash = h.flash
  boot : k.boot = h.boot
  sent : ∃ l, k.sent = l ++ h.sent ∧ ∀ m ∈ l, m.onCan = true

theorem Hub.CanOnly.rfl {h : Hub} : h.CanOnly h :=
  ⟨.refl _, .refl _, .refl _, .refl _, .refl _, .refl _, .refl _, .refl _, .refl _, [], .refl _, fun _ hm => absurd hm List.not_mem_nil⟩

theorem Hub.CanOnly.trans {h k l : Hub} (a : h.CanOnly k) (b : k.CanOnly l) : h.CanOnly l := by
  obtain ⟨p, hp, hpc⟩ := a.sent
  obtain ⟨q, hq, hqc⟩ := b.sent
  exact ⟨b.regs.trans a.regs, b.od.trans a.od, b.locks.trans a.locks, b.nmt.trans a.nmt, b.counts.trans a.counts, b.syncs.trans a.syncs,
    b.rpdoWait.trans a.rpdoWait, b.flash.trans a.flash, b.boot.trans a.boot, q ++ p, by rw [hq, hp, List.append_assoc],
    fun m hm => (List.mem_append.1 hm).elim (hqc m) (hpc m)⟩

theorem Hub.CanOnly.mem_sent {h k : Hub} (a : h.CanOnly k) {m : Sent} (hm : m ∈ h.sent) : m ∈ k.sent := by
  obtain ⟨l, hl, -⟩ := a.sent
  rw [hl]
  exact List.mem_append_right l hm

theorem Hub.CanOnly.get {h k : Hub} (a : h.CanOnly k) (f : Fld) : k.get f = h.get f := Hub.get_of_regs_eq f a.regs

theorem Hub.CanOnly.odEntry {h k : Hub} (a : h.CanOnly k) (ix sub : Nat) : k.od ix sub = h.od ix sub := by
  rw [Hub.od, Hub.od, a.od, a.boot]

theorem Hub.send_canOnly (h : Hub) {m : Sent} (hm : m.onCan = true) : h.CanOnly (h.send m) :=
  ⟨rfl, rfl, rfl, rfl, rfl, rfl, rfl, rfl, rfl, [m], rfl, fun _ hx => List.mem_singleton.1 hx ▸ hm⟩

theorem Hub.canSend_canOnly (h : Hub) (id n v : Nat) : h.CanOnly (h.canSend id n v) := by
  unfold Hub.canSend
  split_ifs
  exacts [.rfl, h.send_canOnly rfl]

theorem Hub.emcy_canOnly (h : Hub) (code mor : Nat) : h.CanOnly (h.emcy code mor) := by
  unfold Hub.emcy
  split_ifs
  · exact .rfl
  · exact ⟨rfl, rfl, rfl, rfl, rfl, rfl, rfl, rfl, rfl, [], rfl, fun _ hm => absurd hm List.not_mem_nil⟩
  · exact ⟨rfl, rfl, rfl, rfl, rfl, rfl, rfl, rfl, rfl, [.emcy code mor], rfl, fun _ hm => List.mem_singleton.1 hm ▸ rfl⟩

theorem Hub.tpdoSend_canOnly (h : Hub) (n : Nat) : h.CanOnly (h.tpdoSend n) := by
  unfold Hub.tpdoSend
  extract_lets l a k
  have hk : h.CanOnly k := ⟨rfl, rfl, rfl, rfl, rfl, rfl, rfl, rfl, rfl, [], rfl, fun _ hm => absurd hm List.not_mem_nil⟩
  exact hk.trans (k.canSend_canOnly _ _ _)

theorem Hub.tpdoChange_canOnly (n : Nat) (h : Hub) : h.CanOnly (Hub.tpdoChange n h) := by
  unfold Hub.tpdoChange
  split_ifs
  · exact ⟨rfl, rfl, rfl, rfl, rfl, rfl, rfl, rfl, rfl, [], rfl, fun _ hm => absurd hm List.not_mem_nil⟩
  · exact h.tpdoSend_canOnly n
  · exact .rfl

/-- The watch tells CAN and changes nothing else that the Almanac shows. -/
theorem Hub.watch_canOnly (h h0 : Hub) : h.CanOnly (h.watch h0) := by
  unfold Hub.watch
  extract_lets k
  have hk : h.CanOnly k := by
    unfold k
    split_ifs
    exacts [overList_rel (fun _ => .rfl) .trans Hub.tpdoChange_canOnly _ h, .rfl]
  clear_value k
  split_ifs
  exacts [hk.trans (k.emcy_canOnly 0 0), hk]

/-- CAN carries no answers of the Almanac. -/
theorem answers_of_canOnly {s t : State} (a : s.hub.CanOnly t.hub) : answers t = answers s := by
  obtain ⟨l, hl, hcan⟩ := a.sent
  unfold answers
  rw [hl, List.filter_append, List.append_left_eq_self, List.filter_eq_nil_iff]
  intro m hm
  have hm' := hcan m hm
  cases m with
  | can | emcy => exact Bool.false_ne_true
  | _ => exact absurd hm' Bool.false_ne_true

-- Counts

/-- The hub with other counts in 0x2B00. -/
def Hub.withCounts (h : Hub) (n : Tab Nat) : Hub := { h with alm := { h.alm with counts := n } }

theorem Hub.almCount_eq (h : Hub) (sub : Nat) : h.almCount sub = h.withCounts (tset 0 h.alm.counts sub (wrapAdd 64 (tget 0 h.alm.counts sub) 1)) := rfl

/-- The count of 0x2B00 that a request on an interface advances. -/
def reqCount (via : Nat) : Nat := if via = 5 then 2 else if via = 2 then 7 else 6

theorem Hub.countReq_eq (h : Hub) (via : Nat) : h.countReq via = h.almCount (reqCount via) := by
  unfold Hub.countReq reqCount
  split_ifs <;> rfl

/-- A count advances by one modulo 2^64, -/
theorem Hub.almCount_same (h : Hub) (k : Nat) : tget 0 (h.almCount k).alm.counts k = (tget 0 h.alm.counts k + 1) % 2 ^ 64 := tget_tset_same _ _ _ _

/-- and leaves the others. -/
theorem Hub.almCount_ne (h : Hub) {k j : Nat} (hj : j ≠ k) : tget 0 (h.almCount k).alm.counts j = tget 0 h.alm.counts j := tget_tset_ne _ _ _ _ hj

/-- What refuses a value does not depend on the counts. -/
theorem State.odCheck_almCount (s : State) (k via ix sub v : Nat) : (s.onHub (·.almCount k)).odCheck via ix sub v = s.odCheck via ix sub v := rfl

-- Answers

/-- One answer went out, and nothing of the Almanac, no register and no image changed. -/
structure Hub.Answered (via st v : Nat) (h k : Hub) : Prop where
  alm : k.alm = h.alm
  regs : k.regs = h.regs
  flash : k.flash = h.flash
  boot : k.boot = h.boot
  sent : k.sent = .almanac via st v :: h.sent

theorem Hub.answer_ok (h : Hub) (via : Nat) (l : List Byte) : h.Answered via 0 (leNat l) (h.answer via .ok l) := ⟨rfl, rfl, rfl, rfl, rfl⟩

/-- A refusal with an abort code answers its status and that code. -/
theorem Hub.answer_refused (h : Hub) (via st ab : Nat) (l : List Byte) (hst : st ≠ 0) :
    h.Answered via st ab (h.answer via ⟨st, some ab⟩ l) := by
  have hne : ¬(⟨st, some ab⟩ : AlmAns) = .ok := fun he => hst (congrArg AlmAns.st he)
  unfold Hub.answer
  rw [if_neg hne]
  exact ⟨rfl, rfl, rfl, rfl, rfl⟩

/-- One without answers its status and some code. -/
theorem Hub.answer_free (h : Hub) (via st : Nat) (l : List Byte) : ∃ v, h.Answered via st v (h.answer via ⟨st, none⟩ l) := by
  have hne : ¬(⟨st, none⟩ : AlmAns) = .ok := fun he => Option.noConfusion rfl (heq_of_eq (congrArg AlmAns.abort he))
  unfold Hub.answer
  rw [if_neg hne]
  exact ⟨_, rfl, rfl, rfl, rfl, rfl⟩

end Sys2Proof.Machine
end

section
/-! SUPPORT. Requests of the Almanac: what refuses them, what they answer, and what they leave. -/

namespace Sys2Proof.Machine

open Sys2Proof Claims

-- A write judged

section
variable {s : State} {via ix sub : Nat} {l : List Byte}

theorem State.odWrite_noIndex (hlook : odLook ix sub = .noIndex) : s.odWrite via ix sub l = (.noIndex, s) := by
  unfold State.odWrite
  rw [hlook]

theorem State.odWrite_noSub (hlook : odLook ix sub = .noSub) : s.odWrite via ix sub l = (.noSub, s) := by
  unfold State.odWrite
  rw [hlook]

section
variable {o : OdObj} (hlook : odLook ix sub = .found o)
include hlook

theorem State.odWrite_ro (hro : o.acc = .ro) : s.odWrite via ix sub l = (.wrRo, s) := by
  unfold State.odWrite
  rw [hlook]
  exact if_pos hro

variable (hacc : o.acc ≠ .ro)
include hacc

theorem State.odWrite_len (hlen : odLenOk ix l.length o = false) : s.odWrite via ix sub l = (.len, s) := by
  simp [State.odWrite, hlook, hacc, hlen]

variable (hlen : odLenOk ix l.length o = true)
include hlen

theorem State.odWrite_range (hcheck : s.odCheck via ix sub (leNat l) = .range) : s.odWrite via ix sub l = (.range, s) := by
  have hlocked : AlmAns.range ≠ .locked := by decide
  have hok : AlmAns.range ≠ .ok := by decide
  simp [State.odWrite, hlook, hacc, hlen, hcheck, hlocked, hok]

variable (hcheck : s.odCheck via ix sub (leNat l) = .ok)
include hcheck

theorem State.odWrite_locked (hlock : s.hub.lockOf ix ≠ 0 ∧ s.hub.lockOf ix ≠ via) :
    s.odWrite via ix sub l = (.locked, s.onHub (·.almCount 8)) := by
  have hlocked : AlmAns.ok ≠ .locked := by decide
  simp only [State.odWrite, hlook, if_neg hacc, hlen, hcheck, if_neg hlocked, if_pos hlock, ne_eq, not_true_eq_false, if_false, Bool.not_true,
    Bool.false_eq_true]
  rfl

variable (hlock : s.hub.lockOf ix = 0 ∨ s.hub.lockOf ix = via)
include hlock

theorem State.odWrite_state (hwrites : (s.hub.odLevel via).writes ix = false) : s.odWrite via ix sub l = (.state, s) := by
  have hlocked : AlmAns.ok ≠ .locked := by decide
  have hfree : ¬(s.hub.lockOf ix ≠ 0 ∧ s.hub.lockOf ix ≠ via) := by omega
  simp only [State.odWrite, hlook, if_neg hacc, hlen, hcheck, if_neg hlocked, if_neg hfree, hwrites, ne_eq, not_true_eq_false, if_false,
    Bool.not_true, Bool.not_false, Bool.false_eq_true, if_true]

theorem State.odWrite_effect (hwrites : (s.hub.odLevel via).writes ix = true) : s.odWrite via ix sub l = s.odEffect via ix sub l := by
  have hlocked : AlmAns.ok ≠ .locked := by decide
  have hfree : ¬(s.hub.lockOf ix ≠ 0 ∧ s.hub.lockOf ix ≠ via) := by omega
  simp only [State.odWrite, hlook, if_neg hacc, hlen, hcheck, if_neg hlocked, if_neg hfree, hwrites, ne_eq, not_true_eq_false, if_false,
    Bool.not_true, Bool.false_eq_true]

end
end

-- A read judged

section
variable {s : State} {via ix sub : Nat} {view : Bool}

theorem State.odRead_noIndex (hlook : odLook ix sub = .noIndex) : s.odRead via view ix sub = (.noIndex, [], s) := by
  unfold State.odRead
  rw [hlook]

theorem State.odRead_noSub (hlook : odLook ix sub = .noSub) : s.odRead via view ix sub = (.noSub, [], s) := by
  unfold State.odRead
  rw [hlook]

variable {o : OdObj} (hlook : odLook ix sub = .found o)
include hlook

theorem State.odRead_wo (hwo : o.acc = .wo) : s.odRead via view ix sub = (.rdWo, [], s) := by
  unfold State.odRead
  rw [hlook]
  exact if_pos hwo

theorem State.odRead_state (hacc : o.acc ≠ .wo) (hreads : (s.hub.odLevel via).reads ix = false) :
    s.odRead via view ix sub = (.state, [], s) := by
  simp [State.odRead, hlook, hacc, hreads]

theorem State.odRead_value (hacc : o.acc ≠ .wo) (hreads : (s.hub.odLevel via).reads ix = true) (hlog : ix ≠ 0x2A01) :
    s.odRead via view ix sub = (.ok, leBytes (o.size.getD 0) (s.odValue via view ix sub), s) := by
  simp [State.odRead, hlook, hacc, hreads, hlog]

end

-- What a request that is served leaves

/-- The Almanac's entries, locks and counts, the registers and the images are as before. -/
structure Hub.SameShown (h k : Hub) : Prop where
  regs : k.regs = h.regs
  od : k.alm.od = h.alm.od
  locks : k.alm.locks = h.alm.locks
  counts : k.alm.counts = h.alm.counts
  flash : k.flash = h.flash
  boot : k.boot = h.boot

theorem Hub.CanOnly.sameShown {h k : Hub} (a : h.CanOnly k) : h.SameShown k := ⟨a.regs, a.od, a.locks, a.counts, a.flash, a.boot⟩

theorem Hub.Answered.sameShown {via st v : Nat} {h k : Hub} (a : h.Answered via st v k) : h.SameShown k :=
  ⟨a.regs, congrArg Alm.od a.alm, congrArg Alm.locks a.alm, congrArg Alm.counts a.alm, a.flash, a.boot⟩

theorem Hub.SameShown.trans {h k l : Hub} (a : h.SameShown k) (b : k.SameShown l) : h.SameShown l :=
  ⟨b.regs.trans a.regs, b.od.trans a.od, b.locks.trans a.locks, b.counts.trans a.counts, b.flash.trans a.flash, b.boot.trans a.boot⟩

theorem Hub.SameShown.entry {h k : Hub} (a : h.SameShown k) (ix sub : Nat) : k.od ix sub = h.od ix sub := by
  rw [Hub.od, Hub.od, a.od, a.boot]

/-- With other counts alone, a refused access has had no effect. -/
theorem Hub.SameShown.untouched {s t : State} {n : Tab Nat} (a : (s.hub.withCounts n).SameShown t.hub) : Untouched s t :=
  ⟨a.regs, a.od, a.locks, a.flash, a.boot⟩

theorem answers_of_sent {s t : State} {via st v : Nat} (h : t.hub.sent = .almanac via st v :: s.hub.sent) :
    answers t = .almanac via st v :: answers s := by
  unfold answers
  rw [h]
  rfl

theorem Hub.countAbort_sent (h : Hub) (via : Nat) (a : AlmAns) : (h.countAbort via a).sent = h.sent := by
  unfold Hub.countAbort
  split_ifs <;> rfl

theorem Hub.countAbort_of_ne (h : Hub) {via : Nat} (hvia : via ≠ 5) (a : AlmAns) : h.countAbort via a = h := if_neg fun hc => hvia hc.1

theorem Hub.countAbort_ok (h : Hub) (via : Nat) : h.countAbort via .ok = h := if_neg fun hc => hc.2 rfl

theorem Hub.countAbort_usdo (h : Hub) {a : AlmAns} (ha : a ≠ .ok) : h.countAbort 5 a = h.almCount 3 := if_pos ⟨rfl, ha⟩

section
variable {s u : State} {via ix sub st v : Nat}

theorem State.odServeWrite_silent (l : List Byte) (hs : s.hub.odServed via = false) : s.odServeWrite via ix sub l = s := by
  simp [State.odServeWrite, hs]

theorem State.odServeRead_silent (view : Bool) (hs : s.hub.odServed via = false) : s.odServeRead via view ix sub = s := by
  simp [State.odServeRead, hs]

variable (hs : s.hub.odServed via = true) {a : AlmAns}
include hs

/-- A write that is served tells its answer, and leaves what its judgement left. -/
theorem State.odServeWrite_told {l : List Byte} (hw : (s.onHub (·.almCount (reqCount via))).odWrite via ix sub l = (a, u))
    (hmem : u.mem = s.mem) (hpending : u.pending = s.pending) (hsent : u.hub.sent = s.hub.sent)
    (hans : (u.hub.countAbort via a).Answered via st v ((u.hub.countAbort via a).answer via a [])) :
    Told via st v s (s.odServeWrite via ix sub l) ∧ (u.hub.countAbort via a).SameShown (s.odServeWrite via ix sub l).hub := by
  have ht : s.odServeWrite via ix sub l = (u.onHub (fun h => (h.countAbort via a).answer via a [])).watch s := by
    simp [State.odServeWrite, hs, Hub.countReq_eq, hw]
  have hcan : ((u.hub.countAbort via a).answer via a []).CanOnly (s.odServeWrite via ix sub l).hub := by
    rw [ht]
    exact Hub.watch_canOnly _ _
  have htold : answers (u.onHub (fun h => (h.countAbort via a).answer via a [])) = .almanac via st v :: answers s :=
    answers_of_sent (hans.sent.trans (congrArg _ ((Hub.countAbort_sent _ _ _).trans hsent)))
  refine ⟨⟨?_, ?_, ?_⟩, hans.sameShown.trans hcan.sameShown⟩
  · rw [ht, ← htold]
    exact answers_of_canOnly (Hub.watch_canOnly _ _)
  · rw [ht]
    exact hmem
  · rw [ht]
    exact hpending

/-- A read that is served tells its answer, and leaves what its judgement left. -/
theorem State.odServeRead_told {view : Bool} {l : List Byte}
    (hr : (s.onHub (·.almCount (reqCount via))).odRead via view ix sub = (a, l, u))
    (hmem : u.mem = s.mem) (hpending : u.pending = s.pending) (hsent : u.hub.sent = s.hub.sent)
    (hans : (u.hub.countAbort via a).Answered via st v ((u.hub.countAbort via a).answer via a l)) :
    Told via st v s (s.odServeRead via view ix sub) ∧ (u.hub.countAbort via a).SameShown (s.odServeRead via view ix sub).hub := by
  have ht : s.odServeRead via view ix sub = u.onHub (fun h => (h.countAbort via a).answer via a l) := by
    simp [State.odServeRead, hs, Hub.countReq_eq, hr]
  rw [ht]
  exact ⟨⟨answers_of_sent (hans.sent.trans (congrArg _ ((Hub.countAbort_sent _ _ _).trans hsent))), hmem, hpending⟩, hans.sameShown⟩

end

-- Requests of the mailbox and of MCTP

/-- A request on such an interface refused: told, without effect, counted. -/
def Refused (c st ab : Nat) (s t : State) : Prop :=
  Told c st ab s t ∧ Untouched s t ∧ count t (if c = 2 then 7 else 6) = (count s (if c = 2 then 7 else 6) + 1) % 2 ^ 64

section
variable {s : State} {c ix sub : Nat} {l : List Byte} (hc : c = 2 ∨ c = 3 ∨ c = 4) (hs : s.hub.odServed c = true)
include hc

theorem reqCount_of_request : reqCount c = if c = 2 then 7 else 6 := if_neg (by omega)

/-- The counts after a request alone. -/
theorem count_of_counts {t : State} (hcounts : t.hub.alm.counts = (s.hub.almCount (reqCount c)).alm.counts) :
    count t (if c = 2 then 7 else 6) = (count s (if c = 2 then 7 else 6) + 1) % 2 ^ 64 := by
  rw [count, hcounts, reqCount_of_request hc, Hub.almCount_same]
  rfl

include hs

/-- A refused write. -/
theorem refused_odServeWrite {st ab : Nat} (hst : st ≠ 0)
    (hw : (s.onHub (·.almCount (reqCount c))).odWrite c ix sub l = (⟨st, some ab⟩, s.onHub (·.almCount (reqCount c)))) :
    Refused c st ab s (s.odServeWrite c ix sub l) := by
  have hne : c ≠ 5 := by omega
  obtain ⟨htold, hsame⟩ := State.odServeWrite_told hs hw rfl rfl rfl (Hub.answer_refused _ _ _ _ _ hst)
  rw [Hub.countAbort_of_ne _ hne] at hsame
  exact ⟨htold, hsame.untouched, count_of_counts hc hsame.counts⟩

/-- A refused read. -/
theorem refused_odServeRead {view : Bool} {st ab : Nat} (hst : st ≠ 0)
    (hr : (s.onHub (·.almCount (reqCount c))).odRead c view ix sub = (⟨st, some ab⟩, [], s.onHub (·.almCount (reqCount c)))) :
    Refused c st ab s (s.odServeRead c view ix sub) := by
  have hne : c ≠ 5 := by omega
  obtain ⟨htold, hsame⟩ := State.odServeRead_told hs hr rfl rfl rfl (Hub.answer_refused _ _ _ _ _ hst)
  rw [Hub.countAbort_of_ne _ hne] at hsame
  exact ⟨htold, hsame.untouched, count_of_counts hc hsame.counts⟩

/-- A write refused for a lock is counted as such too. -/
theorem refused_odServeWrite_locked
    (hw : (s.onHub (·.almCount (reqCount c))).odWrite c ix sub l = (.locked, (s.onHub (·.almCount (reqCount c))).onHub (·.almCount 8))) :
    Refused c 0x04 0x08000021 s (s.odServeWrite c ix sub l) ∧ count (s.odServeWrite c ix sub l) 8 = (count s 8 + 1) % 2 ^ 64 := by
  have hne : c ≠ 5 := by omega
  have hreq := reqCount_of_request hc
  obtain ⟨htold, hsame⟩ := State.odServeWrite_told hs hw rfl rfl rfl (Hub.answer_refused _ _ _ _ _ (by decide))
  rw [Hub.countAbort_of_ne _ hne] at hsame
  have hcount (k : Nat) : count (s.odServeWrite c ix sub l) k = tget 0 ((s.hub.almCount (reqCount c)).almCount 8).alm.counts k := by
    rw [count, hsame.counts]
    rfl
  refine ⟨⟨htold, hsame.untouched, ?_⟩, ?_⟩
  · rw [hcount, ← hreq, Hub.almCount_ne _ (by rw [hreq]; split_ifs <;> decide), Hub.almCount_same]
    rfl
  · rw [hcount, Hub.almCount_same, Hub.almCount_ne _ (by rw [hreq]; split_ifs <;> decide)]
    rfl

end

end Sys2Proof.Machine
end

section
/-! SUPPORT. The Almanac's lock table and USDO, and what every request is answered. -/

namespace Sys2Proof.Machine

open Sys2Proof Claims

/-- A write that takes effect. -/
theorem State.odServeWrite_done {s u : State} {via ix sub : Nat} {l : List Byte} (hs : s.hub.odServed via = true)
    (hw : (s.onHub (·.almCount (reqCount via))).odWrite via ix sub l = (.ok, u)) (hmem : u.mem = s.mem) (hpending : u.pending = s.pending)
    (hsent : u.hub.sent = s.hub.sent) :
    Told via 0 0 s (s.odServeWrite via ix sub l) ∧ u.hub.SameShown (s.odServeWrite via ix sub l).hub := by
  have h := State.odServeWrite_told hs hw hmem hpending hsent (Hub.answer_ok _ _ [])
  rwa [Hub.countAbort_ok] at h

/-- A read that gives its value. -/
theorem State.odServeRead_done {s : State} {via ix sub : Nat} {view : Bool} {l : List Byte} (hs : s.hub.odServed via = true)
    (hr : (s.onHub (·.almCount (reqCount via))).odRead via view ix sub = (.ok, l, s.onHub (·.almCount (reqCount via)))) :
    Told via 0 (leNat l) s (s.odServeRead via view ix sub)
      ∧ (s.hub.almCount (reqCount via)).SameShown (s.odServeRead via view ix sub).hub := by
  have h := State.odServeRead_told hs hr rfl rfl rfl (Hub.answer_ok _ _ l)
  rwa [Hub.countAbort_ok] at h

-- The lock table (R446)

theorem leNat_leBytes_two {v : Nat} (hv : v < 2 ^ 16) : leNat (leBytes 2 v) = v := (leNat_leBytes 2 v).trans (Nat.mod_eq_of_lt hv)

theorem length_leBytes (n x : Nat) : (leBytes n x).length = n := by
  induction n generalizing x with
  | zero => rfl
  | succ n ih => rw [leBytes, List.length_cons, ih]

section
variable {s : State} {via ix sub : Nat}

theorem odLook_lockTable (hsub : sub = 1 ∨ sub = 2 ∨ sub = 4) : odLook 0x2101 sub = .found ⟨some 2, .wo⟩ := by
  rcases hsub with rfl | rfl | rfl <;> rfl

/-- A write of the lock table whose value is taken acts, where the table is not locked and may be written. -/
theorem State.odWrite_lockTable {v : Nat} (hsub : sub = 1 ∨ sub = 2 ∨ sub = 4)
    (hcheck : s.odCheck via 0x2101 sub (leNat (leBytes 2 v)) = .ok) (hlock : s.hub.lockOf 0x2101 = 0 ∨ s.hub.lockOf 0x2101 = via)
    (hwrites : (s.hub.odLevel via).writes 0x2101 = true) :
    s.odWrite via 0x2101 sub (leBytes 2 v) = s.odEffect via 0x2101 sub (leBytes 2 v) := by
  have hlen : odLenOk 0x2101 (leBytes 2 v).length ⟨some 2, .wo⟩ = true := by simp [odLenOk, length_leBytes]
  exact State.odWrite_effect (odLook_lockTable hsub) (by decide) hlen hcheck hlock hwrites

variable (hlock : s.hub.lockOf 0x2101 = 0 ∨ s.hub.lockOf 0x2101 = via) (hwrites : (s.hub.odLevel via).writes 0x2101 = true)
include hlock hwrites

theorem State.odWrite_take (hix : ix < 2 ^ 16) : s.odWrite via 0x2101 1 (leBytes 2 ix) = s.ans (·.lockTake via ix) := by
  rw [State.odWrite_lockTable (Or.inl rfl) (by simp [State.odCheck]) hlock hwrites]
  simp [State.odEffect, leNat_leBytes_two hix]

theorem State.odWrite_drop (hix : ix < 2 ^ 16) : s.odWrite via 0x2101 2 (leBytes 2 ix) = s.ans (·.lockDrop via ix) := by
  rw [State.odWrite_lockTable (Or.inr (Or.inl rfl)) (by simp [State.odCheck]) hlock hwrites]
  simp [State.odEffect, leNat_leBytes_two hix]

theorem State.odWrite_clear : s.odWrite via 0x2101 4 (leBytes 2 1) = s.ans (·.lockClear via) := by
  rw [State.odWrite_lockTable (Or.inr (Or.inr rfl)) (by simp [State.odCheck, leNat_leBytes]) hlock hwrites]
  simp [State.odEffect]

omit hlock hwrites

theorem State.odWrite_clear_range {v : Nat} (hv : v < 2 ^ 16) (hne : v ≠ 1) : s.odWrite via 0x2101 4 (leBytes 2 v) = (.range, s) := by
  have hlen : odLenOk 0x2101 (leBytes 2 v).length ⟨some 2, .wo⟩ = true := by simp [odLenOk, length_leBytes]
  refine State.odWrite_range (odLook_lockTable (Or.inr (Or.inr rfl))) (by decide) hlen ?_
  simp [State.odCheck, leNat_leBytes_two hv, hne]

end

section
variable {h : Hub} {via ix : Nat} (hknown : odLook ix 0 ≠ .noIndex) (hcommit : ix ≠ 0x2100)
include hknown hcommit

theorem Hub.lockTake_own (hown : h.lockOf ix = via) : h.lockTake via ix = (.ok, h) := by simp [Hub.lockTake, hknown, hcommit, hown]

variable (hother : h.lockOf ix ≠ via)
include hother

theorem Hub.lockTake_refused (hvia : via ≠ 5) (htaken : h.lockOf ix ≠ 0 ∨ h.inRpdo ix = true) : h.lockTake via ix = (.locked, h.almCount 8) := by
  by_cases h0 : h.lockOf ix = 0
  · have hmapped : h.inRpdo ix = true := htaken.resolve_left (not_not.2 h0)
    rw [h0] at hother
    simp [Hub.lockTake, hknown, hcommit, h0, hother, hvia, hmapped, Hub.lockRefuse]
  · simp [Hub.lockTake, hknown, hcommit, h0, hother, Hub.lockRefuse]

variable (hfree : h.lockOf ix = 0) (hmapped : h.inRpdo ix = false)
include hfree hmapped

theorem Hub.lockTake_full (hfull : 16 ≤ h.alm.locks.length) : h.lockTake via ix = (.full, h) := by
  rw [hfree] at hother
  simp [Hub.lockTake, hknown, hcommit, hfree, hother, hmapped, hfull]

theorem Hub.lockTake_free (hroom : h.alm.locks.length < 16) :
    h.lockTake via ix = (.ok, { h with alm := { h.alm with locks := h.alm.locks ++ [(ix, via)] } }) := by
  rw [hfree] at hother
  have hnot : ¬ 16 ≤ h.alm.locks.length := by omega
  simp [Hub.lockTake, hknown, hcommit, hfree, hother, hmapped, hnot]

end

theorem Hub.lockDrop_own {h : Hub} {via ix : Nat} (hown : h.lockOf ix = 0 ∨ h.lockOf ix = via) :
    h.lockDrop via ix = (.ok, { h with alm := { h.alm with locks := h.alm.locks.filter (fun l => !decide (l.1 = ix)) } }) := by
  unfold Hub.lockDrop
  extract_lets o
  exact if_neg (by omega)

theorem Hub.lockDrop_refused {h : Hub} {via ix : Nat} (h0 : h.lockOf ix ≠ 0) (hother : h.lockOf ix ≠ via) :
    h.lockDrop via ix = (.locked, h.almCount 8) := if_pos ⟨h0, hother⟩

/-- An index whose locks are gone is not locked. -/
theorem Hub.lockOf_filter {h : Hub} {l : List (Nat × Nat)} {ix : Nat} (hlocks : h.alm.locks = l.filter (fun x => !decide (x.1 = ix))) :
    h.lockOf ix = 0 := by
  have hnone : (l.filter (fun x => !decide (x.1 = ix))).find? (fun x => decide (x.1 = ix)) = none := by
    rw [List.find?_eq_none]
    intro x hx
    have := (List.mem_filter.1 hx).2
    simpa using this
  rw [Hub.lockOf, hlocks, hnone]
  rfl

-- Values and effects of single entries

theorem tlook_tset_ne {α : Type} [DecidableEq α] {k j : Nat} (hj : j ≠ k) (d : α) (t : Tab α) (v : α) : tlook (tset d t k v) j = tlook t j := by
  unfold tset
  split_ifs
  exacts [tlook_terase_ne t hj, tlook_tput_ne t v hj]

/-- The communication entries that a write merely stores: their lengths, and that no value is refused. -/
theorem State.odWrite_store {s : State} {via ix : Nat} {l : List Byte} {o : OdObj} (hix : ix ∈ [0x1005, 0x1014, 0x1015, 0x1017])
    (hlook : odLook ix 0 = .found o) (hsize : o.size = some l.length) (hlock : s.hub.lockOf ix = 0 ∨ s.hub.lockOf ix = via)
    (hwrites : (s.hub.odLevel via).writes ix = true) : s.odWrite via ix 0 l = (.ok, s.onHub (·.setOd ix 0 (leNat l))) := by
  have hlen : odLenOk ix l.length o = true := by simp [odLenOk, hsize]
  have hfacts : o.acc ≠ .ro ∧ s.odCheck via ix 0 (leNat l) = .ok ∧ s.odEffect via ix 0 l = (.ok, s.onHub (·.setOd ix 0 (leNat l))) := by
    simp only [List.mem_cons, List.not_mem_nil, or_false] at hix
    rcases hix with rfl | rfl | rfl | rfl <;>
    · obtain rfl := OdLook.found.inj hlook
      exact ⟨by decide, by simp [State.odCheck], by simp [State.odEffect]⟩
  obtain ⟨hacc, hcheck, heffect⟩ := hfacts
  rw [State.odWrite_effect hlook hacc hlen hcheck hlock hwrites, heffect]

/-- The rates take no other value. -/
theorem State.odWrite_rate {s : State} {via : Nat} {l : List Byte} (hlen : l.length = 2) (h500 : leNat l ≠ 500) (h1000 : leNat l ≠ 1000) :
    s.odWrite via 0x2001 1 l = (.range, s) :=
  State.odWrite_range (o := ⟨some 2, .rw⟩) rfl (by decide) (by simp [odLenOk, hlen]) (by simp [State.odCheck, h500, h1000])

theorem State.odValue_epoch (s : State) (via : Nat) (view : Bool) : s.odValue via view 0x2100 1 = s.hub.get Reg.cfgEpochEpoch := by
  simp [State.odValue]

theorem State.odValue_life (s : State) (via : Nat) (view : Bool) : s.odValue via view 0x2000 7 = s.hub.get Reg.cfgModeLifecycle := by
  simp [State.odValue, Hub.life]

theorem State.odValue_vendor (s : State) (via : Nat) (view : Bool) : s.odValue via view 0x1018 1 = 0x1F3C := by simp [State.odValue]

theorem State.odValue_error (s : State) (via : Nat) (view : Bool) (sub : Nat) : s.odValue via view 0x1001 sub = s.hub.errorReg := by
  simp [State.odValue]

-- The commands

theorem Iface.isReq_iff (v : Iface) : Iface.isReq v = true ↔ v.code.toNat = 2 ∨ v.code.toNat = 3 ∨ v.code.toNat = 4 := by
  simp [Iface.isReq, or_assoc]

section
variable {via : Iface} (r : AlmReq) (s : State)

theorem exec_almanac_of_not_request (hreq : ¬(via.code.toNat = 2 ∨ via.code.toNat = 3 ∨ via.code.toNat = 4)) :
    exec (.almanacRead via r) s = .next s ∧ exec (.almanacWrite via r) s = .next s ∧ exec (.almanacLock via r) s = .next s
      ∧ exec (.almanacUnlock via r) s = .next s := by
  have h : ¬ Iface.isReq via = true := fun h => hreq ((Iface.isReq_iff via).1 h)
  exact ⟨if_neg h, if_neg h, if_neg h, if_neg h⟩

section
variable (hreq : via.code.toNat = 2 ∨ via.code.toNat = 3 ∨ via.code.toNat = 4)
include hreq

theorem exec_almanacRead : exec (.almanacRead via r) s = .next (s.odServeRead via.code.toNat r.staged r.index.toNat r.sub.toNat) :=
  if_pos ((Iface.isReq_iff via).2 hreq)

theorem exec_almanacWrite : exec (.almanacWrite via r) s = .next (s.odServeWrite via.code.toNat r.index.toNat r.sub.toNat r.data) :=
  if_pos ((Iface.isReq_iff via).2 hreq)

theorem exec_almanacLock : exec (.almanacLock via r) s = .next (s.odServeWrite via.code.toNat 0x2101 1 (leBytes 2 r.index.toNat)) :=
  if_pos ((Iface.isReq_iff via).2 hreq)

theorem exec_almanacUnlock : exec (.almanacUnlock via r) s = .next (s.odServeWrite via.code.toNat 0x2101 2 (leBytes 2 r.index.toNat)) :=
  if_pos ((Iface.isReq_iff via).2 hreq)

end

/-- An interface that is not served stays silent. -/
theorem exec_almanac_silent (hs : s.hub.odServed via.code.toNat = false) :
    exec (.almanacRead via r) s = .next s ∧ exec (.almanacWrite via r) s = .next s ∧ exec (.almanacLock via r) s = .next s
      ∧ exec (.almanacUnlock via r) s = .next s := by
  by_cases hreq : via.code.toNat = 2 ∨ via.code.toNat = 3 ∨ via.code.toNat = 4
  · rw [exec_almanacRead r s hreq, exec_almanacWrite r s hreq, exec_almanacLock r s hreq, exec_almanacUnlock r s hreq,
      State.odServeRead_silent _ hs, State.odServeWrite_silent _ hs, State.odServeWrite_silent _ hs, State.odServeWrite_silent _ hs]
    exact ⟨rfl, rfl, rfl, rfl⟩
  · exact exec_almanac_of_not_request r s hreq

end

section
variable {s : State} {c : Nat} (hc : c = 2 ∨ c = 3 ∨ c = 4) (hs : s.hub.odServed c = true)
include hc hs

/-- A read that gives its value has no effect but its count. -/
theorem odServeRead_value {ix sub : Nat} {view : Bool} {o : OdObj} (hlook : odLook ix sub = .found o) (hacc : o.acc ≠ .wo)
    (hreads : (s.hub.odLevel c).reads ix = true) (hlog : ix ≠ 0x2A01) :
    Told c 0 (leNat (leBytes (o.size.getD 0) ((s.onHub (·.countReq c)).odValue c view ix sub))) s (s.odServeRead c view ix sub)
      ∧ Untouched s (s.odServeRead c view ix sub)
      ∧ count (s.odServeRead c view ix sub) (if c = 2 then 7 else 6) = (count s (if c = 2 then 7 else 6) + 1) % 2 ^ 64 := by
  have hr := State.odRead_value (s := s.onHub (·.almCount (reqCount c))) (view := view) hlook hacc hreads hlog
  obtain ⟨htold, hsame⟩ := State.odServeRead_done hs hr
  simp only [Hub.countReq_eq]
  exact ⟨htold, hsame.untouched, count_of_counts hc hsame.counts⟩

/-- A stored entry reads back, and no other changes. -/
theorem odServeWrite_store {ix : Nat} {l : List Byte} {o : OdObj} (hix : ix ∈ [0x1005, 0x1014, 0x1015, 0x1017])
    (hlook : odLook ix 0 = .found o) (hsize : o.size = some l.length) (hlock : s.hub.lockOf ix = 0 ∨ s.hub.lockOf ix = c)
    (hwrites : (s.hub.odLevel c).writes ix = true) :
    Told c 0 0 s (s.odServeWrite c ix 0 l)
      ∧ count (s.odServeWrite c ix 0 l) (if c = 2 then 7 else 6) = (count s (if c = 2 then 7 else 6) + 1) % 2 ^ 64
      ∧ (s.odServeWrite c ix 0 l).hub.od ix 0 = leNat l ∧ (s.odServeWrite c ix 0 l).hub.regs = s.hub.regs
      ∧ (s.odServeWrite c ix 0 l).hub.alm.locks = s.hub.alm.locks
      ∧ ∀ k, k ≠ ix * 256 → tlook (s.odServeWrite c ix 0 l).hub.alm.od k = tlook s.hub.alm.od k := by
  have hw := State.odWrite_store (s := s.onHub (·.almCount (reqCount c))) (via := c) hix hlook hsize hlock hwrites
  obtain ⟨htold, hsame⟩ := State.odServeWrite_done hs hw rfl rfl rfl
  refine ⟨htold, count_of_counts hc hsame.counts, ?_, hsame.regs, hsame.locks, fun k hk => ?_⟩
  · rw [hsame.entry]
    exact tget_tset_same _ _ _ _
  · rw [hsame.od]
    have hk' : k ≠ ix * 256 + 0 := by rwa [Nat.add_zero]
    exact tlook_tset_ne hk' (odDefault s.hub.boot.nodeId (ix * 256 + 0)) s.hub.alm.od (leNat l)

end

-- Locks as requests

theorem State.ans_eq {s : State} {f : Hub → AlmAns × Hub} {a : AlmAns} {k : Hub} (h : f s.hub = (a, k)) : s.ans f = (a, { s with hub := k }) := by
  rw [State.ans, h]

section
variable {s : State} {c : Nat} (hc : c = 2 ∨ c = 3 ∨ c = 4) (hs : s.hub.odServed c = true)
include hs

/-- Locks that a served request leaves. -/
theorem odServeWrite_locks {sub v : Nat} {k : List (Nat × Nat)}
    (hw : (s.onHub (·.almCount (reqCount c))).odWrite c 0x2101 sub (leBytes 2 v) =
      (.ok, (s.onHub (·.almCount (reqCount c))).onHub (fun h => { h with alm := { h.alm with locks := k } }))) :
    Told c 0 0 s (s.odServeWrite c 0x2101 sub (leBytes 2 v)) ∧ (s.odServeWrite c 0x2101 sub (leBytes 2 v)).hub.alm.locks = k
      ∧ (s.odServeWrite c 0x2101 sub (leBytes 2 v)).hub.regs = s.hub.regs := by
  obtain ⟨htold, hsame⟩ := State.odServeWrite_done hs hw rfl rfl rfl
  exact ⟨htold, hsame.locks, hsame.regs⟩

variable (hwrites : (s.hub.odLevel c).writes 0x2101 = true) (hlock : s.hub.lockOf 0x2101 = 0 ∨ s.hub.lockOf 0x2101 = c)
include hwrites hlock

theorem odServeWrite_unlock {ix : Nat} (hix : ix < 2 ^ 16) (hown : s.hub.lockOf ix = 0 ∨ s.hub.lockOf ix = c) :
    Told c 0 0 s (s.odServeWrite c 0x2101 2 (leBytes 2 ix)) ∧ (s.odServeWrite c 0x2101 2 (leBytes 2 ix)).hub.lockOf ix = 0
      ∧ (s.odServeWrite c 0x2101 2 (leBytes 2 ix)).hub.alm.locks = s.hub.alm.locks.filter (fun l => !decide (l.1 = ix))
      ∧ (s.odServeWrite c 0x2101 2 (leBytes 2 ix)).hub.regs = s.hub.regs := by
  have hw := State.odWrite_drop (s := s.onHub (·.almCount (reqCount c))) (via := c) hlock hwrites hix
  obtain ⟨htold, hlocks, hregs⟩ := odServeWrite_locks hs (hw.trans (State.ans_eq (Hub.lockDrop_own hown)))
  exact ⟨htold, Hub.lockOf_filter hlocks, hlocks, hregs⟩

/-- The PF mailbox releases every lock. -/
theorem odServeWrite_clear (hpf : c = 2) :
    Told c 0 0 s (s.odServeWrite c 0x2101 4 (leBytes 2 1)) ∧ (s.odServeWrite c 0x2101 4 (leBytes 2 1)).hub.alm.locks = []
      ∧ (s.odServeWrite c 0x2101 4 (leBytes 2 1)).hub.regs = s.hub.regs := by
  have hw := State.odWrite_clear (s := s.onHub (·.almCount (reqCount c))) (via := c) hlock hwrites
  have hclear (h : Hub) : h.lockClear c = (.ok, { h with alm := { h.alm with locks := [] } }) := if_pos hpf
  exact odServeWrite_locks hs (hw.trans (State.ans_eq (hclear _)))

include hc

theorem odServeWrite_unlock_refused {ix : Nat} (hix : ix < 2 ^ 16) (h0 : s.hub.lockOf ix ≠ 0) (hother : s.hub.lockOf ix ≠ c) :
    Refused c 0x04 0x08000021 s (s.odServeWrite c 0x2101 2 (leBytes 2 ix))
      ∧ count (s.odServeWrite c 0x2101 2 (leBytes 2 ix)) 8 = (count s 8 + 1) % 2 ^ 64 := by
  have hw := State.odWrite_drop (s := s.onHub (·.almCount (reqCount c))) (via := c) hlock hwrites hix
  exact refused_odServeWrite_locked hc hs (hw.trans (State.ans_eq (Hub.lockDrop_refused h0 hother)))

/-- From another interface than the PF mailbox the release of every lock is refused. -/
theorem odServeWrite_clear_refused (hpf : c ≠ 2) :
    Untouched s (s.odServeWrite c 0x2101 4 (leBytes 2 1))
      ∧ ((answers (s.odServeWrite c 0x2101 4 (leBytes 2 1))).head?.bind statusOf = some 0x04)
      ∧ (answers (s.odServeWrite c 0x2101 4 (leBytes 2 1))).tail = answers s := by
  have hne : c ≠ 5 := by omega
  have hclear : (s.hub.almCount (reqCount c)).lockClear c = (⟨0x04, none⟩, s.hub.almCount (reqCount c)) := if_neg hpf
  have hw := (State.odWrite_clear (s := s.onHub (·.almCount (reqCount c))) (via := c) hlock hwrites).trans (State.ans_eq hclear)
  obtain ⟨v, hans⟩ := Hub.answer_free ((s.hub.almCount (reqCount c)).countAbort c ⟨0x04, none⟩) c 0x04 []
  obtain ⟨⟨htold, -, -⟩, hsame⟩ := State.odServeWrite_told hs hw rfl rfl rfl hans
  rw [Hub.countAbort_of_ne _ hne] at hsame
  rw [htold]
  exact ⟨hsame.untouched, rfl, rfl⟩

variable {ix : Nat} (hix : ix < 2 ^ 16) (hknown : odLook ix 0 ≠ .noIndex) (hcommit : ix ≠ 0x2100)
include hix hknown hcommit

theorem odServeWrite_lock_refused (hother : s.hub.lockOf ix ≠ c) (htaken : s.hub.lockOf ix ≠ 0 ∨ s.hub.inRpdo ix = true) :
    Refused c 0x04 0x08000021 s (s.odServeWrite c 0x2101 1 (leBytes 2 ix))
      ∧ count (s.odServeWrite c 0x2101 1 (leBytes 2 ix)) 8 = (count s 8 + 1) % 2 ^ 64 := by
  have hw := State.odWrite_take (s := s.onHub (·.almCount (reqCount c))) (via := c) hlock hwrites hix
  exact refused_odServeWrite_locked hc hs (hw.trans (State.ans_eq (Hub.lockTake_refused hknown hcommit hother (by omega) htaken)))

theorem odServeWrite_lock_full (hfree : s.hub.lockOf ix = 0) (hmapped : s.hub.inRpdo ix = false) (hfull : 16 ≤ s.hub.alm.locks.length) :
    Refused c 0x03 0x08000000 s (s.odServeWrite c 0x2101 1 (leBytes 2 ix)) := by
  have hw := State.odWrite_take (s := s.onHub (·.almCount (reqCount c))) (via := c) hlock hwrites hix
  have hother : s.hub.lockOf ix ≠ c := by omega
  exact refused_odServeWrite hc hs (by decide) (hw.trans (State.ans_eq (Hub.lockTake_full hknown hcommit hother hfree hmapped hfull)))

theorem odServeWrite_lock_free (hfree : s.hub.lockOf ix = 0) (hmapped : s.hub.inRpdo ix = false) (hroom : s.hub.alm.locks.length < 16) :
    Told c 0 0 s (s.odServeWrite c 0x2101 1 (leBytes 2 ix))
      ∧ (s.odServeWrite c 0x2101 1 (leBytes 2 ix)).hub.alm.locks = s.hub.alm.locks ++ [(ix, c)]
      ∧ (s.odServeWrite c 0x2101 1 (leBytes 2 ix)).hub.regs = s.hub.regs := by
  have hw := State.odWrite_take (s := s.onHub (·.almCount (reqCount c))) (via := c) hlock hwrites hix
  have hother : s.hub.lockOf ix ≠ c := by omega
  exact odServeWrite_locks hs (hw.trans (State.ans_eq (Hub.lockTake_free hknown hcommit hother hfree hmapped hroom)))

omit hc

theorem odServeWrite_lock_own (hown : s.hub.lockOf ix = c) :
    Told c 0 0 s (s.odServeWrite c 0x2101 1 (leBytes 2 ix)) ∧ Untouched s (s.odServeWrite c 0x2101 1 (leBytes 2 ix)) := by
  have hw := State.odWrite_take (s := s.onHub (·.almCount (reqCount c))) (via := c) hlock hwrites hix
  obtain ⟨htold, hsame⟩ := State.odServeWrite_done hs (hw.trans (State.ans_eq (Hub.lockTake_own hknown hcommit hown))) rfl rfl rfl
  exact ⟨htold, hsame.untouched⟩

end

-- USDO (R438)

section
variable {s : State} (hs : s.hub.odServed 5 = true) {ix sub : Nat} {o : OdObj} (hlook : odLook ix sub = .found o)
include hs

/-- A segmented transfer that lapses is told and counted. -/
theorem exec_usdoTimeout (index : BitVec 16) (sub : BitVec 8) (hlook : odLook index.toNat sub.toNat ≠ .noIndex) :
    exec (.usdoTimeout index sub) s = .next (s.onHub (fun h => (h.almCount 3).answer 5 ⟨0x06, some 0x05040000⟩ [])) := by
  have hexec : exec (.usdoTimeout index sub) s = execUsdoTimeout index sub s := rfl
  rw [hexec, execUsdoTimeout, hubStep, State.onHub, hs, decide_eq_true hlook]
  rfl

include hlook

theorem odServeRead_usdo (hacc : o.acc ≠ .wo) (hlog : ix ≠ 0x2A01) (hreads : (s.hub.odLevel 5).reads ix = true) :
    Told 5 0 (leNat (leBytes (o.size.getD 0) ((s.onHub (·.countReq 5)).odValue 5 false ix sub))) s (s.odServeRead 5 false ix sub)
      ∧ Untouched s (s.odServeRead 5 false ix sub) ∧ count (s.odServeRead 5 false ix sub) 2 = (count s 2 + 1) % 2 ^ 64
      ∧ count (s.odServeRead 5 false ix sub) 3 = count s 3 := by
  have hr := State.odRead_value (s := s.onHub (·.almCount (reqCount 5))) (view := false) hlook hacc hreads hlog
  obtain ⟨htold, hsame⟩ := State.odServeRead_done hs hr
  have hcount (k : Nat) : count (s.odServeRead 5 false ix sub) k = tget 0 (s.hub.almCount 2).alm.counts k := by
    rw [count, hsame.counts]
    rfl
  refine ⟨htold, hsame.untouched, ?_, ?_⟩
  · rw [hcount, Hub.almCount_same]
    rfl
  · rw [hcount, Hub.almCount_ne _ (by decide)]
    rfl

theorem odServeWrite_usdo_ro (l : List Byte) (hro : o.acc = .ro) :
    Told 5 0x04 0x06010002 s (s.odServeWrite 5 ix sub l) ∧ Untouched s (s.odServeWrite 5 ix sub l)
      ∧ count (s.odServeWrite 5 ix sub l) 2 = (count s 2 + 1) % 2 ^ 64 ∧ count (s.odServeWrite 5 ix sub l) 3 = (count s 3 + 1) % 2 ^ 64 := by
  have hw := State.odWrite_ro (s := s.onHub (·.almCount (reqCount 5))) (via := 5) (l := l) hlook hro
  obtain ⟨htold, hsame⟩ := State.odServeWrite_told hs hw rfl rfl rfl (Hub.answer_refused _ _ _ _ _ (by decide))
  rw [Hub.countAbort_usdo _ (by decide)] at hsame
  have hcount (k : Nat) : count (s.odServeWrite 5 ix sub l) k = tget 0 ((s.hub.almCount 2).almCount 3).alm.counts k := by
    rw [count, hsame.counts]
    rfl
  refine ⟨htold, hsame.untouched, ?_, ?_⟩
  · rw [hcount, Hub.almCount_ne _ (by decide), Hub.almCount_same]
    rfl
  · rw [hcount, Hub.almCount_same, Hub.almCount_ne _ (by decide)]
    rfl

end

/-- Settles O47: each clause is a judgement of the request, with what an answer, a count and the watch leave. -/
theorem almanacRequestsAreServedAndRefused : Obligations.AlmanacRequestsAreServedAndRefused := by
  unfold Obligations.AlmanacRequestsAreServedAndRefused
  intro via owner r v8 s o
  extract_lets c ix sub lvl served usdo req kind look read write locked can counted refused value locks known
  have hix : ix < 2 ^ 16 := r.index.isLt
  have hv8 : v8.toNat < 2 ^ 16 := by omega
  have hread (hreq : req) := exec_almanacRead (via := via) r s hreq
  have hwrite (hreq : req) := exec_almanacWrite (via := via) r s hreq
  have hlock (hreq : req) := exec_almanacLock (via := via) r s hreq
  have hunlock (hreq : req) := exec_almanacUnlock (via := via) r s hreq
  have hrelease : exec (.lockReleaseAll via v8) s = .next (s.odServeWrite c 0x2101 4 (leBytes 2 v8.toNat)) := rfl
  have hval : value = (s.onHub (·.almCount (reqCount c))).odValue c r.staged ix sub := by
    unfold value
    simp only [Hub.countReq_eq]
  have husdo (w : Bool) : exec (.usdoTransfer w r.index r.sub r.data) s =
      .next (if w then s.odServeWrite 5 ix sub r.data else s.odServeRead 5 false ix sub) := rfl
  refine ⟨exec_almanac_of_not_request r s, fun hns => ?_, fun hlvl => ?_, fun h5 hnmt => ?_, fun hreq hsv hlk => ?_, fun hreq hsv hlk => ?_,
    fun hreq hsv hlk hacc => ?_, fun hreq hsv hlk hacc => ?_, fun hreq hsv hlk hacc hsome hsize => ?_, fun hreq hsv hlk hacc hrd => ?_,
    fun hreq hsv hlk hacc hrd hlog => ?_, fun hi hj => ?_, fun hi hj => ?_, fun hi hj => ?_, fun hi => ?_,
    fun hreq hsv hlk hacc hsize hck h0 hother => ?_, fun hreq hsv hlk hacc hsize hck hown hwr => ?_,
    fun hreq hsv hmem hj hlk hsize hown hwr => ?_, fun hreq hsv hi hj hlen h500 h1000 => ?_, fun hreq hcan hkn hcm h0 hmap hroom => ?_,
    fun hreq hcan hkn hcm hown => ?_, fun hreq hcan hkn hcm h0 hmap hfull => ?_, fun hreq hcan hkn hcm hother htaken => ?_,
    fun hreq hcan hown => ?_, fun hreq hcan h0 hother => ?_, fun h2 hcan h1 => ?_, fun hreq h2 hcan h1 => ?_, fun hreq hsv h1 => ?_,
    ⟨_, rfl, rfl, rfl, rfl, rfl, rfl, rfl⟩, fun hns => ?_, fun hsv hlk hacc hlog hrd => ?_, fun hsv hlk hro => ?_, fun hsv hlk => ?_⟩
  · have hs : s.hub.odServed c = false := Bool.eq_false_of_not_eq_true hns
    obtain ⟨hr, hw, hl, hu⟩ := exec_almanac_silent (via := via) r s hs
    exact ⟨hr, hw, hl, hu, hrelease.trans (congrArg _ (State.odServeWrite_silent _ hs))⟩
  · have hlvl' : s.hub.odLevel c = .silent := hlvl
    simp [served, Hub.odServed, hlvl']
  · simp [served, Hub.odServed, h5, hnmt]
  · exact ⟨⟨_, hread hreq, refused_odServeRead hreq hsv (by decide) (State.odRead_noIndex hlk)⟩,
      ⟨_, hwrite hreq, refused_odServeWrite hreq hsv (by decide) (State.odWrite_noIndex hlk)⟩⟩
  · exact ⟨⟨_, hread hreq, refused_odServeRead hreq hsv (by decide) (State.odRead_noSub hlk)⟩,
      ⟨_, hwrite hreq, refused_odServeWrite hreq hsv (by decide) (State.odWrite_noSub hlk)⟩⟩
  · exact ⟨_, hread hreq, refused_odServeRead hreq hsv (by decide) (State.odRead_wo hlk hacc)⟩
  · exact ⟨_, hwrite hreq, refused_odServeWrite hreq hsv (by decide) (State.odWrite_ro hlk hacc)⟩
  · have hlen : odLenOk ix r.data.length o = false := by
      obtain ⟨n, hn⟩ := Option.ne_none_iff_exists'.1 hsome
      have hne : r.data.length ≠ n := fun he => hsize (hn.trans (congrArg some he.symm))
      simp [odLenOk, hn, hne]
    exact ⟨_, hwrite hreq, refused_odServeWrite hreq hsv (by decide) (State.odWrite_len hlk hacc hlen)⟩
  · exact ⟨_, hread hreq, refused_odServeRead hreq hsv (by decide) (State.odRead_state hlk hacc hrd)⟩
  · exact ⟨_, hread hreq, odServeRead_value hreq hsv hlk hacc hrd hlog⟩
  · rw [hval, hi, hj]
    exact State.odValue_vendor _ _ _
  · rw [hval, hi, hj]
    exact State.odValue_epoch _ _ _
  · rw [hval, hi, hj]
    exact State.odValue_life _ _ _
  · rw [hval, hi]
    exact State.odValue_error _ _ _ _
  · have hlen : odLenOk ix r.data.length o = true := by simp [odLenOk, hsize]
    exact ⟨_, hwrite hreq, refused_odServeWrite_locked hreq hsv
      (State.odWrite_locked hlk hacc hlen ((State.odCheck_almCount _ _ _ _ _ _).trans hck) ⟨h0, hother⟩)⟩
  · have hlen : odLenOk ix r.data.length o = true := by simp [odLenOk, hsize]
    exact ⟨_, hwrite hreq, refused_odServeWrite hreq hsv (by decide)
      (State.odWrite_state hlk hacc hlen ((State.odCheck_almCount _ _ _ _ _ _).trans hck) hown hwr)⟩
  · rw [Claims.Runs]
    rw [hwrite hreq, show r.sub.toNat = 0 from hj]
    exact ⟨_, rfl, odServeWrite_store hreq hsv hmem (hj ▸ hlk) hsize hown hwr⟩
  · rw [Claims.Runs]
    rw [hwrite hreq, show r.index.toNat = 0x2001 from hi, show r.sub.toNat = 1 from hj]
    exact ⟨_, rfl, refused_odServeWrite hreq hsv (by decide) (State.odWrite_rate hlen h500 h1000)⟩
  · obtain ⟨hsv, hwr, hown⟩ := hcan
    exact ⟨_, hlock hreq, odServeWrite_lock_free hreq hsv hwr hown hix hkn hcm h0 hmap hroom⟩
  · obtain ⟨hsv, hwr, hfree⟩ := hcan
    exact ⟨_, hlock hreq, odServeWrite_lock_own hsv hwr hfree hix hkn hcm hown⟩
  · obtain ⟨hsv, hwr, hown⟩ := hcan
    exact ⟨_, hlock hreq, odServeWrite_lock_full hreq hsv hwr hown hix hkn hcm h0 hmap hfull⟩
  · obtain ⟨hsv, hwr, hown⟩ := hcan
    exact ⟨_, hlock hreq, odServeWrite_lock_refused hreq hsv hwr hown hix hkn hcm hother htaken⟩
  · obtain ⟨hsv, hwr, hfree⟩ := hcan
    exact ⟨_, hunlock hreq, odServeWrite_unlock hsv hwr hfree hix hown⟩
  · obtain ⟨hsv, hwr, hfree⟩ := hcan
    exact ⟨_, hunlock hreq, odServeWrite_unlock_refused hreq hsv hwr hfree hix h0 hother⟩
  · obtain ⟨hsv, hwr, hfree⟩ := hcan
    subst h1
    exact ⟨_, hrelease, odServeWrite_clear hsv hwr hfree h2⟩
  · obtain ⟨hsv, hwr, hfree⟩ := hcan
    subst h1
    exact ⟨_, hrelease, odServeWrite_clear_refused hreq hsv hwr hfree h2⟩
  · have hne : v8.toNat ≠ 1 := fun he => h1 (BitVec.eq_of_toNat_eq he)
    exact ⟨_, hrelease, refused_odServeWrite hreq hsv (by decide) (State.odWrite_clear_range hv8 hne)⟩
  · have hs : s.hub.odServed 5 = false := Bool.eq_false_of_not_eq_true hns
    refine ⟨(husdo true).trans (congrArg _ (State.odServeWrite_silent _ hs)), (husdo false).trans (congrArg _ (State.odServeRead_silent _ hs)), ?_⟩
    have hexec : exec (.usdoTimeout r.index r.sub) s = execUsdoTimeout r.index r.sub s := rfl
    rw [hexec, execUsdoTimeout, hubStep, State.onHub, hs]
    rfl
  · exact ⟨_, husdo false, odServeRead_usdo hsv hlk hacc hlog hrd⟩
  · exact ⟨_, husdo true, odServeWrite_usdo_ro hsv hlk _ hro⟩
  · have hans := Hub.answer_refused (s.hub.almCount 3) 5 0x06 0x05040000 [] (by decide)
    refine ⟨_, exec_usdoTimeout hsv r.index r.sub hlk, ⟨answers_of_sent hans.sent, rfl, rfl⟩,
      Hub.SameShown.untouched (s := s) (n := (s.hub.almCount 3).alm.counts) hans.sameShown, ?_⟩
    exact (congrArg (fun n => tget 0 n 3) hans.sameShown.counts).trans (Hub.almCount_same s.hub 3)

end Sys2Proof.Machine
end

section
/-! SUPPORT. What events, records and the budget leave of the CAN node's own state. -/

namespace Sys2Proof.Machine

open Sys2Proof Claims

-- What is neither register, message, vector, emergency nor record is left by a record

section
variable {α : Type} {p : Hub → α} (hset : ∀ h f v, p (Hub.set h f v) = p h) (hsend : ∀ h m, p (Hub.send h m) = p h)
  (hmsix : ∀ h fn e, p (Hub.msix h fn e) = p h)
include hset hmsix

theorem Hub.event_proj (h : Hub) (f : Fld) : p (h.event f) = p h := by
  unfold Hub.event
  extract_lets k
  have hk : p k = p h := hset _ _ _
  split_ifs
  exacts [(hmsix _ _ _).trans hk, hk]

omit hset in
theorem Hub.raiseVf_proj (h : Hub) (n e : Nat) : p (h.raiseVf n e) = p h :=
  overList_rel (R := fun h k : Hub => p k = p h) (fun _ => rfl) (fun a b => b.trans a) (fun v k => hmsix k v e) _ h

variable (hemcy : ∀ h c m, p (Hub.emcy h c m) = p h)
include hsend hemcy

theorem Hub.announce_proj (h : Hub) (x : RecIn) : p (h.announce x) = p h := by
  unfold Hub.announce
  extract_lets k l m
  have hk : p k = p h := by
    unfold k
    split_ifs
    exacts [Hub.event_proj hset hmsix _ _, Hub.event_proj hset hmsix _ _, Hub.event_proj hset hmsix _ _, rfl]
  have hl : p l = p k := by
    unfold l
    split_ifs
    exacts [Hub.raiseVf_proj hmsix _ _ _, rfl]
  have hm : p m = p l := by
    unfold m
    split_ifs
    exacts [hemcy _ _ _, rfl]
  have hcor : p (m.aerCor 0 14) = p m := by
    unfold Hub.aerCor
    extract_lets j
    split_ifs
    exacts [hset _ _ _, (hsend _ _).trans (hset _ _ _)]
  have hunc : p (m.aerUnc 0 22) = p m := by
    unfold Hub.aerUnc
    extract_lets j
    split_ifs
    exacts [hset _ _ _, (hsend _ _).trans (hset _ _ _)]
  rw [← hk, ← hl, ← hm]
  split_ifs
  exacts [hcor, hunc, rfl]

variable (hmor : ∀ (h : Hub) m, p { h with mor := m } = p h) (hnow : ∀ h : Hub, p h.now.2 = p h)
include hmor hnow

theorem Hub.record_proj (h : Hub) (x : RecIn) : p (h.record x) = p h := by
  unfold Hub.record
  extract_lets t k
  have hk : p k = p h := hnow h
  have hput (j : Nat) : p ((k.morPut x t j).announce x) = p h :=
    (Hub.announce_proj hset hsend hmsix hemcy _ x).trans ((hmor _ _).trans ((hset _ _ _).trans hk))
  have hlost : p (((k.count Reg.morLostCount 1).event Reg.morEventLost).announce x) = p h :=
    (Hub.announce_proj hset hsend hmsix hemcy _ x).trans ((Hub.event_proj hset hmsix _ _).trans ((hset _ _ _).trans hk))
  split
  · split_ifs
    · exact (hmor _ _).trans hk
    · split
      exacts [hput _, hlost]
  · split
    exacts [hput _, hlost]

end

/-- A first record stands in the first slot. -/
theorem Hub.record_mor_of_nil {h : Hub} (hmor : h.mor = []) (x : RecIn) : ∃ r : MorRec, (h.record x).mor = [(0, r)] ∧ r.code = x.code
    ∧ r.inst = x.inst ∧ r.cls = x.cls := by
  have hannounce (k : Hub) : (k.announce x).mor = k.mor :=
    Hub.announce_proj (p := Hub.mor) (fun _ _ _ => rfl) (fun _ _ => rfl) Hub.msix_mor
      (fun h c m => by unfold Hub.emcy; split_ifs <;> rfl) k x
  have hmor' : h.now.2.mor = [] := hmor
  have hslot : h.now.2.morSlot x.cls = some 0 := by simp [Hub.morSlot, hmor', firstGap]
  have hrec : h.record x = (h.now.2.morPut x h.now.1 0).announce x := by
    unfold Hub.record
    extract_lets t k
    simp only [show k.mor = [] from hmor', newestOf, show k.morSlot x.cls = some 0 from hslot]
    rfl
  have hput : ∃ r : MorRec, (h.now.2.morPut x h.now.1 0).mor = tput h.now.2.mor 0 r ∧ r.code = x.code ∧ r.inst = x.inst ∧ r.cls = x.cls :=
    ⟨_, rfl, rfl, rfl, rfl⟩
  obtain ⟨r, hr, hcode, hinst, hcls⟩ := hput
  refine ⟨r, ?_, hcode, hinst, hcls⟩
  rw [hrec, hannounce, hr, hmor']
  rfl

-- The node

/-- What CAN's services keep of the hub: entries, the counts of RPDOs (R445), NMT state, RPDOs that wait, and the start-up state. Interrupts
have a count of their own. -/
def Hub.node (h : Hub) : Tab Nat × (Nat × Nat) × Nat × Tab (List Byte) × Boot :=
  (h.alm.od, (tget 0 h.alm.counts 4, tget 0 h.alm.counts 5), h.alm.nmt, h.alm.rpdoWait, h.boot)

theorem Hub.CanOnly.node {h k : Hub} (a : h.CanOnly k) : k.node = h.node := by
  rw [Hub.node, a.od, a.counts, a.nmt, a.rpdoWait, a.boot]
  rfl

section
variable {h k : Hub} (hn : k.node = h.node)
include hn

theorem Hub.od_of_node : k.alm.od = h.alm.od := congrArg (fun n => n.1) hn

theorem Hub.applied_of_node : tget 0 k.alm.counts 4 = tget 0 h.alm.counts 4 := congrArg (fun n => n.2.1.1) hn

theorem Hub.dropped_of_node : tget 0 k.alm.counts 5 = tget 0 h.alm.counts 5 := congrArg (fun n => n.2.1.2) hn

theorem Hub.nmt_of_node : k.alm.nmt = h.alm.nmt := congrArg (fun n => n.2.2.1) hn

theorem Hub.rpdoWait_of_node : k.alm.rpdoWait = h.alm.rpdoWait := congrArg (fun n => n.2.2.2.1) hn

theorem Hub.boot_of_node : k.boot = h.boot := congrArg (fun n => n.2.2.2.2) hn

theorem Hub.entry_of_node (ix sub : Nat) : k.od ix sub = h.od ix sub := by
  rw [Hub.od, Hub.od, Hub.od_of_node hn, Hub.boot_of_node hn]

end

theorem Hub.msix_node (h : Hub) (fn e : Nat) : (h.msix fn e).node = h.node := by
  have hcount (v : Nat) : ({ h with alm := { h.alm with counts := tset 0 h.alm.counts 1 v } } : Hub).node = h.node := by
    simp [Hub.node, tget_tset]
  unfold Hub.msix
  split_ifs
  exacts [rfl, rfl, rfl, hcount _, rfl]

theorem Hub.event_node (h : Hub) (f : Fld) : (h.event f).node = h.node := Hub.event_proj (fun _ _ _ => rfl) Hub.msix_node h f

theorem Hub.record_node (h : Hub) (x : RecIn) : (h.record x).node = h.node :=
  Hub.record_proj (fun _ _ _ => rfl) (fun _ _ => rfl) Hub.msix_node (fun h c m => (h.emcy_canOnly c m).node) (fun _ _ => rfl) (fun _ => rfl) h x

theorem Hub.sets_node (l : List (Fld × Nat)) (h : Hub) : (h.sets l).node = h.node := by
  induction l generalizing h with
  | nil => rfl
  | cons x l ih => exact ih (h.set x.1 x.2)

theorem Hub.showBudget_node (h : Hub) : h.showBudget.node = h.node := by
  unfold Hub.showBudget
  extract_lets b k
  have hk : k.node = h.node := Hub.sets_node _ h
  clear_value k
  split_ifs
  · exact hk
  · exact hk
  · exact (Hub.record_node _ _).trans ((Hub.event_node _ _).trans hk)

/-- POWER_LIMIT_W is stored; what follows from it is not the node's. -/
theorem Hub.powerLimit_node (h : Hub) (v : Nat) : (h.powerLimit v).node = (h.setOd 0x2210 1 v).node := by
  unfold Hub.powerLimit
  extract_lets k l r m
  have hm : m.node = k.node := by
    unfold m
    split_ifs <;> rfl
  clear_value m
  split_ifs
  exacts [(Hub.showBudget_node m).trans hm, hm]

end Sys2Proof.Machine
end

section
/-! SUPPORT. RPDOs (R440): what one that maps POWER_LIMIT_W writes, and what it leaves. -/

namespace Sys2Proof.Machine

open Sys2Proof Claims

-- POWER_LIMIT_W applied

/-- The limit stored and the RPDO counted; its other counts and the waiting RPDOs stay. -/
theorem Hub.limited_of_node {h k : Hub} {v : Nat} (hk : k.node = ((h.powerLimit v).almCount 4).node) :
    k.od 0x2210 1 = v ∧ tget 0 k.alm.counts 4 = (tget 0 h.alm.counts 4 + 1) % 2 ^ 64 ∧ tget 0 k.alm.counts 5 = tget 0 h.alm.counts 5
      ∧ k.alm.rpdoWait = h.alm.rpdoWait := by
  have hp := Hub.powerLimit_node h v
  have hentry : k.od 0x2210 1 = (h.setOd 0x2210 1 v).od 0x2210 1 := (Hub.entry_of_node hk 0x2210 1).trans (Hub.entry_of_node hp 0x2210 1)
  have hwait : (h.powerLimit v).alm.rpdoWait = h.alm.rpdoWait := Hub.rpdoWait_of_node (h := h.setOd 0x2210 1 v) hp
  refine ⟨hentry.trans (tget_tset_same _ _ _ _), ?_, ?_, (Hub.rpdoWait_of_node hk).trans hwait⟩
  · rw [Hub.applied_of_node hk, Hub.almCount_same, Hub.applied_of_node hp]
    rfl
  · rw [Hub.dropped_of_node hk, Hub.almCount_ne _ (by decide), Hub.dropped_of_node hp]
    rfl

section
variable {s : State} {n : Nat} {data : List Byte} (hone : s.hub.mapped (0x1600 + n) = [(0x221001, 16)]) (hlen : data.length = 2)
include hone hlen

/-- An RPDO that maps POWER_LIMIT_W alone is one write of that entry. -/
theorem State.rpdoApply_powerLimit {a : AlmAns} {t : State} (hw : s.odWrite 5 0x2210 1 data = (a, t)) :
    s.rpdoApply n data = (if a = .ok then t else t.onHub (·.almCount 5)).onHub (·.almCount 4) := by
  have htake : data.take (16 / 8) = data := List.take_of_length_le hlen.le
  rw [State.rpdoApply, hone, State.rpdoValues, State.rpdoValues, htake, hw]

/-- The interface writes the entry: the limit is taken. -/
theorem State.rpdoApply_free (hlock : s.hub.lockOf 0x2210 = 0 ∨ s.hub.lockOf 0x2210 = 5) (hwrites : (s.hub.odLevel 5).writes 0x2210 = true) :
    s.rpdoApply n data = s.onHub (fun h => (h.powerLimit (leNat data)).almCount 4) := by
  have hlook : odLook 0x2210 1 = .found ⟨some 2, .rw⟩ := by decide
  have hw := State.odWrite_effect (s := s) hlook (by decide) (l := data) (by simp [odLenOk, hlen]) (by simp [State.odCheck]) hlock hwrites
  rw [State.rpdoApply_powerLimit hone hlen (hw.trans rfl), if_pos rfl]
  rfl

/-- Another interface holds the entry's lock: the value is dropped and counted. -/
theorem State.rpdoApply_locked (hlock : s.hub.lockOf 0x2210 ≠ 0 ∧ s.hub.lockOf 0x2210 ≠ 5) :
    s.rpdoApply n data = s.onHub (fun h => ((h.almCount 8).almCount 5).almCount 4) := by
  have hlook : odLook 0x2210 1 = .found ⟨some 2, .rw⟩ := by decide
  have hw := State.odWrite_locked (s := s) hlook (by decide) (l := data) (by simp [odLenOk, hlen]) (by simp [State.odCheck]) hlock
  rw [State.rpdoApply_powerLimit hone hlen hw, if_neg (by decide)]
  rfl

end

-- RPDO

section
variable {n : BitVec 3} {data : List (BitVec 8)} {s : State}

/-- The node does not hear an RPDO: CAN is down, or the management core stopped, or it halts, or the RPDO is not valid. -/
def Hub.rpdoDeaf (h : Hub) (n : Nat) : Prop :=
  h.canUp = false ∨ h.boot.stopped = true ∨ h.boot.halt = true ∨ (h.od (0x1400 + n) 1).testBit 31 = true

theorem Hub.rpdoDeaf_iff (h : Hub) (n : Nat) :
    h.rpdoDeaf n ↔ (!h.canUp || h.boot.stopped || h.boot.halt || bitAt (h.od (0x1400 + n) 1) 31) = true := by
  have hbit : bitAt (h.od (0x1400 + n) 1) 31 = (h.od (0x1400 + n) 1).testBit 31 := Nat.testBit_eq_decide_div_mod_eq.symm
  simp [Hub.rpdoDeaf, hbit, or_assoc]

theorem exec_rpdo_deaf (hd : s.hub.rpdoDeaf n.toNat) : exec (.rpdo n data) s = .next s := if_pos ((s.hub.rpdoDeaf_iff _).1 hd)

variable (hd : ¬ s.hub.rpdoDeaf n.toNat)
include hd

theorem exec_rpdo_heard : exec (.rpdo n data) s =
    if !s.hub.pdoRun || decide (((s.hub.mapped (0x1600 + n.toNat)).map (·.2)).sum ≠ 8 * data.length) then hubStep (·.almCount 5) s
    else if s.hub.od (0x1400 + n.toNat) 2 = 0xFE then .next ((s.rpdoApply n.toNat data).watch s)
    else hubStep (fun h => { h with alm := { h.alm with rpdoWait := tput h.alm.rpdoWait n.toNat data } }) s :=
  if_neg fun hc => hd ((s.hub.rpdoDeaf_iff _).2 hc)

theorem exec_rpdo_dropped (h : s.hub.pdoRun = false ∨ ((s.hub.mapped (0x1600 + n.toNat)).map (·.2)).sum ≠ 8 * data.length) :
    exec (.rpdo n data) s = .next (s.onHub (·.almCount 5)) := by
  rw [exec_rpdo_heard hd, if_pos (by simpa using h)]
  rfl

variable (hrun : s.hub.pdoRun = true) (hbits : ((s.hub.mapped (0x1600 + n.toNat)).map (·.2)).sum = 8 * data.length)
include hrun hbits

theorem exec_rpdo_event (htype : s.hub.od (0x1400 + n.toNat) 2 = 0xFE) :
    exec (.rpdo n data) s = .next ((s.rpdoApply n.toNat data).watch s) := by
  rw [exec_rpdo_heard hd, if_neg (by simp [hrun, hbits]), if_pos htype]

theorem exec_rpdo_sync (htype : s.hub.od (0x1400 + n.toNat) 2 ≠ 0xFE) :
    exec (.rpdo n data) s = .next (s.onHub fun h => { h with alm := { h.alm with rpdoWait := tput h.alm.rpdoWait n.toNat data } }) := by
  rw [exec_rpdo_heard hd, if_neg (by simp [hrun, hbits]), if_neg htype]
  rfl

end

end Sys2Proof.Machine
end

section
/-! SUPPORT. TPDOs (R438, R441): what sending one tells, and what the other units of a fold leave of it. -/

namespace Sys2Proof.Machine

open Sys2Proof Claims

-- One TPDO

/-- The message of TPDO `n`. -/
def Hub.tpdoMsg (h : Hub) (n : Nat) : Sent :=
  .can (h.od (0x1800 + n) 1 % 2 ^ 11) ((((h.tpdoVals n).map (·.1)).sum + 7) / 8) (pdoData (h.tpdoVals n))

theorem Hub.nodeId_of_canUp {h : Hub} (hup : h.canUp = true) : h.boot.nodeId ≠ 0 := of_decide_eq_true (Bool.and_eq_true_iff.1 hup).1

theorem Hub.canSend_of_canUp {h : Hub} (hup : h.canUp = true) (id n v : Nat) : h.canSend id n v = h.send (.can id n v) :=
  if_neg (Hub.nodeId_of_canUp hup)

theorem Hub.canUp_of_pdoRun {h : Hub} (hrun : h.pdoRun = true) : h.canUp = true := (Bool.and_eq_true_iff.1 hrun).1

theorem Hub.nmt_of_pdoRun {h : Hub} (hrun : h.pdoRun = true) : h.alm.nmt = 2 := of_decide_eq_true (Bool.and_eq_true_iff.1 hrun).2

theorem Hub.pdoRun_of_tpdoOn {h : Hub} {n : Nat} (hon : h.tpdoOn n = true) : h.pdoRun = true :=
  (Bool.and_eq_true_iff.1 (Bool.and_eq_true_iff.1 hon).1).1

theorem Hub.tpdoSend_sent {h : Hub} (hup : h.canUp = true) (n : Nat) : (h.tpdoSend n).sent = h.tpdoMsg n :: h.sent := by
  unfold Hub.tpdoSend
  extract_lets l a k
  have hk : k.canUp = true := hup
  rw [Hub.canSend_of_canUp hk]
  rfl

-- What a TPDO depends on

section
variable {h k : Hub} (hn : k.node = h.node) (hr : k.regs = h.regs)
include hn

theorem Hub.mapped_of_node (base : Nat) : k.mapped base = h.mapped base := by
  simp only [Hub.mapped, Hub.entry_of_node hn]

theorem Hub.pdoRun_of_node : k.pdoRun = h.pdoRun := by
  rw [Hub.pdoRun, Hub.pdoRun, Hub.canUp, Hub.canUp, Hub.nmt_of_node hn, Hub.boot_of_node hn]

include hr

theorem Hub.tpdoVals_of_node (n : Nat) : k.tpdoVals n = h.tpdoVals n := by
  have hget (f : Fld) : k.get f = h.get f := Hub.get_of_regs_eq f hr
  have hobj (o : Nat) : k.tpdoObj o = h.tpdoObj o := by
    simp only [Hub.tpdoObj, Hub.hottestDie, Hub.isoStatusByte, hget]
  simp only [Hub.tpdoVals, Hub.mapped_of_node hn, hobj]

theorem Hub.tpdoMsg_of_node (n : Nat) : k.tpdoMsg n = h.tpdoMsg n := by
  rw [Hub.tpdoMsg, Hub.tpdoMsg, Hub.tpdoVals_of_node hn hr, Hub.entry_of_node hn]

theorem Hub.tpdoOn_of_node (n : Nat) : k.tpdoOn n = h.tpdoOn n := by
  rw [Hub.tpdoOn, Hub.tpdoOn, Hub.pdoRun_of_node hn, Hub.tpdoVals_of_node hn hr, Hub.entry_of_node hn]

end

-- A fold over TPDOs, seen from one of them

/-- From `h` to `k` nothing of TPDO `n` changed: entries, registers, its last values, its inhibit time and its count of SYNCs; and what was sent
stays sent. -/
structure Hub.TpdoKept (n : Nat) (h k : Hub) : Prop where
  node : k.node = h.node
  regs : k.regs = h.regs
  last : tget [] k.alm.pdoLast n = tget [] h.alm.pdoLast n
  inhibit : n ∈ k.alm.pdoInhibit ↔ n ∈ h.alm.pdoInhibit
  syncs : tget 0 k.alm.syncs n = tget 0 h.alm.syncs n
  sent : ∀ m ∈ h.sent, m ∈ k.sent

theorem Hub.TpdoKept.rfl {n : Nat} {h : Hub} : h.TpdoKept n h := ⟨.refl _, .refl _, .refl _, .rfl, .refl _, fun _ hm => hm⟩

theorem Hub.TpdoKept.trans {n : Nat} {h k l : Hub} (a : h.TpdoKept n k) (b : k.TpdoKept n l) : h.TpdoKept n l :=
  ⟨b.node.trans a.node, b.regs.trans a.regs, b.last.trans a.last, b.inhibit.trans a.inhibit, b.syncs.trans a.syncs,
    fun m hm => b.sent m (a.sent m hm)⟩

theorem mem_kdel {l : List Nat} {k d : Nat} (hd : d ≠ k) : d ∈ kdel l k ↔ d ∈ l := by simp [kdel, hd]

section
variable {n i : Nat} (hi : n ≠ i)
include hi

theorem Hub.tpdoSend_kept (h : Hub) : h.TpdoKept n (h.tpdoSend i) := by
  have hcan := h.tpdoSend_canOnly i
  have hpdo : ∀ (k : Hub) (a b c : Nat), (k.canSend a b c).alm = k.alm := by
    intro k a b c
    unfold Hub.canSend
    split_ifs <;> rfl
  have hlast : (h.tpdoSend i).alm.pdoLast = tset [] h.alm.pdoLast i ((h.tpdoVals i).map (·.2)) := by
    rw [Hub.tpdoSend, hpdo]
  have hinhibit : (h.tpdoSend i).alm.pdoInhibit = if h.od (0x1800 + i) 3 = 0 then kdel h.alm.pdoInhibit i else kadd h.alm.pdoInhibit i := by
    rw [Hub.tpdoSend, hpdo]
  refine ⟨hcan.node, hcan.regs, ?_, ?_, by rw [hcan.syncs], fun m => hcan.mem_sent⟩
  · rw [hlast, tget_tset_ne _ _ _ _ hi]
  · rw [hinhibit]
    split_ifs
    · exact mem_kdel hi
    · simp [mem_kadd, hi]

theorem Hub.tpdoChange_kept (h : Hub) : h.TpdoKept n (Hub.tpdoChange i h) := by
  unfold Hub.tpdoChange
  split_ifs
  exacts [⟨.refl _, .refl _, .refl _, .rfl, .refl _, fun _ hm => hm⟩, Hub.tpdoSend_kept hi h, .rfl]

theorem Hub.tpdoSync_kept (h : Hub) : h.TpdoKept n (Hub.tpdoSync i h) := by
  unfold Hub.tpdoSync
  extract_lets t c a k
  have hk : h.TpdoKept n k := ⟨.refl _, .refl _, .refl _, .rfl, tget_tset_ne _ _ _ _ hi, fun _ hm => hm⟩
  clear_value k
  split_ifs
  exacts [hk.trans (Hub.tpdoSend_kept hi k), hk, .rfl]

end

theorem Hub.tpdoSync_node (i : Nat) (h : Hub) : (Hub.tpdoSync i h).node = h.node :=
  (Hub.tpdoSync_kept (Nat.succ_ne_self i) h).node

theorem Hub.tpdoSync_regs (i : Nat) (h : Hub) : (Hub.tpdoSync i h).regs = h.regs :=
  (Hub.tpdoSync_kept (Nat.succ_ne_self i) h).regs

/-- A fold over units meets a unit of its list once: what the others keep holds before and after it. -/
theorem overList_unit {σ : Type} {R : σ → σ → Prop} (hrefl : ∀ x, R x x) (htrans : ∀ {x y z}, R x y → R y z → R x z) {f : Nat → σ → σ} {n : Nat}
    (hf : ∀ i x, n ≠ i → R x (f i x)) {l : List Nat} (hn : n ∈ l) (hl : l.Nodup) (x : σ) : ∃ y, R x y ∧ R (f n y) (overList f l x) := by
  have hothers (l : List Nat) (hl : n ∉ l) (x : σ) : R x (overList f l x) := by
    induction l generalizing x with
    | nil => exact hrefl x
    | cons i l ih =>
      obtain ⟨hi, hl⟩ := not_or.1 (mt List.mem_cons.2 hl)
      exact htrans (hf i x hi) (ih hl (f i x))
  induction l generalizing x with
  | nil => exact absurd hn List.not_mem_nil
  | cons i l ih =>
    obtain ⟨hi, hl⟩ := List.nodup_cons.1 hl
    by_cases hni : n = i
    · subst hni
      exact ⟨x, hrefl x, hothers l hi (f n x)⟩
    · obtain ⟨y, hxy, hy⟩ := ih ((List.mem_cons.1 hn).resolve_left hni) hl (f i x)
      exact ⟨y, htrans (hf i x hni) hxy, hy⟩

-- SYNC and the start of PDOs, seen from one TPDO

section
variable {n : Nat} (hn : n < 8) {h : Hub}

section
variable (hon : h.tpdoOn n = true)
include hon

/-- A TPDO whose values are new to it, and which no inhibit time holds, is sent when changes are told. -/
theorem Hub.tpdoChange_sent (htype : h.od (0x1800 + n) 2 = 0xFE) (hnew : (h.tpdoVals n).map (·.2) ≠ tget [] h.alm.pdoLast n)
    (hinhibit : n ∉ h.alm.pdoInhibit) : h.tpdoMsg n ∈ (Hub.tpdoChange n h).sent := by
  have hsend : Hub.tpdoChange n h = h.tpdoSend n := by
    unfold Hub.tpdoChange
    rw [if_pos (by simp [hon, htype, hnew]), if_neg (by simpa using hinhibit)]
  rw [hsend, Hub.tpdoSend_sent (Hub.canUp_of_pdoRun (Hub.pdoRun_of_tpdoOn hon))]
  exact List.mem_cons_self

variable (hlow : 1 ≤ h.od (0x1800 + n) 2) (hhigh : h.od (0x1800 + n) 2 ≤ 0xF0)
include hlow hhigh

/-- A SYNC that completes the count of a TPDO sends it and clears the count; -/
theorem Hub.tpdoSync_due (hdue : h.od (0x1800 + n) 2 ≤ tget 0 h.alm.syncs n + 1) :
    h.tpdoMsg n ∈ (Hub.tpdoSync n h).sent ∧ tget 0 (Hub.tpdoSync n h).alm.syncs n = 0 := by
  unfold Hub.tpdoSync
  extract_lets t c a k
  have ht : t ≤ c := hdue
  have hsyncs : tget 0 k.alm.syncs n = 0 := (tget_tset_same _ _ _ _).trans (if_pos ht)
  have hup : k.canUp = true := Hub.canUp_of_pdoRun (Hub.pdoRun_of_tpdoOn hon)
  rw [if_pos (by simp [hon, t, hlow, hhigh]), if_pos ht, Hub.tpdoSend_sent hup, (k.tpdoSend_canOnly n).syncs]
  exact ⟨List.mem_cons_self, hsyncs⟩

/-- one that does not counts. -/
theorem Hub.tpdoSync_waits (hwait : tget 0 h.alm.syncs n + 1 < h.od (0x1800 + n) 2) :
    tget 0 (Hub.tpdoSync n h).alm.syncs n = tget 0 h.alm.syncs n + 1 := by
  unfold Hub.tpdoSync
  extract_lets t c a k
  have ht : ¬ t ≤ c := Nat.not_le.2 hwait
  rw [if_pos (by simp [hon, t, hlow, hhigh]), if_neg ht]
  exact (tget_tset_same _ _ _ _).trans (if_neg ht)

end

include hn

theorem Hub.syncs_unit (h : Hub) : ∃ k, h.TpdoKept n k ∧ (Hub.tpdoSync n k).TpdoKept n (overList Hub.tpdoSync (List.range 8) h) :=
  overList_unit (fun _ => .rfl) .trans (fun _ k hi => Hub.tpdoSync_kept hi k) (List.mem_range.2 hn) List.nodup_range h

theorem Hub.changes_unit (h : Hub) : ∃ k, h.TpdoKept n k ∧ (Hub.tpdoChange n k).TpdoKept n (overList Hub.tpdoChange (List.range 8) h) :=
  overList_unit (fun _ => .rfl) .trans (fun _ k hi => Hub.tpdoChange_kept hi k) (List.mem_range.2 hn) List.nodup_range h

variable (hon : h.tpdoOn n = true)
include hon

/-- When PDOs start, an event-driven TPDO goes out (R441). -/
theorem Hub.watch_sends (htype : h.od (0x1800 + n) 2 = 0xFE) (hnew : (h.tpdoVals n).map (·.2) ≠ tget [] h.alm.pdoLast n)
    (hinhibit : n ∉ h.alm.pdoInhibit) (h0 : Hub) : h.tpdoMsg n ∈ (h.watch h0).sent := by
  obtain ⟨k, hk, hrest⟩ := Hub.changes_unit hn h
  have hsent : k.tpdoMsg n ∈ (Hub.tpdoChange n k).sent :=
    Hub.tpdoChange_sent ((Hub.tpdoOn_of_node hk.node hk.regs n).trans hon) ((Hub.entry_of_node hk.node _ _).trans htype)
      (by rwa [Hub.tpdoVals_of_node hk.node hk.regs, hk.last]) (mt hk.inhibit.1 hinhibit)
  rw [Hub.tpdoMsg_of_node hk.node hk.regs] at hsent
  unfold Hub.watch
  rw [if_pos (Hub.pdoRun_of_tpdoOn hon)]
  extract_lets j
  split_ifs
  exacts [(Hub.emcy_canOnly _ 0 0).mem_sent (hrest.sent _ hsent), hrest.sent _ hsent]

variable (hlow : 1 ≤ h.od (0x1800 + n) 2) (hhigh : h.od (0x1800 + n) 2 ≤ 0xF0)
include hlow hhigh

theorem Hub.syncs_due (hdue : h.od (0x1800 + n) 2 ≤ tget 0 h.alm.syncs n + 1) :
    h.tpdoMsg n ∈ (overList Hub.tpdoSync (List.range 8) h).sent ∧ tget 0 (overList Hub.tpdoSync (List.range 8) h).alm.syncs n = 0 := by
  obtain ⟨k, hk, hrest⟩ := Hub.syncs_unit hn h
  have htype := Hub.entry_of_node hk.node (0x1800 + n) 2
  obtain ⟨hsent, hsyncs⟩ := Hub.tpdoSync_due ((Hub.tpdoOn_of_node hk.node hk.regs n).trans hon) (htype ▸ hlow) (htype ▸ hhigh)
    (by rwa [htype, hk.syncs])
  rw [Hub.tpdoMsg_of_node hk.node hk.regs] at hsent
  exact ⟨hrest.sent _ hsent, hrest.syncs.trans hsyncs⟩

theorem Hub.syncs_wait (hwait : tget 0 h.alm.syncs n + 1 < h.od (0x1800 + n) 2) :
    tget 0 (overList Hub.tpdoSync (List.range 8) h).alm.syncs n = tget 0 h.alm.syncs n + 1 := by
  obtain ⟨k, hk, hrest⟩ := Hub.syncs_unit hn h
  have htype := Hub.entry_of_node hk.node (0x1800 + n) 2
  rw [hrest.syncs, Hub.tpdoSync_waits ((Hub.tpdoOn_of_node hk.node hk.regs n).trans hon) (htype ▸ hlow) (htype ▸ hhigh)
    (by rwa [htype, hk.syncs]), hk.syncs]

end

end Sys2Proof.Machine
end

section
/-! PROOF. Can services act as stated (O49). -/

namespace Sys2Proof.Machine

open Sys2Proof Claims

-- RPDO and SYNC

/-- The register file, the memory and what waits are as before. -/
def Still (s t : State) : Prop := (t.mem = s.mem ∧ t.pending = s.pending) ∧ t.hub.regs = s.hub.regs

/-- POWER_LIMIT_W holds the data of an RPDO, which is counted as applied. -/
def Limited (data : List Byte) (s t : State) : Prop :=
  t.hub.od 0x2210 1 = leNat data ∧ count t 4 = (count s 4 + 1) % 2 ^ 64 ∧ count t 5 = count s 5 ∧ (t.mem = s.mem ∧ t.pending = s.pending)

/-- A count changes no entry. -/
theorem Hub.almCount_od (h : Hub) (k : Nat) : (h.almCount k).alm.od = h.alm.od := rfl

/-- The watch after a change of the hub tells CAN. -/
theorem State.watch_onHub_canOnly (s s0 : State) (f : Hub → Hub) : (f s.hub).CanOnly ((s.onHub f).watch s0).hub := Hub.watch_canOnly _ _

theorem still_watch_onHub {s : State} (s0 : State) {f : Hub → Hub} (hf : (f s.hub).regs = s.hub.regs) : Still s ((s.onHub f).watch s0) :=
  ⟨⟨rfl, rfl⟩, (s.watch_onHub_canOnly s0 f).regs.trans hf⟩

section
variable {s : State} {n : BitVec 3} {data : List (BitVec 8)}

section
variable (hd : ¬ s.hub.rpdoDeaf n.toNat) (hrun : s.hub.pdoRun = true)
include hd hrun

theorem runs_rpdo_sync (hbits : ((s.hub.mapped (0x1600 + n.toNat)).map (·.2)).sum = 8 * data.length)
    (htype : s.hub.od (0x1400 + n.toNat) 2 ≠ 0xFE) : Claims.Runs (.rpdo n data) s fun t =>
      Still s t ∧ tlook t.hub.alm.rpdoWait n.toNat = some data ∧ t.hub.alm.od = s.hub.alm.od ∧ t.hub.sent = s.hub.sent :=
  ⟨_, exec_rpdo_sync hd hrun hbits htype, ⟨⟨rfl, rfl⟩, rfl⟩, tlook_tput_same _ _ _, rfl, rfl⟩

variable (hone : s.hub.mapped (0x1600 + n.toNat) = [(0x221001, 16)]) (hlen : data.length = 2) (htype : s.hub.od (0x1400 + n.toNat) 2 = 0xFE)
include hone hlen htype

theorem exec_rpdo_powerLimit : exec (.rpdo n data) s = .next ((s.rpdoApply n.toNat data).watch s) :=
  exec_rpdo_event hd hrun (by simp [hone, hlen]) htype

theorem runs_rpdo_limited (hlock : s.hub.lockOf 0x2210 = 0 ∨ s.hub.lockOf 0x2210 = 5) (hwrites : (s.hub.odLevel 5).writes 0x2210 = true) :
    Claims.Runs (.rpdo n data) s (Limited data s) := by
  refine ⟨_, exec_rpdo_powerLimit hd hrun hone hlen htype, ?_⟩
  rw [State.rpdoApply_free hone hlen hlock hwrites]
  obtain ⟨hlimit, happlied, hdropped, -⟩ := Hub.limited_of_node
    (s.watch_onHub_canOnly s fun h => (h.powerLimit (leNat data)).almCount 4).node
  exact ⟨hlimit, happlied, hdropped, rfl, rfl⟩

theorem runs_rpdo_locked (hlock : s.hub.lockOf 0x2210 ≠ 0 ∧ s.hub.lockOf 0x2210 ≠ 5) : Claims.Runs (.rpdo n data) s fun t =>
    Still s t ∧ t.hub.alm.od = s.hub.alm.od ∧ count t 5 = (count s 5 + 1) % 2 ^ 64 := by
  refine ⟨_, exec_rpdo_powerLimit hd hrun hone hlen htype, ?_⟩
  rw [State.rpdoApply_locked hone hlen hlock]
  have hcan := s.watch_onHub_canOnly s fun h => ((h.almCount 8).almCount 5).almCount 4
  refine ⟨still_watch_onHub s ?_, hcan.od.trans ?_, ?_⟩
  · simp only [Hub.almCount_regs]
  · simp only [Hub.almCount_od]
  · rw [count, hcan.counts, Hub.almCount_ne _ (by decide), Hub.almCount_same, Hub.almCount_ne _ (by decide), count]

end

theorem exec_sync_idle (hrun : ¬ (s.hub.pdoRun = true ∧ s.hub.boot.stopped = false)) : exec .sync s = .next s :=
  if_pos (by simpa [or_iff_not_imp_left] using hrun)

/-- The state in which waiting RPDOs apply. -/
def State.takeRpdos (s : State) : State := s.onHub fun h => { h with alm := { h.alm with rpdoWait := [] } }

theorem State.count_takeRpdos (s : State) (k : Nat) : count s.takeRpdos k = count s k := rfl

variable (hrun : s.hub.pdoRun = true ∧ s.hub.boot.stopped = false)
include hrun

theorem exec_sync_run : exec .sync s = .next (((s.hub.alm.rpdoWait.foldl (fun s x => s.rpdoApply x.1 x.2) s.takeRpdos).onHub
    fun h => overList Hub.tpdoSync (List.range 8) h).watch s) :=
  if_neg (by simp [hrun])

theorem runs_sync_limited (hwait : s.hub.alm.rpdoWait = [(n.toNat, data)]) (hone : s.hub.mapped (0x1600 + n.toNat) = [(0x221001, 16)])
    (hlen : data.length = 2) (hlock : s.hub.lockOf 0x2210 = 0 ∨ s.hub.lockOf 0x2210 = 5) (hwrites : (s.hub.odLevel 5).writes 0x2210 = true) :
    Claims.Runs .sync s fun t => Limited data s t ∧ t.hub.alm.rpdoWait = [] := by
  have happly : s.hub.alm.rpdoWait.foldl (fun s x => s.rpdoApply x.1 x.2) s.takeRpdos
      = s.takeRpdos.onHub fun h => (h.powerLimit (leNat data)).almCount 4 := by
    rw [hwait]
    exact State.rpdoApply_free (s := s.takeRpdos) hone hlen hlock hwrites
  refine ⟨_, exec_sync_run hrun, ?_⟩
  rw [happly]
  have hsync (h : Hub) : (overList Hub.tpdoSync (List.range 8) h).node = h.node :=
    overList_rel (R := fun h k : Hub => k.node = h.node) (fun _ => rfl) (fun a b => b.trans a) Hub.tpdoSync_node _ h
  obtain ⟨hlimit, happlied, hdropped, hwaits⟩ := Hub.limited_of_node (h := s.takeRpdos.hub) (v := leNat data)
    (((s.takeRpdos.onHub fun h => (h.powerLimit (leNat data)).almCount 4).watch_onHub_canOnly s fun h =>
      overList Hub.tpdoSync (List.range 8) h).node.trans (hsync _))
  refine ⟨⟨hlimit, ?_, hdropped, ?_, ?_⟩, hwaits⟩
  · rw [← s.count_takeRpdos]
    exact happlied
  · simp only [State.watch, State.takeRpdos, State.onHub_mem]
  · simp only [State.watch, State.takeRpdos, State.onHub_pending]

section
variable (hwait : s.hub.alm.rpdoWait = [])
include hwait

/-- With no RPDO waiting, SYNC is for the TPDOs. -/
theorem runs_sync_tpdos {P : State → Prop} (hP : ∀ t : State, Still s t → (overList Hub.tpdoSync (List.range 8) s.hub).CanOnly t.hub → P t) :
    Claims.Runs .sync s P := by
  have htake : s.takeRpdos = s := by
    unfold State.takeRpdos State.onHub
    rw [← hwait]
  have hexec := exec_sync_run hrun
  rw [hwait, List.foldl_nil, htake] at hexec
  have hregs : (overList Hub.tpdoSync (List.range 8) s.hub).regs = s.hub.regs :=
    overList_rel (R := fun h k : Hub => k.regs = h.regs) (fun _ => rfl) (fun a b => b.trans a) Hub.tpdoSync_regs _ s.hub
  exact ⟨_, hexec, hP _ (still_watch_onHub s hregs) (s.watch_onHub_canOnly s _)⟩

variable (hon : s.hub.tpdoOn n.toNat = true) (hlow : 1 ≤ s.hub.od (0x1800 + n.toNat) 2) (hhigh : s.hub.od (0x1800 + n.toNat) 2 ≤ 0xF0)
include hon hlow hhigh

theorem runs_sync_due (hdue : s.hub.od (0x1800 + n.toNat) 2 ≤ tget 0 s.hub.alm.syncs n.toNat + 1) : Claims.Runs .sync s fun t =>
    Still s t ∧ s.hub.tpdoMsg n.toNat ∈ t.hub.sent ∧ tget 0 t.hub.alm.syncs n.toNat = 0 := by
  obtain ⟨hsent, hsyncs⟩ := Hub.syncs_due n.isLt hon hlow hhigh hdue
  exact runs_sync_tpdos hrun hwait fun t ht hcan => ⟨ht, hcan.mem_sent hsent, (congrArg (tget 0 · n.toNat) hcan.syncs).trans hsyncs⟩

theorem runs_sync_waits (hlate : tget 0 s.hub.alm.syncs n.toNat + 1 < s.hub.od (0x1800 + n.toNat) 2) : Claims.Runs .sync s fun t =>
    Still s t ∧ tget 0 t.hub.alm.syncs n.toNat = tget 0 s.hub.alm.syncs n.toNat + 1 :=
  runs_sync_tpdos hrun hwait fun _ ht hcan =>
    ⟨ht, (congrArg (tget 0 · n.toNat) hcan.syncs).trans (Hub.syncs_wait n.isLt hon hlow hhigh hlate)⟩

end
end

-- Timers

section
variable {s : State} {n : BitVec 3}

theorem exec_tpdoEventTimer : exec (.tpdoEventTimer n) s = .next (s.onHub fun h =>
    if h.tpdoOn n.toNat && !h.boot.stopped && decide (h.od (0x1800 + n.toNat) 2 = 0xFE) && decide (h.od (0x1800 + n.toNat) 5 ≠ 0)
    then h.tpdoSend n.toNat else h) := rfl

theorem runs_tpdoEventTimer (hon : s.hub.tpdoOn n.toNat = true ∧ s.hub.boot.stopped = false) (htype : s.hub.od (0x1800 + n.toNat) 2 = 0xFE)
    (htimer : s.hub.od (0x1800 + n.toNat) 5 ≠ 0) : Claims.Runs (.tpdoEventTimer n) s fun t =>
      Still s t ∧ t.hub.sent = s.hub.tpdoMsg n.toNat :: s.hub.sent ∧ t.hub.alm.od = s.hub.alm.od := by
  refine ⟨_, exec_tpdoEventTimer, ?_⟩
  rw [State.onHub, if_pos (by simp [hon, htype, htimer])]
  have hcan := s.hub.tpdoSend_canOnly n.toNat
  exact ⟨⟨⟨rfl, rfl⟩, hcan.regs⟩, Hub.tpdoSend_sent (Hub.canUp_of_pdoRun (Hub.pdoRun_of_tpdoOn hon.1)) _, hcan.od⟩

theorem exec_tpdoEventTimer_idle (h : ¬ (s.hub.tpdoOn n.toNat = true ∧ s.hub.boot.stopped = false) ∨ s.hub.od (0x1800 + n.toNat) 2 ≠ 0xFE
    ∨ s.hub.od (0x1800 + n.toNat) 5 = 0) : exec (.tpdoEventTimer n) s = .next s := by
  rw [exec_tpdoEventTimer, State.onHub, if_neg]
  simp only [Bool.and_eq_true, Bool.not_eq_true', decide_eq_true_eq]
  rintro ⟨⟨hon, htype⟩, htimer⟩
  exact h.elim (fun h => h hon) fun h => h.elim (fun h => h htype) htimer

theorem runs_inhibitExpiry_emcy_none (hq : s.hub.alm.emcyQ = []) : Claims.Runs (.inhibitExpiry true n) s fun t =>
    Still s t ∧ t.hub.sent = s.hub.sent ∧ t.hub.alm.emcyInhibit = false := by
  have hexec : exec (.inhibitExpiry true n) s
      = .next (s.onHub fun h => { h with alm := { h.alm with emcyInhibit := false, emcyQ := h.alm.emcyQ.drop 1 } }) := by
    simp only [exec, execInhibitExpiry, hubStep, State.onHub, if_true, hq]
  exact ⟨_, hexec, ⟨⟨rfl, rfl⟩, rfl⟩, rfl, rfl⟩

theorem runs_inhibitExpiry_emcy {m : Nat × Nat} {l : List (Nat × Nat)} (hq : s.hub.alm.emcyQ = m :: l) (hup : s.hub.canUp = true)
    (hnmt : s.hub.alm.nmt ≠ 3) (hrun : s.hub.boot.stopped = false) : Claims.Runs (.inhibitExpiry true n) s fun t =>
      Still s t ∧ t.hub.sent = .emcy m.1 m.2 :: s.hub.sent ∧ t.hub.alm.emcyQ = l
        ∧ (t.hub.alm.emcyInhibit = true ↔ s.hub.od 0x1015 0 ≠ 0) := by
  have hgoes : (s.hub.canUp && decide (s.hub.alm.nmt ≠ 3) && !s.hub.boot.stopped) = true := by simp [hup, hnmt, hrun]
  have hexec : exec (.inhibitExpiry true n) s = .next (s.onHub fun h => Hub.send
      { h with alm := { h.alm with emcyInhibit := decide (h.od 0x1015 0 ≠ 0), emcyQ := h.alm.emcyQ.drop 1 } } (.emcy m.1 m.2)) := by
    simp only [exec, execInhibitExpiry, hubStep, State.onHub, if_true, hq, if_pos hgoes]
  exact ⟨_, hexec, ⟨⟨rfl, rfl⟩, rfl⟩, rfl, congrArg (List.drop 1) hq, decide_eq_true_iff⟩

/-- The inhibit time of a TPDO has passed, and nothing of it is held. -/
def Hub.pdoFree (h : Hub) (n : Nat) : Hub :=
  { h with alm := { h.alm with pdoInhibit := kdel h.alm.pdoInhibit n, pdoHeld := kdel h.alm.pdoHeld n } }

theorem exec_inhibitExpiry_pdo : exec (.inhibitExpiry false n) s = .next (s.onHub fun h =>
    if h.alm.pdoHeld.contains n.toNat && (h.pdoFree n.toNat).tpdoOn n.toNat && !(h.pdoFree n.toNat).boot.stopped
    then (h.pdoFree n.toNat).tpdoSend n.toNat else h.pdoFree n.toNat) := rfl

theorem runs_inhibitExpiry_held (hheld : n.toNat ∈ s.hub.alm.pdoHeld) (hon : s.hub.tpdoOn n.toNat = true ∧ s.hub.boot.stopped = false) :
    Claims.Runs (.inhibitExpiry false n) s fun t => Still s t ∧ t.hub.sent = s.hub.tpdoMsg n.toNat :: s.hub.sent := by
  have hup : (s.hub.pdoFree n.toNat).canUp = true := Hub.canUp_of_pdoRun (Hub.pdoRun_of_tpdoOn hon.1)
  have hon' : (s.hub.pdoFree n.toNat).tpdoOn n.toNat = true := hon.1
  have hrun' : (s.hub.pdoFree n.toNat).boot.stopped = false := hon.2
  refine ⟨_, exec_inhibitExpiry_pdo, ?_⟩
  rw [State.onHub, if_pos (by simp [hheld, hon', hrun'])]
  exact ⟨⟨⟨rfl, rfl⟩, (Hub.tpdoSend_canOnly _ _).regs⟩, Hub.tpdoSend_sent hup _⟩

theorem runs_inhibitExpiry_free (hheld : n.toNat ∉ s.hub.alm.pdoHeld) : Claims.Runs (.inhibitExpiry false n) s fun t =>
    Still s t ∧ t.hub.sent = s.hub.sent ∧ t.hub.alm.pdoInhibit = kdel s.hub.alm.pdoInhibit n.toNat := by
  refine ⟨_, exec_inhibitExpiry_pdo, ?_⟩
  rw [State.onHub, if_neg (by simp [hheld])]
  exact ⟨⟨⟨rfl, rfl⟩, rfl⟩, rfl, rfl⟩

/-- The node beats. -/
def Hub.beats (h : Hub) : Prop := h.canUp = true ∧ h.boot.stopped = false ∧ h.od 0x1017 0 ≠ 0

theorem exec_heartbeatProduce : exec .heartbeatProduce s = .next (s.onHub fun h =>
    if h.canUp && !h.boot.stopped && decide (h.od 0x1017 0 ≠ 0) then h.canSend (0x700 + h.boot.nodeId) 1 (nmtCode h.alm.nmt) else h) := rfl

theorem exec_heartbeatProduce_beats (hb : s.hub.beats) :
    exec .heartbeatProduce s = .next (s.onHub (·.send (.can (0x700 + s.hub.boot.nodeId) 1 (nmtCode s.hub.alm.nmt)))) := by
  obtain ⟨hup, hrun, hrate⟩ := hb
  rw [exec_heartbeatProduce, State.onHub, if_pos (by simp [hup, hrun, hrate]), Hub.canSend_of_canUp hup]
  rfl

theorem exec_heartbeatProduce_idle (hb : ¬ s.hub.beats) : exec .heartbeatProduce s = .next s := by
  rw [exec_heartbeatProduce, State.onHub, if_neg]
  simpa [Hub.beats, and_assoc] using hb

end

-- NMT

/-- The node obeys NMT. -/
theorem Hub.nmtLive_iff (h : Hub) : h.nmtLive = true ↔ h.canUp = true ∧ h.boot.halt = false ∧ h.boot.stopped = false := by
  simp [Hub.nmtLive, and_assoc]

section
variable {s : State} {n : BitVec 3}

/-- The state in which PDOs begin. -/
def Hub.pdoStart (h : Hub) : Hub := Hub.setNmt { h with alm := { h.alm with pdoLast := [] } } 2

theorem exec_nmtStart : exec .nmtStart s = .next (s.onHub fun h => (if h.nmtLive && decide (h.alm.nmt ≠ 2) then h.pdoStart else h).watch h) := rfl

theorem runs_nmtStart_idle (h : ¬ s.hub.nmtLive = true ∨ s.hub.alm.nmt = 2) : Claims.Runs .nmtStart s fun t =>
    Still s t ∧ t.hub.alm.nmt = s.hub.alm.nmt := by
  refine ⟨_, exec_nmtStart, ?_⟩
  have hcan := s.hub.watch_canOnly s.hub
  rw [State.onHub, if_neg (by simpa [or_iff_not_imp_left] using h)]
  exact ⟨⟨⟨rfl, rfl⟩, hcan.regs⟩, hcan.nmt⟩

/-- A command of NMT that a node obeys, -/
theorem onHub_obey (hl : s.hub.nmtLive = true) (f : Hub → Hub) : s.onHub (fun h => if h.nmtLive then f h else h) = s.onHub f := by
  rw [State.onHub, if_pos hl, State.onHub]

/-- and one that it does not. -/
theorem onHub_ignore (hl : ¬ s.hub.nmtLive = true) (f : Hub → Hub) : s.onHub (fun h => if h.nmtLive then f h else h) = s := by
  rw [State.onHub, if_neg hl]

theorem exec_nmtStop_idle (hl : ¬ s.hub.nmtLive = true) : exec .nmtStop s = .next s ∧ exec .nmtEnterPreOperational s = .next s
    ∧ exec .nmtResetNode s = .next s ∧ exec .nmtResetCommunication s = .next s :=
  ⟨congrArg _ (onHub_ignore hl (·.setNmt 3)), congrArg _ (onHub_ignore hl (·.setNmt 1)), congrArg _ (onHub_ignore hl (·.nmtReset)),
    congrArg _ (onHub_ignore hl fun h => h.nmtReset.lockLapse 5)⟩

variable (hl : s.hub.nmtLive = true)
include hl

theorem exec_nmtStop : exec .nmtStop s = .next (s.onHub (·.setNmt 3)) ∧ exec .nmtEnterPreOperational s = .next (s.onHub (·.setNmt 1)) :=
  ⟨congrArg _ (onHub_obey hl (·.setNmt 3)), congrArg _ (onHub_obey hl (·.setNmt 1))⟩

section
variable (hnmt : s.hub.alm.nmt ≠ 2)
include hnmt

theorem exec_nmtStart_live : exec .nmtStart s = .next (s.onHub fun h => h.pdoStart.watch h) := by
  rw [exec_nmtStart, State.onHub, if_pos (by simp [hl, hnmt]), State.onHub]

theorem runs_nmtStart : Claims.Runs .nmtStart s fun t => Still s t ∧ t.hub.alm.nmt = 2 ∧ t.hub.alm.od = s.hub.alm.od := by
  have hcan := s.hub.pdoStart.watch_canOnly s.hub
  exact ⟨_, exec_nmtStart_live hl hnmt, ⟨⟨rfl, rfl⟩, hcan.regs⟩, hcan.nmt, hcan.od⟩

theorem runs_nmtStart_sends (hvalid : (s.hub.od (0x1800 + n.toNat) 1).testBit 31 = false) (hvals : s.hub.tpdoVals n.toNat ≠ [])
    (htype : s.hub.od (0x1800 + n.toNat) 2 = 0xFE) (hinhibit : n.toNat ∉ s.hub.alm.pdoInhibit) :
    Claims.Runs .nmtStart s fun t => s.hub.tpdoMsg n.toNat ∈ t.hub.sent := by
  have hbit : bitAt (s.hub.od (0x1800 + n.toNat) 1) 31 = false := Nat.testBit_eq_decide_div_mod_eq.symm.trans hvalid
  have hid : s.hub.boot.nodeId ≠ 0 := Hub.nodeId_of_canUp ((Hub.nmtLive_iff _).1 hl).1
  have hrun : s.hub.pdoStart.pdoRun = true := by simp [Hub.pdoRun, Hub.canUp, Hub.pdoStart, Hub.setNmt, hid]
  have hon : s.hub.pdoStart.tpdoOn n.toNat = true := by
    rw [Hub.tpdoOn, hrun, show s.hub.pdoStart.tpdoVals n.toNat = s.hub.tpdoVals n.toNat from rfl,
      show s.hub.pdoStart.od (0x1800 + n.toNat) 1 = s.hub.od (0x1800 + n.toNat) 1 from rfl, hbit]
    simpa using hvals
  have hnew : (s.hub.pdoStart.tpdoVals n.toNat).map (·.2) ≠ tget [] s.hub.pdoStart.alm.pdoLast n.toNat := fun h => hvals (List.map_eq_nil_iff.1 h)
  exact ⟨_, exec_nmtStart_live hl hnmt, Hub.watch_sends n.isLt hon htype hnew hinhibit s.hub⟩

end

/-- The node as after a reset of its communication (R440): entries 0x1000 to 0x1FFF at their defaults, the rates in effect, Pre-operational. -/
def Renewed (s t : State) : Prop :=
  Still s t ∧ t.hub.alm.nmt = 1 ∧ t.hub.sent = .can (0x700 + s.hub.boot.nodeId) 1 0 :: s.hub.sent
    ∧ t.hub.alm.rate = s.hub.od 0x2001 1 ∧ t.hub.alm.dataRate = s.hub.od 0x2001 2
    ∧ (∀ i : BitVec 12, ∀ j : BitVec 8, t.hub.od (0x1000 + i.toNat) j.toNat = odDefault s.hub.boot.nodeId ((0x1000 + i.toNat) * 256 + j.toNat))
    ∧ (∀ i : BitVec 16, ∀ j : BitVec 8, 0x2000 ≤ i.toNat → t.hub.od i.toNat j.toNat = s.hub.od i.toNat j.toNat)

omit hl in
/-- An entry after a reset: at its default in the communication area, as it was elsewhere. -/
theorem Hub.entry_nmtReset (h : Hub) (ix : Nat) {sub : Nat} (hsub : sub < 256) : h.nmtReset.od ix sub =
    if 0x1000 ≤ ix ∧ ix < 0x2000 then odDefault h.boot.nodeId (ix * 256 + sub) else h.od ix sub := by
  have hod : h.nmtReset.alm.od = h.alm.od.filter fun x => decide (x.1 / 256 < 0x1000) || decide (0x2000 ≤ x.1 / 256) :=
    (Hub.canSend_canOnly _ _ _ _).od
  have hboot : h.nmtReset.boot = h.boot := (Hub.canSend_canOnly _ _ _ _).boot
  have hix : (ix * 256 + sub) / 256 = ix := by omega
  rw [Hub.od, hod, hboot, tget, tlook_filter_key (fun k => decide (k / 256 < 0x1000) || decide (0x2000 ≤ k / 256)), hix]
  by_cases hin : 0x1000 ≤ ix ∧ ix < 0x2000
  · rw [if_neg (by simpa using hin), if_pos hin]
    rfl
  · rw [if_pos (by simpa [or_iff_not_imp_left] using hin), if_neg hin]
    rfl

theorem renewed_nmtReset : Renewed s (s.onHub (·.nmtReset)) := by
  have hid : s.hub.boot.nodeId ≠ 0 := Hub.nodeId_of_canUp ((Hub.nmtLive_iff _).1 hl).1
  refine ⟨⟨⟨rfl, rfl⟩, (Hub.canSend_canOnly _ _ _ _).regs⟩, (Hub.canSend_canOnly _ _ _ _).nmt, ?_, ?_, ?_, fun i j => ?_, fun i j hi => ?_⟩
  · exact congrArg Hub.sent (if_neg hid)
  · exact congrArg (fun h : Hub => h.alm.rate) (if_neg hid)
  · exact congrArg (fun h : Hub => h.alm.dataRate) (if_neg hid)
  · exact (s.hub.entry_nmtReset _ j.isLt).trans (if_pos (by omega))
  · exact (s.hub.entry_nmtReset _ j.isLt).trans (if_neg (by omega))

omit hl in
theorem Hub.locks_nmtReset (h : Hub) : h.nmtReset.alm.locks = h.alm.locks := (Hub.canSend_canOnly _ _ _ _).locks

theorem runs_nmtResetNode : Claims.Runs .nmtResetNode s fun t => Renewed s t ∧ t.hub.alm.locks = s.hub.alm.locks :=
  ⟨_, congrArg Host.Outcome.next (onHub_obey hl (·.nmtReset)), renewed_nmtReset hl, s.hub.locks_nmtReset⟩

theorem runs_nmtResetCommunication : Claims.Runs .nmtResetCommunication s fun t =>
    Renewed s t ∧ t.hub.alm.locks = s.hub.alm.locks.filter fun l => !decide (l.2 = 5) :=
  ⟨_, congrArg Host.Outcome.next (onHub_obey hl fun h => h.nmtReset.lockLapse 5), renewed_nmtReset hl, congrArg (List.filter _) s.hub.locks_nmtReset⟩

end

-- Bus-off

section
variable {s : State}

theorem exec_canBusOff : exec .canBusOff s = .next (s.onHub fun h =>
    if h.canUp && !h.boot.stopped then h.record { code := 0x0F01, cls := 0, inst := 5 } else h) := rfl

theorem runs_canBusOff (hup : s.hub.canUp = true) (hrun : s.hub.boot.stopped = false) (hmor : s.hub.mor = []) : Claims.Runs .canBusOff s fun t =>
    (t.mem = s.mem ∧ t.pending = s.pending) ∧ t.hub.mor.map (fun x => (x.2.code, x.2.inst, x.2.cls)) = [(0x0F01, 5, 0)]
      ∧ t.hub.alm.nmt = s.hub.alm.nmt ∧ t.hub.alm.od = s.hub.alm.od := by
  refine ⟨_, exec_canBusOff, ?_⟩
  rw [State.onHub, if_pos (by simp [hup, hrun])]
  obtain ⟨r, hr, hcode, hinst, hcls⟩ := Hub.record_mor_of_nil hmor { code := 0x0F01, cls := 0, inst := 5 }
  have hnode := s.hub.record_node { code := 0x0F01, cls := 0, inst := 5 }
  exact ⟨⟨rfl, rfl⟩, by simp [hr, hcode, hinst, hcls], Hub.nmt_of_node hnode, Hub.od_of_node hnode⟩

theorem exec_canBusOff_idle (h : s.hub.canUp = false ∨ s.hub.boot.stopped = true) : exec .canBusOff s = .next s := by
  rw [exec_canBusOff, State.onHub, if_neg]
  rcases h with h | h <;> simp [h]

end

/-- Settles O49: every service is a short list of commands over the hub; what follows one through events, records and the watch leaves the node's
own state (`Hub.node`), and in a fold over the TPDOs the others leave each its own. -/
theorem canServicesActAsStated : Obligations.CanServicesActAsStated := by
  unfold Obligations.CanServicesActAsStated
  intro n data s cm tl
  refine ⟨exec_rpdo_deaf, exec_rpdo_dropped, Hub.nmt_of_pdoRun, ?_, ?_, ?_, exec_sync_idle, ?_, ?_, ?_, runs_tpdoEventTimer, exec_tpdoEventTimer_idle,
    runs_inhibitExpiry_emcy_none, runs_inhibitExpiry_emcy, runs_inhibitExpiry_held, runs_inhibitExpiry_free, exec_heartbeatProduce_beats,
    exec_heartbeatProduce_idle, ?_, ?_, ?_, ?_, ?_, ?_, ?_, runs_canBusOff, exec_canBusOff_idle⟩
  · intro hd hrun hbits htype
    exact runs_rpdo_sync hd hrun.1 hbits htype
  · intro hd hrun hone hlen hfree htype
    exact runs_rpdo_limited hd hrun.1 hone hlen htype hfree.1 hfree.2
  · intro hd hrun hone hlen hlocked hother htype
    exact runs_rpdo_locked hd hrun.1 hone hlen htype ⟨hlocked, hother⟩
  · intro hrun hwait hone hlen hfree
    exact runs_sync_limited hrun hwait hone hlen hfree.1 hfree.2
  · intro hrun hwait hon hlow hhigh hdue
    exact runs_sync_due hrun hwait hon.1 hlow hhigh hdue
  · intro hrun hwait hon hlow hhigh hlate
    exact runs_sync_waits hrun hwait hon.1 hlow hhigh hlate
  · exact fun hl hnmt => runs_nmtStart ((Hub.nmtLive_iff _).2 hl) hnmt
  · exact fun hl hnmt hvalid hvals htype hinhibit => runs_nmtStart_sends ((Hub.nmtLive_iff _).2 hl) hnmt hvalid hvals htype hinhibit
  · exact fun h => runs_nmtStart_idle (h.imp_left (mt (Hub.nmtLive_iff _).1))
  · exact fun hl => exec_nmtStop ((Hub.nmtLive_iff _).2 hl)
  · exact fun hl => runs_nmtResetNode ((Hub.nmtLive_iff _).2 hl)
  · exact fun hl => runs_nmtResetCommunication ((Hub.nmtLive_iff _).2 hl)
  · exact fun hl => exec_nmtStop_idle (mt (Hub.nmtLive_iff _).1 hl)

end Sys2Proof.Machine
end
